-- ==== Sys2Proof/Word.lean ====
section
/-! DEFINITION. The word types of the block and their plainest arithmetic (R5 to R8 of spec/00_scope.md). -/

namespace Sys2Proof

/-- One byte of an object, frame or record (R7, R8). -/
abbrev Byte := BitVec 8

/-- UNSIGNED16 (Table 5.8). -/
abbrev Word16 := BitVec 16

/-- UNSIGNED32 (Table 5.8). -/
abbrev Word32 := BitVec 32

/-- A byte string in wire order. -/
abbrev Bytes := List Byte

end Sys2Proof
end

