-- ==== Sys2Proof/Syntax.lean ====
section
/-! DEFINITION. The commands of the block: one constructor of `Instr` for each row of
`spec/opcode_table.json`, with the operands the row's rule takes from outside: the words of a host's
write, the levels at the balls, the outcome of a physical measurement. -/

namespace Sys2Proof

/-- The two CAN FD buses (R105). -/
inductive Bus where
  | canA | canB
  deriving DecidableEq, Repr

/-- The formats of a frame on a CAN bus: classical, FD with the ISO CRC, the same with the bit-rate switch set, FD
without the ISO CRC, and a remote frame (R105). -/
inductive CanFormat where
  | classical | fd | fdBrs | nonIso | remote
  deriving DecidableEq, Repr

/-- A CAN frame received: on which bus, and in which form (R105). -/
structure CanRx where
  bus : Bus
  format : CanFormat
  deriving DecidableEq, Repr

/-- A USDO transfer in progress: its client, the tick of its last segment, and whether the next segment is acknowledged into
the HI on this edge (R25, R140). -/
structure UsdoTransfer where
  client : BitVec 7
  lastAt : Nat
  onEdge : Bool
  deriving DecidableEq, Repr

/-- Where a host request arrives: a CANopen client on a bus, named by its node-ID, or the SPI port,
where the frame names the session (R118). -/
inductive Path where
  /-- A USDO request of the client with this node-ID (R118). -/
  | can (bus : Bus) (client : BitVec 7)
  /-- An SPI frame whose session byte is this (Table 5.3). -/
  | spi (session : Byte)
  deriving DecidableEq, Repr

/-- The islands of Table 1.1, in the order of their identifiers (R16). -/
inductive Island where
  | hi | ao | ci | si | vi | sq | ti | aq | mi | lv | cl
  deriving DecidableEq, Repr

/-- How an internal bus master touches an address (R19, event code 0x0001). -/
inductive AccessKind where
  | read | write | execute
  deriving DecidableEq, Repr

/-- The monitored supply rails of Table 3.1. -/
inductive Rail where
  | vddAo | vbat | vddCore | vddIo18 | vddIo33 | vddSec | vddPll | vddqDram
  deriving DecidableEq, Repr

/-- What can wake the device from deep sleep (R78, 0x2003:0A). -/
inductive WakeSource where
  /-- RST_N. -/
  | rstN
  /-- The event-router consumer "wake", bit 0 of 0x2003:0A. -/
  | router
  /-- SPI_CS_N low for 1 µs, bit 1 of 0x2003:0A. -/
  | spiCs
  deriving DecidableEq, Repr

/-- The ranges of a store or restore of parameters: sub-indices 01, 02 and 03 of 0x1010 and 0x1011 (R123). -/
inductive StoreRange where
  | all | communication | device
  deriving DecidableEq, Repr

/-- A window data object: 0x5000, or the program window 0x3200 + s (R133, R134). -/
inductive Window where
  | main
  | program (sq : Fin 16)
  deriving DecidableEq, Repr

/-- A fuse word of which some bits do not verify after the further pulses of R154. -/
structure FuseFault where
  /-- The fuse word. -/
  word : Byte
  /-- The bits that stay unblown. -/
  bits : Word32
  deriving DecidableEq, Repr

/-- How the fuses take a transition's bits: the bits that stay unblown, and where the AO rail fails inside it the number of words
programmed before (R69, R153). -/
structure BlowRun where
  faults : List FuseFault
  cut : Option Nat
  deriving DecidableEq, Repr

/-- What a fuse skim reads: the marginal words, and of word 3 the marginal bits (R148, R150). -/
structure SkimRead where
  words : List Byte
  intentBits : Word32
  deriving DecidableEq, Repr

/-- The fields of a debug request frame after its opcode (R168). -/
structure DebugFrame where
  address : Word32
  data : Word32
  crc : Byte
  deriving DecidableEq, Repr

/-- An identify frame, or one whose opcode Table 6.10 does not list (R168). -/
structure IdentifyFrame where
  opcode : Byte
  frame : DebugFrame
  deriving DecidableEq, Repr

/-- An authorised operation (R183) without its operation code: nonce, the owner byte and the rest of
the body, and the authorisations. -/
structure AuthOp where
  nonce : Bytes
  owner : Byte
  rest : Bytes
  auths : Bytes
  deriving DecidableEq, Repr

/-- The on-die sensors of Table 7.9. -/
inductive Sensor where
  | supply | temperature | clock | light
  deriving DecidableEq, Repr

/-- A job record without its opcode (Table 8.2), with its parameter block and its inline input. -/
structure JobReq where
  flags : Byte
  jobId : Word16
  slot : Word16
  inputLen : Word32
  inputOffset : BitVec 64
  outputOffset : BitVec 64
  reserved : Word32
  params : Bytes
  inline : Bytes
  deriving DecidableEq, Repr

/-- The engines of Table 8.1. -/
inductive Engine where
  | aes (n : Fin 4)
  | sha (n : Fin 2)
  | drbg
  | sau
  | vi
  deriving DecidableEq, Repr

/-- The health tests of Table 8.8. -/
inductive EntropyTest where
  | startUp | repetition | proportion
  deriving DecidableEq, Repr

/-- A level at a lane's ball that does not last: its width in ps, and how much of that lies in the compare window of the
vector (R49, R277). -/
structure LanePulse where
  lane : Nat
  widthPs : Nat
  insidePs : Nat
  deriving DecidableEq, Repr

/-- What the lanes' balls show at the compare edges of one vector (R277): the level of each lane at C_OPEN; the lanes at which
that level is a pulse (a lane not listed has held its level and keeps it); and the deviations from it before C_CLOSE. -/
structure LaneObs where
  levels : BitVec 64
  pulses : List LanePulse
  deviations : List LanePulse
  deriving DecidableEq, Repr

/-- How far a WAIT comes at a command: its sequencer, and the hold vectors now emitted (R254). -/
structure WaitRun where
  sq : Fin 16
  holds : Nat
  deriving DecidableEq, Repr

/-- An edge on a timed lane: its time after the start of the measurement, in 10 ps, and how long its level lasts, in ps (R49, R344). -/
structure TimedEdge where
  tenPs : Nat
  widthPs : Nat
  deriving DecidableEq, Repr

/-- A level at an event ball or a tapped lane, and how long it lasts, in ps (R49, R409). -/
structure TapLevel where
  level : Bool
  widthPs : Nat
  deriving DecidableEq, Repr

/-- A commit: whether the record's word is torn, and whether CH_12 overran meanwhile (R22, R467). -/
structure CommitRun where
  torn : Bool
  overrun : Bool
  deriving DecidableEq, Repr

/-- The level sampled at the input of a tamper loop (R198). -/
structure LoopSample where
  loop : Fin 4
  level : Bool
  deriving DecidableEq, Repr

/-- The outcome of the training of one channel (R371): whether every step found its edge, the
capacity and ranks read from the mode registers (R360), and the trained delays in the order of
sub-indices 03 to 05. -/
structure TrainResult where
  passed : Bool
  gib : Nat
  ranks : Nat
  values : List Word16
  deriving DecidableEq, Repr

/-- The admitted shares of R380: 0x4900:05, 0x4900:06 and 0x4800:0E. -/
inductive ShareKind where
  | secure | conductor | rowHammer
  deriving DecidableEq, Repr

/-- Why a DRAM channel faults (0x4800:12). -/
inductive ChannelCause where
  | training | uncorrectable | phyLock | mismatch
  deriving DecidableEq, Repr

/-- The fields of a level channel's staged set: sub-indices 02, 05, 06, 07 and 08 of 0x3900 (R408). -/
inductive StagedField where
  | code | mode | centre | amplitude | frequency
  deriving DecidableEq, Repr

/-- The word an ECC scrub finds in error (R458). -/
inductive ScrubTarget where
  /-- A word of an island's SRAM. -/
  | sram (island : Island) (address : Word32)
  /-- A word of user flash. -/
  | flash (address : Word32)
  /-- A data word of a DRAM channel, at a usable-space offset. -/
  | dram (ch : Fin 2) (offset : Nat)
  deriving DecidableEq, Repr

/-- One telemetry sample (R462): temperatures of AO, CI, SI, TI and MI in 0.1 °C, the rail voltages,
the DRAM class rates and the channel peaks of Table 18.4. -/
structure Telemetry where
  temps : List Int
  rails : List Word16
  rates : List Word32
  peaks : Bytes
  deriving DecidableEq, Repr

/-- A pair request (R492) without its role. -/
structure PairReq where
  nonce : Bytes
  serial : Word32
  node : Byte
  key : Bytes
  auths : Bytes
  deriving DecidableEq, Repr

/-- The outside levels the event router follows (R409): EVI_k, or lane tap 0 or 1. -/
inductive EventSource where
  | evi (k : Fin 8)
  | laneTap (tap : Fin 2)
  deriving DecidableEq, Repr

/-- The trace packets a core's control flow makes (Table 19.5). -/
inductive TraceKind where
  | exception | ret | branch
  deriving DecidableEq, Repr

/-- How an SPI transaction is framed: SPI_CS_N rose within a byte (R113), and the level of SPI_SCK when it fell (R45). -/
structure SpiFraming where
  /-- The last byte is not whole. -/
  broken : Bool := false
  /-- SPI_SCK was high. -/
  sckHigh : Bool := false
  deriving DecidableEq, Repr

/-- One command of the block: the rows of `spec/opcode_table.json`, in the table's order. Each
docstring gives the row's mnemonic, its rule and what it stands for. -/
inductive Instr where
  /-- `OBJECT_WRITE` (R31). A host write to an object that has no row of its own passes frame, session, access, ledger and value checks, is dispatched to the owning island and is answered. -/
  | objectWrite (p : Path) (tag : Word16) (index : Word16) (sub : Byte) (payload : Bytes)
  /-- `CONDUCTOR_ACCESS_FAULT` (R20). An internal bus access that touches a forbidden address is refused whole and recorded, and the conductor takes an access fault. -/
  | conductorAccessFault (master : Island) (partition : Option (Fin 8)) (kind : AccessKind) (addr : Word32) (len : Nat)
  /-- `RST_N_RESET` (R42). RST_N held low for its filter time causes a chip reset and restarts start-up at time 0 after deassertion. -/
  | rstNReset (lowNs : Nat)
  /-- `CHIP_RESET` (R68). A chip reset reaches every island except the AO core, ends every session, empties ledgers and restarts start-up at time 0. -/
  | chipReset (causes : BitVec 12)
  /-- `AO_POWER_ON_RESET` (R67). The AO rail falling below its retention level resets the AO core, which checks the root key and marks it lost if the check fails. -/
  | aoPowerOnReset
  /-- `RAIL_BROWN_OUT` (R64). A rail falling below its brown-out threshold causes the reaction of Table 3.1: chip reset, island reset, AO switch to VBAT or VBAT low flag. -/
  | railBrownOut (rail : Rail) (minMv : Nat) (dipNs : Nat)
  /-- `RAIL_GOOD` (R64). A rail that has stayed above its good threshold for 200 µs becomes good, releasing reset, reloading an island or switching the AO back. -/
  | railGood (rail : Rail)
  /-- `STARTUP_REFCLK_CHECK` (R73). At 100 µs and every 1 ms while failing, REFCLK is checked against the strap value and start-up continues or a REFCLK-fault record is written. -/
  | startupRefclkCheck (measuredHz : Nat)
  /-- `BOOT_IMAGE_VERIFIED` (R163). The boot ROM's check of the preferred and then the other slot completes and the first bootable image's partitions start, or reduced service applies. -/
  | bootImageVerified
  /-- `DICTIONARY_ONLINE` (R107). The HI leaves reset, CAN services initialise, each bus sends the boot-up message and NMT becomes pre-operational. -/
  | dictionaryOnline
  /-- `SI_START` (R228). On SI start the key store reloads from blobs and the known-answer self-tests run before the SI reads running. -/
  | siStart (selfTest : BitVec 9) (entropyOk : Bool)
  /-- `READY_TO_ARM` (R72). When the MI, SI and TI are all running the device becomes ready to arm, writes 0x2003:0C and releases FAULT_N. -/
  | readyToArm
  /-- `CHIP_RESET_COMMAND` (R80). A write of 0x0000_00A5 to 0x2003:08 causes a chip reset after the answer is sent. -/
  | chipResetCommand (p : Path) (tag : Word16)
  /-- `DEEP_SLEEP_COMMAND` (R76). A write of 0x01 to 0x2003:09 is checked, answered, and all islands but the AO reset and power off within 1 ms. -/
  | deepSleepCommand (p : Path) (tag : Word16)
  /-- `DEEP_SLEEP_WAKE` (R78). RST_N or an enabled wake source causes a chip reset with cause deep-sleep wake, a wake during entry being latched until entry completes. -/
  | deepSleepWake (source : WakeSource)
  /-- `REFCLK_LOST` (R82). Loss of REFCLK switches handshake islands to the standby oscillator, faults TI, SQ and AQ, puts DRAM in self-refresh and marks time quality bad. -/
  | refclkLost (measuredHz : Nat)
  /-- `REFCLK_RESTORED` (R82). REFCLK passing its check for 100 µs returns each part as Table 4.1 states and writes a REFCLK-restored record. -/
  | refclkRestored (measuredHz : Nat)
  /-- `SPREAD_TAKES_EFFECT` (R84). A new spread setting takes effect at the next crossing of the modulation through the unspread frequency. -/
  | spreadTakesEffect (unit : Fin 4)
  /-- `PLL1_APPLY` (R88). A write of 0x01 to the PLL_1 apply object relocks PLL_1 with the staged N and F and puts its clock outputs through a transition. -/
  | pll1Apply (p : Path) (tag : Word16)
  /-- `PLL1_POWER_OFF` (R88). A write of 0x02 to the PLL_1 apply object powers PLL_1 off unless a sequencer or output uses it. -/
  | pll1PowerOff (p : Path) (tag : Word16)
  /-- `PLL_LOCKED` (R89). A relocking PLL passes its lock detector and window check, and its outputs switch glitch-free to the new frequency. -/
  | pllLocked (pll : Fin 2)
  /-- `PLL_FAULT` (R89). A PLL not locked 2 ms after its relock began faults, its outputs stay on bypass and its lanes stay parked. -/
  | pllFault (pll : Fin 2)
  /-- `CLKO_APPLY` (R92). A write of 0x01 to a clock output's apply object starts a transition through the bypass divider to the new format, source and divider. -/
  | clkoApply (p : Path) (tag : Word16) (k : Fin 6)
  /-- `CLKO_PHASE_STEP` (R95). A signed write to a clock output's phase-step object adds to its pending steps. -/
  | clkoPhaseStep (p : Path) (tag : Word16) (k : Fin 6) (steps : Word16)
  /-- `PHASE_STEP_APPLIED` (R95). One pending phase step is applied per output period until none remain. -/
  | phaseStepApplied (k : Fin 6)
  /-- `LAUNCH_TAKES_EFFECT` (R101). A pending launch reaches its stamped time or first available boundary and the sequencer starts its run. -/
  | launchTakesEffect (sq : Fin 16)
  /-- `HELD_LAUNCH_PERMITTED` (R103). Time quality permits a held action's scope again, and it runs on time or, for an ASAP launch, at the next boundary. -/
  | heldLaunchPermitted (sq : Fin 16)
  /-- `HELD_ACTION_LATE` (R103). A held action's launch time passes while still held and it completes with the late code without running. -/
  | heldActionLate (sq : Fin 16)
  /-- `CANOPEN_SYNC` (R108). A CANopen SYNC received on the bus in use is consumed for SYNC and TIME bus selection and synchronous services. -/
  | canopenSync (rx : CanRx)
  /-- `TIME_MESSAGE` (R108). A CANopen TIME message on the bus in use is stored in 0x2680:0A with the action time of its reception. -/
  | timeMessage (rx : CanRx) (content : BitVec 48)
  /-- `NMT_COMMAND` (R109). An NMT command from either bus changes the NMT state or resets, unless identical to one obeyed from the other bus within 10 ms. -/
  | nmtCommand (rx : CanRx) (specifier : Byte) (node : Byte)
  /-- `NMT_RESET_COMMUNICATION` (R70). NMT reset communication ends CAN sessions, empties their ledgers, clears 0x1001 and 0x1003 and re-initialises CAN services. -/
  | nmtResetCommunication (bus : Bus)
  /-- `CAN_HEARTBEAT_SEND` (R143). The heartbeat with the NMT state is sent on both buses at the period of 0x1017. -/
  | canHeartbeatSend
  /-- `CONSUMED_HEARTBEAT_LOST` (R143). A consumed heartbeat not received in its time raises EMCY 0x8130 and writes a recorder record. -/
  | consumedHeartbeatLost (k : Fin 4)
  /-- `BUS_OFF` (R110). A controller reaching bus-off stops transmitting and receiving, discarding frames that fall due on that bus. -/
  | busOff (bus : Bus)
  /-- `BUS_OFF_RECOVERY` (R110). After 128 occurrences of 11 recessive bits the controller returns to error active and sends EMCY 0x8140. -/
  | busOffRecovery (bus : Bus)
  /-- `CAN_ERROR_PASSIVE` (R141). A controller entering error passive raises EMCY 0x8120 as a lasting condition. -/
  | canErrorPassive (bus : Bus)
  /-- `EMCY_INHIBIT_EXPIRY` (R142). At the end of a bus's inhibit time the oldest waiting EMCY is sent on that bus. -/
  | emcyInhibitExpiry (bus : Bus)
  /-- `ERROR_FIELD_CLEAR` (R144). A write of 0 to 0x1003:00 clears the pre-defined error field. -/
  | errorFieldClear (p : Path)
  /-- `USDO_TIMEOUT` (R140). A USDO transfer whose next segment has not arrived within 0x2201:06 is aborted with 0x0504_0000. The transfer stands in the operands. -/
  | usdoTimeout (bus : Bus) (transfer : UsdoTransfer)
  /-- `SPI_READ` (R111). An SPI READ request frame is checked and queued, and its response is placed in the port for fetching. -/
  | spiRead (frame : Bytes) (framing : SpiFraming)
  /-- `SPI_WRITE` (R111). An SPI WRITE request frame is checked and handled as a write, and its response is placed in the port for fetching. -/
  | spiWrite (frame : Bytes) (framing : SpiFraming)
  /-- `SPI_FETCH` (R114). FETCH returns the oldest waiting response frame and frees its entry. -/
  | spiFetch
  /-- `SPI_STATUS` (R114). STATUS returns the status byte and clears bits 2 to 4. -/
  | spiStatus
  /-- `SPI_LANE_SWITCH` (R116). A new SPI width takes effect at the first fall of SPI_CS_N after the response to its write has been fetched; the port takes its mode from the level of SPI_SCK there (R45). -/
  | spiLaneSwitch
  /-- `SESSION_NONCE_READ` (R120). A read of 0x2200:02 returns a fresh 16-byte nonce bound to the client for 10 s. -/
  | sessionNonceRead (p : Path)
  /-- `SESSION_NONCE_DISCARD` (R120). A write of 16 bytes to 0x2200:02 discards the writing client's outstanding nonce. -/
  | sessionNonceDiscard (p : Path) (bytes : Bytes)
  /-- `SESSION_OPEN` (R120). A write to 0x2200:10 checks nonce and proof for the life-cycle state and opens a session at the lowest free number. -/
  | sessionOpen (p : Path) (request : Bytes)
  /-- `SESSION_CLOSE` (R121). A write of its own number to 0x2200:12 ends the session and discards its tag, ledger, window state and queued jobs. -/
  | sessionClose (p : Path) (number : Byte)
  /-- `SESSION_IDLE_TIMEOUT` (R121). A session with no request for the idle timeout ends. -/
  | sessionIdleTimeout (session : BitVec 6)
  /-- `TAG_STAGE` (R126). A write to 0x2100:01 stages the request tag for the session's next tagged write. -/
  | tagStage (p : Path) (tag : Word16)
  /-- `STORE_PARAMETERS` (R123). A write of "save" to 0x1010 starts storing the persistent objects of the chosen range to user flash. -/
  | storeParameters (p : Path) (range : StoreRange)
  /-- `STORE_COMPLETE` (R123). A store completes by committing its copy and the write is answered. -/
  | storeComplete
  /-- `RESTORE_DEFAULTS` (R123). A write of "load" to 0x1011 marks a restore of defaults pending for the chosen range until the next chip reset. -/
  | restoreDefaults (p : Path) (range : StoreRange)
  /-- `WINDOW_REGION_SELECT` (R133). Writing a window's region selects the region for the session and sets the offset to zero. -/
  | windowRegionSelect (p : Path) (window : Window) (region : Word16)
  /-- `WINDOW_OFFSET_SET` (R133). Writing a window's offset sets it for the session if it is a multiple of 4. -/
  | windowOffsetSet (p : Path) (window : Window) (offset : BitVec 64)
  /-- `WINDOW_DATA_READ` (R134). A read of a window data object checks the whole range, moves the words and advances the offset. -/
  | windowDataRead (p : Path) (window : Window) (len : Nat)
  /-- `WINDOW_DATA_WRITE` (R134). A write to a window data object checks the whole range, moves the words and advances the offset. -/
  | windowDataWrite (p : Path) (tag : Word16) (window : Window) (data : Bytes)
  /-- `LIFE_CYCLE_TRANSITION` (R153). A transition request blows the intent nibble, performs wipes, programs the three copies, answers and chip-resets. -/
  | lifeCycleTransition (p : Path) (tag : Word16) (target : Byte) (count : Byte) (nonce : Bytes) (auths : Bytes) (stuck : BlowRun)
  /-- `TRANSITION_NONCE_READ` (R152). A read of 0x2400:05 returns a fresh device nonce valid for 60 s for one transition request. -/
  | transitionNonceRead (p : Path)
  /-- `RECOVERY_IMAGE_RUN` (R158). In Locked the recovery image completes the pending intent by programming the missing bits and chip-resets. -/
  | recoveryImageRun (stuck : List FuseFault)
  /-- `FUSE_SKIM` (R148). Every 24 h the AO re-reads all fuse words at three references and raises the fuse fault on a marginal word. -/
  | fuseSkim (read : SkimRead)
  /-- `FUSE_PROGRAM` (R145). A vendor write to 0x2400:09 blows the given bits of a fuse word permitted in the present state. -/
  | fuseProgram (p : Path) (tag : Word16) (word : Word16) (bits : Word32)
  /-- `IMAGE_INSTALL` (R165). A write of a slot code to 0x2500:0B checks the staged image, erases and writes the slot and checks it again. -/
  | imageInstall (p : Path) (tag : Word16) (slotB : Bool)
  /-- `RECOVERY_INSTALL` (R165). A vendor write of 0x02 to 0x2500:0B installs a recovery image into the recovery area. -/
  | recoveryInstall (p : Path) (tag : Word16)
  /-- `RAISE_MINIMUM_VERSION` (R166). A write of V to 0x2500:08 blows bits of word 0x061 until V are blown. -/
  | raiseMinimumVersion (p : Path) (tag : Word16) (version : Byte)
  /-- `REVOKE_KEY_SLOT` (R167). A vendor write to 0x2500:0C blows the revocation nibble of firmware key slot 1, 2 or 3. -/
  | revokeKeySlot (p : Path) (tag : Word16) (slot : Byte)
  /-- `DEBUG_ENABLE` (R169). Assertion of DBG_EN_N starts a debug session with a fresh challenge. -/
  | debugEnable
  /-- `DEBUG_DISABLE` (R168). Deassertion of DBG_EN_N ends the debug session and its authorisation lapses. -/
  | debugDisable
  /-- `DEBUG_IDENTIFY` (R168). Debug opcode 0x01 returns the product code. -/
  | debugIdentify (f : IdentifyFrame)
  /-- `DEBUG_CHALLENGE_WORD` (R169). Debug opcode 0x02 returns a word of the challenge. -/
  | debugChallengeWord (f : DebugFrame)
  /-- `DEBUG_AUTHORISATION_WORD` (R169). Debug opcode 0x03 loads one word of the authorisation. -/
  | debugAuthorisationWord (f : DebugFrame)
  /-- `DEBUG_AUTHORISE` (R169). Debug opcode 0x04 submits the authorisation words for VI verification. -/
  | debugAuthorise (f : DebugFrame)
  /-- `DEBUG_HALT` (R168). Debug opcode 0x10 halts both lockstep cores. -/
  | debugHalt (f : DebugFrame)
  /-- `DEBUG_RESUME` (R168). Debug opcode 0x11 resumes both lockstep cores. -/
  | debugResume (f : DebugFrame)
  /-- `DEBUG_SINGLE_STEP` (R168). Debug opcode 0x12 single-steps both lockstep cores. -/
  | debugSingleStep (f : DebugFrame)
  /-- `DEBUG_READ_WORD` (R170). Debug opcode 0x20 reads a word at a conductor address under the address map. -/
  | debugReadWord (f : DebugFrame)
  /-- `DEBUG_WRITE_WORD` (R170). Debug opcode 0x21 writes a word at a conductor address under the address map. -/
  | debugWriteWord (f : DebugFrame)
  /-- `DEBUG_READ_REGISTER` (R168). Debug opcode 0x22 reads a core register. -/
  | debugReadRegister (f : DebugFrame)
  /-- `DEBUG_WRITE_REGISTER` (R168). Debug opcode 0x23 writes a core register. -/
  | debugWriteRegister (f : DebugFrame)
  /-- `DEBUG_CHIP_RESET` (R68). Debug opcode 0x30 requests a chip reset where debug is open or authorised. -/
  | debugChipReset (f : DebugFrame)
  /-- `IMPORT` (R192). Authorised operation 0x01 checks an Ewen envelope and imports the key into the target slot. -/
  | importKey (p : Path) (tag : Word16) (op : AuthOp)
  /-- `EXPORT` (R190). Authorised operation 0x02 wraps an exportable key in an Ewen envelope under a KEK or by ECDH. -/
  | exportKey (p : Path) (tag : Word16) (op : AuthOp)
  /-- `DESTROY` (R187). Authorised operation 0x03 zeroises the slot, erases its blob and frees it. -/
  | destroy (p : Path) (tag : Word16) (op : AuthOp)
  /-- `CHANGE_ATTRIBUTES` (R178). Authorised operation 0x04 narrows a key's attributes. -/
  | changeAttributes (p : Path) (tag : Word16) (op : AuthOp)
  /-- `CREATE_OWNER` (R180). Authorised operation 0x10 creates an owner with quota and custodians, or bootstraps owner 0's first custodians. -/
  | createOwner (p : Path) (tag : Word16) (op : AuthOp)
  /-- `DELETE_OWNER` (R185). Authorised operation 0x11 deletes an owner that occupies no slot. -/
  | deleteOwner (p : Path) (tag : Word16) (op : AuthOp)
  /-- `ADD_CUSTODIAN` (R179). Authorised operation 0x12 registers a new custodian public key for the owner. -/
  | addCustodian (p : Path) (tag : Word16) (op : AuthOp)
  /-- `REMOVE_CUSTODIAN` (R185). Authorised operation 0x13 removes a custodian if 2 to 8 remain. -/
  | removeCustodian (p : Path) (tag : Word16) (op : AuthOp)
  /-- `RE_ARM` (R205). An authorised re-arm submitted over the debug port installs a new root key, erases every blob and sets the SI running. -/
  | reArm
  /-- `INTRUSION_CONFIGURATION` (R183). Authorised operation 0x15 sets the loop enable mask, bit period and sensor response mask. -/
  | intrusionConfiguration (p : Path) (tag : Word16) (op : AuthOp)
  /-- `OPERATION_NONCE_READ` (R184). A read of 0x4200:02 returns a fresh nonce bound to the session for 600 s. -/
  | operationNonceRead (p : Path)
  /-- `GENERATE` (R186). Key command 0x21 generates a key from the DRBG into the target slot. -/
  | generate (p : Path) (tag : Word16) (rest : Bytes)
  /-- `DERIVE` (R186). Key command 0x22 derives a key from a parent in the same owner by the SP 800-108 KDF. -/
  | derive (p : Path) (tag : Word16) (rest : Bytes)
  /-- `KEY_EXPIRY` (R177). A key's expiry passes on the AO monotonic clock and it is disabled or destroyed per its expiry action. -/
  | keyExpiry (slot : BitVec 12)
  /-- `INTRUSION_DETECTED` (R201). A tamper loop mismatch or a masked-in sensor trip latches the cause, zeroises keys within 2 µs and puts the SI in dead. -/
  | intrusionDetected (cause : BitVec 8) (zeroiseNs : Nat)
  /-- `SENSOR_TRIP_RECORDED` (R199). A sensor whose response mask bit is clear trips and records without zeroising. -/
  | sensorTripRecorded (sensor : Sensor)
  /-- `AES_CBC_ENCRYPT` (R211). Job opcode 0x01 encrypts the input in AES-CBC. -/
  | aesCbcEncrypt (p : Path) (tag : Word16) (job : JobReq)
  /-- `AES_CBC_DECRYPT` (R211). Job opcode 0x02 decrypts the input in AES-CBC. -/
  | aesCbcDecrypt (p : Path) (tag : Word16) (job : JobReq)
  /-- `AES_CTR` (R211). Job opcode 0x03 processes the input in AES-CTR. -/
  | aesCtr (p : Path) (tag : Word16) (job : JobReq)
  /-- `AES_GCM_ENCRYPT` (R211). Job opcode 0x04 encrypts in AES-GCM and returns the tag. -/
  | aesGcmEncrypt (p : Path) (tag : Word16) (job : JobReq)
  /-- `AES_GCM_DECRYPT` (R212). Job opcode 0x05 decrypts in AES-GCM and zero-fills its output on tag failure. -/
  | aesGcmDecrypt (p : Path) (tag : Word16) (job : JobReq)
  /-- `AES_CMAC_GENERATE` (R211). Job opcode 0x06 generates an AES-CMAC tag. -/
  | aesCmacGenerate (p : Path) (tag : Word16) (job : JobReq)
  /-- `AES_CMAC_VERIFY` (R212). Job opcode 0x07 verifies an AES-CMAC tag. -/
  | aesCmacVerify (p : Path) (tag : Word16) (job : JobReq)
  /-- `HMAC_GENERATE` (R211). Job opcode 0x08 generates an HMAC tag. -/
  | hmacGenerate (p : Path) (tag : Word16) (job : JobReq)
  /-- `HMAC_VERIFY` (R212). Job opcode 0x09 verifies an HMAC tag. -/
  | hmacVerify (p : Path) (tag : Word16) (job : JobReq)
  /-- `SHA_256` (R211). Job opcode 0x0A computes a SHA-256 digest. -/
  | sha256 (p : Path) (tag : Word16) (job : JobReq)
  /-- `SHA_384` (R211). Job opcode 0x0B computes a SHA-384 digest. -/
  | sha384 (p : Path) (tag : Word16) (job : JobReq)
  /-- `ECDSA_SIGN` (R222). Job opcode 0x10 signs on the SAU, the signature released only after verify-before-release. -/
  | ecdsaSign (p : Path) (tag : Word16) (job : JobReq)
  /-- `ECDH_P256` (R209). Job opcode 0x11 computes the ECDH P-256 shared secret after peer and product point checks. -/
  | ecdhP256 (p : Path) (tag : Word16) (job : JobReq)
  /-- `RANDOM_BYTES` (R227). Job opcode 0x18 returns DRBG output. -/
  | randomBytes (p : Path) (tag : Word16) (job : JobReq)
  /-- `ECDSA_VERIFY_P256` (R212). Job opcode 0x20 verifies an ECDSA P-256 signature on the VI. -/
  | ecdsaVerifyP256 (p : Path) (tag : Word16) (job : JobReq)
  /-- `ECDSA_VERIFY_P384` (R212). Job opcode 0x21 verifies an ECDSA P-384 signature on the VI. -/
  | ecdsaVerifyP384 (p : Path) (tag : Word16) (job : JobReq)
  /-- `RSA_VERIFY` (R212). Job opcode 0x22 verifies an RSA signature on the VI. -/
  | rsaVerify (p : Path) (tag : Word16) (job : JobReq)
  /-- `ENGINE_DISPATCH` (R215). An engine becoming free takes the highest-priority eligible job, suspended before new, round robin, oldest first. -/
  | engineDispatch (engine : Engine)
  /-- `JOB_COMPLETE` (R216). A job finishes on its engine and leaves its completion record in its queue entry. -/
  | jobComplete (engine : Engine)
  /-- `COMPLETION_ACKNOWLEDGE` (R216). A write of a job ID to 0x4400:12 acknowledges its completion record and frees the entry. -/
  | completionAcknowledge (p : Path) (tag : Word16) (jobId : Word16)
  /-- `PREEMPTION_BOUNDARY` (R219). At each 64-block boundary a pre-emptable job yields to a waiting higher-priority job if a context slot is free. -/
  | preemptionBoundary (engine : Engine) (blocksDone : Nat)
  /-- `RELEASE_VERDICT` (R222). A verdict from the VI releases the signature, or withholds it, ends the job with 0x3002 and faults the SAU. -/
  | releaseVerdict (valid : Bool)
  /-- `VI_YIELD_POINT` (R223). At a VI yield point the running verify job is suspended for a waiting release check or shorter job if an area is free. -/
  | viYieldPoint (remainingUs : Nat)
  /-- `ENTROPY_TEST_FAILURE` (R226). A continuous health test failure discards the block, and three in a row or a start-up failure put the source in failed. -/
  | entropyTestFailure (test : EntropyTest)
  /-- `ENTROPY_RETEST` (R226). A failed entropy source repeats its start-up test every 1 s and becomes healthy when it passes. -/
  | entropyRetest (passed : Bool)
  /-- `DRBG_RESEED` (R227). The DRBG reseeds after 1024 generate requests or 10 s. -/
  | drbgReseed
  /-- `SEQ_ARM` (R258). A write of 0x01 to 0x3100+s:02 runs the arm checks, loads, prefills and computes the arm digest. -/
  | seqArm (p : Path) (tag : Word16) (sq : Fin 16)
  /-- `ARMING_COMPLETE` (R246). Arming empties the ring, applies pending exchanges, refills along the predicted path and the sequencer reads armed. -/
  | armingComplete (sq : Fin 16)
  /-- `SEQ_DISARM` (R263). A write of 0x00 to 0x3100+s:02 disarms, releasing share, segments and barrier participation. -/
  | seqDisarm (p : Path) (tag : Word16) (sq : Fin 16)
  /-- `SEQ_LAUNCH` (R260). A stamp written to 0x3100+s:03 in armed is judged under the late rule and becomes a pending launch. -/
  | seqLaunch (p : Path) (tag : Word16) (sq : Fin 16) (stamp : Bytes)
  /-- `SEQ_STOP` (R262). A write of 0x01 to 0x3100+s:04 cancels a pending launch or stops the run at the dust-sheet level. -/
  | seqStop (p : Path) (tag : Word16) (sq : Fin 16)
  /-- `SEGMENT_EXCHANGE_STAGE` (R242). A write to 0x3300:05 checks and stages an exchange of two segments. -/
  | segmentExchangeStage (p : Path) (tag : Word16) (a : Word16) (b : Word16)
  /-- `SEGMENT_EXCHANGE_APPLY` (R242). On the first SQ edge on which segment A is not active, the data offsets of A and B are swapped. -/
  | segmentExchangeApply (a : BitVec 14)
  /-- `REFILL_REQUEST` (R244). A sequencer whose ring has 64 bytes free requests the next burst along the predicted path. -/
  | refillRequest (sq : Fin 16)
  /-- `NOP` (R247). Instruction 0x00 does nothing. -/
  | nop (sq : Fin 16)
  /-- `PLAY` (R233). Instruction 0x01 plays a full-width segment 1 to 4096 times. -/
  | play (sq : Fin 16) (obs : List LaneObs)
  /-- `PLAYS` (R264). Instruction 0x02 plays segment base + k to each site mask k. -/
  | plays (sq : Fin 16) (obs : List LaneObs)
  /-- `LOOP` (R248). Instruction 0x03 begins a loop body repeated a given count. -/
  | loop (sq : Fin 16)
  /-- `ENDL` (R248). Instruction 0x04 ends a loop body. -/
  | endl (sq : Fin 16)
  /-- `CALL` (R248). Instruction 0x05 calls a subroutine. -/
  | call (sq : Fin 16)
  /-- `RET` (R248). Instruction 0x06 returns from a subroutine. -/
  | ret (sq : Fin 16)
  /-- `JMP` (R248). Instruction 0x07 jumps. -/
  | jmp (sq : Fin 16)
  /-- `JEV` (R251). Instruction 0x08 samples event latch j 60 ns before the next boundary and jumps if set, clearing it. -/
  | jev (sq : Fin 16)
  /-- `EVARM` (R252). Instruction 0x09 arms an asynchronous jump on input j. -/
  | evarm (sq : Fin 16)
  /-- `EVDIS` (R252). Instruction 0x0A disarms the jump on input j. -/
  | evdis (sq : Fin 16)
  /-- `WAIT` (R254). Instruction 0x0B emits hold vectors. -/
  | wait (run : WaitRun)
  /-- `BARW` (R255). Instruction 0x0D waits at a local or cluster barrier, emitting hold vectors. -/
  | barw (sq : Fin 16)
  /-- `SFW` (R322). Instruction 0x0E enters waiting, opens the latency window and sends one field request per playing site. -/
  | sfw (sq : Fin 16)
  /-- `DROP` (R256). Instruction 0x0F schedules dropping of site masks whose sticky fail flag is set. -/
  | drop (sq : Fin 16)
  /-- `DROP_TAKES_EFFECT` (R256). At the first boundary after the latest earlier C_CLOSE plus 90 ns, failed masks are dropped to the dust-sheet level. -/
  | dropTakesEffect (sq : Fin 16)
  /-- `ALG` (R310). Instruction 0x10 plays every operation of a march program through the read and write templates. -/
  | alg (sq : Fin 16) (obs : List LaneObs)
  /-- `HALT` (R261). Instruction 0x11 ends the run, lanes going to the dust-sheet level after the last vector. -/
  | halt (sq : Fin 16)
  /-- `EVCLR` (R250). Instruction 0x12 clears event latch j. -/
  | evclr (sq : Fin 16)
  /-- `SEQ_EVENT` (R250). An edge on consumer SEQ_s event j sets event latch j. -/
  | seqEvent (sq : Fin 16) (j : Fin 4)
  /-- `ARMED_JUMP_TAKEN` (R252). An armed jump takes effect at the first boundary at or after the event plus 60 ns, discarding vectors not begun. -/
  | armedJumpTaken (sq : Fin 16)
  /-- `UNDERRUN` (R264). A stream's next vector missing at its boundary parks the affected masks at the dust-sheet level with a record and EMCY. -/
  | underrun (sq : Fin 16) (missing : BitVec 4) (dataError : Bool)
  /-- `INVALID_RECORD_PARK` (R239). A streamed invalid record parks its stream at its boundary with a symbol-invalid record. -/
  | invalidRecordPark (sq : Fin 16) (stream : BitVec 4) (segment : Word16) (recordIndex : Word32)
  /-- `TRACKING_PASS_START` (R284). Every 100 ms, or on a 5 °C move, a delay-line tracking pass starts. -/
  | trackingPassStart
  /-- `TI_TEMPERATURE_READ` (R284). The TI temperature sensor is read every 1 ms. -/
  | tiTemperatureRead (deciC : Int)
  /-- `TRACKING_PASS_COMPLETE` (R285). A tracking pass ends and its new codes take effect at vector boundaries. -/
  | trackingPassComplete
  /-- `SAMPLE_PORT_ENABLE` (R291). A write of 0x01 to 0x3600:02 enables a sample port, its lanes taking port roles. -/
  | samplePortEnable (p : Path) (tag : Word16)
  /-- `SAMPLE_PORT_DISABLE` (R54). A write of 0x00 to 0x3600:02 disables the port and its lanes return to mode 0x00. -/
  | samplePortDisable (p : Path) (tag : Word16)
  /-- `PORT_FRAME` (R296). A port frame begins every T_out during a run, sending the resampled or NCO value and receiving an in-sample. -/
  | portFrame (port : Fin 16) (inBits : BitVec 10)
  /-- `NCO_APPLY_NOW` (R304). A write of 0x01 to 0x3600:11 schedules the staged frequency word for the first frame at least 100 ns later. -/
  | ncoApplyNow (p : Path) (tag : Word16)
  /-- `NCO_APPLY_AT_MARKER` (R304). A write of 0x02 to 0x05 to 0x3600:11 schedules the staged frequency word for the first frame after a marker asserts. -/
  | ncoApplyAtMarker (p : Path) (tag : Word16) (marker : Fin 4)
  /-- `NCO_PHASE_RESET` (R304). A write of 0x01 to 0x3600:13 resets the accumulator to the initial phase at a frame at least 100 ns later. -/
  | ncoPhaseReset (p : Path) (tag : Word16)
  /-- `FIELD_REQUEST_ACCEPT` (R322). A field request becomes a priority-7 injector job when the site's UID is present or arrives. -/
  | fieldRequestAccept (site : Fin 16)
  /-- `FIELD_WORDS_SENT` (R323). The injector, having derived the whole value, sends the field's words back to back over CH_09. -/
  | fieldWordsSent (site : Fin 16)
  /-- `FIELD_WORD_ARRIVAL` (R323). A sealed word is acknowledged into the SQ's sealed buffer, the first deciding whether the field is in time. -/
  | fieldWordArrival (site : Fin 16) (latencyNs : Nat)
  /-- `LATENCY_WINDOW_CLOSE` (R327). The latency window closes and fields without a UID or first word fail. -/
  | latencyWindowClose (sq : Fin 16)
  /-- `FIELD_FAILURE` (R327). At its failure point a failed field drops its mask with a record, count and EMCY. -/
  | fieldFailure (site : Fin 16)
  /-- `SEALED_PLAY_START` (R324). The sealed play begins at the first boundary 60 ns after the last in-time word or failure. -/
  | sealedPlayStart (sq : Fin 16)
  /-- `SEALED_BUFFER_CLEAR` (R325). After a site's last SF bit its part of the sealed buffer is overwritten with zeros. -/
  | sealedBufferClear (site : Fin 16)
  /-- `RESPONSE_EDGE` (R344). A matching edge on the timed lane ends the measurement in time or slow and asserts the response producer. -/
  | responseEdge (lane : Fin 64) (rising : Bool) (edge : TimedEdge)
  /-- `RESPONSE_LIMIT_EXPIRY` (R344). The response limit passes with no response; the verdict becomes slow and may set the sticky flag. -/
  | responseLimitExpiry (site : Fin 16)
  /-- `AQ_TRIGGER_IN` (R350). An edge on consumer AQ_u trigger in is a trigger of source 0x05. -/
  | aqTriggerIn (u : Fin 16)
  /-- `READ_POINTER_WRITE` (R348). A write to 0x3800:0D frees records in the capture ring. -/
  | readPointerWrite (p : Path) (tag : Word16) (value : BitVec 64)
  /-- `DECIMATION_RAISE` (R353). Staging fill rising above 75 %, or staying there each 100 µs, raises the decimation exponent. -/
  | decimationRaise
  /-- `DECIMATION_LOWER` (R353). Staging fill falling below 25 %, or staying there each 100 µs, lowers the decimation exponent. -/
  | decimationLower
  /-- `BEGIN_TRAINING` (R369). A write of 0x01 to 0x4800:09 checks the fixed delays and starts training. -/
  | beginTraining (p : Path) (tag : Word16)
  /-- `TRAINING_COMPLETE` (R371). Channel training ends, its values reported or the channel faulted. -/
  | trainingComplete (ch0 : TrainResult) (ch1 : TrainResult)
  /-- `DRAM_INIT_COMPLETE` (R368). Every block of the channels in service has been zero-written and the MI runs. -/
  | dramInitComplete
  /-- `DRAM_REQUEST_GRANT` (R372). The MI grants the next request by class order, shaping and read-before-write. -/
  | dramRequestGrant (ch : Fin 2)
  /-- `DRAM_READ_RETURN` (R375). Read data returns, checked by ECC and judged against its playback deadline. -/
  | dramReadReturn (ch : Fin 2) (uncorrectable : Bool) (corrected : Bool) (burst : Nat)
  /-- `ROW_IDLE_CLOSE` (R374). An open row with no request for 64 controller cycles is closed. -/
  | rowIdleClose (ch : Fin 2) (rank : Fin 2) (bank : Fin 8)
  /-- `REFRESH_DUE` (R376). A per-bank refresh falls due and is issued to an idle bank of the round or postponed. -/
  | refreshDue (ch : Fin 2) (rank : Fin 2)
  /-- `REFRESH_POSTPONE_LIMIT` (R27). A refresh at its postponement limit is issued ahead of playback. -/
  | refreshPostponeLimit (ch : Fin 2) (rank : Fin 2)
  /-- `MR4_READ` (R377). Every 16 ms the MI reads MR4 and sets the refresh rate, recording excess temperature. -/
  | mr4Read (ch : Fin 2) (rank : Fin 2) (multiplier : Byte) (outsideLimits : Bool)
  /-- `ACTIVATION_TABLE_CLEAR` (R378). Every 16 ms every activation table is cleared. -/
  | activationTableClear
  /-- `ADMITTED_SHARE_WRITE` (R380). A write raising the SI share, conductor share or row-hammer charge is admitted against every channel budget. -/
  | admittedShareWrite (p : Path) (tag : Word16) (share : ShareKind) (value : Word32)
  /-- `CHANNEL_FAULT` (R386). A channel training failure, uncorrectable threshold or PHY lock loss faults it and retires it if the policy is automatic. -/
  | channelFault (ch : Fin 2) (cause : ChannelCause)
  /-- `CHANNEL_RETIRE` (R388). A write of a channel to 0x4800:08 retires it, parking sequencers and halving usable capacity. -/
  | channelRetire (p : Path) (tag : Word16) (ch : Fin 2)
  /-- `PWM_FRAME` (R393). A level frame boundary applies pending loads and clears and drives each channel's modulated code. -/
  | pwmFrame
  /-- `LEVEL_STAGED_WRITE` (R394). A write to a staged level value, loaded at the next boundary in immediate mode. -/
  | levelStagedWrite (p : Path) (tag : Word16) (field : StagedField) (value : Word32)
  /-- `LVL_LOAD_N_FALL` (R395). A falling edge of LVL_LOAD_N is a load strobe. -/
  | lvlLoadNFall (lowNs : Nat)
  /-- `LV_LOAD_EVENT` (R395). An edge on consumer LV load is a load strobe. -/
  | lvLoadEvent
  /-- `LOAD_STROBE_COMMAND` (R400). A write of 0x01 to 0x3900:10 is a load strobe, refused while a clear is in force. -/
  | loadStrobeCommand (p : Path) (tag : Word16)
  /-- `LVL_CLR_N_ASSERT` (R399). LVL_CLR_N asserted puts a clear in force. -/
  | lvlClrNAssert (lowNs : Nat)
  /-- `LVL_CLR_N_RELEASE` (R400). LVL_CLR_N released ends the clear; channels stay at their clear codes until their next load. -/
  | lvlClrNRelease
  /-- `LV_CLEAR_EVENT` (R399). Consumer LV clear asserted or deasserted puts a clear in force or ends it. -/
  | lvClearEvent (asserted : Bool)
  /-- `CLEAR_ALL` (R399). A write of 0x01 to 0x3900:11 acts as a clear lasting one frame. -/
  | clearAll (p : Path) (tag : Word16)
  /-- `SHORT_LATCH` (R402). Continuous current limiting for the latch time latches the level channel off with a record. -/
  | shortLatch (ch : Fin 16)
  /-- `RESTORE_CHANNEL` (R403). A write of 0x01 to 0x3900:0E re-enables a latched channel at the next frame. -/
  | restoreChannel (p : Path) (tag : Word16)
  /-- `LEVEL_CALIBRATION_PASS` (R404). A level offset calibration pass forms each channel's correction k. -/
  | levelCalibrationPass (measured : List Int)
  /-- `VDD_IO33_MEASURE` (R405). Every 1 ms VDD_IO33 is measured for supply-compensated codes. -/
  | vddIo33Measure (mv : Nat)
  /-- `ROUTE_WRITE` (R416). A write to 0x2700:02 changes one consumer's route on one AO edge. -/
  | routeWrite (p : Path) (tag : Word16) (route : Byte)
  /-- `ROUTE_TABLE_WRITE` (R416). A write to 0x2700:03 applies all 96 routes on one AO edge, or none if one is locked. -/
  | routeTableWrite (p : Path) (tag : Word16) (routes : Bytes)
  /-- `LANE_TAP_WRITE` (R417). A write naming the lane of a lane tap, refused while a non-idle sequencer uses the tap. -/
  | laneTapWrite (p : Path) (tag : Word16) (tap : Fin 2) (lane : Byte)
  /-- `SOFTWARE_EVENT_LOW` (R418). A write of 0x00 sets the software event low. -/
  | softwareEventLow (p : Path) (tag : Word16) (ev : Fin 2)
  /-- `SOFTWARE_EVENT_HIGH` (R418). A write of 0x01 sets the software event high. -/
  | softwareEventHigh (p : Path) (tag : Word16) (ev : Fin 2)
  /-- `SOFTWARE_EVENT_PULSE` (R418). A write of 0x02 sets the software event high for 100 ns. -/
  | softwareEventPulse (p : Path) (tag : Word16) (ev : Fin 2)
  /-- `SOFTWARE_PULSE_END` (R418). The 100 ns software pulse ends and the event goes low. -/
  | softwarePulseEnd (ev : Fin 2)
  /-- `COUNTER_EDGE` (R418). An edge on an event counter consumer increments it, saturating. -/
  | counterEdge (c : Fin 4)
  /-- `COUNTER_CLEAR` (R418). A write of 0 to an event counter clears it. -/
  | counterClear (p : Path) (tag : Word16) (c : Fin 4)
  /-- `MARK_EDGE` (R418). An edge on the mark consumer writes an event-mark record, at most one per 1 ms. -/
  | markEdge
  /-- `LINK_UP` (R422). A Nestan receiver becomes link up after 1024 valid code groups. -/
  | linkUp
  /-- `LINK_DOWN` (R422). Invalid code groups or 1 µs without signal take the link down and open the ring. -/
  | linkDown
  /-- `HELLO_SEND` (R427). A link-up device sends a HELLO every 100 µs. -/
  | helloSend
  /-- `HELLO` (R427). A received HELLO is updated and forwarded, or closes the ring when its own returns. -/
  | hello (frame : Bytes)
  /-- `CAL_RESULT` (R435). A CAL-RESULT assigns ring positions and incoming hop delays. -/
  | calResult (frame : Bytes)
  /-- `CALIBRATION_START` (R435). The ring calibrator starts link-delay calibration at ring closure and every 1 s. -/
  | calibrationStart
  /-- `CALIBRATE_NOW` (R435). A write of 0x01 to 0x4A00:10 starts a calibration. -/
  | calibrateNow (p : Path) (tag : Word16)
  /-- `CAL` (R435). A received CAL frame gets the device's serial, hop length and residence appended, or is measured at the calibrator. -/
  | cal (frame : Bytes) (loop256 : Nat) (residence256 : Nat)
  /-- `NESTAN_SYNC_SEND` (R433). The master sends a SYNC every 1 ms. -/
  | nestanSyncSend
  /-- `NESTAN_SYNC` (R433). A received SYNC adds the hop delay and residence, and a member computes and acts on its offset. -/
  | nestanSync (frame : Bytes) (residence256 : Nat)
  /-- `SYNC_MISSED` (R442). Three missed SYNCs put a formed member into hold-over. -/
  | syncMissed
  /-- `HOLD_OVER_END` (R442). At the end of 100 ms hold-over the member runs standalone and its flows are discarded. -/
  | holdOverEnd
  /-- `NESTAN_HEARTBEAT_SEND` (R430). Each device sends a HEARTBEAT every 10 ms and on any change. -/
  | nestanHeartbeatSend
  /-- `HEARTBEAT` (R431). A received HEARTBEAT is compared by the master for formation and disagreements. -/
  | heartbeat (frame : Bytes)
  /-- `MEMBER_LOST` (R431). A member missing three heartbeats is lost and handled as a leave. -/
  | memberLost (position : Byte)
  /-- `FORMATION_RETRY` (R432). The master retries formation every 1 s after a disagreement. -/
  | formationRetry
  /-- `ARRIVE` (R438). An ARRIVE at the master counts toward a cluster barrier's completion. -/
  | arrive (frame : Bytes)
  /-- `RELEASE` (R439). A received RELEASE resumes participants at the first boundary at or after its stamp. -/
  | release (frame : Bytes)
  /-- `ABORT` (R440). A received ABORT stops every waiting participant with end cause 0x02. -/
  | abort (frame : Bytes)
  /-- `BARRIER_TIMEOUT` (R440). The barrier timeout expiring without a RELEASE makes the master send an ABORT. -/
  | barrierTimeout (b : Fin 16)
  /-- `DATA` (R426). A DATA frame of the expected sequence number is delivered over CH_17 and acknowledged. -/
  | data (frame : Bytes)
  /-- `ACK` (R426). An ACK frees unacknowledged DATA frames of its flow. -/
  | ack (frame : Bytes)
  /-- `DATA_RESEND` (R426). After 1 ms without an ACK the source resends from the oldest unacknowledged frame. -/
  | dataResend (destination : Byte)
  /-- `CLUSTER_LEAVE` (R444). A write of 0x01 to 0x4A00:11 leaves the cluster and runs standalone. -/
  | clusterLeave (p : Path) (tag : Word16)
  /-- `CLUSTER_REJOIN` (R443). A write of 0x02 to 0x4A00:11 rejoins the cluster and adopts the master's time. -/
  | clusterRejoin (p : Path) (tag : Word16)
  /-- `WATCHDOG_CHECK_IN` (R448). A write to a check-in slot records a valid, early or bad check-in. -/
  | watchdogCheckIn (partition : Fin 8) (slot : Fin 16) (value : Word32)
  /-- `WATCHDOG_PERIOD_END` (R453). At each period end failed slots are collected and one escalation action is taken. -/
  | watchdogPeriodEnd
  /-- `PARTITION_RESTART_COMPLETE` (R454). A restarted partition is running again and its slots enter grace. -/
  | partitionRestartComplete (partition : Fin 8)
  /-- `LOCKSTEP_MISMATCH` (R455). A lockstep mismatch stops the CI at once and escalates to the island level. -/
  | lockstepMismatch
  /-- `SCRUB_CORRECTED` (R458). A scrub finding an error writes it back corrected, or faults and records an uncorrectable word. -/
  | scrubCorrected (target : ScrubTarget) (uncorrectable : Bool)
  /-- `ACTIVITY_BEHIND` (R459). A background activity entering or leaving behind sets status and writes a rate-limited record. -/
  | activityBehind (activity : Fin 8) (enters : Bool)
  /-- `FLASH_RECLAIM` (R457). Wear management reclaims erase blocks while fewer than 16 are free. -/
  | flashReclaim
  /-- `TELEMETRY_SAMPLE` (R462). Telemetry values are sampled every period and the junction warning is raised or ended. -/
  | telemetrySample (sample : Telemetry)
  /-- `RECORD_COMMIT` (R468). The AO takes the next record from CH_16 and commits it to the next slot, or counts it when full. -/
  | recordCommit (run : CommitRun)
  /-- `OVERLOAD_SUMMARY_DUE` (R471). An hour after a category's last summary, a summary carrying its count is written. -/
  | overloadSummaryDue (category : Fin 6)
  /-- `RECORDER_READ` (R473). A read of 0x2900:03 returns up to 64 committed records and advances the session's position. -/
  | recorderRead (p : Path)
  /-- `TRACE_READ` (R481). A read of 0x2A00:06 returns the share's packets from the session's position and advances it. -/
  | traceRead (p : Path)
  /-- `TRACE_SOFTWARE_WRITE` (R479). A partition write to the trace page produces a SOFTWARE packet in its share. -/
  | traceSoftwareWrite (partition : Fin 8) (channel : Fin 64) (value : Word32)
  /-- `RESEAT_REQUEST` (R483). A write to 0x2020:01 requests a re-seat of an island or unit and puts it in re-seat pending. -/
  | reseatRequest (p : Path) (tag : Word16) (island : Byte) (unit : Byte)
  /-- `RESEAT_DRAIN_END` (R484). When begun work is complete or the drain limit expires, the island or unit resets and reloads. -/
  | reseatDrainEnd (island : Island) (unit : Byte)
  /-- `RESEAT_LIMIT_EXPIRY` (R485). A unit not running by its limit ends faulted with a failed outcome and an island-reset record. -/
  | reseatLimitExpiry (island : Island) (unit : Byte)
  /-- `RESEAT_COMPLETE` (R485). A re-seated island or unit reads running again and the outcome reads completed. -/
  | reseatComplete (island : Island) (unit : Byte)
  /-- `REPLACE_PARTITION` (R487). A write of a partition ID to 0x2020:06 checks the staged image and starts replacing the partition. -/
  | replacePartition (p : Path) (tag : Word16) (partition : Byte)
  /-- `REPLACEMENT_COMPLETE` (R488). The changed flash blocks are programmed, the slot checked and the partition started. -/
  | replacementComplete
  /-- `NEW_PAIR_KEY` (R491). A write of 0x01 to 0x4B00:03 generates a new pair key while unpaired. -/
  | newPairKey (p : Path) (tag : Word16)
  /-- `PAIR_ACTIVE` (R492). An authorised pair request with role 0x01 names the partner as standby. -/
  | pairActive (p : Path) (tag : Word16) (req : PairReq)
  /-- `PAIR_STANDBY` (R492). An authorised pair request with role 0x02 names the partner as active. -/
  | pairStandby (p : Path) (tag : Word16) (req : PairReq)
  /-- `UNPAIR` (R492). An authorised pair request with role 0x00 unpairs the device at once. -/
  | unpair (p : Path) (tag : Word16) (req : PairReq)
  /-- `PAIR_FORMED` (R493). Complementary requests and equal firmware digests form the pair, derive pair keys and renumber sessions. -/
  | pairFormed
  /-- `EPOCH_CLOSE` (R498). The open epoch closes, is encrypted and sent with its commit record. -/
  | epochClose
  /-- `ENTRY` (R500). A replication ENTRY message carries ciphertext of an epoch body to the standby. -/
  | entry (content : Bytes)
  /-- `COMMIT` (R501). A received COMMIT is checked and the epoch applied and acknowledged, or discarded. -/
  | commit (content : Bytes)
  /-- `REPLICATION_ACK` (R502). An ACK with status 0x00 releases the answers waiting for its epoch, a non-zero status losing the standby. -/
  | replicationAck (content : Bytes)
  /-- `PAIR_STATE_SEND` (R500). PAIR-STATE is sent every 5 ms and on any change. -/
  | pairStateSend
  /-- `PAIR_STATE` (R506). A received PAIR-STATE updates the partner, and an active seeing a higher generation becomes fenced. -/
  | pairState (content : Bytes)
  /-- `ACK_TIMEOUT` (R503). No ACK within the ack timeout declares the standby lost. -/
  | ackTimeout
  /-- `PAIR_STATE_SILENCE` (R503). No PAIR-STATE for the takeover time declares the standby lost on the active. -/
  | pairStateSilence
  /-- `AUTOMATIC_TAKEOVER` (R504). A synchronised standby with automatic policy, silent ring and lost heartbeat takes over. -/
  | automaticTakeover
  /-- `TAKE_OVER` (R505). A write of 0x01 to 0x4B00:0E takes over once the active has been silent for the takeover time. -/
  | takeOver (p : Path) (tag : Word16)
  /-- `CONSUMED_HEARTBEAT_RECEIVED` (R143). A heartbeat of a node set in 0x1016 is received, restarting its consumer time and ending a lost-heartbeat condition. -/
  | consumedHeartbeatReceived (rx : CanRx) (node : BitVec 7)
  /-- `CAN_RECEIVE_OVERRUN` (R141). A CAN controller's receive path overruns, sending EMCY 0x8110 as an event and counting category 0x06. -/
  | canReceiveOverrun (bus : Bus)
  /-- `CAN_ERROR_PASSIVE_END` (R141). A controller returns from error passive to error active without bus-off, ending the 0x8120 condition and possibly sending EMCY 0x0000. -/
  | canErrorPassiveEnd (bus : Bus)
  /-- `SYNC_SOURCE_TIMEOUT` (R108). CAN_A delivers no SYNC for three communication cycle periods, so SYNC and TIME are taken from CAN_B and 0x2201:07 changes. -/
  | syncSourceTimeout
  /-- `EVI_OR_LANE_TAP_CHANGE` (R409). An EVI ball or a tapped lane changes level, its producer follows and level-sensitive consumers such as EVO_k follow it. -/
  | eviOrLaneTapChange (source : EventSource) (level : TapLevel)
  /-- `TAMPER_LOOP_MISMATCH` (R198). A single mismatched bit on an enabled tamper loop sets its bit in 0x4500:06 without an intrusion. -/
  | tamperLoopMismatch (sample : LoopSample)
  /-- `NONCE_RESERVE_FILL` (R203). While the SI runs, the AO nonce reserve is refilled with DRBG output up to 256 entries. -/
  | nonceReserveFill
  /-- `REFERENCE_DISAGREEMENT` (R432). A device's link frequency measured against REFCLK moves beyond or back within ±2 ppm, setting or clearing heartbeat flag bit 0 and time quality bad. -/
  | referenceDisagreement (beyond : Bool)
  /-- `PERIODIC_ZQ_CALIBRATION` (R371). ZQ calibration and DQS oscillator tracking repeat on each channel at the intervals JESD209-4 requires. -/
  | periodicZqCalibration (ch : Fin 2)
  /-- `TRACED_EXCEPTION_OR_BRANCH` (R478). A partition's core takes an exception, return or branch and the trace unit writes the packet, with SYNC, delta and LOST handling. -/
  | tracedExceptionOrBranch (partition : Fin 8) (kind : TraceKind) (info : Byte) (payload : Word32) (cycles : Nat)
  deriving DecidableEq, Repr

end Sys2Proof
end

