-- ==== Sys2Proof/Decode.lean ====
section
/-! DEFINITION. The command a word of the table's bits spells. No row of `spec/opcode_table.json` gives
any bits: the commands of this block are host requests, frames and events, which have no encoding of
a processor's kind. -/

namespace Sys2Proof

/-- No word spells a command, since no row of the table gives bits. -/
def decodeTableWord (_nbits _w : Nat) : Option Instr := none

end Sys2Proof
end

