-- ==== Sys2Proof/Config.lean ====
section
/-! DEFINITION. What an implementation fixes and the spec does not, and the free values of the model:
constants without a body, so that nothing proved of the model rests on what they are. -/

namespace Sys2Proof

/-- FREE VALUE: byte `i` of the `n`-th draw from the model's counter. Random data (the DRBG, nonces,
challenges, generated keys) and every register or memory value the spec leaves undefined come from
here (log 4). -/
opaque Config.freeByte : Nat → Nat → Byte

/-- FREE VALUE: the `n`-th choice the spec leaves to the device: a pulse or a dip between two limits,
an order it does not fix (log 4). -/
opaque Config.freeBool : Nat → Bool

/-- FREE VALUE: the `n`-th number the spec leaves to the device: which blob an unreadable flash page held
(log 4). -/
opaque Config.freeNat : Nat → Nat

/-- The silicon stepping, 0x2000:02 ("per stepping", R32). -/
opaque Config.stepping : Byte

/-- How many bytes of the stored image a stored value takes beside its own, by the number of its
selectors (R523 gives the 96 KiB and no encoding; log 6). -/
opaque Config.storeOverhead : Nat → Nat

/-- Bytes of the boot ROM, which the spec does not give (R19). -/
opaque Config.bootRom : Nat → Byte

/-- What the device takes for a fuse word that reads marginal, whose nominal value R146 does not use: by word and nominal
value. (DESIGN CHOICE, log 104.) -/
opaque Config.marginalFuse : Nat → BitVec 32 → BitVec 32

/-- The conductor's partition that serves a CI-owned object, by index and sub-index: the image's own matter (R171).
(DESIGN CHOICE, log 105.) -/
opaque Config.objectPartition : Nat → Nat → Nat

/-- FREE VALUE: a glitch filter passes a pulse between its nominal width and twice that (R49), by time in 1/25,600 ns of
action time, lane and width in ps (log 114). -/
opaque Config.filterPasses : Nat → Nat → Nat → Bool

/-- FREE VALUE: a deviation shorter than 1.0 ns inside a window fails (R277), by time in 1/25,600 ns of action time, lane and
length in ps (log 114). -/
opaque Config.briefFails : Nat → Nat → Nat → Bool

/-- FREE VALUE: the drive-path delay in ps that a characterisation measures, by its time, lane and slew step (R283, log 115). -/
opaque Config.driveDelay : Nat → Nat → Nat → Nat

/-- FREE VALUE: the input-path delay in ps that a characterisation measures, by its time, lane and filter code (R283, log 115). -/
opaque Config.inputDelay : Nat → Nat → Nat → Nat

/-- The delay in ps of the final output stage at a slew step, from the trim words and the set of those that use their
defaults (R283); the spec does not give the encoding of a trim value (log 115). -/
opaque Config.finalStage : List (BitVec 32) → BitVec 48 → Nat → Nat

/-- FREE VALUE: what a tracking pass measures of the replica line of a group of eight lanes, in ps per 4,000 ps of the PLL_0
VCO, by the time of the pass and the group (R284, log 115). -/
opaque Config.replica : Nat → Nat → Nat

/-- The check byte of the (72,64) code for the 8 bytes of a data word and bits 31:6 of its burst's channel address (R366): the
spec names the code's strength and not its matrix (log 130). -/
opaque Config.checkByte : List (BitVec 8) → Nat → BitVec 8

/-- FREE VALUE: trained value `i` that the retraining of a channel finds, by the time and the channel, as a step from the
fixed value (R387, log 131). -/
opaque Config.retrained : Nat → Nat → Nat → Nat

end Sys2Proof
end

