-- ==== Sys2Proof/Machine/State.lean ====
section
/-! DEFINITION. The state of the block: every register, object, counter, buffer, queue and mode the
spec gives the device, as plain data. Each field's comment names its object or meaning and its rule. -/

namespace Sys2Proof.Machine

/-- A sparse indexed collection: keys strictly rising, absent keys at the default value the operation
names. Equal collections are equal data. -/
abbrev SMap (α : Type) := List (Nat × α)

/-- The life-cycle states of Table 6.2, in the order of their codes (R149). -/
inductive LifeCycle where
  | wafer | calibrated | provisioned | service | analysis | scrapped | locked
  deriving DecidableEq, Repr

/-- The island states of Table 1.9, in the order of their codes (R33). -/
inductive IslandState where
  | off | resetting | loading | running | reseatPending | faulted | disabled | dead
  deriving DecidableEq, Repr

/-- The session levels of R117, in rising order. -/
inductive Level where
  | observer | operator | vendor
  deriving DecidableEq, Repr

/-- Where start-up stands: before the internal reset is released, waiting for the REFCLK check of R73, for the boot ROM (R163), for the islands after the dictionary is online, ready to arm (R72), stopped by invalid straps (R57), ended in reduced service (R75, R159), or in deep sleep (R77). -/
inductive StartPhase where
  | railsWait | refclkCheck | booting | online | ready | stopped | reduced | asleep
  deriving DecidableEq, Repr

/-- The NMT states of R109. -/
inductive NmtState where
  | preOperational | operational | stopped
  deriving DecidableEq, Repr

/-- The CAN controller states of 0x2201:08 and :09 (Table 5.13). -/
inductive CanStatus where
  | heldOff | errorActive | errorPassive | busOff
  deriving DecidableEq, Repr

/-- The PLL states of 0x2610+p:01 (Table 4.7). -/
inductive PllState where
  | off | locking | locked | faulted
  deriving DecidableEq, Repr

/-- The clock-output states of 0x2620+k:06 (Table 4.7). -/
inductive ClkoStatus where
  | off | bypass | running | heldLow
  deriving DecidableEq, Repr

/-- The sequencer states of Table 9.5. -/
inductive SeqState where
  | idle | arming | armed | launchPending | running | waiting | parked | faulted
  deriving DecidableEq, Repr

/-- The capture-unit states of R352. -/
inductive UnitState where
  | idle | ready | capturing | complete | bufferFull
  deriving DecidableEq, Repr

/-- The generator states of 0x3500:0D (Table 11.3). -/
inductive GenState where
  | idle | running | completed | abandoned
  deriving DecidableEq, Repr

/-- The sealed-field states of 0x3700:08 (Table 12.8). -/
inductive FieldState where
  | none | waiting | buffered | playing
  deriving DecidableEq, Repr

/-- The watchdog slot states of R449. -/
inductive SlotState where
  | inactive | grace | active | suspended
  deriving DecidableEq, Repr

/-- The MI modes of 0x4800:01 (Table 14.7). -/
inductive MiMode where
  | awaitingDelays | training | initialising | twoChannels | oneChannel | retiring | faulted | selfRefresh
  deriving DecidableEq, Repr

/-- The channel states of 0x4801+c:01 (Table 14.7). -/
inductive ChState where
  | off | training | running | reseating | faulted | retired
  deriving DecidableEq, Repr

/-- The cluster states of 0x4A00:04 (Table 17.8). -/
inductive ClState where
  | linkDown | ringOpen | closed | forming | formed | holdOver | refused | left
  deriving DecidableEq, Repr

/-- The pair states of 0x4B00:01 (Table 20.7). -/
inductive PairSt where
  | unpaired | pairing | activeSync | activePaired | activeLost | standbySync | standbySynced | fenced
  deriving DecidableEq, Repr

/-- The re-seat states of 0x2020:02 (Table 20.7). -/
inductive ReseatSt where
  | none | draining | resetting | loading | completed | failed
  deriving DecidableEq, Repr

/-- The debug states of 0x2400:0D (Table 6.11). -/
inductive DebugSt where
  | inactive | awaiting | authorised | opened
  deriving DecidableEq, Repr

/-- The SI arm states of 0x4500:01 (Table 7.14). -/
inductive ArmState where
  | armed | deadIntrusion | deadRootKey | awaitingRearm
  deriving DecidableEq, Repr

/-- The entropy states of 0x4000:05 (Table 8.9). -/
inductive Entropy where
  | startUp | healthy | failed
  deriving DecidableEq, Repr

/-- The activity states of 0x2B00:10 to :17 (Table 18.4). -/
inductive ActState where
  | idle | running | behind | suspended
  deriving DecidableEq, Repr

/-- Where a job of a queue stands: waiting for an engine, in its hash phase (R215), on an engine, suspended (R219), in verify-before-release (R222), complete but held for the standby's acknowledgement (R214), or complete with its record (R216). -/
inductive JobPhase where
  | queued | hashing | running | suspended | checking | landing | awaitingAck | done
  deriving DecidableEq, Repr

/-- The response verdicts of 0x3800:16 (Table 13.5). -/
inductive Verdict where
  | none | inTime | slow | noResponse | pending
  deriving DecidableEq, Repr

/-- The DRAM request classes in the order of R26. -/
inductive ReqClass where
  | playback | refresh | secure | capture | conductor | scrub
  deriving DecidableEq, Repr

/-- Whom a deferred answer goes to: the session and the request it answers (R31 step 8, R128). -/
structure Target where
  /-- Where the request arrived (R118). -/
  path : Path
  /-- The session number, 0 none (R118). -/
  session : Nat
  /-- Which opening of that session number, so that an ended session's answer is discarded (R121). -/
  serial : Nat := 0
  /-- The SPI port entry the request holds (R114). -/
  entry : Nat := 0
  /-- Its request tag (R126). -/
  tag : Word16
  /-- It is a write that requires a tag (R125). -/
  tagged : Bool := false
  /-- Object index (R112). -/
  index : Nat
  /-- Sub-index (R112). -/
  sub : Nat
  deriving DecidableEq, Repr

/-- A request that is accepted and not yet answered. -/
structure Waiter where
  /-- The original (R128). -/
  dest : Target
  /-- Held duplicates, each answered on its own path (R128). -/
  copies : List Target := []
  deriving DecidableEq, Repr

/-- One ledger entry (R129). -/
structure LedgerEntry where
  /-- Tag, 16 bits (R129). -/
  tag : Word16 := 0
  /-- 8 bytes (R127). -/
  digest : Bytes := []
  /-- Index (R129). -/
  index : Nat := 0
  /-- Sub-index (R129). -/
  sub : Nat := 0
  /-- Result code (R129). -/
  result : Word16 := 0
  /-- Up to 16 bytes of result data (R129). -/
  data : Bytes := []
  /-- Opened and not yet completed (R128). -/
  inProgress : Bool := false
  /-- Held duplicates of the request in progress (R128). -/
  copies : List Target := []
  deriving DecidableEq, Repr

/-- One open session, with everything the spec holds per session (R118 to R121). -/
structure Session where
  /-- Level (R117). -/
  level : Level := .observer
  /-- Which opening this is (R121). -/
  serial : Nat := 0
  /-- Bound to the SPI port (R118). -/
  isSpi : Bool := false
  /-- Client node-ID, or the client ID of an SPI open (R118). -/
  client : Nat := 0
  /-- The bus of its last request (R118). -/
  bus : Bus := .canA
  /-- 0x2100:01 and :02, staged request tag (R126). -/
  staged : Option Word16 := none
  /-- Up to 64 completed entries, newest first, and the one in progress (R129). -/
  ledger : List LedgerEntry := []
  /-- 0x2100:05 (R144). -/
  lastTag : Word16 := 0
  /-- 0x2100:06 (R144). -/
  lastResult : Word16 := 0
  /-- 0x2100:07, ms, 16 bits (R144). -/
  retryDelay : Nat := 0
  /-- Tick of the client's last request (R121). -/
  lastReq : Nat := 0
  /-- The per-session selectors, offsets and read positions, keyed by 256 × index + sub-index (R125). -/
  selectors : SMap Nat := []
  /-- 0x2680:02, latched fraction, 8 bits (R104). -/
  nowFraction : Nat := 0
  /-- 0x4200:02, outstanding operation nonce and the tick of its read (R184). -/
  opNonce : Option (Bytes × Nat) := none
  /-- 0x4300:12, envelope of the last export (R207). -/
  lastExport : Bytes := []
  /-- A request that counts is in progress (R131). -/
  busy : Bool := false
  deriving DecidableEq, Repr

/-- One EMCY (R141). -/
structure EmcyMsg where
  /-- Error code (R141). -/
  code : Word16 := 0
  /-- Error register (R141). -/
  register : Byte := 0
  /-- Recorder event code (R141). -/
  event : Word16 := 0
  /-- Island ID (R141). -/
  island : Nat := 0
  /-- Detail word (R141). -/
  detail : Word16 := 0
  deriving DecidableEq, Repr

/-- A lasting EMCY condition that holds (R141, Table 5.11). -/
structure Condition where
  /-- Its message (R141). -/
  emcy : EmcyMsg := {}
  /-- What raised it, so that its end is recognised (R141). -/
  key : Nat := 0
  deriving DecidableEq, Repr

/-- One CAN controller (R105 to R110). -/
structure CanCtl where
  /-- 0x2201:08 or :09 (R144). -/
  status : CanStatus := .heldOff
  /-- Up to 16 waiting EMCYs, oldest first (R142). -/
  waiting : List EmcyMsg := []
  /-- Inside the inhibit time (R142). -/
  inhibited : Bool := false
  /-- Nominal code in force (R106). -/
  nominal : Byte := 0x02
  /-- Data code in force (R106). -/
  dataCode : Byte := 0x01
  /-- Out of service after a failed re-seat (R485). -/
  failed : Bool := false
  /-- Off the bus during its re-seat (R60). -/
  reseating : Bool := false
  deriving DecidableEq, Repr

/-- An entry of the SPI port: a request in progress or a response that waits (R114). -/
structure SpiEntry where
  /-- Its number, in request order (R114). -/
  id : Nat := 0
  /-- Session byte (R112). -/
  session : Nat := 0
  /-- Request tag, echoed (R112). -/
  tag : Word16 := 0
  /-- Index, echoed (R112). -/
  index : Nat := 0
  /-- Sub-index, echoed (R112). -/
  sub : Nat := 0
  /-- The response frame of Table 5.4, once complete (R114). -/
  frame : Option Bytes := none
  /-- Completion order (R114). -/
  order : Nat := 0
  deriving DecidableEq, Repr

/-- The SPI target port (R111 to R116). -/
structure SpiPort where
  /-- Up to 8 entries, in request order (R114). -/
  entries : List SpiEntry := []
  /-- Number of the next request (R114). -/
  nextId : Nat := 0
  /-- Number of the next completion (R114). -/
  nextOrder : Nat := 0
  /-- Status bit 2 (R114). -/
  emcyPending : Bool := false
  /-- Status bit 3 (R113). -/
  rejected : Bool := false
  /-- Status bit 4 (R114). -/
  discarded : Bool := false
  /-- 0x2201:0A, 32 bits, saturates (R113). -/
  rejects : Nat := 0
  /-- 0x2201:0B, 32 bits, saturates (R114). -/
  discards : Nat := 0
  /-- SPI_IRQ_N asserted (R115). -/
  irq : Bool := false
  /-- Width in use (R116). -/
  quad : Bool := false
  /-- Width whose response has been fetched and which takes effect at the next fall of SPI_CS_N (R116). -/
  newQuad : Option Bool := none
  /-- Entries that answer writes to 0x2201:05, in request order, with their widths (R116). -/
  quadEntry : List (Nat × Bool) := []
  /-- 0x2201:05 (R116). -/
  lanesObj : Byte := 0
  /-- SPI mode 3 is in use, from the level of SPI_SCK at the last fall of SPI_CS_N (R45). -/
  mode3 : Bool := false
  deriving DecidableEq, Repr

/-- A request that waits in CH_01 while the cores are halted. -/
structure CiReq where
  /-- Where its answer goes (R22). -/
  dest : Target
  /-- Level of its session (R117). -/
  level : Level := .observer
  /-- Payload (R22). -/
  payload : Bytes := []
  /-- It is a read (R22). -/
  reading : Bool := false
  /-- Tick of its entry (R136). -/
  at_ : Nat := 0
  deriving DecidableEq, Repr

/-- An outstanding session nonce (R120). -/
structure NonceRec where
  /-- The client it is bound to (R120). -/
  path : Path
  /-- 16 bytes (R120). -/
  value : Bytes := []
  /-- Tick of the read (R120). -/
  readAt : Nat := 0
  deriving DecidableEq, Repr

/-- One consumed heartbeat (R143, 0x1016). -/
structure Consumer where
  /-- 0x1016 entry: node-ID and ms (R144). -/
  entry : Word32 := 0
  /-- Tick of the last reception (R143). -/
  lastAt : Nat := 0
  /-- A first heartbeat has been received (R143). -/
  monitored : Bool := false
  /-- Lost-heartbeat condition holds (R143). -/
  lost : Bool := false
  /-- Bus of the last reception (R143). -/
  bus : Bus := .canA
  deriving DecidableEq, Repr

/-- The host island's services (chapter 5). -/
structure HostServices where
  /-- NMT state (R109). -/
  nmt : NmtState := .preOperational
  /-- Commands obeyed in the last 10 ms: bus, specifier, node field, tick (R109). -/
  lastNmt : List (Bus × Byte × Byte × Nat) := []
  /-- CAN_A controller (R105). -/
  canA : CanCtl := {}
  /-- CAN_B controller (R105). -/
  canB : CanCtl := {}
  /-- SPI port (R111). -/
  spi : SpiPort := {}
  /-- Session table, numbers 1 to 32 (R118). -/
  sessions : SMap Session := []
  /-- Outstanding session nonces (R120). -/
  nonces : List NonceRec := []
  /-- Tick of the last SYNC on CAN_A (R108). -/
  lastSyncA : Option Nat := none
  /-- 0x2100:08, 32 bits, saturates (R128). -/
  replays : Nat := 0
  /-- 0x2100:09, 32 bits, saturates (R128). -/
  conflicts : Nat := 0
  /-- 0x1001 (R526). -/
  errorReg : Byte := 0
  /-- Register bits of the last event condition, kept until the next EMCY (R141). -/
  eventBits : Byte := 0
  /-- 0x1003, up to 16, newest first (R526). -/
  errors : List Word32 := []
  /-- Lasting conditions that hold (R526). -/
  conditions : List Condition := []
  /-- 0x1005 (R144). -/
  cobSync : Word32 := 0x80
  /-- 0x1006, µs (R144). -/
  cyclePeriod : Word32 := 0
  /-- 0x1012 (R144). -/
  cobTime : Word32 := 0x80000100
  /-- 0x1015, units of 100 µs (R144). -/
  inhibit : Word16 := 10
  /-- 0x1016:01 to :04 (R143). -/
  consumers : SMap Consumer := []
  /-- 0x1017, ms (R144). -/
  heartbeat : Word16 := 1000
  /-- 0x1800 to 0x180F, raw bytes by 256 × n + sub-index (R144). -/
  tpdoComm : SMap Bytes := []
  /-- 0x1A00 to 0x1A0F, raw bytes by 256 × n + sub-index (R144). -/
  tpdoMap : SMap Bytes := []
  /-- SYNCs counted by each cyclic TPDO since its last transmission (R107). -/
  tpdoCount : SMap Nat := []
  /-- Content each TPDO sent last (R107). -/
  tpdoLast : SMap Bytes := []
  /-- 0x2200:03, s, 16 bits (R144). -/
  idleTimeout : Nat := 300
  /-- 0x2201:06, ms, 16 bits (R144). -/
  usdoTimeout : Nat := 100
  /-- 0x2201:01 to :04, absent: the default (R106). -/
  bitCodes : SMap Byte := []
  /-- CH_01: requests the CI has not yet taken, oldest first (R22). -/
  ch01 : List CiReq := []
  /-- Selectors of ended sessions whose requests still wait in CH_01, by their opening (R119, R121). -/
  endedSels : SMap (SMap Nat) := []
  /-- MODEL: number of the next session opening (R121). -/
  nextSerial : Nat := 0
  /-- The HI serves requests (R74). -/
  online : Bool := false
  /-- 0x2300:01, ms, 16 bits (R464). -/
  telemetryPeriod : Nat := 100
  /-- Tick of the last heartbeat or boot-up message (R143). -/
  lastBeat : Nat := 0
  /-- Tick of the last transmission of each TPDO, for its event timer and inhibit time (R107). -/
  tpdoAt : SMap Nat := []
  deriving DecidableEq, Repr

/-- Supplies, resets and start-up (chapter 3). -/
structure Power where
  /-- 0x2003:05 (R80). -/
  railsGood : Byte := 0xFF
  /-- 0x2001:04, pad supplies present (R58). -/
  railsPresent : Byte := 0x1F
  /-- 0x2003:01 (R79). -/
  causes : BitVec 12 := 0x002
  /-- 0x2003:03, 32 bits, saturates (R80). -/
  chipResets : Nat := 1
  /-- 0x2003:04, 32 bits, lifetime, saturates (R80). -/
  aoPowerOns : Nat := 1
  /-- 0x2003:06, mV, 16 bits (R80). -/
  vbatMv : Nat := 3000
  /-- 0x2003:07 (R66). -/
  onVbat : Bool := false
  /-- 0x2003:0A (R80). -/
  wakeSources : Byte := 0x01
  /-- 0x2003:0B, µs, 32 bits (R80). -/
  onlineUs : Nat := 0
  /-- 0x2003:0C, µs, 32 bits (R80). -/
  readyUs : Nat := 0
  /-- Where start-up stands (R72). -/
  phase : StartPhase := .refclkCheck
  /-- A wake latched during entry to deep sleep (R78). -/
  latchedWake : Option WakeSource := none
  /-- Levels at the strap balls, bits as 0x2001:01 (R55). -/
  strapPins : BitVec 9 := 0
  /-- 0x2001:01 bits 8:0, sampled straps (R55). -/
  straps : BitVec 9 := 0
  /-- The REFCLK-fault record of this start-up is written (R73). -/
  refFaultRecorded : Bool := false
  /-- Least voltage of VDD_CORE, VDD_IO18 and VDD_IO33 (keys 0 to 2) since they browned out, mV (R79). -/
  minMv : SMap Nat := []
  /-- Every rail that gates the release has been absent while the AO core was kept (R79). -/
  absent : Bool := false
  /-- Rails good while the rails that gate the release were last gone, which the reset record of an internal power-on carries (R79). -/
  goneMask : Byte := 0xC0
  /-- The SQ has run since the chip reset: before that every lane pad holds its chip-reset or loading state (R59). -/
  lanesLive : Bool := false
  /-- The AO core is ready: the AO rail has been good since the last AO power-on reset (R67, section 3.4). -/
  coreReady : Bool := true
  deriving DecidableEq, Repr

/-- Reference, action time and spread (chapter 4). -/
structure Clocks where
  /-- The AO monotonic clock in units of 2.5 ns; µs is this divided by 400 (R177). -/
  ticks : Nat := 0
  /-- Tick of time 0 of the present start-up (R72). -/
  startTick : Nat := 0
  /-- Action time in 1/256 ns, 72 bits (R96). -/
  action : Nat := 0
  /-- PLL_0 has locked since the chip reset (R96). -/
  counting : Bool := false
  /-- 0x2600:01 (R104). -/
  refStatus : Byte := 0
  /-- 0x2600:02, Hz, 32 bits (R104). -/
  refHz : Nat := 0
  /-- 0x2600:03, REFCLK is lost and the standby oscillator in use (R82). -/
  refLost : Bool := false
  /-- Tick of the loss (R82). -/
  lostAt : Nat := 0
  /-- Islands that the loss has faulted and its end re-seats (R82). -/
  stopped : List Nat := []
  /-- 0x2600:04 to :07 as written, keys 0 HI, 1 CI, 2 SI, 3 VI (R104). -/
  spread : SMap Byte := []
  /-- Spread settings in effect (R84). -/
  spreadInForce : SMap Byte := []
  /-- 0x2680:04 (R104). -/
  timeSource : Byte := 0
  /-- 0x2680:05, 16 bits, wraps (R96). -/
  generation : Nat := 0
  /-- 0x2680:08, 32 bits, saturates (R104). -/
  late : Nat := 0
  /-- 0x2680:09, 32 bits, saturates (R104). -/
  asap : Nat := 0
  /-- 0x2680:0A (R104). -/
  lastTime : BitVec 48 := 0
  /-- 0x2680:0B, ns, 64 bits (R104). -/
  timeAt : Nat := 0
  /-- CH_18 has refused an entry (R97). -/
  ch18Refused : Bool := false
  /-- Link frequency beyond ±2 ppm of REFCLK (R432). -/
  refDisagrees : Bool := false
  /-- PLL_1 has been applied for the first time since the chip reset (R88). -/
  pll1Started : Bool := false
  /-- Entries that wait in CH_18 for the TI, up to 4 (R22). -/
  ch18 : Nat := 0
  deriving DecidableEq, Repr

/-- One synthesis PLL (R86 to R89). -/
structure Pll where
  /-- 0x2610+p:01 (R104). -/
  state : PllState := .off
  /-- 0x2610+p:02, 8 bits, staged for PLL_1 (R104). -/
  n : Nat := 40
  /-- 0x2610+p:03, 24 bits, staged for PLL_1 (R104). -/
  f : Nat := 0
  /-- N in force (R87). -/
  nApplied : Nat := 40
  /-- F in force (R87). -/
  fApplied : Nat := 0
  /-- 0x2610+p:06, 32 bits, saturates (R104). -/
  relocks : Nat := 0
  /-- 0x2610+p:07, µs (R104). -/
  lastUs : Nat := 0
  /-- Tick of the relock's start (R89). -/
  relockAt : Nat := 0
  /-- It has faulted, and has neither locked nor been powered off since (R89). -/
  faultHeld : Bool := false
  deriving DecidableEq, Repr

/-- One clock output (R90 to R95). -/
structure Clko where
  /-- 0x2620+k:01, staged (R104). -/
  format : Nat := 0
  /-- 0x2620+k:02, staged (R104). -/
  source : Nat := 0
  /-- 0x2620+k:03, staged, 16 bits (R104). -/
  divider : Nat := 40
  /-- Format applied (R91). -/
  formatIn : Nat := 0
  /-- Source applied (R91). -/
  sourceIn : Nat := 0
  /-- Divider applied (R91). -/
  dividerIn : Nat := 40
  /-- 0x2620+k:05, 16 bits (R95). -/
  pendingSteps : Int := 0
  /-- 0x2620+k:06 (R104). -/
  status : ClkoStatus := .off
  /-- 0x2620+k:07, 32 bits (R95). -/
  cumulative : Int := 0
  /-- 0x2620+k:08, Hz, 32 bits (R104). -/
  hz : Nat := 0
  /-- Bypass divider of the transition in progress (R92). -/
  bypass : Option Nat := none
  /-- A transition has not reached step 5 (R92). -/
  inTransition : Bool := false
  /-- Format, source and divider of an apply staged during a transition (R94). -/
  again : Option (Nat × Nat × Nat) := none
  /-- Stored format, source and divider that wait for the first lock of the source PLL (R91). -/
  restored : Option (Nat × Nat × Nat) := none
  /-- The transition in progress began from format off and rests low until step 5 (R92). -/
  fromOff : Bool := false
  deriving DecidableEq, Repr

/-- A drive edge at a lane's ball (R274 to R276). -/
structure PinEdge where
  /-- Its ideal time, held exactly, in 1/25,600 ns of action time (R270). -/
  ideal : Nat := 0
  /-- The driver from then on (R274). -/
  on : Bool := false
  /-- The level driven from then on (R274). -/
  level : Bool := false
  deriving DecidableEq, Repr

/-- The edge codes of a lane: the corrections in ps of its drive and its compare edges (R284, R285). -/
structure EdgeCodes where
  /-- Of D_ON, D_DATA and D_OFF (R285). -/
  drive : Nat := 0
  /-- Of C_OPEN and C_CLOSE (R285). -/
  input : Nat := 0
  deriving DecidableEq, Repr

/-- One lane pad and its compare state (chapters 2, 9, 13). -/
structure Lane where
  /-- 0x3000+n:01 (R51). -/
  mode : Byte := 0x00
  /-- 0x3000+n:02 (R51). -/
  slew : Byte := 0x01
  /-- 0x3000+n:03 (R51). -/
  hysteresis : Byte := 0x01
  /-- 0x3000+n:04 (R51). -/
  filter : Byte := 0x00
  /-- 0x3000+n:05 (R51). -/
  pull : Byte := 0x01
  /-- Input level after the filter, bit 0 of 0x3000+n:06 (R51). -/
  input : Bool := false
  /-- A sealed play runs on its site: bit 0 reads 0 and the producer holds its level (R334). -/
  sealedIn : Bool := false
  /-- Bit 1 of 0x3000+n:06 (R51). -/
  driverOn : Bool := false
  /-- Level driven while the driver is on (R274). -/
  driven : Bool := false
  /-- Bit 2 of 0x3000+n:06 (R234). -/
  atDust : Bool := false
  /-- 0x3000+n:07 (R268). -/
  owner : Byte := 0xFF
  /-- 0x3000+n:08 (R268). -/
  site : Byte := 0xFF
  /-- 0x3000+n:09 (R268). -/
  dust : Byte := 0x02
  /-- 0x3000+n:10 (R359). -/
  mask : Byte := 0x00
  /-- 0x3000+n:11, 32 bits, saturates (R337). -/
  fails : Nat := 0
  /-- 0x3000+n:12, 32 bits (R337). -/
  firstFail : Nat := 0xFFFFFFFF
  /-- 0x3000+n:13, 32 bits, saturates (R337). -/
  compares : Nat := 0
  /-- Its path delays are measured at the present slew step and filter (R283). -/
  characterised : Bool := false
  /-- Driver before the drive edges of its vector (R274). -/
  fromOn : Bool := false
  /-- Level driven before the drive edges of its vector (R274). -/
  fromLevel : Bool := false
  /-- Drive edges of its last vector that had any, ascending, at most one at a time (R276). -/
  edges : List PinEdge := []
  /-- Drive-path delay measured at the last characterisation, ps (R283). -/
  driveDelay : Nat := 0
  /-- Input-path delay measured at the last characterisation, ps (R283). -/
  inputDelay : Nat := 0
  /-- Edge codes of its vector in force (R285). -/
  codes : EdgeCodes := {}
  /-- Edge codes that the codes in force move to (R285). -/
  target : EdgeCodes := {}
  /-- New edge codes that no vector has taken, oldest first, with the action time in 1/25,600 ns at which each was ready (R285). -/
  fresh : List (Nat × EdgeCodes) := []
  deriving DecidableEq, Repr

/-- One level of a sequencer's loop stack (R248). -/
structure LoopFrame where
  /-- Address of the LOOP (R248). -/
  start : Nat := 0
  /-- Further passes of the body (R248). -/
  left : Nat := 0
  deriving DecidableEq, Repr

/-- One level of a sequencer's call stack (R248). -/
structure CallFrame where
  /-- Return address (R248). -/
  ret : Nat := 0
  /-- Loop depth at the call (R248). -/
  loops : Nat := 0
  deriving DecidableEq, Repr

/-- An asynchronous jump set by EVARM (R252). -/
structure ArmedJump where
  /-- Target address (R252). -/
  target : Nat := 0
  /-- Loop stack at the EVARM (R252). -/
  loops : List LoopFrame := []
  /-- Call stack at the EVARM (R252). -/
  calls : List CallFrame := []
  deriving DecidableEq, Repr

/-- An action-time stamp (Table 4.6). -/
structure Stamp where
  /-- Nanoseconds, 64 bits (R98). -/
  ns : Nat := 0
  /-- 1/256 ns, 8 bits (R98). -/
  frac : Nat := 0
  /-- Byte 9: scope, ASAP and held flags (R98). -/
  flags : Byte := 0
  deriving DecidableEq, Repr

/-- One timing set of a sequencer (R271). -/
structure TimingSet where
  /-- 16 bytes, Table 10.1 (R290). -/
  header : Bytes := List.replicate 16 0
  /-- Lane entries of 24 bytes, Table 10.2, by lane (R290). -/
  entries : SMap Bytes := []
  deriving DecidableEq, Repr

/-- The algorithmic generator of a sequencer (R305 to R312). -/
structure Generator where
  /-- 0x3500:02 bytes 3:0 (R314). -/
  xCount : Nat := 0
  /-- 0x3500:02 bytes 7:4 (R314). -/
  yCount : Nat := 0
  /-- 0x3500:03 (R314). -/
  width : Byte := 0x08
  /-- 0x3500:04, 27 bytes (R314). -/
  scramble : Bytes := (List.range 24).map (BitVec.ofNat 8) ++ [0, 0, 0]
  /-- 0x3500:05, 40 bytes (R314). -/
  backgrounds : Bytes := List.replicate 40 0
  /-- 0x3500:07, march programs 0 to 15 (R314). -/
  programs : SMap (List Word32) := []
  /-- 0x3500:08, start and records (R314). -/
  readTemplate : Nat × Nat := (0, 0)
  /-- 0x3500:09, start and records (R314). -/
  writeTemplate : Nat × Nat := (0, 0)
  /-- 0x3500:0A, up to 64 entries (R314). -/
  fieldMap : List Word32 := []
  /-- 0x3500:0B, 64 bits (R314). -/
  opsDone : Nat := 0
  /-- 0x3500:0C (R314). -/
  position : Word32 := 0
  /-- 0x3500:0D (R314). -/
  state : GenState := .idle
  deriving DecidableEq, Repr

/-- The sealed-field objects of one sequencer (Table 12.8). -/
structure SealedCfg where
  /-- 0x3700:04, µs, 16 bits (R336). -/
  window : Nat := 20
  /-- 0x3700:05 (R336). -/
  proofOn : Byte := 0
  /-- 0x3700:06 (R336). -/
  proofKey : Word16 := 0xFFFF
  /-- 0x3700:07, 2048 bytes (R336). -/
  proofMap : SMap Byte := []
  /-- 0x3700:08 (R336). -/
  field : FieldState := .none
  /-- 0x3700:09, 32 bits, saturates (R336). -/
  failed : Nat := 0
  /-- 0x3700:0A, 32 bits, saturates (R336). -/
  completed : Nat := 0
  /-- 0x3700:0B (R336). -/
  lastFailure : Bytes := [0, 0, 0, 0]
  /-- 0x3700:0E, ns, 32 bits (R336). -/
  longest : Nat := 0
  /-- Recipe of the SFW in progress (R322). -/
  recipe : Nat := 0
  /-- The latency window is open (R322). -/
  windowOpen : Bool := false
  /-- T_S, action time in 1/25,600 ns (R322). -/
  startAt : Nat := 0
  deriving DecidableEq, Repr

/-- A 64-byte burst of segment data in a stream ring. -/
structure RingBurst where
  /-- Its segment (R244). -/
  seg : Nat := 0
  /-- The stream it was fetched for: a site mask of a PLAYS, or 4 for a full-width PLAY (R264). -/
  stream : Nat := 4
  /-- Data bytes that are not yet played (R244). -/
  bytes : Nat := 0
  /-- It was not delivered: its stream parks there (R367). -/
  bad : Bool := false
  deriving DecidableEq, Repr

/-- A place on the predicted path (R244). -/
structure FetchPos where
  /-- Address of the instruction (R244). -/
  pc : Nat := 0
  /-- Play of its segment, for a PLAY with a repeat (R244). -/
  rep : Nat := 0
  /-- Burst index reached in each of its streams (R244). -/
  offset : Nat := 0
  /-- Site mask whose turn it is, for a PLAYS (R244). -/
  mask : Nat := 0
  /-- Loop levels (R244). -/
  loops : List LoopFrame := []
  /-- Call levels (R244). -/
  calls : List CallFrame := []
  /-- Ideal time from the first boundary of the run to this place, waits of no stated length aside, in the units of R298 (R375). -/
  time : Nat := 0
  /-- Timing set of the vector before it (R254). -/
  set : Nat := 0
  deriving DecidableEq, Repr

/-- A segment descriptor (Table 9.1). -/
structure Desc where
  /-- Data offset, 64-byte units, 32 bits (R268). -/
  offset : Nat := 0
  /-- Vector count, 32 bits (R268). -/
  count : Nat := 0
  /-- W (R268). -/
  width : Byte := 0
  /-- Kind (R268). -/
  kind : Byte := 0
  /-- Flags (R268). -/
  flags : Byte := 0
  deriving DecidableEq, Repr

/-- A play of a sample segment (R299). -/
structure SamplePlay where
  /-- Offset of its first frame from T_b(0), in the units of R298. -/
  start : Nat := 0
  /-- The segment's descriptor as it was played. -/
  desc : Desc := {}
  /-- Its frames, repeats counted. -/
  frames : Nat := 0
  deriving DecidableEq, Repr

/-- One sequencer (chapter 9) with its timing sets, generator and sealed fields. -/
structure Seq where
  /-- 0x3100+s:01 (R257). -/
  state : SeqState := .idle
  /-- 0x3100+s:05 (R261). -/
  endCause : Byte := 0
  /-- 0x3100+s:07, site masks 0 to 3 (R268). -/
  masks : List Word16 := [0, 0, 0, 0]
  /-- 0x3100+s:08, KiB, 16 bits (R268). -/
  share : Nat := 64
  /-- 0x3100+s:09, L, 16 bits (R268). -/
  progLen : Nat := 0
  /-- 0x3100+s:0A (R258). -/
  refusal : Word32 := 0
  /-- 0x3100+s:0B (R265). -/
  parked : BitVec 4 := 0
  /-- 0x3100+s:0C (R256). -/
  dropped : BitVec 4 := 0
  /-- 0x3100+s:0D, 16 bits (R268). -/
  pc : Nat := 0
  /-- 0x3100+s:0E, 32 bits, saturates (R265). -/
  underruns : Nat := 0
  /-- 0x3100+s:0F, 64 bits (R268). -/
  vectors : Nat := 0
  /-- 0x3100+s:10, 32 bytes (R259). -/
  digest : Bytes := List.replicate 32 0
  /-- The stream ring: one entry per 64-byte burst held, oldest first, 0x3100+s:11 is 64 per entry (R244, R268). -/
  ring : List RingBurst := []
  /-- Size of the stream ring, bytes (R243). -/
  ringSize : Nat := 0
  /-- Segments of the refill bursts outstanding on CH_10, oldest first, each with its stream (R244). -/
  fetching : List (Nat × Nat) := []
  /-- How far the predicted path has been requested (R244). -/
  fetch : FetchPos := {}
  /-- Program store, 4096 words (R263). -/
  store : SMap Word32 := []
  /-- Loop stack, innermost first, at most 8 (R248). -/
  loops : List LoopFrame := []
  /-- Call stack, innermost first, at most 8 (R248). -/
  calls : List CallFrame := []
  /-- Event latches 0 to 3 (R250). -/
  latches : BitVec 4 := 0
  /-- E of the event that set each latch, action time in 1/256 ns (R252). -/
  eventAt : SMap Nat := []
  /-- Vectors of the instruction at the program counter that are already emitted (R237, R310). -/
  done : Nat := 0
  /-- Whole plays of its segment that are over (R237). -/
  playNo : Nat := 0
  /-- Record in play (R237). -/
  recNo : Nat := 0
  /-- Vectors of that record already emitted (R237). -/
  recAt : Nat := 0
  /-- Armed jumps by input (R252). -/
  jumps : SMap ArmedJump := []
  /-- Marker producers 0 to 3 (R253). -/
  markers : BitVec 4 := 0
  /-- The pending launch (R260). -/
  launch : Option Stamp := none
  /-- The pending launch has been held (R103). -/
  launchHeld : Bool := false
  /-- Its scope was permitted again less than 2,000 ns ahead (R103). -/
  launchMissed : Bool := false
  /-- Acceptance order of the pending launch (R102). -/
  acceptOrder : Nat := 0
  /-- 0x3100+s:03, realised-launch report (R98). -/
  report : Stamp := {}
  /-- T_b(0) of the run in 1/256 ns of action time (R270). -/
  baseNs256 : Nat := 0
  /-- What adoptions have added to action time since launch, 1/256 ns (R96). -/
  shift256 : Int := 0
  /-- Ideal offset of the next boundary from T_b(0), in the units of R298 (R270). -/
  tb : Nat := 0
  /-- What waits of no stated length have added to it (R375). -/
  held : Nat := 0
  /-- Vectors emitted since launch (R337). -/
  vecIndex : Nat := 0
  /-- Timing set of the previous vector (R254). -/
  lastSet : Nat := 0
  /-- The previous vector was a hold vector (R254). -/
  lastHold : Bool := false
  /-- Latest C_CLOSE of the earlier vectors of the run, action time in 1/25,600 ns (R256). -/
  lastClose : Nat := 0
  /-- A DROP waits to take effect (R256). -/
  dropDue : Bool := false
  /-- The barrier at which the sequencer waits (R255). -/
  barrier : Option Nat := none
  /-- Key slots the armed configuration references (R185). -/
  keyRefs : List Nat := []
  /-- Master keys that the recipes of the armed configuration name (R326). -/
  masterRefs : List Nat := []
  /-- Segments the armed program references (R240). -/
  refs : List Nat := []
  /-- The earliest time of the sealed play, action time in 1/25,600 ns (R324). -/
  resumeAt : Nat := 0
  /-- Program and resident bytes loaded at arm (R243). -/
  resident : Nat := 0
  /-- The arm write that is not yet answered (R258). -/
  armWaiter : Option Waiter := none
  /-- The recipe of the sealed play under way (R324). -/
  playing : Option Nat := none
  /-- Plays of sample segments in the run, newest first (R299). -/
  samplePlays : List SamplePlay := []
  /-- Timing sets 0 to 15 (R271). -/
  sets : SMap TimingSet := []
  /-- Generator (R314). -/
  gen : Generator := {}
  /-- Sealed-field objects (R336). -/
  sealedCfg : SealedCfg := {}
  /-- 0x4900:0B, stream period floor, 10 ps units, 32 bits (R391). -/
  floor : Nat := 0
  /-- Admitted playback charge, kB/s (R382). -/
  playback : Rat := 0
  /-- Admitted capture charge, kB/s (R382). -/
  capture : Rat := 0
  /-- Tick at which the arm in progress was accepted (R136). -/
  armAt : Nat := 0
  /-- MODEL: result code with which its last pending action completed: 0 it took effect, 0x0006 late, 0x0007 time base changed (R96). -/
  lastAction : Option Nat := none
  deriving DecidableEq, Repr

/-- A site's issuance proof of the run in progress (R330). -/
structure ProofRun where
  /-- A proof runs at this site (R330). -/
  on : Bool := false
  /-- Transcript bytes packed so far (R330). -/
  data : Bytes := []
  /-- A nibble that waits for its pair (R330). -/
  half : Option Nat := none
  /-- Transcript nibbles (R330). -/
  nibbles : Nat := 0
  /-- Fields completed in the run (R330). -/
  completed : Nat := 0
  /-- Fields failed in the run (R330). -/
  failed : Nat := 0
  /-- UID of the run's fields (R330). -/
  uid : Bytes := []
  /-- The site was dropped or parked before its field (R333). -/
  early : Bool := false
  deriving DecidableEq, Repr

/-- The sealed-field state of one site (chapter 12). -/
structure SiteSeal where
  /-- The UID held on CH_08 (R321). -/
  uid : Option Bytes := none
  /-- A second UID was refused while one was held (R321). -/
  uidRefused : Bool := false
  /-- A field of this site is requested and not resolved (R322). -/
  waiting : Bool := false
  /-- Acceptance number of its job (R322). -/
  job : Option Nat := none
  /-- Cause of the field's failure, 0 none (R327). -/
  cause : Byte := 0
  /-- Earliest failure point, action time in 1/25,600 ns (R327). -/
  failAt : Nat := 0
  /-- V is derived and no word is sent (R323). -/
  derived : Bool := false
  /-- V, and its words on CH_09 (R317). -/
  value : Bytes := []
  /-- Its words are on CH_09 (R323). -/
  sent : Bool := false
  /-- The epoch on whose acknowledgement the field waits, for a raise of its key's reservation (R326). -/
  ackEpoch : Option Nat := none
  /-- The site's part of the sealed buffer (R323). -/
  buffer : Bytes := []
  /-- Bits of the field already driven (R315). -/
  pos : Nat := 0
  /-- The proof of the run (R330). -/
  run : ProofRun := {}
  /-- Up to 8 proof records, newest first (R333). -/
  records : List Bytes := []
  /-- Proof sequence number (R330). -/
  seq : Nat := 0
  deriving DecidableEq, Repr

/-- The injector (chapter 12). -/
structure Sealed where
  /-- 256 recipes of 64 bytes (R317). -/
  recipes : SMap Bytes := []
  /-- The 16 sites (R321). -/
  sites : SMap SiteSeal := []
  deriving DecidableEq, Repr

/-- One capture unit (R346 to R355). -/
structure CapUnit where
  /-- 0x3800:02 (R359). -/
  sources : Byte := 0
  /-- 0x3800:03 (R359). -/
  trigSource : Byte := 0
  /-- 0x3800:04 (R359). -/
  pattern : Bytes := List.replicate 16 0
  /-- 0x3800:05 (R359). -/
  level : Bytes := [0, 0, 0, 0]
  /-- 0x3800:06, 16 bits (R359). -/
  primerCount : Nat := 0
  /-- 0x3800:07, 32 bits (R359). -/
  post : Nat := 1024
  /-- 0x3800:08, 8 bits (R359). -/
  trigCount : Nat := 1
  /-- 0x3800:09 (R359). -/
  window : Bytes := List.replicate 8 0
  /-- 0x3800:0A, 8 bits (R359). -/
  baseDec : Nat := 0
  /-- 0x3800:0B (R359). -/
  buffer : Bytes := List.replicate 16 0
  /-- 0x3800:0C, records since arm, 64 bits (R348). -/
  wptr : Nat := 0
  /-- 0x3800:0D, records consumed, 64 bits (R348). -/
  rptr : Nat := 0
  /-- 0x3800:0E (R352). -/
  state : UnitState := .idle
  /-- 0x3800:0F, 32 bits, saturates (R354). -/
  lost : Nat := 0
  /-- Dead time since launch, 1/256 ns; 0x3800:10 shows ns (R355). -/
  dead : Nat := 0
  /-- 0x3800:11, triggers taken since launch (R350). -/
  triggers : Nat := 0
  /-- 0x3800:12 (R359). -/
  uidCfg : Bytes := List.replicate 8 0
  /-- 0x3800:13 (R359). -/
  respCfg : Bytes := [0xFF, 0, 0, 0, 0, 0, 0, 0]
  /-- 0x3800:19, 32 bits, saturates (R341). -/
  failLost : Nat := 0
  /-- 0x3800:1C, 16 bits (R359). -/
  failLimit : Nat := 256
  /-- Triggers that did not count since the last trigger record (R350). -/
  missed : Nat := 0
  /-- Dead time at the last trigger record, 1/256 ns (R355). -/
  deadMark : Nat := 0
  /-- Action time at which the present dead time began, 1/256 ns (R355). -/
  deadFrom : Option Nat := none
  /-- The unit cannot take a trigger since a completion or with its ring full (R355). -/
  deadBusy : Bool := false
  /-- A record was lost and none written since (R355). -/
  deadLoss : Bool := false
  /-- The next record is the first after dead time (R355). -/
  gap : Bool := false
  /-- Record sequence number, 32 bits (R347). -/
  recSeq : Nat := 0
  /-- Primer records held, oldest first (R351). -/
  primer : List Bytes := []
  /-- Post-trigger records still to come (R351). -/
  postLeft : Nat := 0
  /-- Stream indexes since launch: 0 vector captures, 16 + k the in-samples of port k (R353). -/
  streams : SMap Nat := []
  /-- In-samples of each port that wait for a record of five (R346). -/
  samples : SMap (List Int) := []
  /-- Time of the first of them, action time in 1/256 ns (R347). -/
  sampleAt : SMap Nat := []
  /-- Effective exponent under which they were kept (R347). -/
  sampleExp : SMap Nat := []
  /-- Close time of the latest vector with a counted fail, action time in 1/25,600 ns (R409). -/
  failAt : Option Nat := none
  deriving DecidableEq, Repr

/-- The acquisition state of one site (R338 to R345). -/
structure SiteAq where
  /-- Sticky fail flag, 0x3800:15 (R338). -/
  flag : Bool := false
  /-- 0x3800:1A, 32 bits (R359). -/
  fails : Nat := 0
  /-- Fail records of the run (R341). -/
  failRecs : Nat := 0
  /-- 0x3800:16 byte 4 (R344). -/
  verdict : Verdict := .none
  /-- 0x3800:16 bytes 3:0, ns (R344). -/
  respTime : Nat := 0
  /-- Start of the timer, action time in 1/25,600 ns (R344). -/
  startAt : Nat := 0
  /-- The timer has started and no response has been seen (R344). -/
  timing : Bool := false
  /-- The producer AQ site k response (R409). -/
  responded : Bool := false
  /-- The producer AQ site k slow (R409). -/
  slowSeen : Bool := false
  /-- Bits captured on lane i in the present play of the UID segment (R342). -/
  uidBits : List Bool := []
  /-- The UID of this play has been offered (R342). -/
  uidDone : Bool := false
  /-- Observed data of the ALG read in progress (R340). -/
  algData : Nat := 0
  /-- A counted compare of it has failed (R340). -/
  algFail : Bool := false
  /-- A compare of it not tied to a data bit has failed (R340). -/
  algOther : Bool := false
  /-- Boundary of its first vector, action time in 1/25,600 ns (R347). -/
  algAt : Nat := 0
  deriving DecidableEq, Repr

/-- A record in capture staging (R353). -/
structure StagedRec where
  /-- Its unit (R353). -/
  unit : Nat := 0
  /-- Its kind (R347). -/
  kind : Nat := 0
  /-- Its 32 bytes (R347). -/
  bytes : Bytes := []
  /-- Where it goes, by usable-space offset (R348). -/
  place : Nat := 0
  /-- It lies in its buffer, and waits for the records before it (R349). -/
  landed : Bool := false
  deriving DecidableEq, Repr

/-- Acquisition (chapter 13). -/
structure Acq where
  /-- The 16 units (R346). -/
  units : SMap CapUnit := []
  /-- The 16 sites (R338). -/
  sites : SMap SiteAq := []
  /-- 0x3800:17, d, 0 to 8 (R353). -/
  decimation : Nat := 0
  /-- Capture staging, oldest first; 0x3800:18 is its fill (R353). -/
  staging : List StagedRec := []
  /-- 0x3800:1B, 32 bits, saturates (R359). -/
  decChanges : Nat := 0
  /-- Sequencers whose compares are discarded until their next arm (R357). -/
  awaitArm : BitVec 16 := 0
  deriving DecidableEq, Repr

/-- A request of a DRAM channel's queue (R372). -/
structure DramReq where
  /-- Class (R26). -/
  cls : ReqClass := .conductor
  /-- Rank (R366). -/
  rank : Nat := 0
  /-- Bank (R366). -/
  bank : Nat := 0
  /-- Row (R366). -/
  row : Nat := 0
  /-- Usable-space offset (R362). -/
  addr : Nat := 0
  /-- A write (R373). -/
  write : Bool := false
  /-- Segment of a refill (R375). -/
  seg : Nat := 0
  /-- Stream of a refill (R264). -/
  stream : Nat := 4
  /-- Requester: sequencer, unit, job or partition number (R367). -/
  owner : Nat := 0
  /-- Bytes (R366). -/
  len : Nat := 32
  /-- The window access that waits for it (R135). -/
  dest : Option Target := none
  /-- Bytes of a write (R373). -/
  data : Bytes := []
  /-- The transfer of which this is one block of 256 bytes, 0 for a request of one block (R362). -/
  tx : Nat := 0
  /-- It belongs to a write of less than whole bursts, which lands as a whole (R367). -/
  rmw : Bool := false
  /-- Path time of the first vector in a refill's burst, in the units of R298 (R375). -/
  due : Nat := 0
  deriving DecidableEq, Repr

/-- A request of more than one block of 256 bytes, whose blocks alternate between the channels (R362). -/
structure Transfer where
  /-- Its number. -/
  id : Nat := 0
  /-- The request (R372). -/
  req : DramReq := {}
  /-- Blocks that are still to return or land (R372). -/
  left : Nat := 0
  /-- Blocks read, and blocks of a write that lands as a whole (R367). -/
  done : List DramReq := []
  deriving DecidableEq, Repr

/-- A counted row of an activation table (R378). -/
structure ActRow where
  /-- Row address (R378). -/
  row : Nat := 0
  /-- Activations since the table was cleared (R378). -/
  count : Nat := 0
  deriving DecidableEq, Repr

/-- One bank of a channel. -/
structure Bank where
  /-- The open row (R374). -/
  openRow : Option Nat := none
  /-- Activation table, up to 64 entries (R378). -/
  rows : List ActRow := []
  /-- Rows whose neighbours wait for a refresh (R378). -/
  neighbour : List Nat := []
  deriving DecidableEq, Repr

/-- One DRAM channel (chapter 14). -/
structure DramCh where
  /-- 0x4801+c:01 (R391). -/
  state : ChState := .off
  /-- 0x4801+c:02 capacity, GiB (R360). -/
  gib : Nat := 0
  /-- Ranks (R360). -/
  ranks : Nat := 1
  /-- 0x4801+c:03 (R391). -/
  caOffset : Word16 := 32
  /-- 0x4801+c:04 (R391). -/
  wlStart : Bytes := [0x40, 0x00, 0x40, 0x00]
  /-- 0x4801+c:05 (R391). -/
  gateBase : Bytes := [0x80, 0x01, 0x80, 0x01]
  /-- 0x4801+c:06 (R391). -/
  drive : Bytes := [0x01, 0x02, 0x06, 0x04]
  /-- 0x4801+c:07 (R391). -/
  refs : Bytes := [0x1E, 0x1E, 0x32]
  /-- 0x4801+c:08 (R391). -/
  trained : List Word16 := []
  /-- 0x4801+c:09, saturates (R391). -/
  corrected : Nat := 0
  /-- 0x4801+c:0A, saturates (R391). -/
  uncorrectable : Nat := 0
  /-- 0x4801+c:0B (R391). -/
  lastBad : Nat := 0
  /-- Ticks of the uncorrectable errors of the last 24 h (R386). -/
  badTicks : List Nat := []
  /-- 0x4801+c:0C (R391). -/
  multiplier : Byte := 0x01
  /-- The DRAM-temperature condition holds (R377). -/
  hot : Bool := false
  /-- 0x4801+c:0D, saturates (R391). -/
  neighbours : Nat := 0
  /-- 0x4801+c:0E, saturates (R391). -/
  forced : Nat := 0
  /-- 0x4801+c:0F, 64 bits (R391). -/
  served : Nat := 0
  /-- Banks by 8 × rank + bank (R366). -/
  banks : SMap Bank := []
  /-- Waiting requests, oldest first (R372). -/
  queue : List DramReq := []
  /-- Reads granted and not yet returned (R375). -/
  inFlight : List DramReq := []
  /-- The write buffer is draining (R373). -/
  draining : Bool := false
  /-- Refreshes postponed per rank (R376). -/
  postponed : SMap Nat := []
  /-- Banks of each rank refreshed in its present round, one bit each (R376). -/
  roundDone : SMap Nat := []
  /-- Refresh multiplier last read from each rank (R377). -/
  mr4 : SMap Byte := []
  /-- Blocks of 64 bytes that the scrub sweep of the channel has read (R457). -/
  sweep : Nat := 0
  deriving DecidableEq, Repr

/-- The MI and the DRAM (chapter 14). -/
structure Dram where
  /-- 0x4800:01 (R369). -/
  mode : MiMode := .awaitingDelays
  /-- 0x4800:02 (R391). -/
  rateStored : Byte := 0x00
  /-- Rate in force (R361). -/
  rate : Byte := 0x00
  /-- 0x4800:05, stored layout, MiB (R391). -/
  layoutStored : List Nat := [128, 384, 256, 64]
  /-- Layout in force, MiB (R365). -/
  layout : List Nat := [128, 384, 256, 64]
  /-- 0x4800:03, channels in service (R391). -/
  inService : BitVec 2 := 0
  /-- 0x4800:07 (R391). -/
  policy : Byte := 0x01
  /-- 0x4800:0A, 16 bits, wraps (R391). -/
  generation : Nat := 0
  /-- 0x4800:0B (R391). -/
  threshold : Nat := 8
  /-- 0x4800:0C (R391). -/
  watermarks : Bytes := [0x30, 0x10]
  /-- 0x4800:0D (R391). -/
  hints : Bytes := [0x00, 0x01, 0x00, 0x01, 0x00]
  /-- 0x4800:0E (R391). -/
  rowHammer : Nat := 2048
  /-- 0x4800:10, saturates (R391). -/
  misses : Nat := 0
  /-- 0x4800:11 (R391). -/
  retirements : Nat := 0
  /-- 0x4800:12 (R391). -/
  lastFault : Bytes := [0, 0]
  /-- The two channels (R360). -/
  channels : List DramCh := [({} : DramCh), ({} : DramCh)]
  /-- 0x4900:05, kB/s (R391). -/
  siShare : Nat := 200000
  /-- 0x4900:06, kB/s (R391). -/
  ciShare : Nat := 400000
  /-- 0x4900:0D, 32 bits, saturates (R391). -/
  refusals : Nat := 0
  /-- SI-class bytes above its share, in 1/400,000 byte (R372). -/
  siUsed : Nat := 0
  /-- Conductor-class bytes above its share, in 1/400,000 byte (R372). -/
  ciUsed : Nat := 0
  /-- Tick at which these were last drawn down (R372). -/
  shapeAt : Nat := 0
  /-- DRAM contents by usable-space offset (R368). -/
  bytes : SMap Byte := []
  /-- The channel a retirement is taking out (R388). -/
  retiring : Option Nat := none
  /-- Requests that their producers hold while CH_13, CH_14 or CH_15 is full, oldest first (R22). -/
  stalled : List DramReq := []
  /-- Requests of several blocks, oldest first (R362). -/
  transfers : List Transfer := []
  /-- Number of the next of them. -/
  nextTx : Nat := 1
  /-- Bursts last read with an uncorrectable error and not yet written anew, by usable-space burst number (R366, R367). -/
  badBursts : List Nat := []
  deriving DecidableEq, Repr

/-- A level channel's staged or active set (R394). -/
structure LvSet where
  /-- Level code (R408). -/
  code : Word16 := 0
  /-- Waveform mode (R408). -/
  mode : Byte := 0
  /-- Sine centre (R408). -/
  centre : Word16 := 0x8000
  /-- Sine amplitude (R408). -/
  amplitude : Word16 := 0
  /-- Frequency word (R408). -/
  frequency : Word32 := 0
  deriving DecidableEq, Repr

/-- One level channel (chapter 15). -/
structure LvCh where
  /-- Staged set (R408). -/
  staged : LvSet := {}
  /-- Active set (R401). -/
  active : LvSet := {}
  /-- 0x3900:03 (R408). -/
  loadMode : Byte := 0x01
  /-- 0x3900:04 (R408). -/
  clearCode : Word16 := 0
  /-- 0x3900:09 (R408). -/
  startPhase : Word32 := 0
  /-- 0x3900:0A (R408). -/
  supply : Byte := 0x01
  /-- Sine accumulator, 32 bits (R397). -/
  acc : Nat := 0
  /-- 0x3900:0B, code c of the last frame (R408). -/
  code : Word16 := 0
  /-- Dither remainder (R393). -/
  r : Nat := 0
  /-- H, high clocks of the present frame (R393). -/
  h : Nat := 0
  /-- K in force, 0x3900:0D (R404). -/
  cal : Int := 0
  /-- K of the last calibration (R404). -/
  calNext : Int := 0
  /-- Status bit 0 (R401). -/
  atClear : Bool := true
  /-- Status bit 1 and 0x3900:13 (R408). -/
  short : Bool := false
  /-- Status bit 2 (R408). -/
  saturated : Bool := false
  /-- Status bit 4 (R408). -/
  stagedNew : Bool := false
  /-- Tick from which a boundary loads the first write of immediate mode that no boundary has loaded (R394). -/
  loadAt : Option Nat := none
  /-- Tick from which a boundary loads the last write after that one (R394). -/
  loadNext : Option Nat := none
  /-- Re-enabled at the next boundary (R403). -/
  restore : Bool := false
  deriving DecidableEq, Repr

/-- The level outputs (chapter 15). -/
structure Levels where
  /-- The 16 channels (R392). -/
  chs : SMap LvCh := []
  /-- A load strobe has been acknowledged since the last boundary (R394). -/
  strobe : Bool := false
  /-- LVL_CLR_N asserted after its filter, 0x3900:12 bit 0 (R408); the level stands outside the device (R401). -/
  pinClear : Bool := false
  /-- A pulse at "LV clear" is acknowledged and has not ended, 0x3900:12 bit 1 (R408, R411). -/
  eventClear : Bool := false
  /-- The clear of 0x3900:11: 2 from its acceptance to its boundary, 1 in the frame that begins there, else 0 (R399). -/
  clearFrames : Nat := 0
  /-- A clear has been acknowledged since the last boundary (R399). -/
  clearSeen : Bool := false
  /-- 0x3900:14, 32 bits, saturates (R408). -/
  loads : Nat := 0
  /-- 0x3900:15, mV (R408). -/
  mv : Nat := 3300
  /-- V in force (R405). -/
  mvNow : Nat := 3300
  deriving DecidableEq, Repr

/-- The event router (chapter 16). -/
structure Router where
  /-- 96 route bytes (R419). -/
  routes : SMap Byte := []
  /-- Lane taps (R419). -/
  taps : List Byte := [0, 0]
  /-- Software event levels (R418). -/
  software : BitVec 2 := 0
  /-- Tick at which a software pulse ends (R418). -/
  pulses : SMap Nat := []
  /-- Event counters 0 to 3, 32 bits (R418). -/
  counters : SMap Nat := []
  /-- Marks suppressed since the last record (R418). -/
  suppressed : Nat := 0
  /-- Tick of the last mark record (R418). -/
  lastMark : Option Nat := none
  /-- Route changes (R419). -/
  changes : Nat := 0
  /-- Filtered EVI levels (R409). -/
  evi : BitVec 8 := 0
  deriving DecidableEq, Repr

/-- A ring member as its heartbeats and HELLO describe it. -/
structure Member where
  /-- Serial number (R427). -/
  serial : Nat := 0
  /-- Node-ID (R446). -/
  node : Nat := 0
  /-- Priority (R427). -/
  priority : Nat := 0
  /-- Cluster ID (R427). -/
  cluster : Nat := 0
  /-- Life-cycle code (R446). -/
  life : Byte := 0
  /-- Time quality (R446). -/
  quality : Byte := 0
  /-- Offset, 1/256 ns (R446). -/
  offset : Int := 0
  /-- Flags (R446). -/
  flags : Byte := 0
  /-- Cluster state (R446). -/
  state : Byte := 0
  /-- Time-base generation (R446). -/
  generation : Nat := 0
  /-- Firmware digest (R431). -/
  digest : Bytes := []
  /-- Device arm digest (R439). -/
  armDigest : Bytes := []
  /-- Barrier mask of its latest heartbeat, bit b − 16 (R438). -/
  barriers : Nat := 0
  /-- A heartbeat of it has been received since the ring closed (R431). -/
  heard : Bool := false
  /-- Its last heartbeat read bad while the cluster read good (R432). -/
  ownBad : Bool := false
  /-- Tick of the last heartbeat (R431). -/
  lastAt : Nat := 0
  /-- Lost (R431). -/
  lost : Bool := false
  deriving DecidableEq, Repr

/-- A frame's header and payload (Table 17.2). -/
structure Frame where
  /-- Type (Table 17.3). -/
  type : Nat
  /-- Cluster ID, 0xFF ring-wide. -/
  cluster : Nat
  /-- Source position. -/
  src : Nat
  /-- Destination position, 0xFF every device. -/
  dst : Nat
  /-- Sequence number. -/
  seq : Nat
  /-- Payload. -/
  payload : Bytes
  deriving DecidableEq, Repr

/-- A frame that waits for the transmitter (R425). -/
structure TxFrame where
  /-- The frame (R425). -/
  frame : Frame
  /-- It is forwarded, not of this device's making (R425). -/
  forwarded : Bool := false
  /-- Tick from which it may go: a CAL's place in its interval of 10 µs (R435). -/
  due : Nat := 0
  deriving DecidableEq, Repr

/-- An ARRIVE that a barrier holds (R438). -/
structure Arrival where
  /-- Ring position of its sender (R438). -/
  position : Nat := 0
  /-- Its device arm digest (R439). -/
  digest : Bytes := []
  /-- Its withdraw flag (R438). -/
  withdrawn : Bool := false
  deriving DecidableEq, Repr

/-- One cluster barrier (R438 to R441). -/
structure Barrier where
  /-- Complete and held (R439). -/
  held : Bool := false
  /-- The ARRIVEs held at the master (R439). -/
  arrivals : List Arrival := []
  /-- Tick of the first arrival at the master (R440). -/
  firstAt : Nat := 0
  /-- Action time of the last arrival, 1/256 ns (R439). -/
  lastAt : Nat := 0
  /-- Its RELEASE has waited for the cluster to read good (R439). -/
  waited : Bool := false
  /-- Generation (R438). -/
  generation : Nat := 0
  /-- Every local participant has arrived (R438). -/
  localArrived : Bool := false
  /-- Tick of that arrival, from which a device that is no formed member times the barrier out (R441). -/
  localAt : Nat := 0
  /-- The withdraw flag of an ARRIVE that is still to be sent (R438, R442). -/
  owed : Option Bool := none
  deriving DecidableEq, Repr

/-- A DATA flow to one destination (R426). -/
structure Flow where
  /-- Sequence number of the next frame (R426). -/
  nextSeq : Nat := 0
  /-- Sequence number expected from that position (R426). -/
  expect : Nat := 0
  /-- Frames sent and not acknowledged (R426). -/
  waiting : List (Nat × Bytes) := []
  /-- Contents not yet sent (R426). -/
  queued : List Bytes := []
  /-- Tick of the last sending or of the last ACK (R426). -/
  sentAt : Nat := 0
  deriving DecidableEq, Repr

/-- The Nestan link (chapter 17). -/
structure Cluster where
  /-- Cluster ID in force (R444). -/
  clusterId : Byte := 0
  /-- Priority in force (R444). -/
  priority : Byte := 0x80
  /-- Incoming hop length in force, 0.1 mm (R446). -/
  hopLength : Nat := 0
  /-- 0x4A00:01 (R446). -/
  clusterStored : Byte := 0
  /-- 0x4A00:02 (R446). -/
  priorityStored : Byte := 0x80
  /-- 0x4A00:03, 0.1 mm (R446). -/
  hopStored : Nat := 0
  /-- 0x4A00:04 (R446). -/
  state : ClState := .linkDown
  /-- 0x4A00:05 (R446). -/
  cause : Byte := 0
  /-- 0x4A00:06, ring size; 0 while the ring is open (R446). -/
  size : Nat := 0
  /-- Devices of the closed ring by ring position, this one included (R428). -/
  ring : List Member := []
  /-- What the last HELLO of each device said, by the hops from it to this device (R427). -/
  upstream : SMap Member := []
  /-- 0x4A00:07 (R446). -/
  position : Nat := 0xFE
  /-- 0x4A00:09, master serial (R446). -/
  master : Nat := 0
  /-- 0x4A00:0A (R446). -/
  offset : Int := 0
  /-- 0x4A00:0B (R446). -/
  hopDelay : Nat := 0
  /-- 0x4A00:0C, W (R446). -/
  wire : Nat := 0
  /-- 0x4A00:0D, ms (R446). -/
  lastCal : Nat := 0
  /-- 0x4A00:0E, ms (R446). -/
  barrierTimeout : Nat := 1000
  /-- 0x4A00:0F, µs (R446). -/
  releaseLead : Nat := 100
  /-- Barriers 16 to 31 by number (R438). -/
  barriers : SMap Barrier := []
  /-- 0x4A00:14, saturates (R446). -/
  received : Nat := 0
  /-- 0x4A00:15, saturates (R446). -/
  sent : Nat := 0
  /-- 0x4A00:16, saturates (R446). -/
  discarded : Nat := 0
  /-- 0x4A00:17, saturates (R446). -/
  resends : Nat := 0
  /-- Frames are received on the incoming hop (R422). -/
  linkUp : Bool := false
  /-- DATA flows by position (R426). -/
  flows : SMap Flow := []
  /-- Serials of destinations whose flow was discarded, as the owning services are told (R426). -/
  flowsEnded : List Nat := []
  /-- Frames that wait for the transmitter, oldest first (R425). -/
  tx : List TxFrame := []
  /-- Tick at which the frame in progress has left (R425). -/
  txUntil : Nat := 0
  /-- The last HEARTBEAT sent, its offset left out (R430). -/
  beatSent : Bytes := []
  /-- Incoming hop delay that the next SYNC brings into force (R435). -/
  hopNext : Option Nat := none
  /-- Values of W measured in the calibration under way (R435). -/
  calSums : List Nat := []
  /-- Serial and incoming hop length of every device, from the last CAL that returned (R435). -/
  calHops : List (Nat × Nat) := []
  /-- A calibration is under way (R435). -/
  calibrating : Bool := false
  /-- Flag bit 1 of the last SYNC (R433). -/
  flagFormed : Bool := false
  /-- Pending ARRIVE frames are sent again after the next SYNC (R441). -/
  resendArrive : Bool := false
  /-- Contents of DATA frames acknowledged into CH_17 and not yet taken (R426). -/
  inbox : List Bytes := []
  /-- Cluster time has been adopted (R434). -/
  adopted : Bool := false
  /-- SYNC sequence number (R433). -/
  syncSeq : Nat := 0
  /-- Tick of the last SYNC (R434). -/
  lastSync : Nat := 0
  /-- Consecutive SYNCs with an offset of at most 1 ns, up to 16 (R434). -/
  goodSyncs : Nat := 0
  /-- What is still to be added to the action time, step by step, 1/256 ns (R434). -/
  adjust : Int := 0
  /-- The offset lies beyond 1 ns and is slewed away (R434). -/
  slewing : Bool := false
  /-- Tick at which hold-over began (R442). -/
  holdSince : Nat := 0
  /-- SYNC flag bit 0 is clear (R432). -/
  timeBad : Bool := false
  /-- SYNC flag bit 2: device arm digests differ (R432). -/
  digestBad : Bool := false
  /-- Disagreements that hold, by kind of record 0xA002 and ring position (R432). -/
  disagreements : List (Nat × Nat) := []
  deriving DecidableEq, Repr

/-- One watchdog slot (R448 to R451). -/
structure Slot where
  /-- Slot state (R449). -/
  state : SlotState := .inactive
  /-- Owning partition (R464). -/
  owner : Byte := 0xFF
  /-- A valid check-in of this period (R448). -/
  good : Bool := false
  /-- An early or bad check-in of this period (R448). -/
  bad : Bool := false
  /-- An early check-in of this period (R452). -/
  early : Bool := false
  /-- Tick at which grace was entered (R449). -/
  graceAt : Nat := 0
  /-- Full periods ended in grace without a valid check-in (R449). -/
  periods : Nat := 0
  deriving DecidableEq, Repr

/-- The watchdog (chapter 18). -/
structure Watchdog where
  /-- The 16 slots (R449). -/
  slots : SMap Slot := []
  /-- 0x2800:02, ms (R464). -/
  periodStaged : Nat := 1000
  /-- Period in force, ms (R452). -/
  period : Nat := 1000
  /-- 0x2800:03 (R464). -/
  closedStaged : Byte := 0x01
  /-- Closed window in force (R452). -/
  closed : Byte := 0x01
  /-- 0x2800:04, 32 bits (R464). -/
  number : Nat := 0
  /-- Tick of the period's start (R452). -/
  startAt : Nat := 0
  /-- 0x2800:05, s (R464). -/
  escalation : Nat := 60
  /-- 0x2800:06 (R464). -/
  failedLast : BitVec 16 := 0
  /-- 0x2800:07, saturates (R464). -/
  restarts : Nat := 0
  /-- 0x2800:08, saturates (R464). -/
  islandEsc : Nat := 0
  /-- 0x2800:09, saturates (R464). -/
  chipEsc : Nat := 0
  /-- Tick of each partition's strike (R453). -/
  strikes : SMap Nat := []
  /-- Ticks of the island strikes (R453). -/
  islandStrikes : List Nat := []
  /-- 0x2800:0B (R464). -/
  lastEsc : Bytes := [0, 0, 0, 0]
  /-- Partitions stopped by an access fault since the last boundary (R453). -/
  stopped : List Nat := []
  deriving DecidableEq, Repr

/-- One conductor partition (R160, R164, Table 6.7). -/
structure Partition where
  /-- The running image holds it (R163). -/
  present : Bool := false
  /-- Its descriptor, 72 bytes (R161). -/
  desc : Bytes := []
  /-- Running (R164). -/
  running : Bool := false
  /-- Being restarted (R454). -/
  restarting : Bool := false
  /-- Being replaced (R488). -/
  replacing : Bool := false
  /-- Trace packets held, oldest first (R476). -/
  packets : List Bytes := []
  /-- 0x2A00:04, 64 bits (R482). -/
  written : Nat := 0
  /-- 0x2A00:08, saturates (R482). -/
  dropped : Nat := 0
  /-- Packets dropped since the last LOST packet (R480). -/
  lostRun : Nat := 0
  /-- CI cycle of the last packet (R478). -/
  lastCycle : Nat := 0
  /-- Packets of the present CI cycle in the trace unit (R480). -/
  inCycle : Nat := 0
  /-- Packets since the last SYNC (R478). -/
  sinceSync : Nat := 0
  /-- Entry point (R161). -/
  entry : Nat := 0
  deriving DecidableEq, Repr

/-- The CI cores as debug sees them, partitions and trace (chapters 6 and 19). -/
structure Conductor where
  /-- General registers x1 to x31 (R168). -/
  regs : List Word32 := List.replicate 31 0
  /-- Program counter (R168). -/
  pc : Word32 := 0
  /-- Halted by debug (R170). -/
  halted : Bool := false
  /-- TCSRAM bytes by offset (R19). -/
  tcsram : SMap Byte := []
  /-- Partitions 0 to 7 (R160). -/
  partitions : SMap Partition := []
  /-- 0x2A00:07 (R482). -/
  traceEnable : Byte := 0x0D
  deriving DecidableEq, Repr

/-- A stored value (R523). -/
structure Stored where
  /-- Index (R523). -/
  index : Nat := 0
  /-- Sub-index (R523). -/
  sub : Nat := 0
  /-- Selectors that reach it: 256 × index + sub-index, and value (R523). -/
  sels : List (Nat × Nat) := []
  /-- Value (R523). -/
  value : Bytes := []
  deriving DecidableEq, Repr

/-- The boot chain and flash (chapter 6, Table 6.11). -/
structure Boot where
  /-- 0x2500:01 (R171). -/
  running : Byte := 0xFF
  /-- 0x2500:02 (R171). -/
  preferred : Byte := 0
  /-- 0x2500:03 (R171). -/
  statusA : Word16 := 0xFFFF
  /-- 0x2500:04 (R171). -/
  statusB : Word16 := 0xFFFF
  /-- 0x2500:05 (R171). -/
  statusR : Word16 := 0xFFFF
  /-- 0x2500:06 (R171). -/
  version : Byte := 0
  /-- 0x2500:09, µs (R171). -/
  bootUs : Nat := 0
  /-- Firmware digest, 32 bytes (R430). -/
  digest : Bytes := []
  /-- Flash bytes by offset (R160). -/
  flash : SMap Byte := []
  /-- 0x2B00:02 (R464). -/
  freeBlocks : Nat := 192
  /-- 0x2B00:03 (R464). -/
  highestErase : Nat := 0
  /-- Pages of user flash marked bad, by number (R458). -/
  badPages : List Nat := []
  /-- The committed store (R123). -/
  store : List Stored := []
  /-- A restore of the defaults of 0x1000 to 0x1FFF is pending (R123). -/
  restoreComm : Bool := false
  /-- A restore of the defaults of 0x2000 to 0x5FFF is pending (R123). -/
  restoreDev : Bool := false
  /-- A store in progress, with the values it stores (R123). -/
  storing : Option (StoreRange × List Stored × Waiter) := none
  /-- Firmware key slot that signed the running image (R167). -/
  signer : Option Nat := none
  deriving DecidableEq, Repr

/-- Fuses and life cycle (chapter 6). -/
structure LifeState where
  /-- The 256 fuse words (R145). -/
  fuses : SMap Word32 := []
  /-- Words that read differently in the margin read (R146). -/
  marginal : List Nat := []
  /-- 0x2400:01 (R156). -/
  state : LifeCycle := .wafer
  /-- 0x2400:02, three valid copies as the decode before time 0 finds them (R156, R171). -/
  copies : Byte := 0x07
  /-- 0x2400:03 (R157). -/
  pending : Option Byte := none
  /-- 0x2400:06 (R171). -/
  fault : Word16 := 0
  /-- 0x2400:07, s (R171). -/
  lastSkim : Nat := 0
  /-- 0x2400:08 (R171). -/
  marginals : Nat := 0
  /-- 0x2400:0C (R171). -/
  trimDefaults : BitVec 48 := 0
  /-- Outstanding transition nonce (R152). -/
  nonce : Option Bytes := none
  /-- Tick of its read (R152). -/
  nonceAt : Nat := 0
  /-- 0x2400:0D (R168). -/
  debug : DebugSt := .inactive
  /-- Debug challenge (R169). -/
  challenge : Bytes := []
  /-- Authorisation words received, by address (R169). -/
  authWords : SMap Word32 := []
  /-- The debug port's last response (R168). -/
  debugOut : Bytes := []
  /-- DEBUG_EN asserted (R168). -/
  debugOn : Bool := false
  /-- The recovery image runs (R158). -/
  recovering : Bool := false
  /-- Bits of the intent word that read marginal (R150). -/
  intentMarginal : Word32 := 0
  deriving DecidableEq, Repr

/-- One owner (R173, R174). -/
structure Owner where
  /-- Active (R173). -/
  active : Bool := false
  /-- Name (R207). -/
  name : Bytes := List.replicate 16 0
  /-- Slot quota (R207). -/
  quota : Nat := 0
  /-- Custodian keys by index (R174). -/
  keys : SMap Bytes := []
  deriving DecidableEq, Repr

/-- A copy of the owner table and custodian registry in the data area of flash (R196). -/
structure RegCopy where
  /-- What it was written from (R196). -/
  owners : SMap Owner := []
  /-- Its bytes in flash (R196). -/
  bytes : Bytes := []
  deriving DecidableEq, Repr

/-- One occupied key slot (R175, R176). -/
structure Key where
  /-- Owner (R175). -/
  owner : Nat := 0
  /-- Key type (R175). -/
  type : Byte := 0
  /-- Flags (R175). -/
  flags : Byte := 0
  /-- Expiry action (R177). -/
  action : Byte := 0
  /-- Usage (R175). -/
  usage : Word16 := 0
  /-- Use-count limit, 0 none (R176). -/
  limit : Nat := 0
  /-- Uses (R176). -/
  uses : Nat := 0
  /-- Stored use reservation (R194). -/
  reserved : Nat := 0
  /-- Expiry on the AO monotonic clock, µs (R177). -/
  expiry : Option Nat := none
  /-- Expired (R177). -/
  disabled : Bool := false
  /-- Destroy when no armed sequencer refers to it (R177). -/
  destroyAtDisarm : Bool := false
  /-- Key material (R175). -/
  material : Bytes := []
  /-- X ‖ Y of an EC key (R207). -/
  pub : Bytes := []
  /-- Damaged (R195). -/
  damaged : Bool := false
  /-- Blob generation (R193). -/
  generation : Nat := 0
  deriving DecidableEq, Repr

/-- The secure island's stores and the intrusion monitor (chapter 7). -/
structure Keys where
  /-- Root key in the AO (R172). -/
  rootKey : Bytes := List.replicate 32 0
  /-- The root key matches its stored check value (R67). -/
  rootOk : Bool := true
  /-- The root key is marked lost (R67). -/
  rootLost : Bool := false
  /-- 4096 key slots (R175). -/
  slots : SMap Key := []
  /-- The 96-byte storage blobs in the data area of flash, by slot (R193). -/
  blobs : SMap Bytes := []
  /-- 64 owners (R173). -/
  owners : SMap Owner := []
  /-- A registry copy matches the committed digest (R196). -/
  registryOk : Bool := true
  /-- 0x4500:01 (R207). -/
  arm : ArmState := .armed
  /-- 0x4500:02 (R207). -/
  cause : Word16 := 0
  /-- 0x4500:03 (R207). -/
  loops : Byte := 0x0F
  /-- 0x4500:04 (R207). -/
  period : Byte := 0x01
  /-- 0x4500:05 (R207). -/
  response : Word16 := 0x000F
  /-- 0x4500:06 (R207). -/
  mismatches : Byte := 0
  /-- Μs of the last mismatched bit of each loop (R198). -/
  lastMismatch : SMap Nat := []
  /-- 0x4500:07 (R207). -/
  intrusions : Nat := 0
  /-- The entries of the nonce reserve, 16 bytes each, whose number 0x4500:08 shows (R203, R205). -/
  reserve : List Bytes := []
  /-- 0x4500:09 (R207). -/
  rearms : Nat := 0
  /-- 0x4500:0A (R207). -/
  zeroNs : Nat := 0
  /-- Re-arm registers (R204). -/
  rearmBuf : Bytes := List.replicate 512 0
  /-- Re-arm result (R204). -/
  rearmResult : Word32 := 0
  /-- Re-arm nonce, valid until DBG_EN_N is deasserted (R204). -/
  rearmNonce : Bytes := List.replicate 16 0
  /-- A re-arm nonce is outstanding (R204). -/
  rearmOpen : Bool := false
  /-- Seeds of the four mesh LFSRs (R198). -/
  seeds : Bytes := List.replicate 16 0
  /-- The two alternating copies of owner table and registry (R196). -/
  regCopies : List RegCopy := [{}, {}]
  /-- The copy that the next commit writes (R196). -/
  regNext : Nat := 0
  /-- SHA-256 of the committed copy, in the AO array; none before the first commit (R196). -/
  regDigest : Option Bytes := none
  /-- The four mesh LFSRs (R198). -/
  mesh : List (BitVec 31) := [0, 0, 0, 0]
  deriving DecidableEq, Repr

/-- One entry of a job queue (R213 to R217). -/
structure JobEntry where
  /-- Acceptance number, by which engines and slots name it (R215). -/
  uid : Nat := 0
  /-- Job ID (R211). -/
  id : Nat := 0
  /-- Opcode; 0xF0 and 0xF1 for an injector's job of recipe kind 0x01 and 0x02 (R211). -/
  opcode : Nat := 0
  /-- Flags (R211). -/
  flags : Byte := 0
  /-- Key slot (R211). -/
  slot : Nat := 0xFFFF
  /-- Input offset (R211). -/
  inOff : Nat := 0
  /-- Output offset (R211). -/
  outOff : Nat := 0
  /-- Parameter block (R211). -/
  params : Bytes := []
  /-- Inline input, or the input read from DRAM at the start (R211). -/
  input : Bytes := []
  /-- Input length (R211). -/
  inLen : Nat := 0
  /-- The key as it was at acceptance (R214). -/
  key : Key := {}
  /-- Where the job stands (R215). -/
  phase : JobPhase := .queued
  /-- Blocks done at the last boundary (R219). -/
  done : Nat := 0
  /-- Blocks done at the last resume (R219). -/
  resumedAt : Nat := 0
  /-- Tick of the first dispatch (R216). -/
  startAt : Option Nat := none
  /-- Flag bit 0 of the record (R219). -/
  preempted : Bool := false
  /-- Site of an injector job (R319). -/
  site : Nat := 0
  /-- Its session has ended, and its record is discarded (R217). -/
  orphan : Bool := false
  /-- Epoch whose acknowledgement releases the record, 0 none (R189, R214). -/
  ackEpoch : Nat := 0
  /-- Digest of the hash phase (R215). -/
  digest : Bytes := []
  /-- Signature that waits for its verdict (R222). -/
  signature : Bytes := []
  /-- Completion record (R216). -/
  record : Bytes := []
  /-- Result code of a job whose output is on its way to DRAM (R212, R216). -/
  code : Nat := 0
  /-- Inline output of such a job (R216). -/
  inline : Bytes := []
  /-- Its input has been requested from DRAM over CH_15 and has not all returned (R211). -/
  inputDue : Bool := false
  /-- Estimated remaining time at its last yield on the VI, µs (R223). -/
  remaining : Nat := 0
  deriving DecidableEq, Repr

/-- One job queue (R213). -/
structure Queue where
  /-- Priority plus one, 0 for the default (R230). -/
  priority : Nat := 0
  /-- Up to 8 entries, oldest first (R213). -/
  entries : List JobEntry := []
  /-- Next completion sequence number, 32 bits (R216). -/
  nextSeq : Nat := 0
  /-- Job IDs and records of jobs an SI reset ended (R218). -/
  resets : List (Nat × Bytes) := []
  deriving DecidableEq, Repr

/-- Engines, queues, entropy, VI and SAU (chapter 8). -/
structure Crypto where
  /-- The 64 queues (R213). -/
  queues : SMap Queue := []
  /-- The job each engine runs: AES 0 to 3, SHA 4 and 5, DRBG 6, SAU 7, VI 8 (R215). -/
  running : SMap Nat := []
  /-- The queue last served at each priority (R215). -/
  pointers : SMap Nat := []
  /-- The suspended job in each context slot (R219). -/
  contexts : SMap Nat := []
  /-- Next acceptance number (R215). -/
  nextUid : Nat := 1
  /-- 0x4000:02 (R230). -/
  sauFault : Bool := false
  /-- 0x4000:03, 32 bits, saturates (R230). -/
  released : Nat := 0
  /-- 0x4000:04, 32 bits, saturates (R230). -/
  withheld : Nat := 0
  /-- 0x4000:05 (R230). -/
  entropy : Entropy := .startUp
  /-- Tick of the last start-up test (R226). -/
  entropyAt : Nat := 0
  /-- Consecutive failing blocks (R226). -/
  badBlocks : Nat := 0
  /-- 0x4000:06, 32 bits, saturates (R230). -/
  repetition : Nat := 0
  /-- 0x4000:07, 32 bits, saturates (R230). -/
  proportion : Nat := 0
  /-- The DRBG is seeded (R227). -/
  drbgUp : Bool := false
  /-- 0x4000:08, 32 bits, saturates (R230). -/
  reseeds : Nat := 0
  /-- 0x4000:09 (R230). -/
  drbgRequests : Nat := 0
  /-- Tick of the last reseed (R227). -/
  drbgAt : Nat := 0
  /-- 0x4000:0A (R230). -/
  selfTest : Word16 := 0
  /-- 0x4000:0C, 32 bits, saturates (R230). -/
  preemptions : Nat := 0
  /-- 0x4000:0D, 32 bits, saturates (R230). -/
  declined : Nat := 0
  /-- The signing job whose release check waits for the VI, and the tick of its request (R222). -/
  checkWaits : Option (Nat × Nat) := none
  /-- The signing job whose release check the VI runs (R222). -/
  checking : Option Nat := none
  /-- Suspended VI jobs, in the order suspended (R223). -/
  viSuspended : List Nat := []
  /-- 0x4600:01, 32 bits, saturates (R230). -/
  verified : Nat := 0
  /-- 0x4600:02, 32 bits, saturates (R230). -/
  notVerified : Nat := 0
  /-- 0x4600:03, 32 bits, saturates (R230). -/
  checks : Nat := 0
  /-- 0x4600:04, 32 bits, saturates (R230). -/
  yields : Nat := 0
  /-- 0x4600:06, µs, 32 bits (R230). -/
  longestWait : Nat := 0
  /-- 0x4600:07, µs, 16 bits (R230). -/
  lastP256 : Nat := 0
  /-- Key of the CTR_DRBG (R227). -/
  drbgKey : Bytes := []
  /-- V of the CTR_DRBG (R227). -/
  drbgV : Bytes := []
  deriving DecidableEq, Repr

/-- A record on its way to the AO (R466, R468). -/
structure RecordIn where
  /-- Event code (R466). -/
  code : Nat := 0
  /-- Source island ID (R466). -/
  island : Nat := 0
  /-- Unit within the island (R466). -/
  unit : Nat := 0
  /-- Island that sends it; 1: the AO itself, outside CH_16 (R468). -/
  producer : Nat := 1
  /-- Lost count (R469). -/
  lost : Nat := 0
  /-- Detail, bytes 29:18 (R466). -/
  payload : Bytes := []
  deriving DecidableEq, Repr

/-- What stands before the record array, and the counters of chapter 19. -/
structure Recorder where
  /-- Records in CH_16 (up to 32) and the AO's own, in the order of acceptance (R468). -/
  queue : List RecordIn := []
  /-- Records a producer holds for a full CH_16, up to 4 each (R22). -/
  held : SMap (List RecordIn) := []
  /-- Records a producer has counted since its last accepted one (R469). -/
  lostRun : SMap Nat := []
  /-- 0x2900:08, saturates (R469). -/
  lost : Nat := 0
  /-- 0x2900:09, categories 1 to 6 (R471). -/
  counters : SMap Nat := []
  /-- Μs of the last summary of each category (R471). -/
  lastSummary : SMap Nat := []
  /-- 0x2900:0A (R482). -/
  lastReset : Nat := 0xFFFFFFFF
  /-- Ms of the last rate-limited activity record, by activity and kind (R459). -/
  marksMs : SMap Nat := []
  /-- Activity entries counted and not recorded (R459). -/
  uncounted : SMap Nat := []
  deriving DecidableEq, Repr

/-- A re-seat under way (R483, R484). -/
structure ReseatRun where
  /-- Island (R483). -/
  island : Nat := 0
  /-- Unit, 0xFF the whole island (R483). -/
  unit : Nat := 0xFF
  /-- Requested by the host (R483). -/
  host : Bool := false
  /-- Step it is in (R484). -/
  phase : ReseatSt := .draining
  /-- Tick of its acceptance (R484). -/
  startAt : Nat := 0
  /-- Tick of the entry to resetting (R484). -/
  resetAt : Nat := 0
  /-- It ended in failure: the unit stays out of service (R485). -/
  failed : Bool := false
  deriving DecidableEq, Repr

/-- Re-seats and partition replacement (chapter 20). -/
structure Reseat where
  /-- 0x2020:02 (R509). -/
  status : ReseatSt := .none
  /-- 0x2020:03 (R509). -/
  last : Bytes := [0, 0, 0, 0, 0, 0]
  /-- 0x2020:04, 32 bits, saturates (R509). -/
  count : Nat := 0
  /-- 0x2020:05, ms, 16 bits (R509). -/
  drainMs : Nat := 100
  /-- Re-seats under way; failed ones with what they left out of service, unit 0xFF for a whole island that a fault stopped (R483). -/
  runs : List ReseatRun := []
  /-- 0x2020:07, 16 bits (R509). -/
  replacement : Nat := 0
  /-- The partition being replaced (R488). -/
  replacing : Option Nat := none
  /-- The accepted image whose changed blocks are being programmed (R488). -/
  image : Bytes := []
  deriving DecidableEq, Repr

/-- An answer that waits for an epoch's acknowledgement (R502). -/
structure EpochWait where
  /-- Whom it goes to (R502). -/
  dest : Target
  /-- Its result code (R502). -/
  code : Nat := 0
  /-- Its result data (R188). -/
  data : Bytes := []
  deriving DecidableEq, Repr

/-- An epoch of replicated changes (R497). -/
structure Epoch where
  /-- Number, 64 bits (R498). -/
  number : Nat := 0
  /-- Journal entries, in order (R497). -/
  entries : List Bytes := []
  /-- It holds a key-state change (R498). -/
  keyChange : Bool := false
  /-- Tick of its first entry (R498). -/
  firstAt : Nat := 0
  /-- Answers that wait for its acknowledgement (R502). -/
  waiters : List EpochWait := []
  /-- Tick of the COMMIT (R503). -/
  sentAt : Nat := 0
  deriving DecidableEq, Repr

/-- Pairing and replication (chapter 20). -/
structure Pair where
  /-- 0x4B00:01 (R509). -/
  state : PairSt := .unpaired
  /-- 0x4B00:02 (R509). -/
  publicKey : Bytes := List.replicate 64 0
  /-- Pair private key (R491). -/
  privateKey : Bytes := []
  /-- Own request while pairing (R492). -/
  request : Option PairReq := none
  /-- The device's role in the pair is active (R492). -/
  asActive : Bool := false
  /-- Content of the partner's last PAIR-STATE (R493). -/
  partnerState : Bytes := []
  /-- 0x4B00:05 (R509). -/
  partner : Word32 := 0
  /-- 0x4B00:06 (R509). -/
  node : Byte := 0
  /-- 0x4B00:07 (R509). -/
  generation : Nat := 0
  /-- 0x4B00:08 (R509). -/
  committed : Nat := 0
  /-- The epoch that waits for its acknowledgement (R502). -/
  awaiting : Option Epoch := none
  /-- The open epoch (R497). -/
  open_ : Epoch := {}
  /-- Ciphertext received of the partial epoch (R500). -/
  receiving : Bytes := []
  /-- Number of the partial epoch (R500). -/
  receivingEpoch : Nat := 0
  /-- Pair encryption key (R493). -/
  encKey : Bytes := []
  /-- Pair MAC key (R493). -/
  macKey : Bytes := []
  /-- 0x4B00:0A (R509). -/
  solo : Byte := 0
  /-- 0x4B00:0B (R509). -/
  takeover : Byte := 1
  /-- 0x4B00:0C (R509). -/
  takeoverMs : Nat := 30
  /-- 0x4B00:0D (R509). -/
  ackMs : Nat := 20
  /-- 0x4B00:10, saturates (R509). -/
  epochs : Nat := 0
  /-- 0x4B00:11, saturates (R509). -/
  discarded : Nat := 0
  /-- 0x4B00:12, µs (R509). -/
  longest : Nat := 0
  /-- 0x4B00:13 (R509). -/
  takeovers : Nat := 0
  /-- Tick of the last PAIR-STATE of the partner (R504). -/
  lastState : Nat := 0
  /-- The partner's pair public key (R492). -/
  partnerKey : Bytes := []
  /-- Entries of the synchronisation that are not yet acknowledged (R495). -/
  syncLeft : Nat := 0
  /-- Content of the last PAIR-STATE sent (R500). -/
  stateSent : Bytes := []
  deriving DecidableEq, Repr

/-- One background activity (Table 18.2). -/
structure Activity where
  /-- State (R464). -/
  state : ActState := .idle
  /-- Progress, 1/65,536 of a sweep (R464). -/
  progress : Nat := 0
  /-- Last completion, ms (R464). -/
  lastMs : Nat := 0
  /-- Completions (R464). -/
  completions : Nat := 0
  deriving DecidableEq, Repr

/-- Background activities and telemetry (chapter 18). -/
structure Background where
  /-- Activities 0 to 7 (R464). -/
  activities : SMap Activity := []
  /-- 0x2300 temperatures, 0.1 °C (R464). -/
  temps : List Int := [0, 0, 0, 0, 0]
  /-- The temperature warning holds (R521). -/
  warning : Bool := false
  /-- Words that the SRAM scrub has swept, by island (R457). -/
  sramSweep : SMap Nat := []
  /-- 0x2300:08 (R464). -/
  rails : List Word16 := []
  /-- 0x2300:09 (R464). -/
  rates : List Word32 := []
  /-- 0x2300:0A (R464). -/
  peaks : Bytes := []
  deriving DecidableEq, Repr

/-- A pending apply of a frequency word (R304). -/
structure NcoApply where
  /-- The latched word (R304). -/
  word : Word32 := 0
  /-- The marker it waits for (R304). -/
  marker : Option Nat := none
  /-- Earliest beginning of its frame, action time in 1/25,600 ns (R304). -/
  due : Nat := 0
  deriving DecidableEq, Repr

/-- One sample port with its NCO (R291 to R304). -/
structure Port where
  /-- 0x3600:02 (R314). -/
  enable : Byte := 0x00
  /-- 0x3600:03 (R314). -/
  seq : Byte := 0xFF
  /-- 0x3600:04, D_h, 16 bits (R314). -/
  divider : Nat := 5
  /-- 0x3600:05 (R314). -/
  format : Byte := 0x00
  /-- 0x3600:06 (R314). -/
  source : Byte := 0x00
  /-- 0x3600:07 (R314). -/
  channel : Byte := 0x00
  /-- 0x3600:08 (R314). -/
  idle : Int := 0
  /-- 0x3600:09 (R314). -/
  interp : Byte := 0x01
  /-- 0x3600:0A, 16 bits (R314). -/
  delay : Nat := 0
  /-- 0x3600:10 (R314). -/
  staged : Word32 := 0
  /-- 0x3600:12 (R314). -/
  phase : Word32 := 0
  /-- 0x3600:14, 16 bits (R314). -/
  amplitude : Nat := 512
  /-- 0x3600:15 (R314). -/
  offset : Int := 0
  /-- 0x3600:16, the word in force (R314). -/
  word : Word32 := 0
  /-- Amplitude in force (R303). -/
  amplitudeIn : Nat := 512
  /-- Offset in force (R303). -/
  offsetIn : Int := 0
  /-- Amplitudes written and not yet in force, oldest first: earliest frame, action time in 1/25,600 ns, and value (R303). -/
  amplitudeDue : List (Nat × Nat) := []
  /-- Offsets written and not yet in force (R303). -/
  offsetDue : List (Nat × Int) := []
  /-- The pending apply (R304). -/
  apply : Option NcoApply := none
  /-- Pending phase resets, oldest first: earliest frames, action time in 1/25,600 ns (R304). -/
  resets : List Nat := []
  /-- Accumulator of the next frame, 32 bits (R302). -/
  acc : Nat := 0
  /-- Frames run: status 0x02 of 0x3600:17 (R314). -/
  sending : Bool := false
  /-- 0x3600:18, Hz, 32 bits (R314). -/
  rate : Nat := 0
  /-- 0x3600:19, 32 bits (R314). -/
  ratio : Nat := 0
  /-- 0x3600:1A, 64 bits (R314). -/
  sent : Nat := 0
  /-- The last in-sample (R350). -/
  last : Int := 0
  /-- The value sent in the last frame (R299). -/
  out : Int := 0
  deriving DecidableEq, Repr

/-- The segment memory, descriptors and lanes' shared timing (chapters 9, 10 and 11). -/
structure Segs where
  /-- 16,384 descriptors (R268). -/
  descs : SMap Desc := []
  /-- Exchanges that wait for their segment to be inactive (R242). -/
  exchanges : List (Nat × Nat) := []
  /-- A tracking pass runs (R284). -/
  tracking : Bool := false
  /-- Tick at which the last tracking pass started (R284). -/
  trackAt : Nat := 0
  /-- Tick at which the last tracking pass completed (R286). -/
  trackDone : Option Nat := none
  /-- TI temperature at the last reading, 0.1 °C (R285). -/
  tiTemp : Int := 0
  /-- TI temperature at the last pass, 0.1 °C (R285). -/
  trackTemp : Int := 0
  /-- The 16 sample ports (R291). -/
  ports : SMap Port := []
  /-- TI temperature at the start of the last pass that completed, 0.1 °C (R286). -/
  trackDoneTemp : Int := 0
  /-- What the last pass measured of the replica line of each group of eight lanes, ps per 4,000 ps; empty before the first (R284). -/
  replicas : List Nat := []
  deriving DecidableEq, Repr

/-- What the device sends to the outside. The model keeps it as a list, since the spec's answers,
messages and frames leave the chip and nothing in it reads them again. -/
inductive Output where
  /-- The answer to a host write: result code, result data and, for busy, the retry delay in ms (R31). Over CAN it is the
  success that ends a USDO transfer; a refusal is a `usdoAbort` (R139). -/
  | answer (dest : Target) (code : Word16) (data : Bytes) (delayMs : Nat)
  /-- The answer to a host read (R31); over CAN the data of a success (R139). -/
  | readAnswer (path : Path) (index sub : Nat) (code : Word16) (data : Bytes)
  /-- A CANopen message on a bus: format (R105), COB-ID and data. -/
  | can (bus : Bus) (format : CanFormat) (cobId : Nat) (data : Bytes)
  /-- A USDO abort to a client, with its abort code (R139, R140). -/
  | usdoAbort (bus : Bus) (client : Nat) (code : Word32)
  /-- Bytes shifted out of the SPI port after the dummy byte, on four lanes or on one (R111). -/
  | spi (quad : Bool) (data : Bytes)
  /-- A Nestan frame. -/
  | nestan (frame : Bytes)
  /-- A debug response frame. -/
  | debug (data : Bytes)
  deriving DecidableEq, Repr

/-- Everything the spec gives the device but the recorder's write-once array: one field per group of state. -/
structure Chip where
  /-- Host island (R105). -/
  host : HostServices := {}
  /-- Supplies, resets, start-up (R61). -/
  power : Power := {}
  /-- Reference and action time (R81). -/
  clk : Clocks := {}
  /-- PLL_0 and PLL_1 (R86). -/
  plls : List Pll := [({} : Pll), ({} : Pll)]
  /-- Clock outputs 0 to 5 (R90). -/
  clkos : SMap Clko := []
  /-- Lanes 0 to 63 (R47). -/
  lanes : SMap Lane := []
  /-- Sequencers 0 to 15 (R231). -/
  seqs : SMap Seq := []
  /-- Segment memory and descriptors (R231). -/
  segs : Segs := {}
  /-- Injector (R315). -/
  sealed_ : Sealed := {}
  /-- Acquisition (R337). -/
  acq : Acq := {}
  /-- DRAM controller (R360). -/
  dram : Dram := {}
  /-- Level outputs (R392). -/
  levels : Levels := {}
  /-- Event router (R409). -/
  router : Router := {}
  /-- Nestan link (R420). -/
  cluster : Cluster := {}
  /-- Watchdog (R447). -/
  watchdog : Watchdog := {}
  /-- Conductor, partitions, trace (R160). -/
  ci : Conductor := {}
  /-- Boot chain and flash (R160). -/
  boot : Boot := {}
  /-- Fuses and life cycle (R145). -/
  life : LifeState := {}
  /-- Keys, owners, intrusion monitor (R172). -/
  keys : Keys := {}
  /-- Engines and job queues (R208). -/
  crypto : Crypto := {}
  /-- Recorder input and counters (R465). -/
  recorder : Recorder := {}
  /-- Re-seat in progress (R483). -/
  reseat : Reseat := {}
  /-- Pairing and replication (R491). -/
  pair : Pair := {}
  /-- Background activities and telemetry (R457). -/
  background : Background := {}
  /-- State of each island, by ID (R33). -/
  islands : List IslandState := List.replicate 11 .resetting |> (List.set · 1 .running)
  /-- MODEL: what the device has sent, newest first (log 5). -/
  out : List Output := []
  /-- MODEL: how many free values have been drawn (log 4). -/
  free : Nat := 0
  deriving DecidableEq, Repr

/-- The recorder's write-once array (R465, R468). -/
structure RecArray where
  /-- The slots that hold a record of 32 bytes (R465). -/
  slots : SMap Bytes := []
  /-- Void slots (R468). -/
  voids : List Nat := []
  /-- First unprogrammed slot; 65,472 and above are protected (R468). -/
  next : Nat := 0
  /-- The recorder-full record is written (R470). -/
  fullSaid : Bool := false
  /-- 0x2900:06, saturates (R470). -/
  notWritten : Nat := 0
  deriving DecidableEq, Repr

/-- The whole state: the device, its write-once record array, and the commands that wait. -/
structure State where
  /-- The device. -/
  chip : Chip := {}
  /-- The recorder's array (R465). -/
  array : RecArray := {}
  /-- MODEL: commands that wait, first in, first out. -/
  pending : List Instr := []
  deriving DecidableEq, Repr

/-- Why the machine stops with a fault. Every command of the table has its effect in the model, so no
step raises one; the constructor stands for the host's interface. -/
inductive Fault where
  /-- Raised by no step (safe: a stop proves nothing of the device). -/
  | stopped
  deriving DecidableEq, Repr

/-- Why the machine has no meaning for a command. -/
inductive Refusal where
  /-- A command that has no meaning yet, by its mnemonic; raised by an arm of `exec` only (safe). -/
  | notModelled (mnemonic : String)
  deriving DecidableEq, Repr

/-- The records the AO writes at the first start-up (R79, R56): the chip reset with cause internal
power-on, the strap record of node-ID 0, which open straps
give, and the record of an empty nonce reserve (R198). -/
def resetRecords : List RecordIn :=
  [{ code := 0x1001, island := 1, payload := [0x02, 0, 0xC0, 1, 0xFF, 0xFF, 0xFF, 0xFF, 0xFF, 0xFF, 1, 0] },
   { code := 0x1002, island := 1, payload := List.replicate 12 0 },
   { code := 0x1010, island := 1, payload := List.replicate 12 0 }]

/-- The device at time 0 of a start-up after an internal power-on, the AO core kept, with its fuses unblown
(state Wafer), its key store, flash and recorder empty and no command waiting; the AO's first records
stand before the recorder. (DESIGN CHOICE, log 3, log 8.) -/
def State.reset : State := { chip := { recorder := { queue := resetRecords } } }

end Sys2Proof.Machine
end

