-- ==== Sys2Proof/Machine/Ops.lean ====
section
/-! DEFINITION. The operations every command is written from: sparse collections, byte order, CRC, time,
the recorder's input (R22, R468, R469), the rate-limited categories (R471), EMCY conditions (R141,
R142), island states (R33), and the answers to host requests (R31 steps 7 and 8, R114, R128). -/

namespace Sys2Proof.Machine

/-! ## Sparse collections -/

/-- The value at a key; `d` where the key is absent. -/
def SMap.get {α : Type} : SMap α → α → Nat → α
  | [], d, _ => d
  | (k', v) :: m, d, k => if k = k' then v else SMap.get m d k

/-- The value at a key, if it is present. -/
def SMap.find? {α : Type} : SMap α → Nat → Option α
  | [], _ => none
  | (k', v) :: m, k => if k = k' then some v else SMap.find? m k

/-- Store a value at a key. -/
def SMap.put {α : Type} : SMap α → Nat → α → SMap α
  | [], k, v => [(k, v)]
  | (k', v') :: m, k, v =>
    if k < k' then (k, v) :: (k', v') :: m
    else if k = k' then (k, v) :: m
    else (k', v') :: SMap.put m k v

/-- Remove a key. -/
def SMap.erase {α : Type} : SMap α → Nat → SMap α
  | [], _ => []
  | (k', v') :: m, k => if k = k' then SMap.erase m k else (k', v') :: SMap.erase m k

/-- Store a value at a key of a collection whose absent keys read as `d`: storing `d` removes the key. -/
def SMap.set {α : Type} [DecidableEq α] (m : SMap α) (d : α) (k : Nat) (v : α) : SMap α :=
  if v = d then SMap.erase m k else SMap.put m k v

/-- Change the value at a key. -/
def SMap.upd {α : Type} [DecidableEq α] (m : SMap α) (d : α) (k : Nat) (f : α → α) : SMap α :=
  SMap.set m d k (f (SMap.get m d k))

/-- The canonical form: keys strictly rising. -/
def SMap.sorted {α : Type} : SMap α → Bool
  | [] => true
  | [_] => true
  | (k, _) :: (k', v) :: m => decide (k < k') && SMap.sorted ((k', v) :: m)

/-- Store bytes at consecutive keys. -/
def SMap.write (d : Byte) : SMap Byte → Nat → Bytes → SMap Byte
  | m, _, [] => m
  | m, a, b :: bs => SMap.write d (SMap.set m d a b) (a + 1) bs

/-- The bytes at `n` consecutive keys. -/
def SMap.read (d : Byte) (m : SMap Byte) (a n : Nat) : Bytes :=
  (List.range n).map fun i => m.get d (a + i)

/-! ## Bytes -/

/-- `n` bytes of a number, least significant first (R7). -/
def le : Nat → Nat → Bytes
  | 0, _ => []
  | n + 1, v => BitVec.ofNat 8 v :: le n (v / 256)

/-- The number whose bytes, least significant first, these are (R7). -/
def leNat : Bytes → Nat
  | [] => 0
  | b :: bs => b.toNat + 256 * leNat bs

/-- `n` bytes of a number, most significant first (R8). -/
def be (n v : Nat) : Bytes := (le n v).reverse

/-- The number whose bytes, most significant first, these are (R8). -/
def beNat (b : Bytes) : Nat := leNat b.reverse

/-- `n` bytes from offset `i`. -/
def slice (b : Bytes) (i n : Nat) : Bytes := (b.drop i).take n

/-- Byte `i` as a number, 0 past the end. -/
def byteAt (b : Bytes) (i : Nat) : Nat := (b.getD i 0).toNat

/-- The `n`-byte little-endian field at offset `i`. -/
def fieldAt (b : Bytes) (i n : Nat) : Nat := leNat (slice b i n)

/-- Exactly `n` bytes: cut, or padded with zeros. -/
def pad (n : Nat) (b : Bytes) : Bytes := b.take n ++ List.replicate (n - b.length) 0

/-- Bytes combined bit by bit with exclusive or. -/
def xorBytes : Bytes → Bytes → Bytes
  | a :: as, b :: bs => (a ^^^ b) :: xorBytes as bs
  | _, _ => []

/-- A signed number in `w` bits. -/
def signed (w v : Nat) : Int := if v < 2 ^ (w - 1) then v else (v : Int) - 2 ^ w

/-- The two's complement of a signed number in `w` bits. -/
def unsigned (w : Nat) (v : Int) : Nat := (v % (2 ^ w : Int)).toNat

/-- A counter of `w` bits that saturates. -/
def satAdd (w a b : Nat) : Nat := min (a + b) (2 ^ w - 1)

/-- A number held between two limits. -/
def clamp (lo hi n : Nat) : Nat := max lo (min hi n)

/-- The quotient rounded up. -/
def ceilDiv (a b : Nat) : Nat := if b = 0 then 0 else (a + b - 1) / b

/-- One bit shifted through the CRC-16/CCITT register. -/
def crc16Bit (c : Nat) : Nat := if c ≥ 0x8000 then ((c * 2) ^^^ 0x11021) % 0x10000 else c * 2

/-- One byte shifted through the CRC-16/CCITT register. -/
def crc16Byte (c : Nat) (b : Byte) : Nat :=
  crc16Bit (crc16Bit (crc16Bit (crc16Bit (crc16Bit (crc16Bit (crc16Bit (crc16Bit (c ^^^ (b.toNat * 256)))))))))

/-- CRC-16/CCITT: polynomial 0x1021, initial value 0xFFFF, no reflection, no final XOR (R113). -/
def crc16 (b : Bytes) : Nat := b.foldl crc16Byte 0xFFFF

/-! ## Updates of one group of state -/

/-- The device with its `host` changed by `f`. -/
def Chip.modHost (f : HostServices → HostServices) (s : Chip) : Chip := { s with host := f s.host }

/-- The device with its `power` changed by `f`. -/
def Chip.modPower (f : Power → Power) (s : Chip) : Chip := { s with power := f s.power }

/-- The device with its `clk` changed by `f`. -/
def Chip.modClk (f : Clocks → Clocks) (s : Chip) : Chip := { s with clk := f s.clk }

/-- The device with its `plls` changed by `f`. -/
def Chip.modPlls (f : List Pll → List Pll) (s : Chip) : Chip := { s with plls := f s.plls }

/-- The device with its `clkos` changed by `f`. -/
def Chip.modClkos (f : SMap Clko → SMap Clko) (s : Chip) : Chip := { s with clkos := f s.clkos }

/-- The device with its `lanes` changed by `f`. -/
def Chip.modLanes (f : SMap Lane → SMap Lane) (s : Chip) : Chip := { s with lanes := f s.lanes }

/-- The device with its `seqs` changed by `f`. -/
def Chip.modSeqs (f : SMap Seq → SMap Seq) (s : Chip) : Chip := { s with seqs := f s.seqs }

/-- The device with its `segs` changed by `f`. -/
def Chip.modSegs (f : Segs → Segs) (s : Chip) : Chip := { s with segs := f s.segs }

/-- The device with its `sealed_` changed by `f`. -/
def Chip.modSealed (f : Sealed → Sealed) (s : Chip) : Chip := { s with sealed_ := f s.sealed_ }

/-- The device with its `acq` changed by `f`. -/
def Chip.modAcq (f : Acq → Acq) (s : Chip) : Chip := { s with acq := f s.acq }

/-- The device with its `dram` changed by `f`. -/
def Chip.modDram (f : Dram → Dram) (s : Chip) : Chip := { s with dram := f s.dram }

/-- The device with its `levels` changed by `f`. -/
def Chip.modLevels (f : Levels → Levels) (s : Chip) : Chip := { s with levels := f s.levels }

/-- The device with its `router` changed by `f`. -/
def Chip.modRouter (f : Router → Router) (s : Chip) : Chip := { s with router := f s.router }

/-- The device with its `cluster` changed by `f`. -/
def Chip.modCluster (f : Cluster → Cluster) (s : Chip) : Chip := { s with cluster := f s.cluster }

/-- The device with its `watchdog` changed by `f`. -/
def Chip.modWatchdog (f : Watchdog → Watchdog) (s : Chip) : Chip := { s with watchdog := f s.watchdog }

/-- The device with its `ci` changed by `f`. -/
def Chip.modCi (f : Conductor → Conductor) (s : Chip) : Chip := { s with ci := f s.ci }

/-- The device with its `boot` changed by `f`. -/
def Chip.modBoot (f : Boot → Boot) (s : Chip) : Chip := { s with boot := f s.boot }

/-- The device with its `life` changed by `f`. -/
def Chip.modLife (f : LifeState → LifeState) (s : Chip) : Chip := { s with life := f s.life }

/-- The device with its `keys` changed by `f`. -/
def Chip.modKeys (f : Keys → Keys) (s : Chip) : Chip := { s with keys := f s.keys }

/-- The device with its `crypto` changed by `f`. -/
def Chip.modCrypto (f : Crypto → Crypto) (s : Chip) : Chip := { s with crypto := f s.crypto }

/-- The device with its `recorder` changed by `f`. -/
def Chip.modRecorder (f : Recorder → Recorder) (s : Chip) : Chip := { s with recorder := f s.recorder }

/-- The device with its `reseat` changed by `f`. -/
def Chip.modReseat (f : Reseat → Reseat) (s : Chip) : Chip := { s with reseat := f s.reseat }

/-- The device with its `pair` changed by `f`. -/
def Chip.modPair (f : Pair → Pair) (s : Chip) : Chip := { s with pair := f s.pair }

/-- The device with its `background` changed by `f`. -/
def Chip.modBackground (f : Background → Background) (s : Chip) : Chip := { s with background := f s.background }

/-- The device with its `islands` changed by `f`. -/
def Chip.modIslands (f : List IslandState → List IslandState) (s : Chip) : Chip := { s with islands := f s.islands }

/-- The device with its `out` changed by `f`. -/
def Chip.modOut (f : List Output → List Output) (s : Chip) : Chip := { s with out := f s.out }

/-- The device with its `free` changed by `f`. -/
def Chip.modFree (f : Nat → Nat) (s : Chip) : Chip := { s with free := f s.free }

/-! ## Members of the collections -/

/-- Lane `n`. -/
def Chip.lane (s : Chip) (n : Nat) : Lane := s.lanes.get {} n
/-- Change lane `n`. -/
def Chip.modLane (n : Nat) (f : Lane → Lane) (s : Chip) : Chip := { s with lanes := s.lanes.upd {} n f }
/-- Sequencer `n`. -/
def Chip.sq (s : Chip) (n : Nat) : Seq := s.seqs.get {} n
/-- Change sequencer `n`. -/
def Chip.modSq (n : Nat) (f : Seq → Seq) (s : Chip) : Chip := { s with seqs := s.seqs.upd {} n f }
/-- Synthesis PLL `p`. -/
def Chip.pll (s : Chip) (p : Nat) : Pll := s.plls.getD p {}
/-- Change PLL `p`. -/
def Chip.modPll (p : Nat) (f : Pll → Pll) (s : Chip) : Chip := { s with plls := s.plls.set p (f (s.pll p)) }
/-- Clock output `k`. -/
def Chip.clko (s : Chip) (k : Nat) : Clko := s.clkos.get {} k
/-- Change clock output `k`. -/
def Chip.modClko (k : Nat) (f : Clko → Clko) (s : Chip) : Chip := { s with clkos := s.clkos.upd {} k f }
/-- State of island `i`. -/
def Chip.island (s : Chip) (i : Nat) : IslandState := s.islands.getD i .off
/-- Put island `i` in a state. -/
def Chip.putIsland (i : Nat) (x : IslandState) (s : Chip) : Chip := { s with islands := s.islands.set i x }
/-- A re-seat of an island or unit is under way, or a failed one left it out of service (R484, R485). -/
def Chip.reseating (s : Chip) (i u : Nat) : Bool := s.reseat.runs.any fun r => r.island == i && r.unit == u
/-- The fault of an island is that of one unit while its others serve (R89, R485): a unit that a failed
re-seat left out, or a PLL with the other one locked; a fault of the whole island is run 0xFF. -/
def Chip.unitFaulted (s : Chip) (i : Nat) : Bool :=
  !(s.reseat.runs.any fun r => r.failed && r.island == i && r.unit == 0xFF) &&
    ((s.reseat.runs.any fun r => r.failed && r.island == i && r.unit != 0xFF) ||
      (i == 6 && !s.clk.refLost && s.plls.any (·.state == .locked) && s.plls.any (·.faultHeld)))
/-- Island `i` serves: it is running, or faulted in one unit while its others serve (Table 1.9). -/
def Chip.runs (s : Chip) (i : Nat) : Bool := s.island i == .running || (s.island i == .faulted && s.unitFaulted i)
/-- The controller of a bus. -/
def Chip.ctl (s : Chip) : Bus → CanCtl
  | .canA => s.host.canA
  | .canB => s.host.canB
/-- Change the controller of a bus. -/
def Chip.modCtl (b : Bus) (f : CanCtl → CanCtl) (s : Chip) : Chip :=
  match b with
  | .canA => s.modHost fun h => { h with canA := f h.canA }
  | .canB => s.modHost fun h => { h with canB := f h.canB }
/-- Change the SPI port. -/
def Chip.modSpi (f : SpiPort → SpiPort) (s : Chip) : Chip := s.modHost fun h => { h with spi := f h.spi }
/-- DRAM channel `c`. -/
def Chip.dramCh (s : Chip) (c : Nat) : DramCh := s.dram.channels.getD c {}
/-- Change DRAM channel `c`. -/
def Chip.modDramCh (c : Nat) (f : DramCh → DramCh) (s : Chip) : Chip :=
  s.modDram fun d => { d with channels := d.channels.set c (f (d.channels.getD c {})) }
/-- Level channel `n`. -/
def Chip.lv (s : Chip) (n : Nat) : LvCh := s.levels.chs.get {} n
/-- Change level channel `n`. -/
def Chip.modLv (n : Nat) (f : LvCh → LvCh) (s : Chip) : Chip :=
  s.modLevels fun l => { l with chs := l.chs.upd {} n f }
/-- Capture unit `u`. -/
def Chip.unit (s : Chip) (u : Nat) : CapUnit := s.acq.units.get {} u
/-- Change capture unit `u`. -/
def Chip.modUnit (u : Nat) (f : CapUnit → CapUnit) (s : Chip) : Chip :=
  s.modAcq fun a => { a with units := a.units.upd {} u f }
/-- The acquisition state of site `k`. -/
def Chip.siteAq (s : Chip) (k : Nat) : SiteAq := s.acq.sites.get {} k
/-- Change the acquisition state of site `k`. -/
def Chip.modSiteAq (k : Nat) (f : SiteAq → SiteAq) (s : Chip) : Chip :=
  s.modAcq fun a => { a with sites := a.sites.upd {} k f }
/-- The sealed-field state of site `k`. -/
def Chip.seal (s : Chip) (k : Nat) : SiteSeal := s.sealed_.sites.get {} k
/-- Change the sealed-field state of site `k`. -/
def Chip.modSeal (k : Nat) (f : SiteSeal → SiteSeal) (s : Chip) : Chip :=
  s.modSealed fun x => { x with sites := x.sites.upd {} k f }
/-- Partition `p`. -/
def Chip.part (s : Chip) (p : Nat) : Partition := s.ci.partitions.get {} p
/-- Change partition `p`. -/
def Chip.modPart (p : Nat) (f : Partition → Partition) (s : Chip) : Chip :=
  s.modCi fun c => { c with partitions := c.partitions.upd {} p f }
/-- Key queue `q`. -/
def Chip.queue (s : Chip) (q : Nat) : Queue := s.crypto.queues.get {} q
/-- Change queue `q`. -/
def Chip.modQueue (q : Nat) (f : Queue → Queue) (s : Chip) : Chip :=
  s.modCrypto fun c => { c with queues := c.queues.upd {} q f }
/-- Fuse word `w` at nominal (R145). -/
def Chip.fuse (s : Chip) (w : Nat) : Word32 := s.life.fuses.get 0 w
/-- A word is sound when its three reads agree (R146). -/
def Chip.sound (s : Chip) (w : Nat) : Bool := !s.life.marginal.contains w
/-- The value the device uses of a fuse word: a marginal word's nominal value is not used (R146). (DESIGN CHOICE, log 104.) -/
def Chip.fuseUsed (s : Chip) (w : Nat) : Word32 := if s.sound w then s.fuse w else Config.marginalFuse w (s.fuse w)

/-- The route of a consumer (R410). -/
def Chip.route (s : Chip) (c : Nat) : Byte := s.router.routes.get 0 c
/-- A consumer follows a producer that can change: one routed to constant low sees no edge (R410). -/
def Chip.routed (s : Chip) (c : Nat) : Bool := (s.route c).toNat % 128 != 0

/-! ## Time (R96, R177) -/

/-- The AO monotonic clock, µs (R177). -/
def Chip.us (s : Chip) : Nat := s.clk.ticks / 400
/-- Microseconds since time 0 of the present start-up. -/
def Chip.upUs (s : Chip) : Nat := (s.clk.ticks - s.clk.startTick) / 400
/-- Milliseconds since the chip reset. -/
def Chip.upMs (s : Chip) : Nat := s.upUs / 1000
/-- Whether `n` microseconds have passed since a tick. -/
def Chip.passedUs (s : Chip) (since n : Nat) : Bool := decide (since + 400 * n ≤ s.clk.ticks)
/-- Whether `n` milliseconds have passed since a tick. -/
def Chip.passedMs (s : Chip) (since n : Nat) : Bool := s.passedUs since (1000 * n)
/-- `n` microseconds since a tick are over, their last edge included: an arrival on the edge on which they expire comes
before the timeout that guards it (R24, R25). -/
def Chip.overUs (s : Chip) (since n : Nat) : Bool := decide (since + 400 * n < s.clk.ticks)
/-- `n` milliseconds since a tick are over, their last edge included (R24). -/
def Chip.overMs (s : Chip) (since n : Nat) : Bool := s.overUs since (1000 * n)
/-- Action time in whole ns (R96). -/
def Chip.actionNs (s : Chip) : Nat := s.clk.action / 256

/-! ## Free values -/

/-- The next `n` free bytes, and the state in which they are drawn. (DESIGN CHOICE, log 4, log 102.) -/
def Chip.drawBytes (n : Nat) (s : Chip) : Bytes × Chip :=
  ((List.range n).map (Config.freeByte s.free), { s with free := s.free + 1 })

/-- The next free choice, and the state in which it is drawn. (DESIGN CHOICE, log 4.) -/
def Chip.drawBool (s : Chip) : Bool × Chip := (Config.freeBool s.free, { s with free := s.free + 1 })

/-! ## Outputs -/

/-- Send something out of the device. (DESIGN CHOICE, log 5.) -/
def Chip.emit (o : Output) (s : Chip) : Chip := { s with out := o :: s.out }

/-- The node-ID in use, 0x2001:02 (R56). -/
def Chip.nodeId (s : Chip) : Nat := s.power.straps.toNat % 128

/-- The controller of a bus takes part in the bus (R107). -/
def Chip.onBus (s : Chip) (b : Bus) : Bool :=
  (s.ctl b).status == .errorActive || (s.ctl b).status == .errorPassive

/-- Send a CANopen message on a bus whose controller is on the bus, in an FD frame with the bit-rate switch set (R105,
R107, R110). -/
def Chip.sendCan (b : Bus) (cobId : Nat) (d : Bytes) (s : Chip) : Chip :=
  if s.onBus b then s.emit (.can b .fdBrs cobId d) else s

/-- The USDO server of a bus sends: its controller is on the bus and NMT is not stopped (R109, R110). -/
def Chip.usdoServes (s : Chip) (b : Bus) : Bool := s.onBus b && s.host.nmt != .stopped

/-- The USDO abort code of a result code: the standard one of Table 5.10, else 0x0F00_0000 plus the code (R139). -/
def abortCode (code : Nat) : Nat :=
  match code with
  | 0x0002 => 0x06090030
  | 0x0003 => 0x08000021
  | 0x0005 => 0x08000022
  | 0x000C => 0x06010000
  | 0x000E => 0x06020000
  | 0x000F => 0x06090011
  | 0x0010 => 0x06010002
  | 0x0011 => 0x06010001
  | 0x0012 => 0x06070010
  | 0x0014 => 0x05040000
  | 0x0018 => 0x08000020
  | c => 0x0F000000 + c

/-- The end of a USDO transfer: its answer on a success, an abort on a refusal (R139). -/
def Chip.sendUsdo (b : Bus) (client : BitVec 7) (code : Nat) (o : Output) (s : Chip) : Chip :=
  if s.usdoServes b = false then s
  else s.emit (if code = 0 then o else .usdoAbort b client.toNat (BitVec.ofNat 32 (abortCode code)))

/-! ## The recorder's input -/

/-- Records in CH_16, which the AO's own records do not enter (R22, R468). -/
def Recorder.inChannel (r : Recorder) : Nat := (r.queue.filter fun x => x.producer != 1).length

/-- A record arrives at CH_16, or at the AO for the AO's own: it is accepted with its producer's lost
count, held by the producer, or counted (Table 1.5, R469). -/
def Recorder.arrive (x : RecordIn) (r : Recorder) : Recorder :=
  if x.producer = 1 then { r with queue := r.queue ++ [x] }
  else
    let h := r.held.get [] x.producer
    if r.inChannel < 32 ∧ h = [] then
      { r with queue := r.queue ++ [{ x with lost := min 0xFFFF (r.lostRun.get 0 x.producer) }]
               lostRun := r.lostRun.set 0 x.producer 0 }
    else if h.length < 4 then { r with held := r.held.set [] x.producer (h ++ [x]) }
    else { r with lostRun := r.lostRun.upd 0 x.producer (· + 1) }

/-- After the AO has taken a record, the lowest producer that holds one places it in CH_16 (R22, R468). -/
def Recorder.admitHeld (r : Recorder) : Recorder :=
  match r.held with
  | (p, x :: xs) :: _ =>
    if r.inChannel < 32 then
      { r with queue := r.queue ++ [{ x with lost := min 0xFFFF (r.lostRun.get 0 p) }]
               lostRun := r.lostRun.set 0 p 0
               held := r.held.set [] p xs }
    else r
  | _ => r

/-- Write a record: event code, source island and unit, and detail from byte 18 (R466). Codes of group
0x1, island resets and summaries are the AO's own (R468, R471). -/
def Chip.recordBy (producer code island unit : Nat) (detail : Bytes) (s : Chip) : Chip :=
  s.modRecorder (Recorder.arrive { code := code, island := island, unit := unit, producer := producer, payload := pad 12 detail })

/-- Write a record whose producer is the island its source byte names. -/
def Chip.record (code island : Nat) (detail : Bytes) (s : Chip) (unit : Nat := 0) : Chip :=
  s.recordBy (if code / 0x1000 = 1 ∨ code = 0x0003 ∨ code = 0x0005 then 1 else island) code island unit detail

/-- The island whose events a rate-limited category counts (R471). -/
def categoryIsland (cat : Nat) : Nat := if cat = 4 ∨ cat = 5 then 7 else 0

/-- Write the overload summary of a category with its count, and clear the counter (R471). -/
def Chip.summary (cat count : Nat) (s : Chip) : Chip :=
  let secs := match s.recorder.lastSummary.find? cat with
    | some t => (s.us - t) / 1000000
    | none => 0xFFFFFFFF
  (s.record 0x0005 (categoryIsland cat) (le 1 cat ++ [0] ++ le 4 count ++ le 4 secs)).modRecorder fun r =>
    { r with counters := r.counters.set 0 cat 0, lastSummary := r.lastSummary.put cat s.us }

/-- Whether a summary of a category was written in the preceding 3,600 s (R471). -/
def Chip.summarised (s : Chip) (cat : Nat) : Bool :=
  match s.recorder.lastSummary.find? cat with
  | some t => decide (s.us < t + 3600000000)
  | none => false

/-- A counted event of a category (R471, rules 1 and 2). -/
def Chip.count (cat : Nat) (s : Chip) : Chip :=
  if s.summarised cat then s.modRecorder fun r => { r with counters := r.counters.upd 0 cat (satAdd 32 · 1) }
  else if s.recorder.counters.get 0 cat = 0 then s.summary cat 1
  else s.modRecorder fun r => { r with counters := r.counters.upd 0 cat (satAdd 32 · 1) }

/-- The access-refused record of R20 and R134. -/
def Chip.accessRefused (island addr region kind : Nat) (s : Chip) : Chip :=
  s.record 0x0001 island (le 4 addr ++ le 2 region ++ le 1 kind)

/-! ## EMCY (R141, R142, R526) -/

/-- The CANopen bytes of an EMCY (R141). -/
def EmcyMsg.bytes (m : EmcyMsg) : Bytes :=
  le 2 m.code.toNat ++ [m.register] ++ le 2 m.event.toNat ++ le 1 m.island ++ le 2 m.detail.toNat

/-- An EMCY goes to one bus: sent, or waiting inside the inhibit time, the oldest waiting one dropped
for a 17th (R142). -/
def Chip.emcyOnBus (m : EmcyMsg) (b : Bus) (s : Chip) : Chip :=
  if s.onBus b = false ∨ s.host.nmt = .stopped then s
  else if (s.ctl b).inhibited then
    s.modCtl b fun c => { c with waiting := (if c.waiting.length ≥ 16 then c.waiting.drop 1 else c.waiting) ++ [m] }
  else
    (s.sendCan b (0x80 + s.nodeId) m.bytes).modCtl b fun c => { c with inhibited := s.host.inhibit != 0 }

/-- Raise an EMCY: entered in 0x1003, sent per bus, and SPI status bit 2 set (R142). (DEDUCED, log 31.) -/
def Chip.emcySend (m : EmcyMsg) (s : Chip) : Chip :=
  let s := s.modHost fun h =>
    { h with errorReg := m.register
             errors := (BitVec.ofNat 32 (m.code.toNat + 0x10000 * m.event.toNat) :: h.errors).take 16
             spi := { h.spi with emcyPending := true, irq := true } }
  (s.emcyOnBus m .canA).emcyOnBus m .canB

/-- The register bits of the lasting conditions that hold (Table 5.11). -/
def HostServices.conditionBits (h : HostServices) : Byte := h.conditions.foldl (fun b c => b ||| c.emcy.register) 0

/-- A lasting condition arises (R141): `key` names it, so that its end is recognised. A condition that
already holds raises nothing. -/
def Chip.raise (key code bits event island detail : Nat) (s : Chip) : Chip :=
  if s.host.conditions.any (·.key = key) then s
  else
    let own : EmcyMsg := { code := BitVec.ofNat 16 code, register := BitVec.ofNat 8 bits, event := BitVec.ofNat 16 event, island := island, detail := BitVec.ofNat 16 detail }
    let s := s.modHost fun h => { h with conditions := h.conditions ++ [{ emcy := own, key := key }], eventBits := 0 }
    s.emcySend { own with register := s.host.conditionBits }

/-- An event of Table 5.11 occurs: its register bits stay set until the next EMCY (R141). -/
def Chip.raiseEvent (code bits event island detail : Nat) (s : Chip) : Chip :=
  let s := s.modHost fun h => { h with eventBits := BitVec.ofNat 8 bits }
  s.emcySend { code := BitVec.ofNat 16 code, register := s.host.conditionBits ||| BitVec.ofNat 8 bits, event := BitVec.ofNat 16 event, island := island, detail := BitVec.ofNat 16 detail }

/-- A lasting condition ends: when none remains, the EMCY 0x0000 is sent (R141). -/
def Chip.endCondition (key : Nat) (s : Chip) : Chip :=
  if s.host.conditions.any (·.key = key) then
    let s := s.modHost fun h => { h with conditions := h.conditions.filter (·.key ≠ key) }
    if s.host.conditions = [] then (s.modHost fun h => { h with eventBits := 0 }).emcySend {}
    else s.modHost fun h => { h with errorReg := h.conditionBits ||| h.eventBits }
  else s

/-- A lasting condition ends without an EMCY of its own (R110, R526). -/
def Chip.dropCondition (key : Nat) (s : Chip) : Chip :=
  s.modHost fun h => { h with conditions := h.conditions.filter (·.key ≠ key) }

/-! ## Island states (R33) -/

/-- The code of an island state (Table 1.9). -/
def IslandState.code : IslandState → Nat
  | .off => 0 | .resetting => 1 | .loading => 2 | .running => 3
  | .reseatPending => 4 | .faulted => 5 | .disabled => 6 | .dead => 7

/-- An island becomes faulted or dead: record 0x000B and the EMCY of Table 5.11. -/
def Chip.failIsland (i : Nat) (x : IslandState) (s : Chip) : Chip :=
  if s.island i = x then s
  else
    ((s.putIsland i x).record 0x000B i (le 1 i ++ le 1 x.code)).raise (1000 + i) 0x5000 0x81 0x000B i (i + 256 * x.code)

/-- An island enters running, which ends its faulted condition and its brown-out condition (R33, R141). -/
def Chip.runIsland (i : Nat) (s : Chip) : Chip :=
  ((s.putIsland i .running).endCondition (1000 + i)).endCondition (3000 + i)

/-! ## Sessions and answers (R31 steps 7 and 8) -/

/-- What an owning island answers to a request. -/
inductive Reply where
  /-- A result code, with result data. -/
  | done (code : Nat) (data : Bytes)
  /-- Busy, with a retry delay in ms (R136). -/
  | busy (ms : Nat)
  /-- The answer comes later; the request is held by its island. -/
  | later
  deriving DecidableEq, Repr

/-- Success without data. -/
abbrev ok : Reply := .done 0 []

/-- A refusal. -/
abbrev bad (code : Nat) : Reply := .done code []

/-- A request at its owner: where its answer goes and the level of its session (R31 step 6). -/
structure Req where
  dest : Target
  level : Level
  deriving DecidableEq, Repr

/-- The session a target belongs to, if that opening still stands (R121). -/
def Chip.sessionOf (s : Chip) (t : Target) : Option Session :=
  match s.host.sessions.find? t.session with
  | some x => if x.serial = t.serial then some x else none
  | none => none

/-- Change an open session. -/
def Chip.modSession (n : Nat) (f : Session → Session) (s : Chip) : Chip :=
  s.modHost fun h => match h.sessions.find? n with
    | some x => { h with sessions := h.sessions.put n (f x) }
    | none => h

/-- Change the session of a target, if that opening still stands. -/
def Chip.modOwn (t : Target) (f : Session → Session) (s : Chip) : Chip :=
  if (s.sessionOf t).isSome then s.modSession t.session f else s

/-- The value of a per-session selector: 0 without a session (R119). -/
def Chip.sel (s : Chip) (n idx sub : Nat) : Nat :=
  match s.host.sessions.find? n with
  | some x => x.selectors.get 0 (256 * idx + sub)
  | none => 0

/-- Set a per-session selector. -/
def Chip.setSel (n idx sub v : Nat) (s : Chip) : Chip :=
  s.modSession n fun x => { x with selectors := x.selectors.set 0 (256 * idx + sub) v }

/-- The response frame of Table 5.4. -/
def spiResponse (session : Nat) (tag : Word16) (index sub code : Nat) (payload : Bytes) : Bytes :=
  let f := [1] ++ le 1 session ++ le 2 tag.toNat ++ le 2 index ++ le 1 sub ++ le 2 code ++ le 2 payload.length ++ payload
  f ++ le 2 (crc16 f)

/-- The request of a port entry completes: its response waits for FETCH (R114), and SPI_IRQ_N is
asserted (R115). -/
def SpiPort.complete (p : SpiPort) (id session code : Nat) (payload : Bytes) : SpiPort :=
  { p with
    entries := p.entries.map fun e => if e.id = id ∧ e.frame = none then
      { e with frame := some (spiResponse session e.tag e.index e.sub code payload), order := p.nextOrder } else e
    nextOrder := p.nextOrder + 1
    irq := true }

/-- A request whose answer is discarded frees its port entry (R114, R121). -/
def Chip.freeEntry (t : Target) (s : Chip) : Chip :=
  match t.path with
  | .can _ _ => s
  | .spi _ => s.modSpi fun p => { p with entries := p.entries.filter fun e => e.id != t.entry || e.frame.isSome }

/-- Send an answer on the path on which its request arrived (R31 step 8); `session` is the number an
SPI response names, 0 for a session byte that counts as no session. (DESIGN CHOICE, log 120.) -/
def Chip.answerAs (session : Nat) (t : Target) (code : Nat) (data : Bytes) (delay : Nat) (s : Chip) : Chip :=
  match t.path with
  | .can b c => s.sendUsdo b c code (.answer t (BitVec.ofNat 16 code) data delay)
  | .spi _ =>
    (s.modSpi fun p => p.complete t.entry session code (if code = 1 then le 2 delay else data)).emit
      (.answer t (BitVec.ofNat 16 code) data delay)

/-- Send an answer to a target's own session. (DESIGN CHOICE, log 120.) -/
def Chip.answer (t : Target) (code : Nat) (data : Bytes) (delay : Nat) (s : Chip) : Chip :=
  s.answerAs t.session t code data delay

/-- The result codes a completed request leaves no ledger entry for (Table 5.10, R129, R508). -/
def unstored (code : Nat) : Bool := code = 0x0001 ∨ code = 0x0004 ∨ code = 0x0014 ∨ code = 0xB001

/-- Step 7 of R31 for a session: the entry of the request in progress is completed, the 64 newest kept
(R129), and 0x2100:06 and :07 follow. -/
def Session.complete (t : Target) (code : Nat) (data : Bytes) (delay : Nat) (x : Session) : Session :=
  let old := x.ledger.filter (fun e => !e.inProgress)
  let mine := (x.ledger.filter (·.inProgress)).map fun e =>
    { e with result := BitVec.ofNat 16 code, data := data.take 16, inProgress := false, copies := [] }
  { x with
    ledger := if t.tagged then (if unstored code then old else (mine ++ old).take 64) else x.ledger
    lastResult := if t.tagged then BitVec.ofNat 16 code else x.lastResult
    retryDelay := if code = 1 then delay else x.retryDelay
    busy := if t.tagged then false else x.busy }

/-- The duplicates held against the request in progress (R128). -/
def Session.heldCopies (x : Session) : List Target := (x.ledger.filter (·.inProgress)).flatMap (·.copies)

/-- The 16 bytes of a ledger entry in 0x2100:0A. -/
def LedgerEntry.bytes (e : LedgerEntry) : Bytes :=
  le 2 e.tag.toNat ++ le 2 e.result.toNat ++ pad 8 e.digest ++ le 2 e.index ++ le 1 e.sub ++ le 1 (if e.inProgress then 1 else 0)

/-- The device journals changes of replicated state: an active device whose standby is synchronising or
synchronised (R497, R503). -/
def Chip.journals (s : Chip) : Bool := s.pair.state == .activeSync || s.pair.state == .activePaired

/-- Append an entry of Table 20.2 to the open epoch (R497). -/
def Chip.journal (keyChange : Bool) (type : Nat) (data : Bytes) (s : Chip) : Chip :=
  if s.journals then
    s.modPair fun p => { p with open_ := { p.open_ with
      entries := p.open_.entries ++ [be 1 type ++ be 2 data.length ++ data]
      keyChange := p.open_.keyChange || keyChange
      firstAt := if p.open_.entries = [] then s.clk.ticks else p.open_.firstAt } }
  else s

/-- The ledger entry of a completed request of a CAN-bound session is journalled (R494, R497). -/
def Chip.journalLedger (t : Target) (s : Chip) : Chip :=
  match s.sessionOf t with
  | some x =>
    match x.ledger.find? (fun e => e.tag == t.tag && !e.inProgress) with
    | some e => if x.isSpi ∨ t.tagged = false then s else s.journal false 6 (be 1 t.session ++ e.bytes ++ pad 16 e.data)
    | none => s
  | none => s

/-- A request completes: ledger, then the answer to the original and to each held duplicate. An ended
session's answer is discarded (R121). -/
def Chip.complete (t : Target) (code : Nat) (data : Bytes) (delay : Nat) (s : Chip) : Chip :=
  if t.session = 0 then s.answer t code data delay
  else match s.sessionOf t with
    | none => s.freeEntry t
    | some x =>
      let copies := if t.tagged then x.heldCopies else []
      let s := (s.modSession t.session (Session.complete t code data delay)).journalLedger t
      copies.foldl (fun s c => s.answer c code data delay) (s.answer t code data delay)

/-- A deferred request completes (R128). -/
def Chip.completeWaiter (w : Waiter) (code : Nat) (data : Bytes) (s : Chip) : Chip := s.complete w.dest code data 0

/-- A deferred request, if there is one, completes. -/
def Chip.completeOpt (w : Option Waiter) (code : Nat) (data : Bytes) (s : Chip) : Chip :=
  match w with
  | some w => s.completeWaiter w code data
  | none => s

/-- Step 6's result: an immediate one completes the request, a later one leaves it in progress. -/
def Chip.finish (t : Target) (r : Chip × Reply) : Chip :=
  match r.2 with
  | .done code data => r.1.complete t code data 0
  | .busy ms => r.1.complete t 0x0001 [] (clamp 1 1000 ms)
  | .later => r.1

/-- The state with one command answered by the owner without any condition of its own. -/
abbrev Chip.just (r : Reply) (s : Chip) : Chip × Reply := (s, r)

/-- Outcome of a command: the queue, the record array and the rest of the state as they were but for
the device. (DESIGN CHOICE, log 19.) -/
def next (s : Sys2Proof.Machine.State) (c : Chip) : Host.Outcome Sys2Proof.Machine.State Fault Refusal :=
  .next { s with chip := c }

end Sys2Proof.Machine
end

