-- ==== Sys2Proof/Machine/Flags.lean ====
section
/-! DEFINITION. The status flags the device derives from its state: the island masks of 0x2000, FAULT_N (R43), and the
SPI port's status byte and SPI_IRQ_N (Table 5.5, R115). -/

namespace Sys2Proof.Machine

/-- One bit per island whose state satisfies `f`. -/
def Chip.islandMask (s : Chip) (f : IslandState → Bool) : Nat :=
  ((List.range 11).map fun i => if f (s.island i) then 2 ^ i else 0).sum

/-- FAULT_N is asserted (R43): until the device has been ready to arm since the chip reset, in Locked and Scrapped, and
while an island reads faulted or dead. (DEDUCED, log 68.) -/
def Chip.faultN (s : Chip) : Bool :=
  s.power.readyUs == 0 || s.life.state == .locked || s.life.state == .scrapped || s.islands.any fun i => i == .faulted || i == .dead

/-- Requests and responses that occupy the port are fewer than 8 (R114). -/
def SpiPort.free (p : SpiPort) : Bool := decide (p.entries.length < 8)

/-- A response waits (Table 5.5, bit 0). (DEDUCED, log 95.) -/
def SpiPort.waits (p : SpiPort) : Bool := p.entries.any (·.frame.isSome)

/-- The status byte of Table 5.5. -/
def SpiPort.status (p : SpiPort) : Byte :=
  let bit (b : Bool) (i : Nat) : Nat := if b then 2 ^ i else 0
  BitVec.ofNat 8 (bit p.waits 0 + bit p.free 1 + bit p.emcyPending 2 + bit p.rejected 3 + bit p.discarded 4)

/-- SPI_IRQ_N follows bits 0 and 2 of the status (R115). -/
def SpiPort.setIrq (p : SpiPort) : SpiPort := { p with irq := p.waits || p.emcyPending }

end Sys2Proof.Machine
end

