-- ==== Sys2Proof/Machine/ObjTable.lean ====
section
/-! DEFINITION. The object dictionary as the object tables of the chapters list it: for each index and
sub-index the size a write must have (R122), the access (R117), and whether it is stored (R123). Each
group is one table's index range. -/

namespace Sys2Proof.Machine

/-- The length a write must have (R122). -/
inductive Size where
  | fixed (n : Nat)
  | range (lo hi : Nat)
  deriving DecidableEq, Repr

/-- Who may write an object (R117, R119): nobody; any session, its own view only; any client; operator or
vendor sessions; a session with custodian authorisations; a window's data. -/
inductive Access where
  | observer | session | client | operator | vendor | signed | window
  deriving DecidableEq, Repr

/-- A row of an object table: a range of sub-indices. -/
structure ObjRow where
  lo : Nat
  hi : Nat
  size : Size
  access : Access
  /-- Stored by R123. -/
  persist : Bool
  /-- Never readable. -/
  writeOnly : Bool
  deriving DecidableEq, Repr

/-- A range of indices with the same rows. -/
structure ObjGroup where
  base : Nat
  count : Nat
  rows : List ObjRow
  deriving DecidableEq, Repr

/-- Objects 0x1000. -/
def obj1000 : ObjGroup := ⟨0x1000, 1, [
  ⟨0x00, 0x00, .fixed 4, .observer, false, false⟩]⟩

/-- Objects 0x1001. -/
def obj1001 : ObjGroup := ⟨0x1001, 1, [
  ⟨0x00, 0x00, .fixed 1, .observer, false, false⟩]⟩

/-- Objects 0x1003. -/
def obj1003 : ObjGroup := ⟨0x1003, 1, [
  ⟨0x00, 0x00, .fixed 1, .operator, false, false⟩,
  ⟨0x01, 0x10, .fixed 4, .observer, false, false⟩]⟩

/-- Objects 0x1005. -/
def obj1005 : ObjGroup := ⟨0x1005, 1, [
  ⟨0x00, 0x00, .fixed 4, .operator, true, false⟩]⟩

/-- Objects 0x1006. -/
def obj1006 : ObjGroup := ⟨0x1006, 1, [
  ⟨0x00, 0x00, .fixed 4, .operator, true, false⟩]⟩

/-- Objects 0x1010. -/
def obj1010 : ObjGroup := ⟨0x1010, 1, [
  ⟨0x01, 0x03, .fixed 4, .operator, false, false⟩]⟩

/-- Objects 0x1011. -/
def obj1011 : ObjGroup := ⟨0x1011, 1, [
  ⟨0x01, 0x03, .fixed 4, .operator, false, false⟩]⟩

/-- Objects 0x1012. -/
def obj1012 : ObjGroup := ⟨0x1012, 1, [
  ⟨0x00, 0x00, .fixed 4, .operator, true, false⟩]⟩

/-- Objects 0x1014. -/
def obj1014 : ObjGroup := ⟨0x1014, 1, [
  ⟨0x00, 0x00, .fixed 4, .observer, false, false⟩]⟩

/-- Objects 0x1015. -/
def obj1015 : ObjGroup := ⟨0x1015, 1, [
  ⟨0x00, 0x00, .fixed 2, .operator, true, false⟩]⟩

/-- Objects 0x1016. -/
def obj1016 : ObjGroup := ⟨0x1016, 1, [
  ⟨0x01, 0x04, .fixed 4, .operator, true, false⟩]⟩

/-- Objects 0x1017. -/
def obj1017 : ObjGroup := ⟨0x1017, 1, [
  ⟨0x00, 0x00, .fixed 2, .operator, true, false⟩]⟩

/-- Objects 0x1018. -/
def obj1018 : ObjGroup := ⟨0x1018, 1, [
  ⟨0x01, 0x04, .fixed 4, .observer, false, false⟩]⟩

/-- Objects 0x1800 to 0x180F. -/
def obj1800 : ObjGroup := ⟨0x1800, 16, [
  ⟨0x00, 0x00, .fixed 1, .observer, false, false⟩,
  ⟨0x01, 0x01, .fixed 4, .operator, true, false⟩,
  ⟨0x02, 0x02, .fixed 1, .operator, true, false⟩,
  ⟨0x03, 0x03, .fixed 2, .operator, true, false⟩,
  ⟨0x05, 0x05, .fixed 2, .operator, true, false⟩,
  ⟨0x06, 0x06, .fixed 1, .operator, true, false⟩]⟩

/-- Objects 0x1A00 to 0x1A0F. -/
def obj1A00 : ObjGroup := ⟨0x1A00, 16, [
  ⟨0x00, 0x00, .fixed 1, .operator, true, false⟩,
  ⟨0x01, 0x40, .fixed 4, .operator, true, false⟩]⟩

/-- Objects 0x2000. -/
def obj2000 : ObjGroup := ⟨0x2000, 1, [
  ⟨0x00, 0x00, .fixed 1, .observer, false, false⟩,
  ⟨0x01, 0x01, .fixed 4, .observer, false, false⟩,
  ⟨0x02, 0x02, .fixed 1, .observer, false, false⟩,
  ⟨0x03, 0x05, .fixed 2, .observer, false, false⟩,
  ⟨0x10, 0x1A, .fixed 1, .observer, false, false⟩]⟩

/-- Objects 0x2001. -/
def obj2001 : ObjGroup := ⟨0x2001, 1, [
  ⟨0x00, 0x00, .fixed 1, .observer, false, false⟩,
  ⟨0x01, 0x01, .fixed 2, .observer, false, false⟩,
  ⟨0x02, 0x02, .fixed 1, .observer, false, false⟩,
  ⟨0x03, 0x03, .fixed 4, .observer, false, false⟩,
  ⟨0x04, 0x04, .fixed 1, .observer, false, false⟩]⟩

/-- Objects 0x2003. -/
def obj2003 : ObjGroup := ⟨0x2003, 1, [
  ⟨0x00, 0x00, .fixed 1, .observer, false, false⟩,
  ⟨0x01, 0x01, .fixed 4, .observer, false, false⟩,
  ⟨0x02, 0x02, .fixed 1, .observer, false, false⟩,
  ⟨0x03, 0x04, .fixed 4, .observer, false, false⟩,
  ⟨0x05, 0x05, .fixed 1, .observer, false, false⟩,
  ⟨0x06, 0x06, .fixed 2, .observer, false, false⟩,
  ⟨0x07, 0x07, .fixed 1, .observer, false, false⟩,
  ⟨0x08, 0x08, .fixed 4, .operator, false, false⟩,
  ⟨0x09, 0x09, .fixed 1, .operator, false, false⟩,
  ⟨0x0A, 0x0A, .fixed 1, .operator, true, false⟩,
  ⟨0x0B, 0x0C, .fixed 4, .observer, false, false⟩]⟩

/-- Objects 0x2020. -/
def obj2020 : ObjGroup := ⟨0x2020, 1, [
  ⟨0x00, 0x00, .fixed 1, .observer, false, false⟩,
  ⟨0x01, 0x01, .fixed 2, .operator, false, false⟩,
  ⟨0x02, 0x02, .fixed 1, .observer, false, false⟩,
  ⟨0x03, 0x03, .range 0 0, .observer, false, false⟩,
  ⟨0x04, 0x04, .fixed 4, .observer, false, false⟩,
  ⟨0x05, 0x05, .fixed 2, .operator, true, false⟩,
  ⟨0x06, 0x06, .fixed 1, .operator, false, false⟩,
  ⟨0x07, 0x07, .fixed 2, .observer, false, false⟩]⟩

/-- Objects 0x2100. -/
def obj2100 : ObjGroup := ⟨0x2100, 1, [
  ⟨0x00, 0x00, .fixed 1, .observer, false, false⟩,
  ⟨0x01, 0x01, .fixed 2, .operator, false, false⟩,
  ⟨0x02, 0x02, .fixed 1, .observer, false, false⟩,
  ⟨0x03, 0x03, .fixed 1, .observer, false, false⟩,
  ⟨0x04, 0x04, .fixed 1, .observer, false, false⟩,
  ⟨0x05, 0x07, .fixed 2, .observer, false, false⟩,
  ⟨0x08, 0x09, .fixed 4, .observer, false, false⟩,
  ⟨0x0A, 0x0A, .range 0 0, .observer, false, false⟩]⟩

/-- Objects 0x2200. -/
def obj2200 : ObjGroup := ⟨0x2200, 1, [
  ⟨0x00, 0x01, .fixed 1, .observer, false, false⟩,
  ⟨0x02, 0x02, .fixed 16, .client, false, false⟩,
  ⟨0x03, 0x03, .fixed 2, .operator, true, false⟩,
  ⟨0x10, 0x10, .range 20 148, .client, false, true⟩,
  ⟨0x11, 0x11, .fixed 1, .observer, false, false⟩,
  ⟨0x12, 0x12, .fixed 1, .session, false, true⟩,
  ⟨0x13, 0x13, .fixed 1, .observer, false, false⟩,
  ⟨0x14, 0x14, .range 0 0, .observer, false, false⟩]⟩

/-- Objects 0x2201. -/
def obj2201 : ObjGroup := ⟨0x2201, 1, [
  ⟨0x00, 0x00, .fixed 1, .observer, false, false⟩,
  ⟨0x01, 0x04, .fixed 1, .operator, true, false⟩,
  ⟨0x05, 0x05, .fixed 1, .operator, false, false⟩,
  ⟨0x06, 0x06, .fixed 2, .operator, true, false⟩,
  ⟨0x07, 0x09, .fixed 1, .observer, false, false⟩,
  ⟨0x0A, 0x0B, .fixed 4, .observer, false, false⟩]⟩

/-- Objects 0x2300. -/
def obj2300 : ObjGroup := ⟨0x2300, 1, [
  ⟨0x00, 0x00, .fixed 1, .observer, false, false⟩,
  ⟨0x01, 0x01, .fixed 2, .operator, true, false⟩,
  ⟨0x02, 0x07, .fixed 2, .observer, false, false⟩,
  ⟨0x08, 0x0A, .range 0 0, .observer, false, false⟩]⟩

/-- Objects 0x2400. -/
def obj2400 : ObjGroup := ⟨0x2400, 1, [
  ⟨0x00, 0x03, .fixed 1, .observer, false, false⟩,
  ⟨0x04, 0x04, .range 0 512, .operator, false, true⟩,
  ⟨0x05, 0x05, .range 0 0, .observer, false, false⟩,
  ⟨0x06, 0x06, .fixed 2, .observer, false, false⟩,
  ⟨0x07, 0x07, .fixed 4, .observer, false, false⟩,
  ⟨0x08, 0x08, .fixed 2, .observer, false, false⟩,
  ⟨0x09, 0x09, .fixed 6, .vendor, false, true⟩,
  ⟨0x0A, 0x0A, .range 0 0, .observer, false, false⟩,
  ⟨0x0B, 0x0B, .fixed 4, .observer, false, false⟩,
  ⟨0x0C, 0x0C, .range 0 0, .observer, false, false⟩,
  ⟨0x0D, 0x0D, .fixed 1, .observer, false, false⟩]⟩

/-- Objects 0x2500. -/
def obj2500 : ObjGroup := ⟨0x2500, 1, [
  ⟨0x00, 0x01, .fixed 1, .observer, false, false⟩,
  ⟨0x02, 0x02, .fixed 1, .operator, true, false⟩,
  ⟨0x03, 0x05, .fixed 2, .observer, false, false⟩,
  ⟨0x06, 0x07, .fixed 1, .observer, false, false⟩,
  ⟨0x08, 0x08, .fixed 1, .operator, false, false⟩,
  ⟨0x09, 0x09, .fixed 4, .observer, false, false⟩,
  ⟨0x0A, 0x0A, .fixed 1, .observer, false, false⟩,
  ⟨0x0B, 0x0B, .fixed 1, .operator, false, false⟩,
  ⟨0x0C, 0x0C, .fixed 1, .vendor, false, false⟩]⟩

/-- Objects 0x2600. -/
def obj2600 : ObjGroup := ⟨0x2600, 1, [
  ⟨0x00, 0x01, .fixed 1, .observer, false, false⟩,
  ⟨0x02, 0x02, .fixed 4, .observer, false, false⟩,
  ⟨0x03, 0x03, .fixed 1, .observer, false, false⟩,
  ⟨0x04, 0x07, .fixed 1, .operator, true, false⟩]⟩

/-- Objects 0x2610. -/
def obj2610 : ObjGroup := ⟨0x2610, 1, [
  ⟨0x00, 0x02, .fixed 1, .observer, false, false⟩,
  ⟨0x03, 0x03, .fixed 4, .observer, false, false⟩,
  ⟨0x04, 0x04, .fixed 1, .observer, false, false⟩,
  ⟨0x05, 0x07, .fixed 4, .observer, false, false⟩]⟩

/-- Objects 0x2611. -/
def obj2611 : ObjGroup := ⟨0x2611, 1, [
  ⟨0x00, 0x01, .fixed 1, .observer, false, false⟩,
  ⟨0x02, 0x02, .fixed 1, .operator, true, false⟩,
  ⟨0x03, 0x03, .fixed 4, .operator, true, false⟩,
  ⟨0x04, 0x04, .fixed 1, .operator, false, false⟩,
  ⟨0x05, 0x07, .fixed 4, .observer, false, false⟩]⟩

/-- Objects 0x2620 to 0x2625. -/
def obj2620 : ObjGroup := ⟨0x2620, 6, [
  ⟨0x00, 0x00, .fixed 1, .observer, false, false⟩,
  ⟨0x01, 0x02, .fixed 1, .operator, true, false⟩,
  ⟨0x03, 0x03, .fixed 2, .operator, true, false⟩,
  ⟨0x04, 0x04, .fixed 2, .operator, false, false⟩,
  ⟨0x05, 0x05, .fixed 2, .observer, false, false⟩,
  ⟨0x06, 0x06, .fixed 1, .observer, false, false⟩,
  ⟨0x07, 0x08, .fixed 4, .observer, false, false⟩,
  ⟨0x09, 0x09, .fixed 1, .operator, false, false⟩]⟩

/-- Objects 0x2680. -/
def obj2680 : ObjGroup := ⟨0x2680, 1, [
  ⟨0x00, 0x00, .fixed 1, .observer, false, false⟩,
  ⟨0x01, 0x01, .fixed 8, .observer, false, false⟩,
  ⟨0x02, 0x02, .fixed 1, .observer, false, false⟩,
  ⟨0x03, 0x04, .fixed 1, .observer, false, false⟩,
  ⟨0x05, 0x05, .fixed 2, .observer, false, false⟩,
  ⟨0x06, 0x06, .fixed 1, .observer, false, false⟩,
  ⟨0x07, 0x07, .fixed 8, .observer, false, false⟩,
  ⟨0x08, 0x09, .fixed 4, .observer, false, false⟩,
  ⟨0x0A, 0x0A, .fixed 6, .observer, false, false⟩,
  ⟨0x0B, 0x0B, .fixed 8, .observer, false, false⟩]⟩

/-- Objects 0x2700. -/
def obj2700 : ObjGroup := ⟨0x2700, 1, [
  ⟨0x00, 0x00, .fixed 1, .observer, false, false⟩,
  ⟨0x01, 0x01, .fixed 1, .session, false, false⟩,
  ⟨0x02, 0x02, .fixed 1, .operator, true, false⟩,
  ⟨0x03, 0x03, .fixed 96, .operator, true, false⟩,
  ⟨0x04, 0x04, .fixed 1, .observer, false, false⟩,
  ⟨0x05, 0x05, .range 0 0, .observer, false, false⟩,
  ⟨0x06, 0x07, .fixed 1, .operator, false, false⟩,
  ⟨0x08, 0x09, .fixed 1, .operator, true, false⟩,
  ⟨0x0A, 0x0D, .fixed 4, .operator, false, false⟩,
  ⟨0x0E, 0x0F, .fixed 4, .observer, false, false⟩]⟩

/-- Objects 0x2800. -/
def obj2800 : ObjGroup := ⟨0x2800, 1, [
  ⟨0x00, 0x00, .fixed 1, .observer, false, false⟩,
  ⟨0x01, 0x01, .fixed 4, .observer, false, false⟩,
  ⟨0x02, 0x02, .fixed 2, .operator, true, false⟩,
  ⟨0x03, 0x03, .fixed 1, .operator, true, false⟩,
  ⟨0x04, 0x04, .fixed 4, .observer, false, false⟩,
  ⟨0x05, 0x05, .fixed 2, .operator, true, false⟩,
  ⟨0x06, 0x06, .fixed 2, .observer, false, false⟩,
  ⟨0x07, 0x09, .fixed 4, .observer, false, false⟩,
  ⟨0x0A, 0x0A, .fixed 2, .observer, false, false⟩,
  ⟨0x0B, 0x0C, .range 0 0, .observer, false, false⟩]⟩

/-- Objects 0x2900. -/
def obj2900 : ObjGroup := ⟨0x2900, 1, [
  ⟨0x00, 0x00, .fixed 1, .observer, false, false⟩,
  ⟨0x01, 0x01, .fixed 4, .observer, false, false⟩,
  ⟨0x02, 0x02, .fixed 4, .session, false, false⟩,
  ⟨0x03, 0x03, .range 0 0, .observer, false, false⟩,
  ⟨0x04, 0x04, .fixed 4, .observer, false, false⟩,
  ⟨0x05, 0x05, .fixed 1, .observer, false, false⟩,
  ⟨0x06, 0x08, .fixed 4, .observer, false, false⟩,
  ⟨0x09, 0x09, .range 0 0, .observer, false, false⟩,
  ⟨0x0A, 0x0A, .fixed 4, .observer, false, false⟩]⟩

/-- Objects 0x2A00. -/
def obj2A00 : ObjGroup := ⟨0x2A00, 1, [
  ⟨0x00, 0x00, .fixed 1, .observer, false, false⟩,
  ⟨0x01, 0x01, .fixed 1, .session, false, false⟩,
  ⟨0x02, 0x03, .fixed 4, .observer, false, false⟩,
  ⟨0x04, 0x04, .fixed 8, .observer, false, false⟩,
  ⟨0x05, 0x05, .fixed 8, .session, false, false⟩,
  ⟨0x06, 0x06, .range 0 0, .operator, false, false⟩,
  ⟨0x07, 0x07, .fixed 1, .operator, true, false⟩,
  ⟨0x08, 0x08, .fixed 4, .observer, false, false⟩]⟩

/-- Objects 0x2B00. -/
def obj2B00 : ObjGroup := ⟨0x2B00, 1, [
  ⟨0x00, 0x01, .fixed 1, .observer, false, false⟩,
  ⟨0x02, 0x02, .fixed 2, .observer, false, false⟩,
  ⟨0x03, 0x03, .fixed 4, .observer, false, false⟩,
  ⟨0x10, 0x17, .range 0 0, .observer, false, false⟩]⟩

/-- Objects 0x3000 to 0x303F. -/
def obj3000 : ObjGroup := ⟨0x3000, 64, [
  ⟨0x00, 0x00, .fixed 1, .observer, false, false⟩,
  ⟨0x01, 0x05, .fixed 1, .operator, true, false⟩,
  ⟨0x06, 0x06, .fixed 1, .observer, false, false⟩,
  ⟨0x07, 0x09, .fixed 1, .operator, true, false⟩,
  ⟨0x10, 0x10, .fixed 1, .operator, true, false⟩,
  ⟨0x11, 0x13, .fixed 4, .observer, false, false⟩]⟩

/-- Objects 0x3100 to 0x310F. -/
def obj3100 : ObjGroup := ⟨0x3100, 16, [
  ⟨0x00, 0x01, .fixed 1, .observer, false, false⟩,
  ⟨0x02, 0x02, .fixed 1, .operator, false, false⟩,
  ⟨0x03, 0x03, .fixed 10, .operator, false, false⟩,
  ⟨0x04, 0x04, .fixed 1, .operator, false, false⟩,
  ⟨0x05, 0x05, .fixed 1, .observer, false, false⟩,
  ⟨0x06, 0x06, .fixed 8, .observer, false, false⟩,
  ⟨0x07, 0x07, .fixed 8, .operator, true, false⟩,
  ⟨0x08, 0x08, .fixed 2, .operator, true, false⟩,
  ⟨0x09, 0x09, .fixed 2, .operator, false, false⟩,
  ⟨0x0A, 0x0A, .fixed 4, .observer, false, false⟩,
  ⟨0x0B, 0x0C, .fixed 1, .observer, false, false⟩,
  ⟨0x0D, 0x0D, .fixed 2, .observer, false, false⟩,
  ⟨0x0E, 0x0E, .fixed 4, .observer, false, false⟩,
  ⟨0x0F, 0x0F, .fixed 8, .observer, false, false⟩,
  ⟨0x10, 0x10, .range 0 0, .observer, false, false⟩,
  ⟨0x11, 0x11, .fixed 4, .observer, false, false⟩]⟩

/-- Objects 0x3200 to 0x320F. -/
def obj3200 : ObjGroup := ⟨0x3200, 16, [
  ⟨0x00, 0x00, .fixed 1, .observer, false, false⟩,
  ⟨0x01, 0x01, .fixed 2, .session, false, false⟩,
  ⟨0x02, 0x02, .fixed 8, .session, false, false⟩,
  ⟨0x03, 0x03, .range 0 65536, .window, false, false⟩,
  ⟨0x04, 0x04, .fixed 8, .observer, false, false⟩]⟩

/-- Objects 0x3300. -/
def obj3300 : ObjGroup := ⟨0x3300, 1, [
  ⟨0x00, 0x00, .fixed 1, .observer, false, false⟩,
  ⟨0x01, 0x01, .fixed 2, .session, false, false⟩,
  ⟨0x02, 0x02, .fixed 16, .operator, false, false⟩,
  ⟨0x03, 0x03, .fixed 1, .observer, false, false⟩,
  ⟨0x04, 0x04, .fixed 2, .observer, false, false⟩,
  ⟨0x05, 0x05, .fixed 4, .operator, false, false⟩,
  ⟨0x06, 0x06, .fixed 1, .observer, false, false⟩,
  ⟨0x07, 0x08, .fixed 2, .observer, false, false⟩]⟩

/-- Objects 0x3400 to 0x340F. -/
def obj3400 : ObjGroup := ⟨0x3400, 16, [
  ⟨0x00, 0x00, .fixed 1, .observer, false, false⟩,
  ⟨0x01, 0x01, .fixed 1, .session, false, false⟩,
  ⟨0x02, 0x02, .fixed 16, .operator, true, false⟩,
  ⟨0x03, 0x03, .fixed 1, .session, false, false⟩,
  ⟨0x04, 0x04, .fixed 24, .operator, true, false⟩,
  ⟨0x05, 0x05, .range 0 0, .observer, false, false⟩,
  ⟨0x06, 0x06, .fixed 1552, .operator, true, false⟩,
  ⟨0x07, 0x07, .fixed 2, .observer, false, false⟩,
  ⟨0x08, 0x08, .fixed 4, .observer, false, false⟩]⟩

/-- Objects 0x3500. -/
def obj3500 : ObjGroup := ⟨0x3500, 1, [
  ⟨0x00, 0x00, .fixed 1, .observer, false, false⟩,
  ⟨0x01, 0x01, .fixed 1, .session, false, false⟩,
  ⟨0x02, 0x02, .fixed 8, .operator, true, false⟩,
  ⟨0x03, 0x03, .fixed 1, .operator, true, false⟩,
  ⟨0x04, 0x04, .fixed 27, .operator, true, false⟩,
  ⟨0x05, 0x05, .fixed 40, .operator, true, false⟩,
  ⟨0x06, 0x06, .fixed 1, .session, false, false⟩,
  ⟨0x07, 0x07, .range 4 64, .operator, true, false⟩,
  ⟨0x08, 0x09, .fixed 4, .operator, true, false⟩,
  ⟨0x0A, 0x0A, .range 4 256, .operator, true, false⟩,
  ⟨0x0B, 0x0B, .fixed 8, .observer, false, false⟩,
  ⟨0x0C, 0x0C, .fixed 4, .observer, false, false⟩,
  ⟨0x0D, 0x0D, .fixed 1, .observer, false, false⟩]⟩

/-- Objects 0x3600. -/
def obj3600 : ObjGroup := ⟨0x3600, 1, [
  ⟨0x00, 0x00, .fixed 1, .observer, false, false⟩,
  ⟨0x01, 0x01, .fixed 1, .session, false, false⟩,
  ⟨0x02, 0x03, .fixed 1, .operator, true, false⟩,
  ⟨0x04, 0x04, .fixed 2, .operator, true, false⟩,
  ⟨0x05, 0x07, .fixed 1, .operator, true, false⟩,
  ⟨0x08, 0x08, .fixed 2, .operator, true, false⟩,
  ⟨0x09, 0x09, .fixed 1, .operator, true, false⟩,
  ⟨0x0A, 0x0A, .fixed 2, .operator, true, false⟩,
  ⟨0x10, 0x10, .fixed 4, .operator, true, false⟩,
  ⟨0x11, 0x11, .fixed 1, .operator, false, false⟩,
  ⟨0x12, 0x12, .fixed 4, .operator, true, false⟩,
  ⟨0x13, 0x13, .fixed 1, .operator, false, false⟩,
  ⟨0x14, 0x15, .fixed 2, .operator, true, false⟩,
  ⟨0x16, 0x16, .fixed 4, .observer, false, false⟩,
  ⟨0x17, 0x17, .fixed 1, .observer, false, false⟩,
  ⟨0x18, 0x19, .fixed 4, .observer, false, false⟩,
  ⟨0x1A, 0x1A, .fixed 8, .observer, false, false⟩]⟩

/-- Objects 0x3700. -/
def obj3700 : ObjGroup := ⟨0x3700, 1, [
  ⟨0x00, 0x00, .fixed 1, .observer, false, false⟩,
  ⟨0x01, 0x01, .fixed 1, .session, false, false⟩,
  ⟨0x02, 0x02, .fixed 64, .operator, true, false⟩,
  ⟨0x03, 0x03, .fixed 1, .session, false, false⟩,
  ⟨0x04, 0x04, .fixed 2, .operator, true, false⟩,
  ⟨0x05, 0x05, .fixed 1, .operator, true, false⟩,
  ⟨0x06, 0x06, .fixed 2, .operator, true, false⟩,
  ⟨0x07, 0x07, .fixed 2048, .operator, true, false⟩,
  ⟨0x08, 0x08, .fixed 1, .observer, false, false⟩,
  ⟨0x09, 0x0A, .fixed 4, .observer, false, false⟩,
  ⟨0x0B, 0x0B, .range 0 0, .observer, false, false⟩,
  ⟨0x0C, 0x0C, .fixed 1, .session, false, false⟩,
  ⟨0x0D, 0x0D, .range 0 0, .observer, false, false⟩,
  ⟨0x0E, 0x0E, .fixed 4, .observer, false, false⟩]⟩

/-- Objects 0x3800. -/
def obj3800 : ObjGroup := ⟨0x3800, 1, [
  ⟨0x00, 0x00, .fixed 1, .observer, false, false⟩,
  ⟨0x01, 0x01, .fixed 1, .session, false, false⟩,
  ⟨0x02, 0x03, .fixed 1, .operator, true, false⟩,
  ⟨0x04, 0x04, .fixed 16, .operator, true, false⟩,
  ⟨0x05, 0x05, .fixed 4, .operator, true, false⟩,
  ⟨0x06, 0x06, .fixed 2, .operator, true, false⟩,
  ⟨0x07, 0x07, .fixed 4, .operator, true, false⟩,
  ⟨0x08, 0x08, .fixed 1, .operator, true, false⟩,
  ⟨0x09, 0x09, .fixed 8, .operator, true, false⟩,
  ⟨0x0A, 0x0A, .fixed 1, .operator, true, false⟩,
  ⟨0x0B, 0x0B, .fixed 16, .operator, true, false⟩,
  ⟨0x0C, 0x0C, .fixed 8, .observer, false, false⟩,
  ⟨0x0D, 0x0D, .fixed 8, .operator, false, false⟩,
  ⟨0x0E, 0x0E, .fixed 1, .observer, false, false⟩,
  ⟨0x0F, 0x0F, .fixed 4, .observer, false, false⟩,
  ⟨0x10, 0x10, .fixed 8, .observer, false, false⟩,
  ⟨0x11, 0x11, .fixed 1, .observer, false, false⟩,
  ⟨0x12, 0x13, .fixed 8, .operator, true, false⟩,
  ⟨0x14, 0x14, .fixed 1, .session, false, false⟩,
  ⟨0x15, 0x15, .fixed 2, .observer, false, false⟩,
  ⟨0x16, 0x16, .range 0 0, .observer, false, false⟩,
  ⟨0x17, 0x18, .fixed 1, .observer, false, false⟩,
  ⟨0x19, 0x1B, .fixed 4, .observer, false, false⟩,
  ⟨0x1C, 0x1C, .fixed 2, .operator, true, false⟩]⟩

/-- Objects 0x3900. -/
def obj3900 : ObjGroup := ⟨0x3900, 1, [
  ⟨0x00, 0x00, .fixed 1, .observer, false, false⟩,
  ⟨0x01, 0x01, .fixed 1, .session, false, false⟩,
  ⟨0x02, 0x02, .fixed 2, .operator, false, false⟩,
  ⟨0x03, 0x03, .fixed 1, .operator, true, false⟩,
  ⟨0x04, 0x04, .fixed 2, .operator, true, false⟩,
  ⟨0x05, 0x05, .fixed 1, .operator, false, false⟩,
  ⟨0x06, 0x07, .fixed 2, .operator, false, false⟩,
  ⟨0x08, 0x08, .fixed 4, .operator, false, false⟩,
  ⟨0x09, 0x09, .fixed 4, .operator, true, false⟩,
  ⟨0x0A, 0x0A, .fixed 1, .operator, true, false⟩,
  ⟨0x0B, 0x0B, .fixed 2, .observer, false, false⟩,
  ⟨0x0C, 0x0D, .fixed 1, .observer, false, false⟩,
  ⟨0x0E, 0x0E, .fixed 1, .operator, false, false⟩,
  ⟨0x10, 0x11, .fixed 1, .operator, false, false⟩,
  ⟨0x12, 0x12, .fixed 1, .observer, false, false⟩,
  ⟨0x13, 0x13, .fixed 2, .observer, false, false⟩,
  ⟨0x14, 0x14, .fixed 4, .observer, false, false⟩,
  ⟨0x15, 0x15, .fixed 2, .observer, false, false⟩]⟩

/-- Objects 0x4000. -/
def obj4000 : ObjGroup := ⟨0x4000, 1, [
  ⟨0x00, 0x00, .fixed 1, .observer, false, false⟩,
  ⟨0x01, 0x01, .fixed 2, .observer, false, false⟩,
  ⟨0x02, 0x02, .fixed 1, .observer, false, false⟩,
  ⟨0x03, 0x04, .fixed 4, .observer, false, false⟩,
  ⟨0x05, 0x05, .fixed 1, .observer, false, false⟩,
  ⟨0x06, 0x08, .fixed 4, .observer, false, false⟩,
  ⟨0x09, 0x0A, .fixed 2, .observer, false, false⟩,
  ⟨0x0B, 0x0B, .fixed 1, .observer, false, false⟩,
  ⟨0x0C, 0x0D, .fixed 4, .observer, false, false⟩]⟩

/-- Objects 0x4100 to 0x413F. -/
def obj4100 : ObjGroup := ⟨0x4100, 64, [
  ⟨0x00, 0x01, .fixed 1, .observer, false, false⟩,
  ⟨0x02, 0x02, .range 0 0, .observer, false, false⟩,
  ⟨0x03, 0x04, .fixed 2, .observer, false, false⟩,
  ⟨0x05, 0x06, .fixed 1, .observer, false, false⟩,
  ⟨0x07, 0x07, .range 0 0, .observer, false, false⟩]⟩

/-- Objects 0x4200. -/
def obj4200 : ObjGroup := ⟨0x4200, 1, [
  ⟨0x00, 0x00, .fixed 1, .observer, false, false⟩,
  ⟨0x01, 0x01, .fixed 2, .session, false, false⟩,
  ⟨0x02, 0x03, .range 0 0, .observer, false, false⟩,
  ⟨0x10, 0x10, .range 0 1024, .signed, false, true⟩]⟩

/-- Objects 0x4300. -/
def obj4300 : ObjGroup := ⟨0x4300, 1, [
  ⟨0x00, 0x00, .fixed 1, .observer, false, false⟩,
  ⟨0x01, 0x01, .fixed 2, .session, false, false⟩,
  ⟨0x02, 0x03, .range 0 0, .observer, false, false⟩,
  ⟨0x04, 0x04, .fixed 2, .observer, false, false⟩,
  ⟨0x05, 0x05, .range 0 0, .observer, false, false⟩,
  ⟨0x10, 0x10, .range 0 65536, .operator, false, true⟩,
  ⟨0x12, 0x12, .range 0 0, .observer, false, false⟩]⟩

/-- Objects 0x4400. -/
def obj4400 : ObjGroup := ⟨0x4400, 1, [
  ⟨0x00, 0x00, .fixed 1, .observer, false, false⟩,
  ⟨0x01, 0x01, .fixed 1, .observer, false, false⟩,
  ⟨0x02, 0x02, .fixed 1, .operator, false, false⟩,
  ⟨0x03, 0x03, .fixed 1, .observer, false, false⟩,
  ⟨0x10, 0x10, .range 0 65536, .operator, false, true⟩,
  ⟨0x11, 0x11, .range 0 0, .observer, false, false⟩,
  ⟨0x12, 0x12, .fixed 2, .operator, false, false⟩,
  ⟨0x20, 0x21, .range 0 0, .observer, false, false⟩,
  ⟨0x22, 0x22, .fixed 2, .observer, false, false⟩]⟩

/-- Objects 0x4500. -/
def obj4500 : ObjGroup := ⟨0x4500, 1, [
  ⟨0x00, 0x01, .fixed 1, .observer, false, false⟩,
  ⟨0x02, 0x02, .fixed 2, .observer, false, false⟩,
  ⟨0x03, 0x04, .fixed 1, .observer, false, false⟩,
  ⟨0x05, 0x05, .fixed 2, .observer, false, false⟩,
  ⟨0x06, 0x06, .fixed 1, .observer, false, false⟩,
  ⟨0x07, 0x07, .fixed 4, .observer, false, false⟩,
  ⟨0x08, 0x08, .fixed 2, .observer, false, false⟩,
  ⟨0x09, 0x09, .fixed 4, .observer, false, false⟩,
  ⟨0x0A, 0x0A, .fixed 2, .observer, false, false⟩]⟩

/-- Objects 0x4600. -/
def obj4600 : ObjGroup := ⟨0x4600, 1, [
  ⟨0x00, 0x00, .fixed 1, .observer, false, false⟩,
  ⟨0x01, 0x04, .fixed 4, .observer, false, false⟩,
  ⟨0x05, 0x05, .fixed 1, .observer, false, false⟩,
  ⟨0x06, 0x06, .fixed 4, .observer, false, false⟩,
  ⟨0x07, 0x07, .fixed 2, .observer, false, false⟩]⟩

/-- Objects 0x4800. -/
def obj4800 : ObjGroup := ⟨0x4800, 1, [
  ⟨0x00, 0x01, .fixed 1, .observer, false, false⟩,
  ⟨0x02, 0x02, .fixed 1, .operator, true, false⟩,
  ⟨0x03, 0x03, .fixed 1, .observer, false, false⟩,
  ⟨0x04, 0x04, .fixed 8, .observer, false, false⟩,
  ⟨0x05, 0x05, .fixed 16, .operator, true, false⟩,
  ⟨0x06, 0x06, .range 0 0, .observer, false, false⟩,
  ⟨0x07, 0x07, .fixed 1, .operator, true, false⟩,
  ⟨0x08, 0x09, .fixed 1, .operator, false, false⟩,
  ⟨0x0A, 0x0A, .fixed 2, .observer, false, false⟩,
  ⟨0x0B, 0x0C, .fixed 2, .operator, true, false⟩,
  ⟨0x0D, 0x0D, .fixed 5, .operator, true, false⟩,
  ⟨0x0E, 0x0E, .fixed 2, .operator, true, false⟩,
  ⟨0x10, 0x11, .fixed 4, .observer, false, false⟩,
  ⟨0x12, 0x12, .range 0 0, .observer, false, false⟩]⟩

/-- Objects 0x4801 to 0x4802. -/
def obj4801 : ObjGroup := ⟨0x4801, 2, [
  ⟨0x00, 0x02, .fixed 1, .observer, false, false⟩,
  ⟨0x03, 0x03, .fixed 2, .operator, true, false⟩,
  ⟨0x04, 0x06, .fixed 4, .operator, true, false⟩,
  ⟨0x07, 0x07, .fixed 3, .operator, true, false⟩,
  ⟨0x08, 0x08, .range 0 0, .observer, false, false⟩,
  ⟨0x09, 0x0A, .fixed 4, .observer, false, false⟩,
  ⟨0x0B, 0x0B, .fixed 8, .observer, false, false⟩,
  ⟨0x0C, 0x0C, .fixed 1, .observer, false, false⟩,
  ⟨0x0D, 0x0E, .fixed 4, .observer, false, false⟩,
  ⟨0x0F, 0x0F, .fixed 8, .observer, false, false⟩]⟩

/-- Objects 0x4900. -/
def obj4900 : ObjGroup := ⟨0x4900, 1, [
  ⟨0x00, 0x00, .fixed 1, .observer, false, false⟩,
  ⟨0x01, 0x04, .fixed 4, .observer, false, false⟩,
  ⟨0x05, 0x06, .fixed 4, .operator, true, false⟩,
  ⟨0x07, 0x09, .fixed 4, .observer, false, false⟩,
  ⟨0x0A, 0x0A, .fixed 1, .session, false, false⟩,
  ⟨0x0B, 0x0B, .fixed 4, .operator, true, false⟩,
  ⟨0x0C, 0x0C, .range 0 0, .observer, false, false⟩,
  ⟨0x0D, 0x0D, .fixed 4, .observer, false, false⟩]⟩

/-- Objects 0x4A00. -/
def obj4A00 : ObjGroup := ⟨0x4A00, 1, [
  ⟨0x00, 0x00, .fixed 1, .observer, false, false⟩,
  ⟨0x01, 0x02, .fixed 1, .operator, true, false⟩,
  ⟨0x03, 0x03, .fixed 2, .operator, true, false⟩,
  ⟨0x04, 0x08, .fixed 1, .observer, false, false⟩,
  ⟨0x09, 0x0D, .fixed 4, .observer, false, false⟩,
  ⟨0x0E, 0x0F, .fixed 4, .operator, true, false⟩,
  ⟨0x10, 0x11, .fixed 1, .operator, false, false⟩,
  ⟨0x12, 0x12, .fixed 2, .observer, false, false⟩,
  ⟨0x13, 0x13, .range 0 0, .observer, false, false⟩,
  ⟨0x14, 0x17, .fixed 4, .observer, false, false⟩,
  ⟨0x18, 0x19, .range 0 0, .observer, false, false⟩]⟩

/-- Objects 0x4B00. -/
def obj4B00 : ObjGroup := ⟨0x4B00, 1, [
  ⟨0x00, 0x01, .fixed 1, .observer, false, false⟩,
  ⟨0x02, 0x02, .range 0 0, .observer, false, false⟩,
  ⟨0x03, 0x03, .fixed 1, .operator, false, false⟩,
  ⟨0x04, 0x04, .range 0 256, .signed, false, true⟩,
  ⟨0x05, 0x05, .fixed 4, .observer, false, false⟩,
  ⟨0x06, 0x06, .fixed 1, .observer, false, false⟩,
  ⟨0x07, 0x07, .fixed 4, .observer, false, false⟩,
  ⟨0x08, 0x09, .fixed 8, .observer, false, false⟩,
  ⟨0x0A, 0x0B, .fixed 1, .operator, true, false⟩,
  ⟨0x0C, 0x0D, .fixed 2, .operator, true, false⟩,
  ⟨0x0E, 0x0E, .fixed 1, .operator, false, false⟩,
  ⟨0x10, 0x13, .fixed 4, .observer, false, false⟩]⟩

/-- Objects 0x5000. -/
def obj5000 : ObjGroup := ⟨0x5000, 1, [
  ⟨0x00, 0x00, .fixed 1, .observer, false, false⟩,
  ⟨0x01, 0x01, .fixed 2, .session, false, false⟩,
  ⟨0x02, 0x02, .fixed 8, .session, false, false⟩,
  ⟨0x03, 0x03, .range 0 65536, .window, false, false⟩,
  ⟨0x04, 0x04, .fixed 8, .observer, false, false⟩,
  ⟨0x05, 0x05, .fixed 1, .observer, false, false⟩,
  ⟨0x06, 0x06, .fixed 8, .observer, false, false⟩]⟩

/-- Every group of objects. -/
def objGroups : List ObjGroup :=
  [obj1000, obj1001, obj1003, obj1005, obj1006, obj1010, obj1011, obj1012, obj1014, obj1015, obj1016, obj1017, obj1018, obj1800, obj1A00, obj2000, obj2001, obj2003, obj2020, obj2100, obj2200, obj2201, obj2300, obj2400, obj2500, obj2600, obj2610, obj2611, obj2620] ++
  [obj2680, obj2700, obj2800, obj2900, obj2A00, obj2B00, obj3000, obj3100, obj3200, obj3300, obj3400, obj3500, obj3600, obj3700, obj3800, obj3900, obj4000, obj4100, obj4200, obj4300, obj4400, obj4500, obj4600, obj4800, obj4801, obj4900, obj4A00, obj4B00, obj5000]

/-- The group an index belongs to. -/
def groupOf (idx : Nat) : Option ObjGroup := objGroups.find? fun g => decide (g.base ≤ idx) && decide (idx < g.base + g.count)

/-- What a lookup of an index and sub-index finds (Table 5.10: 0x000E, 0x000F). -/
inductive Lookup where
  | noObject
  | noSub
  | found (r : ObjRow)
  deriving DecidableEq, Repr

/-- Look up an object. (DEDUCED, log 27.) -/
def lookup (idx sub : Nat) : Lookup :=
  match groupOf idx with
  | none => .noObject
  | some g =>
    match g.rows.find? fun r => decide (r.lo ≤ sub) && decide (sub ≤ r.hi) with
    | none => .noSub
    | some r => .found r

/-- A length meets a row's size. -/
def Size.ok : Size → Nat → Bool
  | .fixed n, l => l == n
  | .range lo hi, l => decide (lo ≤ l) && decide (l ≤ hi)

/-- The read-only objects whose Meaning says "per session" (R125): of 0x2100 the staged flag, the ledger's entries and the last
tag, result and delay; the client's own number and level; the latched fraction; the last export; the queue's number, entries
and completions; the bytes a window has moved. -/
def perSession (idx : Nat) (r : ObjRow) : Bool :=
  r.access == .observer &&
    ((idx == 0x2100 && (r.lo == 2 || r.lo == 4 || r.lo == 5 || r.lo == 0x0A)) ||
      (idx == 0x2200 && (r.lo == 0x11 || r.lo == 0x13)) || (idx == 0x2680 && r.lo == 2) || (idx == 0x4300 && r.lo == 0x12) ||
      (idx == 0x4400 && (r.lo == 1 || r.lo == 3 || r.lo == 0x11)) || (idx == 0x5000 && r.lo == 6))

/-- Writes of an object need no request tag (R125). -/
def tagExempt (idx : Nat) (r : ObjRow) : Bool :=
  decide (idx < 0x2000) || (idx == 0x2100 && r.lo == 1) || r.access == .session || r.access == .client || perSession idx r

/-- The owning island of an object (Table 1.11). -/
def ownerOf (idx sub : Nat) : Nat :=
  if idx < 0x2000 then 0
  else if idx = 0x2100 ∨ idx = 0x2200 ∨ idx = 0x2201 ∨ idx = 0x2000 ∨ idx = 0x2300 ∨ idx = 0x2B00 ∨ idx = 0x5000 then 0
  else if idx = 0x2001 ∨ idx = 0x2003 ∨ idx = 0x2400 ∨ idx = 0x2600 ∨ idx = 0x2700 ∨ idx = 0x2800 ∨ idx = 0x2900 ∨ idx = 0x4500 then 1
  else if idx = 0x2020 then (if sub ≤ 5 then 1 else 2)
  else if idx = 0x4600 then 4
  else if (0x4000 ≤ idx ∧ idx ≤ 0x4400) ∨ idx = 0x4B00 then 3
  else 2

/-- A sub-index that holds a constant, which no island has to report. -/
def constantSub (idx sub : Nat) : Bool :=
  sub == 0 || (decide (0x3200 ≤ idx) && decide (idx ≤ 0x320F) && sub == 4) || (idx == 0x4900 && (sub == 4 || sub == 7))

/-- The source island of a sub-index that reports live state or counts (Table 1.11): the read-only,
not per-session sub-indices of the CI-owned groups that are no constants. -/
def sourceOf (idx sub : Nat) (r : ObjRow) : Option Nat :=
  if constantSub idx sub ∨ r.access ≠ .observer then (if idx = 0x5000 ∧ sub = 3 then some 8 else none)
  else if 0x2610 ≤ idx ∧ idx ≤ 0x2680 then some 6
  else if 0x3000 ≤ idx ∧ idx ≤ 0x303F then (if sub ≤ 6 then some 6 else if sub ≤ 9 then some 5 else some 7)
  else if 0x3400 ≤ idx ∧ idx ≤ 0x340F ∨ idx = 0x3600 then some 6
  else if 0x3100 ≤ idx ∧ idx ≤ 0x320F ∨ idx = 0x3300 ∨ idx = 0x3500 then some 5
  else if idx = 0x3700 then (if sub = 0x0D then some 3 else some 5)
  else if idx = 0x3800 then some 7
  else if idx = 0x3900 then some 9
  else if 0x4800 ≤ idx ∧ idx ≤ 0x4900 then some 8
  else if idx = 0x4A00 then some 10
  else none

end Sys2Proof.Machine
end

