-- ==== Sys2Proof/Machine/Operands.lean ====
section
/-! DEFINITION. The operand forms of the commands: paths and their limits, and the numbers that buses, windows, islands,
rails, sensors and store ranges have in objects, records and masks. -/

namespace Sys2Proof.Machine

/-- The most bytes one request moves: 65,536 over USDO, 4096 over SPI (R122). -/
def pathLimit : Path → Nat
  | .can _ _ => 65536
  | .spi _ => 4096

/-- The path is the SPI port. -/
def pathSpi : Path → Bool
  | .spi _ => true
  | .can _ _ => false

/-- The client a nonce is bound to, whichever bus a CAN client uses (R118, R120). -/
def clientPath : Path → Path
  | .can _ c => .can .canA c
  | .spi _ => .spi 0

/-- The bytes an SPI frame asks of a window are outside 4 to 4096 (Table 5.3, R133). -/
def spiCountBad (p : Path) (len : Nat) : Bool :=
  match p with
  | .can _ _ => false
  | .spi _ => len == 0 || decide (4096 < len)

/-- The index of a window. -/
def windowIndex : Window → Nat
  | .main => 0x5000
  | .program q => 0x3200 + q.val

/-- The number of a bus. -/
def busNo : Bus → Nat
  | .canA => 0
  | .canB => 1

/-- The bus of a unit of the HI. -/
def busOf (u : Nat) : Bus := if u = 0 then .canA else .canB

/-- The number of an island (R16). -/
def islandNo : Island → Nat
  | .hi => 0 | .ao => 1 | .ci => 2 | .si => 3 | .vi => 4 | .sq => 5 | .ti => 6 | .aq => 7 | .mi => 8 | .lv => 9 | .cl => 10

/-- The code of an access kind in an access-refused record (Table 19.3). -/
def kindCode : AccessKind → Nat
  | .read => 0 | .write => 1 | .execute => 2

/-- The bit of a rail in 0x2003:05. -/
def railBit : Rail → Nat
  | .vddCore => 0 | .vddSec => 1 | .vddPll => 2 | .vddqDram => 3 | .vddIo18 => 4 | .vddIo33 => 5 | .vddAo => 6 | .vbat => 7

/-- The bit of a rail in 0x2001:04. -/
def presentBit : Rail → Option Nat
  | .vddIo18 => some 0 | .vddIo33 => some 1 | .vddqDram => some 2 | .vddAo => some 3 | .vbat => some 4 | _ => none

/-- The bit of a sensor in the response mask (R199). -/
def sensorBit : Sensor → Nat
  | .supply => 0
  | .temperature => 1
  | .clock => 2
  | .light => 3

/-- The range a sub-index of 0x1010 or 0x1011 names. -/
def rangeOf (sub : Nat) : StoreRange := match sub with | 1 => .all | 2 => .communication | _ => .device

/-- Indices a range covers (R123). -/
def inRange (g : StoreRange) (idx : Nat) : Bool :=
  match g with
  | .all => true
  | .communication => decide (idx < 0x2000)
  | .device => decide (0x2000 ≤ idx)

/-- The sub-index of a range. -/
def rangeSub : StoreRange → Nat
  | .all => 1
  | .communication => 2
  | .device => 3

end Sys2Proof.Machine
end

