-- ==== Sys2Proof/Machine/Sha.lean ====
section
/-! DEFINITION. SHA-256, SHA-384 (FIPS 180-4) and HMAC (FIPS 198-1), which R127, R211 and R228 name by
their standards: the algorithms are PRESUMED from those standards (log 7). Words are naturals below
2^32 or 2^64. -/

namespace Sys2Proof.Machine

/-- Rotate a `w`-bit word right. -/
def rotr (w n x : Nat) : Nat := (x >>> n) ||| ((x <<< (w - n)) % 2 ^ w)

/-- The constants in which SHA-256 and SHA-512 differ: word bits, bytes of a block, the rotations of the
two message functions and the two round functions, and the round constants. -/
structure ShaKind where
  w : Nat
  blk : Nat
  s0 : Nat × Nat × Nat
  s1 : Nat × Nat × Nat
  b0 : Nat × Nat × Nat
  b1 : Nat × Nat × Nat
  ks : List Nat

/-- Towards the integer `e`-th root of `n` from above, by Newton's step. -/
def rootFrom (e n : Nat) : Nat → Nat → Nat
  | 0, x => x
  | k + 1, x => rootFrom e n k (min x (((e - 1) * x + n / x ^ (e - 1)) / e))

/-- The first `w` bits behind the point of the `e`-th root of `p`, a root below 8. -/
def rootBits (e w p : Nat) : Nat := rootFrom e (p * 2 ^ (e * w)) 16 (2 ^ (w + 3)) % 2 ^ w

/-- The primes up to 409, which are the first eighty. -/
def shaPrimes : List Nat := (List.range 410).filter fun n => decide (2 ≤ n) && (List.range 21).all fun d => decide (d < 2) || n % d != 0 || d == n

/-- The round constants: the cube roots' fractions of the first `n` primes (FIPS 180-4). -/
def shaConstants (w n : Nat) : List Nat := (shaPrimes.take n).map (rootBits 3 w)

/-- SHA-256. -/
def sha256Kind : ShaKind := ⟨32, 64, (7, 18, 3), (17, 19, 10), (2, 13, 22), (6, 11, 25), shaConstants 32 64⟩
/-- SHA-512, which SHA-384 truncates. -/
def sha512Kind : ShaKind := ⟨64, 128, (1, 8, 7), (19, 61, 6), (28, 34, 39), (14, 18, 41), shaConstants 64 80⟩

/-- The message function: two rotations and a shift. -/
def shaSigma (k : ShaKind) (r : Nat × Nat × Nat) (x : Nat) : Nat := rotr k.w r.1 x ^^^ rotr k.w r.2.1 x ^^^ (x >>> r.2.2)
/-- The round function: three rotations. -/
def shaSum (k : ShaKind) (r : Nat × Nat × Nat) (x : Nat) : Nat := rotr k.w r.1 x ^^^ rotr k.w r.2.1 x ^^^ rotr k.w r.2.2 x

/-- Extend the schedule, held newest first, by `n` words. -/
def shaSchedule (k : ShaKind) : Nat → List Nat → List Nat
  | 0, l => l
  | n + 1, l =>
    let x := (shaSigma k k.s1 (l.getD 1 0) + l.getD 6 0 + shaSigma k k.s0 (l.getD 14 0) + l.getD 15 0) % 2 ^ k.w
    shaSchedule k n (x :: l)

/-- The eight working words. -/
structure ShaState where
  a : Nat
  b : Nat
  c : Nat
  d : Nat
  e : Nat
  f : Nat
  g : Nat
  h : Nat
  deriving DecidableEq, Repr

/-- One round with a schedule word and a constant. -/
def shaRound (k : ShaKind) (x : ShaState) (wk : Nat × Nat) : ShaState :=
  let ch := (x.e &&& x.f) ^^^ ((2 ^ k.w - 1 - x.e) &&& x.g)
  let maj := (x.a &&& x.b) ^^^ (x.a &&& x.c) ^^^ (x.b &&& x.c)
  let t1 := x.h + shaSum k k.b1 x.e + ch + wk.2 + wk.1
  let t2 := shaSum k k.b0 x.a + maj
  ⟨(t1 + t2) % 2 ^ k.w, x.a, x.b, x.c, (x.d + t1) % 2 ^ k.w, x.e, x.f, x.g⟩

/-- The words of a block, most significant byte first. -/
def beWords (n : Nat) : Nat → Bytes → List Nat
  | 0, _ => []
  | m + 1, b => beNat (b.take n) :: beWords n m (b.drop n)

/-- One block. -/
def shaBlock (k : ShaKind) (x : ShaState) (blk : Bytes) : ShaState :=
  let ws := (shaSchedule k (k.ks.length - 16) (beWords (k.w / 8) 16 blk).reverse).reverse
  let y := (ws.zip k.ks).foldl (shaRound k) x
  let add (p q : Nat) := (p + q) % 2 ^ k.w
  ⟨add x.a y.a, add x.b y.b, add x.c y.c, add x.d y.d, add x.e y.e, add x.f y.f, add x.g y.g, add x.h y.h⟩

/-- `n` blocks in order. -/
def shaBlocks (k : ShaKind) : Nat → ShaState → Bytes → ShaState
  | 0, x, _ => x
  | n + 1, x, b => shaBlocks k n (shaBlock k x (b.take k.blk)) (b.drop k.blk)

/-- The padded message. -/
def shaPad (k : ShaKind) (m : Bytes) : Bytes :=
  let lenBytes := k.blk / 8
  let z := (k.blk - (m.length + 1 + lenBytes) % k.blk) % k.blk
  m ++ [0x80] ++ List.replicate z 0 ++ be lenBytes (8 * m.length)

/-- The digest words. (PRESUMED, log 7.) -/
def shaRun (k : ShaKind) (iv : ShaState) (m : Bytes) : Bytes :=
  let p := shaPad k m
  let x := shaBlocks k (p.length / k.blk) iv p
  [x.a, x.b, x.c, x.d, x.e, x.f, x.g, x.h].flatMap (be (k.w / 8))

/-- The first working words: the square roots' fractions of the eight primes after the first `from_` (FIPS 180-4). -/
def shaStart (w from_ : Nat) : ShaState :=
  let v (i : Nat) := rootBits 2 w (shaPrimes.getD (from_ + i) 2)
  ⟨v 0, v 1, v 2, v 3, v 4, v 5, v 6, v 7⟩

/-- SHA-256. -/
def sha256 (m : Bytes) : Bytes := shaRun sha256Kind (shaStart 32 0) m

/-- SHA-384. -/
def sha384 (m : Bytes) : Bytes := (shaRun sha512Kind (shaStart 64 8) m).take 48

/-- HMAC with a hash of block size `blk`. -/
def hmac (hash : Bytes → Bytes) (blk : Nat) (key m : Bytes) : Bytes :=
  let k := pad blk (if key.length > blk then hash key else key)
  hash (k.map (· ^^^ 0x5C) ++ hash (k.map (· ^^^ 0x36) ++ m))

/-- HMAC-SHA-256. -/
def hmac256 (key m : Bytes) : Bytes := hmac sha256 64 key m
/-- HMAC-SHA-384. -/
def hmac384 (key m : Bytes) : Bytes := hmac sha384 128 key m

end Sys2Proof.Machine
end

