-- ==== Sys2Proof/Machine/HostPath.lean ====
section
/-! DEFINITION. The way of a host request through the object-dictionary engine: the eight steps of R31
with sessions (R118, R119), access levels (R117), request tags and the ledger (R125 to R131), the
availability of the owner (R74) and the answer. -/

namespace Sys2Proof.Machine

/-- The level of Table 5.6, byte 0. -/
def Level.code : Level → Nat
  | .observer => 1 | .operator => 2 | .vendor => 4

/-- The rank of a level: vendor is above operator, operator above observer (R117). -/
def Level.rank : Level → Nat
  | .observer => 0 | .operator => 1 | .vendor => 2

/-- A window data object (R133). -/
def isWindowData (idx sub : Nat) : Bool :=
  decide (sub = 3) && (decide (idx = 0x5000) || (decide (0x3200 ≤ idx) && decide (idx < 0x3210)))

/-- The session that a path's client holds: 0 for none (R118). -/
def Chip.sessionAt (s : Chip) : Path → Nat
  | .can _ c =>
    match List.find? (fun x => !x.2.isSpi && x.2.client == c.toNat) s.host.sessions with
    | some x => x.1
    | none => 0
  | .spi n =>
    match SMap.find? s.host.sessions n.toNat with
    | some x => if x.isSpi then n.toNat else 0
    | none => 0

/-- A request arrives: a controller off its bus, NMT stopped, or an HI that is not online takes nothing
(R74, R109, R110); an SPI frame takes a port entry or is discarded whole (R114). -/
def Chip.arrive (p : Path) (tag : Word16) (idx sub : Nat) (s : Chip) : Chip × Option Target :=
  if s.host.online = false then (s, none)
  else
    let n := s.sessionAt p
    let t : Target := { path := p, index := idx, sub := sub, session := n, tag := tag, serial := (SMap.get s.host.sessions {} n).serial }
    let touched (s : Chip) : Chip := s.modSession n fun x =>
      { x with lastReq := s.clk.ticks, bus := match p with | .can b _ => b | .spi _ => x.bus }
    match p with
    | .can b _ => if s.onBus b = false ∨ s.host.nmt = .stopped then (s, none) else (touched s, some t)
    | .spi b =>
      let port := s.host.spi
      if port.entries.length ≥ 8 then
        ((s.modSpi fun q => { q with discarded := true, discards := satAdd 32 q.discards 1 }).count 3, none)
      else
        let e : SpiEntry := { id := port.nextId, session := b.toNat, tag := tag, index := idx, sub := sub }
        (touched (s.modSpi fun q => { q with entries := q.entries ++ [e], nextId := q.nextId + 1 }),
          some { t with entry := port.nextId })

/-- The objects the reduced service serves (R159): in Scrapped the last group only; in Locked, and after a
failed boot, the first as well. -/
def reducedServes (scrapped : Bool) (idx sub : Nat) : Bool :=
  (decide (0x1000 ≤ idx) && decide (idx < 0x2000)) || idx == 0x2000 || idx == 0x2200 || idx == 0x2900 ||
    (if scrapped then idx == 0x2400 && sub == 1
     else idx == 0x2001 || idx == 0x2003 || idx == 0x2400 || idx == 0x2500)

/-- The device gives its reduced service only (R75, R159). -/
def Chip.reduced (s : Chip) : Bool :=
  s.power.phase == .reduced || s.life.state == .locked || s.life.state == .scrapped

/-- The reduced service leaves this object unserved (R159). -/
def Chip.unserved (s : Chip) (idx sub : Nat) : Bool :=
  s.reduced && !reducedServes (s.life.state == .scrapped) idx sub

/-- An object of a retired DRAM channel: its requests are answered with not in service, but for those that read its state
(R390). (DESIGN CHOICE, log 135.) -/
def Chip.retiredObject (s : Chip) (idx sub : Nat) : Bool :=
  (idx == 0x4801 || idx == 0x4802) && decide (1 < sub) && (s.dramCh (idx - 0x4801)).state == .retired

/-- Whether the owner's state lets a request through, by R74: 0, or the result code. (DESIGN CHOICE, log 61.) (DEDUCED, log 103.) -/
def Chip.availability (s : Chip) (owner : Nat) (src : Option Nat) (write : Bool) (unitFault : Bool) : Nat :=
  let srcBad : Bool := match src with
    | some i => s.island i == .off || s.island i == .resetting
    | none => false
  if srcBad then 0x0004
  else match s.island owner with
    | .running => 0
    | .loading => if write then 0x0004 else 0
    | .reseatPending => if write then 0x0008 else 0
    | .faulted => if write ∧ unitFault = false then 0x0004 else 0
    | _ => 0x0004

/-- The island whose registers an object of a CI-owned group writes over CH_19 (Table 1.11). -/
def groupIsland (idx : Nat) : Option Nat :=
  if 0x2610 ≤ idx ∧ idx ≤ 0x2680 ∨ 0x3400 ≤ idx ∧ idx ≤ 0x340F ∨ idx = 0x3600 then some 6
  else if 0x3100 ≤ idx ∧ idx ≤ 0x320F ∨ idx = 0x3300 ∨ idx = 0x3500 then some 5
  else if idx = 0x3800 then some 7
  else if 0x4800 ≤ idx ∧ idx ≤ 0x4900 then some 8
  else if idx = 0x3900 then some 9
  else if idx = 0x4A00 then some 10
  else none

/-- The unit an object belongs to: a sequencer, a PLL or a DRAM channel. (DEDUCED, log 103.) -/
def objectUnit (idx : Nat) : Option (Nat × Nat) :=
  if 0x3100 ≤ idx ∧ idx ≤ 0x320F then some (5, idx % 16)
  else if 0x3400 ≤ idx ∧ idx ≤ 0x340F then some (5, idx % 16)
  else if idx = 0x2610 ∨ idx = 0x2611 then some (6, idx % 16)
  else if idx = 0x4801 ∨ idx = 0x4802 then some (8, idx % 16 - 1)
  else none

/-- The request needs its unit itself: a sequencer's arm, launch, stop and program window, a PLL's apply and clock-output
commands; every other sub-index the CI holds for the unit (R525). -/
def needsUnit (idx sub : Nat) : Bool :=
  (decide (0x3100 ≤ idx) && decide (idx ≤ 0x310F) && (sub == 2 || sub == 3 || sub == 4)) ||
    (decide (0x3200 ≤ idx) && decide (idx ≤ 0x320F) && sub == 3) || (idx == 0x2611 && sub == 5)

/-- A new request addressed to an island or unit that drains is answered with island re-seating (R484). While a unit
loads or is faulted, the CI holds its sub-indices readable and writable (R525), and a request that needs the unit
itself is answered with not running (R485). (DEDUCED, log 103.) -/
def Chip.reseatCode (s : Chip) (idx sub : Nat) : Nat :=
  if s.retiredObject idx sub then 0x8005
  else if (groupIsland idx).any fun i => s.island i == .reseatPending then 0x0008
  else match objectUnit idx with
    | none => 0
    | some (i, u) =>
      match s.reseat.runs.find? fun r => r.island == i && r.unit == u with
      | none => 0
      | some r => if r.phase = .draining then 0x0008 else if needsUnit idx sub then 0x0004 else 0

/-- A partition of the running image is stopped: after a fault, under restart or replacement (R164, R454, R488). -/
def Partition.stopped (p : Partition) : Bool := p.present && !p.running

/-- The partition that serves a CI-owned object is stopped, and its requests are answered with 0x2005 (R171, R488).
(DESIGN CHOICE, log 105.) -/
def Chip.partitionStopped (s : Chip) (idx sub : Nat) : Bool :=
  decide (ownerOf idx sub = 2) && (s.ci.partitions.any fun p => p.2.stopped) && (s.part (Config.objectPartition idx sub)).stopped

/-- What the steps before the owner's own answer decide. -/
inductive Gate where
  /-- The handling ends; the state holds its whole effect. -/
  | stop (s : Chip)
  /-- The request reaches its owner (step 6). -/
  | go (r : Req) (s : Chip)

/-- A refusal at steps 1 to 5 or by R74: answered, and shown in 0x2100:06 for a write that required a
tag; it leaves no entry (R129). -/
def Chip.refuse (t : Target) (code : Nat) (delay : Nat) (s : Chip) : Chip :=
  (s.modOwn t fun x =>
    { x with lastResult := if t.tagged then BitVec.ofNat 16 code else x.lastResult
             retryDelay := if code = 1 then delay else x.retryDelay }).answer t code [] delay

/-- A refusal after an entry was opened: the entry goes (R129). -/
def Chip.refuseOpened (t : Target) (code : Nat) (delay : Nat) (s : Chip) : Chip :=
  (s.modOwn t fun x =>
    { x with ledger := if t.tagged then x.ledger.filter (fun e => !e.inProgress) else x.ledger
             busy := if t.tagged then false else x.busy }).refuse t code delay

/-- The session's level meets an object's access (R117), or the code of step 3. -/
def accessCode (a : Access) (l : Level) : Nat :=
  match a with
  | .observer => 0x0010
  | .session => 0
  | .client => 0
  | .window => 0
  | .operator => if l.rank ≥ 1 then 0 else 0x000C
  | .signed => if l.rank ≥ 1 then 0 else 0x000C
  | .vendor => if l.rank ≥ 2 then 0 else 0x000C

/-- The request digest of R127. -/
def requestDigest (idx sub offset : Nat) (payload : Bytes) : Bytes :=
  (sha256 (le 2 idx ++ le 1 sub ++ le 4 payload.length ++ le 8 offset ++ payload)).take 8

/-- The longest time of an arm, µs: 2 ms and 5 µs for each KiB of resident data and ring (Table 9.6). -/
def Seq.armUs (x : Seq) : Nat := 2000 + 5 * x.share

/-- The completion time that its chapter states for the operation of a CI request, µs: an arm's, and the 250 ms of a store
(R123); 1 ms for an operation of no stated time (R136). -/
def Chip.requestUs (s : Chip) (q : CiReq) : Nat :=
  if 0x3100 ≤ q.dest.index ∧ q.dest.index < 0x3110 ∧ q.dest.sub = 2 ∧ q.payload = [1] then (s.sq (q.dest.index - 0x3100)).armUs
  else if q.dest.index = 0x1010 ∧ q.reading = false then 250000
  else 1000

/-- The CI requests not yet answered: entry tick and completion time in µs of those in CH_01 and of the arms the CI
executes (R136). -/
def Chip.ciRequests (s : Chip) : List (Nat × Nat) :=
  (s.seqs.filterMap fun e => if e.2.armWaiter.isSome then some (e.2.armAt, e.2.armUs) else none) ++
    s.host.ch01.map fun q => (q.at_, s.requestUs q)

/-- The retry delay at a full CH_01: the expected time until the oldest CI request is answered, less the time it has
spent, in whole ms (R136). -/
def Chip.ch01Delay (s : Chip) : Nat :=
  match s.ciRequests with
  | [] => 1
  | q :: l =>
    let o := l.foldl (fun a b => if b.1 < a.1 then b else a) q
    clamp 1 1000 (ceilDiv (400 * o.2 - (s.clk.ticks - o.1)) 400000)

/-- Step 6's beginning: the availability of the owner (R74), and CH_01 while the cores are halted by
debug, which takes no request out of it (R22, R136; log 9). -/
def Chip.dispatch (t : Target) (l : Level) (payload : Bytes) (row : ObjRow) (s : Chip) : Gate :=
  let owner := ownerOf t.index t.sub
  let code := if s.unserved t.index t.sub then 0x0004
    else match s.availability owner (sourceOf t.index t.sub row) true (s.unitFaulted owner) with
      | 0 => if s.partitionStopped t.index t.sub then 0x2005 else s.reseatCode t.index t.sub
      | c => c
  if code = 0x0008 ∨ code = 0x2005 ∨ code = 0x8005 then .stop (s.complete t code [] 0)
  else if code ≠ 0 then .stop (s.refuseOpened t code 0)
  else if owner = 2 ∧ s.ci.halted then
    if s.host.ch01.length ≥ 16 then .stop ((s.refuseOpened t 0x0001 s.ch01Delay).count 2)
    else .stop (s.modHost fun h => { h with ch01 := h.ch01 ++ [{ dest := t, level := l, payload := payload, at_ := s.clk.ticks }] })
  else .go ⟨t, l⟩ s

/-- The tag of a write: the session's staged one over CAN, the frame's over SPI (R126). (DESIGN CHOICE, log 121.) -/
def Target.stagedTag (t : Target) (x : Session) : Option Word16 :=
  match t.path with
  | .can _ _ => x.staged
  | .spi _ => some t.tag

/-- A write over CAN uses the staged tag up (R126). (DESIGN CHOICE, log 121.) -/
def Chip.unstage (t : Target) (s : Chip) : Chip :=
  match t.path with
  | .can _ _ => s.modSession t.session fun y => { y with staged := none }
  | .spi _ => s

/-- The digest of a write to a target: a window data object's counts its offset (R127). -/
def Chip.digestOf (t : Target) (payload : Bytes) (s : Chip) : Bytes :=
  requestDigest t.index t.sub (if isWindowData t.index t.sub then s.sel t.session t.index 2 else 0) payload

/-- A completed entry answers its request again: the result, its data, and for a window data object its
offset (R128). -/
def Chip.replay (t : Target) (e : LedgerEntry) (s : Chip) : Chip :=
  let s := (s.modHost fun h => { h with replays := satAdd 32 h.replays 1 }).modSession t.session fun y =>
    { y with lastResult := e.result }
  (if isWindowData t.index t.sub ∧ e.data.length = 8 then s.setSel t.session t.index 2 (leNat e.data) else s).answer t e.result.toNat e.data 0

/-- A write with its tag meets the ledger: the lookup of R128, the one request in progress of R131, and
the opening of an entry. -/
def Chip.ledgerLookup (t : Target) (x : Session) (payload : Bytes) (s : Chip) : Chip ⊕ (Target × Chip) :=
  match x.ledger.find? fun e => e.tag == t.tag with
  | some e =>
    if e.digest ≠ s.digestOf t payload then
      .inl ((s.modHost fun h => { h with conflicts := satAdd 32 h.conflicts 1 }).refuse t 0x0009 0)
    else if e.inProgress then
      .inl (s.modSession t.session fun y =>
        { y with ledger := y.ledger.map fun e => if e.inProgress then { e with copies := e.copies ++ [t] } else e })
    else .inl (s.replay t e)
  | none =>
    if x.busy then .inl ((s.refuse t 0x0001 1).count 1)
    else
      .inr (t, s.modSession t.session fun y =>
        { y with busy := true, lastTag := t.tag
                 ledger := { tag := t.tag, digest := s.digestOf t payload, index := t.index, sub := t.sub, inProgress := true } :: y.ledger })

/-- Step 4 for a write that requires a tag: the staged tag or the frame's (R126), then the ledger. -/
def Chip.ledgerStep (t : Target) (x : Session) (payload : Bytes) (s : Chip) : Chip ⊕ (Target × Chip) :=
  match t.stagedTag x with
  | none => .inl ((s.unstage t).refuse t 0x000A 0)
  | some tag => (s.unstage t).ledgerLookup { t with tag := tag } x payload

/-- An index whose writes carry a tag unless its object is exempt (R125). -/
def deviceIndex (idx : Nat) : Bool := decide (0x2000 ≤ idx) && decide (idx < 0x6000)

/-- Steps 1 to 6 of R31 for a write. `chk` is the value and range check of step 5 (0, or its code); `note` is what a
refusal there leaves besides (R134). -/
def gate (p : Path) (tag : Word16) (idx sub : Nat) (payload : Bytes) (chk : Req → Chip → Nat) (s : Chip)
    (note : Req → Nat → Chip → Chip := fun _ _ s => s) : Gate :=
  match s.arrive p tag idx sub with
  | (s, none) => .stop s
  | (s, some t) =>
    let isClient := idx = 0x2200 ∧ (sub = 0x02 ∨ sub = 0x10)
    if t.session = 0 ∧ ¬ isClient then .stop (s.refuse t 0x000B 0)
    else match lookup idx sub with
      | .noObject => .stop (s.refuse { t with tagged := deviceIndex idx } 0x000E 0)
      | .noSub => .stop (s.refuse { t with tagged := deviceIndex idx } 0x000F 0)
      | .found row =>
        let x := SMap.get s.host.sessions {} t.session
        let t := { t with tagged := !tagExempt idx row }
        let acc := accessCode row.access x.level
        if acc ≠ 0 then .stop (s.refuse t acc 0)
        else
          match (if t.tagged then s.ledgerStep t x payload else .inr (t, s)) with
          | .inl s => .stop s
          | .inr (t, s) =>
            let r : Req := ⟨t, x.level⟩
            let code := if row.size.ok payload.length = false ∨ pathLimit p < payload.length then 0x0012 else chk r s
            if code ≠ 0 then .stop ((note r code s).refuseOpened t code 0)
            else s.dispatch t x.level payload row

/-- A host write (R31): the steps to the owner, the owner's answer, the ledger and the answer. -/
def hostWrite (p : Path) (tag : Word16) (idx sub : Nat) (payload : Bytes) (chk : Req → Chip → Nat)
    (act : Req → Chip → Chip × Reply) (s : Chip) : Chip :=
  match gate p tag idx sub payload chk s with
  | .stop s => s
  | .go r s => Chip.finish r.dest (act r s)

/-- A command: a host write of a fixed value, which step 5 passes. -/
def hostCommand (p : Path) (tag : Word16) (idx sub : Nat) (payload : Bytes)
    (act : Req → Chip → Chip × Reply) (s : Chip) : Chip :=
  hostWrite p tag idx sub payload (fun _ _ => 0) act s

/-- What a read answers. -/
inductive ReadReply where
  | data (b : Bytes)
  | refused (code : Nat)
  /-- The data comes later; the read is in progress (R131). -/
  | later
  deriving DecidableEq, Repr

/-- A read that moves a per-session position, and so counts as a request in progress (R131). -/
def movesPosition (idx sub : Nat) : Bool := isWindowData idx sub || (idx == 0x2900 && sub == 3) || (idx == 0x2A00 && sub == 6)

/-- Send the answer of a read. -/
def Chip.sendRead (t : Target) (code : Nat) (d : Bytes) (s : Chip) : Chip :=
  match t.path with
  | .can b c => s.sendUsdo b c code (.readAnswer t.path t.index t.sub (BitVec.ofNat 16 code) d)
  | .spi _ =>
    (s.modSpi fun q => q.complete t.entry t.session code d).emit (.readAnswer t.path t.index t.sub (BitVec.ofNat 16 code) d)

/-- What becomes of a read: it is answered, or its session has it in progress. -/
def Chip.answerRead (t : Target) (r : ReadReply) (s : Chip) : Chip :=
  match r with
  | .data b => s.sendRead t 0 b
  | .refused c => s.sendRead t c (if c = 1 then le 2 1 else [])
  | .later => s.modOwn t fun x => { x with busy := true }

/-- A read in progress is answered; that of an ended session is discarded (R121). -/
def Chip.completeRead (t : Target) (code : Nat) (d : Bytes) (s : Chip) : Chip :=
  if t.session = 0 then s.sendRead t code d
  else if (s.sessionOf t).isSome then (s.modOwn t fun x => { x with busy := !movesPosition t.index t.sub && x.busy }).sendRead t code d
  else s.freeEntry t

/-- A read of a CI-owned object enters CH_01 while the cores are halted, or meets it full; one that moves a position is
then its session's request in progress (R22, R131, R136; log 9). -/
def Chip.queueRead (t : Target) (l : Level) (payload : Bytes) (s : Chip) : Chip :=
  if s.host.ch01.length ≥ 16 then ((s.modOwn t fun y => { y with retryDelay := s.ch01Delay }).count 2).sendRead t 1 (le 2 s.ch01Delay)
  else (s.modHost fun h => { h with ch01 := h.ch01 ++ [{ dest := t, level := l, payload := payload, reading := true, at_ := s.clk.ticks }] }).modOwn t
    fun y => { y with busy := movesPosition t.index t.sub || y.busy }

/-- A host read: frame, session, existence, write-only, one-in-progress and availability checks (R31, R74, R117, R119, R131),
then the owner's answer. -/
def hostRead (p : Path) (tag : Word16) (idx sub : Nat) (act : Req → Chip → Chip × ReadReply) (s : Chip) : Chip :=
  match s.arrive p tag idx sub with
  | (s, none) => s
  | (s, some t) =>
    if t.session = 0 ∧ isWindowData idx sub then s.answerRead t (.refused 0x000B)
    else match lookup idx sub with
      | .noObject => s.answerRead t (.refused 0x000E)
      | .noSub => s.answerRead t (.refused 0x000F)
      | .found row =>
        let x := SMap.get s.host.sessions {} t.session
        let owner := ownerOf idx sub
        let av := if s.unserved idx sub then 0x0004
          else s.availability owner (sourceOf idx sub row) false (s.unitFaulted owner)
        let moves := movesPosition idx sub
        if row.writeOnly then s.answerRead t (.refused 0x0011)
        else if moves ∧ x.busy then ((s.modSession t.session fun y => { y with retryDelay := 1 }).count 1).answerRead t (.refused 1)
        else if av ≠ 0 then s.answerRead t (.refused av)
        else if s.partitionStopped idx sub then s.answerRead t (.refused 0x2005)
        else if s.retiredObject idx sub then s.answerRead t (.refused 0x8005)
        else if owner = 2 ∧ s.ci.halted then s.queueRead t x.level []
        else
          let y := act ⟨t, x.level⟩ s
          y.1.answerRead t y.2

end Sys2Proof.Machine
end

