-- ==== Sys2Proof/Machine/Memory.lean ====
section
/-! DEFINITION. The addressed memories: the DRAM's usable space and its window regions (R362 to R365), and
user flash (R160). -/

namespace Sys2Proof.Machine

/-- The canonical form of a memory whose unlisted bytes read as `d`: addresses strictly rising, and no entry
equal to `d`, so that equal memories are equal data. -/
abbrev Memory.wf (d : Byte) (m : SMap Byte) : Prop := SMap.sorted m = true ∧ ∀ c ∈ m, c.2 ≠ d

/-- One MiB. -/
def mib : Nat := 1048576

/-- Size of a window region in bytes, 0 for no region (Table 14.2). -/
def Chip.regionSize (s : Chip) (r : Nat) : Nat :=
  if r = 5 then 4 * mib else if 1 ≤ r ∧ r ≤ 4 then s.dram.layout.getD (r - 1) 0 * mib else 0

/-- Base of a region in the usable space: regions in table order without gaps (R363). -/
def Chip.regionBase (s : Chip) (r : Nat) : Nat := ((List.range (r - 1)).map fun i => s.regionSize (i + 1)).sum

/-- Usable-space offset 0 to U: 7/8 of the installed capacity in service (R362). -/
def Chip.usable (s : Chip) : Nat :=
  ((List.range 2).map fun c => if s.dram.inService.getLsbD c then (s.dramCh c).gib * 1073741824 else 0).sum * 7 / 8

/-- The channel that serves a usable-space offset (R362). -/
def Chip.channelOf (s : Chip) (off : Nat) : Nat :=
  if s.dram.inService = 3 then off / 256 % 2 else if s.dram.inService.getLsbD 0 then 0 else 1

/-- Bytes of the usable space. (DESIGN CHOICE, log 36.) -/
def Chip.dramRead (s : Chip) (off n : Nat) : Bytes := s.dram.bytes.read 0 off n

/-- Write bytes of the usable space; a burst written whole has valid check bytes again (R366). -/
def Chip.dramWrite (off : Nat) (b : Bytes) (s : Chip) : Chip :=
  s.modDram fun d =>
    { d with
      bytes := d.bytes.write 0 off b
      badBursts := d.badBursts.filter fun k => decide (64 * k < off) || decide (off + b.length < 64 * k + 64) }

/-- Bytes of a region. -/
def Chip.regionRead (s : Chip) (r off n : Nat) : Bytes := s.dramRead (s.regionBase r + off) n

/-- Write bytes of a region. -/
def Chip.regionWrite (r off : Nat) (b : Bytes) (s : Chip) : Chip := s.dramWrite (s.regionBase r + off) b

/-- The DRAM serves requests: the MI runs with one or two channels (Table 14.7). -/
def Chip.dramServes (s : Chip) : Bool := s.runs 8 && !s.clk.refLost && (s.dram.mode == .twoChannels || s.dram.mode == .oneChannel || s.dram.mode == .retiring)

/-- The address within its channel of a usable-space offset: the interleave removed (R362) and the check
bursts passed over (R366). -/
def Chip.channelAddr (s : Chip) (off : Nat) : Nat :=
  let a := if s.dram.inService = 3 then off / 512 * 256 + off % 256 else off
  a / 3584 * 4096 + a % 3584

/-! ## Inline ECC (R366)

The check bytes hold the (72,64) code of the data and the burst's channel address. A burst is sound when what is read agrees
with them; what happens to a stored burst comes from outside (the operands of `DRAM_READ_RETURN`). -/

/-- Where the check byte of word `w` of data burst `k` of a 4 KiB block lies, from the start of the block (R366). -/
def checkPlace (k w : Nat) : Nat := 64 * (56 + k / 8) + 8 * (k % 8) + w

/-- The check byte of the data word at a channel address: bits 31:6 of the burst's address are folded in (R366). -/
def checkByteOf (a : Nat) (w : Bytes) : Byte := Config.checkByte (pad 8 w) (a / 64 % 2 ^ 26)

/-- A burst as read agrees with its check bytes: one read at another address than it was written at does not (R366). -/
def burstSound (a : Nat) (data checks : Bytes) : Bool :=
  (List.range 8).all fun w => checks.getD w 0 == checkByteOf a (slice data (8 * w) 8)

/-- Byte of a channel by its address: of a data burst what it stores, of a check burst the check bytes of its data bursts, and
zero in burst 63, which is reserved (R366). (DESIGN CHOICE, log 130.) -/
def Chip.channelByte (s : Chip) (c a : Nat) : Byte :=
  let block := a / 4096
  let data (o n : Nat) : Bytes :=
    let u := block * 3584 + o
    s.dramRead (if s.dram.inService = 3 then u / 256 * 512 + 256 * c + u % 256 else u) n
  let o := a % 4096
  if o < 3584 then (data o 1).getD 0 0
  else if 4032 ≤ o then 0
  else
    let k := 8 * ((o - 3584) / 64) + o % 64 / 8
    checkByteOf (4096 * block + 64 * k) (data (64 * k + 8 * (o % 8)) 8)

/-! ## Requests of the DRAM channels (R362, R372) -/

/-- Rows of one bank: a page holds 2 KiB and a rank 8 banks. -/
def DramCh.bankRows (d : DramCh) : Nat := d.gib * 1073741824 / max 1 d.ranks / 16384

/-- Where an address lies in its channel: rank, bank, row. The rank is the most significant part, and the
bank bits are combined with the three lowest row bits (R362; log 22). -/
def DramCh.place (d : DramCh) (a : Nat) : Nat × Nat × Nat :=
  let rows := max 1 d.bankRows
  let row := a / 16384 % rows
  (a / 16384 / rows, (a / 2048 % 8) ^^^ (row % 8), row)

/-- Bytes a request carries. -/
def DramReq.size (r : DramReq) : Nat := if r.write ∧ r.data ≠ [] then r.data.length else r.len

/-- The bursts it touches. -/
def DramReq.bursts (r : DramReq) : Nat := if r.size = 0 then 0 else (r.addr + r.size - 1) / 64 - r.addr / 64 + 1

/-- The bursts it covers whole. -/
def DramReq.wholeBursts (r : DramReq) : Nat := (r.addr + r.size) / 64 - (r.addr + 63) / 64

/-- A write of less than whole bursts, which reads first (R367). -/
def DramReq.partialWrite (r : DramReq) : Bool := r.write && (r.addr % 64 != 0 || r.size % 64 != 0)

/-- Two requests meet in a burst. -/
def DramReq.meets (a b : DramReq) : Bool := decide (a.addr / 64 ≤ (b.addr + b.size - 1) / 64) && decide (b.addr / 64 ≤ (a.addr + a.size - 1) / 64)

/-- The blocks of 256 bytes that a range touches: offset and length of its part in each (R362). -/
def blockParts (off n : Nat) : List (Nat × Nat) :=
  (List.range ((off + n + 255) / 256 - off / 256)).map fun i =>
    let a := max off (256 * (off / 256 + i))
    (a, min (off + n) (256 * (off / 256 + i + 1)) - a)

/-- The parts of a request, one for each block (R362). -/
def DramReq.parts (tx : Nat) (r : DramReq) : List DramReq :=
  (blockParts r.addr r.size).map fun p =>
    { r with addr := p.1, len := p.2, tx := tx, rmw := r.partialWrite, data := if r.write then slice r.data (p.1 - r.addr) p.2 else [] }

/-- A request of one block with the place where it lies in its channel (R362). -/
def Chip.placed (r : DramReq) (s : Chip) : DramReq :=
  let p := (s.dramCh (s.channelOf r.addr)).place (s.channelAddr r.addr)
  { r with rank := p.1, bank := p.2.1, row := p.2.2 }

/-- A request of one block enters the queue of its channel. -/
def Chip.dramAccept (r : DramReq) (s : Chip) : Chip :=
  s.modDramCh (s.channelOf r.addr) fun d => { d with queue := d.queue ++ [s.placed r] }

/-- The places of the channel that carries a class to the MI, in bursts: CH_10, CH_13, CH_14 and CH_15 (Table 1.5). -/
def classDepth : ReqClass → Option Nat
  | .playback => some 64
  | .capture => some 64
  | .conductor => some 32
  | .secure => some 16
  | .refresh => none
  | .scrub => none

/-- The bursts of a class that wait in its channel, those of CH_10 until they return (Table 1.5). -/
def Chip.channelUsed (s : Chip) (k : ReqClass) : Nat :=
  let used (l : List DramReq) : Nat := ((l.filter (·.cls == k)).map (·.bursts)).sum
  (s.dram.channels.map fun c => used c.queue + if k = .playback then used c.inFlight else 0).sum

/-- The channel of a class is full. -/
def Chip.channelFull (s : Chip) (k : ReqClass) : Bool :=
  match classDepth k with
  | some n => decide (n ≤ s.channelUsed k)
  | none => false

/-- Writes waiting in a channel, in bursts (R373). -/
def DramCh.occupancy (d : DramCh) : Nat := ((d.queue.filter (·.write)).map (·.bursts)).sum

/-- A request of one block finds places: in the channel of its class (R22), and, for a write, among the 64 write bursts of
its DRAM channel (R373). -/
def Chip.mayEnter (s : Chip) (r : DramReq) : Bool :=
  (match classDepth r.cls with
   | some n => decide (s.channelUsed r.cls + r.bursts ≤ n)
   | none => true) &&
    (!r.write || decide ((s.dramCh (s.channelOf r.addr)).occupancy + r.bursts ≤ 64))

/-- A request of one block goes to the MI, or is held by its producer behind the others of its class (R22). (DESIGN CHOICE, log 56.) -/
def Chip.dramPut (r : DramReq) (s : Chip) : Chip :=
  if s.mayEnter r = false ∨ (s.dram.stalled.any fun x => x.cls == r.cls) then s.modDram fun d => { d with stalled := d.stalled ++ [r] }
  else s.dramAccept r

/-- A request goes to the MI, block by block (R362). (DESIGN CHOICE, log 56.) -/
def Chip.dramEnqueue (r : DramReq) (s : Chip) : Chip :=
  let l := r.parts s.dram.nextTx
  if l.length ≤ 1 then s.dramPut r
  else
    l.foldl (fun s p => s.dramPut p)
      (s.modDram fun d => { d with nextTx := d.nextTx + 1, transfers := d.transfers ++ [{ id := d.nextTx, req := r, left := l.length }] })

/-- The held requests for which there is a place enter their channels, oldest first in each class (R22). -/
def Chip.dramAdmit (s : Chip) : Chip :=
  s.dram.stalled.foldl (fun s r => s.dramPut r) (s.modDram fun d => { d with stalled := [] })

/-- Requests that satisfy `f` leave the queues, and those that their producers still hold. -/
def Chip.dramCancel (f : DramReq → Bool) (s : Chip) : Chip :=
  (s.modDram fun d =>
    { d with
      stalled := d.stalled.filter (!f ·), transfers := d.transfers.filter (!f ·.req)
      channels := d.channels.map fun c => { c with queue := c.queue.filter (!f ·), inFlight := c.inFlight.filter (!f ·) } }).dramAdmit

/-- Lay the bytes of a write over the bytes read from an offset. -/
def overlay (off : Nat) (b : Bytes) (r : DramReq) : Bytes :=
  if r.write then
    (List.range b.length).map fun i =>
      if r.addr ≤ off + i ∧ off + i < r.addr + r.data.length then r.data.getD (off + i - r.addr) 0 else b.getD i 0
  else b

/-- Bytes of the usable space as a request sees them: waiting writes are served from the write buffer
(R373). -/
def Chip.bufferedRead (s : Chip) (off n : Nat) : Bytes :=
  ((s.dram.transfers.flatMap (·.done)) ++ s.dram.channels.flatMap fun c => c.inFlight ++ c.queue).foldl (overlay off) (s.dramRead off n)

/-! ## Moving a request (R372, R374, R378) -/

/-- One more activation of a row in a bank's table. -/
def Bank.activate (t row : Nat) (b : Bank) : Bank :=
  let rows :=
    if b.rows.any (·.row == row) then b.rows.map fun e => if e.row = row then { e with count := e.count + 1 } else e
    else if b.rows.length < 64 then b.rows ++ [{ row := row, count := 1 }]
    else
      let least := (b.rows.map (·.count)).foldl min ((b.rows.map (·.count)).headD 0)
      let i := b.rows.findIdx fun e => e.count == least
      b.rows.set i { row := row, count := least + 1 }
  let hit : Bool := rows.any fun e => e.row == row && decide (t ≤ e.count)
  { b with
    rows := if hit then rows.map fun e => if e.row = row then { e with count := 0 } else e else rows
    neighbour := if hit ∧ !b.neighbour.contains row then b.neighbour ++ [row] else b.neighbour
    openRow := some row }

/-- Bank `b` of rank `r` of a channel. -/
def DramCh.bank (d : DramCh) (r b : Nat) : Bank := d.banks.get {} (8 * r + b)

/-- Change a bank. -/
def DramCh.modBank (r b : Nat) (f : Bank → Bank) (d : DramCh) : DramCh := { d with banks := d.banks.upd {} (8 * r + b) f }

/-- The order of R26, from 1. -/
def ReqClass.number : ReqClass → Nat
  | .playback => 1 | .refresh => 2 | .secure => 3 | .capture => 4 | .conductor => 5 | .scrub => 6

/-- DRAM bytes it moves: check bursts, and the reads of a partial write, included (R372). -/
def DramReq.moved (r : DramReq) : Nat := 72 * (r.bursts + if r.write then r.bursts - r.wholeBursts else 0)

/-- 8 KiB in the unit of the shaping levels. -/
def shapeDepth : Nat := 8192 * 400000

/-- The shaping levels drawn down to now: each share gives kB/s / 400,000 bytes in a tick (R372). -/
def Chip.drawShares (s : Chip) : Chip :=
  let dt := s.clk.ticks - s.dram.shapeAt
  s.modDram fun d => { d with siUsed := d.siUsed - d.siShare * dt, ciUsed := d.ciUsed - d.ciShare * dt, shapeAt := s.clk.ticks }

/-- Charge a granted request to its share. -/
def Dram.charge (r : DramReq) (d : Dram) : Dram :=
  match r.cls with
  | .secure => { d with siUsed := d.siUsed + 400000 * r.moved }
  | .conductor => { d with ciUsed := d.ciUsed + 400000 * r.moved }
  | _ => d

/-- The page hint of a class closes the row after an access (R374). -/
def Dram.closes (d : Dram) (c : ReqClass) : Bool :=
  match c with
  | .playback => byteAt d.hints 0 == 1
  | .secure => byteAt d.hints 1 == 1
  | .capture => byteAt d.hints 2 == 1
  | .conductor => byteAt d.hints 3 == 1
  | .scrub => byteAt d.hints 4 == 1
  | .refresh => true

/-- The bank after an access: activated if another row was open, closed by its hint. -/
def Bank.access (t row : Nat) (close : Bool) (b : Bank) : Bank :=
  let b := if b.openRow = some row then b else b.activate t row
  { b with openRow := if close then none else some row }

/-- The channel moves a request: the row is activated, the bytes are counted, and the share is charged (R372, R374, R378). -/
def Chip.move (c : Nat) (r : DramReq) (s : Chip) : Chip :=
  let t := s.dram.rowHammer
  let close := s.dram.closes r.cls
  (s.modDramCh c fun d =>
    { (d.modBank r.rank r.bank (Bank.access t r.row close)) with served := (d.served + 64 * r.bursts) % 2 ^ 64 }).modDram (Dram.charge r)

/-- An uncorrectable error of a burst is counted, kept and recorded (R367). -/
def Chip.countBad (c off : Nat) (k : ReqClass) (s : Chip) : Chip :=
  let recent := (s.dramCh c).badTicks.filter fun t => !s.passedMs t 86400000
  ((s.modDram fun d => { d with badBursts := off / 64 :: d.badBursts.filter (· != off / 64) }).modDramCh c fun d =>
    { d with uncorrectable := satAdd 32 d.uncorrectable 1, lastBad := off, badTicks := recent ++ [s.clk.ticks] }).record 0x8001 8
      (le 1 c ++ le 1 k.number ++ le 8 off) c

/-! ## Requests served within the command that makes them (R21) -/

/-- Its blocks move in their channels (R362, R372, R378). -/
def Chip.moveNow (r : DramReq) (s : Chip) : Chip := (r.parts 0).foldl (fun s p => s.move (s.channelOf p.addr) (s.placed p)) s.drawShares

/-- The bytes of a read behind the waiting requests of its class (R22, R373). -/
def Chip.readBehind (s : Chip) (r : DramReq) : Bytes := (s.dram.stalled.filter (·.cls == r.cls)).foldl (overlay r.addr) (s.bufferedRead r.addr r.len)

/-- A read is served; none where a burst of it is uncorrectable, which is counted and recorded (R367). (DESIGN CHOICE, log 56.) -/
def Chip.serve (r : DramReq) (s : Chip) : Option Bytes × Chip :=
  let t := s.moveNow r
  match s.dram.badBursts.find? fun k => r.meets { r with addr := 64 * k, len := 64 } with
  | some k => (none, t.countBad (s.channelOf (64 * k)) (64 * k) r.cls)
  | none => (some (s.readBehind r), t)

/-- A request of the conductor waits for a place (R22). -/
def Chip.conductorHeld (s : Chip) : Bool := s.channelFull .conductor || s.dram.stalled.any (·.cls == .conductor)

/-- Bytes of user flash; an erased byte reads 0xFF (R160). (DESIGN CHOICE, log 36.) -/
def Chip.flashRead (s : Chip) (off n : Nat) : Bytes := s.boot.flash.read 0xFF off n

/-- Write bytes of user flash. -/
def Chip.flashWrite (off : Nat) (b : Bytes) (s : Chip) : Chip := s.modBoot fun x => { x with flash := x.flash.write 0xFF off b }

/-- Erase flash from `off` to `off + n`. -/
def Chip.flashErase (off n : Nat) (s : Chip) : Chip :=
  s.modBoot fun x => { x with flash := x.flash.filter fun c => decide (c.1 < off) || decide (off + n ≤ c.1) }

/-- Base of an image area: slot A, slot B, the recovery area (Table 6.6). -/
def areaBase (a : Nat) : Nat := if a = 0 then 0 else if a = 1 then 0x180000 else 0x300000

/-- Size of an image area. -/
def areaSize (a : Nat) : Nat := if a = 2 then 0x40000 else 0x180000

/-- Base of the data area (Table 6.6). -/
def dataArea : Nat := 0x340000

/-- An image area is erased. -/
def Chip.areaEmpty (s : Chip) (a : Nat) : Bool :=
  s.boot.flash.all fun c => decide (c.1 < areaBase a) || decide (areaBase a + areaSize a ≤ c.1)

end Sys2Proof.Machine
end

