-- ==== Sys2Proof/Machine/Segments.lean ====
section
/-! DEFINITION. Lanes, sites and masks (R231 to R233), segment descriptors and vector records (R236 to
R239), the sequencer instructions (R247), the states of segments (R240, R241) and the exchange (R242). -/

namespace Sys2Proof.Machine

/-! ## Lanes, sites and masks -/

/-- The lanes a sequencer owns, ascending (R231). -/
def Chip.lanesOf (s : Chip) (q : Nat) : List Nat := (List.range 64).filter fun n => (s.lane n).owner.toNat == q

/-- Whether site `k` lies in mask `m` of a sequencer (R232). -/
def Seq.inMask (x : Seq) (m k : Nat) : Bool := (x.masks.getD m 0).getLsbD k

/-- The masks in use, ascending. -/
def Seq.masksUsed (x : Seq) : List Nat := (List.range 4).filter fun m => x.masks.getD m 0 != 0

/-- The sites of a sequencer, ascending. -/
def Seq.sites (x : Seq) : List Nat := (List.range 16).filter fun k => (List.range 4).any fun m => x.inMask m k

/-- The mask that holds a site. -/
def Seq.maskOf (x : Seq) (k : Nat) : Nat := ((List.range 4).find? fun m => x.inMask m k).getD 4

/-- The lanes of a mask, ascending (R233). -/
def Chip.maskLanes (s : Chip) (q m : Nat) : List Nat := (s.lanesOf q).filter fun n => (s.sq q).inMask m (s.lane n).site.toNat

/-- The lanes of a site, ascending. -/
def Chip.siteLanes (s : Chip) (q k : Nat) : List Nat := (s.lanesOf q).filter fun n => (s.lane n).site.toNat == k

/-- A mask that still plays: in use, neither parked nor dropped (R256, R265). -/
def Seq.plays (x : Seq) (m : Nat) : Bool := x.masks.getD m 0 != 0 && !x.parked.getLsbD m && !x.dropped.getLsbD m

/-! ## Descriptors and records -/

/-- Descriptor `g`. -/
def Chip.desc (s : Chip) (g : Nat) : Desc := s.segs.descs.get {} g

/-- The 16 bytes of a descriptor (Table 9.1). -/
def Desc.bytes (d : Desc) : Bytes := le 4 d.offset ++ le 4 d.count ++ [d.width, d.kind, d.flags, 0, 0, 0, 0, 0]

/-- The descriptor that 16 bytes hold. -/
def segDescOf (b : Bytes) : Desc :=
  { offset := fieldAt b 0 4, count := fieldAt b 4 4, width := b.getD 8 0, kind := b.getD 9 0, flags := b.getD 10 0 }

/-- The value check of a descriptor write: ranges, reserved bits, and not both resident and exchangeable
(R9, R236); an empty descriptor has no width (R236). -/
def segDescOk (b : Bytes) : Bool :=
  let d := segDescOf b
  (slice b 11 5).all (· == 0) && decide (d.kind.toNat ≤ 1) && decide (d.flags.toNat < 8) && decide (d.count ≤ 16777216) &&
    (decide (d.width.toNat ≤ 64) && (decide (1 ≤ d.width.toNat) || d.count == 0)) && d.flags.toNat % 4 != 3

/-- The resident flag. -/
def Desc.resident (d : Desc) : Bool := d.flags.getLsbD 0
/-- The exchangeable flag. -/
def Desc.exchangeable (d : Desc) : Bool := d.flags.getLsbD 1
/-- The sealed flag: it carries sealed symbols. -/
def Desc.sealed_ (d : Desc) : Bool := d.flags.getLsbD 2
/-- A sample segment (R294). -/
def Desc.sample (d : Desc) : Bool := d.kind == 1

/-- Bytes of one record or frame (R237, R294). -/
def Desc.recBytes (d : Desc) : Nat :=
  if d.sample then 4 * ceilDiv d.width.toNat 3 else 4 * (1 + ceilDiv d.width.toNat 8)

/-- Bytes a segment occupies (R237). -/
def Desc.size (d : Desc) : Nat := d.count * d.recBytes

/-- The bytes of record `i` of a segment in the segment data region, as a refill reads them (R373). -/
def Chip.recordIn (s : Chip) (d : Desc) (i : Nat) : Bytes :=
  s.bufferedRead (s.regionBase 2 + 64 * d.offset + i * d.recBytes) d.recBytes

/-- The bytes of record `i` of segment `g`. -/
def Chip.recordAt (s : Chip) (g i : Nat) : Bytes := s.recordIn (s.desc g) i

/-- A vector record: its header fields and one symbol per segment lane (R237). -/
structure VecRec where
  /-- Timing set. -/
  set : Nat
  /-- Markers 3 to 0. -/
  markers : Nat
  /-- How often it plays. -/
  reps : Nat
  /-- Bits 15:0 of the header. -/
  reserved : Nat
  /-- Symbols in segment-lane order. -/
  syms : List Nat
  /-- Unused symbol positions are zero. -/
  padOk : Bool
  deriving DecidableEq, Repr

/-- The record whose words, header first, these are. -/
def recOf (width : Nat) (words : List Nat) : VecRec :=
  let h := words.getD 0 0
  let sym (i : Nat) : Nat := words.getD (1 + i / 8) 0 / 16 ^ (i % 8) % 16
  { set := h / 2 ^ 28 % 16, markers := h / 2 ^ 24 % 16, reps := h / 65536 % 256 + 1, reserved := h % 65536
    syms := (List.range width).map sym
    padOk := ((List.range (8 * ceilDiv width 8)).drop width).all fun i => sym i == 0 }

/-- The 32-bit words of bytes. -/
def wordsOf (b : Bytes) : List Nat := (List.range (b.length / 4)).map fun i => fieldAt b (4 * i) 4

/-- Record `i` of a vector segment. -/
def Chip.vecRec (s : Chip) (g i : Nat) : VecRec := recOf (s.desc g).width.toNat (wordsOf (s.recordAt g i))

/-- The enabled flag of a timing set of a sequencer (Table 10.1). -/
def Seq.enabled (x : Seq) (k : Nat) : Bool := (SMap.get x.sets {} k).header.getD 5 0 |>.getLsbD 0

/-- A record is valid: no reserved bit or symbol, SF only in a sealed segment, its timing set enabled
(R239, R280). -/
def recOk (x : Seq) (sealed_ : Bool) (r : VecRec) : Bool :=
  r.reserved == 0 && r.padOk && x.enabled r.set && r.syms.all fun c => decide (c ≤ 7) && (sealed_ || c != 7)

/-- Sample `c` of frame `i` of a sample segment, signed (R294). -/
def Chip.sampleAt (s : Chip) (d : Desc) (i c : Nat) : Int := signed 10 ((wordsOf (s.recordIn d i)).getD (c / 3) 0 / 1024 ^ (c % 3) % 1024)

/-- A frame of a sample segment is valid: reserved bits and unused positions are zero (R294). -/
def frameOk (width : Nat) (words : List Nat) : Bool :=
  words.all (fun w => decide (w < 2 ^ 30)) &&
    ((List.range (3 * words.length)).drop width).all fun i => words.getD (i / 3) 0 / 1024 ^ (i % 3) % 1024 == 0

/-- Record or frame `i` of a segment is valid. -/
def Chip.recordOk (s : Chip) (q g i : Nat) : Bool :=
  let d := s.desc g
  if d.sample then decide (d.width.toNat ≤ 16) && !d.sealed_ && frameOk d.width.toNat (wordsOf (s.recordAt g i))
  else recOk (s.sq q) d.sealed_ (s.vecRec g i)

/-! ## Instructions (Table 9.3) -/

/-- The instructions of a sequencer program. -/
inductive SeqOp where
  | nop
  | play (rep : BitVec 12) (seg : BitVec 14)
  | plays (base : BitVec 14)
  | loop (count : BitVec 20)
  | endl
  | call (a : BitVec 12)
  | ret
  | jmp (a : BitVec 12)
  | jev (j : BitVec 2) (a : BitVec 12)
  | evarm (j : BitVec 2) (a : BitVec 12)
  | evdis (j : BitVec 2)
  | wait (count : BitVec 24)
  | barw (b : BitVec 5)
  | sfw (recipe : BitVec 8)
  | drop
  | alg (p : BitVec 4)
  | halt
  | evclr (j : BitVec 2)
  deriving DecidableEq, Repr

/-- The word of an instruction (Table 9.3). -/
def encodeOp : SeqOp → Word32
  | .nop => 0
  | .play r g => 1#6 ++ r ++ g
  | .plays g => 2#6 ++ 0#12 ++ g
  | .loop n => 3#6 ++ 0#6 ++ n
  | .endl => 0x10000000
  | .call a => 5#6 ++ 0#14 ++ a
  | .ret => 0x18000000
  | .jmp a => 7#6 ++ 0#14 ++ a
  | .jev j a => 8#6 ++ 0#12 ++ j ++ a
  | .evarm j a => 9#6 ++ 0#12 ++ j ++ a
  | .evdis j => 10#6 ++ 0#12 ++ j ++ 0#12
  | .wait n => 11#6 ++ 0#2 ++ n
  | .barw b => 13#6 ++ 0#21 ++ b
  | .sfw r => 14#6 ++ 0#18 ++ r
  | .drop => 0x3C000000
  | .alg p => 16#6 ++ 0#22 ++ p
  | .halt => 0x44000000
  | .evclr j => 18#6 ++ 0#12 ++ j ++ 0#12

/-- What a word's opcode and fields would be, reserved bits aside. -/
def fieldsOp (w : Word32) : Option SeqOp :=
  match (w.extractLsb' 26 6).toNat with
  | 0 => some .nop
  | 1 => some (.play (w.extractLsb' 14 12) (w.extractLsb' 0 14))
  | 2 => some (.plays (w.extractLsb' 0 14))
  | 3 => some (.loop (w.extractLsb' 0 20))
  | 4 => some .endl
  | 5 => some (.call (w.extractLsb' 0 12))
  | 6 => some .ret
  | 7 => some (.jmp (w.extractLsb' 0 12))
  | 8 => some (.jev (w.extractLsb' 12 2) (w.extractLsb' 0 12))
  | 9 => some (.evarm (w.extractLsb' 12 2) (w.extractLsb' 0 12))
  | 10 => some (.evdis (w.extractLsb' 12 2))
  | 11 => some (.wait (w.extractLsb' 0 24))
  | 13 => some (.barw (w.extractLsb' 0 5))
  | 14 => some (.sfw (w.extractLsb' 0 8))
  | 15 => some .drop
  | 16 => some (.alg (w.extractLsb' 0 4))
  | 17 => some .halt
  | 18 => some (.evclr (w.extractLsb' 12 2))
  | _ => none

/-- The instruction a word holds; none for a reserved opcode or a set reserved bit (R247). -/
def decodeOp (w : Word32) : Option SeqOp :=
  match fieldsOp w with
  | some i => if encodeOp i = w then some i else none
  | none => none

/-- The word at an address of a sequencer's program store. -/
def Seq.word (x : Seq) (a : Nat) : Word32 := x.store.get 0 a

/-- The instruction at an address. -/
def Seq.op (x : Seq) (a : Nat) : Option SeqOp := decodeOp (x.word a)

/-- An instruction that produces vectors (R247). -/
def SeqOp.vectors : SeqOp → Bool
  | .play _ _ => true
  | .plays _ => true
  | .wait _ => true
  | .alg _ => true
  | .drop => true
  | _ => false

/-- The segments an instruction plays, in mask order for a PLAYS (Table 9.3). -/
def Seq.playsOf (x : Seq) (i : SeqOp) : List Nat :=
  match i with
  | .play _ g => [g.toNat]
  | .plays b => x.masksUsed.map fun m => b.toNat + m
  | _ => []

/-- The program's instructions, with their addresses. -/
def Seq.program (x : Seq) : List (Nat × Option SeqOp) := (List.range x.progLen).map fun a => (a, x.op a)

/-- The addresses at which some instruction satisfies `f`. -/
def Seq.addresses (x : Seq) (f : SeqOp → Bool) : List Nat :=
  (x.program.filter fun p => match p.2 with | some i => f i | none => false).map (·.1)

/-- The segments the program references, ascending (R240, R259). -/
def Seq.segments (x : Seq) : List Nat :=
  let all := x.program.flatMap fun p => match p.2 with | some i => x.playsOf i | none => []
  all.foldl (fun l g => if l.contains g then l else l.takeWhile (· < g) ++ g :: l.dropWhile (· < g)) []

/-! ## Segment states and writes (R240, R241) -/

/-- A segment is armed: an armed or running sequencer references it. -/
def Chip.segArmed (s : Chip) (g : Nat) : Bool := s.seqs.any fun x => x.2.refs.contains g

/-- A segment is active: in a ring, awaiting a refill, or in the play under way. -/
def Chip.segActive (s : Chip) (g : Nat) : Bool :=
  s.seqs.any fun x =>
    x.2.ring.any (·.seg == g) || x.2.fetching.any (·.1 == g) ||
      ((x.2.state == .running || x.2.state == .waiting) && decide (0 < x.2.done) &&
        match x.2.op x.2.pc with
        | some i => (x.2.playsOf i).contains g
        | none => false)

/-- The state of a segment in 0x3300:03. -/
def Chip.segState (s : Chip) (g : Nat) : Nat := if s.segActive g then 2 else if s.segArmed g then 1 else 0

/-- The segments that are armed or active: those that any sequencer references. -/
def Chip.liveSegs (s : Chip) : List Nat := s.seqs.flatMap fun x => x.2.refs ++ x.2.ring.map (·.seg) ++ x.2.fetching.map (·.1)

/-- A window write over a range of the segment data region meets the data of a live segment (R241). -/
def Chip.overlapsLive (s : Chip) (off n : Nat) : Bool :=
  s.liveSegs.any fun g =>
    let d := s.desc g
    decide (off < 64 * d.offset + d.size) && decide (64 * d.offset < off + n)

/-- A descriptor write (R241). -/
def writeDesc (b : Bytes) (r : Req) (s : Chip) : Chip × Reply :=
  let g := s.sel r.dest.session 0x3300 1
  if s.segArmed g || s.segActive g then (s, bad 3)
  else (s.modSegs fun x => { x with descs := x.descs.set {} g (segDescOf b) }, ok)

/-! ## The exchange (R242) -/

/-- A segment has an exchange pending. -/
def Segs.exchanging (x : Segs) (g : Nat) : Bool := x.exchanges.any fun e => e.1 == g || e.2 == g

/-- The checks of R242 in their order. -/
def exchangeCode (s : Chip) (a b : Nat) : Nat :=
  let da := s.desc a
  let db := s.desc b
  if (s.segState a = 0) ∨ da.exchangeable = false then 0x500B
  else if s.segState b ≠ 0 ∨ db.exchangeable = false ∨ da.kind ≠ db.kind ∨ da.width ≠ db.width ∨ da.count ≠ db.count ∨ da.flags ≠ db.flags then 0x5009
  else if s.segs.exchanging a ∨ s.segs.exchanging b then 0x500A
  else 0

/-- Stage an exchange. -/
def stageExchange (a b : Nat) (_ : Req) (s : Chip) : Chip × Reply :=
  let c := exchangeCode s a b
  if c ≠ 0 then (s, bad c) else (s.modSegs fun x => { x with exchanges := x.exchanges ++ [(a, b)] }, ok)

/-- A segment number is in the catalogue (R236). -/
def segRange (a b : Nat) : Nat := if a < 0x4000 ∧ b < 0x4000 then 0 else 2

/-- `SEGMENT_EXCHANGE_STAGE` (R242). -/
def execSegmentExchangeStage (p : Path) (tag a b : Word16) (s : State) : Host.Outcome State Fault Refusal :=
  next s (hostWrite p tag 0x3300 5 (le 2 a.toNat ++ le 2 b.toNat) (fun _ _ => segRange a.toNat b.toNat) (stageExchange a.toNat b.toNat) s.chip)

/-- Swap the data offsets of two segments. -/
def Chip.swapSegs (a b : Nat) (s : Chip) : Chip :=
  let da := s.desc a
  let db := s.desc b
  s.modSegs fun x =>
    { x with descs := (x.descs.set {} a { da with offset := db.offset }).set {} b { db with offset := da.offset }
             exchanges := x.exchanges.filter fun e => e != (a, b) }

/-- Apply the pending exchange whose armed segment is `a`, if `a` is not active. -/
def exchangeApply (a : Nat) (s : Chip) : Chip :=
  match s.segs.exchanges.find? (·.1 == a) with
  | some e => if s.segActive a then s else s.swapSegs e.1 e.2
  | none => s

/-- `SEGMENT_EXCHANGE_APPLY` (R242). -/
def execSegmentExchangeApply (a : BitVec 14) (s : State) : Host.Outcome State Fault Refusal := next s (exchangeApply a.toNat s.chip)

end Sys2Proof.Machine
end

