-- ==== Sys2Proof/Machine/Timing.lean ====
section
/-! DEFINITION. Lane timing (chapter 10): timing sets and their images, periods, the checks of step 7 of
R258, exact times, and delay-line tracking. -/

namespace Sys2Proof.Machine

/-! ## Timing sets -/

/-- Timing set `k` of a sequencer. -/
def Seq.timing (x : Seq) (k : Nat) : TimingSet := x.sets.get {} k

/-- The entry of a lane, zeros where none is written. -/
def TimingSet.entry (t : TimingSet) (n : Nat) : Bytes := t.entries.get (List.replicate 24 0) n

/-- The set with a lane's entry written. -/
def TimingSet.putEntry (n : Nat) (b : Bytes) (t : TimingSet) : TimingSet := { t with entries := t.entries.set (List.replicate 24 0) n b }

/-- Bytes 3:0 of the header. -/
def TimingSet.period (t : TimingSet) : Nat := fieldAt t.header 0 4
/-- The PLL the set selects. -/
def TimingSet.source (t : TimingSet) : Nat := byteAt t.header 4
/-- D_ON. -/
def TimingSet.dOn (t : TimingSet) (n : Nat) : Nat := fieldAt (t.entry n) 0 4
/-- D_DATA. -/
def TimingSet.dData (t : TimingSet) (n : Nat) : Nat := fieldAt (t.entry n) 4 4
/-- D_OFF. -/
def TimingSet.dOff (t : TimingSet) (n : Nat) : Nat := fieldAt (t.entry n) 8 4
/-- C_OPEN. -/
def TimingSet.cOpen (t : TimingSet) (n : Nat) : Nat := fieldAt (t.entry n) 12 4
/-- C_CLOSE. -/
def TimingSet.cClose (t : TimingSet) (n : Nat) : Nat := fieldAt (t.entry n) 16 4
/-- Drive format (Table 10.3). -/
def TimingSet.format (t : TimingSet) (n : Nat) : Nat := byteAt (t.entry n) 20
/-- Window compare mode. -/
def TimingSet.window (t : TimingSet) (n : Nat) : Bool := byteAt (t.entry n) 21 == 1

/-- A header write sets no reserved bit and uses no reserved encoding (R273). -/
def headerBitsOk (b : Bytes) : Bool := decide (byteAt b 4 ≤ 1) && decide (byteAt b 5 ≤ 1) && (b.drop 6).all (· == 0)

/-- An entry write sets no reserved bit and uses no reserved encoding (R273). -/
def entryBitsOk (b : Bytes) : Bool :=
  (List.range 5).all (fun i => decide (fieldAt b (4 * i) 4 < 2 ^ 27)) && decide (byteAt b 20 ≤ 3) && decide (byteAt b 21 ≤ 1) &&
    (b.drop 22).all (· == 0)

/-- The reference frequency the straps name, 0x2001:03 (R56). -/
def Chip.refNominal (s : Chip) : Nat := match s.power.straps.toNat / 128 with | 0 => 25000000 | 1 => 50000000 | 2 => 100000000 | _ => 0

/-- The VCO frequency of PLL_1 times 2^24: f_ref × (N × 2^24 + F), with the values in force (R87). -/
def Chip.vco1 (s : Chip) : Nat := s.refNominal * ((s.pll 1).nApplied * 2 ^ 24 + (s.pll 1).fApplied)

/-- `n` units of R298 in 1/25,600 ns, rounded down: 10 ps for PLL_0, a VCO period for PLL_1. -/
def Chip.unitsFine (s : Chip) (src n : Nat) : Nat :=
  if src = 0 then 256 * n else if s.vco1 = 0 then 0 else n * 25600 * 1000000000 * 2 ^ 24 / s.vco1

/-- P_u: the period in units of 10 ps, rounded down (R272). -/
def Chip.pu (s : Chip) (t : TimingSet) : Nat := if t.source = 0 then t.period else s.unitsFine 1 t.period / 256

/-- The PLL the sequencer's timing sets select: that of timing set 0 (R272). -/
def Seq.source (x : Seq) : Nat := (x.timing 0).source

/-- The enabled sets, ascending. -/
def Seq.enabledSets (x : Seq) : List Nat := (List.range 16).filter x.enabled

/-- The PLL of a set reads locked. -/
def Chip.locked (s : Chip) (p : Nat) : Bool := (s.pll p).state == .locked

/-- P_u of the shortest enabled set, 0x3400+s:08: 0 when none is enabled or PLL_1 is not locked (R290). -/
def Chip.shortest (s : Chip) (q : Nat) : Nat :=
  let x := s.sq q
  if x.enabledSets.any (fun k => (x.timing k).source == 1) && !s.locked 1 then 0
  else match x.enabledSets.map fun k => s.pu (x.timing k) with
    | [] => 0
    | p :: ps => ps.foldl min p

/-- The image of a set for the lanes a sequencer owns (R282). -/
def Chip.setImage (s : Chip) (q k : Nat) : Bytes :=
  let t := (s.sq q).timing k
  pad 16 t.header ++ (s.lanesOf q).flatMap t.entry

/-! ## Exact times (R270, R298) -/

/-- A time in 1/25,600 ns realised in units of 10 ps: the nearest one, a half upward (R270). -/
def realised10 (t : Nat) : Nat := (t + 128) / 256

/-- The time of an offset from T_b(0), in 1/25,600 ns of action time. -/
def Chip.fine (s : Chip) (q n : Nat) : Nat := 100 * ((s.sq q).baseNs256 + (s.sq q).shift256).toNat + s.unitsFine (s.sq q).source n

/-- Action time now, in 1/25,600 ns. -/
def Chip.nowFine (s : Chip) : Nat := 100 * s.clk.action

/-- The time of a boundary in 1/256 ns, rounded down. -/
def Chip.fine256 (s : Chip) (q n : Nat) : Nat := s.fine q n / 100

/-- 60.0 ns in 1/25,600 ns. -/
def ns60 : Nat := 60 * 25600

/-- The period of a set in the units of R298: that of timing set 0's PLL. -/
def Seq.periodUnits (x : Seq) (k : Nat) : Nat := (x.timing k).period

/-- The hold vectors until the first boundary at or after a time (R254). -/
def Chip.holdsUntil (s : Chip) (q due : Nat) : Nat :=
  let x := s.sq q
  let p := x.periodUnits x.lastSet
  let now := s.fine q x.tb
  if p = 0 ∨ due ≤ now then 0
  else
    let n := ceilDiv (due - now) (max 1 (s.unitsFine x.source p))
    -- rounding down of PLL_1 times can leave the count one short or one long
    if n ≥ 1 ∧ due ≤ s.fine q (x.tb + (n - 1) * p) then n - 1
    else if due ≤ s.fine q (x.tb + n * p) then n else n + 1

/-! ## The checks of step 7 (R281) -/

/-- A failure of an arm check: its code and its detail for bits 31:16 of 0x3100+s:0A. (DEDUCED, log 23.) -/
structure ArmFail where
  /-- Result code. -/
  code : Nat
  /-- Bits 31:16. -/
  detail : Nat
  deriving DecidableEq, Repr

/-- The detail of group 0x6 (R281). -/
def setDetail (b a lane : Nat) : Nat := 4096 * b + 256 * a + lane

/-- The first failure of a list of checks. -/
def firstFail (l : List (Option ArmFail)) : Option ArmFail := l.findSome? id

/-- w_min of a slew step, in units of 10 ps (Table 10.5). -/
def minPulse (slew : Nat) : Nat := match slew with | 0 => 400 | 1 => 200 | 2 => 100 | _ => 50

/-- The header checks: check 1 of R281. -/
def Chip.headerFail (s : Chip) (q : Nat) : Option ArmFail :=
  let x := s.sq q
  if x.enabled 0 = false then some ⟨0x6001, setDetail 0 0 0xFF⟩
  else firstFail (x.enabledSets.map fun k =>
    let t := x.timing k
    let rangeOk : Bool := if t.source = 0 then decide (500 ≤ t.period) && decide (t.period ≤ 100000000) else decide (1 ≤ t.period)
    let pOk : Bool := t.source == 0 || (decide (5 * s.vco1 ≤ t.period * 2 ^ 24 * 10 ^ 9) && decide (t.period * 2 ^ 24 * 1000 ≤ s.vco1))
    if headerBitsOk t.header && rangeOk && pOk && t.source == x.source then none else some ⟨0x6001, setDetail 0 k 0xFF⟩)

/-- The placement checks of one set and lane: order, then width (Table 10.4). -/
def Chip.placeFail (s : Chip) (t : TimingSet) (k n : Nat) : Option ArmFail :=
  let drives := (s.lane n).mode == 1
  let p := s.pu t
  let w := minPulse (s.lane n).slew.toNat
  let order : Bool :=
    (!drives || (decide (t.dOn n ≤ t.dData n) && decide (t.dData n ≤ t.dOff n) && decide (t.dOff n < p))) &&
      decide (t.cOpen n ≤ t.cClose n) && decide (t.cClose n < p) && (t.window n || t.cClose n == t.cOpen n)
  let f := t.format n
  let width : Bool :=
    (!drives || f == 0 || decide (w ≤ t.dOff n - t.dData n)) && (!drives || f != 3 || decide (w ≤ t.dData n - t.dOn n)) &&
      (!t.window n || decide (100 ≤ t.cClose n - t.cOpen n))
  if order = false then some ⟨0x6002, setDetail 0 k n⟩ else if width = false then some ⟨0x6003, setDetail 0 k n⟩ else none

/-- The pair rule of R279 for one ordered pair and lane. -/
def Chip.pairFail (s : Chip) (x : Seq) (a b n : Nat) : Option ArmFail :=
  let ta := x.timing a
  if (s.lane n).mode = 1 ∧ s.pu ta - ta.dOff n + (x.timing b).dOn n < minPulse (s.lane n).slew.toNat then
    some ⟨0x6004, setDetail b a n⟩
  else none

/-- T_out in the units of R298: 16 half-periods of D_h VCO periods, 40 VCO periods to 10 ns for PLL_0. -/
def tOut (src : Nat) (p : Port) : Nat := if src = 0 then 400 * p.divider else 16 * p.divider

/-- h in 1/25,600 ns: D_h periods of the VCO (250 ps for PLL_0) (R296). -/
def Chip.half (s : Chip) (src : Nat) (p : Port) : Nat := if src = 0 then 6400 * p.divider else s.unitsFine 1 p.divider

/-- The check of an enabled port attached to the sequencer, with the range of its input delay (R301, R314). (DEDUCED, log 81.) -/
def Chip.portFail (s : Chip) (q k : Nat) : Option ArmFail :=
  let p := SMap.get s.segs.ports {} k
  let x := s.sq q
  let h := s.half x.source p
  let p0 := x.periodUnits 0
  let t := tOut x.source p
  let slow := ((List.range 3).map fun i => minPulse (s.lane (4 * k + i)).slew.toNat).foldl max 0
  if p.enable = 0 ∨ p.seq.toNat ≠ q then none
  else if h < 32000 ∨ h < 256 * slow ∨ (p.source = 0 ∧ (16 * p0 < t ∨ 16 * t < p0)) ∨ 15 < p.channel.toNat ∨ h < 256 * p.delay then
    some ⟨0x6006, setDetail 0 0 (4 * k)⟩
  else none

/-- Step 7 of R258 (R281, R301). -/
def Chip.timingFail (s : Chip) (q : Nat) : Option ArmFail :=
  let x := s.sq q
  let sets := x.enabledSets
  let lanes := s.lanesOf q
  match s.headerFail q with
  | some f => some f
  | none =>
    if s.locked x.source = false then some ⟨0x6005, setDetail 0 0 0xFF⟩
    else
      match firstFail (sets.flatMap fun k => lanes.map fun n => s.placeFail (x.timing k) k n) with
      | some f => some f
      | none =>
        match firstFail (sets.flatMap fun a => sets.flatMap fun b => lanes.map fun n => s.pairFail x a b n) with
        | some f => some f
        | none => firstFail ((List.range 16).map fun k => s.portFail q k)

/-! ## The glitch filter (R49) -/

/-- The nominal width of a filter code, in ps; 0 when it is off (R51). -/
def filterPs : Nat → Nat
  | 1 => 1000
  | 2 => 3000
  | 3 => 10000
  | _ => 0

/-- The filter of a lane passes a pulse of so many ps: never below its nominal width, always beyond twice that (R49). (DESIGN CHOICE, log 114.) -/
def Chip.passes (s : Chip) (n width : Nat) : Bool :=
  let w := filterPs (s.lane n).filter.toNat
  if w = 0 ∨ 2 * w < width then true else if width < w then false else Config.filterPasses s.nowFine n width

/-! ## Edge codes (R283 to R285) -/

/-- The delay of a lane's final output stage at its slew step, from trim (R283). (DESIGN CHOICE, log 115.) -/
def Chip.finalStage (s : Chip) (n : Nat) : Nat :=
  Config.finalStage ((List.range 48).map fun i => s.fuse (0x10 + i)) s.life.trimDefaults (s.lane n).slew.toNat

/-- The codes of a lane: the delays measured and the final output stage's, rescaled by the replica line of its group of
eight (R283, R284). (DESIGN CHOICE, log 115.) -/
def Chip.laneCodes (s : Chip) (n : Nat) : EdgeCodes :=
  let line := s.segs.replicas.getD (n / 8) 4000
  let scaled (d : Nat) : Nat := if line = 0 then d else d * 4000 / line
  { drive := scaled ((s.lane n).driveDelay + s.finalStage n), input := scaled (s.lane n).inputDelay }

/-- A sequencer runs: it plays, waits or holds. -/
def SeqState.inRun : SeqState → Bool
  | .running => true
  | .waiting => true
  | _ => false

/-- A lane belongs to a sequencer that runs. -/
def Chip.laneRuns (s : Chip) (n : Nat) : Bool :=
  decide ((s.lane n).owner.toNat < 16) && (s.sq (s.lane n).owner.toNat).state.inRun

/-- Codes that are ready at a time: they wait for a vector, or take effect at once while no sequencer runs the lane (R285). (DESIGN CHOICE, log 115.) -/
def Lane.ready (runs : Bool) (time : Nat) (c : EdgeCodes) (l : Lane) : Lane :=
  if runs then { l with fresh := l.fresh ++ [(time, c)] } else { l with codes := c, target := c, fresh := [] }

/-- A code moves to another by at most so many ps. -/
def approach (limit a b : Nat) : Nat := if a ≤ b then min b (a + limit) else max b (a - limit)

/-- 40.0 ns in 1/25,600 ns. -/
def ns40 : Nat := 40 * 25600

/-- The codes of a lane move in `n` vectors to what they are to be, by at most 20 ps in each (R285). -/
def Lane.nearer (n : Nat) (l : Lane) : Lane :=
  { l with codes := { drive := approach (20 * n) l.codes.drive l.target.drive, input := approach (20 * n) l.codes.input l.target.input } }

/-- The codes of `n` vectors are fixed, of which `missed t` begin too early for codes that were ready at `t`: those ready 40.0 ns
before a boundary, on that edge too, are what its vector moves to (R285). (DESIGN CHOICE, log 115.) -/
def Lane.fix (missed : Nat → Nat) (n : Nat) (l : Lane) : Lane :=
  let r := (l.fresh.filter fun e => decide (missed e.1 < n)).foldl
    (fun a e => (({ a.1.nearer (missed e.1 - a.2) with target := e.2 } : Lane), max a.2 (missed e.1))) (l, 0)
  { r.1.nearer (n - r.2) with fresh := l.fresh.filter fun e => decide (n ≤ missed e.1) }

/-- The codes a lane moves to take effect when its sequencer stops running (R285). -/
def Lane.settle (l : Lane) : Lane :=
  let target := (l.fresh.getLast?.map (·.2)).getD l.target
  { l with target := target, codes := target, fresh := [] }

/-- Change the lanes of a list. -/
def Chip.eachLane (ns : List Nat) (f : Nat → Lane → Lane) (s : Chip) : Chip := ns.foldl (fun s n => s.modLane n (f n)) s

/-- Fix the codes of `n` vectors of a sequencer. -/
def Chip.fixLanes (q n : Nat) (s : Chip) : Chip := s.eachLane (s.lanesOf q) fun _ => Lane.fix (fun t => s.holdsUntil q (t + ns40)) n

/-! ## Edges at the ball (R270, R274) -/

/-- The driver and the level after a list of edges. -/
def Lane.after (es : List PinEdge) (l : Lane) : Bool × Bool :=
  match es.getLast? with
  | some e => (e.on, e.level)
  | none => (l.driverOn, l.driven)

/-- A lane takes drive edges. -/
def Lane.take (es : List PinEdge) (l : Lane) : Lane :=
  { l with fromOn := l.driverOn, fromLevel := l.driven, edges := es, driverOn := (l.after es).1, driven := (l.after es).2 }

/-- What the ball of a lane shows at an action time in 1/25,600 ns: driver on, and the level driven; every edge acts at its
realised time (R270). (DESIGN CHOICE, log 115.) -/
def Lane.pinAt (time : Nat) (l : Lane) : Bool × Bool :=
  if l.edges = [] then (l.driverOn, l.driven)
  else match (l.edges.filter fun e => decide (realised10 e.ideal ≤ realised10 time)).getLast? with
    | some e => (e.on, e.level)
    | none => (l.fromOn, l.fromLevel)

/-- Emit `n` hold vectors: the timing set of the previous vector, no edge, no compare, no marker (R254). (DEDUCED, log 44.) -/
def Chip.emitHolds (q n : Nat) (s : Chip) : Chip :=
  if n = 0 then s
  else (s.fixLanes q n).modSq q fun x =>
    { x with tb := x.tb + n * x.periodUnits x.lastSet, vecIndex := x.vecIndex + n, vectors := (x.vectors + n) % 2 ^ 64, markers := 0, lastHold := true }

/-- Hold vectors of a wait of no stated length, which shift the deadlines behind them (R375). (DESIGN CHOICE, log 132.) -/
def Chip.emitWaits (q n : Nat) (s : Chip) : Chip := (s.emitHolds q n).modSq q fun x => { x with held := x.held + n * x.periodUnits x.lastSet }

/-- The level of marker producer `j`: that of the last vector, and low in the hold vectors of a wait, the first of which starts
at the next boundary (R253, R254). -/
def Chip.markerLevel (s : Chip) (q j : Nat) : Bool :=
  let x := s.sq q
  x.markers.getLsbD j && !((x.state == .waiting || x.dropDue) && decide (s.fine q x.tb ≤ s.nowFine))

/-- Characterise a lane: its two path delays are measured and its codes follow; its pin does not change (R283). (DESIGN CHOICE, log 115.) -/
def Chip.characterise (s : Chip) (n : Nat) : Chip :=
  let s := s.modLane n fun l =>
    { l with
      characterised := true
      driveDelay := Config.driveDelay s.clk.ticks n l.slew.toNat
      inputDelay := Config.inputDelay s.clk.ticks n l.filter.toNat }
  s.modLane n (Lane.ready (s.laneRuns n) s.nowFine (s.laneCodes n))

/-! ## Delay-line tracking (R284 to R286) -/

/-- A sequencer's arm characterises lanes (R284). -/
def Chip.arming (s : Chip) : Bool := s.seqs.any fun x => x.2.state == .arming && x.2.armWaiter.isSome

/-- A tracking pass is due: 99 ms after the last start at the earliest, or the temperature has moved by
5 °C (R284, Table 10.6). -/
def Chip.trackDue (s : Chip) : Bool :=
  s.passedUs s.segs.trackAt 99000 || decide (50 ≤ (s.segs.tiTemp - s.segs.trackTemp).natAbs)

/-- `TRACKING_PASS_START` (R284). -/
def trackingStart (s : Chip) : Chip :=
  if s.segs.tracking ∨ s.arming ∨ s.trackDue = false ∨ s.runs 6 = false then s
  else
    (s.modSegs fun x => { x with tracking := true, trackAt := s.clk.ticks, trackTemp := x.tiTemp }).modBackground fun b =>
      { b with activities := b.activities.upd {} 4 fun a => { a with state := if a.state = .behind then .behind else .running } }

/-- `TRACKING_PASS_START` (R284). -/
def execTrackingPassStart (s : State) : Host.Outcome State Fault Refusal := next s (trackingStart s.chip)

/-- `TI_TEMPERATURE_READ`: the reading of every 1 ms (R284). -/
def execTiTemperatureRead (deciC : Int) (s : State) : Host.Outcome State Fault Refusal :=
  next s (s.chip.modSegs fun x => { x with tiTemp := deciC })

/-- `TRACKING_PASS_COMPLETE`: unless the TI has stopped (R461), each group's replica line is measured, and the codes of its lanes are rescaled and ready; ideal
times never change (R284, R285). -/
def trackingComplete (s : Chip) : Chip :=
  if s.segs.tracking = false ∨ s.runs 6 = false then s
  else
    let s := s.modSegs fun x =>
      { x with tracking := false, trackDone := some s.clk.ticks, trackDoneTemp := x.trackTemp, replicas := (List.range 8).map (Config.replica s.clk.ticks) }
    (s.eachLane (List.range 64) fun n => Lane.ready (s.laneRuns n) s.nowFine (s.laneCodes n)).modBackground fun b =>
      { b with activities := b.activities.upd {} 4 fun a =>
        { a with state := if a.state = .behind then .behind else .idle, progress := 0, lastMs := s.upMs % 2 ^ 32, completions := satAdd 32 a.completions 1 } }

/-- An arm run while tracking is behind begins step 7 with a tracking pass (Table 18.3). -/
def Chip.armPass (s : Chip) : Chip :=
  if (SMap.get s.background.activities {} 4).state = .behind ∧ s.runs 6 then
    trackingComplete (s.modSegs fun x => { x with tracking := true, trackAt := s.clk.ticks, trackTemp := x.tiTemp })
  else s

/-- `TRACKING_PASS_COMPLETE` (R285). -/
def execTrackingPassComplete (s : State) : Host.Outcome State Fault Refusal := next s (trackingComplete s.chip)

/-- Calibration is current: the last pass completed less than 150 ms ago, and the temperature is within 8 °C of its reading at
that pass's start (R286). -/
def Chip.calibrated (s : Chip) : Bool :=
  (match s.segs.trackDone with
   | some t => !s.passedUs t 150000
   | none => false) && decide ((s.segs.tiTemp - s.segs.trackDoneTemp).natAbs ≤ 80)

end Sys2Proof.Machine
end

