-- ==== Sys2Proof/Machine/Program.lean ====
section
/-! DEFINITION. The static checks of a sequencer program (R245, R248, R249): loop bodies, subroutines,
jump targets, reachable words, resident heads and the issue rate. -/

namespace Sys2Proof.Machine

/-! ## Loops and subroutines (R248) -/

/-- The pairs LOOP and ENDL of a program, or the address of an unmatched one. (DEDUCED, log 41.) -/
def loopPairs : List (Nat × Option SeqOp) → List Nat → List (Nat × Nat) → Nat ⊕ List (Nat × Nat)
  | [], [], acc => .inr acc
  | [], l :: _, _ => .inl l
  | (a, some (.loop _)) :: ps, st, acc => loopPairs ps (a :: st) acc
  | (a, some .endl) :: ps, st, acc => match st with
    | l :: st => loopPairs ps st ((l, a) :: acc)
    | [] => .inl a
  | _ :: ps, st, acc => loopPairs ps st acc

/-- The pairs of a program whose loops match. -/
def Seq.pairs (x : Seq) : List (Nat × Nat) := match loopPairs x.program [] [] with | .inr l => l | .inl _ => []

/-- The loop depth of an address: the bodies that contain it, each from behind its LOOP through its ENDL. -/
def depthIn (pairs : List (Nat × Nat)) (a : Nat) : Nat := (pairs.filter fun p => decide (p.1 < a) && decide (a ≤ p.2)).length

/-- The ENDL of a LOOP. -/
def endOf (pairs : List (Nat × Nat)) (l : Nat) : Nat := ((pairs.find? (·.1 == l)).map (·.2)).getD l

/-- The LOOP of an ENDL. -/
def startOf (pairs : List (Nat × Nat)) (e : Nat) : Nat := ((pairs.find? (·.2 == e)).map (·.1)).getD e

/-- The last address of the subroutine at `t`: its first RET at the same loop depth, else the program's
end. -/
def Seq.subEnd (x : Seq) (pairs : List (Nat × Nat)) (t : Nat) : Nat :=
  (((List.range x.progLen).drop t).find? fun a => x.op a == some .ret && depthIn pairs a == depthIn pairs t).getD (x.progLen - 1)

/-- What the checks use of a program. -/
structure ProgShape where
  /-- Loops. -/
  pairs : List (Nat × Nat)
  /-- Subroutines: first and last address. -/
  subs : List (Nat × Nat)
  /-- CALLs: address and target. -/
  calls : List (Nat × Nat)

/-- The shape of a program. -/
def Seq.shape (x : Seq) : ProgShape :=
  let pairs := x.pairs
  let calls := x.program.filterMap fun p => match p.2 with | some (.call t) => some (p.1, t.toNat) | _ => none
  let targets := calls.foldl (fun l c => if l.contains c.2 ∨ c.2 ≥ x.progLen then l else c.2 :: l) []
  ⟨pairs, targets.map fun t => (t, x.subEnd pairs t), calls⟩

/-- The subroutines that contain an address. -/
def ProgShape.within (h : ProgShape) (a : Nat) : List Nat := (h.subs.filter fun u => decide (u.1 ≤ a) && decide (a ≤ u.2)).map (·.1)

/-- The addresses to which the subroutines that contain a RET return. -/
def ProgShape.returns (h : ProgShape) (a : Nat) : List Nat :=
  (h.calls.filter fun c => (h.within a).contains c.2).map (·.1 + 1)

/-- An instruction may be followed by the next word. -/
def falls (i : SeqOp) : Bool :=
  match i with
  | .jmp _ => false | .ret => false | .halt => false | _ => true

/-- The addresses an instruction may lead to, jumps on events taken or not. -/
def ProgShape.succs (h : ProgShape) (a : Nat) (i : SeqOp) : List Nat :=
  match i with
  | .endl => [startOf h.pairs a + 1, a + 1]
  | .call t => [t.toNat]
  | .ret => h.returns a
  | .jmp t => [t.toNat]
  | .jev _ t => [t.toNat, a + 1]
  | .evarm _ t => [t.toNat, a + 1]
  | .halt => []
  | _ => [a + 1]

/-- Places inside a called subroutine are kept apart from those outside by this offset of their address. -/
def called : Nat := 65536

/-- The places reached from a list of places by a successor function. -/
def Seq.walk (x : Seq) (succ : Nat → SeqOp → List Nat) : Nat → List Nat → List Nat → List Nat
  | 0, _, seen => seen
  | _ + 1, [], seen => seen
  | fuel + 1, k :: todo, seen =>
    if seen.contains k ∨ k % called ≥ x.progLen then x.walk succ fuel todo seen
    else match x.op (k % called) with
      | some i => x.walk succ fuel (succ k i ++ todo) (k :: seen)
      | none => x.walk succ fuel todo (k :: seen)

/-- Fuel for a walk over a program: each place adds at most its successors once. -/
def Seq.walkFuel (x : Seq) (h : ProgShape) : Nat := 2 * (x.progLen + 1) * (h.calls.length + 3)

/-- The subroutine at `t` can return through instructions that `through` admits, within so many levels of calls. -/
def Seq.returnsBy (x : Seq) (h : ProgShape) (through : SeqOp → Bool) : Nat → Nat → Bool
  | 0, _ => false
  | n + 1, t =>
    (x.walk (fun a i =>
      if through i = false then []
      else match i with
        | .call u => if x.returnsBy h through n u.toNat then [a + 1] else []
        | .ret => []
        | _ => h.succs a i) (x.walkFuel h) [t] []).any fun a => x.op a == some .ret

/-- The addresses reached from an address, through instructions that `through` admits: a subroutine called on the way returns
to its call and nowhere else, and a RET of the start's own subroutine to every call of it. -/
def Seq.reach (x : Seq) (h : ProgShape) (through : SeqOp → Bool) (start : Nat) : List Nat :=
  (x.walk (fun k i =>
    if through i = false then []
    else match i with
      | .call u => (called + u.toNat) :: (if x.returnsBy h through 9 u.toNat then [k + 1] else [])
      | .ret => if k < called then h.returns k else []
      | _ => (h.succs (k % called) i).map (k / called * called + ·)) (x.walkFuel h) [start] []).map (· % called)

/-! ## The conditions of R248 in the table's order -/

/-- Program invalid: the lowest offending address. A RET that the main body would run into counts as one
outside a subroutine; a word that is never reached runs into none. -/
def Seq.invalidAt (x : Seq) (h : ProgShape) : Option Nat :=
  let live := x.reach h (fun _ => true) 0
  let bad (p : Nat × Option SeqOp) : Bool :=
    match p.2 with
    | none => true
    | some .ret => (h.within p.1).isEmpty
    | some i => falls i && live.contains p.1 && (h.within p.1).isEmpty && !(h.within (p.1 + 1)).isEmpty
  let reserved := (x.program.find? fun p => p.2.isNone).map (·.1)
  match reserved with
  | some a => some a
  | none => match loopPairs x.program [] [] with
    | .inl a => some a
    | .inr _ => (x.program.find? bad).map (·.1)

/-- A chain of `n` further calls starts in the subroutine at `t`. -/
def ProgShape.chain (h : ProgShape) : Nat → Nat → Bool
  | 0, _ => true
  | n + 1, t => h.calls.any fun c => (h.within c.1).contains t && h.chain n c.2

/-- Nesting exceeded: a loop of depth 9, or a call chain of 9 (a chain that reaches itself has no end). -/
def Seq.nestedAt (x : Seq) (h : ProgShape) : Option Nat :=
  (x.program.find? fun p => match p.2 with
    | some (.loop _) => decide (8 ≤ depthIn h.pairs p.1)
    | some (.call t) => decide (t.toNat < x.progLen) && h.chain 8 t.toNat
    | _ => false).map (·.1)

/-- A jump's target is one R248 allows: in the program, in every subroutine of the instruction or with it in the main body, and
no deeper. -/
def Seq.jumpOk (x : Seq) (h : ProgShape) (a t : Nat) : Bool :=
  decide (t < x.progLen) && (h.within a).all (fun u => (h.within t).contains u) && ((h.within a).isEmpty == false || (h.within t).isEmpty) &&
    decide (depthIn h.pairs t ≤ depthIn h.pairs a)

/-- Jump target invalid, or a path past the last word. -/
def Seq.targetAt (x : Seq) (h : ProgShape) : Option Nat :=
  let live := x.reach h (fun _ => true) 0
  if x.progLen = 0 then some 0
  else (x.program.find? fun p => match p.2 with
    | some (.jmp t) => !x.jumpOk h p.1 t.toNat
    | some (.jev _ t) => !x.jumpOk h p.1 t.toNat || (live.contains p.1 && decide (x.progLen ≤ p.1 + 1))
    | some (.evarm _ t) => !x.jumpOk h p.1 t.toNat || (live.contains p.1 && decide (x.progLen ≤ p.1 + 1))
    | some (.call t) => decide (x.progLen ≤ t.toNat) || (live.contains p.1 && decide (x.progLen ≤ p.1 + 1))
    | some i => live.contains p.1 && falls i && decide (x.progLen ≤ p.1 + 1)
    | none => false).map (·.1)

/-- Step 3 of R258. (DEDUCED, log 41.) -/
def Seq.programFail (x : Seq) : Option ArmFail :=
  let h := x.shape
  match x.invalidAt h with
  | some a => some ⟨0x5001, a⟩
  | none => match x.nestedAt h with
    | some a => some ⟨0x5002, a⟩
    | none => (x.targetAt h).map fun a => ⟨0x5003, a⟩

/-! ## Resident heads (R245) -/

/-- The first vector-producing instructions reached from `t`. -/
def Seq.heads (x : Seq) (h : ProgShape) (t : Nat) : List SeqOp :=
  ((x.reach h (fun i => !i.vectors) t).filterMap x.op).filter (·.vectors)

/-- The heads of every JEV and EVARM target name resident segments only. -/
def Chip.headFail (s : Chip) (q : Nat) : Option ArmFail :=
  let x := s.sq q
  let h := x.shape
  firstFail (x.program.map fun p =>
    let t := match p.2 with | some (.jev _ t) => some t.toNat | some (.evarm _ t) => some t.toNat | _ => none
    match t with
    | some t => if (x.heads h t).all fun i => (x.playsOf i).all fun g => (s.desc g).resident then none else some ⟨0x5008, p.1⟩
    | none => none)

/-! ## Issue rate (R249) -/

/-- The vectors one play of a segment has: its records' repeats where it is resident; one per record is
the least of a streamed one, whose data may change. -/
def Chip.segVectors (s : Chip) (g : Nat) : Nat :=
  let d := s.desc g
  if d.resident ∧ d.sample = false then ((List.range d.count).map fun i => (s.vecRec g i).reps).sum else d.count

/-- The least number of vectors an instruction produces; a PLAYS takes the headers of mask 0 (R247). -/
def Chip.leastVectors (s : Chip) (x : Seq) (alg : Nat → Nat) (i : SeqOp) : Nat :=
  match i with
  | .play r g => (r.toNat + 1) * s.segVectors g.toNat
  | .plays b => if x.playsOf (.plays b) = [] then 0 else s.segVectors b.toNat
  | .wait n => n.toNat + 1
  | .alg p => alg p.toNat
  | _ => 0

/-- Some path from `a` produces `k` vectors more. -/
def Seq.canProduce (x : Seq) (h : ProgShape) (least : SeqOp → Nat) : Nat → Nat → Nat → Bool
  | _, 0, _ => true
  | 0, _ + 1, _ => false
  | fuel + 1, k + 1, a =>
    let near := x.reach h (fun i => least i == 0) a
    near.any fun v => match x.op v with
      | some i => decide (0 < least i) && (decide (k + 1 ≤ least i) || (h.succs v i).any fun b => x.canProduce h least fuel (k + 1 - least i) b)
      | none => false

/-- Some path from `a` executes `fuel` instructions up to that of its `k`-th vector, which it reaches. Loops
entered on the path count their passes; for one entered before it, every pass may be the last. Returns
outside the path's own calls go to any caller. -/
def Seq.slowPath (x : Seq) (h : ProgShape) (least : SeqOp → Nat) (evs : List Nat) : Nat → Nat → Nat → List Nat → List Nat → Bool
  | 0, k, a, _, _ => x.canProduce h least k k a
  | fuel + 1, k, a, loops, calls =>
    match x.op a with
    | none => false
    | some i =>
      let n := least i
      if n ≥ k then fuel == 0
      else
        let k := k - n
        let go := x.slowPath h least evs fuel k
        (n != 0 && evs.any fun t => go t [] calls) ||
        match i with
        | .loop c => go (a + 1) (c.toNat :: loops) calls
        | .endl => match loops with
          | 0 :: ls => go (a + 1) ls calls
          | (m + 1) :: ls => go (startOf h.pairs a + 1) (m :: ls) calls
          | [] => go (startOf h.pairs a + 1) [] calls || go (a + 1) [] calls
        | .call t => go t.toNat loops ((a + 1) :: calls)
        | .ret => match calls with
          | b :: cs => go b loops cs
          | [] => (h.returns a).any fun b => go b loops []
        | .jmp t => go t.toNat (loops.drop (depthIn h.pairs a - depthIn h.pairs t.toNat)) calls
        | .jev _ t => go t.toNat (loops.drop (depthIn h.pairs a - depthIn h.pairs t.toNat)) calls || go (a + 1) loops calls
        | .halt => false
        | _ => go (a + 1) loops calls

/-- Step 6 of R258: the address from which a run of 8 vectors is too slow, one that begins with the last vectors of the instruction
before it included. Where 0x3400+s:08 reads 0 there is no P_min, and
step 7 answers. (DEDUCED, log 41; DESIGN CHOICE, log 116.) -/
def Chip.rateFail (s : Chip) (q : Nat) (alg : Nat → Nat) : Option ArmFail :=
  let x := s.sq q
  let h := x.shape
  let least := s.leastVectors x alg
  let evs := x.program.filterMap fun p => match p.2 with | some (.evarm _ t) => some t.toNat | _ => none
  let budget := 8 * s.shortest q / 250 - 8
  let after (p : Nat × Option SeqOp) : List (Nat × Nat) := match p.2 with
    | some i => if least i = 0 then [] else (h.succs p.1 i).flatMap fun a => (List.range (min 7 (least i) + 1)).map fun j => (a, 8 - j)
    | none => []
  let starts := (0 :: evs).map (·, 8) ++ x.program.flatMap after
  if s.shortest q = 0 then none else (starts.find? fun p => x.slowPath h least evs (budget + 1) p.2 p.1 [] []).map fun p => ⟨0x5007, p.1⟩

end Sys2Proof.Machine
end

