-- ==== Sys2Proof/Machine/Generators.lean ====
section
/-! DEFINITION. The algorithmic generators (R305 to R312): geometry, scramble, backgrounds, march programs,
templates, the field map, the order of operations and the checks of R311. -/

namespace Sys2Proof.Machine

/-- ceil(log2 n). -/
def clog2 (n : Nat) : Nat := ((List.range 26).find? fun k => decide (n ≤ 2 ^ k)).getD 26

/-- Address bits of x. -/
def Generator.nx (g : Generator) : Nat := clog2 g.xCount
/-- Address bits of y. -/
def Generator.ny (g : Generator) : Nat := clog2 g.yCount
/-- Address bits. -/
def Generator.n (g : Generator) : Nat := g.nx + g.ny

/-- The bus address of a cell address (R305). -/
def Generator.bus (g : Generator) (a : Nat) : Nat :=
  let mask := fieldAt g.scramble 24 3
  ((List.range 24).map fun i => if (a.testBit (byteAt g.scramble i)).xor (mask.testBit i) then 2 ^ i else 0).sum

/-- The parity of the bits of a number. -/
def parity (v : Nat) : Bool := (List.range 32).foldl (fun p i => p.xor (v.testBit i)) false

/-- The data of background `q` at a cell; `one` for the operations W1 and R1 (R306). -/
def Generator.data (g : Generator) (q a : Nat) (one : Bool) : Nat :=
  let ones := 2 ^ g.width.toNat - 1
  let d := fieldAt g.backgrounds (5 * q) 2 &&& ones
  if (parity (a &&& fieldAt g.backgrounds (5 * q + 2) 3)).xor one then d ^^^ ones else d

/-- March program `p` of a generator. -/
def Generator.program (g : Generator) (p : Nat) : List Word32 := g.programs.get [] p

/-- The operations of a march element, in their order. -/
def marchOps (e : Word32) : List Nat := (List.range ((e.extractLsb' 16 2).toNat + 1)).map fun i => e.toNat / 16 ^ i % 16

/-- An element is a pause (Table 11.2). -/
def isPause (e : Word32) : Bool := e.extractLsb' 30 2 == 2#2

/-- The hold vectors of a pause. -/
def pauseHolds (e : Word32) : Nat := (e.extractLsb' 0 24).toNat + 1

/-- A march element has no reserved encoding (Table 11.2). -/
def elementOk (e : Word32) : Bool :=
  match (e.extractLsb' 30 2).toNat with
  | 2 => e.extractLsb' 24 6 == 0#6
  | 3 => false
  | _ =>
    let n := (e.extractLsb' 16 2).toNat + 1
    e.extractLsb' 18 8 == 0#8 && (List.range 4).all fun i =>
      let op := e.toNat / 16 ^ i % 16
      if i < n then decide (1 ≤ op) && decide (op ≤ 4) else op == 0

/-- The cell address of the `i`-th cell an element visits (R307). -/
def Generator.cell (g : Generator) (e : Word32) (i : Nat) : Nat :=
  let total := g.xCount * g.yCount
  let i := if e.extractLsb' 30 2 = 1#2 then total - 1 - i else i
  let xFast := e.getLsbD 29
  let x := if xFast then i % max 1 g.xCount else i / max 1 g.yCount
  let y := if xFast then i / max 1 g.xCount else i % max 1 g.yCount
  x * 2 ^ g.ny + y

/-! ## Templates (R308) -/

/-- The template a read (false) or write (true) plays. -/
def Generator.template (g : Generator) (write : Bool) : Nat × Nat := if write then g.writeTemplate else g.readTemplate

/-- Words of a record of a sequencer's full width. -/
def Chip.templateWords (s : Chip) (q : Nat) : Nat := 1 + ceilDiv (s.lanesOf q).length 8

/-- Record `i` of a template. -/
def Chip.templateRec (s : Chip) (q : Nat) (write : Bool) (i : Nat) : VecRec :=
  let x := s.sq q
  let n := s.templateWords q
  recOf (s.lanesOf q).length ((List.range n).map fun j => (x.word ((x.gen.template write).1 + i * n + j)).toNat)

/-- The vectors of one operation. -/
def Chip.templateVectors (s : Chip) (q : Nat) (write : Bool) : Nat :=
  ((List.range ((s.sq q).gen.template write).2).map fun i => (s.templateRec q write i).reps).sum

/-- An operation code writes. -/
def opWrites (op : Nat) : Bool := op == 1 || op == 2
/-- An operation code uses "1" data. -/
def opOne (op : Nat) : Bool := op == 2 || op == 4

/-- The vectors of one visit of an element's operations, or of a pause. -/
def Chip.visitVectors (s : Chip) (q : Nat) (e : Word32) : Nat := ((marchOps e).map fun op => s.templateVectors q (opWrites op)).sum

/-- The vectors of a march element. -/
def Chip.elementVectors (s : Chip) (q : Nat) (e : Word32) : Nat :=
  let g := (s.sq q).gen
  if isPause e then pauseHolds e else g.xCount * g.yCount * s.visitVectors q e

/-- The vectors of ALG `p`. -/
def Chip.algVectors (s : Chip) (q p : Nat) : Nat := (((s.sq q).gen.program p).map (s.elementVectors q)).sum

/-- A place inside a march program. -/
structure AlgPos where
  /-- Element index. -/
  element : Nat
  /-- Cell address. -/
  cell : Nat
  /-- Operation index. -/
  op : Nat
  /-- Operation code; 0 in a pause. -/
  code : Nat
  /-- Vector index within the operation. -/
  at_ : Nat
  /-- Background of the element. -/
  background : Nat
  deriving DecidableEq, Repr

/-- The operation that holds vector `v` of one visit. -/
def Chip.opAt (s : Chip) (q : Nat) : List Nat → Nat → Nat → Nat × Nat × Nat
  | [], k, v => (k, 0, v)
  | op :: ops, k, v =>
    let n := s.templateVectors q (opWrites op)
    if v < n then (k, op, v) else s.opAt q ops (k + 1) (v - n)

/-- The place of vector `v` of a march program's elements. -/
def Chip.algAt (s : Chip) (q : Nat) : List Word32 → Nat → Nat → Option AlgPos
  | [], _, _ => none
  | e :: es, k, v =>
    let n := s.elementVectors q e
    if v < n then
      if isPause e then some ⟨k, 0, 0, 0, v, 0⟩
      else
        let per := max 1 (s.visitVectors q e)
        let o := s.opAt q (marchOps e) 0 (v % per)
        some ⟨k, (s.sq q).gen.cell e (v / per), o.1, o.2.1, o.2.2, (e.extractLsb' 26 3).toNat⟩
    else s.algAt q es (k + 1) (v - n)

/-- The record of a list of repeat counts that holds vector `v`. -/
def recIndexAt : List Nat → Nat → Nat → Nat
  | [], k, _ => k
  | r :: rs, k, v => if v < r then k else recIndexAt rs (k + 1) (v - r)

/-! ## Field map (R309) -/

/-- A field-map entry's template. -/
def mapWrite (e : Word32) : Bool := e.getLsbD 31
/-- Its invert bit. -/
def mapInvert (e : Word32) : Bool := e.getLsbD 30
/-- Its source. -/
def mapSource (e : Word32) : Nat := (e.extractLsb' 24 6).toNat
/-- Its record index. -/
def mapRecord (e : Word32) : Nat := (e.extractLsb' 6 18).toNat
/-- Its segment lane. -/
def mapLane (e : Word32) : Nat := (e.extractLsb' 0 6).toNat

/-- The source bit of an entry for an operation. -/
def mapBit (e : Word32) (bus data : Nat) : Bool :=
  let v := mapSource e
  (if v < 0x18 then bus.testBit v else data.testBit (v - 0x18)).xor (mapInvert e)

/-- A symbol with its level replaced: of the same kind. -/
def symLevel (sym : Nat) (level : Bool) : Nat := if sym < 4 then (if level then 1 else 0) else (if level then 5 else 4)

/-- The substituted symbols of record `i` of an operation. -/
def Generator.substitute (g : Generator) (write : Bool) (i bus data : Nat) (syms : List Nat) : List Nat :=
  g.fieldMap.foldl (fun l e =>
    if mapWrite e = write ∧ mapRecord e = i then l.set (mapLane e) (symLevel (l.getD (mapLane e) 0) (mapBit e bus data)) else l) syms

/-! ## Arm checks (R311) -/

/-- Geometry, data width, scramble table and backgrounds are valid (R305, R306, Table 11.3). -/
def Generator.shapeOk (g : Generator) : Bool :=
  let perm := (List.range 24).map fun i => byteAt g.scramble i
  let mask := fieldAt g.scramble 24 3
  let w := g.width.toNat
  decide (1 ≤ g.xCount * g.yCount) && decide (g.xCount * g.yCount ≤ 16777216) && decide (g.n ≤ 24) &&
    decide (1 ≤ w) && decide (w ≤ 10) &&
    ((List.range g.n).all fun i => (perm.take g.n).contains i) && ((List.range 24).all fun i => decide (i < g.n) || perm.getD i 0 == i) &&
    decide (mask < 2 ^ g.n) && (List.range 8).all fun q => decide (fieldAt g.backgrounds (5 * q) 2 < 2 ^ w)

/-- The range of store words a template takes. -/
def Chip.templateRange (s : Chip) (q : Nat) (write : Bool) : Nat × Nat :=
  let t := (s.sq q).gen.template write
  (t.1, t.1 + t.2 * s.templateWords q)

/-- A template is valid: in the store, from L on, apart from the other, with valid records and 20 ns or
more of play. -/
def Chip.templateOk (s : Chip) (q : Nat) (write : Bool) : Bool :=
  let x := s.sq q
  let t := s.templateRange q write
  let o := s.templateRange q (!write)
  let n := (x.gen.template write).2
  decide (1 ≤ n) && decide (x.progLen ≤ t.1) && decide (t.2 ≤ 4096) && (decide (t.2 ≤ o.1) || decide (o.2 ≤ t.1)) &&
    ((List.range n).all fun i => recOk x false (s.templateRec q write i)) &&
    decide (2000 ≤ ((List.range n).map fun i => let r := s.templateRec q write i; r.reps * s.pu (x.timing r.set)).sum)

/-- A field-map entry is valid. -/
def Chip.mapOk (s : Chip) (q : Nat) (e : Word32) : Bool :=
  let g := (s.sq q).gen
  let v := mapSource e
  let sym := (s.templateRec q (mapWrite e) (mapRecord e)).syms.getD (mapLane e) 7
  decide (mapRecord e < (g.template (mapWrite e)).2) && decide (mapLane e < (s.lanesOf q).length) &&
    (decide (v < g.n) || (decide (0x18 ≤ v) && decide (v < 0x18 + g.width.toNat))) && (sym == 0 || sym == 1 || sym == 4 || sym == 5)

/-- The checks of one march program. -/
def Chip.algFail (s : Chip) (q p : Nat) : Option ArmFail :=
  let g := (s.sq q).gen
  let prog := g.program p
  if g.shapeOk = false ∨ prog = [] then some ⟨0x500C, 256 * p + 255⟩
  else match (List.range prog.length).find? fun i => !elementOk (prog.getD i 0) with
    | some i => some ⟨0x500C, 256 * p + i⟩
    | none =>
      if s.templateOk q false = false then some ⟨0x500D, g.readTemplate.1⟩
      else if s.templateOk q true = false then some ⟨0x500D, g.writeTemplate.1⟩
      else ((List.range g.fieldMap.length).find? fun i => !s.mapOk q (g.fieldMap.getD i 0)).map fun i => ⟨0x500E, i⟩

/-- The march programs a sequencer's program names. -/
def Seq.algs (x : Seq) : List Nat := (List.range 16).filter fun p => x.program.any fun i => i.2 == some (.alg (BitVec.ofNat 4 p))

/-- The generator checks of step 4. -/
def Chip.generatorFail (s : Chip) (q : Nat) : Option ArmFail := firstFail ((s.sq q).algs.map (s.algFail q))

/-- The program's words for the cache share: to the last word of the later template, of those that have a record (R308). -/
def Chip.storeWords (s : Chip) (q : Nat) : Nat :=
  let last (write : Bool) : Nat := if ((s.sq q).gen.template write).2 = 0 then 0 else (s.templateRange q write).2
  max (s.sq q).progLen (max (last false) (last true))

end Sys2Proof.Machine
end

