-- ==== Sys2Proof/Machine/Admission.lean ====
section
/-! DEFINITION. Bandwidth admission (R380 to R384): budgets, charges, the sum per channel, and the shares
that are admitted when they are raised. -/

namespace Sys2Proof.Machine

/-- The data rate of a code in MT/s (Table 14.1). -/
def rateOf (code : Byte) : Nat := match code.toNat with | 0 => 3200 | 1 => 2667 | 2 => 2133 | _ => 1600

/-- Data rate × 2 bytes, in kB/s. -/
def Chip.rawRate (s : Chip) : Nat := rateOf s.dram.rate * 2000

/-- The budget of a channel in kB/s (R381). -/
def Chip.budget (s : Chip) : Nat := s.rawRate * 4 / 5

/-- tRFCpb in ns by the density of a rank in Gb (JESD209-4, log 20). -/
def tRfc (gb : Nat) : Nat := if gb ≤ 4 then 60 else if gb ≤ 8 then 90 else if gb ≤ 16 then 140 else 190

/-- The refresh charge of a channel, tREFIpb being 488 ns (Table 14.5). -/
def Chip.refreshCharge (s : Chip) (c : Nat) : Nat :=
  let d := s.dramCh c
  ceilDiv (s.rawRate * tRfc (8 * d.gib / max 1 d.ranks)) 1952

/-- The row-hammer charge for a threshold, tRC being 60 ns and tFAW 40 ns. -/
def Chip.hammerCharge (s : Chip) (t : Nat) : Nat := ceilDiv (s.rawRate * 960) (t * 40)

/-- The stream period floor, in units of 10 ps (R383). -/
def Chip.pStr (s : Chip) (q : Nat) : Nat := max (s.sq q).floor (s.shortest q)

/-- kB/s of so many bytes in a period in units of 10 ps. -/
def kbps (bytes period : Nat) : Rat := if period = 0 then 0 else (bytes * 100000000 : Nat) / (period : Rat)

/-- The charge of one instruction's streams. -/
def Chip.streamCharge (s : Chip) (q : Nat) (i : SeqOp) : Rat :=
  let x := s.sq q
  (((x.playsOf i).filter fun g => !(s.desc g).resident).map fun g =>
    let d := s.desc g
    (9 / 8 : Rat) * if d.sample then kbps (4 * ceilDiv d.width.toNat 3) (s.pu (x.timing 0)) else kbps d.recBytes (s.pStr q)).foldl (· + ·) 0

/-- The playback charge (Table 14.5). -/
def Chip.playbackCharge (s : Chip) (q : Nat) : Rat :=
  ((s.sq q).program.map fun p => match p.2 with | some i => s.streamCharge q i | none => 0).foldl max 0

/-- The enabled ports attached to a sequencer. -/
def Chip.portsOf (s : Chip) (q : Nat) : List Nat :=
  (List.range 16).filter fun k => let p := SMap.get s.segs.ports {} k; p.enable == 1 && p.seq.toNat == q

/-- T_out of a port in 1/25,600 ns. -/
def Chip.tOutFine (s : Chip) (q k : Nat) : Nat := 16 * s.half (s.sq q).source (SMap.get s.segs.ports {} k)

/-- Frames per second of a port, exactly. -/
def Chip.frameRate (s : Chip) (q k : Nat) : Rat := if s.tOutFine q k = 0 then 0 else 25600000000000 / (s.tOutFine q k : Rat)

/-- The capture charge of a unit (Table 14.5). -/
def Chip.captureCharge (s : Chip) (q : Nat) : Rat :=
  let u := s.unit q
  let src := u.sources
  let d := 2 ^ u.baseDec
  let p := s.shortest q
  (if src.getLsbD 0 then kbps 36 p / d else 0) +
    (if src.getLsbD 1 then 36 * ((s.portsOf q).map (s.frameRate q)).foldl (· + ·) 0 / (5000 * d) else 0) +
    (if src.toNat / 4 % 16 ≠ 0 then kbps (36 * (s.sq q).sites.length) p / 256 else 0)

/-- The sum of a channel for a set of sequencer charges (R382). -/
def Chip.channelSum (s : Chip) (c si ci t : Nat) (seqs : Rat) : Nat :=
  let n := (if s.dram.inService.getLsbD 0 then 1 else 0) + (if s.dram.inService.getLsbD 1 then 1 else 0)
  let v : Rat := (s.refreshCharge c + s.hammerCharge t + 16000 + si + ci : Nat) + seqs / (max 1 n : Nat)
  v.ceil.toNat

/-- The charge of a sequencer that is not idle (R380). -/
def Seq.charge (x : Seq) : Rat := if x.state = .idle then 0 else max x.playback 230400 + x.capture

/-- The sequencers' charges, `but` left out. -/
def Chip.seqCharges (s : Chip) (but : Nat) : Rat := ((s.seqs.filter fun x => x.1 != but).map fun x => x.2.charge).foldl (· + ·) 0

/-- The channels in service. -/
def Chip.serving (s : Chip) : List Nat := (List.range 2).filter fun c => s.dram.inService.getLsbD c

/-- The lowest channel that a set of charges would bring over its budget, with the excess in kB/s. -/
def Chip.overBudget (s : Chip) (si ci t : Nat) (seqs : Rat) : Option (Nat × Nat) :=
  (s.serving.map fun c => (c, s.channelSum c si ci t seqs - s.budget)).find? fun x => decide (0 < x.2)

/-- Step 8 of R258 (R384). -/
def Chip.admissionFail (s : Chip) (q : Nat) : Option ArmFail :=
  let d := s.dram
  let mine := max (s.playbackCharge q) 230400 + s.captureCharge q
  (s.overBudget d.siShare d.ciShare d.rowHammer (s.seqCharges q + mine)).map fun x =>
    ⟨0x8001, 32768 * x.1 + min 0x7FFF (ceilDiv x.2 1000)⟩

/-- The admitted load of the highest channel, 0x4900:08. -/
def Chip.admitted (s : Chip) : Nat :=
  let d := s.dram
  (s.serving.map fun c => s.channelSum c d.siShare d.ciShare d.rowHammer (s.seqCharges 16)).foldl max 0

/-- The range check of an admitted share (Table 14.7). -/
def shareOk (k : ShareKind) (v : Nat) : Nat :=
  match k with
  | .rowHammer => if 512 ≤ v ∧ v ≤ 16384 then 0 else 2
  | _ => if 50000 ≤ v ∧ v ≤ 2000000 then 0 else 2

/-- A write of an admitted share: the row-hammer threshold is locked while a sequencer is not idle
(R391); a raised charge is admitted, or refused and counted (R380). -/
def writeShare (k : ShareKind) (v : Nat) (_ : Req) (s : Chip) : Chip × Reply :=
  let d := s.dram
  let si := if k = .secure then v else d.siShare
  let ci := if k = .conductor then v else d.ciShare
  let t := if k = .rowHammer then v else d.rowHammer
  let raises : Bool := decide (d.siShare < si) || decide (d.ciShare < ci) || decide (s.hammerCharge d.rowHammer < s.hammerCharge t)
  if k = .rowHammer ∧ s.seqs.any (fun x => x.2.state != .idle) then (s, bad 3)
  else if raises && (s.overBudget si ci t (s.seqCharges 16)).isSome then
    (s.modDram fun d => { d with refusals := satAdd 32 d.refusals 1 }, bad 0x8001)
  else (s.modDram fun d => { d with siShare := si, ciShare := ci, rowHammer := t }, ok)

/-- Where a share is written, and its size. -/
def shareObject (k : ShareKind) : Nat × Nat × Nat :=
  match k with
  | .secure => (0x4900, 5, 4) | .conductor => (0x4900, 6, 4) | .rowHammer => (0x4800, 0x0E, 2)

/-- `ADMITTED_SHARE_WRITE` (R380). -/
def execAdmittedShareWrite (p : Path) (tag : Word16) (share : ShareKind) (value : Word32) (s : State) : Host.Outcome State Fault Refusal :=
  let o := shareObject share
  let v := value.toNat % 256 ^ o.2.2
  next s (hostWrite p tag o.1 o.2.1 (le o.2.2 v) (fun _ _ => shareOk share v) (writeShare share v) s.chip)

end Sys2Proof.Machine
end

