-- ==== Sys2Proof/Machine/Aes.lean ====
section
/-! DEFINITION. AES (FIPS 197) and the modes the engines run: CBC, CTR (SP 800-38A), CMAC (SP 800-38B),
GCM (SP 800-38D), key wrap (RFC 3394) and the counter-mode KDF (SP 800-108), which chapters 7 and 8
name: the algorithms are PRESUMED from those standards (log 7). -/

namespace Sys2Proof.Machine

/-- Multiplication by x in the AES field. -/
def xtime (a : Nat) : Nat := if a ≥ 128 then (2 * a) ^^^ 0x11B else 2 * a

/-- Multiplication in the AES field, over `n` bits of `b`. -/
def gmul : Nat → Nat → Nat → Nat
  | 0, _, _ => 0
  | n + 1, a, b => (if b % 2 = 1 then a else 0) ^^^ gmul n (xtime a) (b / 2)

/-- The S-box of FIPS 197, a row for each high nibble. -/
def sboxRows : List (List Nat) := [
  [0x63, 0x7C, 0x77, 0x7B, 0xF2, 0x6B, 0x6F, 0xC5, 0x30, 0x01, 0x67, 0x2B, 0xFE, 0xD7, 0xAB, 0x76],
  [0xCA, 0x82, 0xC9, 0x7D, 0xFA, 0x59, 0x47, 0xF0, 0xAD, 0xD4, 0xA2, 0xAF, 0x9C, 0xA4, 0x72, 0xC0],
  [0xB7, 0xFD, 0x93, 0x26, 0x36, 0x3F, 0xF7, 0xCC, 0x34, 0xA5, 0xE5, 0xF1, 0x71, 0xD8, 0x31, 0x15],
  [0x04, 0xC7, 0x23, 0xC3, 0x18, 0x96, 0x05, 0x9A, 0x07, 0x12, 0x80, 0xE2, 0xEB, 0x27, 0xB2, 0x75],
  [0x09, 0x83, 0x2C, 0x1A, 0x1B, 0x6E, 0x5A, 0xA0, 0x52, 0x3B, 0xD6, 0xB3, 0x29, 0xE3, 0x2F, 0x84],
  [0x53, 0xD1, 0x00, 0xED, 0x20, 0xFC, 0xB1, 0x5B, 0x6A, 0xCB, 0xBE, 0x39, 0x4A, 0x4C, 0x58, 0xCF],
  [0xD0, 0xEF, 0xAA, 0xFB, 0x43, 0x4D, 0x33, 0x85, 0x45, 0xF9, 0x02, 0x7F, 0x50, 0x3C, 0x9F, 0xA8],
  [0x51, 0xA3, 0x40, 0x8F, 0x92, 0x9D, 0x38, 0xF5, 0xBC, 0xB6, 0xDA, 0x21, 0x10, 0xFF, 0xF3, 0xD2],
  [0xCD, 0x0C, 0x13, 0xEC, 0x5F, 0x97, 0x44, 0x17, 0xC4, 0xA7, 0x7E, 0x3D, 0x64, 0x5D, 0x19, 0x73],
  [0x60, 0x81, 0x4F, 0xDC, 0x22, 0x2A, 0x90, 0x88, 0x46, 0xEE, 0xB8, 0x14, 0xDE, 0x5E, 0x0B, 0xDB],
  [0xE0, 0x32, 0x3A, 0x0A, 0x49, 0x06, 0x24, 0x5C, 0xC2, 0xD3, 0xAC, 0x62, 0x91, 0x95, 0xE4, 0x79],
  [0xE7, 0xC8, 0x37, 0x6D, 0x8D, 0xD5, 0x4E, 0xA9, 0x6C, 0x56, 0xF4, 0xEA, 0x65, 0x7A, 0xAE, 0x08],
  [0xBA, 0x78, 0x25, 0x2E, 0x1C, 0xA6, 0xB4, 0xC6, 0xE8, 0xDD, 0x74, 0x1F, 0x4B, 0xBD, 0x8B, 0x8A],
  [0x70, 0x3E, 0xB5, 0x66, 0x48, 0x03, 0xF6, 0x0E, 0x61, 0x35, 0x57, 0xB9, 0x86, 0xC1, 0x1D, 0x9E],
  [0xE1, 0xF8, 0x98, 0x11, 0x69, 0xD9, 0x8E, 0x94, 0x9B, 0x1E, 0x87, 0xE9, 0xCE, 0x55, 0x28, 0xDF],
  [0x8C, 0xA1, 0x89, 0x0D, 0xBF, 0xE6, 0x42, 0x68, 0x41, 0x99, 0x2D, 0x0F, 0xB0, 0x54, 0xBB, 0x16]]

/-- The inverse S-box of FIPS 197, a row for each high nibble. -/
def sboxInvRows : List (List Nat) := [
  [0x52, 0x09, 0x6A, 0xD5, 0x30, 0x36, 0xA5, 0x38, 0xBF, 0x40, 0xA3, 0x9E, 0x81, 0xF3, 0xD7, 0xFB],
  [0x7C, 0xE3, 0x39, 0x82, 0x9B, 0x2F, 0xFF, 0x87, 0x34, 0x8E, 0x43, 0x44, 0xC4, 0xDE, 0xE9, 0xCB],
  [0x54, 0x7B, 0x94, 0x32, 0xA6, 0xC2, 0x23, 0x3D, 0xEE, 0x4C, 0x95, 0x0B, 0x42, 0xFA, 0xC3, 0x4E],
  [0x08, 0x2E, 0xA1, 0x66, 0x28, 0xD9, 0x24, 0xB2, 0x76, 0x5B, 0xA2, 0x49, 0x6D, 0x8B, 0xD1, 0x25],
  [0x72, 0xF8, 0xF6, 0x64, 0x86, 0x68, 0x98, 0x16, 0xD4, 0xA4, 0x5C, 0xCC, 0x5D, 0x65, 0xB6, 0x92],
  [0x6C, 0x70, 0x48, 0x50, 0xFD, 0xED, 0xB9, 0xDA, 0x5E, 0x15, 0x46, 0x57, 0xA7, 0x8D, 0x9D, 0x84],
  [0x90, 0xD8, 0xAB, 0x00, 0x8C, 0xBC, 0xD3, 0x0A, 0xF7, 0xE4, 0x58, 0x05, 0xB8, 0xB3, 0x45, 0x06],
  [0xD0, 0x2C, 0x1E, 0x8F, 0xCA, 0x3F, 0x0F, 0x02, 0xC1, 0xAF, 0xBD, 0x03, 0x01, 0x13, 0x8A, 0x6B],
  [0x3A, 0x91, 0x11, 0x41, 0x4F, 0x67, 0xDC, 0xEA, 0x97, 0xF2, 0xCF, 0xCE, 0xF0, 0xB4, 0xE6, 0x73],
  [0x96, 0xAC, 0x74, 0x22, 0xE7, 0xAD, 0x35, 0x85, 0xE2, 0xF9, 0x37, 0xE8, 0x1C, 0x75, 0xDF, 0x6E],
  [0x47, 0xF1, 0x1A, 0x71, 0x1D, 0x29, 0xC5, 0x89, 0x6F, 0xB7, 0x62, 0x0E, 0xAA, 0x18, 0xBE, 0x1B],
  [0xFC, 0x56, 0x3E, 0x4B, 0xC6, 0xD2, 0x79, 0x20, 0x9A, 0xDB, 0xC0, 0xFE, 0x78, 0xCD, 0x5A, 0xF4],
  [0x1F, 0xDD, 0xA8, 0x33, 0x88, 0x07, 0xC7, 0x31, 0xB1, 0x12, 0x10, 0x59, 0x27, 0x80, 0xEC, 0x5F],
  [0x60, 0x51, 0x7F, 0xA9, 0x19, 0xB5, 0x4A, 0x0D, 0x2D, 0xE5, 0x7A, 0x9F, 0x93, 0xC9, 0x9C, 0xEF],
  [0xA0, 0xE0, 0x3B, 0x4D, 0xAE, 0x2A, 0xF5, 0xB0, 0xC8, 0xEB, 0xBB, 0x3C, 0x83, 0x53, 0x99, 0x61],
  [0x17, 0x2B, 0x04, 0x7E, 0xBA, 0x77, 0xD6, 0x26, 0xE1, 0x69, 0x14, 0x63, 0x55, 0x21, 0x0C, 0x7D]]

/-- A byte through a table of 16 rows. -/
def throughRows (t : List (List Nat)) (a : Nat) : Nat := (t.getD (a / 16) []).getD (a % 16) 0

/-- The S-box. -/
def sbox (a : Nat) : Nat := throughRows sboxRows a

/-- The S-box's inverse. -/
def sboxInv (a : Nat) : Nat := throughRows sboxInvRows a

/-- A column or word of four bytes. -/
abbrev Quad := Nat × Nat × Nat × Nat

/-- The words of a byte string, four bytes each. -/
def quads : Nat → List Nat → List Quad
  | 0, _ => []
  | n + 1, l => (l.getD 0 0, l.getD 1 0, l.getD 2 0, l.getD 3 0) :: quads n (l.drop 4)

/-- Exclusive or of two words. -/
def xorQ (a b : Quad) : Quad := (a.1 ^^^ b.1, a.2.1 ^^^ b.2.1, a.2.2.1 ^^^ b.2.2.1, a.2.2.2 ^^^ b.2.2.2)

/-- A word through a table. -/
def mapQ (f : Nat → Nat) (q : Quad) : Quad := (f q.1, f q.2.1, f q.2.2.1, f q.2.2.2)

/-- `n` further words of the key schedule; the list holds the words newest first. -/
def keyWords (nk : Nat) : Nat → Nat → Nat → List Quad → List Quad
  | 0, _, _, l => l
  | n + 1, i, rcon, l =>
    let prev := l.getD 0 (0, 0, 0, 0)
    let old := l.getD (nk - 1) (0, 0, 0, 0)
    let sub := mapQ sbox
    if i % nk = 0 then
      let r := sub (prev.2.1, prev.2.2.1, prev.2.2.2, prev.1)
      keyWords nk n (i + 1) (xtime rcon) (xorQ old (r.1 ^^^ rcon, r.2.1, r.2.2.1, r.2.2.2) :: l)
    else if nk > 6 ∧ i % nk = 4 then keyWords nk n (i + 1) rcon (xorQ old (sub prev) :: l)
    else keyWords nk n (i + 1) rcon (xorQ old prev :: l)

/-- The round-key words of a 16- or 32-byte key. -/
def keySchedule (key : Bytes) : List Quad :=
  let nk := key.length / 4
  (keyWords nk (4 * (nk + 7) - nk) nk 1 (quads nk (key.map (·.toNat))).reverse).reverse

/-- MixColumns of one column with the given coefficients. -/
def mixQ (a b c d : Nat) (q : Quad) : Quad :=
  let m := gmul 8
  (m q.1 a ^^^ m q.2.1 b ^^^ m q.2.2.1 c ^^^ m q.2.2.2 d,
   m q.1 d ^^^ m q.2.1 a ^^^ m q.2.2.1 b ^^^ m q.2.2.2 c,
   m q.1 c ^^^ m q.2.1 d ^^^ m q.2.2.1 a ^^^ m q.2.2.2 b,
   m q.1 b ^^^ m q.2.1 c ^^^ m q.2.2.1 d ^^^ m q.2.2.2 a)

/-- ShiftRows by `d` columns per row (1 for the cipher, 3 for its inverse). -/
def shiftRows (d : Nat) (s : List Quad) : List Quad :=
  (List.range 4).map fun c =>
    let g (r : Nat) := s.getD ((c + d * r) % 4) (0, 0, 0, 0)
    ((g 0).1, (g 1).2.1, (g 2).2.2.1, (g 3).2.2.2)

/-- AddRoundKey with round key `r`. -/
def addKey (ks : List Quad) (r : Nat) (s : List Quad) : List Quad := (s.zip (ks.drop (4 * r))).map fun x => xorQ x.1 x.2

/-- The bytes of a state. -/
def fromQuads (s : List Quad) : Bytes :=
  s.flatMap fun q => [BitVec.ofNat 8 q.1, BitVec.ofNat 8 q.2.1, BitVec.ofNat 8 q.2.2.1, BitVec.ofNat 8 q.2.2.2]

/-- AES encryption of one block with a key schedule. (PRESUMED, log 7.) -/
def aesEnc (ks : List Quad) (b : Bytes) : Bytes :=
  let nr := ks.length / 4 - 1
  let sub := List.map (mapQ sbox)
  let s := addKey ks 0 (quads 4 (b.map (·.toNat)))
  let s := (List.range (nr - 1)).foldl (fun s r => addKey ks (r + 1) ((shiftRows 1 (sub s)).map (mixQ 2 3 1 1))) s
  fromQuads (addKey ks nr (shiftRows 1 (sub s)))

/-- AES decryption of one block with a key schedule. -/
def aesDec (ks : List Quad) (b : Bytes) : Bytes :=
  let nr := ks.length / 4 - 1
  let sub := List.map (mapQ sboxInv)
  let s := addKey ks nr (quads 4 (b.map (·.toNat)))
  let s := (List.range (nr - 1)).foldl (fun s r => (addKey ks (nr - 1 - r) (sub (shiftRows 3 s))).map (mixQ 14 11 13 9)) s
  fromQuads (addKey ks 0 (sub (shiftRows 3 s)))

/-- CBC encryption of `n` blocks. -/
def cbcEnc (ks : List Quad) : Nat → Bytes → Bytes → Bytes
  | 0, _, _ => []
  | n + 1, iv, m =>
    let c := aesEnc ks (xorBytes iv (m.take 16))
    c ++ cbcEnc ks n c (m.drop 16)

/-- CBC decryption of `n` blocks. -/
def cbcDec (ks : List Quad) : Nat → Bytes → Bytes → Bytes
  | 0, _, _ => []
  | n + 1, iv, m => xorBytes iv (aesDec ks (m.take 16)) ++ cbcDec ks n (m.take 16) (m.drop 16)

/-- `n` blocks of key stream; the low `w` bytes of the counter block count. -/
def ctrStream (ks : List Quad) (w : Nat) : Nat → Bytes → Bytes
  | 0, _ => []
  | n + 1, ctr =>
    aesEnc ks ctr ++ ctrStream ks w n (ctr.take (16 - w) ++ be w ((beNat (ctr.drop (16 - w)) + 1) % 256 ^ w))

/-- CTR encryption and decryption. -/
def ctr (ks : List Quad) (w : Nat) (iv m : Bytes) : Bytes := xorBytes m (ctrStream ks w ((m.length + 15) / 16) iv)

/-- Doubling in the CMAC field. -/
def cmacDouble (b : Bytes) : Bytes :=
  let v := beNat b * 2
  be 16 (if v ≥ 2 ^ 128 then (v % 2 ^ 128) ^^^ 0x87 else v)

/-- The CBC-MAC chain over `n` full blocks. -/
def cmacChain (ks : List Quad) : Nat → Bytes → Bytes → Bytes
  | 0, x, _ => x
  | n + 1, x, m => cmacChain ks n (aesEnc ks (xorBytes x (m.take 16))) (m.drop 16)

/-- AES-CMAC. (PRESUMED, log 7.) -/
def cmac (key m : Bytes) : Bytes :=
  let ks := keySchedule key
  let k1 := cmacDouble (aesEnc ks (List.replicate 16 0))
  let n := (m.length + 15) / 16
  if n ≠ 0 ∧ m.length % 16 = 0 then
    let x := cmacChain ks (n - 1) (List.replicate 16 0) m
    aesEnc ks (xorBytes x (xorBytes k1 (m.drop (16 * (n - 1)))))
  else
    let x := cmacChain ks (n - 1) (List.replicate 16 0) m
    aesEnc ks (xorBytes x (xorBytes (cmacDouble k1) (pad 16 (m.drop (16 * (n - 1)) ++ [0x80]))))

/-- Multiplication in the GCM field, over `n` bits of `y` from the most significant of `w`. -/
def gcmMul : Nat → Nat → Nat → Nat → Nat
  | 0, z, _, _ => z
  | n + 1, z, v, y =>
    gcmMul n (if (y / 2 ^ n) % 2 = 1 then z ^^^ v else z)
      (if v % 2 = 1 then (v / 2) ^^^ 0xE1000000000000000000000000000000 else v / 2) y

/-- GHASH over `n` blocks. -/
def ghash (h : Nat) : Nat → Nat → Bytes → Nat
  | 0, x, _ => x
  | n + 1, x, m => ghash h n (gcmMul 128 0 h (x ^^^ beNat (pad 16 (m.take 16)))) (m.drop 16)

/-- Zero bytes up to a block boundary. -/
def padBlock (m : Bytes) : Bytes := m ++ List.replicate ((16 - m.length % 16) % 16) 0

/-- The GCM tag of a ciphertext with a 12-byte IV. -/
def gcmTag (ks : List Quad) (iv aad c : Bytes) : Bytes :=
  let h := beNat (aesEnc ks (List.replicate 16 0))
  let m := padBlock aad ++ padBlock c ++ be 8 (8 * aad.length) ++ be 8 (8 * c.length)
  xorBytes (be 16 (ghash h (m.length / 16) 0 m)) (aesEnc ks (iv ++ [0, 0, 0, 1]))

/-- The GCM cipher with a 12-byte IV, either direction. (PRESUMED, log 7.) -/
def gcmCipher (ks : List Quad) (iv m : Bytes) : Bytes := ctr ks 4 (iv ++ [0, 0, 0, 2]) m

/-- One pass of key wrap over the `n` registers, `t` the counter before the first. -/
def kwPass (ks : List Quad) : Nat → Bytes × List Bytes → List Bytes → Bytes × List Bytes
  | _, (a, out), [] => (a, out.reverse)
  | t, (a, out), r :: rs =>
    let b := aesEnc ks (a ++ r)
    kwPass ks (t + 1) (xorBytes (b.take 8) (be 8 (t + 1)), b.drop 8 :: out) rs

/-- The 8-byte registers of a byte string. -/
def registers : Nat → Bytes → List Bytes
  | 0, _ => []
  | n + 1, b => b.take 8 :: registers n (b.drop 8)

/-- Key wrap (RFC 3394) with the default initial value. (PRESUMED, log 7.) -/
def kwWrap (kek plain : Bytes) : Bytes :=
  let ks := keySchedule kek
  let n := plain.length / 8
  let r := (List.range 6).foldl (fun (x : Bytes × List Bytes) j => kwPass ks (n * j) (x.1, []) x.2)
    (List.replicate 8 0xA6, registers n plain)
  r.1 ++ r.2.flatten

/-- One pass of key unwrap; registers are given last first. -/
def kwUnpass (ks : List Quad) : Nat → Bytes × List Bytes → List Bytes → Bytes × List Bytes
  | _, (a, out), [] => (a, out)
  | t, (a, out), r :: rs =>
    let b := aesDec ks (xorBytes a (be 8 t) ++ r)
    kwUnpass ks (t - 1) (b.take 8, b.drop 8 :: out) rs

/-- Key unwrap (RFC 3394): none when the integrity value fails. -/
def kwUnwrap (kek wrapped : Bytes) : Option Bytes :=
  let ks := keySchedule kek
  let n := wrapped.length / 8 - 1
  let r := (List.range 6).foldl (fun (x : Bytes × List Bytes) j => kwUnpass ks (n * (6 - j)) (x.1, []) x.2.reverse)
    (wrapped.take 8, registers n (wrapped.drop 8))
  if r.1 = List.replicate 8 0xA6 then some r.2.flatten else none

/-- `n` blocks of the counter-mode KDF with AES-CMAC, from counter `i`: PRF input is the 32-bit
counter and the fixed input (SP 800-108). -/
def kdfBlocks (key fixed : Bytes) : Nat → Nat → Bytes
  | 0, _ => []
  | n + 1, i => cmac key (be 4 i ++ fixed) ++ kdfBlocks key fixed n (i + 1)

/-- `len` bytes of the counter-mode KDF with AES-CMAC. (PRESUMED, log 7.) -/
def kdf (key fixed : Bytes) (len : Nat) : Bytes := (kdfBlocks key fixed ((len + 15) / 16) 1).take len

end Sys2Proof.Machine
end

