-- ==== Sys2Proof/Machine/Ecc.lean ====
section
/-! DEFINITION. Modular arithmetic, elliptic curves P-256 and P-384, ECDSA (FIPS 186-5), ECDH
(SP 800-56A) and RSASSA-PSS (RFC 8017), which Tables 6.9 and 8.3 name: the algorithms are PRESUMED
from those standards (log 7). -/

namespace Sys2Proof.Machine

/-- `b ^ e mod m` over the low `n` bits of `e`. -/
def powMod (m : Nat) : Nat → Nat → Nat → Nat
  | 0, _, _ => 1 % m
  | n + 1, b, e =>
    let r := powMod m n (b * b % m) (e / 2)
    if e % 2 = 1 then r * b % m else r

/-- The inverse modulo a prime. -/
def invMod (p a : Nat) : Nat := powMod p 384 (a % p) (p - 2)

/-- A difference modulo `p`. -/
def subMod (p a b : Nat) : Nat := (a % p + (p - b % p)) % p

/-- A curve y² = x³ − 3x + b over a prime field with a base point of prime order. -/
structure Curve where
  p : Nat
  b : Nat
  n : Nat
  gx : Nat
  gy : Nat
  /-- Bytes of a coordinate. -/
  len : Nat

/-- P-256. -/
def p256 : Curve where
  p := 0xffffffff00000001000000000000000000000000ffffffffffffffffffffffff
  b := 0x5ac635d8aa3a93e7b3ebbd55769886bc651d06b0cc53b0f63bce3c3e27d2604b
  n := 0xffffffff00000000ffffffffffffffffbce6faada7179e84f3b9cac2fc632551
  gx := 0x6b17d1f2e12c4247f8bce6e563a440f277037d812deb33a0f4a13945d898c296
  gy := 0x4fe342e2fe1a7f9b8ee7eb4a7c0f9e162bce33576b315ececbb6406837bf51f5
  len := 32

/-- P-384. -/
def p384 : Curve where
  p := 0xfffffffffffffffffffffffffffffffffffffffffffffffffffffffffffffffeffffffff0000000000000000ffffffff
  b := 0xb3312fa7e23ee7e4988e056be3f82d19181d9c6efe8141120314088f5013875ac656398d8a2ed19d2a85c8edd3ec2aef
  n := 0xffffffffffffffffffffffffffffffffffffffffffffffffc7634d81f4372ddf581a0db248b0a77aecec196accc52973
  gx := 0xaa87ca22be8b05378eb1c71ef320ad746e1d3b628ba79b9859f741e082542a385502f25dbf55296c3a545e3872760ab7
  gy := 0x3617de4a96262c6f5d9e98bf9292dc29f8f41dbd289a147ce9da3113b5f0b8c00a60b1ce1d7e819d7a431d7c90ea0e5f
  len := 48

/-- A point: none is the point at infinity. -/
abbrev Point := Option (Nat × Nat)

/-- The sum of two points. -/
def Curve.add (c : Curve) : Point → Point → Point
  | none, q => q
  | p, none => p
  | some (x1, y1), some (x2, y2) =>
    if x1 = x2 ∧ (y1 + y2) % c.p = 0 then none
    else
      let l := if x1 = x2 then subMod c.p (3 * x1 * x1) 3 * invMod c.p (2 * y1) % c.p
        else subMod c.p y2 y1 * invMod c.p (subMod c.p x2 x1) % c.p
      let x3 := subMod c.p (l * l) (x1 + x2)
      some (x3, subMod c.p (l * subMod c.p x1 x3) y1)

/-- A multiple of a point, over the low `n` bits of the multiplier. -/
def Curve.mul (c : Curve) : Nat → Nat → Point → Point
  | 0, _, _ => none
  | n + 1, k, q =>
    let r := Curve.mul c n (k / 2) (c.add q q)
    if k % 2 = 1 then c.add q r else r

/-- The base point. -/
def Curve.g (c : Curve) : Point := some (c.gx, c.gy)

/-- A point lies on the curve. -/
def Curve.on (c : Curve) : Point → Bool
  | none => false
  | some (x, y) =>
    decide (x < c.p) && decide (y < c.p) && y * y % c.p == (x * x % c.p * x + (c.p - 3) * x + c.b) % c.p

/-- The point that X ‖ Y encodes. -/
def Curve.decode (c : Curve) (b : Bytes) : Point := some (beNat (b.take c.len), beNat (slice b c.len c.len))

/-- X ‖ Y of a point. -/
def Curve.encode (c : Curve) : Point → Bytes
  | none => List.replicate (2 * c.len) 0
  | some (x, y) => be c.len x ++ be c.len y

/-- X ‖ Y encodes a point of the curve. -/
def Curve.valid (c : Curve) (b : Bytes) : Bool := b.length == 2 * c.len && c.on (c.decode b)

/-- The leftmost bits of a digest as an integer modulo the order (FIPS 186-5). -/
def Curve.hashInt (c : Curve) (h : Bytes) : Nat := beNat (h.take c.len)

/-- ECDSA verification of r ‖ s over a digest with the public key X ‖ Y. (PRESUMED, log 7.) -/
def Curve.verify (c : Curve) (pub hash sig : Bytes) : Bool :=
  let r := beNat (sig.take c.len)
  let s := beNat (slice sig c.len c.len)
  if c.valid pub = false ∨ sig.length ≠ 2 * c.len then false
  else if r = 0 ∨ r ≥ c.n ∨ s = 0 ∨ s ≥ c.n then false
  else
    let w := invMod c.n s
    let u := c.mul (8 * c.len) (c.hashInt hash * w % c.n) c.g
    let v := c.mul (8 * c.len) (r * w % c.n) (c.decode pub)
    match c.add u v with
    | none => false
    | some (x, _) => x % c.n == r

/-- An ECDSA signature r ‖ s of a digest with private key `d` and secret `k`. (PRESUMED, log 7.) -/
def Curve.sign (c : Curve) (d k : Nat) (hash : Bytes) : Bytes :=
  match c.mul (8 * c.len) k c.g with
  | none => List.replicate (2 * c.len) 0
  | some (x, _) =>
    let r := x % c.n
    be c.len r ++ be c.len (invMod c.n k * (c.hashInt hash + r * d) % c.n)

/-- The public key of a private key. -/
def Curve.pub (c : Curve) (d : Nat) : Bytes := c.encode (c.mul (8 * c.len) d c.g)

/-- The ECDH shared x-coordinate, none where the product is the point at infinity, which is not on the curve (R209). -/
def Curve.shared (c : Curve) (d : Nat) (pub : Bytes) : Option Bytes := (c.mul (8 * c.len) d (c.decode pub)).map fun p => be c.len p.1

/-- The ECDH shared x-coordinate. -/
def Curve.ecdh (c : Curve) (d : Nat) (pub : Bytes) : Bytes := (c.shared d pub).getD (List.replicate c.len 0)

/-- `n` blocks of the mask-generation function MGF1 with SHA-384, from counter `i`. -/
def mgf1 (seed : Bytes) : Nat → Nat → Bytes
  | 0, _ => []
  | n + 1, i => sha384 (seed ++ be 4 i) ++ mgf1 seed n (i + 1)

/-- RSASSA-PSS verification with SHA-384, a 48-byte salt and e = 65,537 (Table 6.9). (PRESUMED, log 7.) -/
def rsaPssVerify (modulus hash sig : Bytes) : Bool :=
  let k := modulus.length
  let n := beNat modulus
  if sig.length ≠ k ∨ beNat sig ≥ n then false
  else
    let em := be k (powMod n 17 (beNat sig) 65537)
    let dbLen := k - 49
    let masked := em.take dbLen
    let h := slice em dbLen 48
    let db := xorBytes masked ((mgf1 h ((dbLen + 47) / 48) 0).take dbLen)
    let db := match db with
      | b :: bs => (b &&& 0x7F) :: bs
      | [] => []
    let padLen := dbLen - 49
    byteAt em (k - 1) == 0xBC && decide (byteAt em 0 < 128) && db.take padLen == List.replicate padLen 0 &&
      byteAt db padLen == 1 && h == sha384 (List.replicate 8 0 ++ hash ++ db.drop (padLen + 1))

end Sys2Proof.Machine
end

