-- ==== Sys2Proof/Machine/KeyStore.lean ====
section
/-! DEFINITION. The key store: key types and attributes (R175, R176), key check values (R188), storage
blobs and reservations (R193 to R195), custodian authorisations (R181, R182), the journal entries of
key-state changes (R497) and the answers that wait for them (R189, R502). -/

namespace Sys2Proof.Machine

/-! ## Identity -/

/-- Product code and serial number, 4 bytes each, big-endian (R152). -/
def Chip.identity (s : Chip) : Bytes := be 4 0x00064100 ++ be 4 (s.fuseUsed 0x009).toNat

/-- The ASCII tag of a digest input, as its four bytes. -/
def tagJKKO : Bytes := [0x4A, 0x4B, 0x4B, 0x4F]
/-- "JKAU" (R181). -/
def tagJKAU : Bytes := [0x4A, 0x4B, 0x41, 0x55]
/-- "JKLC" (R152). -/
def tagJKLC : Bytes := [0x4A, 0x4B, 0x4C, 0x43]
/-- "JKDB" (R169). -/
def tagJKDB : Bytes := [0x4A, 0x4B, 0x44, 0x42]
/-- "JKPR" (R492). -/
def tagJKPR : Bytes := [0x4A, 0x4B, 0x50, 0x52]
/-- "JKDV" (R186). -/
def tagJKDV : Bytes := [0x4A, 0x4B, 0x44, 0x56]
/-- "JKST" (R193). -/
def tagJKST : Bytes := [0x4A, 0x4B, 0x53, 0x54]
/-- "JKPK" (R493). -/
def tagJKPK : Bytes := [0x4A, 0x4B, 0x50, 0x4B]
/-- "EWEN" (R190, R191). -/
def tagEWEN : Bytes := [0x45, 0x57, 0x45, 0x4E]

/-! ## Types and attributes -/

/-- Material length of a key type, 0 for a reserved code (Table 7.1). -/
def keyLen (type : Nat) : Nat :=
  match type with
  | 1 => 16 | 2 => 32 | 3 => 32 | 4 => 48 | 5 => 32 | 6 => 48 | 7 => 32 | _ => 0

/-- Usages a type permits, session proof aside (Table 7.1). -/
def typeUsages (type : Nat) : Nat :=
  match type with
  | 1 => 0x003F | 2 => 0x013F | 3 => 0x000C | 4 => 0x000C | 5 => 0x0040 | 6 => 0x0040 | 7 => 0x0080 | _ => 0

/-- The elliptic curve of a key type. -/
def typeCurve (type : Nat) : Curve := if type = 6 then p384 else p256

/-- A type of an elliptic-curve private key. -/
def isEc (type : Nat) : Bool := decide (5 ≤ type) && decide (type ≤ 7)

/-- Every bit of `a` is set in `b`. -/
def bitsWithin (a b : Nat) : Bool := a &&& b == a

/-- Usages and flags that slot, type and exportability allow (R174, R175): slot 0x0000 holds the operator
access key alone. -/
def usageAllowed (slot type flags usage : Nat) : Bool :=
  if slot = 0 then type == 3 && usage == 0x0200 && flags == 0 else bitsWithin usage (typeUsages type)

/-- An elliptic-curve scalar lies in range (R175). -/
def scalarOk (type : Nat) (m : Bytes) : Bool :=
  !isEc type || (decide (1 ≤ beNat m) && decide (beNat m < (typeCurve type).n))

/-- X ‖ Y of a private key, empty for a symmetric type. -/
def publicOf (type : Nat) (m : Bytes) : Bytes := if isEc type then (typeCurve type).pub (beNat m) else []

/-- The key check value (R188). -/
def Key.kcv (k : Key) : Bytes :=
  let z := List.replicate 16 0
  (match k.type.toNat with
   | 1 => cmac k.material z
   | 2 => cmac k.material z
   | 3 => hmac256 k.material z
   | 4 => hmac384 k.material z
   | _ => sha256 k.pub).take 3

/-- The expiry of a key has passed, and its action refuses later jobs (R24, R177). -/
def Chip.keyExpired (s : Chip) (k : Key) : Bool :=
  k.disabled || (k.action != 0 && match k.expiry with
    | some e => decide (400 * e < s.clk.ticks)
    | none => false)

/-- Remaining lifetime in µs; all ones for none (Table 20.2). -/
def Chip.remaining (s : Chip) (k : Key) : Nat :=
  match k.expiry with
  | some e => e - s.us
  | none => 2 ^ 64 - 1

/-! ## The journal and its answers -/

/-- The answer of a key-state change: on a paired active it waits for the standby's acknowledgement (R189,
R502); owner 0 is never replicated (R495). -/
def Chip.keyReply (r : Req) (owner code : Nat) (data : Bytes) (s : Chip) : Chip × Reply :=
  if s.pair.state = .activePaired ∧ owner ≠ 0 then
    (s.modPair fun p => { p with open_ := { p.open_ with waiters := p.open_.waiters ++ [{ dest := r.dest, code := code, data := data }] } }, .later)
  else (s, .done code data)

/-- The pair state lets a key-state change through: 0, not active (R496, R506), or standby unavailable
(R503). -/
def Chip.pairGate (s : Chip) : Nat :=
  match s.pair.state with
  | .standbySync => 0xB001
  | .standbySynced => 0xB001
  | .fenced => 0xB001
  | .activeLost => if s.pair.solo = 1 then 0xB003 else 0
  | _ => 0

/-- Only the refusal of a standby or a fenced device. -/
def Chip.standbyGate (s : Chip) : Nat := if s.pairGate = 0xB001 then 0xB001 else 0

/-- Journal entry 0x01 (Table 20.2). -/
def Chip.journalSlot (slot : Nat) (s : Chip) : Chip :=
  match s.keys.slots.find? slot with
  | some k =>
    if k.owner = 0 then s
    else s.journal true 1 (be 2 slot ++ be 1 k.owner ++ [k.type, k.flags, k.action] ++ be 2 k.usage.toNat ++
      be 4 k.limit ++ be 4 k.reserved ++ be 8 (s.remaining k) ++ pad 48 k.material)
  | none => s

/-- Journal entry 0x02. -/
def Chip.journalEmptied (owner slot : Nat) (s : Chip) : Chip := if owner = 0 then s else s.journal true 2 (be 2 slot)

/-- Custodian keys in index order. -/
def Owner.keyBytes (o : Owner) : Bytes := (o.keys.map (·.2)).flatten

/-- Journal entries 0x03 and 0x04. -/
def Chip.journalOwner (n : Nat) (s : Chip) : Chip :=
  if n = 0 then s
  else
    let o := SMap.get s.keys.owners {} n
    (s.journal true 3 (be 1 n ++ be 1 (if o.active then 1 else 0) ++ be 2 o.quota ++ pad 16 o.name)).journal true 4
      (be 1 n ++ be 1 o.keys.length ++ o.keyBytes)

/-! ## The registry in flash (R196) -/

/-- The bytes of owner table and registry: each owner with its quota, name and custodians by index. (DESIGN CHOICE, log 108.) -/
def regBytes (o : SMap Owner) : Bytes :=
  o.flatMap fun e => be 1 e.1 ++ be 1 (if e.2.active then 1 else 0) ++ be 2 e.2.quota ++ pad 16 e.2.name ++ be 1 e.2.keys.length ++
    e.2.keys.flatMap fun k => be 1 k.1 ++ pad 64 k.2

/-- A change of owners or registry goes into the other copy, and its digest into the AO array (R196). -/
def Chip.commitRegistry (s : Chip) : Chip :=
  s.modKeys fun k =>
    { k with
      regCopies := k.regCopies.set k.regNext { owners := k.owners, bytes := regBytes k.owners }
      regNext := (k.regNext + 1) % 2, regDigest := some (sha256 (regBytes k.owners)) }

/-- At SI start the copy whose digest matches is used; with neither the registry is refused (R196). -/
def Chip.loadRegistry (s : Chip) : Chip :=
  s.modKeys fun k =>
    match k.regDigest with
    | none => { k with registryOk := true }
    | some d =>
      match k.regCopies.find? fun c => sha256 c.bytes == d with
      | some c => { k with owners := c.owners, registryOk := true }
      | none => { k with registryOk := false }

/-- An uncorrectable word of the data area lies in a registry copy (0 and 1), in the blob of slot n - 2, or elsewhere, as
wear management placed them: what it lies in no longer reads as written, and the slot is damaged (R458), though it stays
its owner's and of its type until it is destroyed (R195).
(DESIGN CHOICE, log 72, log 108.) -/
def Chip.damageData (n : Nat) (s : Chip) : Chip :=
  s.modKeys fun k =>
    if n < 2 then
      { k with regCopies := k.regCopies.set n { (k.regCopies.getD n {}) with bytes := (k.regCopies.getD n {}).bytes.map (~~~ ·) } }
    else match k.blobs.find? (n - 2) with
      | none => k
      | some b =>
        { k with
          blobs := k.blobs.put (n - 2) (b.take 4 ++ (b.drop 4).map (~~~ ·))
          slots := match k.slots.find? (n - 2) with
            | some x => k.slots.put (n - 2) { x with damaged := true }
            | none => k.slots }

/-! ## Storage (R193 to R195) -/

/-- The storage keys of a blob: K_st_wrap and K_st_mac (R193). -/
def storageKeys (root head gen : Bytes) : Bytes × Bytes :=
  let k := kdf root (tagJKST ++ [0] ++ head ++ gen ++ be 4 512) 64
  (k.take 32, k.drop 32)

/-- The 96 bytes of a blob (Table 7.8). -/
def blobBytes (root : Bytes) (slot : Nat) (k : Key) : Bytes :=
  let head := be 2 slot ++ be 1 k.owner
  let gen := be 4 k.generation
  let ks := storageKeys root head gen
  let b := head ++ [k.type, k.flags, k.action] ++ be 2 k.usage.toNat ++ be 4 k.limit ++ be 4 k.reserved ++
    be 8 (k.expiry.getD (2 ^ 64 - 1)) ++ gen ++ List.replicate 4 0 ++ kwWrap ks.1 (pad 48 k.material)
  b ++ (cmac ks.2 b).take 8

/-- The key that a blob holds: damaged where its MAC fails (R195); uses resume from the stored
reservation (R194). -/
def blobKey (root b : Bytes) : Key :=
  let ks := storageKeys root (b.take 3) (slice b 24 4)
  let type := byteAt b 3
  let e := beNat (slice b 16 8)
  let k : Key :=
    { owner := byteAt b 2, type := b.getD 3 0, flags := b.getD 4 0, action := b.getD 5 0
      usage := BitVec.ofNat 16 (beNat (slice b 6 2)), limit := beNat (slice b 8 4)
      reserved := beNat (slice b 12 4), uses := beNat (slice b 12 4)
      expiry := if e = 2 ^ 64 - 1 then none else some e, generation := beNat (slice b 24 4) }
  if (cmac ks.2 (b.take 88)).take 8 ≠ b.drop 88 then { k with damaged := true }
  else match kwUnwrap ks.1 (slice b 32 56) with
    | some m => { k with material := m.take (keyLen type), pub := publicOf type (m.take (keyLen type)) }
    | none => { k with damaged := true }

/-- A write to the data area takes a free block or not, as wear management decides (log 10). -/
def Chip.useBlock (s : Chip) : Chip :=
  let d := s.drawBool
  d.2.modBoot fun b => { b with freeBlocks := b.freeBlocks - d.1.toNat }

/-- Destroying a key frees a block or not, as wear management decides (log 10). -/
def Chip.freeBlock (s : Chip) : Chip :=
  let d := s.drawBool
  d.2.modBoot fun b => { b with freeBlocks := if d.1 then min 192 (b.freeBlocks + 1) else b.freeBlocks }

/-- The data area takes a write (R459, R460). -/
def Chip.flashFree (s : Chip) : Bool := s.boot.freeBlocks != 0

/-- Write the blob of an occupied slot, its generation one higher (R193); the first of a new key has generation 1, also where
the slot held another before. (DESIGN CHOICE, log 137.) -/
def Chip.writeBlob (slot : Nat) (s : Chip) : Chip :=
  match s.keys.slots.find? slot with
  | some k =>
    let k := { k with generation := (k.generation + 1) % 2 ^ 32 }
    (s.modKeys fun x => { x with slots := x.slots.put slot k, blobs := x.blobs.put slot (blobBytes x.rootKey slot k) }).useBlock
  | none => s

/-- Put a key into a slot, with its blob and journal entry. -/
def Chip.storeKey (slot : Nat) (k : Key) (s : Chip) : Chip :=
  ((s.modKeys fun x => { x with slots := x.slots.put slot k }).writeBlob slot).journalSlot slot

/-- Zeroise a slot, erase its blob and free it (R187). -/
def Chip.destroyKey (slot : Nat) (s : Chip) : Chip :=
  let owner := (SMap.get s.keys.slots {} slot).owner
  ((s.modKeys fun x => { x with slots := x.slots.erase slot, blobs := x.blobs.erase slot }).freeBlock).journalEmptied owner slot

/-- An armed configuration refers to a key slot (R177, Table 7.5). -/
def Chip.slotArmed (s : Chip) (slot : Nat) : Bool := s.seqs.any fun x => x.2.keyRefs.contains slot

/-- Slots an owner occupies (R173). -/
def Chip.slotsUsed (s : Chip) (owner : Nat) : Nat := (s.keys.slots.filter fun x => x.2.owner == owner).length

/-- Reserve `n` more uses of a key in its blob (R194): 0, or flash space exhausted (R460). (DEDUCED, log 39.) -/
def Chip.reserveUses (slot n : Nat) (s : Chip) : Chip × Nat :=
  if s.flashFree then
    (((s.modKeys fun x => { x with slots := x.slots.upd {} slot fun k => { k with reserved := satAdd 32 k.reserved n } }).writeBlob slot).journalSlot slot, 0)
  else (s, 0x2006)

/-- The use reservation of a master key that an armed configuration names is raised while 64 reserved uses or fewer remain (R326). -/
def Chip.keepReserve (slot : Nat) (s : Chip) : Chip :=
  let k := SMap.get s.keys.slots {} slot
  if (s.seqs.any fun e => e.2.masterRefs.contains slot) ∧ k.reserved ≤ k.uses + 64 then (s.reserveUses slot 256).1 else s

/-- Count one use of a key (R176, R194): 0, use limit reached, or flash space exhausted. -/
def Chip.countUse (slot : Nat) (s : Chip) : Chip × Nat :=
  let k := SMap.get s.keys.slots {} slot
  if k.limit ≠ 0 ∧ k.uses ≥ k.limit then (s, 0x3107)
  else
    let r := if k.uses ≥ k.reserved then s.reserveUses slot 256 else (s, 0)
    if r.2 ≠ 0 then r
    else ((r.1.modKeys fun x => { x with slots := x.slots.upd {} slot fun k => { k with uses := satAdd 32 k.uses 1 } }).keepReserve slot, 0)

/-- Reload one blob at SI start, with a record where its MAC fails (R195). -/
def Chip.reloadBlob (x : Nat × Bytes) (s : Chip) : Chip :=
  let k := blobKey s.keys.rootKey x.2
  let s := s.modKeys fun y => { y with slots := y.slots.put x.1 k }
  if k.damaged then s.record 0x3001 3 (le 2 x.1) else s

/-- The key store is reloaded from the blobs (R195). -/
def Chip.reloadKeys (s : Chip) : Chip :=
  s.keys.blobs.foldl (fun s x => s.reloadBlob x) (s.modKeys fun y => { y with slots := [] })

/-- The pair key, wrapped under the root key (R491), is lost with it. (DESIGN CHOICE, log 33.) -/
def Chip.losePairKey (s : Chip) : Chip := s.modPair fun p => { p with privateKey := [], publicKey := List.replicate 64 0, encKey := [], macKey := [] }

/-- The key store, the SI's working memory, the context slots and the root key register are overwritten
with zeros (R63, R201, Table 6.3), and with the root key goes what it wraps. -/
def Chip.zeroise (s : Chip) : Chip :=
  ((s.modKeys fun x => { x with slots := [], rootKey := List.replicate 32 0 }).modCrypto fun c => { c with contexts := [], drbgUp := false, drbgKey := [], drbgV := [] }).losePairKey

/-- The root-key check of an AO power-on (R67, R202): a key that fails it is lost and the SI enters dead; a device that the same
reset brought to await re-arm goes on awaiting it (R204). (DESIGN CHOICE, log 33.) -/
def Chip.rootKeyCheck (s : Chip) : Chip :=
  if s.keys.rootOk ∧ s.keys.rootLost = false then s
  else if s.keys.rootLost then (s.putIsland 3 .dead).record 0x1007 1 []
  else
    (((s.losePairKey.modKeys fun x => { x with rootLost := true, rootKey := List.replicate 32 0, arm := if x.arm = .awaitingRearm then .awaitingRearm else .deadRootKey, cause := x.cause ||| 0x100 }).putIsland 3
      .dead).record 0x000B 3 [3, 7]).record 0x1007 1 []

/-! ## Custodian authorisations -/

/-- What a signature of Table 7.3 covers (R181). -/
def authMessage (a digest : Bytes) : Bytes := sha256 (tagJKAU ++ a.take 4 ++ digest)

/-- One authorisation names a registered custodian of the owner. -/
def Chip.custodian (s : Chip) (owner : Nat) (a : Bytes) : Option Bytes :=
  if byteAt a 1 = owner then SMap.find? (SMap.get s.keys.owners {} owner).keys (byteAt a 2) else none

/-- The checks of R182 over exactly two authorisations, in its order: 0, or the first failure's code.
A reserved format or byte is an invalid value (R9; log 11); the third check needs the VI to run. (DESIGN CHOICE, log 107.) -/
def Chip.checkAuths (s : Chip) (owner : Nat) (digest auths : Bytes) : Nat :=
  let a := auths.take 68
  let b := auths.drop 68
  if auths.length ≠ 136 then 0x000D
  else if byteAt a 0 ≠ 1 ∨ byteAt b 0 ≠ 1 ∨ byteAt a 3 ≠ 0 ∨ byteAt b 3 ≠ 0 then 0x0002
  else if s.keys.registryOk = false then 0x310B
  else match s.custodian owner a, s.custodian owner b with
    | some ka, some kb =>
      if byteAt a 2 = byteAt b 2 then 0x310A
      else if s.runs 4 = false then 0x0004
      else if p256.verify ka (authMessage a digest) (a.drop 4) && p256.verify kb (authMessage b digest) (b.drop 4) then 0
      else 0x3109
    | _, _ => 0x310B

/-! ## Nonces (R184) -/

/-- The operation nonce that a request carries is taken: true where it is the session's own and not older than 600 s.
Whichever session it is bound to, the request consumes it, whatever the outcome. -/
def Chip.takeNonce (t : Target) (nonce : Bytes) (s : Chip) : Bool × Chip :=
  let own : Bool := match (s.sessionOf t).bind (·.opNonce) with
    | some (v, at_) => v == nonce && decide (s.clk.ticks ≤ at_ + 400 * 600000000)
    | none => false
  (own, s.modHost fun h => { h with sessions := h.sessions.map fun e =>
    (e.1, if e.2.opNonce.any (·.1 == nonce) then { e.2 with opNonce := none } else e.2) })

/-- The DRBG gives output: the SI runs, the generator is instantiated and the entropy source has not
failed (R226, R227): 0, not running, or entropy failure. -/
def Chip.drbgGate (s : Chip) : Nat :=
  if s.runs 3 = false then 0x0004 else if s.crypto.entropy = .failed ∨ s.crypto.drbgUp = false then 0x3004 else 0

/-- V counted on by `n` (SP 800-90A). -/
def drbgCount (v : Bytes) (n : Nat) : Bytes := be 16 ((beNat v + n) % 2 ^ 128)

/-- The update function of CTR_DRBG with 48 provided bytes: the new key and V (R227). (PRESUMED, log 7.) -/
def drbgUpdate (key v provided : Bytes) : Bytes × Bytes :=
  let t := xorBytes (ctrStream (keySchedule key) 16 3 (drbgCount v 1)) provided
  (t.take 32, t.drop 32)

/-- The derivation function of CTR_DRBG with AES-256, for 48 bytes (R227). (PRESUMED, log 7.) -/
def drbgDerive (input : Bytes) : Bytes :=
  let m := padBlock (be 4 input.length ++ be 4 48 ++ input ++ [0x80])
  let ks := keySchedule ((List.range 32).map (BitVec.ofNat 8))
  let t := (List.range 3).flatMap fun i => cmacChain ks (m.length / 16 + 1) (List.replicate 16 0) (be 4 i ++ List.replicate 12 0 ++ m)
  let k := keySchedule (t.take 32)
  let a := aesEnc k (t.drop 32)
  let b := aesEnc k a
  a ++ b ++ aesEnc k b

/-- The DRBG takes 1,024 samples: an instantiation with the serial number of 0x1018:04 as its personalisation string, or a
reseed (R227). (DESIGN CHOICE, log 102.) -/
def Chip.drbgTake (anew : Bool) (s : Chip) : Chip :=
  let d := s.drawBytes 1024
  let seed := drbgDerive (if anew then d.1 ++ le 4 (s.fuseUsed 0x009).toNat else d.1)
  d.2.modCrypto fun c =>
    let x := if anew then drbgUpdate (List.replicate 32 0) (List.replicate 16 0) seed else drbgUpdate c.drbgKey c.drbgV seed
    { c with
      drbgKey := x.1, drbgV := x.2, drbgUp := true, drbgRequests := 0, drbgAt := s.clk.ticks
      reseeds := if anew then c.reseeds else satAdd 32 c.reseeds 1 }

/-- One generate request, of at most 1,024 bytes; a reseed comes first after 1,024 requests or 10 s (R227). -/
def Chip.drbgRequest (n : Nat) (s : Chip) : Bytes × Chip :=
  let s := if s.crypto.drbgRequests ≥ 1024 ∨ s.passedUs s.crypto.drbgAt 10000000 then s.drbgTake false else s
  let c := s.crypto
  let blocks := ceilDiv n 16
  let x := drbgUpdate c.drbgKey (drbgCount c.drbgV blocks) (List.replicate 48 0)
  ((ctrStream (keySchedule c.drbgKey) 16 blocks (drbgCount c.drbgV 1)).take n,
    s.modCrypto fun c => { c with drbgKey := x.1, drbgV := x.2, drbgRequests := c.drbgRequests + 1 })

/-- `n` bytes of DRBG output: one generate request for each 1,024 bytes (R227). (DESIGN CHOICE, log 102.) -/
def Chip.drbg (n : Nat) (s : Chip) : Bytes × Chip :=
  (List.range (ceilDiv n 1024)).foldl (fun d i =>
    let x := d.2.drbgRequest (min 1024 (n - 1024 * i))
    (d.1 ++ x.1, x.2)) ([], s)

/-- A private scalar of a curve from the DRBG: its bytes, brought into 1 to n - 1. -/
def scalarFrom (c : Curve) (b : Bytes) : Nat := beNat b % (c.n - 1) + 1

end Sys2Proof.Machine
end

