-- ==== Sys2Proof/Machine/Fuses.lean ====
section
/-! DEFINITION. Fuses, life-cycle codewords, the decode at boot and the wipes (R145 to R158). -/

namespace Sys2Proof.Machine

/-! ## Fuse words -/

/-- The number of blown bits of a word. -/
def popCount (v : Nat) : Nat := ((List.range 32).filter fun i => v.testBit i).length

/-- The bits of `bits` that a set of programming faults keeps unblown in a word (R154). -/
def stuckBits (stuck : List FuseFault) (w : Nat) (bits : Word32) : Word32 :=
  stuck.foldl (fun x f => if f.word.toNat = w then x ||| (f.bits &&& bits) else x) 0

/-- Blow bits of a word; bits that do not verify are recorded (R154). The programmed word reads sound
again, the intent word once none of its marginal bits is left. -/
def Chip.blow (stuck : List FuseFault) (w : Nat) (bits : Word32) (s : Chip) : Chip :=
  let miss := stuckBits stuck w (bits &&& ~~~ s.fuse w)
  let left := if w = 3 then s.life.intentMarginal &&& ~~~ bits else 0
  let s := s.modLife fun l =>
    { l with
      fuses := l.fuses.set 0 w ((l.fuses.get 0 w) ||| (bits &&& ~~~ miss))
      intentMarginal := if w = 3 then left else l.intentMarginal
      marginal := if left = 0 then l.marginal.filter (· != w) else l.marginal }
  if miss = 0 then s else s.record 0x1009 1 (le 2 w ++ le 4 miss.toNat)

/-- One bit shifted through the CRC-7 register of R147. -/
def crc7Bit (c : Nat) (b : Bool) : Nat :=
  let f := (decide (c ≥ 64)) != b
  let c := c * 2 % 128
  if f then c ^^^ 0x09 else c

/-- CRC-7, x^7 + x^3 + 1, initial value zero, bits 23:0 most significant first (R147). -/
def crc7 (v : Nat) : Nat := (List.range 24).foldl (fun c i => crc7Bit c (v.testBit (23 - i))) 0

/-- A trim word's CRC is correct (R147). (DEDUCED, log 34.) -/
def trimCrcOk (v : Nat) : Bool := v / 2 ^ 24 % 128 == crc7 (v % 2 ^ 24)

/-- A trim word that is marginal, or whose CRC fails, uses its safe default with the fuse fault (R147). -/
def Chip.trimFails (s : Chip) (i : Nat) : Bool :=
  s.sound (0x10 + i) == false || trimCrcOk (s.fuse (0x10 + i)).toNat == false

/-- The trim words that use their defaults with the fault raised, as bits (0x2400:0C). -/
def Chip.trimFaults (s : Chip) : Nat := ((List.range 48).map fun i => if s.trimFails i then 2 ^ i else 0).sum

/-! ## States and codewords (R149, R150) -/

/-- The code of a state in 0x2400:01 (Table 6.2). -/
def LifeCycle.code : LifeCycle → Nat
  | .wafer => 0 | .calibrated => 1 | .provisioned => 2 | .service => 3 | .analysis => 4 | .scrapped => 5 | .locked => 6

/-- The state of a code of Table 6.2. -/
def lifeOf (c : Nat) : Option LifeCycle :=
  match c with
  | 0 => some .wafer | 1 => some .calibrated | 2 => some .provisioned | 3 => some .service
  | 4 => some .analysis | 5 => some .scrapped | 6 => some .locked | _ => none

/-- The state whose codeword a value is (R149). -/
def codewordState (v : Nat) : Option LifeCycle :=
  if v = 0 then some .wafer
  else if v = 0xF then some .calibrated
  else if v = 0xFF then some .provisioned
  else if v = 0xFFF then some .service
  else if v = 0xF0FF ∨ v = 0xFFFF then some .analysis
  else if v / 65536 = 0xF then some .scrapped
  else none

/-- The state that copy `c` holds, none where the copy is invalid (R149). -/
def Chip.copyState (s : Chip) (c : Nat) : Option LifeCycle := if s.sound c then codewordState (s.fuse c).toNat else none

/-- Bit position of a target's intent nibble (R150). -/
def intentShift : LifeCycle → Nat
  | .calibrated => 0 | .provisioned => 4 | .service => 8 | .analysis => 12 | .scrapped => 16 | _ => 20

/-- The targets that have an intent nibble, highest first. -/
def intentTargets : List LifeCycle := [.scrapped, .analysis, .service, .provisioned, .calibrated]

/-- The nibble of a target in the intent word. -/
def Chip.intentNibble (s : Chip) (t : LifeCycle) : Nat := (s.fuse 3).toNat / 2 ^ intentShift t % 16

/-- The nibble of a target is sound: none of its bits is among the marginal ones of the intent word (R150). -/
def Chip.nibbleSound (s : Chip) (t : LifeCycle) : Bool :=
  s.sound 3 || s.life.intentMarginal.toNat / 2 ^ intentShift t % 16 == 0

/-- An intent is recorded: its nibble reads 0xF and is sound (R150). -/
def Chip.intended (s : Chip) (t : LifeCycle) : Bool := s.nibbleSound t && s.intentNibble t == 15 && intentTargets.contains t

/-- The transitions of Table 6.3. -/
def transitionListed : LifeCycle → LifeCycle → Bool
  | .wafer, .calibrated => true
  | .calibrated, .provisioned => true
  | .provisioned, .service => true
  | .provisioned, .analysis => true
  | .service, .analysis => true
  | .wafer, .scrapped => true
  | .calibrated, .scrapped => true
  | .analysis, .scrapped => true
  | .provisioned, .scrapped => true
  | .service, .scrapped => true
  | _, _ => false

/-- The codeword that copy `c` is programmed to for a target (R156). -/
def Chip.targetWord (s : Chip) (t : LifeCycle) (c : Nat) : Word32 :=
  match t with
  | .wafer => 0
  | .calibrated => 0xF
  | .provisioned => 0xFF
  | .service => 0xFFF
  | .analysis => if s.intended .service then 0xFFFF else 0xF0FF
  | .scrapped => (s.fuse c &&& 0xFFFF) ||| 0xF0000
  | .locked => s.fuse c

/-- The codeword that a transition programs into copy `c`: that of Table 6.2 for the state it leaves (R153). -/
def Chip.transitionWord (s : Chip) (old t : LifeCycle) (c : Nat) : Word32 :=
  if old = .service ∧ t = .analysis then 0xFFFF else s.targetWord t c

/-- The state that two or more valid copies hold, else Locked (R156). -/
def Chip.decodeState (s : Chip) : LifeCycle :=
  match s.copyState 0, s.copyState 1, s.copyState 2 with
  | some a, some b, some c => if a = b ∨ a = c then a else if b = c then b else .locked
  | some a, some b, none => if a = b then a else .locked
  | some a, none, some c => if a = c then a else .locked
  | none, some b, some c => if b = c then b else .locked
  | _, _, _ => .locked

/-- The pending intent (R156). -/
def Chip.decodePending (s : Chip) (x : LifeCycle) : Option LifeCycle :=
  if x = .locked then
    match intentTargets.find? s.intended with
    | some t => if (List.range 3).all (fun c => s.fuse c &&& ~~~ s.targetWord t c == 0) then some t else none
    | none => none
  else intentTargets.find? fun t => s.intended t && t != x && transitionListed x t

/-- The decode before time 0, with the marginal words found at boot (R146, R147, R156). -/
def Chip.decodeLife (s : Chip) : Chip :=
  let x := s.decodeState
  let faults := s.trimFaults
  let trims := (List.range 48).filter s.trimFails
  let s := s.modLife fun l =>
    { l with
      state := x
      pending := (s.decodePending x).map fun t => BitVec.ofNat 8 t.code
      copies := BitVec.ofNat 8 (((List.range 3).map fun c => (if (s.copyState c).isSome then 2 ^ c else 0) + (if s.sound c then 0 else 2 ^ (c + 3))).sum)
      trimDefaults := BitVec.ofNat 48 faults
      fault := if faults = 0 then 0 else 1
      marginals := l.marginal.length }
  trims.foldl (fun s i => s.record 0x1008 1 (le 2 (0x10 + i) ++ [0])) s

/-! ## Wipes (Table 6.3, R155) -/

/-- Wipe A: key store, working memory, context slots and root key zeroised, flash except the recovery area
erased, TCSRAM and the trace buffer cleared; owners and registry are erased and the intrusion
configuration takes its defaults (Table 7.12). -/
def Chip.wipeA (s : Chip) : Chip :=
  let s := (s.zeroise.flashErase 0 0x300000).flashErase dataArea 0xC0000
  let s := s.modBoot fun b => { b with store := [], restoreComm := false, restoreDev := false }
  let s := s.modKeys fun k => { k with
    blobs := [], owners := [], registryOk := true, regCopies := [{}, {}], regDigest := none, loops := 0x0F, period := 0x01, response := 0x000F }
  s.modCi fun c => { c with tcsram := [], partitions := c.partitions.map fun p => (p.1, { p.2 with packets := [] }) }

/-- The part of wipe X that the transition performs. -/
def Chip.wipeX (s : Chip) : Chip := s.zeroise

/-- The wipes of a target, from the start (R153, R157). -/
def Chip.wipesOf (t : LifeCycle) (s : Chip) : Chip :=
  match t with
  | .analysis => s.wipeA
  | .scrapped => s.wipeX
  | _ => s

/-- The minimal ROM mode of Scrapped: unless word 0x004 is sound and reads 0xF, the rest of wipe X and then its nibble
(R146, R155). -/
def Chip.scrappedWipe (s : Chip) : Chip :=
  if s.sound 4 ∧ (s.fuse 4).toNat % 16 = 15 then s
  else
    let s := s.flashErase 0 0x400000
    let s := s.modBoot fun b => { b with store := [], restoreComm := false, restoreDev := false }
    let s := s.modKeys fun k => { k with
      blobs := [], owners := [], regCopies := [{}, {}], regDigest := none, loops := 0, period := 0, response := 0 }
    let s := (List.range 48).foldl (fun s i => s.blow [] (0x10 + i) 0xFFFFFFFF) s
    s.blow [] 4 0xF

/-- Program the bits of a target's codeword that the three copies miss, in order (R153, R157). -/
def Chip.programCopies (stuck : List FuseFault) (t : LifeCycle) (s : Chip) : Chip :=
  (List.range 3).foldl (fun s c => s.blow stuck c (s.targetWord t c)) s

end Sys2Proof.Machine
end

