-- ==== Sys2Proof/Machine/Images.lean ====
section
/-! DEFINITION. The image container and its checks (R161, R162). -/

namespace Sys2Proof.Machine

/-- A big-endian field. -/
def beAt (b : Bytes) (i n : Nat) : Nat := beNat (slice b i n)

/-- Number of partitions in a header (Table 6.7). -/
def imgCount (b : Bytes) : Nat := byteAt b 6
/-- Image length. -/
def imgLength (b : Bytes) : Nat := beAt b 8 4
/-- Security version. -/
def imgVersion (b : Bytes) : Nat := beAt b 12 4
/-- Firmware key slot. -/
def imgSlot (b : Bytes) : Nat := byteAt b 17
/-- Signature algorithm. -/
def imgAlg (b : Bytes) : Nat := byteAt b 18
/-- Build number. -/
def imgBuild (b : Bytes) : Nat := beAt b 20 4
/-- Recovery flag. -/
def imgRecovery (b : Bytes) : Bool := (b.getD 7 0).getLsbD 0
/-- Unsigned flag. -/
def imgUnsigned (b : Bytes) : Bool := (b.getD 7 0).getLsbD 1

/-- Descriptor `i`, 72 bytes (Table 6.8). -/
def imgDesc (b : Bytes) (i : Nat) : Bytes := slice b (32 + 72 * i) 72
/-- Every descriptor. -/
def imgDescs (b : Bytes) : List Bytes := (List.range (imgCount b)).map (imgDesc b)

/-- Partition ID of a descriptor. -/
def descId (d : Bytes) : Nat := byteAt d 0
/-- Trace share in KiB. -/
def descTrace (d : Bytes) : Nat := beAt d 2 2
/-- Code offset. -/
def descCode (d : Bytes) : Nat := beAt d 4 4
/-- Code length. -/
def descCodeLen (d : Bytes) : Nat := beAt d 8 4
/-- Entry point. -/
def descEntry (d : Bytes) : Nat := beAt d 12 4
/-- TCSRAM base, a conductor address (log 12). -/
def descRam (d : Bytes) : Nat := beAt d 16 4
/-- TCSRAM size. -/
def descRamLen (d : Bytes) : Nat := beAt d 20 4
/-- Island window mask. -/
def descWindows (d : Bytes) : Nat := beAt d 24 2
/-- Watchdog slot mask. -/
def descSlots (d : Bytes) : Nat := beAt d 26 2
/-- DRAM base within the aperture. -/
def descDram (d : Bytes) : Nat := beAt d 28 4
/-- DRAM size. -/
def descDramLen (d : Bytes) : Nat := beAt d 32 4
/-- Privileged flag. -/
def descPrivileged (d : Bytes) : Bool := (d.getD 1 0).getLsbD 0

/-- Length of key block and signature of an algorithm, none for a reserved code (Table 6.9). -/
def algLength (a : Nat) : Option Nat :=
  match a with
  | 0 => some 0 | 1 => some 64 | 2 => some 96 | 3 => some 384 | 4 => some 512 | _ => none

/-- Offset of the key block's length field. -/
def keyBlockAt (b : Bytes) : Nat := 32 + 72 * imgCount b
/-- The signer's key. -/
def imgKey (b : Bytes) : Bytes := slice b (keyBlockAt b + 2) (beAt b (keyBlockAt b) 2)
/-- End of the last code area. -/
def codeEnd (b : Bytes) : Nat := ((imgDescs b).map fun d => descCode d + descCodeLen d).foldl max 0

/-- No two ranges of a list overlap, empty ranges aside. -/
def disjoint : List (Nat × Nat) → Bool
  | [] => true
  | (a, n) :: xs => xs.all (fun x => decide (n = 0) || decide (x.2 = 0) || decide (a + n ≤ x.1) || decide (x.1 + x.2 ≤ a)) && disjoint xs

/-- No value occurs twice. -/
def distinct : List Nat → Bool
  | [] => true
  | a :: xs => !xs.contains a && distinct xs

/-- Check 1 of R162: magic, version, length, reserved fields and the recovery flag; a reserved signature algorithm, a key block of
another length, a security version above 32 and a key slot above 3 fail it too. (DESIGN CHOICE, log 144.) -/
def headerOk (b : Bytes) (recovery : Bool) (capacity : Nat) : Bool :=
  beAt b 0 4 == 0x4A4B494D && beAt b 4 2 == 1 && decide (1 ≤ imgCount b) && decide (imgCount b ≤ 8) &&
  decide (byteAt b 7 < 4) && byteAt b 19 == 0 && slice b 24 8 == List.replicate 8 0 && imgRecovery b == recovery &&
  decide (imgVersion b ≤ 32) && decide (imgSlot b ≤ 3) && decide (imgLength b ≤ capacity) &&
  match algLength (imgAlg b) with
  | none => false
  | some n => (imgUnsigned b == decide (imgAlg b = 0)) && beAt b (keyBlockAt b) 2 == n && imgLength b == codeEnd b + n

/-- One descriptor's own fields (Table 6.8). -/
def descOk (b d : Bytes) : Bool :=
  decide (descId d ≤ 7) && decide (byteAt d 1 < 2) && slice d 36 4 == List.replicate 4 0 &&
  decide (descCode d % 4096 = 0) && decide (keyBlockAt b + 2 + (imgKey b).length ≤ descCode d) &&
  decide (descCode d + descCodeLen d ≤ imgLength b) && decide (descRamLen d % 4096 = 0) &&
  (descRamLen d == 0 || (decide (0x10000000 ≤ descRam d) && decide (descRam d + descRamLen d ≤ 0x10080000))) &&
  (descPrivileged d || descWindows d == 0) && decide (descDramLen d % 65536 = 0) && decide (descDram d + descDramLen d ≤ 0x80000000)

/-- Check 2 of R162: the descriptors are consistent; overlapping code areas and a boot partition without a descriptor fail it too,
and the entry point is not looked at. (DESIGN CHOICE, log 143.) -/
def descsOk (b : Bytes) : Bool :=
  (imgDescs b).all (descOk b) && distinct ((imgDescs b).map descId) && (imgDescs b).any (fun d => descId d == byteAt b 16) &&
  disjoint ((imgDescs b).map fun d => (descCode d, descCodeLen d)) &&
  disjoint ((imgDescs b).map fun d => (descRam d, descRamLen d)) &&
  disjoint ((imgDescs b).map fun d => (descDram d, descDramLen d)) &&
  decide (((imgDescs b).map descTrace).sum ≤ 128)

/-- Minimum security version: blown bits of word 0x061. -/
def Chip.minVersion (s : Chip) : Nat := popCount (s.fuseUsed 0x061).toNat

/-- The hash of a firmware key slot in the fuses, words in order and big-endian (log 13). -/
def Chip.fuseHash (s : Chip) (base : Nat) : Bytes := ((List.range 8).map fun i => be 4 (s.fuse (base + i)).toNat).flatten

/-- The eight words of a hash are sound. -/
def Chip.hashSound (s : Chip) (base : Nat) : Bool := (List.range 8).all fun i => s.sound (base + i)

/-- A firmware key slot is revoked (R167). (DEDUCED, log 37.) -/
def Chip.revoked (s : Chip) (k : Nat) : Bool := (s.fuseUsed 0x060).toNat / 16 ^ k % 16 != 0

/-- The signature of an image verifies (Table 6.9). -/
def imgVerifies (b : Bytes) : Bool :=
  let m := b.take (codeEnd b)
  let sig := slice b (codeEnd b) (imgLength b - codeEnd b)
  match imgAlg b with
  | 1 => p256.verify (imgKey b) (sha256 m) sig
  | 2 => p384.verify (imgKey b) (sha384 m) sig
  | 3 => rsaPssVerify (imgKey b) (sha384 m) sig
  | 4 => rsaPssVerify (imgKey b) (sha384 m) sig
  | _ => false

/-- Unsigned conductor code may run (Table 6.2). -/
def Chip.unsignedAllowed (s : Chip) : Bool :=
  s.life.state == .wafer || s.life.state == .calibrated || s.life.state == .analysis

/-- Check 4 of R162; `free` where unsigned code is accepted. -/
def Chip.signedOk (s : Chip) (b : Bytes) (free : Bool) : Bool :=
  (imgUnsigned b && free && s.unsignedAllowed) ||
  (!imgUnsigned b && s.hashSound (0x040 + 8 * imgSlot b) && sha256 (imgKey b) == s.fuseHash (0x040 + 8 * imgSlot b) &&
    !s.revoked (imgSlot b) && imgVerifies b)

/-- Check 5 of R162: each code area's digest matches its descriptor. -/
def digestsOk (b : Bytes) : Bool := (imgDescs b).all fun d => sha256 (slice b (descCode d) (descCodeLen d)) == slice d 40 32

/-- The checks of R162 in their order: 0, or the first failure's code; a recovery image under another key slot than 0 has an invalid
signature. (DESIGN CHOICE, log 142.) -/
def Chip.checkImage (s : Chip) (b : Bytes) (recovery free : Bool) (capacity : Nat) : Nat :=
  if headerOk b recovery capacity = false then 0x2002
  else if descsOk b = false then 0x2002
  else if imgVersion b < s.minVersion then 0x2003
  else if (recovery && imgSlot b != 0) ∨ s.signedOk b free = false then 0x2001
  else if digestsOk b = false then 0x2002
  else 0

/-- The image in a flash area. -/
def Chip.areaImage (s : Chip) (a : Nat) : Bytes :=
  s.flashRead (areaBase a) (min (areaSize a) (max 32 (imgLength (s.flashRead (areaBase a) 32))))

/-- The status of an area: 0xFFFF empty, else the code of its check (0x2500:03 to :05). -/
def Chip.areaStatus (s : Chip) (a : Nat) : Nat :=
  if s.areaEmpty a then 0xFFFF else s.checkImage (s.areaImage a) (a == 2) (a != 2) (areaSize a)

/-- The firmware key slot an image is signed under (R167). -/
def imgSigner (b : Bytes) : Option Nat := if imgUnsigned b then none else some (imgSlot b)

/-- Firmware digest: SHA-256 of the running image's signed bytes (R430). -/
def imgDigest (b : Bytes) : Bytes := sha256 (b.take (codeEnd b))

end Sys2Proof.Machine
end

