-- ==== Sys2Proof/Machine/Reset.lean ====
section
/-! DEFINITION. Chip reset (R68, R69, R79): what it reaches and keeps, its record, the strap samples, the
life-cycle decode and what the boot ROM completes before time 0 (R155 to R157). -/

namespace Sys2Proof.Machine

/-- Gating rails of the internal power-on reset: VDD_CORE, VDD_SEC, VDD_PLL, VDD_IO18 and VDD_IO33, as bits
of 0x2003:05 (section 3.4). -/
def gatingRails : Byte := 0x37

/-- The AO rail is good: from VDD_AO, or from VBAT at 2.2 V (R61, R67). -/
def Power.aoRail (p : Power) : Bool := p.railsGood.getLsbD 6 || p.railsPresent.getLsbD 4

/-- The internal power-on reset is released: the AO core is ready, which it stays while its rail retains it, and the gating rails
are good (R67, section 3.4). -/
def Power.released (p : Power) : Bool := p.railsGood &&& gatingRails == gatingRails && p.coreReady

/-- Records a reset of their producers leaves unwritten: held ones and the producers' own counts (R469). -/
def Recorder.abandoned (r : Recorder) : Nat :=
  (r.held.map fun x => x.2.length).sum + (r.lostRun.map (·.2)).sum

/-- The number of the lowest set bit, the primary cause (R79). -/
def lowestBit (v : Nat) : Nat := ((List.range 12).find? fun i => v.testBit i).getD 0

/-- What the debug port offers in a state while DBG_EN_N is asserted (Table 2.13). -/
def debugOffer (x : LifeCycle) : DebugSt :=
  match x with
  | .wafer => .opened
  | .calibrated => .opened
  | .analysis => .opened
  | .provisioned => .awaiting
  | .service => .awaiting
  | .locked => .inactive
  | .scrapped => .inactive

/-- The pair role that outlasts a chip reset (R493, R500; log 15). -/
def PairSt.afterReset : PairSt → PairSt
  | .unpaired => .unpaired
  | .pairing => .unpaired
  | .activeSync => .activeLost
  | .activePaired => .activeLost
  | .activeLost => .activeLost
  | .standbySync => .standbySync
  | .standbySynced => .standbySync
  | .fenced => .fenced

/-- The device after a chip reset, before records and decode: only the AO core, flash and what stands
outside the package keep their contents (Table 3.2); the DRAM's content generation counts on (R368). (DEDUCED, log 148.) -/
def keepAcross (causes : Nat) (s : Chip) : Chip :=
  { ({} : Chip) with
    power := { s.power with
      causes := BitVec.ofNat 12 causes, chipResets := satAdd 32 s.power.chipResets 1
      phase := if s.power.released then .refclkCheck else .railsWait, absent := s.power.absent && !s.power.released, lanesLive := false
      latchedWake := none, straps := s.power.strapPins, refFaultRecorded := false, minMv := []
      onlineUs := 0, readyUs := 0, wakeSources := 0x01 }
    clk := { ({} : Clocks) with ticks := s.clk.ticks, startTick := s.clk.ticks }
    lanes := s.lanes.foldl (fun m x => SMap.set m {} x.1 { input := x.2.input }) []
    watchdog := { ({} : Watchdog) with chipEsc := s.watchdog.chipEsc }
    router := { ({} : Router) with evi := s.router.evi }
    dram := { ({} : Dram) with generation := s.dram.generation }
    levels := { ({} : Levels) with pinClear := s.levels.pinClear }
    boot := { s.boot with
      running := 0xFF, preferred := 0, version := 0, bootUs := 0, digest := [], storing := none, signer := none
      store := s.boot.store.filter fun x => if x.index < 0x2000 then !s.boot.restoreComm else !s.boot.restoreDev
      restoreComm := false, restoreDev := false }
    life := { s.life with lastSkim := 0, recovering := false }
    keys := { s.keys with slots := [], mismatches := 0, lastMismatch := [] }
    recorder := { s.recorder with held := [], lostRun := [], marksMs := [], uncounted := [], lost := 0 }
    pair := { s.pair with
      state := s.pair.state.afterReset, request := none, partnerState := [], awaiting := none, open_ := {}
      receiving := [], receivingEpoch := 0, solo := 0, takeover := 1, takeoverMs := 30, ackMs := 20
      epochs := 0, discarded := 0, longest := 0, syncLeft := 0 }
    out := s.out
    free := s.free }

/-- The reset record, first after AO services are ready, with the counts the reset left unwritten (R79,
R469). -/
def resetRecord (old : Chip) (s : Chip) : Chip :=
  let mv (k : Nat) : Bytes := le 2 (old.power.minMv.get 0xFFFF k)
  let c := s.power.causes.toNat
  let mask := if c.testBit 1 then s.power.goneMask else s.power.railsGood
  s.modRecorder fun r => r.arrive
    { code := 0x1001, island := 1, lost := min 0xFFFF old.recorder.abandoned
      payload := pad 12 (le 2 c ++ [mask] ++ le 1 (lowestBit c) ++ mv 0 ++ mv 1 ++ mv 2 ++ le 2 (s.power.chipResets % 65536)) }

/-- The strap record of node-ID 0, or the strap-invalid record, with which start-up stops (R56, R57); both follow the
release of the internal reset. -/
def strapRecords (s : Chip) : Chip :=
  let v := le 2 s.power.straps.toNat
  if s.power.phase = .railsWait then s else
  let s := if s.power.straps.toNat % 128 = 0 then s.record 0x1002 1 v else s
  if s.power.straps.toNat / 128 = 3 then (s.record 0x1003 1 v).modPower fun p => { p with phase := .stopped } else s

/-- The states of the four mesh LFSRs that 16 seed bytes give: the low 31 bits of four each. (DESIGN CHOICE, log 106.) -/
def meshSeeds (b : Bytes) : List (BitVec 31) := (List.range 4).map fun k => BitVec.ofNat 31 (fieldAt b (4 * k) 4)

/-- The mesh LFSRs are seeded from one entry of the nonce reserve; with the reserve empty the previous
seeds stay, and a record says so (R198). In Scrapped the monitor is off (R197). -/
def seedMesh (s : Chip) : Chip :=
  if s.life.state = .scrapped then s
  else match s.keys.reserve with
    | [] => (s.modKeys fun k => { k with mesh := meshSeeds k.seeds }).record 0x1010 1 []
    | e :: rest => s.modKeys fun k => { k with seeds := e, mesh := meshSeeds e, reserve := rest }

/-- Re-arm becomes possible after a reset with cause 0 or 1 that followed the intrusion or the loss (R204). (DEDUCED, log 35.) -/
def rearmAfter (causes : Nat) (s : Chip) : Chip :=
  if (causes.testBit 0 || causes.testBit 1) ∧ (s.keys.arm = .deadIntrusion ∨ s.keys.arm = .deadRootKey) then
    s.modKeys fun k => { k with arm := .awaitingRearm }
  else s

/-- Repair of a minority copy that is invalid while the state equals a recorded intent (R157). (DEDUCED, log 37.) -/
def repairCopies (s : Chip) : Chip :=
  let x := s.life.state
  if x = .locked ∨ x = .scrapped ∨ s.intended x = false then s
  else (List.range 3).foldl (fun s c =>
    if (s.copyState c).isSome then s else (s.blow [] c (s.targetWord x c)).record 0x100C 1 (le 1 (c + 1) ++ le 1 x.code)) s

/-- An intent nibble partly blown records no intent: the transition never began (R157). -/
def abandonedIntents (s : Chip) : Chip :=
  if s.life.state = .locked ∨ s.life.state = .scrapped then s
  else intentTargets.foldl (fun s t =>
    if s.intentNibble t ≠ 0 ∧ s.intentNibble t ≠ 15 then s.record 0x100D 1 (le 1 t.code) else s) s

/-- The states of the SI and the others by life-cycle state (Table 6.2). -/
def lifeIslands (s : Chip) : Chip :=
  match s.life.state with
  | .analysis => s.putIsland 3 .disabled
  | .scrapped => s.putIsland 3 .off
  | .locked => s.putIsland 3 .off
  | _ => if s.keys.arm = .armed then s else s.putIsland 3 .dead

/-- The debug session over a chip reset: DBG_EN_N stays as it is, and an authorisation holds only in the
state it was given in (R168, R169). (DESIGN CHOICE, log 125.) -/
def debugAcross (old : LifeCycle) (s : Chip) : Chip :=
  s.modLife fun l => { l with debug :=
    if l.debugOn = false then .inactive
    else if l.debug = .authorised ∧ old = l.state then .authorised else debugOffer l.state }

/-- One chip reset, up to the decode (R68, R79, R156). -/
def bareReset (causes : Nat) (s : Chip) : Chip :=
  let t := strapRecords (resetRecord s (keepAcross causes s))
  lifeIslands (debugAcross s.life.state (rearmAfter causes (seedMesh (abandonedIntents t.decodeLife))))

/-- The boot ROM completes a pending intent: wipes, missing bits, a record, and a further chip reset of
cause 9; in Scrapped the minimal ROM mode finishes the wipe (R155, R157). (DEDUCED, log 29.) -/
def chipReset (causes : Nat) (s : Chip) : Chip :=
  let s := bareReset causes s
  let from_ := s.life.state
  let s :=
    if from_ = .locked ∨ from_ = .scrapped then s
    else match s.decodePending from_ with
      | some t =>
        bareReset 0x200 (((s.wipesOf t).programCopies [] t).record 0x100B 1 (le 1 from_.code ++ le 1 t.code))
      | none => repairCopies s
  if s.life.state = .scrapped then s.scrappedWipe else s

/-- An AO power-on reset (R67, R69, R469): uncommitted records and their counts, the AO clock and the
volatile counters are lost, then the root key is checked; `causes` holds bit 0. (DEDUCED, log 29, log 76.) -/
def aoPowerOn (causes : Nat) (s : Chip) : Chip :=
  let s := s.modRecorder fun r => { ({} : Recorder) with lastReset := r.lastReset }
  let s := s.modClk fun c => { c with ticks := 0 }
  let s := s.modPower fun p => { p with chipResets := 0, aoPowerOns := satAdd 32 p.aoPowerOns 1, absent := false, coreReady := p.aoRail }
  let s := s.modLife fun l => { l with nonce := none }
  let s := s.modKeys fun k => { k with rootOk := false, reserve := [], cause := 0 }
  let s := s.modWatchdog fun w => { w with chipEsc := 0 }
  (chipReset causes s).rootKeyCheck

end Sys2Proof.Machine
end

