-- ==== Sys2Proof/Machine/LifeCycle.lean ====
section
/-! DEFINITION. Life-cycle transitions, fuse commands, the fuse skim, the recovery image, image install and
key-slot revocation (chapter 6). -/

namespace Sys2Proof.Machine

/-! ## Shared -/

/-- A host write whose acceptance is followed by `after`, once its answer is sent (R31, R80, R153). -/
def hostThen (p : Path) (tag : Word16) (idx sub : Nat) (payload : Bytes) (chk : Req → Chip → Nat)
    (act : Req → Chip → Chip × Reply) (after : Chip → Chip) (s : Chip) : Chip :=
  match gate p tag idx sub payload chk s with
  | .stop s => s
  | .go r s =>
    let x := act r s
    if x.2 = ok then after (Chip.finish r.dest x) else Chip.finish r.dest x

/-- A sequencer's state counts as armed or active (R151, R76): every one but idle and faulted, arming and parked included.
(DESIGN CHOICE, log 141.) -/
def SeqState.busy : SeqState → Bool
  | .idle => false
  | .faulted => false
  | _ => true

/-- Any sequencer is armed or active. -/
def Chip.anyArmed (s : Chip) : Bool := s.seqs.any fun x => x.2.state.busy

/-- The island whose work an activity is, and that its records name (Table 1.7); for the SRAM scrub, which each island with
SRAM does, the AO. (DESIGN CHOICE, log 74.) -/
def activityIsland (n : Nat) : Nat :=
  match n with
  | 0 => 8 | 1 => 1 | 2 => 2 | 3 => 1 | 4 => 6 | 5 => 9 | 6 => 2 | _ => 0

/-- An island's SRAM: its size in KiB and the island's clock in MHz (Tables 1.2 and 1.3). -/
structure SramPart where
  island : Nat
  kib : Nat
  mhz : Nat

/-- The islands with SRAM (Table 1.3). -/
def sramParts : List SramPart := [⟨0, 32, 200⟩, ⟨2, 640, 400⟩, ⟨3, 304, 300⟩, ⟨4, 32, 500⟩, ⟨5, 1024, 400⟩, ⟨7, 256, 400⟩, ⟨8, 16, 400⟩]

/-- Words of 4 bytes. (DESIGN CHOICE, log 74.) -/
def SramPart.words (p : SramPart) : Nat := 256 * p.kib

/-- The islands with SRAM that run. -/
def Chip.sramRunning (s : Chip) : List SramPart := sramParts.filter fun p => s.runs p.island

/-- An activity is suspended: its island is not running, or no island with SRAM is. What it has done stays, and it resumes there
(R461). -/
def Chip.suspended (s : Chip) (n : Nat) : Bool := if n = 1 then s.sramRunning.isEmpty else !s.runs (activityIsland n)

/-- The state an activity reads: the three scrubs sweep whenever they are not suspended (R30, R457, R461). (DESIGN CHOICE, log 74.) -/
def Chip.activityState (s : Chip) (n : Nat) : ActState :=
  let x := (SMap.get s.background.activities {} n).state
  if s.suspended n then .suspended else if n ≤ 2 ∧ x = .idle then .running else x

/-- Blocks of 64 bytes in a channel. -/
def DramCh.blocks (d : DramCh) : Nat := d.gib * 16777216

/-- The channels in service. -/
def Chip.servingChannels (s : Chip) : List Nat := (List.range 2).filter fun c => s.dram.inService.getLsbD c

/-- The least of a list, 0 of an empty one. -/
def leastOf (l : List Nat) : Nat := l.foldl min (l.headD 0)

/-- The progress an activity reads, in 1/65,536 of a sweep: for the DRAM and SRAM scrubs that of the channel or island furthest
behind (DESIGN CHOICE, log 74). -/
def Chip.activityProgress (s : Chip) (n : Nat) : Nat :=
  if n = 0 then leastOf (s.servingChannels.map fun c => (s.dramCh c).sweep * 65536 / max 1 (s.dramCh c).blocks)
  else if n = 1 then leastOf (s.sramRunning.map fun p => s.background.sramSweep.get 0 p.island * 65536 / p.words)
  else (SMap.get s.background.activities {} n).progress

/-- A background activity completes (0x2B00:10 on). -/
def Chip.activityDone (n : Nat) (s : Chip) : Chip :=
  s.modBackground fun b => { b with activities := b.activities.upd {} n fun a => { a with progress := 0, lastMs := s.upMs % 2 ^ 32, completions := satAdd 32 a.completions 1 } }

/-! ## Transitions (R151 to R154) -/

/-- Session levels, authorisations and targets of Table 6.3: whether operators may ask, and whether two
custodians must authorise. -/
def transitionTerms (a : LifeCycle) : Level × Bool := if a = .service then (.operator, true) else (.vendor, false)

/-- Preconditions of Table 6.3. -/
def transitionReady (t : LifeCycle) (s : Chip) : Bool :=
  match t with
  | .calibrated => (List.range 48).all fun i => !s.trimFails i
  | .provisioned =>
    s.hashSound 0x070 && s.hashSound 0x040 && (List.range 8).any (fun i => s.fuse (0x070 + i) != 0) &&
      (List.range 8).any fun i => s.fuse (0x040 + i) != 0
  | .service => (s.areaStatus 0 == 0 && !imgUnsigned (s.areaImage 0)) || (s.areaStatus 1 == 0 && !imgUnsigned (s.areaImage 1))
  | _ => true

/-- The operation digest of a transition (R152). -/
def transitionDigest (s : Chip) (t : LifeCycle) (nonce : Bytes) : Bytes :=
  sha256 (tagJKLC ++ s.identity ++ be 1 s.life.state.code ++ be 1 t.code ++ nonce)

/-- The transition nonce is outstanding and at most 60 s old (R152). -/
def Chip.transitionNonceOk (s : Chip) (nonce : Bytes) : Bool :=
  s.life.nonce == some nonce && decide (s.clk.ticks < s.life.nonceAt + 400 * 60000000)

/-- The refusals of R151 in its order: 0 where the request is accepted. A nonce that is not the one read
within 60 s is refused as an operation nonce (log 16). (DESIGN CHOICE, log 107.) -/
def transitionCode (r : Req) (t : LifeCycle) (count : Nat) (nonce auths : Bytes) (s : Chip) : Nat :=
  let terms := transitionTerms s.life.state
  if transitionListed s.life.state t = false then 0x1001
  else if s.life.pending.isSome then 0x1002
  else if transitionReady t s = false then 0x1003
  else if r.level.rank < terms.1.rank then 0x000C
  else if terms.2 ∧ count ≠ 2 then 0x000D
  else if s.transitionNonceOk nonce = false then 0x310C
  else
    let a := if count = 0 then 0 else s.checkAuths 0 (transitionDigest s t nonce) auths
    if a ≠ 0 then a
    else if s.anyArmed ∧ t ≠ .scrapped then 0x0005
    else 0

/-- The fuse steps of an accepted transition, up to its answer (R153, R154): the answer's code, and
whether the chip reset follows. -/
def transitionRun (t : LifeCycle) (stuck : List FuseFault) (s : Chip) : Chip × Nat × Bool :=
  let from_ := s.life.state
  let s := s.blow stuck 3 (BitVec.ofNat 32 (15 * 2 ^ intentShift t))
  if s.intentNibble t ≠ 15 then (s, 0x1004, false)
  else
    let s := s.record 0x100A 1 (le 1 from_.code ++ le 1 t.code)
    let s := (List.range 3).foldl (fun s c => s.blow stuck c (s.transitionWord from_ t c)) (s.wipesOf t)
    let good := (List.range 3).filter fun c => s.transitionWord from_ t c &&& ~~~ s.fuse c == 0
    (s, if good.length ≥ 2 then 0 else 0x1004, true)

/-- The bits of a word that a mask names, as word and bit number, lowest first (R149). -/
def fuseBits (w : Nat) (v : Word32) : List (Nat × Nat) := ((List.range 32).filter v.getLsbD).map fun i => (w, i)

/-- Blow single bits in order. -/
def Chip.blowBits (l : List (Nat × Nat)) (s : Chip) : Chip := l.foldl (fun s x => s.blow [] x.1 (BitVec.twoPow 32 x.2)) s

/-- A transition of which `n` bits are blown when the AO rail fails (R69, R153): the intent nibble from bit 0, the wipes, then
the copies. -/
def tornRun (t : LifeCycle) (n : Nat) (s : Chip) : Chip :=
  let intent := fuseBits 3 (BitVec.ofNat 32 (15 * 2 ^ intentShift t) &&& ~~~ s.fuse 3)
  if n < intent.length then s.blowBits (intent.take n)
  else
    let s := (s.blowBits intent).wipesOf t
    let copies := (List.range 3).flatMap fun c => fuseBits c (s.transitionWord s.life.state t c &&& ~~~ s.fuse c)
    s.blowBits (copies.take (n - intent.length))

/-- `LIFE_CYCLE_TRANSITION` (R151 to R154); `cut` is the number of fuse bits blown when the supplies fail, if they do: no
answer is sent, and an AO power-on reset follows (R69, R156). A count that Table 6.4 does not list is an invalid value, and from
a state whose transitions need authorisations a count that is not 2 (R151). (DEDUCED, log 16.) -/
def lifeCycleTransition (p : Path) (tag : Word16) (target count : Byte) (nonce auths : Bytes) (stuck : List FuseFault) (cut : Option Nat)
    (s : Chip) : Chip :=
  let chk (_ : Req) (s : Chip) : Nat :=
    if nonce.length ≠ 16 ∨ auths.length ≠ 68 * count.toNat then 0x0012
    else if target.toNat ≥ 6 ∨ (count ≠ 0 ∧ count ≠ 2 ∧ (transitionTerms s.life.state).2 = false) then 0x0002 else 0
  match gate p tag 0x2400 4 ([target, count] ++ nonce ++ auths) chk s with
  | .stop s => s
  | .go r s =>
    match lifeOf target.toNat with
    | none => s.complete r.dest 0x0002 [] 0
    | some t =>
      let code := transitionCode r t count.toNat nonce auths s
      let s := if s.life.nonce = some nonce then s.modLife fun l => { l with nonce := none } else s
      if code ≠ 0 then s.complete r.dest code [] 0
      else match cut with
        | some n => aoPowerOn 1 (tornRun t n s)
        | none =>
          let x := transitionRun t stuck s
          let s := x.1.complete r.dest x.2.1 [] 0
          if x.2.2 then chipReset 0x200 s else s

/-- `LIFE_CYCLE_TRANSITION` (R153). -/
def execLifeCycleTransition (p : Path) (tag : Word16) (target count : Byte) (nonce auths : Bytes) (stuck : BlowRun)
    (s : State) : Host.Outcome State Fault Refusal := next s (lifeCycleTransition p tag target count nonce auths stuck.faults stuck.cut s.chip)

/-- `TRANSITION_NONCE_READ` (R152, R226). -/
def readTransitionNonce (_ : Req) (s : Chip) : Chip × ReadReply :=
  if s.crypto.entropy = .failed then (s, .refused 0x3004) else
  let d := s.drawBytes 16
  (d.2.modLife fun l => { l with nonce := some d.1, nonceAt := s.clk.ticks }, .data d.1)

/-- `TRANSITION_NONCE_READ` (R152). -/
def execTransitionNonceRead (p : Path) (s : State) : Host.Outcome State Fault Refusal :=
  next s (hostRead p 0 0x2400 5 readTransitionNonce s.chip)

/-- `RECOVERY_IMAGE_RUN` (R158): in Locked, with a pending intent and a valid recovery image, the target's
wipes are repeated and its missing bits programmed, then the chip resets. -/
def recoveryImageRun (stuck : List FuseFault) (s : Chip) : Chip :=
  match s.life.pending.bind fun c => lifeOf c.toNat with
  | some t =>
    if s.life.state = .locked ∧ s.power.phase = .booting ∧ s.areaStatus 2 = 0 then
      chipReset 0x200 (((s.record 0x100B 1 (le 1 6 ++ le 1 t.code)).wipesOf t).programCopies stuck t)
    else s
  | none => s

/-- `RECOVERY_IMAGE_RUN` (R158). -/
def execRecoveryImageRun (stuck : List FuseFault) (s : State) : Host.Outcome State Fault Refusal := next s (recoveryImageRun stuck s.chip)

/-! ## Fuses -/

/-- The words a list of bytes names, rising and without repeats. -/
def wordSet (l : List Byte) : List Nat := (List.range 256).filter fun w => l.any fun b => b.toNat == w

/-- `FUSE_SKIM` (R148): due every 24 h after the chip reset. Each marginal word is recorded, and the fuse
fault raised; state, trim and boot decision stay. `intentBits` are the marginal bits of the intent word, each nibble of which
is judged by its own (R150). -/
def fuseSkim (marginal : List Byte) (intentBits : Word32) (s : Chip) : Chip :=
  let now := s.upUs / 1000000
  if now < 86400 * (s.life.lastSkim / 86400 + 1) then s
  else
    let found := wordSet marginal
    let fresh := found.filter fun w => !s.life.marginal.contains w
    let s := s.modLife fun l =>
      { l with lastSkim := now, marginal := found, intentMarginal := if found.contains 3 then intentBits else 0, marginals := l.marginals + fresh.length
               fault := if found = [] then l.fault else l.fault ||| 3 }
    (found.foldl (fun s w => s.record 0x1008 1 (le 2 w ++ [1])) s).activityDone 3

/-- `FUSE_SKIM` (R148). -/
def execFuseSkim (read : SkimRead) (s : State) : Host.Outcome State Fault Refusal :=
  next s (fuseSkim read.words read.intentBits s.chip)

/-- The states in which a word is programmed by the fuse program object, none for the other words
(Table 6.1). -/
def programStates (w : Nat) : List LifeCycle :=
  if 0x010 ≤ w ∧ w ≤ 0x03F then [.wafer]
  else if 0x040 ≤ w ∧ w ≤ 0x05F then [.wafer, .calibrated, .provisioned]
  else if 0x070 ≤ w ∧ w ≤ 0x077 then [.wafer, .calibrated]
  else []

/-- `FUSE_PROGRAM` (R145): a word the object never programs is an invalid value, another state a wrong
state. (DEDUCED, log 37.) -/
def fuseProgram (word : Word16) (bits : Word32) (_ : Req) (s : Chip) : Chip × Reply :=
  let ok_ := programStates word.toNat
  if ok_ = [] then (s, bad 0x0002)
  else if ok_.contains s.life.state then (s.blow [] word.toNat bits, ok)
  else (s, bad 0x0005)

/-- `FUSE_PROGRAM` (R145). -/
def execFuseProgram (p : Path) (tag word : Word16) (bits : Word32) (s : State) : Host.Outcome State Fault Refusal :=
  next s (hostCommand p tag 0x2400 9 (le 2 word.toNat ++ le 4 bits.toNat) (fuseProgram word bits) s.chip)

/-- The lowest `n` unblown bits of a word. -/
def lowestUnblown : Nat → Nat → Nat → Nat → Nat
  | 0, _, _, acc => acc
  | _, 0, _, acc => acc
  | fuel + 1, n + 1, v, acc =>
    let i := 32 - (fuel + 1)
    if v.testBit i then lowestUnblown fuel (n + 1) v acc else lowestUnblown fuel n v (acc + 2 ^ i)

/-- `RAISE_MINIMUM_VERSION` (R166). -/
def raiseMinimum (v : Byte) (_ : Req) (s : Chip) : Chip × Reply :=
  let now := s.minVersion
  if v.toNat ≤ now ∨ v.toNat > 32 ∨ v.toNat > s.boot.version.toNat then (s, bad 0x0002)
  else (s.blow [] 0x061 (BitVec.ofNat 32 (lowestUnblown 32 (v.toNat - now) (s.fuse 0x061).toNat 0)), ok)

/-- `RAISE_MINIMUM_VERSION` (R166). -/
def execRaiseMinimumVersion (p : Path) (tag : Word16) (version : Byte) (s : State) : Host.Outcome State Fault Refusal :=
  next s (hostCommand p tag 0x2500 8 [version] (raiseMinimum version) s.chip)

/-- `REVOKE_KEY_SLOT` (R167). (DESIGN CHOICE, log 124.) -/
def revokeSlot (slot : Byte) (_ : Req) (s : Chip) : Chip × Reply :=
  if slot.toNat = 0 ∨ slot.toNat > 3 then (s, bad 0x0002)
  else if s.boot.signer = some slot.toNat then (s, bad 0x0005)
  else (s.blow [] 0x060 (BitVec.ofNat 32 (15 * 16 ^ slot.toNat)), ok)

/-- `REVOKE_KEY_SLOT` (R167). -/
def execRevokeKeySlot (p : Path) (tag : Word16) (slot : Byte) (s : State) : Host.Outcome State Fault Refusal :=
  next s (hostCommand p tag 0x2500 0x0C [slot] (revokeSlot slot) s.chip)

/-! ## Install (R165) -/

/-- A read of the staging region over CH_14 (R21). -/
def Chip.stagedReq (s : Chip) (n : Nat) : DramReq := { cls := .conductor, addr := s.regionBase 5, len := n }

/-- The staged image: the staging region of the DRAM from its start, as the conductor reads it. -/
def Chip.staged (s : Chip) : Bytes := s.readBehind (s.stagedReq (min (4 * mib) (max 32 (imgLength (s.readBehind (s.stagedReq 32))))))

/-- The staged image is read; none where a burst of it is uncorrectable (R367). -/
def Chip.readStaged (s : Chip) : Option Bytes × Chip := s.serve (s.stagedReq s.staged.length)

/-- The staged image is read, and a request goes on with it: the DRAM's error answers it. (DESIGN CHOICE, log 56.) -/
def Chip.withStaged (f : Bytes → Chip → Chip × Reply) (s : Chip) : Chip × Reply :=
  match s.readStaged with
  | (some img, s) => f img s
  | (none, s) => (s, bad 0x8003)

/-- Note the status of an area. -/
def Chip.noteArea (a : Nat) (s : Chip) : Chip :=
  let v := BitVec.ofNat 16 (s.areaStatus a)
  s.modBoot fun b => if a = 0 then { b with statusA := v } else if a = 1 then { b with statusB := v } else { b with statusR := v }

/-- Erase and write an area, and check the written copy. -/
def Chip.writeArea (a : Nat) (img : Bytes) (s : Chip) : Chip :=
  ((s.flashErase (areaBase a) (areaSize a)).flashWrite (areaBase a) (img.take (imgLength img))).noteArea a

/-- The image is checked and written: refusals leave the area unchanged (R165). -/
def installChecked (a : Nat) (img : Bytes) (s : Chip) : Chip × Reply :=
  let code := s.checkImage img (a == 2) false (areaSize a)
  if code ≠ 0 then (s, bad code)
  else
    let s := s.writeArea a img
    let code := s.areaStatus a
    (s, if code = 0 then ok else bad code)

/-- Install into an area (R165): not running while the DRAM does not serve or the VI does not run. (DESIGN CHOICE, log 134.) -/
def installImage (a : Nat) (s : Chip) : Chip × Reply :=
  if s.boot.running.toNat = a then (s, bad 0x2004)
  else if s.dramServes = false ∨ s.runs 4 = false then (s, bad 0x0004)
  else s.withStaged (installChecked a)

/-- `IMAGE_INSTALL` (R165). -/
def execImageInstall (p : Path) (tag : Word16) (slotB : Bool) (s : State) : Host.Outcome State Fault Refusal :=
  next s (hostCommand p tag 0x2500 0x0B [if slotB then 1 else 0] (fun _ s => installImage (if slotB then 1 else 0) s) s.chip)

/-- `RECOVERY_INSTALL` (R165): a vendor session only. -/
def installRecovery (r : Req) (s : Chip) : Chip × Reply :=
  if r.level = .vendor then installImage 2 s else (s, bad 0x000C)

/-- `RECOVERY_INSTALL` (R165). -/
def execRecoveryInstall (p : Path) (tag : Word16) (s : State) : Host.Outcome State Fault Refusal :=
  next s (hostCommand p tag 0x2500 0x0B [2] installRecovery s.chip)

end Sys2Proof.Machine
end

