-- ==== Sys2Proof/Machine/Crypto.lean ====
section
/-! DEFINITION. Job queues, acceptance, dispatch, pre-emption, verify-before-release, entropy and the DRBG
(chapter 8). -/

namespace Sys2Proof.Machine

/-! ## RSA verification (Table 8.4) -/

/-- The hash of a code: 0x01 SHA-256, 0x02 SHA-384. -/
def hashOf (c : Nat) : Bytes → Bytes := if c = 1 then sha256 else sha384
/-- Its digest length. -/
def hashLen (c : Nat) : Nat := if c = 1 then 32 else 48

/-- Number of bits of a number below 2 ^ `fuel`. -/
def bitLen : Nat → Nat → Nat
  | 0, _ => 0
  | fuel + 1, v => if v.testBit fuel then fuel + 1 else bitLen fuel v

/-- `n` blocks of MGF1 on a hash. -/
def mgf (h : Nat) (seed : Bytes) : Nat → Nat → Bytes
  | 0, _ => []
  | n + 1, i => hashOf h (seed ++ be 4 i) ++ mgf h seed n (i + 1)

/-- DER prefix of a DigestInfo. -/
def digestInfo (h : Nat) : Bytes :=
  if h = 1 then [0x30, 0x31, 0x30, 0x0d, 0x06, 0x09, 0x60, 0x86, 0x48, 0x01, 0x65, 0x03, 0x04, 0x02, 0x01, 0x05, 0x00, 0x04, 0x20]
  else [0x30, 0x41, 0x30, 0x0d, 0x06, 0x09, 0x60, 0x86, 0x48, 0x01, 0x65, 0x03, 0x04, 0x02, 0x02, 0x05, 0x00, 0x04, 0x30]

/-- EMSA-PSS verification of an encoded message against a digest. -/
def pssOk (h salt emBits : Nat) (digest em : Bytes) : Bool :=
  let hl := hashLen h
  let l := em.length
  if l < hl + salt + 2 then false
  else
    let dbLen := l - hl - 1
    let masked := em.take dbLen
    let x := slice em dbLen hl
    let db := xorBytes masked ((mgf h x ((dbLen + hl - 1) / hl) 0).take dbLen)
    let top := 8 * l - emBits
    let db0 := byteAt db 0 % 2 ^ (8 - top)
    let padLen := dbLen - salt - 1
    let pads := le 1 db0 ++ slice db 1 (padLen - 1)
    let body := if padLen = 0 then le 1 db0 else pads ++ slice db padLen 1
    byteAt em (l - 1) == 0xBC && decide (byteAt em 0 < 2 ^ (8 - top)) && body == List.replicate padLen 0 ++ [1] &&
      x == hashOf h (List.replicate 8 0 ++ digest ++ db.drop (padLen + 1))

/-- RSA verification with the parameters of Table 8.4: the result code. -/
def rsaVerify (params input : Bytes) : Nat :=
  let k := leNat (params.take 2)
  let h := byteAt params 3
  let e := beNat (slice params 6 4)
  let nb := slice params 10 k
  let n := beNat nb
  let digest := input.take (hashLen h)
  let sig := beNat (input.drop (hashLen h))
  if e % 2 = 0 ∨ e < 3 ∨ n % 2 = 0 ∨ byteAt nb 0 = 0 then 0x4002
  else if sig ≥ n then 0x4001
  else
    let m := powMod n 32 sig e
    let good :=
      if byteAt params 2 = 1 then
        let t := digestInfo h ++ digest
        be k m == [0, 1] ++ List.replicate (k - 3 - t.length) 0xFF ++ [0] ++ t
      else
        let bits := bitLen (8 * k) n - 1
        let l := (bits + 7) / 8
        decide (m < 256 ^ l) && pssOk h (byteAt params 4) bits digest (be l m)
    if good then 0 else 0x4001

/-! ## Opcodes (Table 8.3) -/

/-- Engine types: 0 AES, 1 SHA, 2 DRBG, 3 SAU, 4 VI. -/
def opEngine (op : Nat) : Nat :=
  if op = 0xF0 ∨ op = 0xF1 ∨ op ≤ 7 then 0 else if op ≤ 0x0B then 1 else if op = 0x18 then 2 else if op = 0x10 ∨ op = 0x11 then 3 else 4

/-- The usage bit an opcode needs, none for no key. -/
def opUsage (op : Nat) : Option Nat :=
  match op with
  | 1 => some 0 | 2 => some 1 | 3 => some 0 | 4 => some 0 | 5 => some 1 | 6 => some 2 | 7 => some 3
  | 8 => some 2 | 9 => some 3 | 0x10 => some 6 | 0x11 => some 7 | _ => none

/-- A key type an opcode accepts. -/
def opType (op type : Nat) : Bool :=
  if op ≤ 7 then type == 1 || type == 2
  else if op = 8 ∨ op = 9 then type == 3 || type == 4
  else if op = 0x10 then type == 5 || type == 6
  else type == 7

/-- The length checks of Table 8.3; `type` is the named key's type, 0 for a slot that is empty or of a type the opcode does not
take, with which every length that the table lists fits. -/
def opLengths (op type : Nat) (params : Bytes) (inLen : Nat) : Bool :=
  let p := params.length
  match op with
  | 1 => p == 16 && inLen % 16 == 0
  | 2 => p == 16 && inLen % 16 == 0
  | 3 => p == 16
  | 4 => p == 16 && decide (leNat (params.drop 12) ≤ inLen)
  | 5 => p == 32 && decide (leNat (slice params 12 4) ≤ inLen)
  | 6 => p == 1
  | 7 => decide (1 ≤ p) && p == 1 + byteAt params 0
  | 8 => p == 1
  | 9 => decide (1 ≤ p) && p == 1 + byteAt params 0
  | 0x0A => p == 0
  | 0x0B => p == 0
  | 0x10 => p == 1 && (byteAt params 0 != 0 || (if type = 5 then inLen == 32 else if type = 6 then inLen == 48 else inLen == 32 || inLen == 48))
  | 0x11 => p == 64 && inLen == 0
  | 0x18 => p == 0
  | 0x20 => p == 64 && inLen == 96
  | 0x21 => p == 96 && inLen == 144
  | 0x22 => decide (10 ≤ p) && p == 10 + leNat (params.take 2) && inLen == hashLen (byteAt params 3) + leNat (params.take 2)
  | _ => false

/-- The value checks of the parameters that are there (Tables 8.3 and 8.4). -/
def opValues (op type : Nat) (params : Bytes) (inLen : Nat) : Bool :=
  let t := byteAt params 0
  if params.length < (if op = 0x22 then 10 else 1) ∧ op ≠ 0x18 then true
  else match op with
  | 6 => decide (4 ≤ t) && decide (t ≤ 16)
  | 7 => decide (4 ≤ t) && decide (t ≤ 16)
  | 8 => decide (16 ≤ t) && decide (t ≤ (if type = 3 then 32 else 48))
  | 9 => decide (16 ≤ t) && decide (t ≤ (if type = 3 then 32 else 48))
  | 0x10 => decide (t ≤ 1)
  | 0x18 => decide (1 ≤ inLen) && decide (inLen ≤ 4096)
  | 0x22 =>
    let k := leNat (params.take 2)
    (k == 256 || k == 384 || k == 512) && (byteAt params 2 == 1 || byteAt params 2 == 2) &&
      (byteAt params 3 == 1 || byteAt params 3 == 2) && decide (byteAt params 4 ≤ 64) && byteAt params 5 == 0 &&
      (byteAt params 2 != 1 || byteAt params 4 == 0)
  | _ => true

/-- The output that may go to DRAM, in bytes; 0 for outputs that stand in the record. -/
def opOut (op : Nat) (params : Bytes) (inLen : Nat) : Nat :=
  match op with
  | 1 => inLen | 2 => inLen | 3 => inLen
  | 4 => inLen - leNat (params.drop 12)
  | 5 => inLen - leNat (slice params 12 4)
  | 0x18 => inLen
  | _ => 0

/-- Pre-emptable opcodes. -/
def opPreempts (op : Nat) : Bool := decide (1 ≤ op) && decide (op ≤ 0x10)

/-- Bytes of a block (Table 8.1). -/
def opBlock (op : Nat) (type : Nat) : Nat :=
  if op ≤ 7 then 16 else if op = 0x0B ∨ type = 4 ∨ type = 6 then 128 else 64

/-- Typical engine time in µs (Tables 8.1 and 8.7), rounded up. -/
def opTime (op type inLen : Nat) (params : Bytes) : Nat :=
  if op ≤ 7 then ceilDiv inLen (if type = 2 then 300 else 400)
  else if op ≤ 0x0B then ceilDiv inLen (if op = 0x0B ∨ type = 4 then 457 else 282)
  else match op with
    | 0x10 => (if type = 6 then 1100 else 450) + if byteAt params 0 = 1 then ceilDiv inLen (if type = 6 then 457 else 282) else 0
    | 0x11 => 420
    | 0x20 => 550
    | 0x21 => 1300
    | 0x22 => if leNat (params.take 2) = 256 then 90 else if leNat (params.take 2) = 384 then 190 else 320
    | _ => 1

/-- A down-spread setting in 1/10,000 (Table 4.2). -/
def spreadPart (code : Byte) : Nat := if code = 1 then 25 else if code = 2 then 50 else if code = 3 then 100 else 0

/-- A typical time under the spread in force, which grows by 1 / (1 - s/2): that of the SI for its engines, that of the VI for
its own (R208, R83). (DEDUCED, log 112.) -/
def Chip.typical (s : Chip) (eng us : Nat) : Nat :=
  ceilDiv (us * 20000) (20000 - spreadPart (SMap.get s.clk.spreadInForce 0 (if eng = 4 then 3 else 2)))

/-! ## Queues -/

/-- Priority of a queue (Table 8.5). -/
def Chip.queuePriority (s : Chip) (q : Nat) : Nat :=
  if q < 16 then 7
  else
    let p := (s.queue q).priority
    if p = 0 then (if q < 32 then 4 else 2) else p - 1

/-- The entry has its record released or waiting for release. -/
def JobPhase.complete : JobPhase → Bool
  | .done => true
  | .awaitingAck => true
  | _ => false

/-- The entry with an acceptance number, and its queue. -/
def Chip.job (s : Chip) (uid : Nat) : Option (Nat × JobEntry) :=
  s.crypto.queues.findSome? fun q => (q.2.entries.find? fun e => e.uid == uid).map fun e => (q.1, e)

/-- Change an entry. -/
def Chip.modJob (q uid : Nat) (f : JobEntry → JobEntry) (s : Chip) : Chip :=
  s.modQueue q fun x => { x with entries := x.entries.map fun e => if e.uid = uid then f e else e }

/-- Remove an entry. -/
def Chip.dropJob (q uid : Nat) (s : Chip) : Chip :=
  s.modQueue q fun x => { x with entries := x.entries.filter fun e => e.uid != uid }

/-- Add an entry to a queue. -/
def Chip.addJob (q : Nat) (e : JobEntry) (s : Chip) : Chip :=
  (s.modQueue q fun x => { x with entries := x.entries ++ [{ e with uid := s.crypto.nextUid }] }).modCrypto fun c => { c with nextUid := c.nextUid + 1 }

/-- The retry delay of a full queue: until its oldest incomplete job is expected to complete (R214). -/
def Chip.queueDelay (s : Chip) (q : Nat) : Nat :=
  match (s.queue q).entries.find? fun e => !e.phase.complete with
  | none => 1
  | some e =>
    let spent := match e.startAt with
      | some t => (s.clk.ticks - t) / 400
      | none => 0
    clamp 1 1000 (ceilDiv (s.typical (opEngine e.opcode) (opTime e.opcode e.key.type.toNat e.inLen e.params) - spent) 1000)

/-- Bytes of a job record (Table 8.2). -/
def jobBytes (op : Nat) (j : JobReq) : Bytes :=
  le 1 op ++ [j.flags] ++ le 2 j.jobId.toNat ++ le 2 j.slot.toNat ++ le 2 j.params.length ++ le 4 j.inputLen.toNat ++
    le 8 j.inputOffset.toNat ++ le 8 j.outputOffset.toNat ++ le 4 j.reserved.toNat ++ j.params ++ j.inline

/-- Step 1 of R214: 0, invalid value, or length mismatch where the lengths alone are wrong. (DEDUCED, log 38.) -/
def jobForm (op : Nat) (j : JobReq) (type : Nat) : Nat :=
  let inDram := j.flags.getLsbD 1
  let outDram := j.flags.getLsbD 2
  let n := j.inputLen.toNat
  if j.flags.toNat ≥ 8 ∨ j.reserved ≠ 0 ∨ (inDram = false ∧ j.inputOffset ≠ 0) ∨ (outDram = false ∧ j.outputOffset ≠ 0) then 0x0002
  else if (opUsage op).isSome ∧ j.slot.toNat ≥ 4096 then 0x0002
  else if (opUsage op).isNone ∧ j.slot ≠ 0xFFFF then 0x0002
  else if opValues op type j.params n = false then 0x0002
  else if outDram = false ∧ opOut op j.params n + (if op = 4 then 16 else 0) > 104 then 0x0002
  else if j.params.length > 1024 ∨ opLengths op type j.params n = false then 0x0012
  else if j.inline.length ≠ (if inDram ∨ op = 0x18 then 0 else n) ∨ j.inline.length + j.params.length > 4064 then 0x0012
  else 0

/-- The first byte of a range outside the crypto buffer region, none where the range fits (R211). -/
def Chip.cryptoRange (s : Chip) (off n : Nat) : Option Nat :=
  if n = 0 ∨ off + n ≤ s.regionSize 4 then none else some (max off (s.regionSize 4))

/-- Step 4 of R214: the key checks. -/
def Chip.jobKey (s : Chip) (op slot : Nat) : Nat :=
  match opUsage op with
  | none => 0
  | some u =>
    match s.keys.slots.find? slot with
    | none => 0x3101
    | some k =>
      if opType op k.type.toNat = false then 0x3101
      else if k.damaged then 0x3111
      else if k.usage.getLsbD u = false then 0x3104
      else if s.keyExpired k then 0x3106
      else if k.limit ≠ 0 ∧ k.uses ≥ k.limit then 0x3107
      else if op = 0x11 ∧ k.flags.getLsbD 0 = false then 0x3105
      else 0

/-- The number of the open epoch (R498). -/
def Chip.openEpoch (s : Chip) : Nat :=
  (match s.pair.awaiting with
   | some e => e.number
   | none => s.pair.committed) + 1

/-- A queue takes a submission: a full one, and one that still holds an ended session's jobs, is busy
(R214, R217). -/
def Chip.queueBusy (s : Chip) (q : Nat) : Option Nat :=
  if (s.queue q).entries.any (·.orphan) then some 1
  else if (s.queue q).entries.length ≥ 8 then some (s.queueDelay q) else none

/-- Acceptance of a host job (R214, R496, R222). (DESIGN CHOICE, log 140.) -/
def submitJob (op : Nat) (j : JobReq) (r : Req) (s : Chip) : Chip × Reply :=
  let q := 0x1F + r.dest.session
  let slot := j.slot.toNat
  let k := SMap.get s.keys.slots {} slot
  let n := j.inputLen.toNat
  let form := jobForm op j (if opType op k.type.toNat then k.type.toNat else 0)
  let inRange := if j.flags.getLsbD 1 then s.cryptoRange j.inputOffset.toNat n else none
  let outRange := if j.flags.getLsbD 2 then s.cryptoRange j.outputOffset.toNat (opOut op j.params n) else none
  if s.standbyGate ≠ 0 then (s, bad 0xB001)
  else if form ≠ 0 then (s, bad form)
  else if (s.queue q).entries.any (fun e => e.id == j.jobId.toNat) then (s, bad 0x3005)
  else match inRange, outRange with
    | some a, _ => (s.accessRefused 3 (a % 2 ^ 32) 4 0, bad 0x0013)
    | none, some a => (s.accessRefused 3 (a % 2 ^ 32) 4 1, bad 0x0013)
    | none, none =>
      if opEngine op = 3 ∧ s.crypto.sauFault then (s, bad 0x3003)
      else if s.jobKey op slot ≠ 0 then (s, bad (s.jobKey op slot))
      else match s.queueBusy q with
        | some ms => (s, .busy ms)
        | none =>
          let before := s.pair.open_.entries.length
          let u := if (opUsage op).isSome then s.countUse slot else (s, 0)
          if u.2 ≠ 0 then (s, bad u.2)
          else
            let s := u.1
            let ack := if s.pair.state = .activePaired ∧ s.pair.open_.entries.length ≠ before then s.openEpoch else 0
            (s.addJob q { id := j.jobId.toNat, opcode := op, flags := j.flags, slot := slot, inOff := j.inputOffset.toNat
                          outOff := j.outputOffset.toNat, params := j.params, input := j.inline, inLen := n, key := k
                          ackEpoch := ack }, ok)

/-- A job row: a write of its record to 0x4400:10. -/
def submit (p : Path) (tag : Word16) (op : Nat) (j : JobReq) (s : Chip) : Chip :=
  hostCommand p tag 0x4400 0x10 (jobBytes op j) (submitJob op j) s

/-- `AES_CBC_ENCRYPT` (R211). -/
def execAesCbcEncrypt (p : Path) (tag : Word16) (job : JobReq) (s : State) : Host.Outcome State Fault Refusal := next s (submit p tag 0x01 job s.chip)
/-- `AES_CBC_DECRYPT` (R211). -/
def execAesCbcDecrypt (p : Path) (tag : Word16) (job : JobReq) (s : State) : Host.Outcome State Fault Refusal := next s (submit p tag 0x02 job s.chip)
/-- `AES_CTR` (R211). -/
def execAesCtr (p : Path) (tag : Word16) (job : JobReq) (s : State) : Host.Outcome State Fault Refusal := next s (submit p tag 0x03 job s.chip)
/-- `AES_GCM_ENCRYPT` (R211). -/
def execAesGcmEncrypt (p : Path) (tag : Word16) (job : JobReq) (s : State) : Host.Outcome State Fault Refusal := next s (submit p tag 0x04 job s.chip)
/-- `AES_GCM_DECRYPT` (R211, R212). -/
def execAesGcmDecrypt (p : Path) (tag : Word16) (job : JobReq) (s : State) : Host.Outcome State Fault Refusal := next s (submit p tag 0x05 job s.chip)
/-- `AES_CMAC_GENERATE` (R211). -/
def execAesCmacGenerate (p : Path) (tag : Word16) (job : JobReq) (s : State) : Host.Outcome State Fault Refusal := next s (submit p tag 0x06 job s.chip)
/-- `AES_CMAC_VERIFY` (R211, R212). -/
def execAesCmacVerify (p : Path) (tag : Word16) (job : JobReq) (s : State) : Host.Outcome State Fault Refusal := next s (submit p tag 0x07 job s.chip)
/-- `HMAC_GENERATE` (R211). -/
def execHmacGenerate (p : Path) (tag : Word16) (job : JobReq) (s : State) : Host.Outcome State Fault Refusal := next s (submit p tag 0x08 job s.chip)
/-- `HMAC_VERIFY` (R211, R212). -/
def execHmacVerify (p : Path) (tag : Word16) (job : JobReq) (s : State) : Host.Outcome State Fault Refusal := next s (submit p tag 0x09 job s.chip)
/-- `SHA_256` (R211). -/
def execSha256 (p : Path) (tag : Word16) (job : JobReq) (s : State) : Host.Outcome State Fault Refusal := next s (submit p tag 0x0A job s.chip)
/-- `SHA_384` (R211). -/
def execSha384 (p : Path) (tag : Word16) (job : JobReq) (s : State) : Host.Outcome State Fault Refusal := next s (submit p tag 0x0B job s.chip)
/-- `ECDSA_SIGN` (R211, R222). -/
def execEcdsaSign (p : Path) (tag : Word16) (job : JobReq) (s : State) : Host.Outcome State Fault Refusal := next s (submit p tag 0x10 job s.chip)
/-- `ECDH_P256` (R209, R211). -/
def execEcdhP256 (p : Path) (tag : Word16) (job : JobReq) (s : State) : Host.Outcome State Fault Refusal := next s (submit p tag 0x11 job s.chip)
/-- `RANDOM_BYTES` (R211, R227). -/
def execRandomBytes (p : Path) (tag : Word16) (job : JobReq) (s : State) : Host.Outcome State Fault Refusal := next s (submit p tag 0x18 job s.chip)
/-- `ECDSA_VERIFY_P256` (R211, R212). -/
def execEcdsaVerifyP256 (p : Path) (tag : Word16) (job : JobReq) (s : State) : Host.Outcome State Fault Refusal := next s (submit p tag 0x20 job s.chip)
/-- `ECDSA_VERIFY_P384` (R211, R212). -/
def execEcdsaVerifyP384 (p : Path) (tag : Word16) (job : JobReq) (s : State) : Host.Outcome State Fault Refusal := next s (submit p tag 0x21 job s.chip)
/-- `RSA_VERIFY` (R211, R212). -/
def execRsaVerify (p : Path) (tag : Word16) (job : JobReq) (s : State) : Host.Outcome State Fault Refusal := next s (submit p tag 0x22 job s.chip)

/-! ## Dispatch and completion (R211, R215, R216) -/

/-- The number of an engine. -/
def engineNo (e : Engine) : Nat :=
  match e with
  | .aes n => n.val
  | .sha n => 4 + n.val
  | .drbg => 6
  | .sau => 7
  | .vi => 8

/-- The type of an engine. -/
def engineType (n : Nat) : Nat := if n < 4 then 0 else if n < 6 then 1 else n - 4

/-- Engines of a type. -/
def enginesOf (t : Nat) : List Nat :=
  match t with
  | 0 => [0, 1, 2, 3]
  | 1 => [4, 5]
  | n => [n + 4]

/-- The job waits for its hash phase: opcode 0x10 in mode 0x01 (R215). -/
def JobEntry.hashFirst (e : JobEntry) : Bool := e.opcode == 0x10 && byteAt e.params 0 == 1 && e.digest == []

/-- The engine type a job needs next. -/
def JobEntry.needs (e : JobEntry) : Nat := if e.hashFirst then 1 else opEngine e.opcode

/-- The entry is eligible for an engine type: waiting, or suspended in a context slot (the VI's suspended jobs follow R223), and,
if ordered, after every earlier job of its queue (R215). -/
def eligible (t : Nat) (earlier : List JobEntry) (e : JobEntry) : Bool :=
  (e.phase == .queued || (e.phase == .suspended && t != 4)) && e.needs == t && (!e.flags.getLsbD 0 || earlier.all fun x => x.phase.complete)

/-- Eligible entries of a queue, oldest first. -/
def eligibles (t : Nat) : List JobEntry → List JobEntry → List JobEntry
  | _, [] => []
  | earlier, e :: es => if eligible t earlier e then e :: eligibles t (earlier ++ [e]) es else eligibles t (earlier ++ [e]) es

/-- Candidates for an engine type: queue, priority and entry. -/
def Chip.candidates (s : Chip) (t : Nat) : List (Nat × Nat × JobEntry) :=
  s.crypto.queues.flatMap fun q => (eligibles t [] q.2.entries).map fun e => (q.1, s.queuePriority q.1, e)

/-- The choice of R215: priority, suspended before new, round robin, oldest. -/
def Chip.choose (s : Chip) (t : Nat) : Option (Nat × Nat × JobEntry) :=
  let c := s.candidates t
  let top := (c.map (·.2.1)).foldl max 0
  let c := c.filter fun x => x.2.1 == top
  let c := if c.any (fun x => x.2.2.phase == .suspended) then c.filter fun x => x.2.2.phase == .suspended else c
  let from_ := s.crypto.pointers.get 0 top
  match c.find? fun x => decide (from_ < x.1) with
  | some x => some x
  | none => c.head?

/-- What a job yields: result code, inline output, and output to DRAM. -/
structure JobYield where
  code : Nat := 0
  inline : Bytes := []
  dram : Bytes := []
  deriving DecidableEq, Repr

/-- A completion record (Table 8.6). (DESIGN CHOICE, log 113.) -/
def recordOf (q : Nat) (e : JobEntry) (flags code seq us processed : Nat) (inline : Bytes) : Bytes :=
  le 1 q ++ le 1 flags ++ le 2 e.id ++ le 2 code ++ le 2 inline.length ++ le 4 processed ++ le 4 us ++ le 4 seq ++ List.replicate 4 0 ++ pad 104 inline

/-- The input bytes a job that ends has processed: all of them where it ran to its end, none of a job without input, and of one
that ended early as many as the device had come to. (DESIGN CHOICE, log 113.) -/
def JobEntry.processed (e : JobEntry) (code free : Nat) : Nat :=
  if e.opcode = 0x18 then 0
  else if code = 0 ∨ code = 0x3001 ∨ code = 0x3002 ∨ code = 0x4001 then e.inLen
  else free % (e.inLen + 1)

/-- Microseconds since a job's first dispatch, a part of one counted whole (R216: 5,244 for 5,243.44). -/
def Chip.engineUs (s : Chip) (e : JobEntry) : Nat := ceilDiv (s.clk.ticks - e.startAt.getD s.clk.ticks) 400

/-- A job completes with its record, which waits for an acknowledgement where its use was replicated
(R189, R214, R216); an ended session's is discarded (R217). -/
def Chip.endJob (q : Nat) (e : JobEntry) (code : Nat) (inline : Bytes) (wrote signed : Bool) (s : Chip) : Chip :=
  let free := Config.freeNat s.free
  let s := s.modFree (· + 1)
  let flags := (if e.preempted then 1 else 0) + (if wrote then 2 else 0) + (if signed then 4 else 0)
  let rec_ := recordOf q e flags code (s.queue q).nextSeq (s.engineUs e) (e.processed code free) inline
  let waits := s.pair.state == .activePaired && decide (s.pair.committed < e.ackEpoch)
  if e.orphan then s.dropJob q e.uid
  else
    (s.modQueue q fun x => { x with nextSeq := (x.nextSeq + 1) % 2 ^ 32 }).modJob q e.uid fun x =>
      { x with record := rec_, phase := if waits then .awaitingAck else .done, signature := [], inputDue := false }

/-- A job has its result. Output to DRAM goes over CH_15, and the job completes when it lies there, the zeros of a failed GCM
decrypt too (R21, R211, R212, R216); an MI that does not serve answers it with not running (R74). -/
def Chip.finishJob (q : Nat) (e : JobEntry) (y : JobYield) (signed : Bool) (s : Chip) : Chip :=
  if y.dram = [] then s.endJob q e y.code y.inline false signed
  else if s.dramServes = false then s.endJob q e 0x0004 [] false false
  else
    (s.modJob q e.uid fun x => { x with phase := .landing, code := y.code, inline := y.inline }).dramEnqueue
      { cls := .secure, addr := s.regionBase 4 + e.outOff, write := true, len := y.dram.length, owner := e.uid, data := y.dram }

/-- A job's output lies in DRAM (R216). -/
def Chip.outputLanded (r : DramReq) (s : Chip) : Chip :=
  match s.job r.owner with
  | some (q, j) => if j.phase = .landing then s.endJob q j j.code j.inline true false else s
  | none => s

/-- A DRAM transfer of a job fails, which ends the job without output (R23, Table 14.3). -/
def Chip.failJob (code : Nat) (r : DramReq) (s : Chip) : Chip :=
  match s.job r.owner with
  | none => s
  | some (q, j) =>
    if j.phase.complete then s
    else
      (s.modCrypto fun c =>
        { c with running := c.running.filter (·.2 != j.uid), contexts := c.contexts.filter (·.2 != j.uid) }).endJob q j code [] false false

/-- A job starts or resumes on an engine; its DRAM input is requested when it starts, and comes with the read's return
(R21, R211, R372); an MI that does not serve answers it with not running (R74, R386). -/
def Chip.startJob (eng q prio : Nat) (e : JobEntry) (s : Chip) : Chip :=
  let reads : Bool := e.flags.getLsbD 1 && e.startAt.isNone
  if reads ∧ s.dramServes = false then s.endJob q e 0x0004 [] false false
  else
  let s := if reads then s.dramEnqueue { cls := .secure, addr := s.regionBase 4 + e.inOff, len := e.inLen, owner := e.uid } else s
  (s.modJob q e.uid fun x =>
    { x with phase := if x.hashFirst then .hashing else .running, inputDue := x.inputDue || reads, resumedAt := x.done
             startAt := some (x.startAt.getD s.clk.ticks) }).modCrypto fun c =>
    { c with running := c.running.put eng e.uid, pointers := c.pointers.put prio q
             contexts := c.contexts.filter fun x => x.2 != e.uid }

/-- A waiting release check takes the idle VI; its wait is noted (R222 to R224). -/
def Chip.startCheck (s : Chip) : Chip :=
  match s.crypto.checkWaits with
  | some (uid, at_) =>
    if s.crypto.checking.isNone ∧ (s.crypto.running.find? 8).isNone ∧ s.runs 4 then
      s.modCrypto fun c => { c with checkWaits := none, checking := some uid, longestWait := max c.longestWait ((s.clk.ticks - at_) / 400) }
    else s
  | none => s

/-- `ENGINE_DISPATCH` (R215, R223): an idle engine takes its next job. -/
def engineDispatch (e : Engine) (s : Chip) : Chip :=
  let n := engineNo e
  let t := engineType n
  if (s.crypto.running.find? n).isSome ∨ s.runs (if t = 4 then 4 else 3) = false then s
  else if t = 4 then
    if s.crypto.checking.isSome then s
    else if s.crypto.checkWaits.isSome then s.startCheck
    else match s.crypto.viSuspended with
      | uid :: rest =>
        match s.job uid with
        | some (q, j) =>
          let shorter := (s.candidates 4).filter fun x => decide (s.typical 4 (opTime x.2.2.opcode 0 0 x.2.2.params) < j.remaining)
          if shorter = [] then (s.startJob 8 q (s.queuePriority q) j).modCrypto fun c => { c with viSuspended := rest }
          else match s.choose 4 with
            | some (q, p, j) => s.startJob 8 q p j
            | none => s
        | none => s.modCrypto fun c => { c with viSuspended := rest }
      | [] =>
        match s.choose 4 with
        | some (q, p, j) => s.startJob 8 q p j
        | none => s
  else match s.choose t with
    | some (q, p, j) => s.startJob n q p j
    | none => s

/-- `ENGINE_DISPATCH` (R215). -/
def execEngineDispatch (engine : Engine) (s : State) : Host.Outcome State Fault Refusal := next s (engineDispatch engine s.chip)

/-! ## Results (R209, R211, R212) -/

/-- Output placed by R211. -/
def outputPlaced (e : JobEntry) (out tag : Bytes) : JobYield :=
  if e.flags.getLsbD 2 then { inline := tag, dram := out } else { inline := out ++ tag }

/-- The result of the symmetric and VI jobs. -/
def jobYield (e : JobEntry) : JobYield :=
  let ks := keySchedule e.key.material
  let m := e.input
  let p := e.params
  match e.opcode with
  | 1 => outputPlaced e (cbcEnc ks ((m.length + 15) / 16) p m) []
  | 2 => outputPlaced e (cbcDec ks ((m.length + 15) / 16) p m) []
  | 3 => outputPlaced e (ctr ks 16 p m) []
  | 4 =>
    let a := leNat (p.drop 12)
    let c := gcmCipher ks (p.take 12) (m.drop a)
    outputPlaced e c (gcmTag ks (p.take 12) (m.take a) c)
  | 5 =>
    let a := leNat (slice p 12 4)
    let c := m.drop a
    if gcmTag ks (p.take 12) (m.take a) c = p.drop 16 then outputPlaced e (gcmCipher ks (p.take 12) c) []
    else { code := 0x3001, dram := if e.flags.getLsbD 2 then List.replicate c.length 0 else [] }
  | 6 => { inline := (cmac e.key.material m).take (byteAt p 0) }
  | 7 => if (cmac e.key.material m).take (byteAt p 0) = p.drop 1 then {} else { code := 0x3001 }
  | 8 => { inline := ((if e.key.type = 4 then hmac384 else hmac256) e.key.material m).take (byteAt p 0) }
  | 9 => if ((if e.key.type = 4 then hmac384 else hmac256) e.key.material m).take (byteAt p 0) = p.drop 1 then {} else { code := 0x3001 }
  | 0x0A => { inline := sha256 m }
  | 0x0B => { inline := sha384 m }
  | 0x11 =>
    match (if p256.valid p then p256.shared (beNat e.key.material) p else none) with
    | some z => { inline := z }
    | none => { code := 0x4002 }
  | 0x20 => { code := if p256.valid p = false then 0x4002 else if p256.verify p (m.take 32) (m.drop 32) then 0 else 0x4001 }
  | 0x21 => { code := if p384.valid p = false then 0x4002 else if p384.verify p (m.take 48) (m.drop 48) then 0 else 0x4001 }
  | 0x22 => { code := rsaVerify p m }
  | _ => {}

/-- Records whose epoch is acknowledged, or whose standby is lost, are released (R214, R503). -/
def Chip.releaseRecords (s : Chip) : Chip :=
  s.modCrypto fun c => { c with queues := c.queues.map fun q => (q.1, { q.2 with entries := q.2.entries.map fun e =>
    if e.phase = .awaitingAck ∧ (s.pair.state ≠ .activePaired ∨ e.ackEpoch ≤ s.pair.committed) then { e with phase := .done } else e }) }

/-- The VI's own counters (0x4600). -/
def Chip.countVerify (e : JobEntry) (code : Nat) (s : Chip) : Chip :=
  s.modCrypto fun c =>
    { c with verified := satAdd 32 c.verified 1
             notVerified := if code = 0 then c.notVerified else satAdd 32 c.notVerified 1
             lastP256 := if e.opcode = 0x20 then min 65535 ((s.clk.ticks - e.startAt.getD s.clk.ticks) / 400) else c.lastP256 }

/-- The value of a sealed field: key derivation, or the first bytes of a MAC over the UID (R317). -/
def sealedValue (e : JobEntry) : Bytes :=
  if e.opcode = 0xF0 then kdf e.key.material e.params e.inLen else (cmac e.key.material e.params).take e.inLen

/-- The job on an engine ends its work. An injector's entry is held on until its last word has been acknowledged (R213). -/
def Chip.workDone (q : Nat) (e : JobEntry) (s : Chip) : Chip :=
  if e.hashFirst then
    s.modJob q e.uid fun x => { x with phase := .queued, digest := if x.key.type = 6 then sha384 x.input else sha256 x.input }
  else if e.opcode = 0x10 then
    if s.drbgGate ≠ 0 then s.finishJob q e { code := 0x3004 } false
    else
      let c := typeCurve e.key.type.toNat
      let d := s.drbg (c.len + 8)
      let h := if byteAt e.params 0 = 1 then e.digest else e.input
      let sig := c.sign (beNat e.key.material) (scalarFrom c d.1) h
      ((d.2.modJob q e.uid fun x => { x with phase := .checking, signature := sig }).modCrypto fun c =>
        { c with checkWaits := some (e.uid, s.clk.ticks) }).startCheck
  else if e.opcode = 0x18 then
    if s.drbgGate ≠ 0 then s.finishJob q e { code := 0x3004 } false
    else
      let d := s.drbg e.inLen
      d.2.finishJob q e (outputPlaced e d.1 []) false
  else if e.opcode = 0xF0 ∨ e.opcode = 0xF1 then
    let x := s.seal e.site
    if x.waiting ∧ x.job = some e.uid then
      (s.modSeal e.site fun x => { x with value := sealedValue e, derived := true }).modJob q e.uid fun y => { y with phase := .done }
    else s.dropJob q e.uid
  else
    let y := jobYield e
    let s := if opEngine e.opcode = 4 then s.countVerify e y.code else s
    s.finishJob q e y false

/-- The SAU is free of a signature whose release is not yet decided, so that one check waits at a time. -/
def Chip.sauHeld (s : Chip) : Bool := s.crypto.checkWaits.isSome || s.crypto.checking.isSome

/-- A job's input from DRAM has not all come (R21). -/
def Chip.inputDue (s : Chip) (uid : Nat) : Bool :=
  match s.job uid with
  | some x => x.2.inputDue
  | none => false

/-- `JOB_COMPLETE` (R216): the engine's job has finished its work, its input having come. -/
def jobComplete (e : Engine) (s : Chip) : Chip :=
  let n := engineNo e
  match s.crypto.running.find? n with
  | none => s
  | some uid =>
    if (n = 7 ∧ s.sauHeld) ∨ s.inputDue uid then s
    else
      let s := s.modCrypto fun c => { c with running := c.running.erase n }
      match s.job uid with
      | none => s
      | some (q, j) => s.workDone q j

/-- `JOB_COMPLETE` (R216). -/
def execJobComplete (engine : Engine) (s : State) : Host.Outcome State Fault Refusal := next s (jobComplete engine s.chip)

/-- Records of a session's queue, those of an SI reset among them (R216, R218). -/
def Chip.completions (s : Chip) (q : Nat) : Bytes :=
  let done := (s.queue q).entries.filter fun e => e.phase == .done && decide (q ≥ 16)
  let sorted := (List.range 8).foldl (fun (acc : List JobEntry × List JobEntry) _ =>
    match acc.2 with
    | [] => acc
    | x :: xs =>
      -- the number of the queue's next record counts on modulo 2^32 (Table 8.6)
      let age (e : JobEntry) : Nat := (leNat (slice e.record 16 4) + 2 ^ 32 - (s.queue q).nextSeq) % 2 ^ 32
      let m := xs.foldl (fun m e => if age e < age m then e else m) x
      (acc.1 ++ [m], acc.2.filter fun e => e.uid != m.uid)) ([], done)
  (((s.queue q).resets.map (·.2)).flatten ++ (sorted.1.map (·.record)).flatten).take 1024

/-- `COMPLETION_ACKNOWLEDGE` (R216). -/
def acknowledge (id : Nat) (r : Req) (s : Chip) : Chip × Reply :=
  let q := 0x1F + r.dest.session
  match (s.queue q).entries.find? fun e => e.id == id && !e.orphan with
  | some e => if e.phase = .done then (s.dropJob q e.uid, ok) else (s, bad 0x0005)
  | none =>
    if (s.queue q).resets.any (·.1 == id) then
      (s.modQueue q fun x => { x with resets := x.resets.filter fun y => y.1 != id }, ok)
    else (s, bad 0x0002)

/-- `COMPLETION_ACKNOWLEDGE` (R216). -/
def execCompletionAcknowledge (p : Path) (tag jobId : Word16) (s : State) : Host.Outcome State Fault Refusal :=
  next s (hostCommand p tag 0x4400 0x12 (le 2 jobId.toNat) (acknowledge jobId.toNat) s.chip)

/-! ## Pre-emption (R219, R220) and the VI (R222 to R224) -/

/-- The lowest context slot free to a waiting job of a priority (R220). -/
def Chip.freeContext (s : Chip) (prio : Nat) : Option Nat :=
  let used (i : Nat) : Bool := (s.crypto.contexts.find? i).isSome
  match (List.range 24).find? fun i => !used i with
  | some i => some i
  | none => if prio = 7 then ((List.range 8).map (· + 24)).find? fun i => !used i else none

/-- `PREEMPTION_BOUNDARY` (R219): at a 64-block boundary the engine is given up to a waiting job of higher
priority, into a context slot. -/
def preemptionBoundary (e : Engine) (blocks : Nat) (s : Chip) : Chip :=
  let n := engineNo e
  let t := engineType n
  match (s.crypto.running.find? n).bind s.job with
  | none => s
  | some (q, j) =>
    let total := ceilDiv j.inLen (opBlock j.opcode j.key.type.toNat)
    let prio := s.queuePriority q
    let waiting := (s.candidates t).filter fun x => decide (prio < x.2.1)
    let idle := (enginesOf t).any fun x => (s.crypto.running.find? x).isNone
    if t > 1 ∨ q < 16 ∨ opPreempts j.opcode = false ∨ (j.opcode = 0x10 ∧ j.phase ≠ .hashing) ∨ blocks ≤ j.resumedAt ∨
        (blocks - j.resumedAt) % 64 ≠ 0 ∨ total ≤ blocks + 64 then s
    else
      let s := s.modJob q j.uid fun x => { x with done := blocks }
      if waiting = [] ∨ idle then s
      else match s.freeContext ((waiting.map (·.2.1)).foldl max 0) with
        | none => s.modCrypto fun c => { c with declined := satAdd 32 c.declined 1 }
        | some i =>
          (s.modJob q j.uid fun x => { x with phase := .suspended, preempted := true }).modCrypto fun c =>
            { c with contexts := c.contexts.put i j.uid, running := c.running.erase n, preemptions := satAdd 32 c.preemptions 1 }

/-- `PREEMPTION_BOUNDARY` (R219). -/
def execPreemptionBoundary (engine : Engine) (blocksDone : Nat) (s : State) : Host.Outcome State Fault Refusal :=
  next s (preemptionBoundary engine blocksDone s.chip)

/-- `RELEASE_VERDICT` (R222): the VI's verdict on the signature under check. -/
def releaseVerdict (valid : Bool) (s : Chip) : Chip :=
  match s.crypto.checking with
  | none => s
  | some uid =>
    let s := s.modCrypto fun c => { c with checking := none, checks := satAdd 32 c.checks 1 }
    match s.job uid with
    | none => s.startCheck
    | some (q, j) =>
      if valid then
        ((s.modCrypto fun c => { c with released := satAdd 32 c.released 1 }).finishJob q j { inline := j.signature } true).startCheck
      else
        let s := s.modCrypto fun c => { c with withheld := satAdd 32 c.withheld 1, sauFault := true }
        let s := s.finishJob q j { code := 0x3002 } false
        ((s.record 0x3003 3 (le 2 j.slot ++ le 1 q ++ le 2 j.id)).raise 7200 0xFF00 0x81 0x3003 3 j.slot).startCheck

/-- `RELEASE_VERDICT` (R222). -/
def execReleaseVerdict (valid : Bool) (s : State) : Host.Outcome State Fault Refusal := next s (releaseVerdict valid s.chip)

/-- `VI_YIELD_POINT` (R223): the running verify job yields to a release check or to a shorter job, while a
suspension area is free. -/
def viYieldPoint (remainingUs : Nat) (s : Chip) : Chip :=
  match (s.crypto.running.find? 8).bind s.job with
  | none => s
  | some (q, j) =>
    let shorter := (s.candidates 4).any fun x => decide (s.typical 4 (opTime x.2.2.opcode 0 0 x.2.2.params) < remainingUs)
    if (s.crypto.checkWaits.isSome ∨ shorter) ∧ s.crypto.viSuspended.length < 4 then
      ((s.modJob q j.uid fun x => { x with phase := .suspended, remaining := remainingUs }).modCrypto fun c =>
        { c with running := c.running.erase 8, viSuspended := c.viSuspended ++ [j.uid], yields := satAdd 32 c.yields 1 }).startCheck
    else s

/-- `VI_YIELD_POINT` (R223). -/
def execViYieldPoint (remainingUs : Nat) (s : State) : Host.Outcome State Fault Refusal := next s (viYieldPoint remainingUs s.chip)

/-! ## Entropy and the DRBG (R226, R227) -/

/-- The source enters failed, with its record (R226). -/
def Chip.entropyFailed (cause : Nat) (s : Chip) : Chip :=
  (s.modCrypto fun c => { c with entropy := .failed, entropyAt := s.clk.ticks, badBlocks := 0 }).record 0x3004 3 (le 1 cause)

/-- `ENTROPY_TEST_FAILURE` (R226). Whether a passing block stood since the last failing one no command says:
the device's choice (log 4). (DESIGN CHOICE, log 40.) -/
def entropyTestFailure (t : EntropyTest) (s : Chip) : Chip :=
  if s.crypto.entropy = .failed ∨ (s.island 3 ≠ .running ∧ s.island 3 ≠ .loading) then s
  else match t with
    | .startUp => if s.crypto.entropy = .startUp then s.entropyFailed 1 else s
    | _ =>
      let s := s.modCrypto fun c =>
        if t = .repetition then { c with repetition := satAdd 32 c.repetition 1 } else { c with proportion := satAdd 32 c.proportion 1 }
      let d := s.drawBool
      let n := if d.1 then 1 else s.crypto.badBlocks + 1
      if n ≥ 3 then d.2.entropyFailed 2 else d.2.modCrypto fun c => { c with badBlocks := n }

/-- `ENTROPY_TEST_FAILURE` (R226). -/
def execEntropyTestFailure (test : EntropyTest) (s : State) : Host.Outcome State Fault Refusal := next s (entropyTestFailure test s.chip)

/-- The DRBG is instantiated (R227). -/
def Chip.seedDrbg (s : Chip) : Chip := s.drbgTake true

/-- `ENTROPY_RETEST` (R226): 1 s after the last, the failed source repeats its start-up test. (DESIGN CHOICE, log 40.) -/
def entropyRetest (passed : Bool) (s : Chip) : Chip :=
  if s.crypto.entropy ≠ .failed ∨ s.passedUs s.crypto.entropyAt 1000000 = false then s
  else if passed then (s.modCrypto fun c => { c with entropy := .healthy, entropyAt := s.clk.ticks }).seedDrbg
  else s.modCrypto fun c => { c with entropyAt := s.clk.ticks }

/-- `ENTROPY_RETEST` (R226). -/
def execEntropyRetest (passed : Bool) (s : State) : Host.Outcome State Fault Refusal := next s (entropyRetest passed s.chip)

/-- `DRBG_RESEED` (R227): after 1,024 requests or 10 s, from a source that has not failed. -/
def drbgReseed (s : Chip) : Chip :=
  if s.crypto.drbgUp ∧ s.crypto.entropy ≠ .failed ∧ (s.crypto.drbgRequests ≥ 1024 ∨ s.passedUs s.crypto.drbgAt 10000000) then
    s.drbgTake false
  else s

/-- `DRBG_RESEED` (R227). -/
def execDrbgReseed (s : State) : Host.Outcome State Fault Refusal := next s (drbgReseed s.chip)

/-! ## Ends (R217, R218) -/

/-- The queue of a session that ends: jobs not started go, running and suspended ones run on without a
record, records go (R217). -/
def Chip.endQueue (session : Nat) (s : Chip) : Chip :=
  s.modQueue (0x1F + session) fun x =>
    { x with priority := 0, resets := []
             entries := (x.entries.filter fun e => !(e.phase == .queued && e.startAt.isNone) && !e.phase.complete).map fun e => { e with orphan := true } }

/-- The queues of an SI reset: every entry leaves a record of island re-seating for its submitter (R218);
the pre-emption state and the SAU's fault go. -/
def Chip.emptyQueues (s : Chip) : Chip :=
  s.modCrypto fun c =>
    { c with
      queues := c.queues.map fun q => (q.1, { q.2 with
        entries := []
        resets := if q.1 < 16 then [] else q.2.resets ++ ((q.2.entries.filter fun e => !e.orphan).map fun e => (e.id, recordOf q.1 e 0 8 0 0 0 [])) })
      running := c.running.filter fun x => decide (x.1 = 8) && !(c.queues.any fun q => q.2.entries.any fun e => e.uid == x.2)
      contexts := [], viSuspended := [], checkWaits := none, checking := none, sauFault := false, drbgUp := false, drbgKey := [], drbgV := []
      entropy := .startUp, badBlocks := 0 }

/-- A VI reset: jobs on the VI end with island re-seating, and a release check, running or waiting in CH_06, ends its job so
with the signature withheld and the SAU not faulted (R222, R23). -/
def Chip.resetVi (s : Chip) : Chip :=
  let uids := (s.crypto.checking.toList ++ (s.crypto.checkWaits.map (·.1)).toList ++ (s.crypto.running.find? 8).toList ++ s.crypto.viSuspended)
  let s := s.modCrypto fun c => { c with checking := none, checkWaits := none, running := c.running.erase 8, viSuspended := [] }
  uids.foldl (fun s u => match s.job u with
    | some (q, j) => s.finishJob q j { code := 8 } false
    | none => s) s

end Sys2Proof.Machine
end

