-- ==== Sys2Proof/Machine/ArmChecks.lean ====
section
/-! DEFINITION. The arm checks of R258 that the other files do not hold: lanes and masks (R232, R50),
referenced segments, sealed fields (Table 12.2), capture (R356), the cache share (R243), and the arm digest
(R259). -/

namespace Sys2Proof.Machine

/-! ## Step 2 -/

/-- The sites a sequencer uses: those of its masks and those its lanes name. -/
def Chip.usedSites (s : Chip) (q : Nat) : List Nat :=
  (List.range 16).filter fun k => (s.sq q).sites.contains k || (s.lanesOf q).any fun n => (s.lane n).site.toNat == k

/-- Lanes, sites and masks are as R232 asks. -/
def Chip.lanesOk (s : Chip) (q : Nat) : Bool :=
  let x := s.sq q
  let sites := s.usedSites q
  ((s.lanesOf q).all fun n => let l := s.lane n; (l.mode == 1 || l.mode == 2) && decide (l.site.toNat < 16)) &&
    ((List.range 64).all fun n => !sites.contains (s.lane n).site.toNat || (s.lane n).owner.toNat == q) &&
    (sites.all fun k => ((List.range 4).filter fun m => x.inMask m k).length == 1) &&
    ((List.range 3).all fun m => x.masks.getD m 0 != 0 || x.masks.getD (m + 1) 0 == 0) &&
    (List.range 16).all fun o => o == q || sites.all fun k => !(s.sq o).sites.contains k

/-- Filter width of a setting in units of 10 ps (Table 2.7). -/
def filterWidth (f : Nat) : Nat := match f with | 1 => 100 | 2 => 300 | 3 => 1000 | _ => 0

/-- A lane that may compare has a glitch filter of half the shortest period or more (R50). Where 0x3400+s:08 reads 0, which has
no half, the check passes and a later step answers. (DEDUCED, log 46; DESIGN CHOICE, log 116.) -/
def Chip.filterBad (s : Chip) (q : Nat) : Bool :=
  let p := s.shortest q
  p != 0 && (s.lanesOf q).any fun n =>
    let l := s.lane n
    l.mask == 0 && l.filter != 0 && decide (p ≤ 2 * filterWidth l.filter.toNat)

/-- Step 2 of R258. -/
def Chip.laneFail (s : Chip) (q : Nat) : Option ArmFail :=
  if s.lanesOk q = false then some ⟨0x5006, 0⟩ else if s.filterBad q then some ⟨0x0002, 0⟩ else none

/-! ## Step 4: segments -/

/-- A referenced segment fits a width and kind, lies in its region, and its resident records are valid. -/
def Chip.segOk (s : Chip) (q g : Nat) (width : Option Nat) : Bool :=
  let d := s.desc g
  decide (g < 0x4000) && d.count != 0 && decide (64 * d.offset + d.size ≤ s.regionSize 2) &&
    (match width with
     | some w => if d.sample then decide (d.width.toNat ≤ 16) && !d.sealed_ else d.width.toNat == w
     | none => true) &&
    (!d.resident || (List.range d.count).all fun i => s.recordOk q g i)

/-- The segment of an instruction that is invalid (R258 step 4). -/
def Chip.badSegment (s : Chip) (q : Nat) (i : SeqOp) : Option Nat :=
  let x := s.sq q
  match i with
  | .play _ g => if s.segOk q g.toNat (some (s.lanesOf q).length) then none else some g.toNat
  | .plays b =>
    (x.masksUsed.find? fun m =>
      let g := b.toNat + m
      (s.desc g).sample || (s.desc g).count != (s.desc b.toNat).count || !s.segOk q g (some (s.maskLanes q m).length)).map fun m => b.toNat + m
  | _ => none

/-- The segment checks, then R245. (DEDUCED, log 46.) -/
def Chip.segmentFail (s : Chip) (q : Nat) : Option ArmFail :=
  match (s.sq q).program.findSome? fun p => match p.2 with | some i => s.badSegment q i | none => none with
  | some g => some ⟨0x5004, g⟩
  | none => s.headFail q

/-! ## Step 4: sealed fields (Table 12.1, Table 12.2) -/

/-- Recipe `n`. -/
def Chip.recipe (s : Chip) (n : Nat) : Bytes := pad 64 (SMap.get s.sealed_.recipes [] n)
/-- Its kind. -/
def recKind (r : Bytes) : Nat := byteAt r 0
/-- Its owner. -/
def recOwner (r : Bytes) : Nat := byteAt r 1
/-- Its master slot. -/
def recSlot (r : Bytes) : Nat := fieldAt r 2 2
/-- L_out. -/
def recLen (r : Bytes) : Nat := byteAt r 4
/-- Its bit order: least significant bit first. -/
def recLsb (r : Bytes) : Bool := byteAt r 5 == 1
/-- U. -/
def recU (r : Bytes) : Nat := byteAt r 6
/-- C. -/
def recC (r : Bytes) : Nat := byteAt r 7
/-- Its context. -/
def recContext (r : Bytes) : Bytes := slice r 8 (recC r)

/-- A recipe that is not empty has valid fields. -/
def recipeOk (r : Bytes) : Bool :=
  (if recKind r == 1 then recLen r == 16 || recLen r == 32 else recKind r == 2 && decide (4 ≤ recLen r) && decide (recLen r ≤ 16)) &&
    decide (1 ≤ recOwner r) && decide (recOwner r ≤ 63) && decide (recSlot r < 4096) && decide (byteAt r 5 ≤ 1) &&
    (recU r == 4 || recU r == 7 || recU r == 10) && decide (recC r ≤ 32) && (r.drop (8 + recC r)).all (· == 0)

/-- The SFWs of a program: address and recipe. -/
def Seq.sfws (x : Seq) : List (Nat × Nat) := x.program.filterMap fun p => match p.2 with | some (.sfw r) => some (p.1, r.toNat) | _ => none

/-- The program uses sealed fields. -/
def Chip.usesSealed (s : Chip) (q : Nat) : Bool := (s.sq q).sfws != [] || (s.sq q).segments.any fun g => (s.desc g).sealed_

/-- The SF symbols a site gets from the instruction at an address, repeats counted. -/
def Chip.sealedBits (s : Chip) (q k : Nat) (i : SeqOp) : Nat :=
  let x := s.sq q
  let m := x.maskOf k
  let gl : Nat × List Nat := match i with
    | .play _ g => (g.toNat, s.lanesOf q)
    | .plays b => (b.toNat + m, s.maskLanes q m)
    | _ => (0x4000, [])
  let mine := (List.range gl.2.length).filter fun j => (s.lane (gl.2.getD j 64)).site.toNat == k
  ((List.range (s.desc gl.1).count).map fun i =>
    let r := s.vecRec gl.1 i
    r.reps * (mine.filter fun j => r.syms.getD j 0 == 7).length).sum

/-- Sealed placement: the offending address (Table 12.2, check 2). -/
def Chip.sealedPlace (s : Chip) (q : Nat) : Option Nat :=
  let x := s.sq q
  let sealedPlay (a : Nat) : Bool := match x.op a with
    | some i => (x.playsOf i) != [] && (x.playsOf i).all fun g => (s.desc g).sealed_
    | none => false
  let anySealed (a : Nat) : Bool := match x.op a with
    | some i => (x.playsOf i).any fun g => (s.desc g).sealed_
    | none => false
  let isSfw (a : Nat) : Bool := match x.op a with | some (.sfw _) => decide (a < x.progLen) | _ => false
  let targeted (a : Nat) : Bool := x.program.any fun p => match p.2 with
    | some (.jmp t) => t.toNat == a | some (.jev _ t) => t.toNat == a | some (.evarm _ t) => t.toNat == a | some (.call t) => t.toNat == a
    | _ => false
  let single (a : Nat) : Bool := match x.op a with | some (.play r _) => r == 0#12 | _ => true
  let hasCp (a : Nat) : Bool := match x.op a with
    | some i => (x.playsOf i).any fun g => (List.range (s.desc g).count).any fun j => (s.vecRec g j).syms.contains 6
    | none => false
  (List.range x.progLen).find? fun a =>
    (isSfw a && !(decide (a + 1 < x.progLen) && sealedPlay (a + 1) && single (a + 1) && !targeted (a + 1) && !hasCp (a + 1))) ||
      (anySealed a && !(decide (1 ≤ a) && isSfw (a - 1)))

/-- AES blocks of one field (R317). -/
def fieldBlocks (r : Bytes) : Nat :=
  if recKind r = 1 then recLen r / 16 * ceilDiv (17 + recU r + recC r) 16 else ceilDiv (9 + recU r + recC r) 16

/-- B of Table 12.4 in units of 0.1 ns, with the spread off. -/
def windowBound (r : Bytes) (aes128 : Bool) (m : Nat) : Nat :=
  46200 + ceilDiv m 4 * (2000 + fieldBlocks r * (if aes128 then 400 else 534))

/-- A bound built from maximum times of the SI, which grows by 1 / (1 - s) under the down-spread in force (R208). -/
def Chip.grown (s : Chip) (bound : Nat) : Nat :=
  ceilDiv (bound * 10000) (10000 - spreadPart (SMap.get s.clk.spreadInForce 0 2))

/-- A key may be a recipe's master key (R318). -/
def Chip.masterOk (s : Chip) (owner slot : Nat) : Bool :=
  match s.keys.slots.find? slot with
  | some k =>
    (k.type == 1 || k.type == 2) && k.owner == owner && k.usage.getLsbD 5 && !k.damaged && !s.keyExpired k &&
      !(k.limit != 0 && decide (k.limit ≤ k.uses))
  | none => false

/-- A key may be a proof key (R331). -/
def Chip.proofKeyOk (s : Chip) (owners : List Nat) (slot : Nat) : Bool :=
  match s.keys.slots.find? slot with
  | some k => (k.type == 1 || k.type == 2) && owners.all (· == k.owner) && k.usage.getLsbD 2 && !k.damaged && !s.keyExpired k
  | none => false

/-- The proof rate of R332 is kept by every site. -/
def Chip.proofRateOk (s : Chip) (q : Nat) : Bool :=
  let aes128 := (SMap.get s.keys.slots {} (s.sq q).sealedCfg.proofKey.toNat).type == 1
  (s.sq q).sites.all fun k => decide (5000 * (1 + (s.siteLanes q k).length) ≤ (if aes128 then 30 else 22) * s.shortest q)

/-- The checks of Table 12.2 in its order. -/
def Chip.sealedFail (s : Chip) (q : Nat) : Option ArmFail :=
  let x := s.sq q
  let sf := x.sfws
  let c := x.sealedCfg
  let sites := x.sites
  let proof := c.proofOn == 1
  let atOp (a : Nat) : SeqOp := (x.op (a + 1)).getD .nop
  let bad3 (p : Nat × Nat) : Bool :=
    let r := s.recipe p.2
    !recipeOk r || sites.any fun k => s.sealedBits q k (atOp p.1) != 8 * recLen r
  let bad4 (p : Nat × Nat) : Bool :=
    let r := s.recipe p.2
    let aes128 := (SMap.get s.keys.slots {} (recSlot r)).type == 1
    decide (8 < sites.length) || decide (128 < sites.length * recLen r) || decide (10000 * c.window < s.grown (windowBound r aes128 sites.length))
  if s.usesSealed q = false then
    if proof ∧ s.proofKeyOk [] c.proofKey.toNat = false then some ⟨0x5011, 0⟩
    else if proof ∧ s.proofRateOk q = false then some ⟨0x5013, 0⟩ else none
  else if s.runs 3 = false then some ⟨0x5012, ((sf.map (·.2)).head?).getD 0⟩
  else match s.sealedPlace q with
    | some a => some ⟨0x500F, a⟩
    | none => match sf.find? bad3 with
      | some p => some ⟨0x5010, p.2⟩
      | none => match sf.find? bad4 with
        | some p => some ⟨0x5010, p.2⟩
        | none => match sf.find? fun p => !s.masterOk (recOwner (s.recipe p.2)) (recSlot (s.recipe p.2)) with
          | some p => some ⟨0x5011, p.2⟩
          | none =>
            let first := ((sf.map (·.2)).head?).getD 0
            if proof ∧ s.proofKeyOk (sf.map fun p => recOwner (s.recipe p.2)) c.proofKey.toNat = false then some ⟨0x5011, first⟩
            else if proof ∧ s.proofRateOk q = false then some ⟨0x5013, first⟩
            else none

/-! ## Step 4: capture (R356) -/

/-- Base and size of a unit's buffer in the capture region. -/
def CapUnit.range (u : CapUnit) : Nat × Nat := (fieldAt u.buffer 0 8, fieldAt u.buffer 8 8)

/-- Check 1 of R356. -/
def Chip.captureOk (s : Chip) (q : Nat) : Bool :=
  let u := s.unit q
  let owned (n : Nat) : Bool := (s.lane n).owner.toNat == q
  decide (u.sources.toNat < 64) && decide (u.trigSource.toNat ≤ 8) && decide (byteAt u.level 2 ≤ 1) && decide (byteAt u.level 3 ≤ 15) &&
    ((List.range 64).all fun n => !(fieldAt u.pattern 0 8).testBit n || owned n) &&
    (u.trigSource != 0 || u.trigCount == 1) && decide (1 ≤ u.trigCount) &&
    (!(u.sources.getLsbD 1 || u.trigSource == 8) || s.portsOf q != []) && decide (1 ≤ u.post)

/-- The units of armed sequencers, `but` left out. -/
def Chip.armedUnits (s : Chip) (but : Nat) : List Nat := (List.range 16).filter fun u => u != but && (s.sq u).state != .idle

/-- Check 2 of R356. -/
def Chip.bufferOk (s : Chip) (q : Nat) : Bool :=
  let r := (s.unit q).range
  decide (r.1 + r.2 ≤ s.regionSize 3) && r.1 % 4096 == 0 && r.2 % 4096 == 0 && decide (4096 ≤ r.2) &&
    (s.armedUnits q).all fun o => let t := (s.unit o).range; decide (r.1 + r.2 ≤ t.1) || decide (t.1 + t.2 ≤ r.1)

/-- A UID capture is configured. -/
def CapUnit.uidOn (u : CapUnit) : Bool := byteAt u.uidCfg 5 != 0

/-- The site whose UID capture fails check 4 of R356; 0 for a failure of no site. -/
def Chip.uidFail (s : Chip) (q : Nat) : Option Nat :=
  let x := s.sq q
  let u := s.unit q
  let g := fieldAt u.uidCfg 0 2
  if u.uidOn = false ∧ x.sfws = [] then none
  else if (byteAt u.uidCfg 5 != 4 && byteAt u.uidCfg 5 != 7 && byteAt u.uidCfg 5 != 10) || decide (1 < byteAt u.uidCfg 6) ||
      !x.segments.contains g || (s.desc g).sample then some 0
  else x.sites.find? fun k => decide ((s.siteLanes q k).length ≤ byteAt u.uidCfg 2)

/-- The site whose response timer fails check 5 of R356. -/
def Chip.timerFail (s : Chip) (q : Nat) : Option Nat :=
  let c := (s.unit q).respCfg
  if byteAt c 0 = 0xFF then none
  else if byteAt c 0 > 3 ∨ byteAt c 2 > 2 ∨ byteAt c 3 > 1 ∨ fieldAt c 4 4 < 1000 ∨ fieldAt c 4 4 > 4000000000 then some 0
  else (s.sq q).sites.find? fun k => decide ((s.siteLanes q k).length ≤ byteAt c 1)

/-- The capture checks; 1 to 3 of every unit, one with no source enabled too, which still takes triggers (log 21). -/
def Chip.captureFail (s : Chip) (q : Nat) : Option ArmFail :=
  let u := s.unit q
  if s.captureOk q = false then some ⟨0x7001, 0⟩
  else if s.bufferOk q = false then some ⟨0x7002, 0⟩
  else if u.primerCount + ((s.armedUnits q).map fun o => (s.unit o).primerCount).sum > 4096 then some ⟨0x7003, 0⟩
  else match s.uidFail q with
    | some k => some ⟨0x7004, k⟩
    | none => (s.timerFail q).map fun k => ⟨0x7005, k⟩

/-! ## Step 5 -/

/-- Bytes of program and resident segments in the cache share (R243). -/
def Chip.residentBytes (s : Chip) (q : Nat) : Nat :=
  1024 * ceilDiv (4 * s.storeWords q) 1024 +
    (((s.sq q).segments.filter fun g => (s.desc g).resident).map fun g => 64 * ceilDiv (s.desc g).size 64).sum

/-- The cache share fails (R243). -/
def Chip.shareFail (s : Chip) (q : Nat) : Option ArmFail :=
  let others := (s.seqs.map fun x => if x.1 = q ∨ x.2.state = .idle then 0 else x.2.share).sum
  if others + (s.sq q).share > 1024 ∨ 1024 * (s.sq q).share < s.residentBytes q + 8192 then some ⟨0x5005, 0⟩ else none

/-! ## All steps -/

/-- Step 1: ready to arm (R74), with the islands an arm needs running. (DEDUCED, log 49.) -/
def Chip.readyFail (s : Chip) : Option ArmFail :=
  if s.power.phase = .ready ∧ s.dramServes ∧ s.runs 6 ∧ s.runs 5 then none else some ⟨0x0004, 0⟩

/-- Steps 1 to 6 of R258 in order; the first failure. (DEDUCED, log 23.) -/
def Chip.armEarly (s : Chip) (q : Nat) : Option ArmFail :=
  match s.readyFail with
  | some f => some f
  | none => match s.laneFail q with
    | some f => some f
    | none => match (s.sq q).programFail with
      | some f => some f
      | none => match firstFail [s.segmentFail q, s.generatorFail q, s.sealedFail q, s.captureFail q] with
        | some f => some f
        | none => match s.shareFail q with
          | some f => some f
          | none => s.rateFail q (s.algVectors q)

/-- The checks of R258 in order; the first failure. (DEDUCED, log 23.) -/
def Chip.armFail (s : Chip) (q : Nat) : Option ArmFail :=
  match s.armEarly q with
  | some f => some f
  | none => match s.timingFail q with
    | some f => some f
    | none => s.admissionFail q

/-- What the arm digest covers (R259). -/
def Chip.armImage (s : Chip) (q : Nat) : Bytes :=
  let x := s.sq q
  le 2 x.progLen ++ ((List.range x.progLen).flatMap fun a => le 4 (x.word a).toNat) ++
    (x.segments.flatMap fun g => le 2 g ++ [0, 0, 0, 0] ++ (s.desc g).bytes.drop 4) ++
    ((s.lanesOf q).flatMap fun n =>
      let l := s.lane n
      le 1 n ++ [l.mode, l.slew, l.hysteresis, l.filter, l.pull, l.owner, l.site, l.dust]) ++
    ((List.range 4).flatMap fun m => le 2 (x.masks.getD m 0).toNat) ++ (List.range 16).flatMap fun k => s.setImage q k

end Sys2Proof.Machine
end

