-- ==== Sys2Proof/Machine/Acquisition.lean ====
section
/-! DEFINITION. Acquisition (chapter 13): capture records and staging, decimation, triggers and the primer,
the response timer, UID capture, and the offer of a UID on CH_08. Times are action times in 1/25,600 ns. -/

namespace Sys2Proof.Machine

/-! ## Records and staging (R347, R353 to R355) -/

/-- Records that staging holds: 256 KiB of 32 bytes; the decimating kinds leave 16 KiB free. -/
def stagingSlots (kind : Nat) : Nat := if kind ≤ 2 then 7680 else 8192

/-- Records in staging, those of the primers among them (R351, R353). -/
def Acq.held (a : Acq) : Nat := a.staging.length + (a.units.map fun u => u.2.primer.length).sum

/-- Staging fill in percent, 0x3800:18. -/
def Acq.fill (a : Acq) : Nat := a.held * 100 / 8192

/-- Staging has room for a record of a kind. -/
def Acq.room (a : Acq) (kind : Nat) : Bool := decide (a.held < stagingSlots kind)

/-- Bytes of a record without its sequence number (Table 13.2). -/
def recordShell (kind unit site flags time : Nat) (payload : Bytes) : Bytes :=
  le 1 kind ++ le 1 unit ++ le 1 site ++ le 1 flags ++ [0, 0, 0, 0] ++ le 8 (time / 25600) ++ le 1 (time / 100 % 256) ++ [0, 0, 0] ++ pad 12 payload

/-- A record with its sequence number and further flags. -/
def sealRecord (b : Bytes) (seq flags : Nat) : Bytes :=
  b.take 3 ++ [b.getD 3 0 ||| BitVec.ofNat 8 flags] ++ le 4 seq ++ b.drop 8

/-- Records a unit's ring holds or is to hold. -/
def Chip.ringUsed (s : Chip) (u : Nat) : Nat :=
  (s.unit u).wptr - (s.unit u).rptr + (s.acq.staging.filter fun r => r.unit == u).length

/-- A unit's ring is full (R348). -/
def Chip.ringFull (s : Chip) (u : Nat) : Bool := decide ((s.unit u).range.2 / 32 ≤ s.ringUsed u)

/-- Dead time begins, unless it is running. -/
def CapUnit.deadStart (t : Nat) (u : CapUnit) : CapUnit := if u.deadFrom.isSome then u else { u with deadFrom := some (t / 100) }

/-- Dead time ends where neither cause holds any more: the unit can take a trigger, and a record has been written since the
last one lost (R355). -/
def CapUnit.deadEnd (t : Nat) (u : CapUnit) : CapUnit :=
  match u.deadFrom with
  | some f => if u.deadBusy ∨ u.deadLoss then u else { u with dead := u.dead + (t / 100 - f), deadFrom := none, gap := true }
  | none => u

/-- A unit whose ring is full enters buffer full, and can take no trigger (R352, R355). (DESIGN CHOICE, log 47.) -/
def Chip.enterFull (u time : Nat) (s : Chip) : Chip :=
  let st := (s.unit u).state
  if s.ringFull u ∧ (st = .ready ∨ st = .capturing) then
    s.modUnit u fun c => { (if st = .ready then { c with deadBusy := true }.deadStart time else c) with state := .bufferFull }
  else s

/-- A record is lost (R354), with the overload event of "capture lost"; in a run, dead time runs until one is written (R355). -/
def Chip.loseRecord (u kind time : Nat) (full : Bool) (s : Chip) : Chip :=
  let run := (s.sq u).state.inRun
  ((if full then s.enterFull u time else s).modUnit u fun c =>
    let c := if run then { c with deadLoss := true }.deadStart time else c
    if kind = 3 ∨ kind = 4 then { c with failLost := satAdd 32 c.failLost 1 } else { c with lost := satAdd 32 c.lost 1 }).count 5

/-- Write a record to staging: lost where the ring or staging has no room; a primer record is there already (R351, R354). -/
def Chip.putRecord (u : Nat) (shell : Bytes) (flags time : Nat) (s : Chip) : Chip :=
  let kind := byteAt shell 0
  if s.ringFull u then s.loseRecord u kind time true
  else if flags % 2 = 0 ∧ s.acq.room kind = false then s.loseRecord u kind time false
  else
    let s := s.modUnit u fun c => { c with deadLoss := false }.deadEnd time
    let c := s.unit u
    let b := sealRecord shell c.recSeq (flags + if c.gap then 2 else 0)
    let place := s.regionBase 3 + c.range.1 + 32 * ((c.wptr + (s.acq.staging.filter fun r => r.unit == u).length) % max 1 (c.range.2 / 32))
    let s := s.dramEnqueue { cls := .capture, addr := place, write := true, owner := u, data := b }
    ((s.modUnit u fun c => { c with recSeq := (c.recSeq + 1) % 2 ^ 32, gap := false }).modAcq fun a =>
      { a with staging := a.staging ++ [{ unit := u, kind := kind, bytes := b, place := place }] }).enterFull u time

/-- A capture ends, and dead time begins: ready again after at most 100 ns if triggers remain and the ring has room, else
complete, with dead time to the end of the run (R351, R355, Table 13.1). (DESIGN CHOICE, log 47.) -/
def Chip.captureDone (u time : Nat) (s : Chip) : Chip :=
  let s := s.modUnit u fun c => { c with primer := [], postLeft := 0, deadBusy := true }.deadStart time
  let c := s.unit u
  if c.triggers ≥ c.trigCount then s.modUnit u fun c => { c with state := .complete }
  else if s.ringFull u then s.modUnit u fun c => { c with state := .bufferFull }
  else
    let d := s.drawBytes 2
    d.2.modUnit u fun c => { c with state := .ready, deadBusy := false }.deadEnd (time + 100 * (leNat d.1 % 25601))

/-- A record joins the primer: the newest are kept; one that finds no room in staging is lost (R351, R354). -/
def Chip.primerRecord (u : Nat) (shell : Bytes) (time : Nat) (s : Chip) : Chip :=
  let c := s.unit u
  if c.primer.length < c.primerCount ∧ s.acq.room (byteAt shell 0) = false then s.loseRecord u (byteAt shell 0) time false
  else s.modUnit u fun c =>
    let l := c.primer ++ [shell]
    { c with primer := l.drop (l.length - c.primerCount) }

/-- A record of kinds 1 to 4: held by the primer while ready, written while capturing, and lost in a capture whose ring is full
(R348, R349, R351). -/
def Chip.captureRecord (u : Nat) (shell : Bytes) (time : Nat) (s : Chip) : Chip :=
  let c := s.unit u
  if c.state = .ready then s.primerRecord u shell time
  else if c.postLeft ≠ 0 ∧ (c.state = .capturing ∨ c.state = .bufferFull) then
    let s := (s.putRecord u shell 0 time).modUnit u fun c => { c with postLeft := c.postLeft - 1 }
    if (s.unit u).postLeft = 0 then s.captureDone u time else s
  else s

/-- The effective exponent of a unit's streams (R353). -/
def Chip.effective (s : Chip) (u : Nat) : Nat := min 12 ((s.unit u).baseDec + s.acq.decimation)

/-- One more element of a decimated stream: whether it is kept (R353). -/
def Chip.streamStep (u key : Nat) (s : Chip) : Bool × Chip :=
  let i := (s.unit u).streams.get 0 key
  (i % 2 ^ s.effective u == 0, s.modUnit u fun c => { c with streams := c.streams.set 0 key (i + 1) })

/-- Remove the first so many records of a unit. -/
def dropUnit (u : Nat) : Nat → List StagedRec → List StagedRec
  | _, [] => []
  | n, r :: l => if n = 0 then r :: l else if r.unit = u then dropUnit u (n - 1) l else r :: dropUnit u n l

/-- A capture record has reached its buffer: staging releases the records of its unit in sequence order, and the write pointer
advances by those released (R348, R349). (DEDUCED, log 59.) -/
def Chip.captureLanded (r : DramReq) (s : Chip) : Chip :=
  let u := r.owner
  let l := s.acq.staging.map fun x => if x.unit = u ∧ x.place = r.addr then { x with landed := true } else x
  let n := ((l.filter (·.unit == u)).takeWhile (·.landed)).length
  (s.modUnit u fun c => { c with wptr := (c.wptr + n) % 2 ^ 64 }).modAcq fun a => { a with staging := dropUnit u n l }

/-- A record whose burst cannot be completed is lost, and its place in the ring is passed over (Table 14.3). (DEDUCED, log 59.) -/
def Chip.captureSpoiled (r : DramReq) (s : Chip) : Chip :=
  let kind := ((s.acq.staging.find? fun x => x.unit == r.owner && x.place == r.addr).map (·.kind)).getD 0
  (s.captureLanded r).loseRecord r.owner kind s.nowFine false

/-! ## Decimation (R353) -/

/-- `DECIMATION_RAISE`: fill above 75 %. -/
def decimationRaise (s : Chip) : Chip :=
  if s.acq.held * 4 > 8192 * 3 ∧ s.acq.decimation < 8 then
    (if s.acq.decimation = 0 then s.count 4 else s).modAcq fun a => { a with decimation := a.decimation + 1, decChanges := satAdd 32 a.decChanges 1 }
  else s

/-- `DECIMATION_RAISE` (R353). -/
def execDecimationRaise (s : State) : Host.Outcome State Fault Refusal := next s (decimationRaise s.chip)

/-- `DECIMATION_LOWER`: fill below 25 %. -/
def decimationLower (s : Chip) : Chip :=
  if s.acq.held * 4 < 8192 ∧ 0 < s.acq.decimation then
    s.modAcq fun a => { a with decimation := a.decimation - 1, decChanges := satAdd 32 a.decChanges 1 }
  else s

/-- `DECIMATION_LOWER` (R353). -/
def execDecimationLower (s : State) : Host.Outcome State Fault Refusal := next s (decimationLower s.chip)

/-! ## Triggers (R350, R351) -/

/-- A time lies in a unit's acquisition window, its closing edge included. -/
def Chip.inWindow (s : Chip) (u time : Nat) : Bool :=
  let w := (s.unit u).window
  let open_ := s.fine u 0 + 25600 * fieldAt w 0 4
  let len := fieldAt w 4 4
  decide (open_ ≤ time) && (len == 0 || decide (time ≤ open_ + 25600 * len))

/-- The vector on the lanes of a sequencer at a time is a hold vector: the last one, or, from its end on, what the sequencer
emits without a further event (R254). (DEDUCED, log 133.) -/
def Chip.inHold (s : Chip) (q time : Nat) : Bool :=
  let x := s.sq q
  if time < s.fine q x.tb then x.lastHold
  else x.state == .waiting || x.dropDue || match x.op x.pc with
    | some (.wait _) => true
    | some (.play _ g) => (s.desc g.toNat).sample
    | some (.alg p) => match s.algAt q (x.gen.program p.toNat) 0 x.done with
      | some a => a.code == 0
      | none => false
    | _ => false

/-- A trigger of a unit's source: taken, with its record and the primer, or missed; a record before it may have been lost, and
its own ends that dead time (R350, R351, R355). (DEDUCED, log 133.) -/
def Chip.trigger (u time : Nat) (hold : Bool) (s : Chip) : Chip :=
  let c := s.unit u
  if c.state = .idle then s
  else if hold ∨ c.state ≠ .ready ∨ c.triggers ≥ c.trigCount ∨ s.inWindow u time = false then s.modUnit u fun c => { c with missed := c.missed + 1 }
  else
    let s := if s.acq.room 6 then s.modUnit u fun c => { c with deadLoss := false }.deadEnd time else s
    let c := s.unit u
    let payload := le 1 c.trigSource.toNat ++ le 1 (c.triggers + 1) ++ le 2 c.primer.length ++
      le 4 (min 0xFFFFFFFF ((c.dead - c.deadMark) / 256)) ++ le 4 c.missed
    let held := c.primer
    let s := s.modUnit u fun c =>
      { c with state := .capturing, triggers := c.triggers + 1, missed := 0, deadMark := c.dead, primer := [], postLeft := c.post }
    held.foldl (fun s b => s.putRecord u b 1 time) (s.putRecord u (recordShell 6 u 0xFF 0 time payload) 0 time)

/-- `AQ_TRIGGER_IN`: the consumer "AQ_u trigger in" asserts (Table 13.4). -/
def aqTriggerIn (u : Nat) (s : Chip) : Chip :=
  if s.runs 7 ∧ s.routed (0x40 + u) ∧ (s.unit u).trigSource = 5 ∧ (s.sq u).state.inRun then s.trigger u s.nowFine (s.inHold u s.nowFine) else s

/-- `AQ_TRIGGER_IN` (R350). -/
def execAqTriggerIn (u : Fin 16) (s : State) : Host.Outcome State Fault Refusal := next s (aqTriggerIn u.val s.chip)

/-- The read pointer advances, and a unit held by a full ring goes on (R348, R352). -/
def writeReadPointer (v : Nat) (r : Req) (s : Chip) : Chip × Reply :=
  let u := s.sel r.dest.session 0x3800 1
  let c := s.unit u
  if v > c.wptr ∨ v < c.rptr then (s, bad 0x7006)
  else
    let s := s.modUnit u fun c => { c with rptr := v }
    (s.modUnit u fun c => if c.state ≠ .bufferFull ∨ s.ringFull u then c
      else if c.postLeft ≠ 0 then { c with state := .capturing }
      else if c.triggers ≥ c.trigCount then { c with state := .complete }
      else { c with state := .ready, deadBusy := false }.deadEnd s.nowFine, ok)

/-- `READ_POINTER_WRITE` (R348). -/
def execReadPointerWrite (p : Path) (tag : Word16) (value : BitVec 64) (s : State) : Host.Outcome State Fault Refusal :=
  next s (hostCommand p tag 0x3800 0x0D (le 8 value.toNat) (writeReadPointer value.toNat) s.chip)

/-! ## The response timer (R344, R345) -/

/-- Byte fields of 0x3800:13. -/
def CapUnit.marker (u : CapUnit) : Nat := byteAt u.respCfg 0
/-- The site lane index of the timer. -/
def CapUnit.respLane (u : CapUnit) : Nat := byteAt u.respCfg 1
/-- Reject-slow. -/
def CapUnit.rejectSlow (u : CapUnit) : Bool := byteAt u.respCfg 3 == 1
/-- The limit in 1/25,600 ns. -/
def CapUnit.limit (u : CapUnit) : Nat := 25600 * fieldAt u.respCfg 4 4

/-- The code of a verdict. -/
def Verdict.code : Verdict → Nat
  | .none => 0 | .inTime => 1 | .slow => 2 | .noResponse => 3 | .pending => 4

/-- The sequencer whose masks hold a site: of several, the one that is not idle, since the arm of a second is refused (R232). -/
def Chip.seqOfSite (s : Chip) (k : Nat) : Option Nat :=
  let l := (List.range 16).filter fun q => (s.sq q).sites.contains k
  (l.find? fun q => (s.sq q).state != .idle).or l.head?

/-- Write the response record of a site's measurement that has ended. -/
def Chip.responseRecord (u k : Nat) (s : Chip) : Chip :=
  let c := s.unit u
  let a := s.siteAq k
  if c.sources.getLsbD 4 then
    s.putRecord u (recordShell 5 u k 0 a.startAt (le 4 a.respTime ++ le 1 a.verdict.code ++ le 1 c.marker ++ le 1 c.respLane)) 0 a.startAt
  else s

/-- A marker starts the timer of a site, unless it is pending. -/
def Chip.startTimer (u t k : Nat) (s : Chip) : Chip :=
  if (s.siteAq k).verdict = .pending then s
  else
    let s := if (s.siteAq k).timing then s.responseRecord u k else s
    s.modSiteAq k fun a => { a with verdict := .pending, startAt := t, timing := true, respTime := 0xFFFFFFFF }

/-- A timer ends without a response: at the end of the run, or where its site parks or drops; a missing response sets the site's
flag with reject-slow (R338). -/
def Chip.stopTimer (u k : Nat) (s : Chip) : Chip :=
  if (s.siteAq k).timing then
    (s.modSiteAq k fun a =>
      { a with verdict := .noResponse, respTime := 0xFFFFFFFF, timing := false, flag := a.flag || (s.unit u).rejectSlow }).responseRecord u k
  else s

/-- The sites of a mask that has just parked or dropped stop their timers. -/
def Chip.stopMaskTimers (q m : Nat) (s : Chip) : Chip :=
  ((s.sq q).sites.filter fun k => (s.sq q).inMask m k).foldl (fun s k => s.stopTimer q k) s

/-- `RESPONSE_EDGE`: an edge so long after the timer's start, to a level that lasts `width` ps. It counts if the lane's glitch
filter passes it, on the timer's lane, in its polarity, outside a sealed play of the site (R49, R344, R345). (DEDUCED, log 44.) (DESIGN CHOICE, log 114.) -/
def responseEdge (n : Nat) (rising : Bool) (tenPs width : Nat) (s : Chip) : Chip :=
  if s.runs 7 = false ∨ s.passes n width = false then s
  else
    let q := (s.lane n).owner.toNat
    let k := (s.lane n).site.toNat
    let c := s.unit q
    let pol := byteAt c.respCfg 2
    if q ≥ 16 ∨ k ≥ 16 ∨ c.marker = 0xFF ∨ (s.siteAq k).timing = false ∨ (s.lane n).sealedIn ∨ (s.siteLanes q k)[c.respLane]? ≠ some n ∨
        (pol = 0 ∧ rising) ∨ (pol = 1 ∧ rising = false) ∨ ((s.sq q).state ≠ .running ∧ (s.sq q).state ≠ .waiting) then s
    else
      let inTime : Bool := (s.siteAq k).verdict == .pending && decide (256 * tenPs ≤ c.limit)
      let late : Bool := (s.siteAq k).verdict == .pending && !inTime
      let s := s.modSiteAq k fun a =>
        { a with respTime := (tenPs + 50) / 100, timing := false, verdict := if inTime then .inTime else .slow
                 flag := a.flag || (late && c.rejectSlow), responded := true, slowSeen := a.slowSeen || late }
      s.responseRecord q k

/-- `RESPONSE_EDGE` (R344). -/
def execResponseEdge (lane : Fin 64) (rising : Bool) (edge : TimedEdge) (s : State) : Host.Outcome State Fault Refusal :=
  next s (responseEdge lane.val rising edge.tenPs edge.widthPs s.chip)

/-- The limit of a site's pending measurement has passed, its last edge included: a response on that edge is in time (R24, R344). -/
def Chip.limitPassed (s : Chip) (k : Nat) : Bool :=
  match s.seqOfSite k with
  | some q => decide ((s.siteAq k).startAt + (s.unit q).limit < s.nowFine)
  | none => true

/-- `RESPONSE_LIMIT_EXPIRY`: the limit passes with no response (R344). -/
def responseLimit (k : Nat) (s : Chip) : Chip :=
  if (s.siteAq k).verdict = .pending ∧ s.limitPassed k then
    let reject := match s.seqOfSite k with | some q => (s.unit q).rejectSlow | none => false
    s.modSiteAq k fun a => { a with verdict := .slow, flag := a.flag || reject, slowSeen := true }
  else s

/-- `RESPONSE_LIMIT_EXPIRY` (R344). -/
def execResponseLimitExpiry (site : Fin 16) (s : State) : Host.Outcome State Fault Refusal := next s (responseLimit site.val s.chip)

/-! ## UID capture (R342, R343) and CH_08 (R321) -/

/-- Bits assembled into bytes, most or least significant first. -/
def bitsToBytes (lsb : Bool) : Nat → List Bool → Bytes
  | 0, _ => []
  | n + 1, bits =>
    let b := bits.take 8
    let b := if lsb then b else b.reverse
    BitVec.ofNat 8 (b.foldr (fun x v => 2 * v + if x then 1 else 0) 0) :: bitsToBytes lsb n (bits.drop 8)

/-- Offer a UID on CH_08: refused while the site's entry is held. -/
def Chip.offerUid (k : Nat) (uid : Bytes) (s : Chip) : Chip :=
  s.modSeal k fun x => if x.uid.isSome then { x with uidRefused := true } else { x with uid := some uid }

/-- Bits captured on the UID lane of a site in one vector of the named segment. -/
def Chip.uidBits (u k time : Nat) (bits : List Bool) (s : Chip) : Chip :=
  let c := s.unit u
  let skip := fieldAt c.uidCfg 3 2
  let len := byteAt c.uidCfg 5
  if (s.siteAq k).uidDone ∨ bits = [] then s
  else
    let all := (s.siteAq k).uidBits ++ bits
    if all.length < skip + 8 * len then s.modSiteAq k fun a => { a with uidBits := all }
    else
      let uid := bitsToBytes (byteAt c.uidCfg 6 == 1) len (all.drop skip)
      let s := (s.modSiteAq k fun a => { a with uidBits := [], uidDone := true }).offerUid k uid
      if c.sources.getLsbD 5 then s.putRecord u (recordShell 7 u k 0 time (le 1 len ++ pad 10 uid)) 0 time else s

/-- A play of the UID segment begins afresh. -/
def Chip.uidFresh (q : Nat) (s : Chip) : Chip :=
  (s.sq q).sites.foldl (fun s k => s.modSiteAq k fun a => { a with uidBits := [], uidDone := false }) s

/-! ## Launch, end of a run and reset -/

/-- Counters, flags and units at a launch (R337, R338, R347, R352). -/
def Chip.launchAcq (q : Nat) (s : Chip) : Chip :=
  let s := (s.lanesOf q).foldl (fun s n => s.modLane n fun l => { l with fails := 0, firstFail := 0xFFFFFFFF, compares := 0 }) s
  let s := (s.sq q).sites.foldl (fun s k => s.modSiteAq k fun _ => {}) s
  let s := s.modUnit q fun c =>
    { c with
      state := .ready
      lost := 0, failLost := 0, dead := 0, deadMark := 0, deadFrom := none, deadBusy := false, deadLoss := false, gap := false, triggers := 0, missed := 0
      recSeq := 0, primer := [], postLeft := 0, streams := [], samples := [], sampleAt := [], sampleExp := [], failAt := none }
  s.enterFull q (s.fine q 0)

/-- Samples of a port that wait for a record of five become a record (R346). -/
def Chip.flushSamples (u k : Nat) (s : Chip) : Chip :=
  let c := s.unit u
  let l := c.samples.get [] k
  if l = [] then s
  else
    let t := c.sampleAt.get 0 k
    (s.modUnit u fun c => { c with samples := c.samples.set [] k [] }).captureRecord u
      (recordShell 2 u 0xFF (4 * c.sampleExp.get 0 k) t (le 1 k ++ le 1 l.length ++ pad 10 (l.flatMap fun v => le 2 (unsigned 16 v)))) t

/-- The end of a run: the capture ends with the records produced so far, timers stop (R344, R351). (DEDUCED, log 44.) -/
def Chip.endAcq (q : Nat) (s : Chip) : Chip :=
  let s := (List.range 16).foldl (fun s k => s.flushSamples q k) s
  let s := (s.sq q).sites.foldl (fun s k => s.stopTimer q k) s
  let t := s.fine q (s.sq q).tb
  s.modUnit q fun c =>
    let c := { c with deadBusy := false, deadLoss := false }.deadEnd t
    { c with state := if c.state = .idle then .idle else if c.state = .bufferFull then .bufferFull else .complete, primer := [], postLeft := 0 }

/-- A reset of the AQ: staging and CH_08 empty, units idle, timers stopped, compares discarded until the
next arm (R357). -/
def Chip.resetAcq (s : Chip) : Chip :=
  let s := (List.range 16).foldl (fun s k => (s.modSiteAq k fun a => { a with flag := false, verdict := .none, timing := false, responded := false, slowSeen := false, uidBits := [], uidDone := false }).modSeal k fun x => { x with uid := none, uidRefused := false }) s
  let s := (List.range 16).foldl (fun s u => s.modUnit u fun c => { c with state := .idle, primer := [], postLeft := 0, samples := [], deadFrom := none, deadBusy := false, deadLoss := false, failAt := none }) s
  (s.dramCancel (·.cls == .capture)).modAcq fun a => { a with staging := [], awaitArm := BitVec.allOnes 16 }

end Sys2Proof.Machine
end

