-- ==== Sys2Proof/Machine/Sine.lean ====
section
/-! DEFINITION. The sine table of the NCOs and of the level outputs (R302): its first quarter, and the
whole by symmetry. -/

namespace Sys2Proof.Machine

/-- Entries 0 on of R302's table. -/
def sineRow0 : List Nat := [0, 3, 6, 9, 13, 16, 19, 22, 25, 28, 31, 34, 38, 41, 44, 47, 50, 53, 56, 59, 63, 66, 69, 72, 75, 78, 81, 84, 87, 90, 94, 97]

/-- Entries 32 on of R302's table. -/
def sineRow1 : List Nat := [100, 103, 106, 109, 112, 115, 118, 121, 124, 127, 130, 133, 136, 139, 142, 145, 148, 151, 154, 157, 160, 163, 166, 169, 172, 175, 178, 181, 184, 187, 190, 193]

/-- Entries 64 on of R302's table. -/
def sineRow2 : List Nat := [196, 198, 201, 204, 207, 210, 213, 216, 218, 221, 224, 227, 230, 233, 235, 238, 241, 244, 246, 249, 252, 255, 257, 260, 263, 265, 268, 271, 273, 276, 279, 281]

/-- Entries 96 on of R302's table. -/
def sineRow3 : List Nat := [284, 286, 289, 292, 294, 297, 299, 302, 304, 307, 309, 312, 314, 317, 319, 322, 324, 327, 329, 331, 334, 336, 338, 341, 343, 345, 348, 350, 352, 355, 357, 359]

/-- Entries 128 on of R302's table. -/
def sineRow4 : List Nat := [361, 364, 366, 368, 370, 372, 374, 377, 379, 381, 383, 385, 387, 389, 391, 393, 395, 397, 399, 401, 403, 405, 407, 409, 410, 412, 414, 416, 418, 420, 421, 423]

/-- Entries 160 on of R302's table. -/
def sineRow5 : List Nat := [425, 427, 428, 430, 432, 433, 435, 437, 438, 440, 441, 443, 445, 446, 448, 449, 451, 452, 454, 455, 456, 458, 459, 461, 462, 463, 465, 466, 467, 468, 470, 471]

/-- Entries 192 on of R302's table. -/
def sineRow6 : List Nat := [472, 473, 474, 476, 477, 478, 479, 480, 481, 482, 483, 484, 485, 486, 487, 488, 489, 490, 491, 492, 492, 493, 494, 495, 496, 496, 497, 498, 499, 499, 500, 501]

/-- Entries 224 on of R302's table. -/
def sineRow7 : List Nat := [501, 502, 502, 503, 503, 504, 505, 505, 505, 506, 506, 507, 507, 508, 508, 508, 509, 509, 509, 509, 510, 510, 510, 510, 510, 511, 511, 511, 511, 511, 511, 511]

/-- Entries 256 on of R302's table. -/
def sineRow8 : List Nat := [511]

/-- T[0] to T[256] (R302). -/
def sineQuarter : List Nat :=
  sineRow0 ++ sineRow1 ++ sineRow2 ++ sineRow3 ++ sineRow4 ++ sineRow5 ++ sineRow6 ++ sineRow7 ++ sineRow8

/-- T[i] := round(511 sin(2πi / 1024)) (R302). -/
def sine (i : Nat) : Int :=
  let i := i % 1024
  if i ≤ 256 then sineQuarter.getD i 0
  else if i ≤ 512 then sineQuarter.getD (512 - i) 0
  else if i ≤ 768 then -(sineQuarter.getD (i - 512) 0 : Int)
  else -(sineQuarter.getD (1024 - i) 0 : Int)

/-- `floor((T[acc >> 22] × a + 256) / 512)` of R302 and R397. -/
def sineScaled (acc a : Nat) : Int := (sine (acc / 4194304) * a + 256) / 512

end Sys2Proof.Machine
end

