-- ==== Sys2Proof/Machine/Ports.lean ====
section
/-! DEFINITION. Sample ports and their NCOs (R291 to R304). -/

namespace Sys2Proof.Machine

/-- Port `k`. -/
def Chip.port (s : Chip) (k : Nat) : Port := SMap.get s.segs.ports {} k
/-- Change port `k`. -/
def Chip.modPort (k : Nat) (f : Port → Port) (s : Chip) : Chip := s.modSegs fun x => { x with ports := x.ports.upd {} k f }

/-- The sequencer of a port is not idle (R292). -/
def Chip.portLocked (s : Chip) (k : Nat) : Bool :=
  decide ((s.port k).seq.toNat < 16) && (s.sq (s.port k).seq.toNat).state != .idle

/-- 100 ns in 1/25,600 ns. -/
def ns100 : Nat := 2560000

/-! ## Enable and disable (R291, R292) -/

/-- A port's lanes take or leave their roles. -/
def Chip.portLanes (k : Nat) (mode : Byte) (s : Chip) : Chip :=
  (List.range 4).foldl (fun s i => s.modLane (4 * k + i) fun l => { l with mode := mode, driverOn := mode == 3 && i != 3, driven := false, edges := [] }) s

/-- Enable or disable the session's port. -/
def setPort (on : Bool) (r : Req) (s : Chip) : Chip × Reply :=
  let k := s.sel r.dest.session 0x3600 1
  if s.portLocked k then (s, bad 3)
  else if on ∧ (List.range 4).any (fun i => (s.lane (4 * k + i)).mode != 0 || (s.lane (4 * k + i)).owner != 0xFF) then (s, bad 5)
  else if on then ((s.portLanes k 3).modPort k fun p => { p with enable := 1 }, ok)
  else ((if (s.port k).enable = 1 then s.portLanes k 0 else s).modPort k fun p => { p with enable := 0, sending := false }, ok)

/-- `SAMPLE_PORT_ENABLE` (R291). -/
def execSamplePortEnable (p : Path) (tag : Word16) (s : State) : Host.Outcome State Fault Refusal :=
  next s (hostCommand p tag 0x3600 2 [1] (setPort true) s.chip)

/-- `SAMPLE_PORT_DISABLE` (R54, R291). -/
def execSamplePortDisable (p : Path) (tag : Word16) (s : State) : Host.Outcome State Fault Refusal :=
  next s (hostCommand p tag 0x3600 2 [0] (setPort false) s.chip)

/-! ## NCO applies (R304) -/

/-- Latch the staged word and schedule its apply; a new apply replaces a pending one. -/
def ncoApply (marker : Option Nat) (r : Req) (s : Chip) : Chip × Reply :=
  let k := s.sel r.dest.session 0x3600 1
  (s.modPort k fun p => { p with apply := some { word := p.staged, marker := marker, due := s.nowFine + ns100 } }, ok)

/-- `NCO_APPLY_NOW` (R304). -/
def execNcoApplyNow (p : Path) (tag : Word16) (s : State) : Host.Outcome State Fault Refusal :=
  next s (hostCommand p tag 0x3600 0x11 [1] (ncoApply none) s.chip)

/-- `NCO_APPLY_AT_MARKER` (R304). -/
def execNcoApplyAtMarker (p : Path) (tag : Word16) (marker : Fin 4) (s : State) : Host.Outcome State Fault Refusal :=
  next s (hostCommand p tag 0x3600 0x11 (le 1 (marker.val + 2)) (ncoApply (some marker.val)) s.chip)

/-- Schedule a phase reset. -/
def ncoReset (r : Req) (s : Chip) : Chip × Reply :=
  let k := s.sel r.dest.session 0x3600 1
  (s.modPort k fun p => { p with resets := p.resets ++ [s.nowFine + ns100] }, ok)

/-- `NCO_PHASE_RESET` (R304). -/
def execNcoPhaseReset (p : Path) (tag : Word16) (s : State) : Host.Outcome State Fault Refusal :=
  next s (hostCommand p tag 0x3600 0x13 [1] ncoReset s.chip)

/-- A marker of a sequencer asserts, 10.0 to 12.5 ns after its boundary (Table 9.4): the applies that wait
for it fall due. -/
def Chip.markerApplies (q m t : Nat) (s : Chip) : Chip :=
  (s.portsOf q).foldl (fun s k =>
    match (s.port k).apply with
    | some a =>
      if a.marker = some m then
        let d := s.drawBytes 1
        d.2.modPort k fun p => { p with apply := some { a with marker := none, due := t + 256000 + 256 * (leNat d.1 % 251) } }
      else s
    | none => s) s

/-! ## Frames (R296 to R303) -/

/-- The sample frame that a time falls into: the play's descriptor, the frame within it, whether another frame of the
play follows, and the time into it (R299). -/
def Seq.sampleFrame (x : Seq) (tau : Int) : Option (Desc × Nat × Bool × Nat) :=
  let p0 := x.periodUnits 0
  x.samplePlays.findSome? fun e =>
    let d := tau - e.start
    if d < 0 ∨ p0 = 0 then none
    else
      let i := d.toNat / p0
      let n := max 1 e.desc.count
      if i < e.frames then some (e.desc, i % n, decide (i % n + 1 < n) && decide (i + 1 < e.frames), d.toNat % p0) else none

/-- A sequencer leaves a play: its frames from the next boundary on are never sample frames (R252, R299). -/
def Seq.cutPlays (x : Seq) : Seq :=
  let p0 := max 1 (x.periodUnits 0)
  { x with samplePlays := x.samplePlays.map fun e => { e with frames := min e.frames ((x.tb - e.start + p0 - 1) / p0) } }

/-- The value sent in frame `j` with the segment as source (R299). -/
def Chip.resample (s : Chip) (q k j : Nat) : Int :=
  let p := s.port k
  let x := s.sq q
  let c := p.channel.toNat
  match x.sampleFrame ((j * tOut x.source p : Nat) - (x.periodUnits 0 : Int)) with
  | none => p.idle
  | some (g, n, more, d) =>
    if g.width.toNat ≤ c then p.idle
    else
      let x0 := s.sampleAt g n c
      if more ∧ p.interp = 1 then
        let f := 1024 * d / x.periodUnits 0
        x0 + ((s.sampleAt g (n + 1) c - x0) * f + 512) / 1024
      else x0

/-- The NCO settings that fall due at a frame's beginning (R303, R304). -/
def Port.settle (t : Nat) (p : Port) : Port :=
  let latest {α : Type} (l : List (Nat × α)) (old : α) : α := (((l.filter fun e => decide (e.1 ≤ t)).getLast?).map (·.2)).getD old
  let p := { p with
    amplitudeIn := latest p.amplitudeDue p.amplitudeIn, amplitudeDue := p.amplitudeDue.filter fun e => decide (t < e.1)
    offsetIn := latest p.offsetDue p.offsetIn, offsetDue := p.offsetDue.filter fun e => decide (t < e.1) }
  let p := match p.apply with
    | some a => if a.marker = none ∧ a.due ≤ t then { p with word := a.word, apply := none } else p
    | none => p
  if p.resets.any fun d => decide (d ≤ t) then { p with acc := p.phase.toNat, resets := p.resets.filter fun d => decide (t < d) } else p

/-- The NCO's value of a frame (R302). -/
def Port.tone (p : Port) : Int := max (-512) (min 511 (sineScaled p.acc p.amplitudeIn + p.offsetIn))

/-- The ten bits of a code on the wire: offset binary inverts bit 9 (R297). -/
def Port.wire (p : Port) (y : Int) : Nat := if p.format = 0 then unsigned 10 y ^^^ 512 else unsigned 10 y

/-- The edges of a list of levels, one for each slot from `t` on in steps of `h`, in 32nds of 1/25,600 ns: where the level changes (Table 11.1). -/
def slotEdges (t h : Nat) (before : Bool) : List Bool → List PinEdge
  | [] => []
  | b :: l => (if b = before then [] else [{ ideal := t / 32, on := true, level := b }]) ++ slotEdges (t + h) h b l

/-- Frame `j` on the lanes of a port (Table 11.1): the clock changes at the slots' centres, sync is high in slots 0 and 1, and
the data lane carries bits 9 to 0 in slots 0 to 9. -/
def Chip.sendLanes (k j : Nat) (s : Chip) : Chip :=
  let p := s.port k
  let q := p.seq.toNat
  let src := (s.sq q).source
  let t := 32 * s.fine q 0 + 2 * s.unitsFine src (16 * j * tOut src p)
  let h := 2 * s.unitsFine src (tOut src p)
  let slots (f : Nat → Bool) : List Bool := (List.range 16).map f
  let lane (i t : Nat) (f : Nat → Bool) (s : Chip) : Chip := s.modLane (4 * k + i) fun l => l.take (slotEdges t h l.driven (slots f))
  lane 2 t (fun b => decide (b < 10) && (p.wire p.out).testBit (9 - b)) (lane 1 t (fun b => decide (b < 2)) (lane 0 (t + h / 2) (fun b => b % 2 == 0) s))

/-- An in-sample is handed to the AQ, stamped with its frame's beginning; a record holds samples of one exponent
(R297, R346, R347, R350). (DEDUCED, log 49.) -/
def Chip.inSample (q k t : Nat) (v : Int) (s : Chip) : Chip :=
  let c := s.unit q
  let prev := (s.port k).last
  let s := s.modPort k fun p => { p with last := v }
  if s.runs 7 = false then s
  else
    let thr := signed 16 (fieldAt c.level 0 2)
    let crosses : Bool := if byteAt c.level 2 = 0 then decide (prev < thr) && decide (thr ≤ v) else decide (thr ≤ prev) && decide (v < thr)
    let s := if c.trigSource = 8 ∧ byteAt c.level 3 = k ∧ crosses then s.trigger q t (s.inHold q t) else s
    let s := if c.samples.get [] k ≠ [] ∧ c.sampleExp.get 0 k ≠ s.effective q then s.flushSamples q k else s
    if c.sources.getLsbD 1 then
      let d := s.streamStep q (16 + k)
      if d.1 then
        let s := d.2.modUnit q fun c =>
          { c with
            samples := c.samples.upd [] k (· ++ [v]), sampleExp := c.sampleExp.set 0 k (min 12 (c.baseDec + s.acq.decimation))
            sampleAt := if c.samples.get [] k = [] then c.sampleAt.set 0 k t else c.sampleAt }
        if ((s.unit q).samples.get [] k).length ≥ 5 then s.flushSamples q k else s
      else d.2
    else s

/-- `PORT_FRAME`: the next frame of a port goes out on its lanes, with the ten bits sampled on its input lane. -/
def portFrame (k inBits : Nat) (s : Chip) : Chip :=
  let p := s.port k
  let q := p.seq.toNat
  if p.sending = false ∨ q ≥ 16 then s
  else
    let x := s.sq q
    let j := p.sent
    let t := s.fine q (j * tOut x.source p)
    let s := s.modPort k (Port.settle t)
    let p := s.port k
    let y := if p.source = 1 then p.tone else s.resample q k j
    let s := (s.modPort k fun p => { p with out := y, acc := (p.acc + p.word.toNat) % 2 ^ 32, sent := (p.sent + 1) % 2 ^ 64 }).sendLanes k j
    s.inSample q k t (signed 10 (if p.format = 0 then (inBits % 1024) ^^^ 512 else inBits % 1024))

/-- `PORT_FRAME` (R296). -/
def execPortFrame (port : Fin 16) (inBits : BitVec 10) (s : State) : Host.Outcome State Fault Refusal :=
  next s (portFrame port.val inBits.toNat s.chip)

/-! ## Arm, launch and end of a run -/

/-- At arm: the staged word comes into force; rate and ratio are noted (R303, R314). -/
def Chip.armPorts (q : Nat) (s : Chip) : Chip :=
  (s.portsOf q).foldl (fun s k => s.modPort k fun p =>
    let x := s.sq q
    { p with word := p.staged
             rate := (s.frameRate q k + 1 / 2).floor.toNat
             ratio := if tOut x.source p = 0 then 0 else x.periodUnits 0 * 65536 / tOut x.source p }) s

/-- At launch (R303). -/
def Chip.launchPorts (q : Nat) (s : Chip) : Chip :=
  (s.portsOf q).foldl (fun s k => s.modPort k fun p =>
    { p with acc := p.phase.toNat, apply := none, resets := [], sent := 0, sending := true, amplitudeIn := p.amplitude, offsetIn := p.offset, amplitudeDue := [], offsetDue := [] }) s

/-- At the end of a run no further frame begins (R293). -/
def Chip.endPorts (q : Nat) (s : Chip) : Chip := (s.portsOf q).foldl (fun s k => s.modPort k fun p => { p with sending := false }) s

end Sys2Proof.Machine
end

