-- ==== Sys2Proof/Machine/Sealed.lean ====
section
/-! DEFINITION. Sealed fields (chapter 12): requests, the injector's jobs, the latency window, failures, the
sealed buffer, and issuance proofs. What ends a run stands with the sequencer. -/

namespace Sys2Proof.Machine

/-- "JKSF" (R317). -/
def tagJKSF : Bytes := [0x4A, 0x4B, 0x53, 0x46]
/-- "JKSM" (R317). -/
def tagJKSM : Bytes := [0x4A, 0x4B, 0x53, 0x4D]
/-- "JKIP" (Table 12.6). -/
def tagJKIP : Bytes := [0x4A, 0x4B, 0x49, 0x50]

/-- The sites of the masks that play. -/
def Seq.livingSites (x : Seq) : List Nat := x.sites.filter fun k => x.plays (x.maskOf k)

/-- The close of the latency window, in 1/25,600 ns. -/
def SealedCfg.closeAt (c : SealedCfg) : Nat := c.startAt + 25600000 * c.window

/-- An injector's entry whose words will not be sent, or have been acknowledged, is free once its job has ended (R213). -/
def Chip.freeInjector (q k : Nat) (s : Chip) : Chip :=
  match (s.seal k).job with
  | some uid => if ((s.queue q).entries.any fun e => e.uid == uid && e.phase == .done) then s.dropJob q uid else s
  | none => s

/-- An SFW begins: one request per site of each playing mask, the window open from the first hold vector's
boundary (R322). -/
def Chip.startFields (q recipe : Nat) (s : Chip) : Chip :=
  let t := s.fine q (s.sq q).tb
  let s := s.modSq q fun x =>
    { x with state := .waiting, resumeAt := 0
             sealedCfg := { x.sealedCfg with field := .waiting, recipe := recipe, windowOpen := true, startAt := t } }
  (s.sq q).livingSites.foldl (fun s k => (s.freeInjector q k).modSeal k fun x =>
    { x with waiting := true, job := none, cause := 0, derived := false, value := [], sent := false, ackEpoch := none, buffer := [], pos := 0 }) s

/-- A field fails: its mask is dropped at the failure point, 60.0 ns after the report or the window's
close (R327). Words that are on their way hold their entry until they are acknowledged (R213). -/
def Chip.failField (q k cause at_ : Nat) (s : Chip) : Chip :=
  ((if (s.seal k).sent then s else s.freeInjector q k).modSeal k fun x =>
    { x with waiting := false, cause := BitVec.ofNat 8 cause, failAt := at_, derived := false, value := [], ackEpoch := none, buffer := [] }).modSq q fun x =>
    { x with resumeAt := max x.resumeAt at_ }

/-- The parameter block of a field's job: the fixed input, or the MAC's input (R317). -/
def fieldInput (r uid : Bytes) : Bytes :=
  (if recKind r = 1 then tagJKSF else tagJKSM) ++ [0] ++ be 1 (recOwner r) ++ be 2 (recSlot r) ++ be 1 (recU r) ++ uid ++ recContext r ++
    if recKind r = 1 then be 4 (8 * recLen r) else []

/-- A field waits, within its window, for a reservation of its key that its count of uses has reached: for the blob's rewrite, and
on a paired active device for the acknowledgement of its epoch (R194, R326, R502). None where it need not. -/
def Chip.reserveWait (k slot : Nat) (s : Chip) : Option Chip :=
  let key := SMap.get s.keys.slots {} slot
  let unacked : Bool := match (s.seal k).ackEpoch with
    | some n => s.pair.state == .activePaired && decide (s.pair.committed < n)
    | none => false
  if unacked ∨ key.reserved ≤ key.uses ∧ s.flashFree = false then some s
  else if key.reserved ≤ key.uses ∧ s.pair.state = .activePaired then
    let t := (s.reserveUses slot 256).1
    some (t.modSeal k fun x => { x with ackEpoch := some t.openEpoch })
  else none

/-- `FIELD_REQUEST_ACCEPT`: a site's request, its UID present, becomes a job, once its queue has one of its 8 entries free; the
key checks are made now (R213, R318, R321, R322). -/
def fieldRequest (k : Nat) (s : Chip) : Chip :=
  match s.seqOfSite k with
  | none => s
  | some q =>
    let y := s.seal k
    let r := s.recipe (s.sq q).sealedCfg.recipe
    let at_ := s.nowFine + ns60
    if y.waiting = false ∨ y.job.isSome ∨ (s.queue q).entries.length ≥ 8 then s
    else if s.runs 3 = false then s.failField q k 6 at_
    else if y.uidRefused then (s.modSeal k fun x => { x with uid := none, uidRefused := false }).failField q k 3 at_
    else match y.uid with
      | none => s
      | some uid =>
        let took := s.modSeal k fun x => { x with uid := none, run := { x.run with uid := uid } }
        let key := SMap.get s.keys.slots {} (recSlot r)
        if uid.length ≠ recU r then took.failField q k 2 at_
        else if s.masterOk (recOwner r) (recSlot r) = false ∨ (key.limit ≠ 0 ∧ key.limit ≤ key.uses) then took.failField q k 5 at_
        else match s.reserveWait k (recSlot r) with
          | some s => s
          | none =>
            let s := (took.countUse (recSlot r)).1
            let e : JobEntry :=
              { opcode := if recKind r = 1 then 0xF0 else 0xF1, slot := recSlot r, key := SMap.get s.keys.slots {} (recSlot r)
                params := fieldInput r uid, inLen := recLen r, site := k }
            (s.modSeal k fun x => { x with job := some s.crypto.nextUid }).addJob q e

/-- `FIELD_REQUEST_ACCEPT` (R322). -/
def execFieldRequestAccept (site : Fin 16) (s : State) : Host.Outcome State Fault Refusal := next s (fieldRequest site.val s.chip)

/-- `FIELD_WORDS_SENT`: V is whole, and its words go over CH_09 (R323). -/
def fieldWordsSent (k : Nat) (s : Chip) : Chip :=
  s.modSeal k fun x => if x.derived then { x with derived := false, sent := true } else x

/-- `FIELD_WORDS_SENT` (R323). -/
def execFieldWordsSent (site : Fin 16) (s : State) : Host.Outcome State Fault Refusal := next s (fieldWordsSent site.val s.chip)

/-- Every field of the SFW is buffered or failed. -/
def Chip.fieldsResolved (s : Chip) (q : Nat) : Bool := (s.sq q).livingSites.all fun k => !(s.seal k).waiting

/-- `FIELD_WORD_ARRIVAL`: the first word is acknowledged into the SQ so long after t_S, the last at most
100 ns later. On the closing edge it is in time; words of an abandoned field are discarded (R323, R329). -/
def fieldArrival (k latencyNs : Nat) (s : Chip) : Chip :=
  match s.seqOfSite k with
  | none => s
  | some q =>
    let y := s.seal k
    let c := (s.sq q).sealedCfg
    let s := if y.sent then s.freeInjector q k else s
    if y.sent = false then s
    else if y.waiting = false then s.modSeal k fun x => { x with sent := false, value := [], job := none }
    else if c.windowOpen = false ∨ 1000 * c.window < latencyNs then s.modSeal k fun x => { x with sent := false, value := [] }
    else
      let d := s.drawBytes 2
      let last := c.startAt + 25600 * latencyNs + 100 * (leNat d.1 % 25601)
      let s := d.2.modSeal k fun x => { x with waiting := false, sent := false, value := [], buffer := x.value, pos := 0 }
      let s := s.modSq q fun x =>
        { x with resumeAt := max x.resumeAt (last + ns60)
                 sealedCfg := { x.sealedCfg with longest := max x.sealedCfg.longest (min latencyNs 0xFFFFFFFF) } }
      s.modSq q fun x => if s.fieldsResolved q then { x with sealedCfg := { x.sealedCfg with field := .buffered } } else x

/-- `FIELD_WORD_ARRIVAL` (R323). -/
def execFieldWordArrival (site : Fin 16) (latencyNs : Nat) (s : State) : Host.Outcome State Fault Refusal :=
  next s (fieldArrival site.val latencyNs s.chip)

/-- `LATENCY_WINDOW_CLOSE`: a site without a UID fails with cause 0x01, one whose words have not come with
0x04; the close itself is the failure point (R322, R327). A first word on the closing edge comes before it (R24). -/
def windowClose (q : Nat) (s : Chip) : Chip :=
  let c := (s.sq q).sealedCfg
  if c.windowOpen = false ∨ s.nowFine ≤ c.closeAt then s
  else
    let s := s.modSq q fun x => { x with sealedCfg := { x.sealedCfg with windowOpen := false } }
    ((s.sq q).livingSites.filter fun k => (s.seal k).waiting).foldl (fun s k =>
      let y := s.seal k
      s.failField q k (if y.job.isSome then 4 else if y.uidRefused then 3 else if y.uid.isNone then 1 else 4) c.closeAt) s

/-- `LATENCY_WINDOW_CLOSE` (R322). -/
def execLatencyWindowClose (sq : Fin 16) (s : State) : Host.Outcome State Fault Refusal := next s (windowClose sq.val s.chip)

/-- The bits of V in the order in which SF symbols take them (R315). -/
def fieldBits (lsb : Bool) (v : Bytes) : List Bool :=
  v.flatMap fun b => (List.range 8).map fun i => b.getLsbD (if lsb then i else 7 - i)

/-- `SEALED_BUFFER_CLEAR`: after a site's last SF bit its part of the buffer is overwritten (R325). -/
def bufferClear (k : Nat) (s : Chip) : Chip :=
  s.modSeal k fun x => if x.pos ≥ 8 * x.buffer.length then { x with buffer := [], pos := 0 } else x

/-- `SEALED_BUFFER_CLEAR` (R325). -/
def execSealedBufferClear (site : Fin 16) (s : State) : Host.Outcome State Fault Refusal := next s (bufferClear site.val s.chip)

/-- Whether the SF bits of every site of a sequencer have all been driven. -/
def Chip.fieldsDriven (s : Chip) (q : Nat) : Bool := (s.sq q).livingSites.all fun k => decide (8 * (s.seal k).buffer.length ≤ (s.seal k).pos)

/-- The lanes of a sequencer are observed again after a sealed play (R334). -/
def Chip.unsealLanes (q : Nat) (s : Chip) : Chip := (s.lanesOf q).foldl (fun s n => s.modLane n fun l => { l with sealedIn := false }) s

/-- A wait or a sealed play is abandoned without failure; the buffer is cleared (R325, R329). -/
def Chip.abandonFields (q : Nat) (s : Chip) : Chip :=
  let s := (s.sq q).sites.foldl (fun s k => (if (s.seal k).sent then s else s.freeInjector q k).modSeal k fun x =>
    { x with waiting := false, job := if x.sent then x.job else none, derived := false, value := [], ackEpoch := none, buffer := [], pos := 0, cause := 0 }) s
  (s.modSq q fun x => { x with playing := none, resumeAt := 0, sealedCfg := { x.sealedCfg with field := .none, windowOpen := false } }).unsealLanes q

/-- A sealed play has played to its end: its fields are completed (R324, R333). -/
def Chip.completeFields (q : Nat) (s : Chip) : Chip :=
  let ks := (s.sq q).livingSites
  let s := ks.foldl (fun s k => s.modSeal k fun x => { x with run := { x.run with completed := x.run.completed + 1 } }) s
  (s.modSq q fun x => { x with playing := none, sealedCfg := { x.sealedCfg with field := .none, completed := satAdd 32 x.sealedCfg.completed ks.length } }).unsealLanes q

/-! ## Issuance proofs (R330 to R333) -/

/-- One nibble more of a transcript, high nibble first. -/
def ProofRun.nibble (n : Nat) (r : ProofRun) : ProofRun :=
  match r.half with
  | none => { r with half := some n, nibbles := r.nibbles + 1 }
  | some h => { r with half := none, data := r.data ++ [BitVec.ofNat 8 (16 * h + n)], nibbles := r.nibbles + 1 }

/-- A covered vector is emitted to a site: the timing set, then its symbols. -/
def ProofRun.vector (set : Nat) (syms : List Nat) (r : ProofRun) : ProofRun :=
  if r.on then syms.foldl (fun r n => r.nibble n) (r.nibble set) else r

/-- The proofs of a sequencer's sites begin at launch, if enabled and the SI runs; held UIDs are
discarded (R321, R330). -/
def Chip.launchSeals (q : Nat) (s : Chip) : Chip :=
  let on := (s.sq q).sealedCfg.proofOn == 1 && s.runs 3
  (s.sq q).sites.foldl (fun s k => (s.freeInjector q k).modSeal k fun x =>
    { x with uid := none, uidRefused := false, waiting := false, job := none, cause := 0, derived := false, value := [], sent := false, ackEpoch := none
             buffer := [], pos := 0, run := { on := on } }) s

/-- The status of a proof record (Table 12.7). -/
def ProofRun.status (r : ProofRun) (fields : Bool) : Nat :=
  if r.failed ≠ 0 then 1 else if r.early then 2 else if fields ∧ r.completed ≠ 0 then 0 else 3

/-- Close the proof of one site: the CMAC, and its record (R330, R333). -/
def Chip.closeProof (q k cause : Nat) (s : Chip) : Chip :=
  let x := s.sq q
  let y := s.seal k
  let r := y.run
  if r.on = false ∨ s.runs 3 = false then s.modSeal k fun z => { z with run := {} }
  else
    let key := SMap.get s.keys.slots {} x.sealedCfg.proofKey.toNat
    let data := match r.half with | some h => r.data ++ [BitVec.ofNat 8 (16 * h)] | none => r.data
    let stamp := x.baseNs256
    let head := tagJKIP ++ s.identity.drop 4 ++ be 1 q ++ be 1 k ++ be 4 y.seq ++ be 8 (stamp / 256) ++ be 1 (stamp % 256) ++ pad 32 x.digest
    let tail := be 1 r.completed ++ be 1 r.failed ++ be 1 cause ++ be 1 r.uid.length ++ pad 10 r.uid ++ be 8 r.nibbles
    let mac := cmac key.material (head ++ data ++ tail)
    let rec_ := le 4 y.seq ++ le 1 q ++ le 1 k ++ le 1 (r.status (r.completed != 0)) ++ le 1 r.completed ++ le 8 (stamp / 256) ++ le 1 (stamp % 256) ++
      le 1 x.report.flags.toNat ++ le 1 r.uid.length ++ pad 10 r.uid ++ [0, 0, 0] ++ mac ++ le 8 r.nibbles ++ List.replicate 8 0
    s.modSeal k fun z => { z with run := {}, records := (rec_ :: z.records).take 8, seq := (z.seq + 1) % 2 ^ 32 }

/-- The end of a run closes every site's proof and discards the held UIDs (R321, R330). -/
def Chip.endSeals (q cause : Nat) (s : Chip) : Chip :=
  let s := s.abandonFields q
  (s.sq q).sites.foldl (fun s k => (s.closeProof q k cause).modSeal k fun x => { x with uid := none, uidRefused := false }) s

/-- A mask that parks or drops before its sites' fields is noted in their proofs. -/
def Chip.earlySites (q m : Nat) (s : Chip) : Chip :=
  ((s.sq q).sites.filter fun k => (s.sq q).inMask m k).foldl (fun s k => s.modSeal k fun x =>
    { x with run := { x.run with early := x.run.early || x.run.completed == 0 } }) s

/-- The SI leaves running: fields that are not complete in the buffer fail with cause 0x06, and proofs and
their records are lost (R327, R333). `intrusion` also cuts the fields in a buffer, and every mask in a sealed play (R328). -/
def Chip.siLost (intrusion : Bool) (s : Chip) : Chip :=
  let s := (List.range 16).foldl (fun s k =>
    let y := s.seal k
    match s.seqOfSite k with
    | some q => if y.waiting ∨ (intrusion ∧ (y.buffer ≠ [] ∨ ((s.sq q).playing.isSome ∧ (s.sq q).livingSites.contains k))) then s.failField q k 6 (s.nowFine + if intrusion then 0 else ns60) else s
    | none => s) s
  (List.range 16).foldl (fun s k => s.modSeal k fun x => { x with uid := none, uidRefused := false, run := {}, records := [], seq := 0 }) s

end Sys2Proof.Machine
end

