-- ==== Sys2Proof/Machine/Playback.lean ====
section
/-! DEFINITION. The vector engine: what one emitted vector does to the lanes (R237, R238, R274, R275), to
markers (R253), to compares, captures and triggers (R277, R337 to R351), to sealed fields and proofs (R315,
R330), and the plays of PLAY, PLAYS and ALG one vector at a time (R264, R310). -/

namespace Sys2Proof.Machine

/-- The place of an ALG vector: its march program, its operation, its template record, and whether it is
the operation's last vector. -/
structure AlgVec where
  /-- March program. -/
  prog : Nat
  /-- Operation. -/
  pos : AlgPos
  /-- Template record. -/
  recNo : Nat
  /-- Last vector of the operation. -/
  last : Bool

/-- One vector to emit. -/
structure Vec where
  /-- Its timing set. -/
  set : Nat
  /-- Markers 3 to 0. -/
  markers : Nat
  /-- The lanes of the masks that play, ascending: lane, symbol, segment (0x4000 in an ALG). -/
  lanes : List (Nat × Nat × Nat)
  /-- Set in an ALG. -/
  alg : Option AlgVec

/-! ## Drive (R238, R274, R275) -/

/-- The level before and after the data of a format (Table 10.3): none for NR, low for RZ, high for R1, the complement for SBC. -/
def formatRest (fmt : Nat) (data : Bool) : Option Bool :=
  match fmt with
  | 0 => none
  | 1 => some false
  | 2 => some true
  | _ => some !data

/-- The drive edges of a symbol in a timing set, in the order D_ON, D_DATA, D_OFF (R274, R275), for a driver that is on or off
before, in a vector whose boundary is `tb`. Data drives; DK has no edge; every other symbol disables at D_OFF. -/
def TimingSet.driveEdges (t : TimingSet) (n sym tb : Nat) (l : Lane) : List PinEdge :=
  let edge (off : Nat) (on level : Bool) : PinEdge := { ideal := tb + 256 * off, on := on, level := level }
  let fmt := t.format n
  if sym ≤ 1 then
    let data : Bool := sym == 1
    let rest := formatRest fmt data
    (if l.driverOn = false ∨ fmt = 3 then [edge (t.dOn n) true (rest.getD data)] else []) ++ [edge (t.dData n) true data] ++
      (match rest with
       | some r => [edge (t.dOff n) true r]
       | none => [])
  else if sym = 3 ∨ l.driverOn = false then []
  else [edge (t.dOff n) false l.driven]

/-- Of edges that fall at the same time, the later in order alone: no intermediate level appears (R276). -/
def lastAtTime : List PinEdge → List PinEdge
  | a :: b :: r => if a.ideal = b.ideal then lastAtTime (b :: r) else a :: lastAtTime (b :: r)
  | l => l

/-- The lane in a vector whose boundary is `tb`; one in compare-only mode never enables its driver (R52). -/
def Lane.drive (t : TimingSet) (n sym tb : Nat) (l : Lane) : Lane :=
  if l.mode = 2 then { l with driverOn := false } else l.take (lastAtTime (t.driveEdges n sym tb l))

/-- The next sealed bit of a site (R315). -/
def Chip.takeBit (q k : Nat) (s : Chip) : Bool × Chip :=
  let y := s.seal k
  let lsb := recLsb (s.recipe (((s.sq q).playing).getD 0))
  ((fieldBits lsb y.buffer).getD y.pos false, s.modSeal k fun x => { x with pos := x.pos + 1 })

/-- Replace the SF symbols of a vector by the bits they take, in lane order. An SF on a compare-only lane
takes its bit and drives nothing. (DEDUCED, log 50.) -/
def Chip.takeBits (q : Nat) : List (Nat × Nat × Nat) → Chip → List (Nat × Nat × Nat) × Chip
  | [], s => ([], s)
  | (n, sym, g) :: ls, s =>
    if sym = 7 then
      let b := s.takeBit q (s.lane n).site.toNat
      let r := Chip.takeBits q ls b.2
      ((n, if b.1 then 1 else 0, g) :: r.1, r.2)
    else
      let r := Chip.takeBits q ls s
      ((n, sym, g) :: r.1, r.2)

/-- A sequencer's lanes stay at the dust-sheet level: it is re-seated itself, or the PLL its timing sets draw
on (R60, Table 2.14). -/
def Chip.dustHeld (s : Chip) (q : Nat) : Bool := s.reseating 5 q || s.reseating 6 (s.sq q).source

/-- Drive the lanes of a vector. -/
def Chip.driveLanes (q : Nat) (t : TimingSet) (lanes : List (Nat × Nat × Nat)) (s : Chip) : Chip :=
  let tb := s.fine q (s.sq q).tb
  if s.dustHeld q then s else lanes.foldl (fun s e => s.modLane e.1 (Lane.drive t e.1 e.2.1 tb)) s

/-! ## Compare (R277, R337, R338) -/

/-- Compares of a sequencer count: the AQ runs and has been armed since its last reset (R337, R357). -/
def Chip.judges (s : Chip) (q : Nat) : Bool := s.runs 7 && !s.acq.awaitArm.getLsbD q

/-- What is judged of one vector, after the glitch filters (R49, R277): the levels at C_OPEN, the lanes whose level there
lasts too short for a window to fail on it, and the lanes whose deviation inside the window fails. -/
structure Judged where
  /-- Levels at C_OPEN. -/
  levels : BitVec 64
  /-- Lanes whose level at C_OPEN a window lets pass. -/
  brief : BitVec 64
  /-- Lanes that deviate inside the window. -/
  deviates : BitVec 64

/-- A deviation of so many ps fails a window: always from 1.0 ns, and it may below that (R277). (DESIGN CHOICE, log 114.) -/
def Chip.windowFails (s : Chip) (n ps : Nat) : Bool := decide (1000 ≤ ps) || Config.briefFails s.nowFine n ps

/-- Judge what the balls show: a pulse the filter removes shows the level around it, a deviation it removes is none (R49, R277). (DESIGN CHOICE, log 114.) -/
def Chip.judge (s : Chip) (o : LaneObs) : Judged :=
  let bits (l : List LanePulse) : BitVec 64 := l.foldl (fun v e => v ||| BitVec.twoPow 64 e.lane) 0
  { levels := o.levels ^^^ bits (o.pulses.filter fun e => !s.passes e.lane e.widthPs)
    brief := bits (o.pulses.filter fun e => s.passes e.lane e.widthPs && !s.windowFails e.lane e.insidePs)
    deviates := bits (o.deviations.filter fun e => s.passes e.lane e.widthPs && s.windowFails e.lane e.insidePs) }

/-- A compare symbol fails for what is judged. -/
def failsOn (t : TimingSet) (o : Judged) (n sym : Nat) : Bool :=
  (((sym == 4 && o.levels.getLsbD n) || (sym == 5 && !o.levels.getLsbD n)) && !(t.window n && o.brief.getLsbD n)) ||
    (t.window n && o.deviates.getLsbD n)

/-- The lanes whose compare counts. -/
def Chip.counted (s : Chip) (q : Nat) (lanes : List (Nat × Nat × Nat)) : List (Nat × Nat × Nat) :=
  lanes.filter fun e => (e.2.1 == 4 || e.2.1 == 5) && (s.lane e.1).mask == 0 && s.judges q

/-- One counted result on a lane, in vector `v` of the run. -/
def Lane.result (v : Nat) (fails : Bool) (l : Lane) : Lane :=
  { l with
    compares := satAdd 32 l.compares 1
    fails := if fails then satAdd 32 l.fails 1 else l.fails
    firstFail := if fails ∧ l.firstFail = 0xFFFFFFFF then min v 0xFFFFFFFF else l.firstFail }

/-- The counters and sticky flags of a vector's compares. -/
def Chip.countResults (t : TimingSet) (o : Judged) (v : Nat) (counted : List (Nat × Nat × Nat)) (s : Chip) : Chip :=
  counted.foldl (fun s e =>
    let f := failsOn t o e.1 e.2.1
    let s := s.modLane e.1 (Lane.result v f)
    if f then s.modSiteAq (s.lane e.1).site.toNat fun a => { a with flag := true, fails := satAdd 32 a.fails 1 } else s) s

/-- A set of lanes as bits. -/
def laneBits (l : List Nat) : Nat := (l.map (2 ^ ·)).sum

/-- The latest C_CLOSE of a vector's compares, in 1/25,600 ns. -/
def closeOf (t : TimingSet) (time : Nat) (lanes : List (Nat × Nat × Nat)) : Nat :=
  ((lanes.filter fun e => e.2.1 == 4 || e.2.1 == 5).map fun e => time + 256 * t.cClose e.1).foldl max 0

/-! ## Records of a vector (R340, R341, R346, R350) -/

/-- The observed level of a lane: held through a sealed play of its site (R334, R350). -/
def Chip.observed (s : Chip) (o : Judged) (n : Nat) : Bool := if (s.lane n).sealedIn then (s.lane n).input else o.levels.getLsbD n

/-- The pattern trigger matches. -/
def Chip.patternHit (s : Chip) (q : Nat) (o : Judged) : Bool :=
  let p := (s.unit q).pattern
  let mask := fieldAt p 0 8
  let value := fieldAt p 8 8
  (List.range 64).all fun n => !mask.testBit n || s.observed o n == value.testBit n

/-- A fail record of a site: produced within the limit, else counted as lost (R341). -/
def Chip.failRecord (q k : Nat) (shell : Bytes) (time : Nat) (s : Chip) : Chip :=
  if (s.siteAq k).failRecs < (s.unit q).failLimit then
    (s.modSiteAq k fun a => { a with failRecs := a.failRecs + 1 }).captureRecord q shell time
  else s.modUnit q fun c => { c with failLost := satAdd 32 c.failLost 1 }

/-- The sites of the playing masks with one of a list of lanes. -/
def Chip.sitesWith (s : Chip) (q : Nat) (lanes : List Nat) : List Nat :=
  (s.sq q).livingSites.filter fun k => lanes.any fun n => (s.lane n).site.toNat == k

/-- Compare-fail records of a vector (R340). -/
def Chip.failRecords (q time v : Nat) (fails : List Nat) (s : Chip) : Chip :=
  if (s.unit q).sources.getLsbD 2 then
    (s.sitesWith q fails).foldl (fun s k =>
      let bits := laneBits (fails.filter fun n => (s.lane n).site.toNat == k)
      s.failRecord q k (recordShell 3 q k 0 time (le 8 bits ++ le 4 v)) time) s
  else s

/-- The vector-capture record (R346, R353). -/
def Chip.captureVector (q time v : Nat) (o : Judged) (cps : List Nat) (s : Chip) : Chip :=
  if (s.unit q).sources.getLsbD 0 ∧ cps ≠ [] then
    let d := s.streamStep q 0
    if d.1 then
      d.2.captureRecord q (recordShell 1 q 0xFF (4 * s.effective q) time (le 8 (laneBits (cps.filter fun n => o.levels.getLsbD n)) ++ le 4 v)) time
    else d.2
  else s

/-- The triggers of a vector: markers that assert, the pattern, a counted fail (Table 13.4). -/
def Chip.vectorTriggers (q time : Nat) (o : Judged) (rising : List Nat) (failed : Bool) (s : Chip) : Chip :=
  let src := (s.unit q).trigSource.toNat
  if (1 ≤ src ∧ src ≤ 4 ∧ rising.contains (src - 1)) ∨ (src = 6 ∧ s.patternHit q o) ∨ (src = 7 ∧ failed) then s.trigger q time false else s

/-- UID bits of a vector (R342). -/
def Chip.uidVector (q time : Nat) (o : Judged) (lanes : List (Nat × Nat × Nat)) (s : Chip) : Chip :=
  let c := s.unit q
  let g := fieldAt c.uidCfg 0 2
  if c.uidOn = false ∨ s.judges q = false then s
  else (s.sq q).livingSites.foldl (fun s k =>
    match (s.siteLanes q k)[byteAt c.uidCfg 2]? with
    | none => s
    | some n => if lanes.any fun e => e.1 == n && e.2.1 == 6 && e.2.2 == g then s.uidBits q k time [o.levels.getLsbD n] else s) s

/-- Markers that assert start the response timers and the applies that wait for them (R253, R304, R344). -/
def Chip.assertMarkers (q time : Nat) (rising : List Nat) (s : Chip) : Chip :=
  rising.foldl (fun s m =>
    let s := if s.judges q ∧ (s.unit q).marker = m then (s.sq q).livingSites.foldl (fun s k => s.startTimer q time k) s else s
    s.markerApplies q m time) s

/-! ## ALG reads (R310, R340) -/

/-- The data bit a field-map entry ties to a lane of a read record, with its inversion. -/
def Generator.tied (g : Generator) (recNo lane : Nat) : Option (Nat × Bool) :=
  (g.fieldMap.find? fun e => !mapWrite e && mapRecord e == recNo && mapLane e == lane && decide (0x18 ≤ mapSource e)).map fun e => (mapSource e - 0x18, mapInvert e)

/-- One vector of a read operation at a site: its judged data bits and fails are collected. -/
def Chip.algCollect (q k time : Nat) (a : AlgVec) (o : Judged) (lanes fails : List Nat) (s : Chip) : Chip :=
  let owned := s.lanesOf q
  let mine := lanes.filter fun n => (s.lane n).site.toNat == k
  let tie (n : Nat) : Option (Nat × Bool) := (s.sq q).gen.tied a.recNo (owned.findIdx (· == n))
  let data := mine.foldl (fun d n => match tie n with
    | some (b, inv) => if (o.levels.getLsbD n).xor inv then d ||| 2 ^ b else d - (d &&& 2 ^ b)
    | none => d) (if a.pos.at_ = 0 then 0 else (s.siteAq k).algData)
  let bad := fails.filter fun n => (s.lane n).site.toNat == k
  s.modSiteAq k fun x =>
    { x with
      algData := data
      algFail := (x.algFail && a.pos.at_ != 0) || bad != []
      algOther := (x.algOther && a.pos.at_ != 0) || bad.any fun n => (tie n).isNone
      algAt := if a.pos.at_ = 0 then time else x.algAt }

/-- The ALG-read-fail record of a site at the end of a read operation. (DEDUCED, log 44.) -/
def Chip.algRecord (q k : Nat) (a : AlgVec) (s : Chip) : Chip :=
  let y := s.siteAq k
  if y.algFail ∧ (s.unit q).sources.getLsbD 3 then
    let want := (s.sq q).gen.data a.pos.background a.pos.cell (opOne a.pos.code)
    s.failRecord q k (recordShell 4 q k 0 y.algAt
      (le 1 (16 * a.prog + a.pos.element) ++ le 1 a.pos.op ++ le 3 a.pos.cell ++ [0] ++ le 2 y.algData ++ le 2 want ++ le 1 (if y.algOther then 1 else 0))) y.algAt
  else s

/-- What an ALG vector adds: a read's collection and record, the count of operations, the position. -/
def Chip.algVector (q time : Nat) (a : AlgVec) (o : Judged) (compares fails : List Nat) (s : Chip) : Chip :=
  let ks := (s.sq q).livingSites
  let s := if opWrites a.pos.code then s else ks.foldl (fun s k => s.algCollect q k time a o compares fails) s
  let s := if a.last ∧ opWrites a.pos.code = false then ks.foldl (fun s k => s.algRecord q k a) s else s
  s.modSq q fun x => { x with gen := { x.gen with
    position := BitVec.ofNat 32 (2 ^ 28 * a.prog + 2 ^ 24 * a.pos.element + a.pos.cell)
    opsDone := if a.last then (x.gen.opsDone + 1) % 2 ^ 64 else x.gen.opsDone } }

/-! ## Proofs (R330) -/

/-- The plays of a segment are covered by the proof map, or it is sealed. -/
def Chip.covered (s : Chip) (q g : Nat) : Bool :=
  decide (g < 0x4000) && ((s.desc g).sealed_ || (SMap.get (s.sq q).sealedCfg.proofMap 0 (g / 8)).getLsbD (g % 8))

/-- A vector enters the transcripts of the sites that it is emitted to. -/
def Chip.proofVector (q set : Nat) (lanes : List (Nat × Nat × Nat)) (s : Chip) : Chip :=
  (s.sq q).livingSites.foldl (fun s k =>
    let mine := lanes.filter fun e => (s.lane e.1).site.toNat == k
    match mine with
    | [] => s
    | e :: _ => if s.covered q e.2.2 then s.modSeal k fun x => { x with run := x.run.vector set (mine.map (·.2.1)) } else s) s

/-! ## One vector -/

/-- The marker bits of a vector that were clear before it. -/
def Seq.rising (x : Seq) (markers : Nat) : List Nat := (List.range 4).filter fun m => markers.testBit m && !x.markers.getLsbD m

/-- Emit one vector at the next boundary. -/
def Chip.emitVector (q : Nat) (v : Vec) (obs : LaneObs) (s : Chip) : Chip :=
  let s := s.fixLanes q 1
  let o := s.judge obs
  let x := s.sq q
  let t := x.timing v.set
  let time := s.fine q x.tb
  let rising := x.rising v.markers
  let b := s.takeBits q v.lanes
  let lanes := b.1
  let s := (b.2.driveLanes q t lanes).assertMarkers q time rising
  let counted := s.counted q lanes
  let fails := (counted.filter fun e => failsOn t o e.1 e.2.1).map (·.1)
  let s := s.countResults t o x.vecIndex counted
  let s := if fails = [] then s else s.modUnit q fun c => { c with failAt := some (closeOf t time (counted.filter fun e => fails.contains e.1)) }
  let cps := (v.lanes.filter (·.2.1 == 6)).map (·.1)
  let s := if s.runs 7 then s.vectorTriggers q time o rising (fails != []) else s
  let s := if s.runs 7 then s.captureVector q time x.vecIndex o cps else s
  let s : Chip := match v.alg with
    | some a => s.algVector q time a o ((lanes.filter fun (e : Nat × Nat × Nat) => e.2.1 == 4 || e.2.1 == 5).map fun (e : Nat × Nat × Nat) => e.1) fails
    | none => s.failRecords q time x.vecIndex fails
  let s := if s.runs 7 then s.uidVector q time o v.lanes else s
  let s := s.proofVector q v.set lanes
  let s := (s.lanesOf q).foldl (fun s n => s.modLane n fun l => if l.sealedIn then l else { l with input := o.levels.getLsbD n }) s
  s.modSq q fun x =>
    { x with
      tb := x.tb + x.periodUnits v.set
      vecIndex := x.vecIndex + 1
      vectors := (x.vectors + 1) % 2 ^ 64
      markers := BitVec.ofNat 4 v.markers
      lastSet := v.set
      lastHold := false
      lastClose := max x.lastClose (closeOf t time lanes) }

/-! ## The stream ring (R244) -/

/-- A burst belongs to a segment's data for a stream. -/
def RingBurst.of (g m : Nat) (e : RingBurst) : Bool := e.seg == g && e.stream == m

/-- Data bytes of a segment for a stream in the ring that can be played: those ahead of a burst that was not delivered (R367). -/
def Seq.ringBytes (x : Seq) (g m : Nat) : Nat :=
  (((x.ring.takeWhile fun e => !(e.of g m && e.bad)).filter (·.of g m)).map (·.bytes)).sum

/-- Take `n` bytes of a segment for a stream out of the ring; a burst that is used up leaves it. (DESIGN CHOICE, log 45.) -/
def takeRing (g m : Nat) : Nat → List RingBurst → List RingBurst
  | _, [] => []
  | n, e :: r =>
    if e.of g m = false ∨ n = 0 then e :: takeRing g m n r
    else if e.bytes ≤ n then takeRing g m (n - e.bytes) r
    else { e with bytes := e.bytes - n } :: r

/-! ## Plays (R233, R237, R264) -/

/-- A stream (R264): its segment, its site mask or 4 for a full-width PLAY, and its lanes in segment order. -/
structure Stream where
  /-- Segment. -/
  seg : Nat
  /-- Site mask, or 4. -/
  mask : Nat
  /-- Lanes. -/
  lanes : List Nat
  deriving DecidableEq

/-- The streams of the instruction in play that still play. -/
def Chip.streams (s : Chip) (q : Nat) (i : SeqOp) : List Stream :=
  let x := s.sq q
  match i with
  | .play _ g => [⟨g.toNat, 4, s.lanesOf q⟩]
  | .plays b => (x.masksUsed.filter x.plays).map fun m => ⟨b.toNat + m, m, s.maskLanes q m⟩
  | _ => []

/-- The segment whose headers a play takes: that of its first stream. -/
def leadSeg (streams : List Stream) : Nat := ((streams.map (·.seg)).head?).getD 0

/-- How often an instruction plays its segment. -/
def SeqOp.repeats : SeqOp → Nat
  | .play r _ => r.toNat + 1
  | _ => 1

/-- Record `i` of a segment is no invalid one: resident, whose records the arm checked, or valid and not below the stream period
floor (R239, R383). -/
def Chip.recordPlays (s : Chip) (q g i : Nat) : Bool :=
  let d := s.desc g
  d.resident || (s.recordOk q g i && (d.sample || decide (s.pStr q ≤ s.pu ((s.sq q).timing (s.vecRec g i).set))))

/-- Record `i` of a stream can play: resident, or whole in the ring and valid (R239, R264, R383). -/
def Chip.playable (s : Chip) (q g m i : Nat) : Bool :=
  let d := s.desc g
  (d.resident || decide (0 < (s.sq q).recAt) || decide (d.recBytes ≤ (s.sq q).ringBytes g m)) && s.recordPlays q g i

/-- The vector that record `i` of the streams is: the header of the first stream (that of mask 0 while it
plays), and the symbols of the lanes whose mask plays. -/
def Chip.playVec (s : Chip) (q i : Nat) (streams : List Stream) : Vec × Nat :=
  let x := s.sq q
  let h := s.vecRec (leadSeg streams) i
  let lanes := streams.flatMap fun e =>
    let syms := (s.vecRec e.seg i).syms
    ((List.range e.lanes.length).map fun j => (e.lanes.getD j 64, syms.getD j 2, e.seg)).filter fun l => x.plays (x.maskOf (s.lane l.1).site.toNat)
  let sorted := (List.range 64).filterMap fun n => lanes.find? fun l => l.1 == n
  ({ set := h.set, markers := h.markers, lanes := sorted, alg := none }, h.reps)

/-- The play of a segment begins: the UID capture afresh, and the samples' place in the run (R299, R342). -/
def Chip.beginPlay (q : Nat) (streams : List Stream) (s : Chip) : Chip :=
  let x := s.sq q
  if x.recNo ≠ 0 ∨ x.recAt ≠ 0 then s
  else
    let g := leadSeg streams
    let d := s.desc g
    let s := if streams.any fun e => e.seg == fieldAt (s.unit q).uidCfg 0 2 then s.uidFresh q else s
    if d.sample then s.modSq q fun x => { x with samplePlays := { start := x.tb, desc := d, frames := d.count } :: x.samplePlays } else s

/-- The instruction at the program counter is done. -/
def Seq.nextOp (x : Seq) : Seq := { x with pc := x.pc + 1, done := 0, playNo := 0, recNo := 0, recAt := 0 }

/-- One vector of record `recNo`, repeated `reps` times, is out. -/
def Chip.stepRecord (q reps count repeats : Nat) (streams : List Stream) (s : Chip) : Chip :=
  let s := s.modSq q fun x => { x with done := x.done + 1, recAt := x.recAt + 1 }
  if (s.sq q).recAt < reps then s
  else
    let s := s.modSq q fun x =>
      { x with
        recNo := x.recNo + 1
        recAt := 0
        ring := streams.foldl (fun r e => if (s.desc e.seg).resident then r else takeRing e.seg e.mask (s.desc e.seg).recBytes r) x.ring }
    if (s.sq q).recNo < count then s
    else
      let s := s.modSq q fun x => { x with playNo := x.playNo + 1, recNo := 0 }
      if (s.sq q).playNo < repeats then s
      else
        let s := s.modSq q Seq.nextOp
        if (s.sq q).playing.isSome then s.completeFields q else s

/-- The next vector of the PLAY or PLAYS at the program counter; none where there is no such vector: the
sequencer does not run, another instruction stands there, or the data of a stream is missing or invalid. (DEDUCED, log 50.) -/
def Chip.playNext (q : Nat) (o : LaneObs) (s : Chip) : Option Chip :=
  let x := s.sq q
  match x.op x.pc with
  | none => none
  | some i =>
    let streams := s.streams q i
    let d := s.desc (leadSeg streams)
    if x.state ≠ .running ∨ streams = [] ∨ streams.any (fun e => !s.playable q e.seg e.mask x.recNo) then none
    else
      let s := s.beginPlay q streams
      if d.sample then
        some (((s.modSq q fun x => { x with lastSet := 0 }).emitHolds q 1).stepRecord q 1 d.count i.repeats streams)
      else
        let v := s.playVec q x.recNo streams
        some ((s.emitVector q v.1 o).stepRecord q v.2 d.count i.repeats streams)

/-- Vectors of a PLAY or PLAYS, one per observation, until it is done or its data is missing. (DESIGN CHOICE, log 43.) -/
def Chip.playObs (q pc : Nat) : List LaneObs → Chip → Chip
  | [], s => s
  | o :: os, s =>
    if (s.sq q).pc ≠ pc then s
    else match s.playNext q o with
      | some s => s.playObs q pc os
      | none => s

/-! ## ALG (R310) -/

/-- The vector of a template record, substituted. -/
def Chip.algVec (s : Chip) (q p : Nat) (a : AlgPos) : Vec :=
  let x := s.sq q
  let write := opWrites a.code
  let n := (x.gen.template write).2
  let reps := (List.range n).map fun i => (s.templateRec q write i).reps
  let i := recIndexAt reps 0 a.at_
  let r := s.templateRec q write i
  let syms := x.gen.substitute write i (x.gen.bus a.cell) (x.gen.data a.background a.cell (opOne a.code)) r.syms
  let owned := s.lanesOf q
  { set := r.set
    markers := r.markers
    lanes := ((List.range owned.length).map fun j => (owned.getD j 64, syms.getD j 2, 0x4000)).filter fun l => x.plays (x.maskOf (s.lane l.1).site.toNat)
    alg := some { prog := p, pos := a, recNo := i, last := decide (a.at_ + 1 = reps.sum) } }

/-- One hold vector of a pause; the position shows its element (R314). (DEDUCED, log 44.) -/
def Chip.pausePlace (q p : Nat) (a : AlgPos) (s : Chip) : Chip :=
  (s.emitHolds q 1).modSq q fun x => { x with gen := { x.gen with position := BitVec.ofNat 32 (2 ^ 28 * p + 2 ^ 24 * a.element + a.cell) } }

/-- The next vector of the ALG at the program counter. -/
def Chip.algNext (q p : Nat) (o : LaneObs) (s : Chip) : Option Chip :=
  let x := s.sq q
  if x.state ≠ .running ∨ x.op x.pc ≠ some (.alg (BitVec.ofNat 4 p)) then none
  else match s.algAt q (x.gen.program p) 0 x.done with
    | none => none
    | some a =>
      let s := s.modSq q fun x => { x with gen := { x.gen with state := .running } }
      let s := if a.code = 0 then s.pausePlace q p a else s.emitVector q (s.algVec q p a) o
      let s := s.modSq q fun x => { x with done := x.done + 1 }
      if (s.sq q).done < s.algVectors q p then some s
      else some (s.modSq q fun x => { x.nextOp with gen := { x.gen with state := .completed } })

/-- Vectors of an ALG, one per observation. (DESIGN CHOICE, log 43.) -/
def Chip.algObs (q p pc : Nat) : List LaneObs → Chip → Chip
  | [], s => s
  | o :: os, s =>
    if (s.sq q).pc ≠ pc then s
    else match s.algNext q p o with
      | some s => s.algObs q p pc os
      | none => s

end Sys2Proof.Machine
end

