-- ==== Sys2Proof/Machine/Nestan.lean ====
section
/-! DEFINITION. The frames of the Nestan link (R423, R424) and what a device says of itself in them (R430):
what barriers, heartbeats and data flows are sent with. -/

namespace Sys2Proof.Machine

/-! ## Frames (R423) -/

/-- One bit through the reflected CRC-32 of IEEE 802.3. -/
def crc32Bit (c : Nat) : Nat := if c % 2 = 1 then (c / 2) ^^^ 0xEDB88320 else c / 2

/-- One byte through it. -/
def crc32Byte (c : Nat) (b : Byte) : Nat :=
  crc32Bit (crc32Bit (crc32Bit (crc32Bit (crc32Bit (crc32Bit (crc32Bit (crc32Bit (c ^^^ b.toNat))))))))

/-- The CRC-32 of a frame (R423). -/
def crc32 (b : Bytes) : Nat := (b.foldl crc32Byte 0xFFFFFFFF) ^^^ 0xFFFFFFFF

/-- The bytes of a frame between SOF and EOF. -/
def Frame.bytes (f : Frame) : Bytes :=
  let b := be 1 f.type ++ be 1 f.cluster ++ be 1 f.src ++ be 1 f.dst ++ be 2 f.payload.length ++ be 2 f.seq ++ f.payload
  b ++ le 4 (crc32 b)

/-- The frame that bytes hold; none for a reserved type, a wrong length or a wrong CRC (R423). -/
def parseFrame (b : Bytes) : Option Frame :=
  let n := b.length - 12
  let body := b.take (b.length - 4)
  if b.length < 12 ∨ n > 256 ∨ beNat (slice b 4 2) ≠ n ∨ byteAt b 0 = 0 ∨ byteAt b 0 > 0x0A ∨ leNat (b.drop (b.length - 4)) ≠ crc32 body then none
  else some { type := byteAt b 0, cluster := byteAt b 1, src := byteAt b 2, dst := byteAt b 3, seq := beNat (slice b 6 2), payload := slice b 8 n }

/-- A device drives its NST_TX: the CL runs and the link is not opened by a lost reference or by the life
cycle (R442). -/
def Chip.transmits (s : Chip) : Bool :=
  s.runs 10 && !s.clk.refLost && s.life.state != .locked && s.life.state != .scrapped

/-! ## The transmitter (R425) -/

/-- A stamp in a frame (Table 17.4), from a time in 1/256 ns. -/
def frameStamp (t256 scope : Nat) : Bytes := be 8 (t256 / 256) ++ be 1 (t256 % 256) ++ be 1 scope

/-- The ticks a frame takes on the line with its delimiters and two idle ordered sets, at 8 ns for each code group (R422). -/
def Frame.ticks (f : Frame) : Nat := ceilDiv (16 * (f.bytes.length + 6)) 5

/-- A SYNC or CAL of this device carries the action time at which it leaves (R433, R435). -/
def Frame.stamped (action : Nat) (f : Frame) : Frame :=
  if f.type = 2 ∨ f.type = 3 then { f with payload := frameStamp action (byteAt f.payload 9) ++ f.payload.drop 10 } else f

/-- The order of the transmitter's choice: a SYNC, CAL or RELEASE of its own, then forwarded frames, then its others (R425). -/
def TxFrame.rank (t : TxFrame) : Nat :=
  if t.forwarded then 1 else if t.frame.type = 2 ∨ t.frame.type = 3 ∨ t.frame.type = 7 then 0 else 2

/-- The frame that goes next, none where none may go yet: the oldest of the first rank (R425). -/
def Chip.txNext (s : Chip) : Option TxFrame :=
  let may := s.cluster.tx.filter fun t => decide (t.due ≤ s.clk.ticks)
  ((may.find? (·.rank == 0)).orElse fun _ => may.find? (·.rank == 1)).orElse fun _ => may.head?

/-- No frame is in progress, and none that may go waits. -/
def Chip.txIdle (s : Chip) : Bool := decide (s.cluster.txUntil ≤ s.clk.ticks) && s.txNext.isNone

/-- A frame leaves. -/
def Chip.startTx (t : TxFrame) (s : Chip) : Chip :=
  let f := if t.forwarded then t.frame else t.frame.stamped s.clk.action
  (s.emit (.nestan f.bytes)).modCluster fun c => { c with sent := satAdd 32 c.sent 1, txUntil := s.clk.ticks + f.ticks }

/-- A frame comes to the transmitter: it leaves at once where that is idle, and waits otherwise; a line that is not driven takes
none (R425, R442). (DEDUCED, log 52.) -/
def Chip.handFrame (t : TxFrame) (s : Chip) : Chip :=
  if s.transmits = false then s
  else if s.txIdle ∧ t.due ≤ s.clk.ticks then s.startTx t
  else s.modCluster fun c => { c with tx := c.tx ++ [t] }

/-- The transmitter at a tick: once the frame in progress has left, the next one goes (R425). -/
def Chip.transmitStep (s : Chip) : Chip :=
  if s.cluster.tx = [] then s
  else if s.transmits = false then s.modCluster fun c => { c with tx := [] }
  else if s.clk.ticks < s.cluster.txUntil then s
  else match s.txNext with
    | none => s
    | some t => (s.startTx t).modCluster fun c => { c with tx := c.tx.erase t }

/-- Send a frame of the device's own. -/
def Chip.sendFrame (f : Frame) (s : Chip) : Chip := s.handFrame { frame := f }

/-- Forward a frame (R425). -/
def Chip.forwardFrame (f : Frame) (s : Chip) : Chip := s.handFrame { frame := f, forwarded := true }

/-- The serial number, fuse word 0x009. -/
def Chip.serial (s : Chip) : Nat := (s.fuseUsed 0x009).toNat

/-- Send a frame of the device's own cluster; frames that belong to no data flow carry sequence number 0. -/
def Chip.sendCluster (type dst : Nat) (payload : Bytes) (s : Chip) : Chip :=
  s.sendFrame { type := type, cluster := s.cluster.clusterId.toNat, src := s.cluster.position, dst := dst, seq := 0, payload := payload }

/-- The time in 1/256 ns that a stamp in a frame holds. -/
def stampTime (b : Bytes) : Nat := beNat (b.take 8) * 256 + byteAt b 8

/-! ## The device in its cluster -/

/-- The device is a formed member. -/
def Chip.formed (s : Chip) : Bool := s.cluster.state == .formed

/-- It is its cluster's time master. -/
def Chip.isMaster (s : Chip) : Bool := s.formed && s.cluster.master == s.serial

/-- The ring position of the master. -/
def Chip.masterPosition (s : Chip) : Nat := s.cluster.ring.findIdx fun m => m.serial == s.cluster.master

/-- A device of the ring counts as a member of this device's cluster: heard, not lost or gone, and agreeing in
firmware digest and life-cycle state (R431, R432). -/
def Chip.counts (s : Chip) (m : Member) : Bool :=
  m.heard && !m.lost && m.cluster == s.cluster.clusterId.toNat && m.state != 7 && m.digest == s.boot.digest && m.life == BitVec.ofNat 8 s.life.state.code

/-- The cluster barriers a program names. -/
def Seq.clusterBarriers (x : Seq) : List Nat :=
  (List.range 32).filter fun b => decide (16 ≤ b) && x.program.any fun p => p.2 == some (.barw (BitVec.ofNat 5 b))

/-- The device arm digest (R430). -/
def Chip.deviceArmDigest (s : Chip) : Bytes :=
  let on := (List.range 16).filter fun q => (s.sq q).state != .idle && (s.sq q).clusterBarriers != []
  if on = [] then List.replicate 32 0 else sha256 (on.flatMap fun q => be 1 q ++ pad 32 (s.sq q).digest)

/-! ## Time quality (R97) and pending launches (R101, R103) -/

/-- The device reads bad of itself (R97, R432). -/
def Chip.localBad (s : Chip) : Bool :=
  s.clk.refLost || (s.pll 0).state == .locking || (s.pll 0).state == .faulted || s.clk.ch18Refused || s.clk.refDisagrees

/-- The time quality, 0x2680:03: 0 local, 1 cluster-synchronised, 2 bad. (DEDUCED, log 53.) -/
def Chip.quality (s : Chip) : Nat :=
  let c := s.cluster
  if s.localBad || (s.formed && (c.timeBad || c.slewing)) then 2
  else if s.formed && (s.isMaster || decide (16 ≤ c.goodSyncs)) then 1
  else 0

/-- The quality lets launches of a scope run (Table 4.5). -/
def Chip.permits (s : Chip) (x : Stamp) : Bool := if x.flags.toNat % 16 = 0 then s.quality != 2 else s.quality == 1

/-- Pending launches whose scope is no longer permitted are held (R101, R103). -/
def Chip.markHeld (s : Chip) : Chip :=
  (List.range 16).foldl (fun s q =>
    match (s.sq q).launch with
    | some x => if s.permits x then s else s.modSq q fun y => { y with launchHeld := true }
    | none => s) s

end Sys2Proof.Machine
end

