-- ==== Sys2Proof/Machine/Signals.lean ====
section
/-! DEFINITION. The signals of the event router (R409 to R411): the level of every producer and the input of every
consumer, as functions of the state. -/

namespace Sys2Proof.Machine

/-- The island whose state a producer follows (Table 16.1). (DEDUCED, log 60.) -/
def producerIsland (n : Nat) : Nat :=
  if n ≤ 0x0A ∨ n = 0x0E then 1
  else if n ≤ 0x0C then 5
  else if n = 0x0D then 9
  else if n = 0x0F then 6
  else if n < 0x40 then 7
  else 5

/-- A producer may be high: its island runs (R409), and an event ball is not isolated (R41). -/
def Chip.producerLives (s : Chip) (n : Nat) : Bool :=
  n != 0 && s.runs (producerIsland n) && !(decide (n ≤ 8) && s.power.onVbat)

/-- The fail pulse of a unit lasts 20 ns from the strobe of its last vector with a counted fail (R409, Table 16.1). -/
def Chip.failPulse (s : Chip) (u : Nat) : Bool :=
  match (s.unit u).failAt with
  | some t => decide (t ≤ s.nowFine) && decide (s.nowFine < t + 20 * 25600)
  | none => false

/-- The level of a producer (Table 16.1): low where its island does not run, and at an event ball while VDD_AO is absent
(R41, R409). (DEDUCED, log 60.) -/
def Chip.producer (s : Chip) (n : Nat) : Bool :=
  s.producerLives n &&
    (if n ≤ 8 then s.router.evi.getLsbD (n - 1)
    else if n ≤ 0x0A then s.router.software.getLsbD (n - 9)
    else if n ≤ 0x0C then (s.lane (s.router.taps.getD (n - 0x0B) 0).toNat).input
    else if n = 0x0D then s.levels.chs.any fun c => c.2.short
    else if n = 0x0E then s.faultN
    else if n = 0x0F then s.quality == 2
    else if n < 0x20 then (s.siteAq (n - 0x10)).responded
    else if n < 0x30 then (s.siteAq (n - 0x20)).slowSeen
    else if n < 0x40 then s.failPulse (n - 0x30)
    else s.markerLevel ((n - 0x40) / 4) (n % 4))

/-- The input of a consumer: the producer it follows, inverted by bit 7 (R410); a route of 0x00 leaves it low. -/
def Chip.consumer (s : Chip) (c : Nat) : Bool := (s.producer ((s.route c).toNat % 128)).xor ((s.route c).getLsbD 7)

/-- An edge can come to a consumer: the island of its producer runs, without which the producer reads low and changes no
more (R409, R414). -/
def Chip.edgeAt (s : Chip) (c : Nat) : Bool := s.producerLives ((s.route c).toNat % 128)

/-- The level at ball EVO_k (Table 16.2), which is at high impedance while VDD_AO is absent (R41); Balls.lean has the others. -/
def Chip.evoBall (s : Chip) (k : Nat) : Option Bool := if s.power.onVbat then none else some (s.consumer (0x50 + k))

end Sys2Proof.Machine
end

