-- ==== Sys2Proof/Machine/Levels.lean ====
section
/-! DEFINITION. The level outputs (chapter 15): staged and active sets, load strobes, clears, the sine, the
PWM frame, shorts and calibration. -/

namespace Sys2Proof.Machine

/-! ## Clears and loads -/

/-- A clear is in force (R399): LVL_CLR_N, "LV clear" for as long as its input is high (R411), or the frame of 0x3900:11;
none acts before the LV runs (R401, R412). (DESIGN CHOICE, log 128.) -/
def Chip.clearing (s : Chip) : Bool :=
  s.runs 9 && (s.levels.pinClear || s.levels.eventClear || s.consumer 0x59 || s.levels.clearFrames != 0)

/-- No load is owed any more: one acknowledged before a clear gives way to it (R399, R400). -/
def LvCh.dropLoads (c : LvCh) : LvCh := { c with loadAt := none, loadNext := none }

/-- A clear is acknowledged: it takes the next boundary, and the loads before it are over (R399, R400). -/
def Chip.noteClear (s : Chip) : Chip :=
  s.modLevels fun l => { l with clearSeen := true, strobe := false, chs := (List.range 16).foldl (fun m k => m.upd {} k LvCh.dropLoads) l.chs }

/-- The LV island makes frames: from its entry to loading, while it runs (R392). -/
def Chip.levelsRun (s : Chip) : Bool := s.island 9 == .loading || s.island 9 == .running || s.island 9 == .reseatPending

/-- A load strobe is acknowledged by the LV, if it runs; a clear in force ignores it (R395, R400, R401, Table 2.12). -/
def Chip.loadStrobe (s : Chip) : Chip :=
  if s.runs 9 = false ∨ s.clearing then s else s.modLevels fun l => { l with strobe := true }

/-- At a boundary the channel takes its clear code, static (R399). (DEDUCED, log 48.) -/
def LvCh.takeClear (c : LvCh) : LvCh :=
  { c with active := { c.active with code := c.clearCode, mode := 0 }, atClear := true }

/-- At a boundary the whole staged set becomes active; a change to the sine sets the phase, and a write that came too late for
this boundary is owed the next (R394, R398). -/
def LvCh.load (now : Nat) (c : LvCh) : LvCh :=
  { c with
    acc := if c.active.mode = 0 ∧ c.staged.mode = 1 then c.startPhase.toNat else c.acc
    active := c.staged, atClear := false, stagedNew := false
    loadAt := ((c.loadAt.toList ++ c.loadNext.toList).filter fun t => decide (now < t)).head?, loadNext := none }

/-- The channel loads at this boundary: by a strobe in load mode 1, or by a write that an immediate channel accepted 20 ns before
it or earlier (R394). -/
def LvCh.loads (strobe : Bool) (now : Nat) (c : LvCh) : Bool :=
  (c.loadMode == 1 && strobe) || match c.loadAt with
    | some t => decide (t ≤ now)
    | none => false

/-- A write to the staged set of an immediate channel owes it a load from a tick on, beside one that is owed already (R394). -/
def LvCh.owe (t : Nat) (c : LvCh) : LvCh := if c.loadAt.isNone then { c with loadAt := some t } else { c with loadNext := some t }

/-! ## The frame (R393, R397, R405) -/

/-- The code of the frame, and whether it saturated (R397). -/
def LvCh.frameCode (c : LvCh) : Nat × Bool :=
  if c.active.mode = 1 then
    let v : Int := c.active.centre.toNat + sineScaled c.acc c.active.amplitude.toNat
    ((max 0 (min 65535 v)).toNat, decide (v < 0) || decide (65535 < v))
  else (c.active.code.toNat, false)

/-- k moves by at most 4 LSB per frame (R404). -/
def stepCal (now goal : Int) : Int := max (now - 4) (min (now + 4) goal)

/-- The supply correction: c × 3300 / V to the nearest, halves upward (R405). -/
def compensated (supply : Byte) (mv c : Nat) : Nat := if supply = 1 ∧ mv ≠ 0 then (2 * c * 3300 + mv) / (2 * mv) else c

/-- One frame of one channel. -/
def LvCh.frame (mv : Nat) (c : LvCh) : LvCh :=
  let f := c.frameCode
  let k := stepCal c.cal c.calNext
  let v : Int := compensated c.supply mv f.1 + k
  let m := (max 0 (min 65535 v)).toNat
  let t := c.r + m % 64
  { c with
    code := BitVec.ofNat 16 f.1, cal := k
    acc := if c.active.mode = 1 then (c.acc + c.active.frequency.toNat) % 2 ^ 32 else c.acc
    saturated := c.saturated || f.2 || decide (v < 0) || decide (65535 < v)
    r := if t ≥ 64 then t - 64 else t
    h := m / 64 + (if t ≥ 64 then 1 else 0)
    short := c.short && !c.restore, restore := false }

/-- `PWM_FRAME`: a frame boundary and the frame that begins there (R392 to R405). -/
def pwmFrame (s : Chip) : Chip :=
  if s.levelsRun = false then s
  else
    let l := s.levels
    -- the frame of a clear of 0x3900:11 ends at this boundary
    let force := (s.modLevels fun l => { l with clearFrames := if l.clearFrames = 1 then 0 else l.clearFrames }).clearing
    let now := s.clk.ticks
    let ch (k : Nat) : LvCh :=
      let c := s.lv k
      let c := if force then c.takeClear.dropLoads else if l.clearSeen then c.takeClear else c
      let c := if !force && c.loads l.strobe now then c.load now else c
      c.frame l.mv
    let byStrobe : Bool := !force && l.strobe && (List.range 16).any fun k => (s.lv k).loadMode == 1
    s.modLevels fun l =>
      { l with
        chs := (List.range 16).foldl (fun m k => m.set {} k (ch k)) l.chs
        strobe := false, clearSeen := false, clearFrames := l.clearFrames - 1, mvNow := l.mv
        loads := if byStrobe then satAdd 32 l.loads 1 else l.loads }

/-- `PWM_FRAME` (R393). -/
def execPwmFrame (s : State) : Host.Outcome State Fault Refusal := next s (pwmFrame s.chip)

/-! ## Staged sets -/

/-- The sub-index and size of a staged field (Table 15.3). -/
def stagedSub : StagedField → Nat × Nat
  | .code => (2, 2) | .mode => (5, 1) | .centre => (6, 2) | .amplitude => (7, 2) | .frequency => (8, 4)

/-- The range check of a staged field (R398, Table 15.3). -/
def stagedOk (f : StagedField) (v : Nat) : Bool :=
  match f with
  | .mode => decide (v ≤ 1) | .amplitude => decide (v ≤ 32768) | .frequency => decide (v ≤ 0x40000000) | _ => true

/-- A staged set with one field written. -/
def LvSet.put (f : StagedField) (v : Nat) (x : LvSet) : LvSet :=
  match f with
  | .code => { x with code := BitVec.ofNat 16 v }
  | .mode => { x with mode := BitVec.ofNat 8 v }
  | .centre => { x with centre := BitVec.ofNat 16 v }
  | .amplitude => { x with amplitude := BitVec.ofNat 16 v }
  | .frequency => { x with frequency := BitVec.ofNat 32 v }

/-- A write to the staged set of the session's channel; in immediate mode it loads at the first boundary
20 ns later, but not during a clear, nor before the LV runs (R394, R400, R401). (DESIGN CHOICE, log 128.) -/
def stageLevel (f : StagedField) (v : Nat) (r : Req) (s : Chip) : Chip × Reply :=
  let k := s.sel r.dest.session 0x3900 1
  (s.modLv k fun c =>
    let c := { c with staged := c.staged.put f v, stagedNew := true }
    if c.loadMode = 0 ∧ s.runs 9 ∧ s.clearing = false then c.owe (s.clk.ticks + 8) else c, ok)

/-- `LEVEL_STAGED_WRITE` (R394). -/
def execLevelStagedWrite (p : Path) (tag : Word16) (field : StagedField) (value : Word32) (s : State) : Host.Outcome State Fault Refusal :=
  let x := stagedSub field
  next s (hostWrite p tag 0x3900 x.1 (le x.2 value.toNat) (fun _ _ => if stagedOk field (value.toNat % 256 ^ x.2) then 0 else 2)
    (stageLevel field (value.toNat % 256 ^ x.2)) s.chip)

/-! ## Strobes and clears -/

/-- What the filters of R396 recognise: never below 50 ns, always from 200 ns; between, either. -/
def Chip.recognised (lowNs : Nat) (s : Chip) : Bool × Chip :=
  if lowNs < 50 then (false, s) else if lowNs ≥ 200 then (true, s) else s.drawBool

/-- `LVL_LOAD_N_FALL` (R395, R396). -/
def lvlLoadFall (lowNs : Nat) (s : Chip) : Chip :=
  let d := s.recognised lowNs
  if d.1 then d.2.loadStrobe else d.2

/-- `LVL_LOAD_N_FALL` (R395). -/
def execLvlLoadNFall (lowNs : Nat) (s : State) : Host.Outcome State Fault Refusal := next s (lvlLoadFall lowNs s.chip)

/-- `LV_LOAD_EVENT`: the consumer "LV load" asserts (R395), from a producer that can change, at an LV that runs (R409, R412). -/
def execLvLoadEvent (s : State) : Host.Outcome State Fault Refusal :=
  next s (if s.chip.edgeAt 0x58 then s.chip.loadStrobe else s.chip)

/-- The load strobe object: refused during a clear (R400); without effect before the LV runs (R401). (DESIGN CHOICE, log 128.) -/
def strobeCommand (_ : Req) (s : Chip) : Chip × Reply := if s.clearing then (s, bad 0x9001) else (s.loadStrobe, ok)

/-- `LOAD_STROBE_COMMAND` (R395). -/
def execLoadStrobeCommand (p : Path) (tag : Word16) (s : State) : Host.Outcome State Fault Refusal :=
  next s (hostCommand p tag 0x3900 0x10 [1] strobeCommand s.chip)

/-- `LVL_CLR_N_ASSERT`: a clear is in force while the level lasts; before the LV runs it is ignored, and counts from then on
(R399, R401). -/
def lvlClear (lowNs : Nat) (s : Chip) : Chip :=
  let d := s.recognised lowNs
  if d.1 then
    let s := d.2.modLevels fun l => { l with pinClear := true }
    if s.runs 9 then s.noteClear else s
  else d.2

/-- `LVL_CLR_N_ASSERT` (R399). -/
def execLvlClrNAssert (lowNs : Nat) (s : State) : Host.Outcome State Fault Refusal := next s (lvlClear lowNs s.chip)

/-- `LVL_CLR_N_RELEASE` (R400). -/
def execLvlClrNRelease (s : State) : Host.Outcome State Fault Refusal :=
  next s (s.chip.modLevels fun l => { l with pinClear := false })

/-- `LV_CLEAR_EVENT`: the consumer "LV clear" asserts or deasserts (R399). A lasting level is read at its input (R411); a pulse, of
a producer that can change, is in force until the event of its end. An LV that does not run ignores it (R412). (DESIGN CHOICE, log 128.) -/
def lvClearEvent (asserted : Bool) (s : Chip) : Chip :=
  if asserted = false then s.modLevels fun l => { l with eventClear := false }
  else if s.runs 9 = false ∨ (s.consumer 0x59 = false ∧ s.edgeAt 0x59 = false) then s
  else s.noteClear.modLevels fun l => { l with eventClear := !s.consumer 0x59 }

/-- `LV_CLEAR_EVENT` (R399). -/
def execLvClearEvent (asserted : Bool) (s : State) : Host.Outcome State Fault Refusal := next s (lvClearEvent asserted s.chip)

/-- A clear of one frame: in force from its acceptance to the end of the frame that begins at its boundary (R399); the LV is at
its clear codes before it runs (R401). (DESIGN CHOICE, log 128.) -/
def clearAll (_ : Req) (s : Chip) : Chip × Reply :=
  (if s.runs 9 then s.noteClear.modLevels fun l => { l with clearFrames := 2 } else s, ok)

/-- `CLEAR_ALL` (R399). -/
def execClearAll (p : Path) (tag : Word16) (s : State) : Host.Outcome State Fault Refusal :=
  next s (hostCommand p tag 0x3900 0x11 [1] clearAll s.chip)

/-- After a change of levels, a rise at the level-sensitive LV clear is acknowledged (R411); its level itself is read where a clear
counts (`Chip.clearing`). (DEDUCED, log 60.) -/
def Chip.follow (before s : Chip) : Chip :=
  if s.consumer 0x59 && !before.consumer 0x59 && s.runs 9 then s.noteClear else s

/-! ## Shorts and calibration -/

/-- `SHORT_LATCH` (R402): the pad goes off; the record names the channel. -/
def shortLatch (k : Nat) (s : Chip) : Chip :=
  if s.levelsRun = false ∨ (s.lv k).short then s
  else
    Chip.follow s ((s.modLv k fun c => { c with short := true, restore := false }).record 0x9001 9 (le 1 k))

/-- `SHORT_LATCH` (R402). -/
def execShortLatch (ch : Fin 16) (s : State) : Host.Outcome State Fault Refusal := next s (shortLatch ch.val s.chip)

/-- Restoring the session's channel takes effect at the next boundary (R403). -/
def restoreChannel (r : Req) (s : Chip) : Chip × Reply :=
  let k := s.sel r.dest.session 0x3900 1
  if (s.lv k).short then (s.modLv k fun c => { c with restore := true }, ok) else (s, bad 0x9002)

/-- `RESTORE_CHANNEL` (R403). -/
def execRestoreChannel (p : Path) (tag : Word16) (s : State) : Host.Outcome State Fault Refusal :=
  next s (hostCommand p tag 0x3900 0x0E [1] restoreChannel s.chip)

/-- `LEVEL_CALIBRATION_PASS`: a pass of all channels ends with their corrections, -64 to 63 (R404). -/
def calibrationPass (measured : List Int) (s : Chip) : Chip :=
  if s.levelsRun = false then s
  else
    let s := (List.range 16).foldl (fun s k => s.modLv k fun c => { c with calNext := max (-64) (min 63 (measured.getD k c.calNext)) }) s
    s.modBackground fun b => { b with activities := b.activities.upd {} 5 fun a =>
      { a with state := if a.state = .behind then .behind else .idle, progress := 0, lastMs := s.upMs % 2 ^ 32, completions := satAdd 32 a.completions 1 } }

/-- `LEVEL_CALIBRATION_PASS` (R404). -/
def execLevelCalibrationPass (measured : List Int) (s : State) : Host.Outcome State Fault Refusal := next s (calibrationPass measured s.chip)

/-- `VDD_IO33_MEASURE`: every 1 ms; in effect from the next boundary (R405). -/
def execVddIo33Measure (mv : Nat) (s : State) : Host.Outcome State Fault Refusal :=
  next s (s.chip.modLevels fun l => { l with mv := mv % 65536 })

/-- The LV island enters loading: clear codes, dither and shorts at their start (R393, R401). -/
def Chip.startLevels (s : Chip) : Chip :=
  s.modLevels fun l =>
    { l with
      chs := (List.range 16).foldl (fun m k =>
        let c := SMap.get m {} k
        m.set {} k { ({} : LvCh) with
          loadMode := c.loadMode, clearCode := c.clearCode, startPhase := c.startPhase, supply := c.supply
          active := { code := c.clearCode }, code := c.clearCode, calNext := c.calNext, cal := c.cal }) l.chs
      strobe := false, clearSeen := false, eventClear := false, clearFrames := 0 }

/-- The first offset calibration, which completes in loading (R401): a correction of -64 to 63 for each channel. (DESIGN CHOICE, log 128.) -/
def Chip.firstCalibration (s : Chip) : Chip :=
  let d := s.drawBytes 16
  calibrationPass (d.1.map fun b => (b.toNat % 128 : Int) - 64) d.2

end Sys2Proof.Machine
end

