-- ==== Sys2Proof/Machine/Router.lean ====
section
/-! DEFINITION. The event router (chapter 16): producer and consumer levels, routes and lane taps, software
events, counters and marks. An edge at an edge-sensitive consumer is a command of its own; a level-sensitive
consumer follows its level. -/

namespace Sys2Proof.Machine

/-! ## Changes of level (R409, R411) -/

/-- The EVI filter of 10 ns passes a level of so many ps: never below 10.0 ns, always from 14.0 ns on, by which time the producer
follows the ball (Tables 2.5 and 16.3). (DESIGN CHOICE, log 127.) -/
def Chip.eviPasses (s : Chip) (k width : Nat) : Bool :=
  if 14000 ≤ width then true else if width < 10000 then false else Config.filterPasses s.nowFine (64 + k) width

/-- `EVI_OR_LANE_TAP_CHANGE`: the producer follows the ball after its filter of 10 ns, or the lane, whose glitch filter acts first; a
lane is held during its sealed play (Table 2.5, R49, R334, R409). `width` is how long the ball keeps the level, in ps. (DESIGN CHOICE, log 114.) -/
def tapChange (x : EventSource) (level : Bool) (width : Nat) (s : Chip) : Chip :=
  Chip.follow s (match x with
    | .evi k => if s.eviPasses k.val width = false then s else s.modRouter fun r => { r with evi := if level then r.evi ||| BitVec.twoPow 8 k.val else r.evi &&& ~~~(BitVec.twoPow 8 k.val) }
    | .laneTap t =>
      let n := (s.router.taps.getD t.val 0).toNat
      s.modLane n fun l => if l.sealedIn ∨ s.passes n width = false then l else { l with input := level })

/-- `EVI_OR_LANE_TAP_CHANGE` (R409). -/
def execEviOrLaneTapChange (source : EventSource) (level : TapLevel) (s : State) : Host.Outcome State Fault Refusal :=
  next s (tapChange source level.level level.widthPs s.chip)

/-! ## Routes and lane taps (R416, R417) -/

/-- The sequencer whose state locks a consumer's route. -/
def lockingSeq (c : Nat) : Option Nat := if c < 0x40 then some (c / 4) else if c < 0x50 then some (c - 0x40) else none

/-- A consumer's route is locked: its sequencer is not idle. -/
def Chip.routeLocked (s : Chip) (c : Nat) : Bool :=
  match lockingSeq c with
  | some q => (s.sq q).state != .idle
  | none => false

/-- Set a route. (DEDUCED, log 60.) -/
def Chip.setRoute (c : Nat) (b : Byte) (s : Chip) : Chip :=
  if s.route c = b then s
  else s.modRouter fun r => { r with routes := r.routes.set 0 c b, changes := satAdd 32 r.changes 1 }

/-- Write a whole list of routes from consumer `c` on. -/
def Chip.setRoutes : Nat → Bytes → Chip → Chip
  | _, [], s => s
  | c, b :: bs, s => (s.setRoute c b).setRoutes (c + 1) bs

/-- The route of the selected consumer. -/
def writeRoute (b : Byte) (r : Req) (s : Chip) : Chip × Reply :=
  let c := s.sel r.dest.session 0x2700 1
  if s.routeLocked c ∧ s.route c ≠ b then (s, bad 3) else (Chip.follow s (s.setRoute c b), ok)

/-- `ROUTE_WRITE` (R416). -/
def execRouteWrite (p : Path) (tag : Word16) (route : Byte) (s : State) : Host.Outcome State Fault Refusal :=
  next s (hostCommand p tag 0x2700 2 [route] (writeRoute route) s.chip)

/-- All routes, or none. -/
def writeRoutes (b : Bytes) (_ : Req) (s : Chip) : Chip × Reply :=
  if (List.range 96).any fun c => s.routeLocked c && s.route c != b.getD c 0 then (s, bad 3)
  else (Chip.follow s (s.setRoutes 0 (b.take 96)), ok)

/-- `ROUTE_TABLE_WRITE` (R416). -/
def execRouteTableWrite (p : Path) (tag : Word16) (routes : Bytes) (s : State) : Host.Outcome State Fault Refusal :=
  next s (hostCommand p tag 0x2700 3 routes (writeRoutes routes) s.chip)

/-- A lane tap. -/
def writeTap (t : Nat) (b : Byte) (_ : Req) (s : Chip) : Chip × Reply :=
  let used : Bool := (List.range 0x50).any fun c => s.routeLocked c && (s.route c).toNat % 128 == 0x0B + t
  if used ∧ s.router.taps.getD t 0 ≠ b then (s, bad 3)
  else (Chip.follow s (s.modRouter fun r => { r with taps := r.taps.set t b }), ok)

/-- `LANE_TAP_WRITE` (R417). -/
def execLaneTapWrite (p : Path) (tag : Word16) (tap : Fin 2) (lane : Byte) (s : State) : Host.Outcome State Fault Refusal :=
  next s (hostWrite p tag 0x2700 (8 + tap.val) [lane] (fun _ _ => if lane.toNat < 64 then 0 else 2) (writeTap tap.val lane) s.chip)

/-! ## Software events, counters and marks (R418) -/

/-- Put a software event at a level; a pulse under way is over. -/
def Chip.setEvent (e : Nat) (level : Bool) (s : Chip) : Chip :=
  Chip.follow s (s.modRouter fun r =>
    { r with software := if level then r.software ||| BitVec.twoPow 2 e else r.software &&& ~~~(BitVec.twoPow 2 e), pulses := r.pulses.erase e })

/-- `SOFTWARE_EVENT_LOW` (R418). -/
def execSoftwareEventLow (p : Path) (tag : Word16) (ev : Fin 2) (s : State) : Host.Outcome State Fault Refusal :=
  next s (hostCommand p tag 0x2700 (6 + ev.val) [0] (fun _ s => (s.setEvent ev.val false, ok)) s.chip)

/-- `SOFTWARE_EVENT_HIGH` (R418). -/
def execSoftwareEventHigh (p : Path) (tag : Word16) (ev : Fin 2) (s : State) : Host.Outcome State Fault Refusal :=
  next s (hostCommand p tag 0x2700 (6 + ev.val) [1] (fun _ s => (s.setEvent ev.val true, ok)) s.chip)

/-- A pulse begins, unless the event is high. -/
def Chip.pulseEvent (e : Nat) (s : Chip) : Chip :=
  if s.router.software.getLsbD e then s
  else (s.setEvent e true).modRouter fun r => { r with pulses := r.pulses.put e (s.clk.ticks + 40) }

/-- `SOFTWARE_EVENT_PULSE` (R418). -/
def execSoftwareEventPulse (p : Path) (tag : Word16) (ev : Fin 2) (s : State) : Host.Outcome State Fault Refusal :=
  next s (hostCommand p tag 0x2700 (6 + ev.val) [2] (fun _ s => (s.pulseEvent ev.val, ok)) s.chip)

/-- `SOFTWARE_PULSE_END` (R418). -/
def execSoftwarePulseEnd (ev : Fin 2) (s : State) : Host.Outcome State Fault Refusal :=
  next s (if (s.chip.router.pulses.find? ev.val).isSome then s.chip.setEvent ev.val false else s.chip)

/-- `COUNTER_EDGE`: an edge comes only from a producer that can change, to an AO that runs (R409, R412, R418). -/
def execCounterEdge (c : Fin 4) (s : State) : Host.Outcome State Fault Refusal :=
  next s (if s.chip.runs 1 ∧ s.chip.edgeAt (0x5B + c.val) then s.chip.modRouter fun r => { r with counters := r.counters.upd 0 c.val (satAdd 32 · 1) } else s.chip)

/-- `COUNTER_CLEAR` (R418). -/
def execCounterClear (p : Path) (tag : Word16) (c : Fin 4) (s : State) : Host.Outcome State Fault Refusal :=
  next s (hostCommand p tag 0x2700 (0x0A + c.val) (le 4 0) (fun _ s => (s.modRouter fun r => { r with counters := r.counters.set 0 c.val 0 }, ok)) s.chip)

/-- An edge at the mark consumer: a record, at most one in 1 ms (R412, R418). (DEDUCED, log 60.) -/
def markEdge (s : Chip) : Chip :=
  let soon : Bool := match s.router.lastMark with
    | some t => !s.passedMs t 1
    | none => false
  if s.runs 1 = false ∨ s.edgeAt 0x5F = false then s
  else if soon then s.modRouter fun r => { r with suppressed := satAdd 32 r.suppressed 1 }
  else (s.record 0x1012 1 (le 4 s.router.suppressed)).modRouter fun r => { r with suppressed := 0, lastMark := some s.clk.ticks }

/-- `MARK_EDGE` (R418). -/
def execMarkEdge (s : State) : Host.Outcome State Fault Refusal := next s (markEdge s.chip)

end Sys2Proof.Machine
end

