-- ==== Sys2Proof/Machine/Recording.lean ====
section
/-! DEFINITION. The event recorder (R465 to R475) and the conductor's trace (R476 to R482). -/

namespace Sys2Proof.Machine

/-! ## The record array -/

/-- Slots from here on are protected (R470). -/
def protectedBase : Nat := 65472

/-- Slots of the array (R465). -/
def arraySlots : Nat := 65536

/-- The codes Table 19.3 and R508 mark protected. -/
def protectedCode (code : Nat) : Bool :=
  [0x1007, 0x1009, 0x100A, 0x100B, 0x100C, 0x100D, 0x100E, 0x100F, 0x1013, 0x3002, 0xB005, 0xB006].contains code

/-- The 32 bytes of a record in slot `n`, accepted at `us` (R466). -/
def recordBytes (n us : Nat) (x : RecordIn) : Bytes :=
  let flags := (if x.lost = 0 then 0 else 1) + (if x.code = 0x0005 then 2 else 0) + (if n ≥ protectedBase then 4 else 0)
  let b := le 4 n ++ le 2 x.code ++ le 1 (x.island + 16 * x.unit) ++ le 1 flags ++ le 8 us ++ le 2 x.lost ++ pad 12 x.payload
  b ++ le 2 (crc16 b)

/-- Program the next slot; a torn record leaves it void (R468). -/
def RecArray.program (torn : Bool) (us : Nat) (x : RecordIn) (a : RecArray) : RecArray :=
  if torn then { a with voids := a.voids ++ [a.next], next := a.next + 1 }
  else { a with slots := a.slots.put a.next (recordBytes a.next us x), next := a.next + 1 }

/-- The recorder-full record (R470). -/
def fullRecord : RecordIn := { code := 0x1013, island := 1, payload := le 4 (protectedBase - 1) }

/-- A record reaches the array: it takes the next slot it may take, or is counted; the first unprotected
record after the ordinary slots writes one recorder-full record (R470). -/
def RecArray.accept (torn : Bool) (us : Nat) (x : RecordIn) (a : RecArray) : RecArray :=
  if a.next < protectedBase then a.program torn us x
  else if protectedCode x.code then
    if a.next < arraySlots then a.program torn us x else { a with notWritten := satAdd 32 a.notWritten 1 }
  else
    let a := if a.fullSaid then a
      else if a.next < arraySlots then { a.program false us fullRecord with fullSaid := true }
      else { a with fullSaid := true }
    { a with notWritten := satAdd 32 a.notWritten 1 }

/-- CH_12, the one channel that faults when full, is found full: the AQ is faulted and a channel-overrun record is written (R22,
Table 1.5). -/
def Chip.channelOverrun (s : Chip) : Chip := if s.runs 7 then (s.record 0x0002 7 (le 1 12)).failIsland 7 .faulted else s

/-- The AO takes the oldest record from CH_16 and commits it (R468, R469). (DEDUCED, log 28.) -/
def commitOldest (torn : Bool) (s : State) : State :=
  match s.chip.recorder.queue with
  | [] => s
  | x :: rest =>
    let a := s.array.accept torn s.chip.us x
    { s with
      array := a
      chip := s.chip.modRecorder fun r =>
        Recorder.admitHeld { r with
          queue := rest
          lost := satAdd 32 r.lost x.lost
          lastReset := if x.code = 0x1001 ∧ torn = false ∧ a.next = s.array.next + 1 then s.array.next else r.lastReset } }

/-- `RECORD_COMMIT`, with the record of a channel overrun where one has just been found (R22, R468). (DEDUCED, log 28.) -/
def recordCommit (torn overrun : Bool) (s : State) : State :=
  commitOldest torn (if overrun then { s with chip := s.chip.channelOverrun } else s)

/-- `RECORD_COMMIT` (R468). -/
def execRecordCommit (run : CommitRun) (s : State) : Host.Outcome State Fault Refusal := .next (recordCommit run.torn run.overrun s)

/-- `OVERLOAD_SUMMARY_DUE` (R471, rule 3): 3,600 s after a category's last summary, with a counter that is
not zero, the summary is written. -/
def summaryDue (category : Fin 6) (s : Chip) : Chip :=
  let cat := category.val + 1
  let n := s.recorder.counters.get 0 cat
  match s.recorder.lastSummary.find? cat with
  | some t => if s.us ≥ t + 3600000000 ∧ n ≠ 0 then s.summary cat n else s
  | none => s

/-- `OVERLOAD_SUMMARY_DUE` (R471). -/
def execOverloadSummaryDue (category : Fin 6) (s : State) : Host.Outcome State Fault Refusal :=
  next s (summaryDue category s.chip)

/-- The records in up to `n` slots from `pos`, void and unprogrammed slots omitted (R473). -/
def RecArray.readSlots (a : RecArray) (pos n : Nat) : Bytes :=
  (List.range n).flatMap fun i => a.slots.get [] (pos + i)

/-- The answer of a read of 0x2900:03 (R473): up to 64 slots from the session's read position, which
advances past the last slot examined. -/
def readRecorder (a : RecArray) (r : Req) (s : Chip) : Chip × ReadReply :=
  let pos := s.sel r.dest.session 0x2900 2
  let n := min 64 (a.next - pos)
  (s.setSel r.dest.session 0x2900 2 (pos + n), .data (a.readSlots pos n))

/-- `RECORDER_READ` (R473). -/
def execRecorderRead (p : Path) (s : State) : Host.Outcome State Fault Refusal :=
  next s (hostRead p 0 0x2900 3 (readRecorder s.array) s.chip)

/-! ## Trace -/

/-- The big-endian field of `n` bytes at offset `i` (R161). -/
def beField (b : Bytes) (i n : Nat) : Nat := beNat (slice b i n)

/-- The trace share of a partition in bytes (Table 6.8, R476). -/
def Chip.shareSize (s : Chip) (p : Nat) : Nat := if (s.part p).present then 1024 * beField (s.part p).desc 2 2 else 0

/-- Where a partition's share begins: the shares lie in ascending partition ID (R476). -/
def Chip.shareBase (s : Chip) (p : Nat) : Nat := ((List.range p).map s.shareSize).sum

/-- The 48-bit cycle counter: CI clocks since chip reset, at the nominal 400 MHz (R478). -/
def Chip.cycles (s : Chip) : Nat := (s.clk.ticks - s.clk.startTick) % 2 ^ 48

/-- A packet of Table 19.4. (DEDUCED, log 30.) -/
def tracePacket (type info delta payload : Nat) : Bytes := le 1 type ++ le 1 info ++ le 2 delta ++ le 4 payload

/-- Write a packet into a share of `cap` packets, over the oldest (R477). -/
def Partition.putPacket (cap : Nat) (b : Bytes) (q : Partition) : Partition :=
  { q with packets := (q.packets ++ [b]).drop (q.packets.length + 1 - cap), written := q.written + 1, inCycle := q.inCycle + 1, sinceSync := q.sinceSync + 1 }

/-- Write a SYNC (Table 19.5). -/
def Partition.putSync (cap cycle : Nat) (q : Partition) : Partition :=
  { q.putPacket cap (tracePacket 0x01 0 (cycle / 2 ^ 32) (cycle % 2 ^ 32)) with lastCycle := cycle, sinceSync := 0 }

/-- A packet arises in a partition's trace at a CI cycle (R478, R480): dropped and counted when the trace
unit holds 16, else written after a LOST and a SYNC where they are due. -/
def Partition.trace (cap type info payload cycle : Nat) (q : Partition) : Partition :=
  if cap = 0 then q
  else
    let q := if cycle = q.lastCycle then q else { q with inCycle := 0 }
    if q.inCycle ≥ 16 then { q with dropped := satAdd 32 q.dropped 1, lostRun := satAdd 32 q.lostRun 1 }
    else
      let q := if cycle - q.lastCycle > 65535 then q.putSync cap cycle else q
      let q := if q.lostRun = 0 then q
        else { q.putPacket cap (tracePacket 0x08 0 (cycle - q.lastCycle) q.lostRun) with
          lostRun := 0, lastCycle := cycle }
      let q : Partition := { q.putPacket cap (tracePacket type info (cycle - q.lastCycle) payload) with lastCycle := cycle }
      if q.sinceSync ≥ 1024 then q.putSync cap cycle else q

/-- A packet of a running partition (R477). (DEDUCED, log 30.) (DESIGN CHOICE, log 140.) -/
def Chip.tracePut (p type info payload cycle : Nat) (s : Chip) : Chip :=
  if (s.part p).running then s.modPart p (Partition.trace (s.shareSize p / 8) type info payload cycle) else s

/-- A partition starts: its share is cleared, and PARTITION START and SYNC are its first packets (R477). -/
def Chip.traceStart (p info : Nat) (s : Chip) : Chip :=
  let cap := s.shareSize p / 8
  let c := s.cycles
  s.modPart p fun q =>
    let q := { q with packets := [], written := 0, dropped := 0, lostRun := 0, inCycle := 0, sinceSync := 0, lastCycle := c }
    if cap = 0 then q else (q.putPacket cap (tracePacket 0x02 info 0 q.entry)).putSync cap c

/-- A bit of the enable mask 0x2A00:07. -/
def Chip.traceOn (s : Chip) (bit : Nat) : Bool := s.ci.traceEnable.getLsbD bit

/-- `TRACE_SOFTWARE_WRITE` (R479). -/
def traceSoftware (p : Fin 8) (ch : Fin 64) (value : Word32) (s : Chip) : Chip :=
  if s.traceOn 2 then s.tracePut p.val 0x06 ch.val value.toNat (max (s.part p.val).lastCycle s.cycles) else s

/-- `TRACE_SOFTWARE_WRITE` (R479). -/
def execTraceSoftwareWrite (partition : Fin 8) (channel : Fin 64) (value : Word32) (s : State) : Host.Outcome State Fault Refusal :=
  next s (traceSoftware partition channel value s.chip)

/-- The type and enable bit of the packets that control flow makes (Table 19.5). -/
def traceKindPacket : TraceKind → Nat × Nat
  | .exception => (0x03, 0)
  | .ret => (0x04, 0)
  | .branch => (0x05, 1)

/-- `TRACED_EXCEPTION_OR_BRANCH` (R478): `cycles` CI clocks after the share's previous packet. -/
def traceFlow (p : Fin 8) (kind : TraceKind) (info : Byte) (payload : Word32) (cycles : Nat) (s : Chip) : Chip :=
  if s.traceOn (traceKindPacket kind).2 then
    s.tracePut p.val (traceKindPacket kind).1 (if kind = .exception then info.toNat else 0) payload.toNat ((s.part p.val).lastCycle + cycles)
  else s

/-- `TRACED_EXCEPTION_OR_BRANCH` (R478, R480). -/
def execTracedExceptionOrBranch (partition : Fin 8) (kind : TraceKind) (info : Byte) (payload : Word32) (cycles : Nat) (s : State) :
    Host.Outcome State Fault Refusal :=
  next s (traceFlow partition kind info payload cycles s.chip)

/-- The answer of a read of 0x2A00:06 (R481): the number of its first packet, then packets in order, 511
at most over SPI and 8,191 over USDO; the position advances past the last. -/
def readTrace (r : Req) (s : Chip) : Chip × ReadReply :=
  let n := r.dest.session
  let q := s.part (s.sel n 0x2A00 1)
  let oldest := q.written - q.packets.length
  let first := max (s.sel n 0x2A00 5) oldest
  let lim := match r.dest.path with
    | .can _ _ => 8191
    | .spi _ => 511
  let out := (q.packets.drop (first - oldest)).take lim
  (s.setSel n 0x2A00 5 (first + out.length), .data (le 8 first ++ out.flatten))

/-- `TRACE_READ` (R481). -/
def execTraceRead (p : Path) (s : State) : Host.Outcome State Fault Refusal :=
  next s (hostRead p 0 0x2A00 6 readTrace s.chip)

end Sys2Proof.Machine
end

