-- ==== Sys2Proof/Machine/Partitions.lean ====
section
/-! DEFINITION. Partitions and their watchdog slots (R447), and the access-fault exception (R20, R164, R367). -/

namespace Sys2Proof.Machine

/-- The owner of a watchdog slot: the lowest partition of the running image that names it (R447). -/
def Chip.slotOwner (s : Chip) (i : Nat) : Option Nat :=
  (List.range 8).find? fun p => (s.part p).present && (descSlots (s.part p).desc).testBit i

/-- The slots a partition owns. -/
def Chip.slotsOf (s : Chip) (p : Nat) : List Nat := (List.range 16).filter fun i => s.slotOwner i == some p

/-- Change the slots a partition owns. -/
def Chip.modSlots (p : Nat) (f : Slot → Slot) (s : Chip) : Chip :=
  (s.slotsOf p).foldl (fun t i => t.modWatchdog fun w => { w with slots := w.slots.upd {} i fun x => f { x with owner := BitVec.ofNat 8 p } }) s

/-- A partition stops: its slots are suspended (R454, R456, R488). -/
def Chip.stopPartition (p : Nat) (s : Chip) : Chip :=
  (s.modPart p fun x => { x with running := false }).modSlots p fun x => { x with state := .suspended, good := false, bad := false, early := false }

/-- A running partition stops on an access fault, and the watchdog takes it at the end of the period (R164, R453). -/
def Chip.accessFault (p : Nat) (s : Chip) : Chip :=
  if (s.part p).running = false then s
  else
    let s := (s.stopPartition p).modSlots p fun x => { x with state := .inactive }
    (s.record 0x2001 2 (le 1 p ++ le 1 1) p).modWatchdog fun w => { w with stopped := w.stopped ++ [p] }

/-- The access-fault exception of the conductor: its partition stops, and the program counter is that of a handler the spec does
not place: free (R20, R164, R367). (PRESUMED, log 99.) -/
def Chip.coreTrap (part : Option Nat) (s : Chip) : Chip :=
  let s := match part with
    | some p => s.accessFault p
    | none => s
  let d := s.drawBytes 4
  d.2.modCi fun c => { c with pc := BitVec.ofNat 32 (leNat d.1) }

end Sys2Proof.Machine
end

