-- ==== Sys2Proof/Machine/Barriers.lean ====
section
/-! DEFINITION. Barriers (R255, R438 to R441): participants, local releases, ARRIVE frames, and the master's
completion of a cluster barrier. -/

namespace Sys2Proof.Machine

/-- A waiting sequencer resumes at its first boundary at or after a time (R255). -/
def Chip.resume (q due : Nat) (s : Chip) : Chip :=
  (s.emitWaits q (s.holdsUntil q due)).modSq q fun x => { x.nextOp with state := .running, barrier := none }

/-- A sequencer takes part in barrier `b`: armed or running, with BARW `b` in its program (R255). One that stopped has left,
and takes part again once it reads armed. (DEDUCED, log 26.) -/
def Seq.participates (x : Seq) (b : Nat) : Bool :=
  (match x.state with
   | .armed => true | .launchPending => true | .running => true | .waiting => true
   | _ => false) && x.program.any fun p => p.2 == some (.barw (BitVec.ofNat 5 b))

/-- The participants of a barrier on this device, one that is leaving left out. -/
def Chip.participants (s : Chip) (b : Nat) (leaver : Option Nat) : List Nat :=
  (List.range 16).filter fun q => leaver != some q && (s.sq q).participates b

/-- Every sequencer that waits at a barrier resumes. -/
def Chip.releaseBarrier (b due : Nat) (s : Chip) : Chip :=
  (List.range 16).foldl (fun s q => if (s.sq q).barrier = some b then s.resume q due else s) s

/-- Change a cluster barrier. -/
def Chip.modBarrier (b : Nat) (f : Barrier → Barrier) (s : Chip) : Chip :=
  s.modCluster fun c => { c with barriers := c.barriers.upd {} b f }

/-- Cluster barrier `b`. -/
def Chip.barrier (s : Chip) (b : Nat) : Barrier := s.cluster.barriers.get {} b

/-- The cluster barrier mask of the device's heartbeat (Table 17.5). -/
def Chip.barrierMask (s : Chip) : Nat := ((List.range 16).map fun i => if s.participants (16 + i) none = [] then 0 else 2 ^ i).sum

/-- The ring positions whose ARRIVE completes barrier `b` (R438). -/
def Chip.awaited (s : Chip) (b : Nat) : List Nat :=
  let c := s.cluster
  (List.range c.ring.length).filter fun p =>
    if p = c.position then s.barrierMask.testBit (b - 16)
    else
      let m := c.ring.getD p {}
      s.counts m && m.barriers.testBit (b - 16)

/-- Digests that are not all zero are equal (R439). -/
def digestsAgree (l : List Arrival) : Bool :=
  match (l.map (·.digest)).filter fun d => d.any (· != 0) with
  | [] => true
  | d :: ds => ds.all (· == d)

/-- Barrier `b` holds an ARRIVE of every member it waits for, not all of them withdrawn. -/
def Chip.barrierFull (s : Chip) (b : Nat) : Bool :=
  let l := (s.barrier b).arrivals
  (s.awaited b).all (fun p => l.any (·.position == p)) && l.any (!·.withdrawn)

/-- A new generation of a barrier begins (R439). -/
def Barrier.renew (x : Barrier) : Barrier := { generation := (x.generation + 1) % 65536 }

/-- The master completes a barrier: it is held while digests differ, in the ARRIVEs or the heartbeats (R432), waits while the cluster
is not good, and is released otherwise, the lead after its last ARRIVE or after the end of that wait (R439). -/
def Chip.completeBarrier (b : Nat) (s : Chip) : Chip :=
  let x := s.barrier b
  if s.isMaster = false ∨ s.cluster.size = 0 ∨ s.barrierFull b = false then s
  else if digestsAgree x.arrivals = false ∨ s.cluster.digestBad then
    if x.held then s else (s.modBarrier b fun x => { x with held := true }).record 0xA004 10 (le 1 b ++ le 2 x.generation)
  else if s.cluster.timeBad then s.modBarrier b fun x => { x with waited := true }
  else
    let r := (if x.waited then s.clk.action else x.lastAt) + 256000 * s.cluster.releaseLead
    let s := s.sendCluster 0x07 0xFF (be 1 b ++ be 2 x.generation ++ frameStamp r 1)
    (s.modBarrier b Barrier.renew).releaseBarrier b (100 * r)

/-- An ARRIVE counts at the master (R438). -/
def Chip.putArrival (b : Nat) (a : Arrival) (s : Chip) : Chip :=
  (s.modBarrier b fun x =>
    { x with
      arrivals := x.arrivals.filter (·.position != a.position) ++ [a]
      firstAt := if x.arrivals = [] then s.clk.ticks else x.firstAt, lastAt := s.clk.action }).completeBarrier b

/-- Every local participant of a cluster barrier has arrived, or the last one has left: the ARRIVE goes to
the master. A device that is no formed member holds the barrier and times it out itself, and sends its ARRIVE once it is one
(R438, R441, R442); one that has left sends withdrawals only (R444). -/
def Chip.sendArrive (b : Nat) (withdraw : Bool) (s : Chip) : Chip :=
  let x := s.barrier b
  let d := s.deviceArmDigest
  let s := s.modBarrier b fun x => { x with localArrived := !withdraw, localAt := if x.localArrived then x.localAt else s.clk.ticks, owed := none }
  if s.isMaster then s.putArrival b { position := s.cluster.position, digest := d, withdrawn := withdraw }
  else if s.formed ∨ (s.cluster.state = .left ∧ withdraw) then
    s.sendCluster 0x06 s.masterPosition (be 1 b ++ be 2 x.generation ++ be 1 (if withdraw then 1 else 0) ++ d)
  else if s.cluster.state = .left then s
  else (s.modBarrier b fun x => { x with owed := some withdraw }).modCluster fun c => { c with resendArrive := true }

/-- Judge a barrier after an arrival, or after `leaver` has left its participants. -/
def Chip.evalBarrier (leaver : Option Nat) (b : Nat) (s : Chip) : Chip :=
  let ps := s.participants b leaver
  let all := ps.all fun q => (s.sq q).barrier == some b
  if b < 16 then
    if ps ≠ [] ∧ all then s.releaseBarrier b (s.nowFine + ns60) else s
  else if ps = [] then
    match leaver with
    | some q => if (s.sq q).clusterBarriers.contains b then s.sendArrive b true else s
    | none => s
  else if all ∧ (s.barrier b).localArrived = false then s.sendArrive b false
  else s

/-- Judge every barrier after a sequencer has left. (DEDUCED, log 26.) -/
def Chip.leaveBarriers (q : Nat) (s : Chip) : Chip :=
  (List.range 32).foldl (fun s b => s.evalBarrier (some q) b) (s.modSq q fun x => { x with barrier := none })

end Sys2Proof.Machine
end

