-- ==== Sys2Proof/Machine/Owners.lean ====
section
/-! DEFINITION. Authorised operations, key commands, the Ewen envelope and key expiry (chapter 7). -/

namespace Sys2Proof.Machine

/-! ## Shared -/

/-- The operation digest of a key or owner operation (R183). (DEDUCED, log 39.) -/
def opDigest (s : Chip) (nonce body : Bytes) : Bytes := sha256 (tagJKKO ++ s.identity ++ nonce ++ body)

/-- Owner `n`. -/
def Chip.owner (s : Chip) (n : Nat) : Owner := SMap.get s.keys.owners {} n

/-- Sum of all quotas. -/
def Chip.quotas (s : Chip) : Nat := (s.keys.owners.map fun o => o.2.quota).sum

/-- Change an owner, with its commit in flash and its journal entries (R196, R497). -/
def Chip.putOwner (n : Nat) (o : Owner) (s : Chip) : Chip :=
  (s.modKeys fun k => { k with owners := k.owners.set {} n o }).commitRegistry.journalOwner n

/-- The answer of an operation that changed key state since `before` (R189). -/
def Chip.changed (before : Chip) (r : Req) (owner code : Nat) (data : Bytes) (s : Chip) : Chip × Reply :=
  if s.pair.open_.entries.length = before.pair.open_.entries.length then (s, .done code data) else s.keyReply r owner code data

/-- Checks of a target slot for a new key (Table 7.5). -/
def Chip.slotFree (s : Chip) (slot owner : Nat) (imported : Bool) : Nat :=
  if (s.keys.slots.find? slot).isSome then 0x3102
  else if (s.owner owner).active ∧ s.slotsUsed owner ≥ (s.owner owner).quota then 0x3103
  else if (s.owner owner).active = false then 0x310E
  else if slot = 0 ∧ (imported = false ∨ owner ≠ 0) then 0x3104
  else 0

/-- A slot holds a key of an owner (Table 7.5). -/
def Chip.ownSlot (s : Chip) (slot owner : Nat) : Option Key :=
  match s.keys.slots.find? slot with
  | some k => if k.owner = owner then some k else none
  | none => none

/-- A key may do its work: damaged, expired or at its limit (R176, R177, R195). -/
def Chip.keyUsable (s : Chip) (k : Key) : Nat :=
  if k.damaged then 0x3111
  else if s.keyExpired k then 0x3106
  else if k.limit ≠ 0 ∧ k.uses ≥ k.limit then 0x3107
  else 0

/-- Expiry of a lifetime in seconds from acceptance (R177). -/
def Chip.expiryOf (s : Chip) (secs : Nat) : Option Nat := if secs = 0 then none else some (s.us + secs * 1000000)

/-- Result data of a stored key: slot, type and key check value (R188). -/
def keyData (slot : Nat) (k : Key) : Bytes := le 2 slot ++ [k.type] ++ k.kcv

/-! ## The Ewen envelope (R190 to R192) -/

/-- Length of the ephemeral key field. -/
def envM (e : Bytes) : Nat := if byteAt e 5 = 2 then 64 else 0

/-- Check 1 of R192. -/
def envHeader (e : Bytes) : Bool :=
  e.take 4 == tagEWEN && byteAt e 4 == 1 && (byteAt e 5 == 1 || byteAt e 5 == 2) && keyLen (byteAt e 6) != 0 &&
  decide (byteAt e 7 < 2) && decide (beNat (slice e 8 2) < 1024) && decide (byteAt e 10 ≤ 2) &&
  byteAt e 11 == keyLen (byteAt e 6) + 8

/-- K_wrap and K_mac of a base key (R191). -/
def envKeys (base e : Bytes) : Bytes × Bytes :=
  let k := kdf base (tagEWEN ++ [0] ++ e.take (36 + envM e) ++ be 4 512) 64
  (k.take 32, k.drop 32)

/-- The base key of an envelope (R190): the named key of the mode's type and usage, or its ECDH product with
the other side's public key. -/
def baseKey (mode : Nat) (k : Key) (other : Bytes) : Option Bytes :=
  if mode = 1 then (if k.type = 2 ∧ k.usage.getLsbD 8 then some k.material else none)
  else if k.type = 7 ∧ k.usage.getLsbD 7 then some (p256.ecdh (beNat k.material) other) else none

/-- The key an envelope carries, or the code of the check that fails (R192). -/
def openEnvelope (s : Chip) (slot owner : Nat) (e : Bytes) (k : Key) : Sum Nat Key :=
  let m := envM e
  let w := byteAt e 11
  match baseKey (byteAt e 5) k (slice e 36 64) with
  | none => .inl 0x3104
  | some base =>
    if m = 64 ∧ p256.valid (slice e 36 64) = false then .inl 0x3108
    else
      let ks := envKeys base e
      if cmac ks.2 (e.take (36 + m + w)) ≠ e.drop (36 + m + w) then .inl 0x3108
      else match kwUnwrap ks.1 (slice e (36 + m) w) with
        | none => .inl 0x3108
        | some mat =>
          let type := byteAt e 6
          if scalarOk type mat = false then .inl 0x3108
          else if usageAllowed slot type (byteAt e 7) (beNat (slice e 8 2)) = false then .inl 0x3104
          else .inr
            { owner := owner, type := e.getD 6 0, flags := e.getD 7 0, action := e.getD 10 0
              usage := BitVec.ofNat 16 (beNat (slice e 8 2)), limit := beNat (slice e 12 4)
              expiry := s.expiryOf (beNat (slice e 16 4)), material := mat, pub := publicOf type mat }

/-- Import (R192): body from byte 2. (DEDUCED, log 17.) -/
def opImport (r : Req) (owner : Nat) (b : Bytes) (s : Chip) : Chip × Reply :=
  let slot := beNat (b.take 2)
  let e := b.drop 4
  let c := s.slotFree slot owner true
  if c ≠ 0 then (s, bad c)
  else if envHeader e = false then (s, bad 0x3108)
  else match s.ownSlot (beNat (slice b 2 2)) owner with
    | none => (s, bad 0x3104)
    | some k =>
      if s.keyUsable k ≠ 0 then (s, bad (s.keyUsable k))
      else match openEnvelope s slot owner e k with
        | .inl code => (s, bad code)
        | .inr key =>
          if s.flashFree = false then (s, bad 0x2006)
          else
            let u := s.countUse (beNat (slice b 2 2))
            if u.2 ≠ 0 then (s, bad u.2)
            else Chip.changed s r owner 0 (keyData slot key) (u.1.storeKey slot key)

/-- The envelope of a key (R190 to R192). -/
def sealEnvelope (s : Chip) (slot : Nat) (k : Key) (mode : Nat) (base eph : Bytes) : Bytes :=
  let life := match k.expiry with
    | some t => (t - s.us) / 1000000
    | none => 0
  let head := tagEWEN ++ [1] ++ be 1 mode ++ [k.type, k.flags] ++ be 2 k.usage.toNat ++ [k.action] ++ be 1 (k.material.length + 8) ++
    be 4 k.limit ++ be 4 life ++ be 2 slot ++ List.replicate 14 0 ++ eph
  let ks := envKeys base head
  let e := head ++ kwWrap ks.1 k.material
  e ++ cmac ks.2 e

/-- An export stands in its session, and travels with the ledger (R189, R207). -/
def Chip.exported (t : Target) (e : Bytes) (s : Chip) : Chip :=
  let s := s.modOwn t fun x => { x with lastExport := e }
  match s.sessionOf t with
  | some x => if x.isSpi then s else s.journal false 7 (be 1 t.session ++ be 2 e.length ++ e)
  | none => s

/-- Result data of an export (R188). -/
def exportData (e : Bytes) : Bytes := le 2 e.length ++ slice e (e.length - 16) 8

/-- Export (R190, Table 7.5). (DEDUCED, log 17.) -/
def opExport (r : Req) (owner : Nat) (b : Bytes) (s : Chip) : Chip × Reply :=
  let slot := beNat (b.take 2)
  let kek := beNat (slice b 3 2)
  match s.ownSlot slot owner with
  | none => (s, bad 0x3101)
  | some k =>
    if k.damaged then (s, bad 0x3111)
    else if k.flags.getLsbD 0 = false then (s, bad 0x3105)
    else if byteAt b 2 = 1 then
      match s.ownSlot kek owner with
      | none => (s, bad 0x3104)
      | some w =>
        match (if w.damaged then none else baseKey 1 w []) with
        | none => (s, bad (if w.damaged then 0x3111 else 0x3104))
        | some base =>
          if s.keyUsable w ≠ 0 then (s, bad (s.keyUsable w))
          else
            let u := s.countUse kek
            if u.2 ≠ 0 then (s, bad u.2)
            else
              let e := sealEnvelope s slot k 1 base []
              Chip.changed s r owner 0 (exportData e) (u.1.exported r.dest e)
    else if p256.valid (b.drop 5) = false then (s, bad 0x4002)
    else if s.crypto.sauFault then (s, bad 0x3003)
    else if s.drbgGate ≠ 0 then (s, bad s.drbgGate)
    else
      let d := s.drbg 40
      let x := scalarFrom p256 d.1
      let e := sealEnvelope s slot k 2 (p256.ecdh x (b.drop 5)) (p256.pub x)
      (d.2.exported r.dest e, .done 0 (exportData e))

/-! ## The other operations (Table 7.4) -/

/-- Destroy (R187). -/
def opDestroy (r : Req) (owner : Nat) (b : Bytes) (s : Chip) : Chip × Reply :=
  let slot := beNat (b.take 2)
  match s.ownSlot slot owner with
  | none => (s, bad 0x3101)
  | some _ => if s.slotArmed slot then (s, bad 0x0003) else (s.destroyKey slot).keyReply r owner 0 []

/-- The narrowed key of R178, or none. An expiry action may only tighten (log 18). -/
def narrowed (s : Chip) (k : Key) (b : Bytes) : Option Key :=
  let usage := beNat (slice b 3 2)
  let limit := beNat (slice b 6 4)
  let expiry := if beNat (slice b 10 4) = 0 then k.expiry else s.expiryOf (beNat (slice b 10 4))
  let later : Bool := match k.expiry, expiry with
    | some o, some n => decide (o < n)
    | some _, none => true
    | none, _ => false
  if bitsWithin usage k.usage.toNat = false ∨ (byteAt b 2 = 1 ∧ k.flags.getLsbD 0 = false) ∨
      (limit = 0 ∧ k.limit ≠ 0) ∨ (k.limit ≠ 0 ∧ limit > k.limit) ∨ later ∨ byteAt b 5 < k.action.toNat then none
  else some { k with usage := BitVec.ofNat 16 usage, flags := b.getD 2 0, action := b.getD 5 0, limit := limit, expiry := expiry }

/-- Change attributes (R178). -/
def opChange (r : Req) (owner : Nat) (b : Bytes) (s : Chip) : Chip × Reply :=
  let slot := beNat (b.take 2)
  match s.ownSlot slot owner with
  | none => (s, bad 0x3101)
  | some k =>
    if s.slotArmed slot then (s, bad 0x0003)
    else if k.damaged then (s, bad 0x3111)
    else match narrowed s k b with
      | none => (s, bad 0x310D)
      | some k => if s.flashFree then (s.storeKey slot k).keyReply r owner 0 [] else (s, bad 0x2006)

/-- `n` public keys of 64 bytes. -/
def keyList : Nat → Bytes → List Bytes
  | 0, _ => []
  | n + 1, b => b.take 64 :: keyList n (b.drop 64)

/-- No key occurs twice. -/
def distinctKeys : List Bytes → Bool
  | [] => true
  | k :: ks => !ks.contains k && distinctKeys ks

/-- Every key is a point of P-256 and none repeats (R179). -/
def custodiansOk (ks : List Bytes) : Bool := ks.all p256.valid && distinctKeys ks

/-- Create owner (R180, Table 7.5). -/
def opCreate (r : Req) (owner : Nat) (b : Bytes) (s : Chip) : Chip × Reply :=
  let quota := beNat (b.take 2)
  let ks := keyList (byteAt b 18) (b.drop 19)
  if (s.owner owner).active ∨ s.quotas + quota > 4096 then (s, bad 0x310E)
  else if s.flashFree = false then (s, bad 0x2006)
  else
    (s.putOwner owner { active := true, name := slice b 2 16, quota := quota, keys := ks.mapIdx fun i k => (i, k) }).useBlock.keyReply r owner 0 []

/-- Delete owner. -/
def opDelete (r : Req) (owner : Nat) (s : Chip) : Chip × Reply :=
  if owner = 0 ∨ (s.owner owner).active = false ∨ s.slotsUsed owner ≠ 0 then (s, bad 0x310E)
  else if s.flashFree = false then (s, bad 0x2006)
  else (s.putOwner owner {}).useBlock.keyReply r owner 0 []

/-- Add custodian (R179). -/
def opAdd (r : Req) (owner : Nat) (b : Bytes) (s : Chip) : Chip × Reply :=
  let o := s.owner owner
  if o.keys.length ≥ 8 then (s, bad 0x310F)
  else if s.flashFree = false then (s, bad 0x2006)
  else
    let i := ((List.range 8).find? fun i => (o.keys.find? i).isNone).getD 0
    (s.putOwner owner { o with keys := o.keys.put i b }).useBlock.keyReply r owner 0 []

/-- Remove custodian. (DEDUCED, log 38.) -/
def opRemove (r : Req) (owner : Nat) (b : Bytes) (s : Chip) : Chip × Reply :=
  let o := s.owner owner
  if (o.keys.find? (byteAt b 0)).isNone then (s, bad 0x310B)
  else if o.keys.length ≤ 2 then (s, bad 0x310F)
  else if s.flashFree = false then (s, bad 0x2006)
  else (s.putOwner owner { o with keys := o.keys.erase (byteAt b 0) }).useBlock.keyReply r owner 0 []

/-- Intrusion configuration (R198, R199). -/
def opIntrusion (b : Bytes) (s : Chip) : Chip × Reply :=
  (s.modKeys fun k => { k with loops := b.getD 0 0, period := b.getD 1 0, response := BitVec.ofNat 16 (beNat (slice b 2 2)) }, ok)

/-- The body checks of Table 7.4: length, ranges and reserved bits; `b` is the body from byte 2. -/
def bodyOk (code owner : Nat) (b : Bytes) (s : Chip) : Bool :=
  let slotOk := decide (beNat (b.take 2) < 4096)
  decide (owner < 64) && match code with
  | 0x01 => decide (40 ≤ b.length) && slotOk && decide (beNat (slice b 2 2) < 4096) &&
      decide (b.length = 4 + 36 + envM (b.drop 4) + byteAt b 15 + 16)
  | 0x02 => slotOk && ((byteAt b 2 == 1 && b.length == 5) || (byteAt b 2 == 2 && b.length == 69 && beNat (slice b 3 2) == 0xFFFF))
  | 0x03 => slotOk && b.length == 2
  | 0x04 => slotOk && b.length == 14 && decide (byteAt b 2 < 2) && decide (beNat (slice b 3 2) < 1024) && decide (byteAt b 5 ≤ 2)
  | 0x10 => decide (19 ≤ b.length) && decide (2 ≤ byteAt b 18) && decide (byteAt b 18 ≤ 8) && b.length == 19 + 64 * byteAt b 18 &&
      custodiansOk (keyList (byteAt b 18) (b.drop 19))
  | 0x11 => b.length == 0
  | 0x12 => b.length == 64 && p256.valid b && (s.owner owner).keys.all fun k => k.2 != b
  | 0x13 => b.length == 1 && decide (byteAt b 0 ≤ 7)
  | 0x14 => b.length == 0 && owner == 0
  | 0x15 => b.length == 4 && decide (byteAt b 0 < 16) && decide (byteAt b 1 ≤ 3) && decide (beNat (slice b 2 2) < 16)
  | _ => false

/-- The owner whose custodians authorise an operation (Table 7.4). -/
def authOwner (code owner : Nat) : Nat := if code < 0x10 ∨ code = 0x12 ∨ code = 0x13 then owner else 0

/-- The bootstrap of owner 0's first custodians (R180). -/
def Chip.bootstraps (s : Chip) (r : Req) (code owner : Nat) (auths : Bytes) : Bool :=
  code == 0x10 && owner == 0 && auths == [] && r.level == .vendor && (s.owner 0).keys == [] &&
    (s.life.state == .calibrated || s.life.state == .provisioned)

/-- The operation itself, after its nonce, body and authorisations (R185). -/
def runOp (r : Req) (code owner : Nat) (b : Bytes) (s : Chip) : Chip × Reply :=
  match code with
  | 0x01 => opImport r owner b s
  | 0x02 => opExport r owner b s
  | 0x03 => opDestroy r owner b s
  | 0x04 => opChange r owner b s
  | 0x10 => opCreate r owner b s
  | 0x11 => opDelete r owner s
  | 0x12 => opAdd r owner b s
  | 0x13 => opRemove r owner b s
  | 0x15 => opIntrusion b s
  | _ => (s, bad 0x0005)

/-- The pair state's refusal of an authorised operation: a standby and a fenced device turn every one away, an active whose
standby is lost those that change key state (R189, R496, R503). -/
def Chip.authGate (s : Chip) (code : Nat) : Nat := if code = 0x02 ∨ code = 0x15 then s.standbyGate else s.pairGate

/-- An authorised operation at the SI, in the order of R185: it consumes the nonce it carries (R184). It rides the session's
queue (R213), behind the pair state's refusal (R496). -/
def authorised (code owner : Nat) (b nonce auths : Bytes) (r : Req) (s : Chip) : Chip × Reply :=
  let n := s.takeNonce r.dest nonce
  let s := n.2
  let gate := s.authGate code
  if gate ≠ 0 then (s, bad gate)
  else match s.queueBusy (0x1F + r.dest.session) with
    | some ms => (s, .busy ms)
    | none =>
      if n.1 = false then (s, bad 0x310C)
      else if bodyOk code owner b s = false then (s, bad 0x0002)
      else if s.bootstraps r code owner auths then runOp r code owner b s
      else if auths.length ≠ 136 then (s, bad 0x000D)
      else
        let c := s.checkAuths (authOwner code owner) (opDigest s nonce (be 1 code ++ be 1 owner ++ b)) auths
        if c ≠ 0 then (s, bad c) else runOp r code owner b s

/-- Bytes of an authorised operation (R183). -/
def authBytes (code : Nat) (op : AuthOp) : Bytes :=
  op.nonce ++ le 2 (2 + op.rest.length) ++ le 1 code ++ [op.owner] ++ op.rest ++ op.auths

/-- A row of Table 7.4: a write to 0x4200:10. The nonce has 16 bytes and authorisations 68 each, or the
length does not agree with the content (R122). -/
def signedRow (code : Nat) (p : Path) (tag : Word16) (op : AuthOp) (s : Chip) : Chip :=
  hostWrite p tag 0x4200 0x10 (authBytes code op)
    (fun _ _ => if op.nonce.length ≠ 16 ∨ op.auths.length % 68 ≠ 0 then 0x0012 else 0)
    (authorised code op.owner.toNat op.rest op.nonce op.auths) s

/-- `IMPORT` (R192). -/
def execImportKey (p : Path) (tag : Word16) (op : AuthOp) (s : State) : Host.Outcome State Fault Refusal := next s (signedRow 0x01 p tag op s.chip)
/-- `EXPORT` (R190). -/
def execExportKey (p : Path) (tag : Word16) (op : AuthOp) (s : State) : Host.Outcome State Fault Refusal := next s (signedRow 0x02 p tag op s.chip)
/-- `DESTROY` (R187). -/
def execDestroy (p : Path) (tag : Word16) (op : AuthOp) (s : State) : Host.Outcome State Fault Refusal := next s (signedRow 0x03 p tag op s.chip)
/-- `CHANGE_ATTRIBUTES` (R178). -/
def execChangeAttributes (p : Path) (tag : Word16) (op : AuthOp) (s : State) : Host.Outcome State Fault Refusal := next s (signedRow 0x04 p tag op s.chip)
/-- `CREATE_OWNER` (R180). -/
def execCreateOwner (p : Path) (tag : Word16) (op : AuthOp) (s : State) : Host.Outcome State Fault Refusal := next s (signedRow 0x10 p tag op s.chip)
/-- `DELETE_OWNER` (R185). -/
def execDeleteOwner (p : Path) (tag : Word16) (op : AuthOp) (s : State) : Host.Outcome State Fault Refusal := next s (signedRow 0x11 p tag op s.chip)
/-- `ADD_CUSTODIAN` (R179). -/
def execAddCustodian (p : Path) (tag : Word16) (op : AuthOp) (s : State) : Host.Outcome State Fault Refusal := next s (signedRow 0x12 p tag op s.chip)
/-- `REMOVE_CUSTODIAN` (R185). -/
def execRemoveCustodian (p : Path) (tag : Word16) (op : AuthOp) (s : State) : Host.Outcome State Fault Refusal := next s (signedRow 0x13 p tag op s.chip)
/-- `INTRUSION_CONFIGURATION` (R183). -/
def execIntrusionConfiguration (p : Path) (tag : Word16) (op : AuthOp) (s : State) : Host.Outcome State Fault Refusal := next s (signedRow 0x15 p tag op s.chip)

/-- `OPERATION_NONCE_READ` (R184): fresh bytes, bound to the reading session. -/
def readOpNonce (r : Req) (s : Chip) : Chip × ReadReply :=
  if s.drbgGate ≠ 0 then (s, .refused s.drbgGate)
  else
    let d := s.drbg 16
    (d.2.modSession r.dest.session fun x => { x with opNonce := some (d.1, s.clk.ticks) }, .data d.1)

/-- `OPERATION_NONCE_READ` (R184). -/
def execOperationNonceRead (p : Path) (s : State) : Host.Outcome State Fault Refusal :=
  next s (hostRead p 0 0x4200 2 readOpNonce s.chip)

/-! ## Key commands (R186) -/

/-- The key that a command's attributes describe (Table 7.6). -/
def commandKey (s : Chip) (b material : Bytes) : Key :=
  { owner := byteAt b 1, type := b.getD 4 0, flags := b.getD 5 0, action := b.getD 8 0
    usage := BitVec.ofNat 16 (fieldAt b 6 2), limit := fieldAt b 10 4, expiry := s.expiryOf (fieldAt b 14 4)
    material := material, pub := publicOf (byteAt b 4) material }

/-- Length, reserved bits and ranges of a key command: 0, or step 1's code. -/
def commandForm (b : Bytes) : Nat :=
  let c := byteAt b 0
  if c ≠ 0x21 ∧ c ≠ 0x22 then 0x0002
  else if b.length ≠ (if c = 0x21 then 18 else 21 + byteAt b 20) then 0x0012
  else if byteAt b 1 ≥ 64 ∨ fieldAt b 2 2 ≥ 4096 ∨ keyLen (byteAt b 4) = 0 ∨ byteAt b 5 ≥ 2 ∨ fieldAt b 6 2 ≥ 1024 ∨ byteAt b 8 > 2 ∨
      byteAt b 9 ≠ 0 ∨ (fieldAt b 14 4 = 0 ∧ byteAt b 8 ≠ 0) then 0x0002
  else if c = 0x22 ∧ (fieldAt b 18 2 ≥ 4096 ∨ byteAt b 20 > 64 ∨ byteAt b 4 > 4) then 0x0002
  else 0

/-- The fixed input of a derivation (R186). -/
def deriveInput (b : Bytes) : Bytes :=
  tagJKDV ++ [0, b.getD 1 0] ++ be 2 (fieldAt b 2 2) ++ slice b 21 (byteAt b 20) ++ be 4 (8 * keyLen (byteAt b 4))

/-- Generate and derive at the SI (R186, Table 7.5): a parent of another type answers as one of another owner, and one without
the usage, or with fewer usages than asked, as a usage not permitted. (DEDUCED, log 38; DESIGN CHOICE, log 136.) -/
def keyCommand (b : Bytes) (r : Req) (s : Chip) : Chip × Reply :=
  let slot := fieldAt b 2 2
  let owner := byteAt b 1
  let type := byteAt b 4
  if s.pairGate ≠ 0 then (s, bad s.pairGate)
  else match s.queueBusy (0x1F + r.dest.session) with
    | some ms => (s, .busy ms)
    | none =>
      let c := s.slotFree slot owner false
      if commandForm b ≠ 0 then (s, bad (commandForm b))
      else if c ≠ 0 then (s, bad c)
      else if usageAllowed slot type (byteAt b 5) (fieldAt b 6 2) = false then (s, bad 0x3104)
      else if byteAt b 0 = 0x21 then
        if isEc type ∧ s.crypto.sauFault then (s, bad 0x3003)
        else if s.drbgGate ≠ 0 then (s, bad s.drbgGate)
        else if s.flashFree = false then (s, bad 0x2006)
        else
          let d := s.drbg (if isEc type then keyLen type + 8 else keyLen type)
          let m := if isEc type then be (keyLen type) (scalarFrom (typeCurve type) d.1) else d.1
          let k := commandKey s b m
          Chip.changed s r owner 0 (keyData slot k) (d.2.storeKey slot k)
      else
        match s.ownSlot (fieldAt b 18 2) owner with
        | none => (s, bad 0x3101)
        | some p =>
          if p.damaged then (s, bad 0x3111)
          else if p.type.toNat > 2 then (s, bad 0x3101)
          else if p.usage.getLsbD 4 = false ∨ bitsWithin (fieldAt b 6 2) p.usage.toNat = false then (s, bad 0x3104)
          else if byteAt b 5 = 1 ∧ p.flags.getLsbD 0 = false then (s, bad 0x310D)
          else if s.keyUsable p ≠ 0 then (s, bad (s.keyUsable p))
          else if s.flashFree = false then (s, bad 0x2006)
          else
            let u := s.countUse (fieldAt b 18 2)
            if u.2 ≠ 0 then (s, bad u.2)
            else
              let k := commandKey s b (kdf p.material (deriveInput b) (keyLen type))
              Chip.changed s r owner 0 (keyData slot k) (u.1.storeKey slot k)

/-- `GENERATE` (R186). -/
def execGenerate (p : Path) (tag : Word16) (rest : Bytes) (s : State) : Host.Outcome State Fault Refusal :=
  next s (hostCommand p tag 0x4300 0x10 (0x21 :: rest) (keyCommand (0x21 :: rest)) s.chip)

/-- `DERIVE` (R186). -/
def execDerive (p : Path) (tag : Word16) (rest : Bytes) (s : State) : Host.Outcome State Fault Refusal :=
  next s (hostCommand p tag 0x4300 0x10 (0x22 :: rest) (keyCommand (0x22 :: rest)) s.chip)

/-! ## Expiry (R177) -/

/-- A key is destroyed at its expiry, recorded and journalled. -/
def Chip.expire (slot : Nat) (s : Chip) : Chip :=
  (s.destroyKey slot).record 0x3006 3 (le 2 slot ++ le 1 (SMap.get s.keys.slots {} slot).owner)

/-- `KEY_EXPIRY` (R177): the key's expiry has passed; a job accepted on its edge still runs (R24). -/
def keyExpiry (slot : Nat) (s : Chip) : Chip :=
  match s.keys.slots.find? slot with
  | none => s
  | some k =>
    let passed := match k.expiry with
      | some e => decide (400 * e < s.clk.ticks)
      | none => false
    if passed = false ∨ s.runs 3 = false then s
    else if k.action = 1 then s.modKeys fun x => { x with slots := x.slots.put slot { k with disabled := true } }
    else if k.action = 2 then
      if s.slotArmed slot then s.modKeys fun x => { x with slots := x.slots.put slot { k with disabled := true, destroyAtDisarm := true } }
      else s.expire slot
    else s

/-- `KEY_EXPIRY` (R177). -/
def execKeyExpiry (slot : BitVec 12) (s : State) : Host.Outcome State Fault Refusal := next s (keyExpiry slot.toNat s.chip)

/-- Keys whose destruction waited for a disarm, once no armed configuration refers to them (R177). -/
def Chip.destroyWaiting (s : Chip) : Chip :=
  (s.keys.slots.filter fun x => x.2.destroyAtDisarm && !s.slotArmed x.1).foldl (fun s x => s.expire x.1) s

end Sys2Proof.Machine
end

