-- ==== Sys2Proof/Machine/Sequencer.lean ====
section
/-! DEFINITION. Sequencer states and commands (R246, R257 to R266): the stream ring and its predicted path
(R244), arm and disarm, ends of runs, parks and drops, launches (R98 to R103, R260), and stops (R262). -/

namespace Sys2Proof.Machine

/-! ## The dust sheet (R234) -/

/-- A lane goes to its dust-sheet level, which never applies to the lanes of a sample port (R293). -/
def Lane.cover (l : Lane) : Lane :=
  if l.mode = 3 then l else { l with atDust := true, sealedIn := false, driverOn := l.mode == 1 && l.dust != 2, driven := l.dust == 1, edges := [] }

/-- A lane goes to it as an edge at a boundary: the edges before that boundary complete, and it overrides every edge of the
vector that would begin there. One at that level stays as it is (R275). -/
def Lane.coverAt (tb : Nat) (l : Lane) : Lane :=
  if l.mode = 3 ∨ l.atDust then l
  else
    { l.cover with
      fromOn := if l.edges = [] then l.driverOn else l.fromOn
      fromLevel := if l.edges = [] then l.driven else l.fromLevel
      edges := (l.edges.filter fun e => decide (e.ideal < tb)) ++ [{ ideal := tb, on := l.cover.driverOn, level := l.cover.driven }] }

/-- Lanes go to their dust-sheet level. -/
def Chip.coverLanes (lanes : List Nat) (s : Chip) : Chip := lanes.foldl (fun s n => s.modLane n Lane.cover) s

/-- Lanes go to it at the next boundary of their sequencer. -/
def Chip.coverAtBoundary (q : Nat) (lanes : List Nat) (s : Chip) : Chip := s.eachLane lanes fun _ => Lane.coverAt (s.fine q (s.sq q).tb)

/-- The lanes of masks that play leave it (R260). -/
def Chip.uncoverLanes (q : Nat) (s : Chip) : Chip :=
  if s.dustHeld q then s else ((s.lanesOf q).filter fun n => (s.sq q).plays ((s.sq q).maskOf (s.lane n).site.toNat)).foldl (fun s n => s.modLane n fun l => { l with atDust := false }) s

/-! ## The stream ring (R244) -/

/-- Empty a sequencer's ring; its refills on the way are discarded. -/
def Chip.clearRing (q : Nat) (s : Chip) : Chip :=
  (s.dramCancel fun r => r.cls == .playback && r.owner == q).modSq q fun x => { x with ring := [], fetching := [], fetch := {} }

/-- A burst of the predicted path. -/
structure PathBurst where
  /-- Segment. -/
  seg : Nat
  /-- Stream: site mask, or 4. -/
  stream : Nat
  /-- Index in the segment. -/
  idx : Nat
  /-- Path time of the first vector that it holds, in the units of R298 (R375). -/
  due : Nat
  deriving DecidableEq, Repr

/-- What stands at a place on the predicted path. -/
inductive Fetch where
  /-- The next burst, and the place behind it. -/
  | burst (b : PathBurst) (behind : FetchPos)
  /-- Nothing to fetch here. -/
  | move (place : FetchPos)
  /-- The path ends. -/
  | stop

/-- Bursts of one play of a segment; a resident one has none. -/
def Chip.bursts (s : Chip) (g : Nat) : Nat := let d := s.desc g; if d.resident then 0 else ceilDiv d.size 64

/-- The place behind an instruction. -/
def FetchPos.past (f : FetchPos) (pc : Nat) : FetchPos := { f with pc := pc, rep := 0, offset := 0, mask := 0 }

/-- A loop body whose every word is neither a jump nor a streamed play leaves the path as it is. -/
def Chip.bodyPlain (s : Chip) (x : Seq) (a e : Nat) : Bool :=
  ((List.range e).drop (a + 1)).all fun i => match x.op i with
    | some (.play _ g) => s.bursts g.toNat == 0
    | some (.plays b) => x.masksUsed.all fun m => s.bursts (b.toNat + m) == 0
    | some (.call _) => false
    | some .ret => false
    | some (.jmp _) => false
    | some .halt => false
    | _ => true

/-- Levels of the loop stack that a jump from `a` to `t` leaves (R248). -/
def cutLoops (pairs : List (Nat × Nat)) (a t : Nat) (loops : List LoopFrame) : List LoopFrame := loops.drop (depthIn pairs a - depthIn pairs t)

/-- A mask's data is fetched: it plays, or it plays again at the next launch, which clears every drop (R246, R256). -/
def Seq.fetches (x : Seq) (m : Nat) : Bool := x.plays m || (!x.state.inRun && x.masks.getD m 0 != 0 && !x.parked.getLsbD m)

/-! ### Times along the path (R375) -/

/-- The time of the first `n` vectors' records of a segment, in the units of R298; a sample frame is a hold vector of timing
set 0 (R299). -/
def Chip.recordsTime (s : Chip) (x : Seq) (g n : Nat) : Nat :=
  if (s.desc g).sample then n * x.periodUnits 0
  else ((List.range n).map fun i => let r := s.vecRec g i; r.reps * x.periodUnits r.set).sum

/-- A place behind `n` plays of a segment. -/
def Chip.behindPlay (s : Chip) (x : Seq) (g n : Nat) (f : FetchPos) : FetchPos :=
  let d := s.desc g
  { f with
    time := f.time + n * s.recordsTime x g d.count
    set := if d.count = 0 then f.set else if d.sample then 0 else (s.vecRec g (d.count - 1)).set }

/-- A place behind `n` hold vectors. -/
def Seq.behindHolds (x : Seq) (n : Nat) (f : FetchPos) : FetchPos := { f with time := f.time + n * x.periodUnits f.set }

/-- A place behind one use of a template. -/
def Chip.behindTemplate (s : Chip) (q : Nat) (write : Bool) (f : FetchPos) : FetchPos :=
  ((List.range ((s.sq q).gen.template write).2).map (s.templateRec q write)).foldl
    (fun f r => { f with time := f.time + r.reps * (s.sq q).periodUnits r.set, set := r.set }) f

/-- A place behind an element of a march program: its cells take equal times. -/
def Chip.behindElement (s : Chip) (q : Nat) (f : FetchPos) (e : Word32) : FetchPos :=
  if isPause e then (s.sq q).behindHolds (pauseHolds e) f
  else
    let g := (s.sq q).gen
    let one := (marchOps e).foldl (fun f op => s.behindTemplate q (opWrites op) f) f
    { one with time := f.time + g.xCount * g.yCount * (one.time - f.time) }

/-- A place behind an instruction that is no jump; waits of no stated length take no time on it. (DESIGN CHOICE, log 132.) -/
def Chip.behindOp (s : Chip) (q : Nat) (i : SeqOp) (f : FetchPos) : FetchPos :=
  let x := s.sq q
  match i with
  | .play r g => s.behindPlay x g.toNat (r.toNat + 1) f
  | .plays b => match x.masksUsed.filter x.fetches with
    | m :: _ => s.behindPlay x (b.toNat + m) 1 f
    | [] => f
  | .wait n => x.behindHolds (n.toNat + 1) f
  | .alg p => (x.gen.program p.toNat).foldl (s.behindElement q) f
  | _ => f

/-- A place behind the words from `a` up to `e`, within so many steps; every pass of a loop after the first takes the same
time. -/
def Chip.behindWords (s : Chip) (q : Nat) : Nat → Nat → Nat → FetchPos → FetchPos
  | 0, _, _, f => f
  | k + 1, a, e, f =>
    if e ≤ a then f
    else match (s.sq q).op a with
      | some (.loop n) =>
        let z := endOf (s.sq q).pairs a
        let one := s.behindWords q k (a + 1) z f
        let two := s.behindWords q k (a + 1) z one
        s.behindWords q k (z + 1) e (if n.toNat = 0 then one else { two with time := one.time + n.toNat * (two.time - one.time) })
      | some i => s.behindWords q k (a + 1) e (s.behindOp q i f)
      | none => f

/-- Burst `i` of a segment for a stream: the first vector it holds is that of the record its first byte belongs to, in the
time of the stream that leads. (DESIGN CHOICE, log 132.) -/
def Chip.pathBurst (s : Chip) (x : Seq) (g m i lead : Nat) (f : FetchPos) : PathBurst :=
  { seg := g, stream := m, idx := i, due := f.time + s.recordsTime x lead (64 * i / max 1 (s.desc g).recBytes) }

/-- One step along the predicted path: JEV and EVARM not taken, each LOOP exactly its count, the bursts of a
PLAYS to its masks in turn. (DESIGN CHOICE, log 45.) -/
def Chip.fetchStep (s : Chip) (q : Nat) (f : FetchPos) : Fetch :=
  let x := s.sq q
  let pairs := x.pairs
  if f.pc ≥ x.progLen then .stop
  else match x.op f.pc with
    | none => .stop
    | some (.play r g) =>
      if f.offset < s.bursts g.toNat then .burst (s.pathBurst x g.toNat 4 f.offset g.toNat f) { f with offset := f.offset + 1 }
      else if f.rep < r.toNat ∧ s.bursts g.toNat ≠ 0 then .move { s.behindPlay x g.toNat 1 f with rep := f.rep + 1, offset := 0 }
      else .move ((s.behindPlay x g.toNat (r.toNat + 1 - f.rep) f).past (f.pc + 1))
    | some (.plays b) =>
      let ms := x.masksUsed.filter x.fetches
      match ms.find? fun m => decide (f.mask ≤ m) && decide (f.offset < s.bursts (b.toNat + m)) with
      | some m => .burst (s.pathBurst x (b.toNat + m) m f.offset (b.toNat + ms.headD 0) f) { f with mask := m + 1 }
      | none =>
        if ms.any fun m => decide (f.offset + 1 < s.bursts (b.toNat + m)) then .move { f with offset := f.offset + 1, mask := 0 }
        else .move ((s.behindOp q (.plays b) f).past (f.pc + 1))
    | some (.loop n) =>
      let e := endOf pairs f.pc
      if s.bodyPlain x f.pc e then .move ((s.behindWords q (e + 2) f.pc (e + 1) f).past (e + 1))
      else .move { f.past (f.pc + 1) with loops := ⟨f.pc, n.toNat⟩ :: f.loops }
    | some .endl => match f.loops with
      | [] => .move (f.past (f.pc + 1))
      | l :: ls =>
        if l.left = 0 then .move { f.past (f.pc + 1) with loops := ls }
        else .move { f.past (l.start + 1) with loops := { l with left := l.left - 1 } :: ls }
    | some (.call t) => .move { f.past t.toNat with calls := ⟨f.pc + 1, f.loops.length⟩ :: f.calls }
    | some .ret => match f.calls with
      | [] => .stop
      | c :: cs => .move { f.past c.ret with calls := cs, loops := f.loops.drop (f.loops.length - c.loops) }
    | some (.jmp t) => .move { f.past t.toNat with loops := cutLoops pairs f.pc t.toNat f.loops }
    | some .halt => .stop
    | some i => .move ((s.behindOp q i f).past (f.pc + 1))

/-- The next burst on a sequencer's predicted path, within so many steps, and the place reached. -/
def Chip.nextBurst (s : Chip) (q : Nat) : Nat → FetchPos → Option PathBurst × FetchPos
  | 0, f => (none, f)
  | n + 1, f => match s.fetchStep q f with
    | .burst b f' => (some b, f')
    | .move f' => s.nextBurst q n f'
    | .stop => (none, f)

/-- Steps taken along the predicted path at one time. (DESIGN CHOICE, log 45.) -/
def pathSteps : Nat := 65536

/-- Data bytes of burst `i` of a segment. -/
def Chip.burstBytes (s : Chip) (g i : Nat) : Nat := min 64 ((s.desc g).size - 64 * i)

/-- 64 bytes of the ring are free, those of refills on the way not counted. -/
def Seq.ringRoom (x : Seq) : Bool := decide (64 * (x.ring.length + x.fetching.length + 1) ≤ x.ringSize)

/-- The refill read of a burst. -/
def Chip.refill (s : Chip) (q : Nat) (b : PathBurst) : DramReq :=
  { cls := .playback, addr := s.regionBase 2 + 64 * ((s.desc b.seg).offset + b.idx), len := s.burstBytes b.seg b.idx, owner := q, seg := b.seg, stream := b.stream
    due := b.due }

/-- Fill the ring along the predicted path: each burst is a refill served within the command, and one with an uncorrectable
error is not delivered (R244, R367). (DESIGN CHOICE, log 56.) -/
def Chip.prefill (q : Nat) : Nat → Chip → Chip
  | 0, s => s
  | n + 1, s =>
    let x := s.sq q
    if x.ringRoom = false ∨ s.dramServes = false then s
    else match s.nextBurst q pathSteps x.fetch with
      | (some b, f) =>
        let r := s.refill q b
        let y := s.serve r
        (y.2.modSq q fun x => { x with fetch := f, ring := x.ring ++ [{ seg := b.seg, stream := b.stream, bytes := r.len, bad := y.1.isNone }] }).prefill q n
      | (none, f) => s.modSq q fun x => { x with fetch := f }

/-- `REFILL_REQUEST` (R244): at most 16 bursts are outstanding, and none is asked for with CH_10 full (R22). -/
def refillRequest (q : Nat) (s : Chip) : Chip :=
  let x := s.sq q
  if x.ringRoom = false ∨ x.fetching.length ≥ 16 ∨ s.channelFull .playback ∨ s.dramServes = false ∨
      (x.state ≠ .armed ∧ x.state ≠ .launchPending ∧ x.state ≠ .running ∧ x.state ≠ .waiting) then s
  else match s.nextBurst q pathSteps x.fetch with
    | (some b, f) => (s.modSq q fun x => { x with fetch := f, fetching := x.fetching ++ [(b.seg, b.stream)] }).dramEnqueue (s.refill q b)
    | (none, f) => s.modSq q fun x => { x with fetch := f }

/-- `REFILL_REQUEST` (R244). -/
def execRefillRequest (sq : Fin 16) (s : State) : Host.Outcome State Fault Refusal := next s (refillRequest sq.val s.chip)

/-- A jump that the predicted path does not hold empties the ring and fetches from the program counter. (DESIGN CHOICE, log 45.) -/
def Chip.refetch (q : Nat) (s : Chip) : Chip :=
  (s.clearRing q).modSq q fun x => { x with fetch := { pc := x.pc, loops := x.loops, calls := x.calls, time := x.tb - x.held, set := x.lastSet } }

/-! ## Idle, and the ends of runs -/

/-- A sequencer becomes idle: ring, resident data, segments, keys and barriers are released, an arm in progress
completes with a code, and keys whose destruction waited are destroyed (R177, R263). A launch that a fault left pending stays
pending: only a stop or an adoption cancels it (R101, R103). -/
def Chip.makeIdle (q code : Nat) (s : Chip) : Chip :=
  let w := (s.sq q).armWaiter
  let s := (s.clearRing q).completeOpt w code []
  let s := s.modSq q fun x =>
    { x with state := .idle, refs := [], keyRefs := [], masterRefs := [], armWaiter := none, playback := 0, capture := 0, resident := 0, ringSize := 0 }
  ((s.coverLanes (s.lanesOf q)).leaveBarriers q).destroyWaiting

/-- A pending action is over with a result code, and never runs: late, or time base changed (R96, R103). No object of the spec
shows the code. (DEDUCED, log 110.) -/
def Seq.actionOver (code : Nat) (y : Seq) : Seq :=
  { y with
    state := if y.state = .launchPending then .armed else y.state
    launch := none, launchHeld := false, launchMissed := false, lastAction := some code }

/-- A pending launch completes with island re-seating: its sequencer is reset, or parked for good (R23, Table 14.6). -/
def Chip.dropLaunch (q : Nat) (s : Chip) : Chip := if (s.sq q).launch.isSome then s.modSq q (Seq.actionOver 8) else s

/-- The state a run's end leads to (R261): through arming after causes 0x01 to 0x03, parked after 0x04 and
0x05, faulted after 0x06. -/
def endState (cause : Nat) : SeqState := if cause ≤ 3 then .arming else if cause = 6 then .faulted else .parked

/-- A run ends (R261): the lanes go to the dust-sheet level, captures, timers, fields, proofs and port frames
end, and the sequencer leaves its barriers unless it halted. -/
def Chip.endRun (q cause : Nat) (s : Chip) : Chip :=
  let s := ((s.endAcq q).endSeals q cause).endPorts q
  let s := ((if cause = 6 then s.coverLanes (s.lanesOf q) else s.coverAtBoundary q (s.lanesOf q)).eachLane (s.lanesOf q) fun _ => Lane.settle).clearRing q
  let s := s.modSq q fun x =>
    { x with
      state := endState cause, endCause := BitVec.ofNat 8 cause, jumps := [], loops := [], calls := [], markers := 0
      done := 0, playNo := 0, recNo := 0, recAt := 0, dropDue := false, playing := none, samplePlays := [], barrier := none
      gen := if x.gen.state = .running then { x.gen with state := .abandoned } else x.gen }
  if cause = 1 then s else s.leaveBarriers q

/-- End the run if no mask plays any more: cause 0x04 where a mask is parked, 0x03 where all are dropped. -/
def Chip.endIfEmpty (q : Nat) (s : Chip) : Chip :=
  let x := s.sq q
  if x.masksUsed.any x.plays then s else s.endRun q (if x.parked = 0 then 3 else 4)

/-! ## Parks and drops (R256, R264, R265) -/

/-- A mask stops playing: its lanes go to the dust-sheet level, the data of its stream is no longer fetched, its timers stop
and its proofs note it. -/
def Chip.stopMask (q m : Nat) (s : Chip) : Chip :=
  let s := s.coverAtBoundary q (s.maskLanes q m)
  let s := (s.dramCancel fun r => r.cls == .playback && r.owner == q && r.stream == m).modSq q fun x =>
    { x with ring := x.ring.filter (·.stream != m), fetching := x.fetching.filter (·.2 != m) }
  (s.stopMaskTimers q m).earlySites q m

/-- The masks of a set that play. -/
def Seq.living (x : Seq) (ms : BitVec 4) : List Nat := (List.range 4).filter fun m => ms.getLsbD m && x.plays m

/-- A set of masks as bits. -/
def maskBits (l : List Nat) : BitVec 4 := BitVec.ofNat 4 ((l.map (2 ^ ·)).sum)

/-- Park masks at the boundary of the missing or invalid vector: bits, counter, record and EMCY (R265). -/
def Chip.parkMasks (q : Nat) (ms : List Nat) (code : Nat) (detail : Bytes) (s : Chip) : Chip :=
  let bits := maskBits ms
  let s := ms.foldl (fun s m => s.stopMask q m) s
  let s := s.modSq q fun x => { x with parked := x.parked ||| bits, underruns := satAdd 32 x.underruns 1 }
  ((s.record code 5 (le 1 q ++ le 1 bits.toNat ++ detail) q).raise (7000 + 4 * q + ms.headD 0) 0xFF00 0x81 code 5 (q + 256 * bits.toNat)).endIfEmpty q

/-- The masks a missing or invalid vector parks: those of its stream, or every one for a full-width
PLAY (R264). -/
def Seq.streamMasks (x : Seq) (ms : BitVec 4) : List Nat :=
  match x.op x.pc with
  | some (.play _ _) => if ms = 0 then [] else x.living 15
  | _ => x.living ms

/-- `UNDERRUN` (R264, R265). -/
def underrun (q : Nat) (missing : BitVec 4) (dataError : Bool) (s : Chip) : Chip :=
  let x := s.sq q
  let ms := x.streamMasks missing
  if x.state ≠ .running ∨ ms = [] then s
  else s.parkMasks q ms 0x5001 (le 1 (if dataError then 1 else 0) ++ [0] ++ le 4 x.vectors)

/-- `UNDERRUN` (R264). -/
def execUnderrun (sq : Fin 16) (missing : BitVec 4) (dataError : Bool) (s : State) : Host.Outcome State Fault Refusal :=
  next s (underrun sq.val missing dataError s.chip)

/-- Record `idx` of a segment stands at the next boundary in a stream of these masks, and is invalid (R239, R383). -/
def Chip.invalidNext (s : Chip) (q : Nat) (ms : List Nat) (seg idx : Nat) : Bool :=
  let x := s.sq q
  match x.op x.pc with
  | some i => x.recNo == idx && x.recAt == 0 && !s.recordPlays q seg idx && (s.streams q i).any fun e => e.seg == seg && (e.mask == 4 || ms.contains e.mask)
  | none => false

/-- `INVALID_RECORD_PARK`: the masks of the stream whose next record is invalid park (R239, R383). -/
def invalidRecord (q : Nat) (stream : BitVec 4) (seg idx : Nat) (s : Chip) : Chip :=
  let x := s.sq q
  let ms := (x.streamMasks stream).filter fun m => s.invalidNext q [m] seg idx
  if x.state ≠ .running ∨ ms = [] then s else s.parkMasks q ms 0x5002 (le 2 seg ++ le 4 idx)

/-- `INVALID_RECORD_PARK` (R239). -/
def execInvalidRecordPark (sq : Fin 16) (stream : BitVec 4) (segment : Word16) (recordIndex : Word32) (s : State) :
    Host.Outcome State Fault Refusal := next s (invalidRecord sq.val stream segment.toNat recordIndex.toNat s.chip)

/-- Drop masks (R256). -/
def Chip.dropMasks (q : Nat) (ms : List Nat) (s : Chip) : Chip :=
  let s := ms.foldl (fun s m => s.stopMask q m) s
  (s.modSq q fun x => { x with dropped := x.dropped ||| maskBits ms }).endIfEmpty q

/-- A failed field is counted, recorded and reported, and its mask is dropped (R327). -/
def Chip.reportField (q k : Nat) (s : Chip) : Chip :=
  let y := s.seal k
  let x := s.sq q
  let m := x.maskOf k
  let s := s.modSq q fun x => { x with sealedCfg := { x.sealedCfg with
    failed := satAdd 32 x.sealedCfg.failed 1
    lastFailure := le 1 k ++ [y.cause] ++ le 1 x.sealedCfg.recipe ++ [0] } }
  let s := s.modSeal k fun z => { z with cause := 0, run := { z.run with failed := z.run.failed + 1 } }
  let s := (s.record 0x5003 5 (le 1 k ++ [y.cause] ++ le 1 q ++ le 1 x.sealedCfg.recipe) q).raise (7100 + k) 0xFF00 0x81 0x5003 5 (k + 256 * y.cause.toNat)
  if x.plays m then (s.stopMask q m).modSq q fun x => { x with dropped := x.dropped ||| maskBits [m] } else s

/-- The failed fields of a sequencer whose failure point is its next boundary or an earlier one. -/
def Chip.failuresDue (s : Chip) (q : Nat) : List Nat :=
  (s.sq q).sites.filter fun k => (s.seal k).cause != 0 && decide ((s.seal k).failAt ≤ s.fine q (s.sq q).tb)

/-- `FIELD_FAILURE`: hold vectors go out up to the failure point of a failed field, at which its mask is dropped, with those of the
other fields of its sequencer that fail there too; a run with no mask left ends (R324, R327). -/
def fieldFailure (k : Nat) (s : Chip) : Chip :=
  match s.seqOfSite k with
  | none => s
  | some q =>
    if (s.seal k).cause = 0 ∨ (s.sq q).state.inRun = false then s
    else
      let s := if (s.sq q).state = .waiting then s.emitWaits q (s.holdsUntil q (s.seal k).failAt) else s
      ((s.failuresDue q).foldl (fun s k => s.reportField q k) s).endIfEmpty q

/-- `FIELD_FAILURE` (R327). -/
def execFieldFailure (site : Fin 16) (s : State) : Host.Outcome State Fault Refusal := next s (fieldFailure site.val s.chip)

/-! ## Arm and disarm (R246, R258, R263) -/

/-- The master keys of an armed configuration's recipes. -/
def Chip.armMasters (s : Chip) (q : Nat) : List Nat := (s.sq q).sfws.map fun p => recSlot (s.recipe p.2)

/-- The key slots an armed configuration references: master keys of its recipes, and its proof key (R185). -/
def Chip.armKeys (s : Chip) (q : Nat) : List Nat :=
  s.armMasters q ++ if (s.sq q).sealedCfg.proofOn = 1 then [(s.sq q).sealedCfg.proofKey.toNat] else []

/-- The conditions of parks end at a successful arm (R266). -/
def Chip.unpark (q : Nat) (s : Chip) : Chip := (List.range 4).foldl (fun s m => s.endCondition (7000 + 4 * q + m)) s

/-- An arm: the checks in order, then loading, whose end answers it (R258). -/
def armSeq (q : Nat) (r : Req) (s : Chip) : Chip × Reply :=
  let x := s.sq q
  if x.state ≠ .idle ∧ x.state ≠ .armed ∧ x.state ≠ .parked then (s, bad 5)
  else
    let s := if s.armEarly q = none then s.armPass else s
    match s.armFail q with
    | some f =>
      let s := if f.code = 0x8001 then s.modDram fun d => { d with refusals := satAdd 32 d.refusals 1 } else s
      ((s.makeIdle q 0).modSq q fun x => { x with refusal := BitVec.ofNat 32 (f.code + 65536 * f.detail) }, bad f.code)
    | none =>
      let s := ((s.clearRing q).unpark q).armPorts q
      let s := (s.lanesOf q).foldl Chip.characterise s
      let s := (s.modUnit q fun c => { c with wptr := 0, rptr := 0 }).modAcq fun a => { a with awaitArm := a.awaitArm &&& ~~~(BitVec.twoPow 16 q) }
      let y := s.sq q
      let res := s.residentBytes q
      let keys := s.armMasters q
      (keys.foldl (fun s k => s.keepReserve k) (s.modSq q fun x =>
        { x with
          state := .arming, armWaiter := some { dest := r.dest }, armAt := s.clk.ticks, parked := 0, vectors := 0, refs := y.segments, keyRefs := s.armKeys q
          masterRefs := keys
          digest := sha256 (s.armImage q), playback := s.playbackCharge q, capture := s.captureCharge q
          resident := res, ringSize := 1024 * y.share - res, sealedCfg := { x.sealedCfg with longest := 0 } }), .later)

/-- `SEQ_ARM` (R258). -/
def execSeqArm (p : Path) (tag : Word16) (sq : Fin 16) (s : State) : Host.Outcome State Fault Refusal :=
  next s (hostCommand p tag (0x3100 + sq.val) 2 [1] (armSeq sq.val) s.chip)

/-- `ARMING_COMPLETE` (R246): the ring is empty, pending exchanges of referenced segments are applied, the
ring is filled from address 0; the arm is answered. -/
def armingComplete (q : Nat) (s : Chip) : Chip :=
  let x := s.sq q
  if x.state ≠ .arming then s
  else
    let s := s.clearRing q
    let s := x.refs.foldl (fun s g => exchangeApply g s) s
    let s := (s.prefill q (x.ringSize / 64 + 1)).modSq q fun x =>
      { x with state := if x.launch.isSome then .launchPending else .armed, armWaiter := none }
    s.completeOpt x.armWaiter 0 []

/-- `ARMING_COMPLETE` (R246). -/
def execArmingComplete (sq : Fin 16) (s : State) : Host.Outcome State Fault Refusal := next s (armingComplete sq.val s.chip)

/-- Disarm. -/
def disarmSeq (q : Nat) (_ : Req) (s : Chip) : Chip × Reply :=
  let x := s.sq q
  if x.state ≠ .armed ∧ x.state ≠ .parked ∧ x.state ≠ .faulted then (s, bad 5) else (s.makeIdle q 0, ok)

/-- `SEQ_DISARM` (R263). -/
def execSeqDisarm (p : Path) (tag : Word16) (sq : Fin 16) (s : State) : Host.Outcome State Fault Refusal :=
  next s (hostCommand p tag (0x3100 + sq.val) 2 [0] (disarmSeq sq.val) s.chip)

/-! ## Launch (R98 to R103, R260) -/

/-- The stamp that ten bytes hold. -/
def stampOf (b : Bytes) : Stamp := { ns := fieldAt b 0 8, frac := byteAt b 8, flags := b.getD 9 0 }

/-- Its time in 1/256 ns. -/
def Stamp.at256 (x : Stamp) : Nat := 256 * x.ns + x.frac

/-- It asks for a launch as soon as possible (R101). -/
def Stamp.asap (x : Stamp) : Bool := x.at256 == 0

/-- The value check of a stamp (R9, R98, R101). -/
def stampOk (b : Bytes) : Nat :=
  let x := stampOf b
  if x.flags.toNat > 1 ∨ (x.flags = 1 ∧ x.asap) then 2 else 0

/-- The pending actions (R102). -/
def Chip.pendingLaunches (s : Chip) : List Stamp := s.seqs.filterMap fun x => x.2.launch

/-- The retry delay of R102: until the earliest pending launch. (DESIGN CHOICE, log 119.) -/
def Chip.launchDelay (s : Chip) : Nat :=
  match s.pendingLaunches.map (·.at256) with
  | [] => 1
  | t :: ts => clamp 1 1000 (ceilDiv (ts.foldl min t - s.clk.action) 256000000)

/-- 2,000 ns in 1/256 ns. -/
def ns2000 : Nat := 512000

/-- A launch request, judged on acceptance (R100, R102, R260). (DEDUCED, log 42.) -/
def launchSeq (q : Nat) (b : Bytes) (_ : Req) (s : Chip) : Chip × Reply :=
  let x := stampOf b
  if s.power.phase ≠ .ready ∨ s.runs 5 = false ∨ s.runs 6 = false then (s, bad 4)
  else if (s.sq q).state ≠ .armed then (s, bad 5)
  else if s.pendingLaunches.length ≥ 64 then (s, .busy s.launchDelay)
  else if x.asap = false ∧ x.at256 < s.clk.action + ns2000 then (s.modClk fun c => { c with late := satAdd 32 c.late 1 }, bad 6)
  else
    let order := ((s.seqs.map fun y => y.2.acceptOrder).foldl max 0) + 1
    (s.modSq q fun y => { y with state := .launchPending, launch := some x, launchHeld := !s.permits x, launchMissed := false, acceptOrder := order }, ok)

/-- `SEQ_LAUNCH` (R260). -/
def execSeqLaunch (p : Path) (tag : Word16) (sq : Fin 16) (stamp : Bytes) (s : State) : Host.Outcome State Fault Refusal :=
  next s (hostWrite p tag (0x3100 + sq.val) 3 stamp (fun _ _ => stampOk stamp) (launchSeq sq.val stamp) s.chip)

/-- A time in 1/256 ns realised to the nearest 10 ps, halves upward, and read back in 1/256 ns (R99). (DESIGN CHOICE, log 51.) -/
def realised (t : Nat) : Nat := (realised10 (100 * t) * 256 + 50) / 100

/-- A launch takes effect: the boundary of its first vector is its stamp, or now for one as soon as possible
(R99, R101, R260). (DESIGN CHOICE, log 51.) -/
def Chip.launchNow (q : Nat) (x : Stamp) (held : Bool) (s : Chip) : Chip :=
  let t := if x.asap then s.clk.action else x.at256
  let flags := x.flags.toNat % 16 + (if x.asap then 0x40 else 0) + (if held then 0x80 else 0)
  let s := s.modSq q fun y =>
    { y with
      state := .running, launch := none, launchHeld := false, launchMissed := false, lastAction := some 0, pc := 0, latches := 0, eventAt := [], dropped := 0
      jumps := [], loops := [], calls := [], markers := 0, baseNs256 := t, shift256 := 0, tb := 0, vecIndex := 0, lastSet := 0, lastHold := false, held := 0, lastClose := 0
      done := 0, playNo := 0, recNo := 0, recAt := 0, dropDue := false, barrier := none, playing := none, samplePlays := []
      gen := { y.gen with opsDone := 0, state := .idle }
      report := { ns := realised t / 256, frac := realised t % 256, flags := BitVec.ofNat 8 flags } }
  let s := if x.asap then s.modClk fun c => { c with asap := satAdd 32 c.asap 1 } else s
  let s := (s.sq q).sites.foldl (fun s k => s.endCondition (7100 + k)) s
  let s := (((s.uncoverLanes q).launchAcq q).launchSeals q).launchPorts q
  if (s.unit q).trigSource = 0 ∧ s.runs 7 then s.trigger q (100 * t) false else s

/-- `LAUNCH_TAKES_EFFECT`: the stamp is reached and the quality permits its scope; otherwise the launch is
held (R99, R101, R103). -/
def launchEffect (q : Nat) (s : Chip) : Chip :=
  let y := s.sq q
  match y.launch with
  | none => s
  | some x =>
    if y.state ≠ .launchPending ∨ (x.asap = false ∧ s.clk.action < x.at256) then s
    else if s.permits x = false ∨ y.launchMissed then s.modSq q fun y => { y with launchHeld := true }
    else s.launchNow q x y.launchHeld

/-- `LAUNCH_TAKES_EFFECT` (R99). -/
def execLaunchTakesEffect (sq : Fin 16) (s : State) : Host.Outcome State Fault Refusal := next s (launchEffect sq.val s.chip)

/-- `HELD_LAUNCH_PERMITTED`: the quality permits the scope again. One as soon as possible takes effect; a
stamped one that is less than 2,000 ns ahead has missed its time (R101, R103). -/
def heldPermitted (q : Nat) (s : Chip) : Chip :=
  let y := s.sq q
  match y.launch with
  | none => s
  | some x =>
    if y.launchHeld = false ∨ s.permits x = false then s
    else if x.asap then (if y.state = .launchPending then s.launchNow q x true else s)
    else if x.at256 < s.clk.action + ns2000 then s.modSq q fun y => { y with launchMissed := true }
    else s

/-- `HELD_LAUNCH_PERMITTED` (R101). -/
def execHeldLaunchPermitted (sq : Fin 16) (s : State) : Host.Outcome State Fault Refusal := next s (heldPermitted sq.val s.chip)

/-- `HELD_ACTION_LATE`: the launch time of a held launch passes, or that of one whose sequencer is not armed; it completes
late and never runs (R103). -/
def heldLate (q : Nat) (s : Chip) : Chip :=
  let y := s.sq q
  match y.launch with
  | none => s
  | some x =>
    if x.asap ∨ s.clk.action < x.at256 ∨ (s.permits x ∧ y.launchMissed = false ∧ y.state = .launchPending) then s
    else (s.modSq q (Seq.actionOver 6)).modClk fun c => { c with late := satAdd 32 c.late 1 }

/-- `HELD_ACTION_LATE` (R103). -/
def execHeldActionLate (sq : Fin 16) (s : State) : Host.Outcome State Fault Refusal := next s (heldLate sq.val s.chip)

/-- Every pending launch is cancelled and completes with time-base changed, at an adoption (R96). (DEDUCED, log 42.) -/
def Chip.cancelLaunches (s : Chip) : Chip :=
  (List.range 16).foldl (fun s q => if (s.sq q).launch.isSome then s.modSq q (Seq.actionOver 7) else s) s

/-! ## Stop (R262) -/

/-- The run stops at the first boundary at or after acceptance plus 60.0 ns; vectors up to there are not
played here but held (Table 9.4). -/
def Chip.stopRun (q : Nat) (s : Chip) : Chip := (s.emitHolds q (s.holdsUntil q (s.nowFine + ns60))).endRun q 2

/-- Stop. -/
def stopSeq (q : Nat) (_ : Req) (s : Chip) : Chip × Reply :=
  match (s.sq q).state with
  | .launchPending => (s.modSq q fun y => { y with state := .armed, launch := none, launchHeld := false, launchMissed := false }, ok)
  | .running => (s.stopRun q, ok)
  | .waiting => (s.stopRun q, ok)
  | _ => (s, bad 5)

/-- `SEQ_STOP` (R262). -/
def execSeqStop (p : Path) (tag : Word16) (sq : Fin 16) (s : State) : Host.Outcome State Fault Refusal :=
  next s (hostCommand p tag (0x3100 + sq.val) 4 [1] (stopSeq sq.val) s.chip)

end Sys2Proof.Machine
end

