-- ==== Sys2Proof/Machine/SeqOps.lean ====
section
/-! DEFINITION. The sequencer instructions (Table 9.3, R248 to R256), events and armed jumps (R250 to R252),
and the start of a sealed play (R324). A command of an instruction runs it where the sequencer runs and the
word at its program counter is that instruction; otherwise nothing happens. -/

namespace Sys2Proof.Machine

/-- Run the instruction at the program counter: `f` gives what it does, or none where another instruction
stands there. -/
def Chip.runOp (q : Nat) (f : Seq → SeqOp → Option (Chip → Chip)) (s : Chip) : Chip :=
  let x := s.sq q
  if x.state ≠ .running ∨ x.progLen ≤ x.pc ∨ x.dropDue then s
  else match x.op x.pc with
    | some i => match f x i with
      | some g => g s
      | none => s
    | none => s

/-- The program counter goes to an address; the instruction there begins. -/
def Seq.goto (a : Nat) (x : Seq) : Seq := { x with pc := a, done := 0, playNo := 0, recNo := 0, recAt := 0 }

/-- NOP. -/
def opNop (q : Nat) : Chip → Chip := Chip.runOp q fun _ i => match i with
  | .nop => some fun s => s.modSq q Seq.nextOp
  | _ => none

/-- `NOP` (R247). -/
def execNop (sq : Fin 16) (s : State) : Host.Outcome State Fault Refusal := next s (opNop sq.val s.chip)

/-- PLAY: one vector for each observation. (DESIGN CHOICE, log 43.) -/
def opPlay (q : Nat) (obs : List LaneObs) : Chip → Chip := Chip.runOp q fun x i => match i with
  | .play _ _ => some fun s => s.playObs q x.pc obs
  | _ => none

/-- `PLAY` (R264). -/
def execPlay (sq : Fin 16) (obs : List LaneObs) (s : State) : Host.Outcome State Fault Refusal := next s (opPlay sq.val obs s.chip)

/-- PLAYS: one vector for each observation. (DESIGN CHOICE, log 43.) -/
def opPlays (q : Nat) (obs : List LaneObs) : Chip → Chip := Chip.runOp q fun x i => match i with
  | .plays _ => some fun s => s.playObs q x.pc obs
  | _ => none

/-- `PLAYS` (R264). -/
def execPlays (sq : Fin 16) (obs : List LaneObs) (s : State) : Host.Outcome State Fault Refusal := next s (opPlays sq.val obs s.chip)

/-- LOOP: the body is entered, with count − 1 further passes. -/
def opLoop (q : Nat) : Chip → Chip := Chip.runOp q fun _ i => match i with
  | .loop n => some fun s => s.modSq q fun x => { x.nextOp with loops := ⟨x.pc, n.toNat⟩ :: x.loops }
  | _ => none

/-- `LOOP` (R248). -/
def execLoop (sq : Fin 16) (s : State) : Host.Outcome State Fault Refusal := next s (opLoop sq.val s.chip)

/-- ENDL: another pass of the body, or the loop is left. -/
def Seq.endLoop (x : Seq) : Seq :=
  match x.loops with
  | [] => x.nextOp
  | l :: ls => if l.left = 0 then { x.nextOp with loops := ls } else { x.goto (l.start + 1) with loops := { l with left := l.left - 1 } :: ls }

/-- ENDL. -/
def opEndl (q : Nat) : Chip → Chip := Chip.runOp q fun _ i => match i with
  | .endl => some fun s => s.modSq q Seq.endLoop
  | _ => none

/-- `ENDL` (R248). -/
def execEndl (sq : Fin 16) (s : State) : Host.Outcome State Fault Refusal := next s (opEndl sq.val s.chip)

/-- CALL. -/
def opCall (q : Nat) : Chip → Chip := Chip.runOp q fun _ i => match i with
  | .call t => some fun s => s.modSq q fun x => { x.goto t.toNat with calls := ⟨x.pc + 1, x.loops.length⟩ :: x.calls }
  | _ => none

/-- `CALL` (R248). -/
def execCall (sq : Fin 16) (s : State) : Host.Outcome State Fault Refusal := next s (opCall sq.val s.chip)

/-- The return address, and the loop levels of the call. -/
def Seq.return (x : Seq) : Seq :=
  match x.calls with
  | [] => x
  | c :: cs => { x.goto c.ret with calls := cs, loops := x.loops.drop (x.loops.length - c.loops) }

/-- RET. -/
def opRet (q : Nat) : Chip → Chip := Chip.runOp q fun _ i => match i with
  | .ret => some fun s => s.modSq q Seq.return
  | _ => none

/-- `RET` (R248). -/
def execRet (sq : Fin 16) (s : State) : Host.Outcome State Fault Refusal := next s (opRet sq.val s.chip)

/-- A jump discards the loop levels it leaves (R248). -/
def Seq.jump (t : Nat) (x : Seq) : Seq := { x.goto t with loops := cutLoops x.pairs x.pc t x.loops }

/-- JMP. -/
def opJmp (q : Nat) : Chip → Chip := Chip.runOp q fun _ i => match i with
  | .jmp t => some fun s => s.modSq q (Seq.jump t.toNat)
  | _ => none

/-- `JMP` (R248). -/
def execJmp (sq : Fin 16) (s : State) : Host.Outcome State Fault Refusal := next s (opJmp sq.val s.chip)

/-- The latch as a JEV samples it, 60.0 ns before the next boundary: an event on the sampling edge counts
(R251). -/
def Chip.sampled (s : Chip) (q j : Nat) : Bool :=
  let x := s.sq q
  x.latches.getLsbD j && decide (100 * SMap.get x.eventAt 0 j + ns60 ≤ s.fine q x.tb)

/-- Clear a latch. -/
def Seq.clearLatch (j : Nat) (x : Seq) : Seq := { x with latches := x.latches &&& ~~~(BitVec.twoPow 4 j), eventAt := x.eventAt.erase j }

/-- JEV: taken if the latch is set, which clears it. -/
def opJev (q : Nat) : Chip → Chip := Chip.runOp q fun _ i => match i with
  | .jev j t => some fun s =>
    if s.sampled q j.toNat then (s.modSq q fun x => (x.jump t.toNat).clearLatch j.toNat).refetch q else s.modSq q Seq.nextOp
  | _ => none

/-- `JEV` (R251). -/
def execJev (sq : Fin 16) (s : State) : Host.Outcome State Fault Refusal := next s (opJev sq.val s.chip)

/-- EVARM: the target, and the stacks to return to, without the loop levels that the jump leaves (R248, R252). -/
def opEvarm (q : Nat) : Chip → Chip := Chip.runOp q fun _ i => match i with
  | .evarm j t => some fun s => s.modSq q fun x => { x.nextOp with jumps := x.jumps.put j.toNat { target := t.toNat, loops := cutLoops x.pairs x.pc t.toNat x.loops, calls := x.calls } }
  | _ => none

/-- `EVARM` (R252). -/
def execEvarm (sq : Fin 16) (s : State) : Host.Outcome State Fault Refusal := next s (opEvarm sq.val s.chip)

/-- EVDIS. -/
def opEvdis (q : Nat) : Chip → Chip := Chip.runOp q fun _ i => match i with
  | .evdis j => some fun s => s.modSq q fun x => { x.nextOp with jumps := x.jumps.erase j.toNat }
  | _ => none

/-- `EVDIS` (R252). -/
def execEvdis (sq : Fin 16) (s : State) : Host.Outcome State Fault Refusal := next s (opEvdis sq.val s.chip)

/-- At most `k` more of the `n` hold vectors of the WAIT at the program counter. -/
def Chip.waitHolds (q n k : Nat) (s : Chip) : Chip :=
  let m := min k (n - (s.sq q).done)
  let s := (s.emitHolds q m).modSq q fun x => { x with done := x.done + m }
  if (s.sq q).done < n then s else s.modSq q Seq.nextOp

/-- WAIT: so many of its hold vectors, as PLAY has its vectors; a jump may fall due between them (R252). (DESIGN CHOICE, log 43.) -/
def opWait (q k : Nat) : Chip → Chip := Chip.runOp q fun _ i => match i with
  | .wait n => some (Chip.waitHolds q (n.toNat + 1) k)
  | _ => none

/-- `WAIT` (R254). -/
def execWait (run : WaitRun) (s : State) : Host.Outcome State Fault Refusal := next s (opWait run.sq.val run.holds s.chip)

/-- BARW: the sequencer waits, which may be the last arrival. -/
def opBarw (q : Nat) : Chip → Chip := Chip.runOp q fun _ i => match i with
  | .barw b => some fun s => (s.modSq q fun x => { x with state := .waiting, barrier := some b.toNat }).evalBarrier none b.toNat
  | _ => none

/-- `BARW` (R255). -/
def execBarw (sq : Fin 16) (s : State) : Host.Outcome State Fault Refusal := next s (opBarw sq.val s.chip)

/-- SFW: the fields of the recipe are requested, and the sequencer waits. -/
def opSfw (q : Nat) : Chip → Chip := Chip.runOp q fun _ i => match i with
  | .sfw r => some fun s => s.startFields q r.toNat
  | _ => none

/-- `SFW` (R322). -/
def execSfw (sq : Fin 16) (s : State) : Host.Outcome State Fault Refusal := next s (opSfw sq.val s.chip)

/-- DROP: hold vectors until it takes effect. (DEDUCED, log 50.) -/
def opDrop (q : Nat) : Chip → Chip := Chip.runOp q fun _ i => match i with
  | .drop => some fun s => s.modSq q fun x => { x with dropDue := true }
  | _ => none

/-- `DROP` (R256). -/
def execDrop (sq : Fin 16) (s : State) : Host.Outcome State Fault Refusal := next s (opDrop sq.val s.chip)

/-- The playing masks that hold a site whose sticky fail flag is set. -/
def Chip.failedMasks (s : Chip) (q : Nat) : List Nat :=
  let x := s.sq q
  (List.range 4).filter fun m => x.plays m && (List.range 16).any fun k => x.inMask m k && (s.siteAq k).flag

/-- `DROP_TAKES_EFFECT`: at the first boundary 90.0 ns after the latest C_CLOSE, the failed masks are dropped
(R256). -/
def dropEffect (q : Nat) (s : Chip) : Chip :=
  let x := s.sq q
  if x.state ≠ .running ∨ x.dropDue = false then s
  else
    let s := s.emitWaits q (s.holdsUntil q (x.lastClose + 90 * 25600))
    (s.modSq q fun x => { x.nextOp with dropDue := false }).dropMasks q (s.failedMasks q)

/-- `DROP_TAKES_EFFECT` (R256). -/
def execDropTakesEffect (sq : Fin 16) (s : State) : Host.Outcome State Fault Refusal := next s (dropEffect sq.val s.chip)

/-- ALG: one vector for each observation. (DESIGN CHOICE, log 43.) -/
def opAlg (q : Nat) (obs : List LaneObs) : Chip → Chip := Chip.runOp q fun x i => match i with
  | .alg p => some fun s => s.algObs q p.toNat x.pc obs
  | _ => none

/-- `ALG` (R310). -/
def execAlg (sq : Fin 16) (obs : List LaneObs) (s : State) : Host.Outcome State Fault Refusal := next s (opAlg sq.val obs s.chip)

/-- HALT. -/
def opHalt (q : Nat) : Chip → Chip := Chip.runOp q fun _ i => match i with
  | .halt => some fun s => s.endRun q 1
  | _ => none

/-- `HALT` (R261). -/
def execHalt (sq : Fin 16) (s : State) : Host.Outcome State Fault Refusal := next s (opHalt sq.val s.chip)

/-- EVCLR. -/
def opEvclr (q : Nat) : Chip → Chip := Chip.runOp q fun _ i => match i with
  | .evclr j => some fun s => s.modSq q fun x => x.nextOp.clearLatch j.toNat
  | _ => none

/-- `EVCLR` (R250). -/
def execEvclr (sq : Fin 16) (s : State) : Host.Outcome State Fault Refusal := next s (opEvclr sq.val s.chip)

/-- An event sets latch `j`; E is that of the event that set it (R250). (DEDUCED, log 60.) -/
def Chip.seqEvent (q j : Nat) (s : Chip) : Chip :=
  if s.runs 5 = false ∨ (s.sq q).latches.getLsbD j then s
  else s.modSq q fun x => { x with latches := x.latches ||| BitVec.twoPow 4 j, eventAt := x.eventAt.put j s.clk.action }

/-- `SEQ_EVENT` (R250). -/
def execSeqEvent (sq : Fin 16) (j : Fin 4) (s : State) : Host.Outcome State Fault Refusal :=
  next s (if s.chip.routed (4 * sq.val + j.val) then s.chip.seqEvent sq.val j.val else s.chip)

/-- The due time of an armed jump whose latch is set, in 1/25,600 ns (R252). -/
def Seq.jumpDue (x : Seq) (j : Nat) : Option Nat :=
  if x.latches.getLsbD j ∧ (x.jumps.find? j).isSome then some (100 * SMap.get x.eventAt 0 j + ns60) else none

/-- The input of the armed jump that is taken at the next boundary: the lowest that has fallen due (R252). -/
def Chip.dueJump (s : Chip) (q : Nat) : Option Nat :=
  let x := s.sq q
  (List.range 4).find? fun j => match x.jumpDue j with
    | some t => decide (t ≤ s.fine q x.tb)
    | none => false

/-- While a sequencer waits, or within a WAIT, hold vectors go out up to the boundary at which the first armed jump falls due. -/
def Chip.holdForJump (q : Nat) (s : Chip) : Chip :=
  let x := s.sq q
  match (List.range 4).filterMap x.jumpDue with
  | [] => s
  | t :: ts =>
    let n := s.holdsUntil q (ts.foldl min t)
    if x.state = .waiting ∨ x.dropDue then s.emitWaits q n
    else match x.op x.pc with
      | some (.wait k) => if x.state = .running then s.emitHolds q (min n (k.toNat + 1 - x.done)) else s
      | _ => s

/-- `ARMED_JUMP_TAKEN`: vectors not begun are discarded, the stacks return to their depths at the EVARM, the
latch and the arm are cleared, and what the sequencer waited for is abandoned (R252, R310, R329). -/
def jumpTaken (q : Nat) (s : Chip) : Chip :=
  let s := s.holdForJump q
  let x := s.sq q
  if x.state.inRun = false then s
  else match s.dueJump q with
    | none => s
    | some j =>
      let a := (x.jumps.find? j).getD {}
      let b := x.barrier
      let s := s.abandonFields q
      let s := s.modSq q fun x =>
        { (x.cutPlays.goto a.target).clearLatch j with
          state := .running, loops := a.loops, calls := a.calls, jumps := x.jumps.erase j, barrier := none, dropDue := false
          gen := if x.gen.state = .running then { x.gen with state := .abandoned } else x.gen }
      let s := s.refetch q
      match b with
      | some b => s.evalBarrier none b
      | none => s

/-- `ARMED_JUMP_TAKEN` (R252). -/
def execArmedJumpTaken (sq : Fin 16) (s : State) : Host.Outcome State Fault Refusal := next s (jumpTaken sq.val s.chip)

/-- The sealed play may begin: every field is buffered or has failed, and failed ones have dropped their masks. -/
def Chip.sealedReady (s : Chip) (q : Nat) : Bool :=
  let x := s.sq q
  x.state == .waiting && x.sealedCfg.field != .none && x.livingSites != [] && s.fieldsResolved q &&
    x.livingSites.all fun k => (s.seal k).cause == 0

/-- `SEALED_PLAY_START`: at the first boundary at or after the later of the two moments of R324, the
instruction behind the SFW begins; the lanes of its fields are not observed until it ends (R324, R334). -/
def sealedStart (q : Nat) (s : Chip) : Chip :=
  if s.sealedReady q = false then s
  else
    let r := (s.sq q).sealedCfg.recipe
    let s := s.emitWaits q (s.holdsUntil q (s.sq q).resumeAt)
    let ks := (s.sq q).livingSites
    let s := s.modSq q fun x =>
      { x.nextOp with state := .running, playing := some r, sealedCfg := { x.sealedCfg with field := .playing, windowOpen := false } }
    (s.lanesOf q).foldl (fun s n => if ks.contains (s.lane n).site.toNat then s.modLane n fun l => { l with sealedIn := true } else s) s

/-- `SEALED_PLAY_START` (R324). -/
def execSealedPlayStart (sq : Fin 16) (s : State) : Host.Outcome State Fault Refusal := next s (sealedStart sq.val s.chip)

end Sys2Proof.Machine
end

