-- ==== Sys2Proof/Machine/Dram.lean ====
section
/-! DEFINITION. The DRAM controller (chapter 14): training and initialisation (R368 to R371), grants (R372 to
R374), returned reads and ECC (R367, R375), refresh and row-hammer protection (R376 to R379), channel faults
and retirement (R386 to R389). -/

namespace Sys2Proof.Machine

/-! ## Parks of every sequencer (Table 14.6, Table 20.1) -/

/-- A sequencer parks in every mask with end cause 0x05; an arm in progress completes with island
re-seating. A pending launch never runs, but while PLL_0 relocks it stays pending as R103 says. (DEDUCED, log 58, log 110.) -/
def Chip.parkSeq (keep : Bool) (q : Nat) (s : Chip) : Chip :=
  let s := if keep then s else s.dropLaunch q
  let x := s.sq q
  let masks := maskBits x.masksUsed
  match x.state with
  | .idle => s
  | .faulted => s
  | .parked => s
  | .arming => if x.armWaiter.isSome then s.makeIdle q 8 else (s.endRun q 5).modSq q fun x => { x with parked := masks }
  | .running => ((s.emitHolds q (s.holdsUntil q s.nowFine)).endRun q 5).modSq q fun x => { x with parked := masks }
  | .waiting => ((s.emitHolds q (s.holdsUntil q s.nowFine)).endRun q 5).modSq q fun x => { x with parked := masks }
  | _ =>
    (((s.coverLanes (s.lanesOf q)).clearRing q).modSq q fun x =>
      { x with
        state := .parked, endCause := 5, parked := masks, launchHeld := x.launch.isSome }).leaveBarriers q

/-- Every sequencer that is not idle parks. -/
def Chip.parkAll (s : Chip) : Chip := (List.range 16).foldl (fun s q => s.parkSeq false q) s

/-- Every sequencer that is not idle parks for a relock of PLL_0; pending launches follow R103 (R96). -/
def Chip.parkHeld (s : Chip) : Chip := (List.range 16).foldl (fun s q => s.parkSeq true q) s

/-! ## Layout (R365) -/

/-- A layout, with 4 MiB of staging, fits a capacity (R365). -/
def layoutFits (l : List Nat) (u : Nat) : Bool := decide ((l.sum + 4) * mib ≤ u)

/-- The stored layout is compared with the capacity in force, with a configuration-refused record if it does not fit; the layout
in force gives way to the default where it does not fit (R124, R365). (DESIGN CHOICE, log 83.) -/
def Chip.checkLayout (s : Chip) : Chip :=
  let s := if layoutFits s.dram.layout s.usable then s else s.modDram fun d => { d with layout := [128, 384, 256, 64] }
  if layoutFits s.dram.layoutStored s.usable then s
  else s.record 0x0004 8 (le 2 0x4800 ++ [5] ++ le 2 0x8002)

/-! ## Channel faults and retirement (R386 to R389) -/

/-- A refill burst enters the ring; one that is not delivered leaves a mark in its place, at which its stream
parks (R264, R367, R375). -/
def Chip.ringBurst (r : DramReq) (bad : Bool) (s : Chip) : Chip :=
  s.modSq r.owner fun x => { x with ring := x.ring ++ [{ seg := r.seg, stream := r.stream, bytes := r.len, bad := bad }], fetching := x.fetching.erase (r.seg, r.stream) }

/-- Requests on the way complete with a code: window accesses by their answers, jobs by their records, and a refill by the
mark of a burst that does not come (R23). (DEDUCED, log 58.) -/
def Chip.failRequest (code : Nat) (r : DramReq) (s : Chip) : Chip :=
  match r.dest with
  | some t => if r.write then s.complete t code [] 0 else s.completeRead t code []
  | none =>
    if r.cls = .playback then s.ringBurst r true
    else if r.cls = .secure then s.failJob code r
    else s

/-- Every request leaves the channels and its producer, with a code; one of several blocks completes once. -/
def Chip.failRequests (code : Nat) (s : Chip) : Chip :=
  let l := ((s.dram.channels.flatMap fun c => c.inFlight ++ c.queue) ++ s.dram.stalled).filter (·.tx == 0) ++ s.dram.transfers.map (·.req)
  let s := s.modDram fun d => { d with stalled := [], transfers := [], channels := d.channels.map fun c => { c with queue := [], inFlight := [] } }
  l.foldl (fun s r => s.failRequest code r) s

/-! ## Initialisation (R368) -/

/-- `DRAM_INIT_COMPLETE`: every DRAM byte reads zero, the content generation advances, and the MI runs (R368,
R388). -/
def dramInitComplete (s : Chip) : Chip :=
  if (s.dram.mode ≠ .initialising ∧ s.dram.mode ≠ .retiring) ∨ s.clk.refLost then s
  else
    let s := (s.failRequests 8).modDram fun d =>
      { d with
        bytes := [], badBursts := [], generation := (d.generation + 1) % 65536, retiring := none
        channels := d.channels.map fun c => { c with banks := [], draining := false, postponed := [], roundDone := [] }
        mode := if d.inService = 3 then .twoChannels else .oneChannel }
    s.checkLayout.runIsland 8

/-- `DRAM_INIT_COMPLETE` (R368). -/
def execDramInitComplete (s : State) : Host.Outcome State Fault Refusal := next s (dramInitComplete s.chip)

/-! ## Retirement (R386 to R389) -/

/-- Capture records not yet in DRAM are lost and counted (R354, Table 14.6). -/
def Chip.loseStaging (s : Chip) : Chip :=
  let l := s.acq.staging
  let s := s.modAcq fun a => { a with staging := [] }
  l.foldl (fun s r => s.loseRecord r.unit r.kind s.nowFine false) s

/-- Retire a channel (R388, Table 14.6): the surviving one is initialised anew. (DEDUCED, log 58.) -/
def Chip.retireChannel (c : Nat) (s : Chip) : Chip :=
  let s := (s.parkAll.failRequests 8).loseStaging
  -- the sweeps start again from block 0 (R461)
  let s := (s.modDramCh (1 - c) fun d => { d with sweep := 0 }).modDramCh c fun d => { d with state := .retired, sweep := 0 }
  (s.modDram fun d =>
    { d with mode := .retiring, retiring := some c, retirements := satAdd 32 d.retirements 1, inService := d.inService &&& ~~~(BitVec.twoPow 2 c) }).putIsland 8 .reseatPending

/-- The code of a channel fault's cause (0x4800:12). -/
def causeCode : ChannelCause → Nat
  | .training => 1 | .uncorrectable => 2 | .phyLock => 3 | .mismatch => 4

/-- The other channel is in service. -/
def Chip.otherServes (s : Chip) (c : Nat) : Bool :=
  s.dram.inService.getLsbD (1 - c) && (s.dramCh (1 - c)).state != .faulted

/-- A channel is faulted: the automatic policy retires it at once; otherwise, or where no other channel
serves, the MI is faulted and every sequencer parks (R386). -/
def Chip.faultChannel (c : Nat) (cause : ChannelCause) (s : Chip) : Chip :=
  let s := (s.modDramCh c fun d => { d with state := .faulted }).modDram fun d => { d with lastFault := le 1 c ++ le 1 (causeCode cause) }
  let s := s.record 0x8003 8 (le 1 c ++ le 1 (causeCode cause)) c
  if s.dram.policy = 1 ∧ s.otherServes c then s.retireChannel c
  else (((s.parkAll.failRequests 4).loseStaging).modDram fun d => { d with mode := .faulted }).failIsland 8 .faulted

/-- The uncorrectable errors of a channel within the last 24 h. -/
def Chip.recentBad (s : Chip) (c : Nat) : Nat := ((s.dramCh c).badTicks.filter fun t => !s.passedMs t 86400000).length

/-- A fault's cause is present: a retraining under way, the threshold reached, or the PHY's lock lost. -/
def Chip.faultHolds (s : Chip) (c : Nat) (cause : ChannelCause) : Bool :=
  let st := (s.dramCh c).state
  match cause with
  | .phyLock => st == .running || st == .reseating
  | .uncorrectable => st == .running && decide (s.dram.threshold ≤ s.recentBad c)
  | .training => st == .reseating
  | .mismatch => st == .reseating

/-- `CHANNEL_FAULT` (R386). -/
def execChannelFault (ch : Fin 2) (cause : ChannelCause) (s : State) : Host.Outcome State Fault Refusal :=
  next s (if s.chip.faultHolds ch.val cause then s.chip.faultChannel ch.val cause else s.chip)

/-- The retire write (R388). (DEDUCED, log 58.) -/
def retireWrite (c : Nat) (_ : Req) (s : Chip) : Chip × Reply :=
  if (s.dramCh c).state = .retired ∨ s.otherServes c = false ∨ s.dram.mode = .retiring then (s, bad 0x8004) else (s.retireChannel c, ok)

/-- `CHANNEL_RETIRE` (R388). -/
def execChannelRetire (p : Path) (tag : Word16) (ch : Fin 2) (s : State) : Host.Outcome State Fault Refusal :=
  next s (hostCommand p tag 0x4800 8 (le 1 ch.val) (retireWrite ch.val) s.chip)

/-! ## Training (R369, R371) -/

/-- Drive and termination use no reserved encoding: the PHY's of Table 14.7, the DRAM's as JESD209-4 encodes them. (PRESUMED, log 24.) -/
def driveOk (b : Bytes) : Bool :=
  decide (byteAt b 0 ≤ 3) && decide (byteAt b 1 ≤ 3) && decide (1 ≤ byteAt b 2) && decide (byteAt b 2 ≤ 6) && decide (byteAt b 3 ≤ 6)

/-- The initial references use no reserved encoding: the DRAM's codes as JESD209-4 encodes them; the PHY's up to VDDQ. (PRESUMED, log 24.) -/
def refsOk (b : Bytes) : Bool :=
  ([0, 1].all fun i => decide (byteAt b i < 128) && decide (byteAt b i % 64 ≤ 50)) && decide (byteAt b 2 ≤ 180)

/-- The fixed delays of a channel lie in the ranges of Table 14.4. -/
def DramCh.delaysOk (d : DramCh) : Bool :=
  decide (d.caOffset.toNat ≤ 127) && decide (fieldAt d.wlStart 0 2 ≤ 255) && decide (fieldAt d.wlStart 2 2 ≤ 255) &&
    decide (fieldAt d.gateBase 0 2 ≤ 1023) && decide (fieldAt d.gateBase 2 2 ≤ 1023) && driveOk d.drive && refsOk d.refs

/-- The begin-training write: accepted while the MI awaits its delays. (DEDUCED, log 59.) -/
def beginTraining (_ : Req) (s : Chip) : Chip × Reply :=
  if s.dram.mode ≠ .awaitingDelays then (s, bad 5)
  else if (s.dram.channels.all fun c => c.state == .retired || c.delaysOk) = false then (s, bad 2)
  else (s.modDram fun d => { d with mode := .training, channels := d.channels.map fun c => if c.state = .retired then c else { c with state := .training } }, ok)

/-- `BEGIN_TRAINING` (R369). -/
def execBeginTraining (p : Path) (tag : Word16) (s : State) : Host.Outcome State Fault Refusal :=
  next s (hostCommand p tag 0x4800 9 [1] beginTraining s.chip)

/-- A result names a memory that the MI supports (R360). -/
def memorySupported (r : TrainResult) : Bool := decide (1 ≤ r.gib) && decide (r.gib ≤ 4) && decide (1 ≤ r.ranks) && decide (r.ranks ≤ 2)

/-- A channel's results are reported; a retired one is not trained (R360, R371, R389). -/
def DramCh.train (r : TrainResult) (d : DramCh) : DramCh :=
  if d.state = .retired then d
  else { d with gib := if memorySupported r then r.gib else d.gib, ranks := if memorySupported r then r.ranks else d.ranks, trained := r.values, state := .running }

/-- The search of a trained value stays in its window around the fixed value (R371). -/
def within (w v base : Nat) : Bool := decide (v ≤ base + w) && decide (base ≤ v + w)

/-- A channel's training succeeds: every step found its edge within its window. -/
def DramCh.trainOk (d : DramCh) (r : TrainResult) : Bool :=
  let v (i : Nat) : Nat := (r.values.getD i 0).toNat
  r.passed && memorySupported r && decide (r.values.length = 5) && within 32 (v 0) d.caOffset.toNat &&
    within 64 (v 1) (fieldAt d.wlStart 0 2) && within 64 (v 2) (fieldAt d.wlStart 2 2) &&
    within 48 (v 3) (fieldAt d.gateBase 0 2) && within 48 (v 4) (fieldAt d.gateBase 2 2)

/-- `TRAINING_COMPLETE`: the channels that trained are in service; a failed one, or a channel 1 that differs
from channel 0, is faulted (R360, R371, R386). -/
def trainingComplete (a b : TrainResult) (s : Chip) : Chip :=
  if s.dram.mode ≠ .training ∨ s.clk.refLost then s
  else
    let in0 := (s.dramCh 0).state != .retired
    let in1 := (s.dramCh 1).state != .retired
    let ok0 := in0 && (s.dramCh 0).trainOk a
    let ok1 := in1 && (s.dramCh 1).trainOk b
    let same : Bool := a.gib == b.gib && a.ranks == b.ranks
    let s := (s.modDramCh 0 (DramCh.train a)).modDramCh 1 (DramCh.train b)
    let good1 : Bool := ok1 && (!ok0 || same)
    let s := s.modDram fun d => { d with mode := .initialising, inService := (if ok0 then 1 else 0) ||| (if good1 then 2 else 0) }
    let s := if ok0 ∨ in0 = false then s else s.faultChannel 0 .training
    if good1 ∨ in1 = false then s else s.faultChannel 1 (if ok1 then .mismatch else .training)

/-- `TRAINING_COMPLETE` (R371). -/
def execTrainingComplete (ch0 ch1 : TrainResult) (s : State) : Host.Outcome State Fault Refusal := next s (trainingComplete ch0 ch1 s.chip)

/-- `PERIODIC_ZQ_CALIBRATION`: the channel is occupied for a time that R381 covers; nothing that the spec
names changes (R371). -/
def execPeriodicZqCalibration (_ch : Fin 2) (s : State) : Host.Outcome State Fault Refusal := next s s.chip

/-! ## Row activations (R374, R378) -/

/-- The neighbours of a row that exist (R378). -/
def DramCh.neighboursOf (d : DramCh) (row : Nat) : List Nat :=
  (if 2 ≤ row then [row - 2] else []) ++ (if 1 ≤ row then [row - 1] else []) ++ [row + 1, row + 2].filter fun x => decide (x < d.bankRows)

/-- The oldest neighbour refresh that waits: bank key and row. -/
def DramCh.neighbourDue (d : DramCh) : Option (Nat × Nat) := d.banks.findSome? fun e => e.2.neighbour.head?.map fun r => (e.1, r)

/-- A neighbour refresh activates and precharges each neighbour row. (DESIGN CHOICE, log 57.) -/
def DramCh.refreshNeighbours (t key row : Nat) (d : DramCh) : DramCh :=
  let rows := d.neighboursOf row
  { d with
    neighbours := satAdd 32 d.neighbours 1
    banks := d.banks.upd {} key fun b =>
      let b := { b with neighbour := b.neighbour.filter (· != row) }
      { rows.foldl (fun b r => b.activate t r) b with openRow := none } }

/-- `ROW_IDLE_CLOSE`: an open row with no request is closed (R374). -/
def rowIdle (c r b : Nat) (s : Chip) : Chip :=
  s.modDramCh c fun d =>
    if d.queue.any fun q => q.rank == r && q.bank == b && some q.row == (d.bank r b).openRow then d
    else d.modBank r b fun x => { x with openRow := none }

/-- `ROW_IDLE_CLOSE` (R374). -/
def execRowIdleClose (ch rank : Fin 2) (bank : Fin 8) (s : State) : Host.Outcome State Fault Refusal := next s (rowIdle ch.val rank.val bank.val s.chip)

/-- `ACTIVATION_TABLE_CLEAR` (R378). -/
def tablesClear (s : Chip) : Chip :=
  s.modDram fun d => { d with channels := d.channels.map fun c => { c with banks := c.banks.map fun e => (e.1, { e.2 with rows := [] }) } }

/-- `ACTIVATION_TABLE_CLEAR` (R378). -/
def execActivationTableClear (s : State) : Host.Outcome State Fault Refusal := next s (tablesClear s.chip)

/-! ## Grants (R372, R373) -/

/-- A request of a shaped class lies within its share. -/
def Dram.shaped (d : Dram) (r : DramReq) : Bool :=
  let within (used : Nat) : Bool := decide (used + 400000 * r.moved ≤ shapeDepth)
  match r.cls with
  | .secure => within d.siUsed
  | .conductor => within d.ciUsed
  | _ => true

/-- The scrub activity of the DRAM has fallen behind its share (R372, R457). -/
def Chip.scrubBehind (s : Chip) : Bool := (SMap.get s.background.activities {} 0).state == .behind

/-- A read-modify-write that touches a burst of the request is under way (R367). -/
def Chip.underRmw (s : Chip) (c : Nat) (r : DramReq) : Bool :=
  ((s.dramCh c).inFlight.any fun q => q.write && q.meets r) || s.dram.transfers.any fun t => t.done.any fun q => q.write && q.meets r

/-- A write that was accepted before a request waits for a burst of it (R373). -/
def DramCh.behindWrite (d : DramCh) (r : DramReq) : Bool := (d.queue.takeWhile (· != r)).any fun q => q.write && q.meets r

/-- A request may be granted now: in its share or with nothing unshaped waiting; scrub behind every other class, or where it has
fallen behind its share; no write to a burst whose read-modify-write is under way, or for which an earlier write waits; and no
row activated that waits for its neighbours' refresh (R367, R372, R373, R379). -/
def Chip.grantable (s : Chip) (c : Nat) (r : DramReq) : Bool :=
  let d := s.dramCh c
  let busy : Bool := d.neighbourDue.isSome || d.queue.any fun q => q.cls == .playback || q.cls == .capture
  let b := d.bank r.rank r.bank
  (s.dram.shaped r || !busy) &&
    (r.cls != .scrub || s.scrubBehind || (d.neighbourDue.isNone && d.queue.all (·.cls == .scrub))) &&
    !(r.write && (s.underRmw c r || d.behindWrite r)) &&
    (b.openRow == some r.row || !b.neighbour.contains r.row)

/-- The highest class's oldest request of a list. -/
def firstByClass (l : List DramReq) : Option DramReq :=
  let top := (l.map (·.cls.number)).foldl min 7
  l.find? (·.cls.number == top)

/-- What a channel grants next. -/
inductive Grant where
  /-- A request of the queue. -/
  | request (r : DramReq)
  /-- A neighbour refresh. -/
  | neighbour (key row : Nat)
  /-- Nothing. -/
  | nothing

/-- The watermarks turn draining on and off (R373). -/
def Chip.watermarks (c : Nat) (s : Chip) : Chip :=
  let w := s.dram.watermarks
  s.modDramCh c fun d =>
    if byteAt w 0 ≤ d.occupancy then { d with draining := true }
    else if d.occupancy ≤ byteAt w 1 then { d with draining := false } else d

/-- The choice of R372 and R373: class order among the reads and the neighbour refreshes; a write, oldest
first, while draining or when no read waits. (DESIGN CHOICE, log 56.) -/
def Chip.nextGrant (s : Chip) (c : Nat) : Grant :=
  let d := s.dramCh c
  let may := d.queue.filter (s.grantable c)
  let reads := may.filter (!·.write)
  let write := may.find? (·.write)
  let byClass : Grant := match firstByClass reads, d.neighbourDue with
    | some r, some n => if r.cls = .playback then .request r else .neighbour n.1 n.2
    | some r, none => .request r
    | none, some n => .neighbour n.1 n.2
    | none, none => .nothing
  match write with
  | some w =>
    if d.draining ∨ (d.queue.all (·.write) ∧ d.neighbourDue.isNone) then .request w
    else match byClass with
      | .nothing => .request w
      | g => g
  | none => byClass

/-- The offset of a session's window after an access (R133), and 0x5000:06; an ended session has none (R121). -/
def Chip.advanceOffset (t : Target) (n : Nat) (s : Chip) : Chip :=
  if (s.sessionOf t).isNone then s else
  let s := s.setSel t.session t.index 2 (s.sel t.session t.index 2 + n)
  if t.index = 0x5000 then s.setSel t.session 0x5000 6 (s.sel t.session 0x5000 6 + n) else s

/-- The bytes of a write reach the DRAM; the scrub's rewrite of a burst changes none (R367). -/
def Chip.storeBytes (r : DramReq) (s : Chip) : Chip := if r.cls = .scrub then s else s.dramWrite r.addr r.data

/-- A write has taken effect: a capture record is in its buffer, an SI job's output lies in DRAM, a window access is answered. -/
def Chip.writeDone (r : DramReq) (s : Chip) : Chip :=
  let s := if r.cls = .capture then s.captureLanded r else if r.cls = .secure then s.outputLanded r else s
  match r.dest with
  | some t =>
    let s := s.advanceOffset t r.data.length
    s.complete t 0 (le 8 (s.sel t.session t.index 2)) 0
  | none => s

/-- A read delivers its data. -/
def Chip.readDone (r : DramReq) (s : Chip) : Chip :=
  match r.cls with
  | .playback => s.ringBurst r false
  | .secure => match s.job r.owner with
    | some (q, j) => s.modJob q j.uid fun x => { x with input := r.data, inputDue := false }
    | none => s
  | _ => match r.dest with
    | some t => (s.advanceOffset t r.len).completeRead t 0 r.data
    | none => s

/-- The bytes of a transfer's blocks, in the order of their offsets. -/
def Transfer.bytes (x : Transfer) (l : List DramReq) : Bytes :=
  (blockParts x.req.addr x.req.size).flatMap fun p => ((l.find? fun r => r.addr == p.1).map (·.data)).getD []

/-- A block of a transfer has returned or landed; with its last one the request is complete, and a write of less than whole
bursts lands (R362, R367). -/
def Chip.blockDone (r : DramReq) (s : Chip) : Chip :=
  match s.dram.transfers.find? (·.id == r.tx) with
  | none => s
  | some x =>
    let l := if r.write && !r.rmw then x.done else x.done ++ [r]
    if 1 < x.left then
      s.modDram fun d => { d with transfers := d.transfers.map fun y => if y.id = r.tx then { y with left := y.left - 1, done := l } else y }
    else
      let s := s.modDram fun d => { d with transfers := d.transfers.filter (·.id != r.tx) }
      if r.write then (if r.rmw then s.storeBytes x.req else s).writeDone x.req
      else s.readDone { x.req with data := x.bytes l }

/-- A request of one block, or a block, has been served. -/
def Chip.served (r : DramReq) (s : Chip) : Chip :=
  if r.tx ≠ 0 then (if r.write ∧ r.rmw = false then s.storeBytes r else s).blockDone r
  else if r.write then (s.storeBytes r).writeDone r
  else s.readDone r

/-- Grant a request: a write of whole bursts is served at once, a read and the read of a partial write return later. (DESIGN CHOICE, log 56.) -/
def Chip.grantRequest (c : Nat) (r : DramReq) (s : Chip) : Chip :=
  let data := if r.write = false ∧ (r.dest.isSome ∨ r.cls = .secure) then s.bufferedRead r.addr r.len else r.data
  let s := (s.modDramCh c fun d => { d with queue := d.queue.erase r }).move c r
  if r.write ∧ r.partialWrite = false then s.served r
  else s.modDramCh c fun d => { d with inFlight := d.inFlight ++ [{ r with data := data }] }

/-- `DRAM_REQUEST_GRANT` (R372). -/
def dramGrant (c : Nat) (s : Chip) : Chip :=
  if s.dramServes = false ∨ (s.dramCh c).state ≠ .running then s
  else
    let s := s.drawShares.watermarks c
    match s.nextGrant c with
    | .request r => (s.grantRequest c r).dramAdmit
    | .neighbour key row => s.modDramCh c (DramCh.refreshNeighbours s.dram.rowHammer key row)
    | .nothing => s

/-- `DRAM_REQUEST_GRANT` (R372). -/
def execDramRequestGrant (ch : Fin 2) (s : State) : Host.Outcome State Fault Refusal := next s (dramGrant ch.val s.chip)

/-! ## Returned reads (R367, R375) -/

/-- A corrected error is counted, and the scrub rewrites the burst (R367). -/
def Chip.countCorrected (c off : Nat) (k : ReqClass) (s : Chip) : Chip :=
  let s := s.modDramCh c fun d => { d with corrected := satAdd 32 d.corrected 1 }
  if k = .scrub then s else s.dramEnqueue { cls := .scrub, addr := off, write := true, len := 64 }

/-- The outcome of an uncorrectable error for each requester (Table 14.3); a partial write of the cores, whose partition stands
in `owner`, one more than its number, is taken as an access fault. -/
def Chip.badReturn (r : DramReq) (s : Chip) : Chip :=
  match r.cls with
  | .playback => s.ringBurst r true
  | .capture => s.captureSpoiled r
  | .scrub => s
  | .conductor => if r.dest.isNone ∧ r.owner ≠ 0 then s.coreTrap (some (r.owner - 1)) else s.failRequest 0x8003 r
  | _ => s.failRequest 0x8003 r

/-- A block with an uncorrectable error ends its whole request, whose other blocks move no byte (Table 14.3). -/
def Chip.spoiled (r : DramReq) (s : Chip) : Chip :=
  if r.tx = 0 then s.badReturn r
  else match s.dram.transfers.find? (·.id == r.tx) with
    | none => s
    | some x =>
      let keep (q : DramReq) : Bool := q.tx != r.tx
      (s.modDram fun d =>
        { d with
          stalled := d.stalled.filter keep, transfers := d.transfers.filter (·.id != r.tx)
          channels := d.channels.map fun c => { c with queue := c.queue.filter keep, inFlight := c.inFlight.filter keep } }).badReturn x.req

/-- The ideal T_b of the first vector in a refill's burst, in 1/25,600 ns: none before a launch with a time is pending. (DESIGN CHOICE, log 132.) -/
def Chip.dueAt (s : Chip) (r : DramReq) : Option Nat :=
  let x := s.sq r.owner
  if x.state.inRun then some (s.fine r.owner (r.due + x.held))
  else match x.launch with
    | some l => if l.asap then none else some (100 * l.at256 + s.unitsFine x.source r.due)
    | none => none

/-- A refill returns after its deadline, 200 ns before that boundary; on the MI edge of the deadline it has met it (R24, R375). -/
def Chip.pastDeadline (s : Chip) (r : DramReq) : Bool :=
  r.cls == .playback && match s.dueAt r with
    | some t => decide (t < s.nowFine + 25600 * 200)
    | none => false

/-- `DRAM_READ_RETURN`: the oldest read of a channel returns; an error is in its burst `burst`, the last one if it has not so
many. -/
def dramReturn (c : Nat) (uncorrectable corrected : Bool) (burst : Nat) (s : Chip) : Chip :=
  match (s.dramCh c).inFlight with
  | [] => s
  | r :: rs =>
    let s := s.modDramCh c fun d => { d with inFlight := rs }
    let s := if s.pastDeadline r then s.modDram fun d => { d with misses := satAdd 32 d.misses 1 } else s
    let off := (r.addr / 64 + min burst (r.bursts - 1)) * 64
    if uncorrectable then ((s.countBad c off r.cls).spoiled r).dramAdmit
    else
      let s := s.served r
      (if corrected then s.countCorrected c off r.cls else s).dramAdmit

/-- `DRAM_READ_RETURN` (R375). -/
def execDramReadReturn (ch : Fin 2) (uncorrectable corrected : Bool) (burst : Nat) (s : State) : Host.Outcome State Fault Refusal :=
  next s (dramReturn ch.val uncorrectable corrected burst s.chip)

/-! ## Refresh (R376, R377) -/

/-- Refresh a bank: its row is closed, and the round goes on. -/
def DramCh.refreshBank (r b : Nat) (d : DramCh) : DramCh :=
  let done := d.roundDone.get 0 r
  let done := if done.testBit b then done else done + 2 ^ b
  { (d.modBank r b fun x => { x with openRow := none }) with roundDone := d.roundDone.set 0 r (if done = 255 then 0 else done) }

/-- The next bank of the round that satisfies `f`. (DESIGN CHOICE, log 57.) -/
def DramCh.nextBank (d : DramCh) (r : Nat) (f : Nat → Bool) : Option Nat :=
  (List.range 8).find? fun b => !(d.roundDone.get 0 r).testBit b && f b

/-- Issue up to `n` refreshes to idle banks of the round; the rest stay postponed. -/
def DramCh.refreshIdle (r : Nat) : Nat → DramCh → DramCh
  | 0, d => { d with postponed := d.postponed.set 0 r 0 }
  | n + 1, d =>
    match d.nextBank r fun b => !d.queue.any fun q => q.rank == r && q.bank == b with
    | some b => (d.refreshBank r b).refreshIdle r n
    | none => { d with postponed := d.postponed.set 0 r (n + 1) }

/-- `REFRESH_DUE` (R376). -/
def refreshDue (c r : Nat) (s : Chip) : Chip :=
  let d := s.dramCh c
  if d.state ≠ .running ∨ d.ranks ≤ r then s else s.modDramCh c fun d => d.refreshIdle r (d.postponed.get 0 r + 1)

/-- `REFRESH_DUE` (R376). -/
def execRefreshDue (ch rank : Fin 2) (s : State) : Host.Outcome State Fault Refusal := next s (refreshDue ch.val rank.val s.chip)

/-- `REFRESH_POSTPONE_LIMIT`: a postponed refresh goes to the next bank of the round ahead of playback, and is
counted (R27, R376). (DESIGN CHOICE, log 57.) -/
def refreshForced (c r : Nat) (s : Chip) : Chip :=
  let d := s.dramCh c
  if d.state ≠ .running ∨ d.postponed.get 0 r = 0 then s
  else match d.nextBank r fun _ => true with
    | some b => s.modDramCh c fun d =>
        { (d.refreshBank r b) with forced := satAdd 32 d.forced 1, postponed := d.postponed.set 0 r (d.postponed.get 0 r - 1) }
    | none => s

/-- `REFRESH_POSTPONE_LIMIT` (R27). -/
def execRefreshPostponeLimit (ch rank : Fin 2) (s : State) : Host.Outcome State Fault Refusal := next s (refreshForced ch.val rank.val s.chip)

/-- `MR4_READ`: the rate required by a rank; above twice nominal, or outside the limits, a record and an EMCY
when that begins (R377). (DEDUCED, log 59.) -/
def mr4Read (c r : Nat) (m : Byte) (outside : Bool) (s : Chip) : Chip :=
  let d := s.dramCh c
  if d.state ≠ .running ∨ d.ranks ≤ r ∨ (m ≠ 1 ∧ m ≠ 2 ∧ m ≠ 4) then s
  else
    let key := 4100 + 2 * c + r
    let was := s.host.conditions.any (·.key = key)
    let hot : Bool := decide (2 < m.toNat) || outside
    let s := s.modDramCh c fun d =>
      let all := d.mr4.set 1 r m
      { d with mr4 := all, multiplier := if (all.get 1 0).toNat ≤ (all.get 1 1).toNat then all.get 1 1 else all.get 1 0 }
    let s := if hot = false then s.endCondition key
      else if was then s
      else (s.record 0x8002 8 (le 1 c ++ [m]) c).raise key 0x4200 0x09 0x8002 8 (c + 256 * m.toNat)
    s.modDramCh c fun d => { d with hot := [0, 1].any fun i => s.host.conditions.any (·.key = 4100 + 2 * c + i) }

/-- `MR4_READ` (R377). -/
def execMr4Read (ch rank : Fin 2) (multiplier : Byte) (outsideLimits : Bool) (s : State) : Host.Outcome State Fault Refusal :=
  next s (mr4Read ch.val rank.val multiplier outsideLimits s.chip)

end Sys2Proof.Machine
end

