-- ==== Sys2Proof/Machine/Clocks.lean ====
section
/-! DEFINITION. CAN presence (R107, R110), clock-output transitions (R90 to R95), the synthesis PLLs (R86 to R89)
and spread (R84). -/

namespace Sys2Proof.Machine

/-! ## CAN controllers on and off the bus -/

/-- A controller may be on its bus: a node-ID is strapped (R56), the HI is online, REFCLK is there (Table 4.1), and
no re-seat holds the controller off. -/
def Chip.mayJoin (s : Chip) (b : Bus) : Bool :=
  s.host.online && s.nodeId != 0 && !s.clk.refLost && !(s.ctl b).failed && !(s.ctl b).reseating

/-- A controller goes off its bus: TX recessive, STB high; an error-passive condition of it ends. -/
def Chip.leaveBus (b : Bus) (s : Chip) : Chip :=
  (s.modCtl b fun c => { c with status := .heldOff }).endCondition (5000 + busNo b)

/-- A controller goes on its bus, error active, if it may. -/
def Chip.joinBus (b : Bus) (s : Chip) : Chip :=
  if s.mayJoin b then s.modCtl b fun c => { c with status := .errorActive } else s.modCtl b fun c => { c with status := .heldOff }

/-- The bit-timing codes of a bus, stored or default (R106). -/
def Chip.bitCode (s : Chip) (sub : Nat) : Byte := s.host.bitCodes.get (if sub % 2 = 1 then 0x02 else 0x01) sub

/-- The CAN services are initialised: both controllers join with a boot-up message, and NMT becomes
pre-operational (R107, R109). -/
def Chip.initCan (s : Chip) : Chip :=
  let s := ((s.joinBus .canA).joinBus .canB).modHost fun h => { h with nmt := .preOperational, lastBeat := s.clk.ticks }
  (s.sendCan .canA (0x700 + s.nodeId) [0]).sendCan .canB (0x700 + s.nodeId) [0]

/-! ## Frequencies -/

/-- f_VCO of a PLL in 1/2^24 Hz, as N and F give it (R86, R87). -/
def Chip.vco (s : Chip) (p : Nat) : Nat :=
  if p = 0 then 4000000000 * 2 ^ 24 else s.vco1

/-- N and F give a VCO inside 3.2 to 6.4 GHz (R87). -/
def Chip.vcoOk (s : Chip) (n f : Nat) : Bool :=
  let v := s.refNominal * (n * 2 ^ 24 + f)
  decide (16 ≤ n) && decide (n ≤ 255) && decide (3200000000 * 2 ^ 24 ≤ v) && decide (v ≤ 6400000000 * 2 ^ 24)

/-- The steady maximum of a format, Hz (Table 4.4). -/
def formatMax (fmt : Nat) : Nat :=
  match fmt with
  | 1 => 200000000
  | 2 => 125000000
  | 3 => 800000000
  | _ => 400000000

/-- Format, source and divider give a frequency inside the format's limits (R90). (DEDUCED, log 65.) -/
def Chip.outputOk (s : Chip) (fmt src div : Nat) : Bool :=
  fmt == 0 || (decide (4 ≤ div) && decide (61000 * 2 ^ 24 * div ≤ s.vco src) && decide (s.vco src ≤ formatMax fmt * 2 ^ 24 * div))

/-- The frequency of an output in whole Hz, to the nearest. (DEDUCED, log 65.) -/
def Chip.outputHz (s : Chip) (src div : Nat) : Nat := (2 * s.vco src + 2 ^ 24 * div) / (2 * (2 ^ 24 * div))

/-- The bypass divider: the smallest from 1 to 1024 with which REFCLK exceeds neither the old frequency, the new
one, nor the format's steady maximum (R92, step 1). The frequencies are given as VCO and divider. -/
def Chip.bypassDivider (s : Chip) (oldV oldDiv newV newDiv fmt : Nat) : Option Nat :=
  (List.range 1024).map (· + 1) |>.find? fun d =>
    decide (s.refNominal * 2 ^ 24 * oldDiv ≤ oldV * d) && decide (s.refNominal * 2 ^ 24 * newDiv ≤ newV * d) && decide (s.refNominal ≤ formatMax fmt * d)

/-! ## Transitions (R92) -/

/-- Step 5: the output runs at its new frequency, and the cumulative offset restarts. -/
def Chip.stepFive (k : Nat) (s : Chip) : Chip :=
  let o := s.clko k
  s.modClko k fun c => { c with status := .running, inTransition := false, fromOff := false, bypass := none, cumulative := 0, hz := s.outputHz o.sourceIn o.dividerIn }

/-- Steps 1 to 4 of a transition; `oldV` is the VCO of the old frequency. A transition from off rests low, one to off ends
at step 3. -/
def Chip.beginTransition (k oldV fmt src div : Nat) (s : Chip) : Chip :=
  let o := s.clko k
  let newV := s.vco src
  if fmt = 0 then
    s.modClko k fun c =>
      { c with formatIn := 0, sourceIn := src, dividerIn := div, status := .off, inTransition := false, fromOff := false, bypass := none, hz := 0 }
  else
    let low : Bool := o.formatIn == 0 || (o.inTransition && o.fromOff)
    let d := if low then none else s.bypassDivider oldV o.dividerIn newV div fmt
    s.modClko k fun c =>
      { c with
        formatIn := fmt, sourceIn := src, dividerIn := div, inTransition := true, fromOff := low, bypass := d
        status := if d.isSome ∧ s.clk.refLost = false then .bypass else .heldLow }

/-- A transition: step 5 follows at once where the source PLL is locked. -/
def Chip.transition (k oldV fmt src div : Nat) (s : Chip) : Chip :=
  let s := s.beginTransition k oldV fmt src div
  if fmt ≠ 0 ∧ s.locked src then s.stepFive k else s

/-- A staged apply begins when the transition before it is over (R94). -/
def Chip.stagedApply (k : Nat) (s : Chip) : Chip :=
  let o := s.clko k
  match o.again with
  | some (f, src, div) =>
    if o.inTransition then s
    else (s.modClko k fun c => { c with again := none }).transition k (s.vco o.sourceIn) f src div
  | none => s

/-- An apply of an output: its transition begins, or is staged behind the one under way (R94); stored values that still
waited give way to it. -/
def Chip.applyOutput (k fmt src div : Nat) (s : Chip) : Chip :=
  let s := s.modClko k fun c => { c with restored := none }
  if (s.clko k).inTransition then s.modClko k fun c => { c with again := some (fmt, src, div) }
  else s.transition k (s.vco (s.clko k).sourceIn) fmt src div

/-- Outputs that are not off and that a PLL feeds. -/
def Chip.outputsOf (s : Chip) (p : Nat) : List Nat :=
  (List.range 6).filter fun k => (s.clko k).formatIn != 0 && (s.clko k).sourceIn == p

/-- Stored values that waited for a PLL are applied, or refused with a record where they leave their format's
limits (R91, section 4.8). -/
def Chip.applyRestored (p : Nat) (s : Chip) : Chip :=
  (List.range 6).foldl (fun s k =>
    match (s.clko k).restored with
    | none => s
    | some (fmt, src, div) =>
      if src ≠ p then s
      else if fmt ≠ 0 ∧ s.outputOk fmt src div = false then
        (s.modClko k fun c => { c with restored := none }).record 0x0004 6 (le 2 (0x2620 + k) ++ [3] ++ le 2 2)
      else if fmt = 0 then s.modClko k fun c => { c with restored := none }
      else s.applyOutput k fmt src div) s

/-! ## PLLs -/

/-- A relock begins: the outputs the PLL feeds go through a transition, which one already in a transition waits out with
it, and PLL_0's makes the time quality bad (R86, R92, R97). `oldV` is the VCO before it. -/
def Chip.relock (p oldV : Nat) (s : Chip) : Chip :=
  let s := (s.modPll p fun l =>
    { l with state := .locking, relockAt := s.clk.ticks, relocks := if s.clk.refLost then l.relocks else satAdd 32 l.relocks 1 }).markHeld
  (s.outputsOf p).foldl (fun s k =>
    let o := s.clko k
    if o.inTransition then s else s.transition k oldV o.formatIn o.sourceIn o.dividerIn) s

/-- A faulted sequencer returns to idle on recovery (Table 9.5); a pending launch stays pending (R103). (DEDUCED, log 110.) -/
def Chip.recoverSeq (q : Nat) (s : Chip) : Chip := s.makeIdle q 8

/-- A sequencer that is not idle is faulted by a PLL fault or a REFCLK loss (R261, Table 9.5): its run ends with
cause 0x06, and an arm in progress completes with island re-seating. A pending launch stays a pending action: it runs on time
on a sequencer that has been armed again by then, or completes late (R103, section 4.10). (DEDUCED, log 110.) -/
def Chip.faultSeq (q : Nat) (s : Chip) : Chip :=
  let x := s.sq q
  if x.state = .idle ∨ x.state = .faulted then s
  else if x.state.inRun then (s.emitHolds q (s.holdsUntil q s.nowFine)).endRun q 6
  else if x.armWaiter.isSome then s.makeIdle q 8
  else
    (((s.coverLanes (s.lanesOf q)).clearRing q).modSq q fun y =>
      { y with state := .faulted, endCause := 6, launchHeld := y.launch.isSome }).leaveBarriers q

/-- Sequencers that a PLL's fault stops: every one for PLL_0, those whose timing sets select it for PLL_1. (DEDUCED, log 64.) -/
def Chip.faultSeqs (p : Nat) (s : Chip) : Chip :=
  (List.range 16).foldl (fun s q => if p = 0 ∨ (s.sq q).source = p then s.faultSeq q else s) s

/-- Every lane's path delays are measured before the TI reads running (R283). -/
def Chip.characteriseAll (s : Chip) : Chip := (List.range 64).foldl Chip.characterise s

/-- The one apply of PLL_1 at start-up, when the TI runs: from its N and F, or it stays off with a record and its outputs
with it (R88). -/
def Chip.startPll1 (s : Chip) : Chip :=
  if s.clk.pll1Started then s
  else
    let s := s.modClk fun c => { c with pll1Started := true }
    let l := s.pll 1
    if l.state ≠ .off then s
    else if s.vcoOk l.n l.f then (s.modPll 1 fun l => { l with nApplied := l.n, fApplied := l.f }).relock 1 (s.vco 1)
    else
      let s := s.record 0x0004 6 (le 2 0x2611 ++ [4] ++ le 2 2)
      (List.range 6).foldl (fun t k => t.modClko k fun c => { c with restored := c.restored.filter fun x => x.2.1 != 1 }) s

/-- The start-up apply of PLL_1 once the TI runs (R88). -/
def Chip.startIfRuns (s : Chip) : Chip := if s.island 6 = .running then s.startPll1 else s

/-- Islands that wait in loading for the PLL_0 tap begin to run, and PLL_1 is applied once the TI runs (Table 3.3,
Table 4.1, R65, R88). -/
def Chip.runTimed (s : Chip) : Chip :=
  Chip.startIfRuns <| [6, 5, 7].foldl (fun s i =>
    if s.island i = .loading ∧ s.reseating i 0xFF = false ∧ ¬ (i = 6 ∧ s.plls.any (·.faultHeld)) then
      (if i = 6 then s.characteriseAll else if i = 5 then s.modPower fun p => { p with lanesLive := true } else s).runIsland i
    else s) s

/-- No PLL is faulted and nothing else holds the TI faulted: it reads running again (R89), with its start-up done if this is its first
time (R88, R283), and sequencers that were faulted with it return to idle (Table 9.5). A TI, SQ or AQ that still waits for the tap
in loading begins with it. (DEDUCED, log 64.) -/
def Chip.recoverTi (s : Chip) : Chip :=
  let s := if s.locked 0 ∧ s.clk.refLost = false then s.runTimed else s
  if s.island 6 ≠ .faulted ∨ s.clk.refLost ∨ s.plls.any (·.faultHeld) ∨ (s.reseat.runs.any fun r => r.failed && r.island == 6) then s
  else
    let s := if s.clk.pll1Started then s else s.characteriseAll
    ((List.range 16).foldl (fun s q => if (s.sq q).state = .faulted ∧ s.reseating 5 q = false then s.recoverSeq q else s) (s.runIsland 6)).startIfRuns

/-- VDD_PLL is not good (R64). -/
def Chip.pllUnpowered (s : Chip) : Bool := !s.power.railsGood.getLsbD 2

/-- `PLL_LOCKED`: the lock detector and the window check of R89. -/
def pllLocked (p : Nat) (s : Chip) : Chip :=
  if (s.pll p).state ≠ .locking ∨ s.clk.refLost ∨ s.pllUnpowered then s
  else
    let s := s.modPll p fun l => { l with state := .locked, faultHeld := false, lastUs := (s.clk.ticks - l.relockAt) / 400 }
    let s := if p = 0 ∧ s.clk.counting = false then s.modClk fun c => { c with counting := true, action := 0 } else s
    let s := (s.outputsOf p).foldl (fun s k => if (s.clko k).inTransition then (s.stepFive k).stagedApply k else s) s
    ((s.applyRestored p).endCondition (2001 + p)).recoverTi.markHeld

/-- `PLL_LOCKED` (R89). -/
def execPllLocked (pll : Fin 2) (s : State) : Host.Outcome State Fault Refusal := next s (pllLocked pll.val s.chip)

/-- `PLL_FAULT`: not locked 2 ms after its relock began (R89). Its outputs stay on their bypass, and a transition
under way ends (R94). -/
def pllFault (p : Nat) (s : Chip) : Chip :=
  if (s.pll p).state ≠ .locking ∨ s.clk.refLost ∨ s.pllUnpowered ∨ s.overMs (s.pll p).relockAt 2 = false then s
  else
    let s := (s.modPll p fun l => { l with state := .faulted, faultHeld := true }).record 0x6001 6 (le 1 p) p
    let s := ((s.raise (2001 + p) 0x5000 0x81 0x6001 6 p).failIsland 6 .faulted).faultSeqs p
    (s.outputsOf p).foldl (fun s k =>
      if (s.clko k).inTransition then (s.modClko k fun c => { c with inTransition := false, fromOff := false }).stagedApply k else s) s.markHeld

/-- `PLL_FAULT` (R89). -/
def execPllFault (pll : Fin 2) (s : State) : Host.Outcome State Fault Refusal := next s (pllFault pll.val s.chip)

/-- An armed or active sequencer has a timing set that selects PLL_1 (R88). -/
def Chip.pll1Used (s : Chip) : Bool := s.seqs.any fun x => x.2.state.busy && x.2.source == 1

/-- A write of 0x01 to the PLL_1 apply object (R88). (DEDUCED, log 25, log 65.) -/
def pll1Apply (_ : Req) (s : Chip) : Chip × Reply :=
  if s.pll1Used then (s, bad 3)
  else
    let oldV := s.vco 1
    -- an output in a transition finishes it and then takes the relock as a new one (R94)
    let s := (s.outputsOf 1).foldl (fun t k => t.modClko k fun c =>
      if c.inTransition then { c with again := some (c.again.getD (c.formatIn, c.sourceIn, c.dividerIn)) } else c) s
    ((((s.modPll 1 fun l => { l with nApplied := l.n, fApplied := l.f }).endCondition 2002).relock 1 oldV), ok)

/-- `PLL1_APPLY` (R87, R88). -/
def execPll1Apply (p : Path) (tag : Word16) (s : State) : Host.Outcome State Fault Refusal :=
  next s (hostWrite p tag 0x2611 4 [1] (fun _ s => if s.vcoOk (s.pll 1).n (s.pll 1).f then 0 else 2) pll1Apply s.chip)

/-- A write of 0x02 to the PLL_1 apply object (R88): PLL_1 is off. -/
def pll1Off (_ : Req) (s : Chip) : Chip × Reply :=
  if s.pll1Used ∨ s.outputsOf 1 ≠ [] then (s, bad 3)
  else (((s.modPll 1 fun l => { l with state := .off, faultHeld := false }).endCondition 2002).recoverTi, ok)

/-- `PLL1_POWER_OFF` (R88). -/
def execPll1PowerOff (p : Path) (tag : Word16) (s : State) : Host.Outcome State Fault Refusal :=
  next s (hostCommand p tag 0x2611 4 [2] pll1Off s.chip)

/-! ## Clock outputs -/

/-- `CLKO_APPLY`: the staged format, source and divider are applied as one transition (R90, R91). -/
def execClkoApply (p : Path) (tag : Word16) (k : Fin 6) (s : State) : Host.Outcome State Fault Refusal :=
  next s (hostWrite p tag (0x2620 + k.val) 9 [1]
    (fun _ s => let o := s.clko k.val; if s.outputOk o.format o.source o.divider then 0 else 2)
    (fun _ s => let o := s.clko k.val; (s.applyOutput k.val o.format o.source o.divider, ok)) s.chip)

/-- A signed write to the phase-step object adds to the pending steps, which stay inside 16 bits (R95). (DEDUCED, log 25.) -/
def execClkoPhaseStep (p : Path) (tag : Word16) (k : Fin 6) (steps : Word16) (s : State) : Host.Outcome State Fault Refusal :=
  next s (hostWrite p tag (0x2620 + k.val) 4 (le 2 steps.toNat)
    (fun _ s => let n := (s.clko k.val).pendingSteps + steps.toInt; if -32768 ≤ n ∧ n ≤ 32767 then 0 else 2)
    (fun _ s => (s.modClko k.val fun c => { c with pendingSteps := c.pendingSteps + steps.toInt }, ok)) s.chip)

/-- `PHASE_STEP_APPLIED`: one step in an output period, outside transitions (R95). -/
def phaseStep (k : Nat) (s : Chip) : Chip :=
  let o := s.clko k
  if o.status ≠ .running ∨ o.inTransition ∨ o.pendingSteps = 0 then s
  else
    let d : Int := if 0 < o.pendingSteps then 1 else -1
    s.modClko k fun c => { c with pendingSteps := c.pendingSteps - d, cumulative := c.cumulative + d }

/-- `PHASE_STEP_APPLIED` (R95). -/
def execPhaseStepApplied (k : Fin 6) (s : State) : Host.Outcome State Fault Refusal := next s (phaseStep k.val s.chip)

/-- `SPREAD_TAKES_EFFECT`: at the crossing of the unspread frequency; not while the standby oscillator clocks the
island (R83, R84). -/
def execSpreadTakesEffect (unit : Fin 4) (s : State) : Host.Outcome State Fault Refusal :=
  next s (if s.chip.clk.refLost then s.chip
    else s.chip.modClk fun c => { c with spreadInForce := c.spreadInForce.set 0 unit.val (c.spread.get 0 unit.val) })

end Sys2Proof.Machine
end

