-- ==== Sys2Proof/Machine/Cluster.lean ====
section
/-! DEFINITION. The Nestan link (chapter 17): link and ring, election, calibration, time distribution,
heartbeats and agreement, cluster barriers' frames, and DATA flows. -/

namespace Sys2Proof.Machine

/-! ## Frames that arrive (R423, R425) -/

/-- What a device does with a frame. -/
inductive Heed where
  /-- It is the device's own, back from the ring, and is removed. -/
  | own
  /-- It is addressed to the device and consumed. -/
  | mine
  /-- It is consumed and forwarded. -/
  | both
  /-- It is forwarded only. -/
  | pass
  deriving DecidableEq, Repr

/-- The rule of R425. -/
def Chip.heed (s : Chip) (f : Frame) : Heed :=
  let p := s.cluster.position
  if p ≠ 0xFE ∧ f.src = p then .own else if p ≠ 0xFE ∧ f.dst = p then .mine else if f.dst = 0xFF then .both else .pass

/-- A frame of a type arrives: bad ones are discarded and counted; the device hears nothing while its link is
down or its CL does not run. -/
def Chip.hear (type : Nat) (b : Bytes) (s : Chip) : Chip × Option Frame :=
  if s.cluster.linkUp = false ∨ s.runs 10 = false then (s, none)
  else match parseFrame b with
    | none => (s.modCluster fun c => { c with discarded := satAdd 32 c.discarded 1 }, none)
    | some f => if f.type ≠ type then (s, none) else (s.modCluster fun c => { c with received := satAdd 32 c.received 1 }, some f)

/-- A broadcast or addressed frame arrives that is forwarded unchanged: `f` is what a device that consumes it
does, `own` what the source does when it returns. -/
def Chip.onFrame (type : Nat) (b : Bytes) (consume : Frame → Chip → Chip) (s : Chip) : Chip :=
  match s.hear type b with
  | (s, none) => s
  | (s, some f) =>
    match s.heed f with
    | .own => s
    | .mine => consume f s
    | .both => consume f (s.forwardFrame f)
    | .pass => s.forwardFrame f

/-- The frame is of this device's cluster. -/
def Chip.ofCluster (s : Chip) (f : Frame) : Bool := f.cluster == s.cluster.clusterId.toNat && s.cluster.clusterId != 0xFF

/-! ## Election (R427, R429) -/

/-- A pair of priority and serial is better. -/
def better (p q : Nat × Nat) : Bool := decide (p.1 < q.1) || (p.1 == q.1 && decide (p.2 < q.2))

/-- The device takes part in an election of its cluster. -/
def Chip.standing (s : Chip) : Bool := s.cluster.state != .left && s.cluster.clusterId != 0xFF

/-- The best pair among this device and the members it counts: heard, neither lost nor gone, and agreeing (R429, R431). -/
def Chip.elect (s : Chip) : Nat :=
  let c := s.cluster
  let others := (List.range c.ring.length).filterMap fun p =>
    let m := c.ring.getD p {}
    if p ≠ c.position ∧ s.counts m then some (m.priority, m.serial) else none
  (others.foldl (fun b m => if better m b then m else b) (c.priority.toNat, s.serial)).2

/-- A device becomes the master; a new one's first SYNC brings the pending ARRIVE frames again (R441). -/
def Chip.setMaster (serial : Nat) (s : Chip) : Chip :=
  if s.cluster.master = serial then s
  else s.modCluster fun c =>
    { c with master := serial, resendArrive := true
             barriers := c.barriers.map fun e => (e.1, { e.2 with arrivals := [], held := false }) }

/-- The device is the one the election names, and has a place on a closed ring: it makes every comparison, also while a
disagreement keeps its cluster from forming (R429, R432). -/
def Chip.named (s : Chip) : Bool :=
  s.standing && s.cluster.master == s.serial && s.cluster.position != 0xFE && s.cluster.size != 0 && s.cluster.cause != 3

/-- It acts as the master. -/
def Chip.elected (s : Chip) : Bool := s.named && s.cluster.state != .refused

/-! ## Disagreements and formation (R431, R432) -/

/-- A disagreement of a kind at a ring position holds or not: a record when it arises and when it ends. -/
def Chip.disagree (kind pos : Nat) (holds : Bool) (s : Chip) : Chip :=
  let was := s.cluster.disagreements.contains (kind, pos)
  if holds = was then s
  else if holds then
    (s.modCluster fun c => { c with disagreements := c.disagreements ++ [(kind, pos)] }).record 0xA002 10 (le 1 kind ++ le 1 pos)
  else (s.modCluster fun c => { c with disagreements := c.disagreements.filter (· != (kind, pos)) }).record 0xA003 10 (le 1 kind ++ le 1 pos)

/-- The other positions of this device's cluster ID. -/
def Chip.peers (s : Chip) : List Nat :=
  let c := s.cluster
  (List.range c.ring.length).filter fun p => p != c.position && (c.ring.getD p {}).cluster == c.clusterId.toNat && (c.ring.getD p {}).state != 7

/-- The first arm digest that is not all zero, the device's own first. -/
def Chip.armReference (s : Chip) : Bytes :=
  ((s.deviceArmDigest :: s.peers.map fun p => (s.cluster.ring.getD p {}).armDigest).find? fun d => d.any (· != 0)).getD []

/-- A member's time is out of agreement: its offset, its reading, or a late heartbeat (Table 17.6). -/
def Chip.timeOut (s : Chip) (m : Member) : Bool := decide (256 < m.offset.natAbs) || m.ownBad || s.passedMs (m.lastAt + 1) 10

/-- The master compares: records, the SYNC flags, and barriers that may now complete. Its own bad reading counts as a member's.
(DEDUCED, log 54.) -/
def Chip.compareMembers (s : Chip) : Chip :=
  if s.named = false then s
  else
    let ref := s.armReference
    let s := s.peers.foldl (fun s p =>
      let m := s.cluster.ring.getD p {}
      let arm : Bool := m.armDigest.any (· != 0) && m.armDigest != ref
      let s := ((s.disagree 1 p (m.heard && m.digest != s.boot.digest)).disagree 2 p (m.heard && m.life != BitVec.ofNat 8 s.life.state.code))
      (s.disagree 3 p (s.counts m && arm)).disagree 4 p (s.formed && s.counts m && s.timeOut m)) s
    let s := s.disagree 4 s.cluster.position (s.formed && s.localBad)
    let bad := s.cluster.disagreements.any (·.1 == 4)
    let arms := s.cluster.disagreements.any (·.1 == 3)
    let s := (s.modCluster fun c => { c with timeBad := bad, digestBad := arms }).markHeld
    (List.range 16).foldl (fun s i => s.completeBarrier (16 + i)) s

/-- The master forms its cluster once every device of its cluster ID has been heard within 30 ms and agrees; its time is the
cluster's, and stands when another becomes master (R429, R431). -/
def Chip.tryForm (s : Chip) : Chip :=
  let c := s.cluster
  if s.elected = false ∨ (c.state ≠ .closed ∧ c.state ≠ .forming ∧ c.state ≠ .holdOver) then s
  else if s.peers.all fun p => s.counts (c.ring.getD p {}) && !s.passedMs ((c.ring.getD p {}).lastAt + 1) 30 then
    s.modCluster fun c => { c with state := .formed, cause := 0, lastSync := s.clk.ticks, adopted := true }
  else s

/-- A device that is not formed sees a heartbeat of its cluster ID that disagrees: no cluster forms, or, where
the cluster has formed without it and the heartbeat is the master's, it is refused. (DEDUCED, log 54.) -/
def Chip.judgeHeartbeat (m : Member) (s : Chip) : Chip :=
  let c := s.cluster
  let concerns : Bool := !c.flagFormed || m.serial == c.master
  if s.formed ∨ s.standing = false ∨ c.state = .holdOver ∨ m.state = 7 ∨ concerns = false then s
  else if m.digest ≠ s.boot.digest then s.modCluster fun c => { c with state := .refused, cause := 1 }
  else if m.life ≠ BitVec.ofNat 8 s.life.state.code then s.modCluster fun c => { c with state := .refused, cause := 2 }
  else s

/-! ## Link and ring (R422, R427, R428, R442) -/

/-- `LINK_UP` (R422); the link is down while REFCLK is lost (Table 4.1). -/
def linkUp (s : Chip) : Chip :=
  if s.runs 10 = false ∨ s.clk.refLost then s
  else s.modCluster fun c => { c with linkUp := true, state := if c.state = .linkDown then .ringOpen else c.state }

/-- `LINK_UP` (R422). -/
def execLinkUp (s : State) : Host.Outcome State Fault Refusal := next s (linkUp s.chip)

/-- The serial of the device at a ring position. -/
def Cluster.serialAt (c : Cluster) (p : Nat) : Nat := (c.ring.getD p {}).serial

/-- The flows of the positions that `f` picks end: what they held is discarded, and the owning service is told (R426). -/
def Cluster.endFlows (f : Nat → Bool) (c : Cluster) : Cluster :=
  { c with
    flows := c.flows.filter fun e => !f e.1
    flowsEnded := c.flowsEnded ++ ((c.flows.filter fun e => f e.1).map fun e => c.serialAt e.1) }

/-- Every flow ends. -/
def Chip.dropFlows (s : Chip) : Chip := s.modCluster (Cluster.endFlows fun _ => true)

/-- The flows follow their devices to new ring positions; that to a device that has left the ring ends (R426). -/
def Cluster.moveFlows (ring : List Member) (c : Cluster) : Cluster :=
  let place (p : Nat) : Nat := ring.findIdx fun m => m.serial == c.serialAt p
  let d := c.endFlows fun p => decide (ring.length ≤ place p)
  { d with flows := d.flows.foldl (fun m e => m.put (place e.1) e.2) [] }

/-- The ring opens: positions are gone; a formed member stays so until it misses its SYNCs (R428, R442). (DEDUCED, log 55.) -/
def Chip.openRing (to_ : ClState) (s : Chip) : Chip :=
  let keep : Bool := s.formed || s.cluster.state == .holdOver
  let s := s.modCluster fun c =>
    { c with
      size := 0, position := 0xFE, upstream := [], calibrating := false, calSums := [], flagFormed := false
      state := if keep ∨ c.state = .left then c.state else to_
      cause := if keep ∨ c.state = .left then c.cause else 0 }
  if keep then s else s.dropFlows

/-- `LINK_DOWN` (R422, R442). -/
def execLinkDown (s : State) : Host.Outcome State Fault Refusal :=
  next s (if s.chip.runs 10 = false then s.chip else (s.chip.openRing .linkDown).modCluster fun c => { c with linkUp := false })

/-- The stored cluster ID, priority and hop length come into force; with another cluster ID the device is no member of its cluster
any more, whose hold-over holds for the same cluster only (R442, R444). -/
def Cluster.takeStored (c : Cluster) : Cluster :=
  let c : Cluster := if c.clusterStored = c.clusterId ∨ (c.state ≠ .formed ∧ c.state ≠ .holdOver) then c
    else { c with state := .ringOpen, adopted := false, goodSyncs := 0, adjust := 0, slewing := false, timeBad := false, digestBad := false, master := 0 }
  { c with clusterId := c.clusterStored, priority := c.priorityStored, hopLength := c.hopStored }

/-- `HELLO_SEND`: the device's own pair as the best, hop count 1 (R427). (DEDUCED, log 52.) -/
def helloSend (s : Chip) : Chip :=
  if s.cluster.linkUp = false ∨ s.transmits = false then s
  else
    let s := if s.cluster.size = 0 then s.modCluster Cluster.takeStored else s
    let c := s.cluster
    let id : Nat := if c.state = .left then 0xFF else c.clusterId.toNat
    s.sendFrame
      { type := 1, cluster := 0xFF, src := c.position, dst := 0xFF, seq := 0
        payload := be 4 s.serial ++ be 1 id ++ be 1 c.priority.toNat ++ be 1 1 ++ be 4 s.serial ++ be 1 c.priority.toNat ++ be 2 c.hopLength }

/-- `HELLO_SEND` (R427). -/
def execHelloSend (s : State) : Host.Outcome State Fault Refusal := next s (helloSend s.chip)

/-- The member that a HELLO describes. -/
def helloMember (f : Bytes) (m : Member) : Member :=
  { m with serial := beNat (slice f 0 4), cluster := byteAt f 4, priority := byteAt f 5 }

/-- The ring by position, as this device knows its members; what it had heard of a device by serial stays. -/
def Chip.membersOf (s : Chip) (serials : List Nat) (pos : Nat) : List Member :=
  let c := s.cluster
  let n := serials.length
  (List.range n).map fun p =>
    let serial := serials.getD p 0
    let known := ((c.ring.find? fun m => m.serial == serial).orElse fun _ => c.upstream.find? ((pos + n - p) % n)).getD {}
    if serial = s.serial then { serial := serial, cluster := c.clusterId.toNat, priority := c.priority.toNat }
    else if known.serial = serial then known
    else { serial := serial, cluster := 0xFF }

/-- Ring positions come into force (R428). -/
def Chip.takePositions (serials : List Nat) (s : Chip) : Chip :=
  let pos := serials.findIdx (· == s.serial)
  let ring := s.membersOf serials pos
  s.modCluster fun c =>
    { c.moveFlows ring with position := pos, ring := ring, state := if c.state = .closed ∧ c.clusterId ≠ 0xFF then .forming else c.state }

/-- A CAL-RESULT of serials and incoming hop delays (Table 17.3). -/
def calResultPayload (l : List (Nat × Nat)) : Bytes := be 1 l.length ++ l.flatMap fun e => be 4 e.1 ++ be 4 e.2

/-- The serials of the closed ring, this device first: position p lies n − p hops upstream. -/
def Chip.downstream (s : Chip) (n : Nat) : List Nat :=
  s.serial :: (List.range (n - 1)).map fun i => ((s.cluster.upstream.find? (n - 1 - i)).map (·.serial)).getD 0

/-- The device with the lowest serial assigns positions and sends them (R428). (DEDUCED, log 52.) -/
def Chip.assignPositions (n : Nat) (s : Chip) : Chip :=
  let l := s.downstream n
  if s.cluster.position ≠ 0xFE ∨ (l.drop 1).any (fun x => x == 0 || decide (x < s.serial)) then s
  else
    let s := s.takePositions l
    s.sendFrame { type := 4, cluster := 0xFF, src := 0, dst := 0xFF, seq := 0, payload := calResultPayload (l.map fun x => (x, 0)) }

/-- The device's own HELLO returns: the ring is closed, its size known, and the best pair names the master
(R427, R429). -/
def Chip.ringClosed (f : Frame) (s : Chip) : Chip :=
  let n := byteAt f.payload 6
  let best := beNat (slice f.payload 7 4)
  let fresh : Bool := s.cluster.size != n
  let s := if fresh then s.modCluster fun c =>
      let c := c.takeStored
      { c with
        size := n, upstream := c.upstream.filter (·.1 < n), position := 0xFE
        state := if c.state = .formed ∨ c.state = .holdOver ∨ c.state = .left then c.state else .closed
        cause := if c.state = .left then c.cause else 0 }
    else s
  if 8 < n then s.modCluster fun c => { c with state := if c.state = .left then .left else .refused, cause := if c.state = .left then c.cause else 3 }
  else
    let s := s.assignPositions n
    let gone : Bool := s.cluster.ring.any fun m => m.serial == best && (m.lost || m.state == 7)
    let s := if s.standing = false then s.modCluster fun c => { c with master := 0 } else if gone then s else s.setMaster best
    s.tryForm

/-- A HELLO of another device passes: it is noted, updated and forwarded. -/
def Chip.passHello (f : Frame) (s : Chip) : Chip :=
  let p := f.payload
  let hop := byteAt p 6
  let c := s.cluster
  let mine := (c.priority.toNat, s.serial)
  let replace : Bool := s.standing && byteAt p 4 == c.clusterId.toNat && better mine (byteAt p 11, beNat (slice p 7 4))
  let q := slice p 0 6 ++ be 1 (hop + 1) ++ (if replace then be 4 mine.2 ++ be 1 mine.1 else slice p 7 5) ++ slice p 12 2
  let s := s.modCluster fun c =>
    { c with upstream := c.upstream.put hop (helloMember p {})
             ring := c.ring.map fun m => if m.serial = beNat (slice p 0 4) then helloMember p m else m }
  s.forwardFrame { f with payload := q }

/-- `HELLO` (R427). -/
def hello (b : Bytes) (s : Chip) : Chip :=
  match s.hear 1 b with
  | (s, none) => s
  | (s, some f) =>
    if f.payload.length ≠ 14 then s.modCluster fun c => { c with discarded := satAdd 32 c.discarded 1 }
    else if beNat (slice f.payload 0 4) = s.serial then s.ringClosed f
    else s.passHello f

/-- `HELLO` (R427). -/
def execHello (frame : Bytes) (s : State) : Host.Outcome State Fault Refusal := next s (hello frame s.chip)

/-! ## Calibration (R435) -/

/-- The entries of a CAL-RESULT: serial and incoming hop delay. -/
def calEntries (p : Bytes) : List (Nat × Nat) := (List.range (byteAt p 0)).map fun i => (beNat (slice p (1 + 8 * i) 4), beNat (slice p (5 + 8 * i) 4))

/-- A CAL-RESULT is taken: positions, the hop delay for the next SYNC, and W, which is the sum of the delays; that which only assigns
positions carries none (R428, R435). -/
def Chip.takeCalResult (f : Frame) (s : Chip) : Chip :=
  let l := calEntries f.payload
  match l.find? (·.1 == s.serial) with
  | none => s
  | some e =>
    let serials := l.map (·.1)
    let s := if s.cluster.position = 0xFE ∨ s.cluster.ring.map (·.serial) ≠ serials then s.takePositions serials else s
    let w := (l.map (·.2)).sum
    s.modCluster fun c => if w = 0 then { c with hopNext := some e.2 } else { c with hopNext := some e.2, wire := w, lastCal := s.upMs % 2 ^ 32 }

/-- `CAL_RESULT` (R428, R435). -/
def execCalResult (frame : Bytes) (s : State) : Host.Outcome State Fault Refusal :=
  next s (s.chip.onFrame 4 frame Chip.takeCalResult)

/-- The device is the ring calibrator. -/
def Chip.calibrator (s : Chip) : Bool := s.cluster.size != 0 && s.cluster.position == 0

/-- A calibration starts, in place of one under way: 256 CAL frames at 10 µs intervals. (DEDUCED, log 52.) -/
def Chip.startCalibration (s : Chip) : Chip :=
  let s := s.modCluster fun c =>
    { c with calibrating := true, calSums := [], tx := c.tx.filter fun t => t.forwarded || t.frame.type != 3 }
  (List.range 256).foldl (fun s i =>
    s.handFrame
      { frame := { type := 3, cluster := 0xFF, src := s.cluster.position, dst := 0xFF, seq := 0, payload := frameStamp s.clk.action 0 ++ [0] }
        due := s.clk.ticks + 4000 * i }) s

/-- `CALIBRATION_START` (R435). -/
def execCalibrationStart (s : State) : Host.Outcome State Fault Refusal :=
  next s (if s.chip.calibrator ∧ s.chip.transmits then s.chip.startCalibration else s.chip)

/-- Calibrate now: the device that is told to calibrates the ring itself, as no frame asks the calibrator to. (DEDUCED, log 52.) -/
def calibrateNow (_ : Req) (s : Chip) : Chip × Reply :=
  if s.cluster.size = 0 then (s, bad 0xA001)
  else (if s.cluster.position ≠ 0xFE ∧ s.transmits then s.startCalibration else s, ok)

/-- `CALIBRATE_NOW` (R435, R445). -/
def execCalibrateNow (p : Path) (tag : Word16) (s : State) : Host.Outcome State Fault Refusal :=
  next s (hostCommand p tag 0x4A00 0x10 [1] calibrateNow s.chip)

/-- The hop delays of a ring whose declared incoming lengths are `lens`: W in proportion to length, rounded, the
rest to the longest hop of lowest position (R435). -/
def apportion (w : Nat) (lens : List Nat) : List Nat :=
  let lens := if lens.any (· == 0) then lens.map fun _ => 1 else lens
  let total := lens.sum
  let d := lens.map fun l => (2 * w * l + total) / (2 * total)
  let i := lens.findIdx fun l => l == lens.foldl max 0
  d.set i (((d.getD i 0 : Int) + (w : Int) - (d.sum : Int)).toNat)

/-- The calibration ends: W, the hop delays, and their CAL-RESULT in position order, which begins `first` hops behind this device. -/
def Chip.finishCalibration (sums : List Nat) (s : Chip) : Chip :=
  let w := (2 * sums.sum + 256) / 512
  let c := s.cluster
  let ring := (s.serial, c.hopLength) :: c.calHops
  let first := ring.length - c.position
  let inOrder := ring.drop first ++ ring.take first
  let d := apportion w (inOrder.map (·.2))
  let s := s.modCluster fun c =>
    { c with calibrating := false, calSums := [], wire := w, lastCal := s.upMs % 2 ^ 32, hopNext := some (d.getD c.position 0) }
  s.sendFrame
    { type := 4, cluster := 0xFF, src := c.position, dst := 0xFF, seq := 0, payload := calResultPayload ((inOrder.map (·.1)).zip d) }

/-- The entries of a CAL frame: serial, incoming hop length, residence. -/
def calFrameEntries (p : Bytes) : List (Nat × Nat × Nat) :=
  (List.range (byteAt p 10)).map fun i => (beNat (slice p (11 + 10 * i) 4), beNat (slice p (15 + 10 * i) 2), beNat (slice p (17 + 10 * i) 4))

/-- `CAL`: the calibrator measures the loop; any other device appends its entry and forwards (R435). -/
def calFrame (b : Bytes) (loop256 residence : Nat) (s : Chip) : Chip :=
  match s.hear 3 b with
  | (s, none) => s
  | (s, some f) =>
    match s.heed f with
    | .own =>
      if s.cluster.calibrating = false then s
      else
        let l := calFrameEntries f.payload
        let sums := s.cluster.calSums ++ [loop256 - (l.map (·.2.2)).sum]
        let s := s.modCluster fun c => { c with calSums := sums, calHops := l.map fun e => (e.1, e.2.1) }
        if sums.length < 256 then s else s.finishCalibration sums
    | _ =>
      let k := byteAt f.payload 10
      s.forwardFrame { f with payload := f.payload.take 10 ++ be 1 (k + 1) ++ slice f.payload 11 (10 * k) ++ be 4 s.serial ++ be 2 s.cluster.hopLength ++ be 4 residence }

/-- `CAL` (R435). -/
def execCal (frame : Bytes) (loop256 residence256 : Nat) (s : State) : Host.Outcome State Fault Refusal := next s (calFrame frame loop256 residence256 s.chip)

/-! ## Time (R433, R434, R442) -/

/-- The new incoming hop delay is taken at a SYNC (R435). -/
def Chip.takeHop (s : Chip) : Chip :=
  s.modCluster fun c => match c.hopNext with
    | some d => { c with hopDelay := d, hopNext := none }
    | none => c

/-- The pending ARRIVE frames go to a new master (R441), and those that could not be sent before (R438, R442). -/
def Chip.resendArrives (s : Chip) : Chip :=
  if s.cluster.resendArrive = false ∨ s.formed = false then s
  else
    let s := s.modCluster fun c => { c with resendArrive := false }
    (List.range 16).foldl (fun s i =>
      let x := s.barrier (16 + i)
      match x.owed with
      | some w => s.sendArrive (16 + i) w
      | none => if x.localArrived then s.sendArrive (16 + i) false else s) s

/-- `NESTAN_SYNC_SEND`: the master's SYNC (R433), behind which its own pending ARRIVE is entered again (R441). -/
def syncSend (s : Chip) : Chip :=
  if s.elected = false ∨ s.transmits = false then s
  else
    let s := s.takeHop.tryForm.compareMembers
    let c := s.cluster
    let flags := (if c.timeBad then 0 else 1) + (if s.formed then 2 else 0) + if c.digestBad then 4 else 0
    ((s.sendCluster 2 0xFF (frameStamp s.clk.action 1 ++ be 8 0 ++ be 1 flags ++ be 2 c.syncSeq)).modCluster fun c =>
      { c with syncSeq := (c.syncSeq + 1) % 65536 }).resendArrives

/-- `NESTAN_SYNC_SEND` (R433). -/
def execNestanSyncSend (s : State) : Host.Outcome State Fault Refusal := next s (syncSend s.chip)

/-- Times kept in action time follow an adoption. -/
def Seq.shiftTime (d : Int) (x : Seq) : Seq :=
  if x.state.inRun then
    { x with
      shift256 := x.shift256 + d
      eventAt := x.eventAt.map fun (e : Nat × Nat) => (e.1, ((e.2 : Int) + d).toNat)
      lastClose := ((x.lastClose : Int) + 100 * d).toNat
      resumeAt := ((x.resumeAt : Int) + 100 * d).toNat
      sealedCfg := { x.sealedCfg with startAt := ((x.sealedCfg.startAt : Int) + 100 * d).toNat } }
  else x

/-- The time base is adopted: every pending action is cancelled, the generation advances (R96, R434). (DEDUCED, log 53.) -/
def Chip.adopt (t256 : Nat) (s : Chip) : Chip :=
  let d : Int := (t256 : Int) - s.clk.action
  let s := s.cancelLaunches
  let s := { s with seqs := s.seqs.map fun (e : Nat × Seq) => (e.1, e.2.shiftTime d) }
  (s.modClk fun c => { c with action := t256, generation := (c.generation + 1) % 65536, timeSource := 1 }).modCluster fun c =>
    { c with adopted := true, adjust := 0, slewing := false, goodSyncs := 0 }

/-- Move the action time by a signed amount of 1/256 ns. (DEDUCED, log 53.) -/
def Chip.slew (d : Int) (s : Chip) : Chip := s.modClk fun c => { c with action := ((c.action : Int) + d).toNat }

/-- What is to be added to the action time goes in at each µs from the SYNC: one step of 1/256 ns, or while the device slews what
keeps it within 20 ns a ms (R434). (DEDUCED, log 53.) -/
def Chip.adjustStep (s : Chip) : Chip :=
  let c := s.cluster
  let n := (s.clk.ticks - c.lastSync) / 400
  if c.adjust = 0 ∨ s.clk.ticks ≤ c.lastSync ∨ (s.clk.ticks - c.lastSync) % 400 ≠ 0 then s
  else
    let most : Int := if c.slewing then (5120 * n / 1000 - 5120 * (n - 1) / 1000 : Nat) else 1
    let d := max (-most) (min most c.adjust)
    (s.slew d).modCluster fun c => { c with adjust := c.adjust - d }

/-- A member acts on its offset (R434): adoption beyond 1 µs or at the first SYNC after a join, a slew beyond 1 ns, and steps of
1/256 ns within it. -/
def Chip.actOnOffset (sync256 : Nat) (offset : Int) (s : Chip) : Chip :=
  if s.cluster.adopted = false ∨ 256000 < offset.natAbs then s.adopt sync256
  else if 256 < offset.natAbs then
    s.modCluster fun c => { c with adjust := -offset, slewing := true, goodSyncs := 0 }
  else s.modCluster fun c => { c with adjust := -offset, slewing := false, goodSyncs := min 16 (c.goodSyncs + 1) }

/-- The master agrees with this device: its heartbeat says so to one that joins (R443), and one that is or was a member goes on
unless its heartbeat says otherwise (R442). -/
def Chip.agreesWithMaster (s : Chip) : Bool :=
  let c := s.cluster
  if c.state = .formed ∨ c.state = .holdOver then c.ring.all fun m => m.serial != c.master || !m.heard || s.counts m
  else c.ring.any fun m => m.serial == c.master && s.counts m

/-- A SYNC of the device's own cluster. (DEDUCED, log 54.) -/
def Chip.takeSync (t : Nat) (flags : Nat) (s : Chip) : Chip :=
  let offset : Int := (s.clk.action : Int) - t
  let formed : Bool := flags.testBit 1
  let s := s.modCluster fun c =>
    { c with
      offset := offset, lastSync := s.clk.ticks, timeBad := !flags.testBit 0, digestBad := flags.testBit 2, flagFormed := formed
      state := if formed ∧ c.state ≠ .left ∧ s.agreesWithMaster ∧ c.cause ≠ 3 then .formed else c.state
      cause := if formed ∧ c.state ≠ .left ∧ s.agreesWithMaster ∧ c.cause ≠ 3 then 0 else c.cause }
  if s.formed = false then s
  else if s.runs 6 = false then
    -- the TI takes nothing: the entry waits in CH_18, or with 4 there is refused (R22, R97)
    (s.modClk fun c => if c.ch18 < 4 then { c with ch18 := c.ch18 + 1 } else { c with ch18Refused := true }).markHeld
  else (((s.modClk fun c => { c with ch18 := 0, ch18Refused := false }).actOnOffset t offset).markHeld).resendArrives

/-- `NESTAN_SYNC`: every device adds its hop delay and, forwarding it, its residence; a member of the cluster
computes its offset and acts on it (R433, R434). The master notes its own SYNC's return. -/
def nestanSync (b : Bytes) (residence : Nat) (s : Chip) : Chip :=
  match s.hear 2 b with
  | (s, none) => s
  | (s, some f) =>
    match s.heed f with
    | .own => s.modCluster fun c => { c with lastSync := s.clk.ticks }
    | _ =>
      let s := s.takeHop
      let corr : Int := signed 64 (beNat (slice f.payload 10 8)) + s.cluster.hopDelay
      let q := f.payload.take 10 ++ be 8 (unsigned 64 (corr + residence)) ++ f.payload.drop 18
      let s := s.forwardFrame { f with payload := q }
      if s.ofCluster f ∧ s.cluster.state ≠ .left then
        s.takeSync (((stampTime f.payload : Int) + corr).toNat) (byteAt f.payload 18)
      else s

/-- `NESTAN_SYNC` (R433). -/
def execNestanSync (frame : Bytes) (residence256 : Nat) (s : State) : Host.Outcome State Fault Refusal := next s (nestanSync frame residence256 s.chip)

/-- `SYNC_MISSED`: three SYNCs missed in a row start the hold-over (R442); the ring, if it is closed, keeps its positions (R428). -/
def syncMissed (s : Chip) : Chip :=
  if s.formed = false ∨ s.overMs s.cluster.lastSync 3 = false then s
  else
    (s.modCluster fun c => { c with state := .holdOver, holdSince := s.clk.ticks, goodSyncs := 0, adjust := 0, slewing := false }).markHeld

/-- `SYNC_MISSED` (R442). -/
def execSyncMissed (s : State) : Host.Outcome State Fault Refusal := next s (syncMissed s.chip)

/-- `HOLD_OVER_END`: the member runs standalone, keeps its action time, and its flows are discarded (R442). -/
def holdOverEnd (s : Chip) : Chip :=
  let c := s.cluster
  if c.state ≠ .holdOver ∨ s.overMs c.holdSince 100 = false then s
  else
    s.dropFlows.modCluster fun c =>
      { c with
        state := if c.linkUp = false then .linkDown else if c.size = 0 then .ringOpen else .closed
        adopted := false, timeBad := false, digestBad := false, master := if c.size = 0 then 0 else c.master
        ring := if c.size = 0 then [] else c.ring }

/-- `HOLD_OVER_END` (R442). -/
def execHoldOverEnd (s : State) : Host.Outcome State Fault Refusal := next s (holdOverEnd s.chip)

/-- `REFERENCE_DISAGREEMENT`: the link frequency leaves ±2 ppm of REFCLK, or comes back (R421, R432). (DEDUCED, log 54.) -/
def referenceDisagreement (beyond : Bool) (s : Chip) : Chip :=
  ((s.modClk fun c => { c with refDisagrees := beyond }).disagree 5 s.cluster.position beyond).markHeld

/-- `REFERENCE_DISAGREEMENT` (R432). -/
def execReferenceDisagreement (beyond : Bool) (s : State) : Host.Outcome State Fault Refusal := next s (referenceDisagreement beyond s.chip)

/-! ## Heartbeats (R430, R431) -/

/-- The code of a cluster state (Table 17.8). -/
def ClState.code : ClState → Nat
  | .linkDown => 0 | .ringOpen => 1 | .closed => 2 | .forming => 3 | .formed => 4 | .holdOver => 5 | .refused => 6 | .left => 7

/-- A signed number held to 32 bits. -/
def saturate32 (v : Int) : Int := max (-2147483648) (min 2147483647 v)

/-- The HEARTBEAT payload (Table 17.5). -/
def Chip.heartbeat (s : Chip) : Bytes :=
  let c := s.cluster
  be 4 s.serial ++ be 1 s.nodeId ++ be 1 c.priority.toNat ++ be 1 c.state.code ++ be 1 s.life.state.code ++ be 1 s.quality ++
    be 1 (if s.clk.refDisagrees then 1 else 0) ++ be 2 s.barrierMask ++ be 4 (unsigned 32 (saturate32 c.offset)) ++ pad 32 s.boot.digest ++
    pad 32 s.deviceArmDigest ++ be 2 s.clk.generation

/-- A HEARTBEAT without its offset: a change of this is told at once (R430). -/
def Chip.beat (s : Chip) : Bytes := s.heartbeat.take 12 ++ s.heartbeat.drop 16

/-- A HEARTBEAT goes out. -/
def Chip.sendBeat (s : Chip) : Chip := (s.sendCluster 5 0xFF s.heartbeat).modCluster fun c => { c with beatSent := s.beat }

/-- `NESTAN_HEARTBEAT_SEND` (R430). -/
def execNestanHeartbeatSend (s : State) : Host.Outcome State Fault Refusal :=
  next s (if s.chip.cluster.position = 0xFE then s.chip else s.chip.sendBeat)

/-- At a tick, a HEARTBEAT goes out where any field but the offset has changed since the last (R430). (DESIGN CHOICE, log 147.) -/
def Chip.beatStep (s : Chip) : Chip :=
  if s.cluster.position = 0xFE ∨ s.transmits = false then s else if s.beat = s.cluster.beatSent then s else s.sendBeat

/-- A member as its heartbeat describes it. -/
def heartbeatMember (p : Bytes) (now : Nat) (good : Bool) (m : Member) : Member :=
  { m with
    node := byteAt p 4, priority := byteAt p 5, state := p.getD 6 0, life := p.getD 7 0, quality := p.getD 8 0, flags := p.getD 9 0
    barriers := beNat (slice p 10 2), offset := signed 32 (beNat (slice p 12 4)), digest := slice p 16 32, armDigest := slice p 48 32
    generation := beNat (slice p 80 2), heard := true, lost := false, lastAt := now, ownBad := good && p.getD 8 0 == 2 }

/-- A heartbeat: that of a device of another cluster shows that it is still on the ring (R426), one of its own cluster is judged. -/
def Chip.takeHeartbeat (f : Frame) (s : Chip) : Chip :=
  let c := s.cluster
  let m := c.ring.getD f.src {}
  if f.payload.length ≠ 82 ∨ c.ring.length ≤ f.src ∨ m.serial ≠ beNat (slice f.payload 0 4) then s
  else if s.ofCluster f = false then s.modCluster fun c => { c with ring := c.ring.set f.src (heartbeatMember f.payload s.clk.ticks false m) }
  else
    let m := heartbeatMember f.payload s.clk.ticks (!c.timeBad) m
    let s := s.modCluster fun c => { c with ring := c.ring.set f.src m }
    let s := if m.state = 7 ∧ m.serial = c.master ∧ s.standing then s.setMaster s.elect else s
    let s := s.judgeHeartbeat m
    s.tryForm.compareMembers

/-- `HEARTBEAT` (R431). -/
def execHeartbeat (frame : Bytes) (s : State) : Host.Outcome State Fault Refusal := next s (s.chip.onFrame 5 frame Chip.takeHeartbeat)

/-- `MEMBER_LOST`: three heartbeats missed; the member is handled as one that leaves (R426, R429, R431). A device of another cluster
is no member: it is only gone, with the flow to it. -/
def memberLost (p : Nat) (s : Chip) : Chip :=
  let c := s.cluster
  let m := c.ring.getD p {}
  if c.ring.length ≤ p ∨ p = c.position ∨ m.heard = false ∨ m.lost ∨ s.overMs m.lastAt 30 = false then s
  else
    let s := s.modCluster fun c => { c.endFlows (· == p) with ring := c.ring.set p { m with lost := true } }
    if m.cluster ≠ c.clusterId.toNat then s else
    let s := s.record 0xA001 10 (le 1 p ++ le 4 m.serial)
    let s := if m.serial = c.master ∧ s.standing then s.setMaster s.elect else s
    s.compareMembers

/-- `MEMBER_LOST` (R431). -/
def execMemberLost (position : Byte) (s : State) : Host.Outcome State Fault Refusal := next s (memberLost position.toNat s.chip)

/-- `FORMATION_RETRY`: 1 s after a disagreement the master tries again (R432). -/
def formationRetry (s : Chip) : Chip :=
  let c := s.cluster
  if s.standing ∧ c.master = s.serial ∧ c.state = .refused ∧ (c.cause = 1 ∨ c.cause = 2) then
    let s := s.modCluster fun c => { c with state := .forming, cause := 0 }
    (s.peers.foldl (fun s p => if (s.cluster.ring.getD p {}).heard then s.judgeHeartbeat (s.cluster.ring.getD p {}) else s) s).tryForm
  else s

/-- `FORMATION_RETRY` (R432). -/
def execFormationRetry (s : State) : Host.Outcome State Fault Refusal := next s (formationRetry s.chip)

/-! ## Barrier frames (R438 to R441) -/

/-- An ARRIVE of the barrier's present generation counts at the master. (DEDUCED, log 55.) -/
def Chip.takeArrive (f : Frame) (s : Chip) : Chip :=
  let p := f.payload
  let b := byteAt p 0
  if s.ofCluster f = false ∨ s.isMaster = false ∨ p.length ≠ 36 ∨ b < 16 ∨ 31 < b ∨ beNat (slice p 1 2) ≠ (s.barrier b).generation then s
  else s.putArrival b { position := f.src, digest := slice p 4 32, withdrawn := byteAt p 3 % 2 = 1 }

/-- `ARRIVE` (R438). -/
def execArrive (frame : Bytes) (s : State) : Host.Outcome State Fault Refusal := next s (s.chip.onFrame 6 frame Chip.takeArrive)

/-- The generation after that of a RELEASE or ABORT begins. (DEDUCED, log 55.) -/
def Chip.nextGeneration (b gen : Nat) (s : Chip) : Chip := s.modBarrier b fun _ => { generation := (gen + 1) % 65536 }

/-- A RELEASE: participants resume at their first boundary at or after R, or 60 ns after a late reception, with
a record (R439). -/
def Chip.takeRelease (f : Frame) (s : Chip) : Chip :=
  let p := f.payload
  let b := byteAt p 0
  if s.ofCluster f = false ∨ s.formed = false ∨ p.length ≠ 13 ∨ b < 16 ∨ 31 < b then s
  else
    let r := 100 * stampTime (slice p 3 10)
    let late : Bool := decide (r < s.nowFine + ns60)
    let s := s.nextGeneration b (beNat (slice p 1 2))
    let s := if late then s.record 0xA005 10 (le 1 b ++ le 2 (beNat (slice p 1 2))) else s
    s.releaseBarrier b (if late then s.nowFine + ns60 else r)

/-- `RELEASE` (R439). -/
def execRelease (frame : Bytes) (s : State) : Host.Outcome State Fault Refusal := next s (s.chip.onFrame 7 frame Chip.takeRelease)

/-- The sequencers that wait at a barrier. -/
def Chip.waitingAt (s : Chip) (b : Nat) : List Nat := (List.range 16).filter fun q => (s.sq q).barrier == some b

/-- A barrier is aborted on this device: every waiting participant stops, none of them resumed by another's
leaving, and a record says why (R440). (DEDUCED, log 26.) -/
def Chip.abortBarrier (b gen cause : Nat) (s : Chip) : Chip :=
  let l := s.waitingAt b
  let s := l.foldl (fun s q => s.modSq q fun x => { x with barrier := none }) (s.nextGeneration b gen)
  let s := l.foldl (fun s q => s.stopRun q) s
  s.record 0xA006 10 (le 1 b ++ le 2 gen ++ le 1 cause)

/-- An ABORT. -/
def Chip.takeAbort (f : Frame) (s : Chip) : Chip :=
  let p := f.payload
  let b := byteAt p 0
  if s.ofCluster f = false ∨ s.formed = false ∨ p.length ≠ 4 ∨ b < 16 ∨ 31 < b then s
  else s.abortBarrier b (beNat (slice p 1 2)) (byteAt p 3)

/-- `ABORT` (R440). -/
def execAbort (frame : Bytes) (s : State) : Host.Outcome State Fault Refusal := next s (s.chip.onFrame 8 frame Chip.takeAbort)

/-- `BARRIER_TIMEOUT`: at the master an ABORT goes out; a device that is no formed member times its barrier
out itself (R440, R441). -/
def barrierTimeout (b : Nat) (s : Chip) : Chip :=
  let x := s.barrier b
  let expired (since : Nat) : Bool := s.overMs since s.cluster.barrierTimeout
  if s.isMaster then
    if x.arrivals = [] ∨ expired x.firstAt = false then s
    else
      let cause := if digestsAgree x.arrivals ∧ s.cluster.digestBad = false then 1 else 2
      (s.sendCluster 8 0xFF (be 1 b ++ be 2 x.generation ++ be 1 cause)).abortBarrier b x.generation cause
  else if s.formed ∨ s.cluster.state = .holdOver ∨ x.localArrived = false ∨ expired x.localAt = false then s
  else s.abortBarrier b x.generation 1

/-- `BARRIER_TIMEOUT` (R440). -/
def execBarrierTimeout (b : Fin 16) (s : State) : Host.Outcome State Fault Refusal := next s (barrierTimeout (16 + b.val) s.chip)

/-! ## DATA flows (R426) -/

/-- The flow to and from a position. -/
def Chip.flow (s : Chip) (p : Nat) : Flow := s.cluster.flows.get {} p

/-- Change a flow. -/
def Chip.modFlow (p : Nat) (f : Flow → Flow) (s : Chip) : Chip := s.modCluster fun c => { c with flows := c.flows.upd {} p f }

/-- Send a DATA or ACK frame. -/
def Chip.sendTo (type dst seq : Nat) (payload : Bytes) (s : Chip) : Chip :=
  s.sendFrame { type := type, cluster := s.cluster.clusterId.toNat, src := s.cluster.position, dst := dst, seq := seq, payload := payload }

/-- Send what a flow holds, as long as fewer than 4 frames are unacknowledged; in hold-over it waits. -/
def Chip.pumpFlow (dst : Nat) : Nat → Chip → Chip
  | 0, s => s
  | n + 1, s =>
    let x := s.flow dst
    match x.queued with
    | [] => s
    | d :: ds =>
      if 4 ≤ x.waiting.length ∨ s.cluster.state = .holdOver ∨ s.cluster.size = 0 then s
      else
        let s := s.modFlow dst fun x =>
          { x with nextSeq := (x.nextSeq + 1) % 65536, waiting := x.waiting ++ [(x.nextSeq, d)], queued := ds, sentAt := s.clk.ticks }
        (s.sendTo 0x0A dst x.nextSeq d).pumpFlow dst n

/-- Give a content to the flow to a position. -/
def Chip.sendData (dst : Nat) (content : Bytes) (s : Chip) : Chip :=
  (s.modFlow dst fun x => { x with queued := x.queued ++ [content] }).pumpFlow dst 4

/-- A DATA frame for this device: the expected number goes into CH_17 and is acknowledged; a duplicate is
acknowledged again; with CH_17 full, and for any other number, nothing is sent. (DEDUCED, log 90.) -/
def Chip.takeData (f : Frame) (s : Chip) : Chip :=
  if f.dst ≠ s.cluster.position then s
  else
    let x := s.flow f.src
    if f.seq = x.expect then
      if 32 ≤ s.cluster.inbox.length then s
      else
        let s := (s.modFlow f.src fun x => { x with expect := (x.expect + 1) % 65536 }).modCluster fun c => { c with inbox := c.inbox ++ [f.payload] }
        s.sendTo 9 f.src 0 (be 2 f.seq)
    else if (x.expect + 65536 - f.seq) % 65536 ≤ 4 then s.sendTo 9 f.src 0 (be 2 f.seq)
    else s

/-- `DATA` (R426). -/
def execData (frame : Bytes) (s : State) : Host.Outcome State Fault Refusal := next s (s.chip.onFrame 0x0A frame Chip.takeData)

/-- An ACK frees the frames up to its number, the time without one starts anew, and the next ones go out (R426). -/
def Chip.takeAck (f : Frame) (s : Chip) : Chip :=
  if f.dst ≠ s.cluster.position ∨ f.payload.length ≠ 2 then s
  else
    let n := beNat f.payload
    if (s.flow f.src).waiting.any (·.1 == n) then
      (s.modFlow f.src fun x => { x with waiting := (x.waiting.dropWhile fun e => e.1 != n).drop 1, sentAt := s.clk.ticks }).pumpFlow f.src 4
    else s

/-- `ACK` (R426). -/
def execAck (frame : Bytes) (s : State) : Host.Outcome State Fault Refusal := next s (s.chip.onFrame 9 frame Chip.takeAck)

/-- `DATA_RESEND`: 1 ms without an ACK; the unacknowledged frames go out again, oldest first (R426). -/
def dataResend (dst : Nat) (s : Chip) : Chip :=
  let x := s.flow dst
  if x.waiting = [] ∨ s.overMs x.sentAt 1 = false ∨ s.cluster.state = .holdOver ∨ s.cluster.size = 0 then s
  else
    let s := x.waiting.foldl (fun s e => s.sendTo 0x0A dst e.1 e.2) s
    (s.modFlow dst fun x => { x with sentAt := s.clk.ticks }).modCluster fun c => { c with resends := satAdd 32 c.resends x.waiting.length }

/-- `DATA_RESEND` (R426). -/
def execDataResend (destination : Byte) (s : State) : Host.Outcome State Fault Refusal := next s (dataResend destination.toNat s.chip)

/-! ## Leaving and rejoining (R443, R444) -/

/-- Leave: the device keeps forwarding, runs standalone and keeps its action time. -/
def clusterLeave (_ : Req) (s : Chip) : Chip × Reply :=
  ((s.modCluster fun c =>
    { c with state := .left, cause := 4, adopted := false, goodSyncs := 0, adjust := 0, slewing := false, timeBad := false, digestBad := false, master := 0 }).markHeld, ok)

/-- `CLUSTER_LEAVE` (R444). -/
def execClusterLeave (p : Path) (tag : Word16) (s : State) : Host.Outcome State Fault Refusal :=
  next s (hostCommand p tag 0x4A00 0x11 [1] clusterLeave s.chip)

/-- Rejoin: the stored settings come into force, and the device joins again (R443). -/
def clusterRejoin (_ : Req) (s : Chip) : Chip × Reply :=
  if s.cluster.size = 0 then (s, bad 0xA001)
  else if s.formed then (s, ok)
  else
    let s := s.modCluster fun c =>
      let c := c.takeStored
      { c with state := if c.clusterId = 0xFF then .closed else .forming, cause := 0, adopted := false, flagFormed := false }
    ((if s.standing then s.setMaster s.elect else s).tryForm, ok)

/-- `CLUSTER_REJOIN` (R443, R445). -/
def execClusterRejoin (p : Path) (tag : Word16) (s : State) : Host.Outcome State Fault Refusal :=
  next s (hostCommand p tag 0x4A00 0x11 [2] clusterRejoin s.chip)

end Sys2Proof.Machine
end

