-- ==== Sys2Proof/Machine/Sessions.lean ====
section
/-! DEFINITION. Sessions (R117 to R121, R494): the nonce, opening with its proofs, closing, the idle timeout,
and the staged request tag (R126). -/

namespace Sys2Proof.Machine

/-- The entry of 0x2200:14: number, level, port, client and idle seconds. -/
def Chip.sessionEntry (s : Chip) (n : Nat) (x : Session) : Bytes :=
  le 1 n ++ le 1 x.level.code ++ le 1 (if x.isSpi then 1 else 0) ++ [0] ++ le 2 x.client ++
    le 2 (min 0xFFFF ((s.clk.ticks - x.lastReq) / 400000000))

/-- A change of a CAN-bound session is journalled (R494, R497). -/
def Chip.journalSession (n : Nat) (ended : Bool) (s : Chip) : Chip :=
  match s.host.sessions.find? n with
  | some x => if x.isSpi then s else s.journal false 5 (s.sessionEntry n x ++ le 1 (if ended then 1 else 0))
  | none => s

/-- A session ends (R121): its staged tag, ledger and window state go, with the port entries of the duplicates it held (R114),
and its job queue ends (R217). Its selectors stay for its requests that still wait in CH_01, which complete with them. -/
def Chip.endSession (n : Nat) (s : Chip) : Chip :=
  match s.host.sessions.find? n with
  | none => s
  | some x =>
    x.heldCopies.foldl (fun s t => s.freeEntry t) (((s.journalSession n true).endQueue n).modHost fun h =>
      { h with
        sessions := h.sessions.erase n
        endedSels := if h.ch01.any fun q => q.dest.session == n && q.dest.serial == x.serial then h.endedSels.put x.serial x.selectors
          else h.endedSels })

/-- Sessions that meet a condition end. -/
def Chip.endSessions (f : Nat → Session → Bool) (s : Chip) : Chip :=
  s.host.sessions.foldl (fun t e => if f e.1 e.2 then t.endSession e.1 else t) s

/-- The device is one of a pair. -/
def Chip.paired (s : Chip) : Bool := s.pair.state != .unpaired && s.pair.state != .pairing

/-- The numbers a port's sessions take (R118, R494). -/
def Chip.sessionRange (s : Chip) (spi : Bool) : List Nat :=
  if s.paired = false then (List.range 32).map (· + 1)
  else if spi then (List.range 8).map (· + 0x19) else (List.range 24).map (· + 1)

/-- The lowest free session number of a port. -/
def Chip.freeSession (s : Chip) (spi : Bool) : Option Nat :=
  (s.sessionRange spi).find? fun n => (s.host.sessions.find? n).isNone

/-- A level of Table 5.6. -/
def levelOf (b : Nat) : Option Level :=
  match b with
  | 1 => some .observer
  | 2 => some .operator
  | 4 => some .vendor
  | _ => none

/-- The length of the proof an open needs; none where the state refuses the level (Table 5.7). (DESIGN CHOICE, log 118.) -/
def Chip.proofLen (s : Chip) (l : Level) : Option Nat :=
  match l, s.life.state with
  | .observer, _ => some 0
  | _, .wafer => some 0
  | _, .calibrated => some 0
  | _, .analysis => some 0
  | .operator, .provisioned => some 16
  | .operator, .service => some 16
  | .vendor, .provisioned => some 128
  | .vendor, .service => some 128
  | _, _ => none

/-- The client ID of an open: over CAN the node-ID of the client. (DEDUCED, log 67.) -/
def clientOf (p : Path) (b : Bytes) : Nat :=
  match p with
  | .can _ c => c.toNat
  | .spi _ => fieldAt b 2 2

/-- A session opens. -/
def Chip.createSession (n : Nat) (l : Level) (p : Path) (b : Bytes) (s : Chip) : Chip :=
  let x : Session :=
    { level := l, serial := s.host.nextSerial, isSpi := pathSpi p, client := clientOf p b
      bus := match p with | .can q _ => q | .spi _ => .canA
      lastReq := s.clk.ticks }
  (s.modHost fun h => { h with sessions := h.sessions.put n x, nextSerial := h.nextSerial + 1 }).journalSession n false

/-- The nonce of an open is the one issued to this client, unused and less than 10 s old; it is used up (R120). -/
def Chip.takeSessionNonce (p : Path) (nonce : Bytes) (s : Chip) : Bool × Chip :=
  let mine (x : NonceRec) : Bool := x.path == clientPath p
  (s.host.nonces.any fun x => mine x && x.value == nonce && !s.passedMs x.readAt 10000,
    s.modHost fun h => { h with nonces := h.nonces.filter fun x => !mine x })

/-- The operator proof is valid, with the use of the key in slot 0x0000 that the check counts (R120). (DEDUCED, log 67.) -/
def Chip.operatorProof (m proof : Bytes) (s : Chip) : Bool × Chip :=
  match s.keys.slots.find? 0 with
  | none => (false, s)
  | some k =>
    if s.keyUsable k ≠ 0 then (false, s)
    else
      let u := s.countUse 0
      (decide (u.2 = 0) && decide ((hmac256 k.material m).take 16 = proof), u.1)

/-- The vendor proof is valid: the key's hash is that of the fuses, and it verifies the signature (R120). -/
def Chip.vendorProof (s : Chip) (m proof : Bytes) : Bool :=
  decide (sha256 (proof.take 64) = s.fuseHash 0x070) && s.hashSound 0x070 && p256.verify (proof.take 64) (sha256 m) (proof.drop 64)

/-- Step 5 for an open: level, reserved byte, and the length the proof needs (Tables 5.6 and 5.7). (DEDUCED, log 67.) -/
def Chip.openForm (s : Chip) (b : Bytes) : Nat :=
  if b.length ≠ 20 ∧ b.length ≠ 36 ∧ b.length ≠ 148 then 0x0012
  else match levelOf (byteAt b 0) with
    | none => 2
    | some l =>
      if byteAt b 1 ≠ 0 then 2
      else match s.proofLen l with
        | some n => if b.length = 20 + n then 0 else 0x0012
        | none => 0

/-- An open that needs a proof uses up its client's nonce, whatever its outcome (R120). -/
def Chip.spendNonce (p : Path) (b : Bytes) (s : Chip) : Chip :=
  if ((levelOf (byteAt b 0)).bind s.proofLen).any (· != 0) then (s.takeSessionNonce p []).2 else s

/-- The answer of an open: its state and the session it opened, or a code. Where several refusals hold, the first of: a level the
state refuses, a client that holds a session, the session limit, islands that do not run, the nonce, the proof.
(DESIGN CHOICE, log 138.) -/
def openSession (p : Path) (b : Bytes) (s0 : Chip) : Chip × (Nat ⊕ Nat) :=
  let s := s0.spendNonce p b
  match levelOf (byteAt b 0) with
  | none => (s, .inl 2)
  | some l =>
    match s.proofLen l with
    | none => (s, .inl 5)
    | some n =>
      let holds : Bool := !pathSpi p && (s.host.sessions.any fun e => !e.2.isSpi && e.2.client == clientOf p b)
      if holds then (s, .inl 5)
      else match s.freeSession (pathSpi p) with
        | none => (s, .inl 0x0015)
        | some k =>
          let open_ (s : Chip) : Chip × (Nat ⊕ Nat) := (s.createSession k l p b, .inr k)
          if n = 0 then open_ s
          else if s.runs 3 = false ∨ s.runs 4 = false then (s, .inl 4)
          else
            let nonce := slice b 4 16
            if (s0.takeSessionNonce p nonce).1 = false then (s, .inl 0x0017)
            else
              let m := b.take 1 ++ le 1 (if pathSpi p then 1 else 0) ++ le 2 (clientOf p b) ++ nonce
              let v := if n = 16 then s.operatorProof m (b.drop 20) else (s.vendorProof m (b.drop 20), s)
              if v.1 then open_ v.2 else (v.2, .inl 0x0016)

/-- `SESSION_OPEN`: the SPI response of an accepted open names the new session (R120). -/
def sessionOpen (p : Path) (b : Bytes) (s : Chip) : Chip :=
  match gate p 0 0x2200 0x10 b (fun _ s => s.openForm b) s fun _ _ s => s.spendNonce p b with
  | .stop s => s
  | .go r s =>
    let y := openSession p b s
    match y.2 with
    | .inl code => y.1.answer r.dest code [] 0
    | .inr n => y.1.answerAs n r.dest 0 [] 0

/-- `SESSION_OPEN` (R120). -/
def execSessionOpen (p : Path) (request : Bytes) (s : State) : Host.Outcome State Fault Refusal := next s (sessionOpen p request s.chip)

/-- A read of 0x2200:02: a fresh nonce in place of the client's earlier one, or the DRBG's refusal (R120). -/
def readSessionNonce (r : Req) (s : Chip) : Chip × ReadReply :=
  let code := s.drbgGate
  if code ≠ 0 then (s, .refused code)
  else
    let d := s.drbg 16
    let c := clientPath r.dest.path
    (d.2.modHost fun h => { h with nonces := h.nonces.filter (fun x => x.path != c) ++ [{ path := c, value := d.1, readAt := s.clk.ticks }] },
      .data d.1)

/-- `SESSION_NONCE_READ` (R120). -/
def execSessionNonceRead (p : Path) (s : State) : Host.Outcome State Fault Refusal :=
  next s (hostRead p 0 0x2200 2 readSessionNonce s.chip)

/-- A write of any 16 bytes to 0x2200:02 discards the client's nonce (R120). -/
def execSessionNonceDiscard (p : Path) (bytes : Bytes) (s : State) : Host.Outcome State Fault Refusal :=
  next s (hostCommand p 0 0x2200 2 bytes (fun r s =>
    (s.modHost fun h => { h with nonces := h.nonces.filter fun x => x.path != clientPath r.dest.path }, ok)) s.chip)

/-- `SESSION_CLOSE`: a session closes itself, after the answer; another number is refused (R121). -/
def sessionClose (p : Path) (n : Byte) (s : Chip) : Chip :=
  hostThen p 0 0x2200 0x12 [n] (fun _ _ => 0)
    (fun r s => if r.dest.session = n.toNat then (s, ok) else (s, bad 0x000C)) (fun s => s.endSession n.toNat) s

/-- `SESSION_CLOSE` (R121). -/
def execSessionClose (p : Path) (number : Byte) (s : State) : Host.Outcome State Fault Refusal := next s (sessionClose p number s.chip)

/-- A replicated session on a standby, which becomes live at a takeover (R505). (DEDUCED, log 89.) -/
def Chip.dormant (s : Chip) (x : Session) : Bool := !x.isSpi && (s.pair.state == .standbySync || s.pair.state == .standbySynced)

/-- `SESSION_IDLE_TIMEOUT`: no request from the client for the time in 0x2200:03 (R121). The idle timer of a
replicated session runs from the takeover (R505). -/
def sessionIdle (n : Nat) (s : Chip) : Chip :=
  match s.host.sessions.find? n with
  | some x => if s.dormant x = false ∧ s.overMs x.lastReq (1000 * s.host.idleTimeout) then s.endSession n else s
  | none => s

/-- `SESSION_IDLE_TIMEOUT` (R121). -/
def execSessionIdleTimeout (session : BitVec 6) (s : State) : Host.Outcome State Fault Refusal :=
  next s (sessionIdle session.toNat s.chip)

/-- `TAG_STAGE`: a write to 0x2100:01 stages a request tag in place of an earlier one (R126). -/
def execTagStage (p : Path) (tag : Word16) (s : State) : Host.Outcome State Fault Refusal :=
  next s (hostCommand p 0 0x2100 1 (le 2 tag.toNat) (fun r s =>
    (s.modSession r.dest.session fun x => { x with staged := some tag }, ok)) s.chip)

end Sys2Proof.Machine
end

