-- ==== Sys2Proof/Machine/Islands.lean ====
section
/-! DEFINITION. What a reset of an island or of one unit does, and the return from it (R23, R65, R469, R484,
Table 20.1), with the start of partitions and their watchdog slots (R449, R450, Table 18.1). -/

namespace Sys2Proof.Machine

/-! ## Slots of partitions, and their starts -/

/-- The slots are suspended by a debug halt in this state (R450, R170). -/
def Chip.haltSuspends (s : Chip) : Bool :=
  s.ci.halted && (s.life.state == .wafer || s.life.state == .calibrated || s.life.state == .analysis)

/-- A partition's slots enter grace, or are suspended while the cores are halted (R449, R450). -/
def Chip.graceSlots (p : Nat) (s : Chip) : Chip :=
  s.modSlots p fun x =>
    { x with state := if s.haltSuspends then .suspended else .grace, graceAt := s.clk.ticks, periods := 0, good := false, bad := false, early := false }

/-- Every owned slot is suspended (R450). -/
def Chip.suspendSlots (s : Chip) : Chip :=
  (List.range 8).foldl (fun t p => t.modSlots p fun x => { x with state := .suspended, good := false, bad := false, early := false }) s

/-- A suspension of every slot ends: those of running partitions re-enter grace (R450). -/
def Chip.resumeSlots (s : Chip) : Chip :=
  (List.range 8).foldl (fun t p => if (t.part p).running then t.graceSlots p else t) s

/-- A partition's tightly coupled SRAM range is cleared (Table 18.1). (DESIGN CHOICE, log 36.) -/
def Chip.clearRam (p : Nat) (s : Chip) : Chip :=
  let d := (s.part p).desc
  let a := descRam d - 0x10000000
  s.modCi fun c => { c with tcsram := List.filter (fun x : Nat × Byte => decide (x.1 < a) || decide (a + descRamLen d ≤ x.1)) c.tcsram }

/-- A partition starts at its entry point; its trace begins with `info` and its slots enter grace (R449, R477). (DEDUCED, log 68.) -/
def Chip.startPartition (p info : Nat) (s : Chip) : Chip :=
  let s := s.clearRam p
  let s := s.modPart p fun x => { x with running := true, restarting := false, replacing := false, entry := descEntry x.desc }
  (s.traceStart p info).graceSlots p

/-! ## Island resets -/

/-- The island-reset record: that of a whole island carries the records its producer had not yet handed over
(R79, R469). (DEDUCED, log 62.) -/
def Chip.islandRecord (cause i unit : Nat) (s : Chip) : Chip :=
  let whole : Bool := unit == 0xFF
  let n := if whole then (s.recorder.held.get [] i).length + s.recorder.lostRun.get 0 i else 0
  s.modRecorder fun r =>
    Recorder.arrive { code := 0x0003, island := i, unit := if whole then 0 else unit, lost := min 0xFFFF n, payload := pad 12 (le 1 i ++ le 1 cause) }
      (if whole then { r with held := r.held.set [] i [], lostRun := r.lostRun.set 0 i 0 } else r)

/-- A sequencer is reset: its run ends with cause 0x05, an arm in progress completes with island re-seating, and it
is idle with its program kept (R261, R263). -/
def Chip.resetSeq (q : Nat) (s : Chip) : Chip :=
  let s := if (s.sq q).state.inRun then (s.emitHolds q (s.holdsUntil q s.nowFine)).endRun q 5 else s
  let s := s.dropLaunch q
  (if (s.sq q).state = .idle then s else s.makeIdle q 8).unpark q

/-- A CAN controller leaves the bus with what it holds. -/
def Chip.dropController (b : Bus) (s : Chip) : Chip :=
  (s.leaveBus b).modCtl b fun c => { c with waiting := [], inhibited := false }

/-- The HI's reset: every session ends, the port is emptied, the controllers leave the bus (R116, R121). (DEDUCED, log 68.) -/
def Chip.resetHi (s : Chip) : Chip :=
  let s := ((s.endSessions fun _ _ => true).dropController .canA).dropController .canB
  let s := (List.range 4).foldl (fun t k => t.endCondition (6000 + k)) s
  (s.dramCancel fun r => r.dest.isSome).modHost fun h =>
    { h with
      online := false, nonces := [], ch01 := [], endedSels := [], lastNmt := [], lastSyncA := none
      spi := { ({} : SpiPort) with nextId := h.spi.nextId, nextOrder := h.spi.nextOrder, rejects := h.spi.rejects, discards := h.spi.discards }
      consumers := h.consumers.map fun e => (e.1, { e.2 with monitored := false, lost := false }) }

/-- Every CI request completes with island re-seating, and every partition stops (R23, R456). -/
def Chip.resetCi (s : Chip) : Chip :=
  let arms := (List.range 16).filter fun q => (s.sq q).armWaiter.isSome
  let s := arms.foldl (fun t q => t.makeIdle q 8) s
  let l := s.host.ch01
  let s := l.foldl (fun t r => if r.reading then t.completeRead r.dest 8 [] else t.complete r.dest 8 [] 0) (s.modHost fun h => { h with ch01 := [], endedSels := [] })
  let s := (s.completeOpt (s.boot.storing.map (·.2.2)) 8 []).modBoot fun b => { b with storing := none }
  let s := (s.dramCancel fun r => r.cls == .conductor && r.dest.isNone).modReseat fun r =>
    { r with replacing := none, image := [], replacement := if r.replacing.isSome then 8 else r.replacement }
  let s := (s.modCi fun c => { c with halted := false, partitions := c.partitions.map fun e => (e.1, { e.2 with running := false, restarting := false, replacing := false, packets := [] }) }).suspendSlots
  s.modWatchdog fun w => { w with strikes := [], stopped := [] }

/-- Requests that wait for an acknowledgement complete with island re-seating, and a partial epoch is lost: the standby
is synchronised again when its PAIR-STATE comes (R484, R503). (DEDUCED, log 89.) -/
def Chip.dropEpochs (s : Chip) : Chip :=
  let w := (match s.pair.awaiting with | some e => e.waiters | none => []) ++ s.pair.open_.waiters
  let state := if s.journals then .activeLost else s.pair.state
  w.foldl (fun t x => t.complete x.dest 8 [] 0) (s.modPair fun p =>
    { p with awaiting := none, open_ := {}, syncLeft := 0, receiving := [], receivingEpoch := 0, state := state })

/-- The SI's reset: queues emptied, unfinished fields fail, waiting key-state changes complete (R218, R327, R484). -/
def Chip.resetSi (s : Chip) : Chip :=
  let s := (((s.siLost false).emptyQueues).endCondition 7200).dramCancel fun r => r.cls == .secure
  let s := s.dropEpochs
  s.modKeys fun k => { k with slots := [] }

/-- The whole SQ is reset: every sequencer is idle and every program store cleared (R263). -/
def Chip.resetSq (s : Chip) : Chip :=
  (List.range 16).foldl (fun t q => (t.resetSeq q).modSq q fun x => { x with store := [], progLen := 0 }) s

/-- The TI is reset: sequencers park, and the PLLs that are not off relock, with their outputs on the bypass
(R65, section 4.5). -/
def Chip.resetTi (s : Chip) : Chip :=
  let s := (s.parkHeld.modSegs fun x => { x with tracking := false }).modClk fun c => { c with ch18 := 0 }
  [0, 1].foldl (fun t p => if (t.pll p).state = .off then t else t.relock p (t.vco p)) s

/-- The MI is reset: its requests complete with island re-seating, capture records not yet in DRAM are lost and counted, and the
channels wait for training, but for a retired one (R23, R65, R354, R389). -/
def Chip.resetMi (s : Chip) : Chip :=
  (s.failRequests 8).loseStaging.modDram fun d =>
    { d with mode := .awaitingDelays, inService := 0, retiring := none, channels := d.channels.map fun c => { c with state := if c.state = .retired then .retired else .off, banks := [] } }

/-- The LV drives its outputs low (Table 2.14). -/
def Chip.lowLevels (s : Chip) : Chip :=
  s.modLevels fun l => { l with chs := l.chs.map fun e => (e.1, { e.2 with h := 0, r := 0 }), strobe := false, clearSeen := false, eventClear := false, clearFrames := 0 }

/-- What a reset of an island does beside its state and record (R23, Table 20.1). -/
def Chip.resetEffects (i : Nat) (s : Chip) : Chip :=
  match i with
  | 0 => s.resetHi
  | 2 => s.resetCi
  | 3 => s.resetSi
  | 4 => s.resetVi
  | 5 => s.resetSq
  | 6 => s.resetTi
  | 7 => s.resetAcq
  | 8 => s.resetMi
  | 9 => s.lowLevels
  | 10 => ((s.openRing .linkDown).modCluster fun c => { c with linkUp := false, inbox := [], tx := [] }).modClk fun c => { c with ch18 := 0 }
  | _ => s

/-- An island enters resetting: its record, and R23 (R79, R484). (DEDUCED, log 62.) -/
def Chip.islandReset (cause i : Nat) (s : Chip) : Chip :=
  ((s.islandRecord cause i 0xFF).putIsland i .resetting).resetEffects i

/-- The rail of an island whose brown-out resets it alone (Table 3.1). -/
def islandRail (i : Nat) : Option Rail :=
  match i with
  | 3 => some .vddSec
  | 5 => some .vddPll
  | 6 => some .vddPll
  | 7 => some .vddPll
  | 8 => some .vddqDram
  | _ => none

/-- An island that takes its clock from REFCLK alone: the standby oscillator clocks the others (R81, Table 4.1). -/
def needsRef (i : Nat) : Bool := [5, 6, 7, 8, 10].contains i

/-- An island may leave reset: its rail is good, and REFCLK is there where it needs it (R65, R81). -/
def Chip.mayLoad (s : Chip) (i : Nat) : Bool :=
  ((islandRail i).all fun r => s.power.railsGood.getLsbD (railBit r)) && !(s.clk.refLost && needsRef i)

/-- An island enters loading, unless it holds in reset (R65, R81). -/
def Chip.islandLoad (i : Nat) (s : Chip) : Chip :=
  if s.mayLoad i = false then s else
  let s := s.putIsland i .loading
  match i with
  | 6 =>
    let s := s.modPlls fun l => l.map fun p => if p.state = .locking then { p with relockAt := s.clk.ticks } else p
    if (s.pll 0).state = .off then s.relock 0 (s.vco 0) else s
  | 9 => s.startLevels
  | 10 => if s.reseating 10 0xFF then s else s.runIsland 10
  | _ => s

/-- The CI runs: every partition of the running slot starts, and period 0 of the watchdog begins (R451). -/
def Chip.runCi (s : Chip) : Chip :=
  let s := (s.runIsland 2).modWatchdog fun w => { w with number := 0, startAt := s.clk.ticks, period := w.periodStaged, closed := w.closedStaged }
  (List.range 8).foldl (fun t p => if (t.part p).present then t.startPartition p 0 else t) s

/-- An island returns to running. -/
def Chip.islandRun (i : Nat) (s : Chip) : Chip :=
  match i with
  | 0 => ((s.runIsland 0).modHost fun h => { h with online := true }).initCan
  | 2 => s.runCi
  | 6 => (s.runIsland 6).recoverTi
  | 9 => s.firstCalibration.runIsland 9
  | _ => s.runIsland i

/-! ## Unit resets -/

/-- A channel enters self-refresh for its re-seat: its requests are held (R387). -/
def DramCh.hold (d : DramCh) : DramCh :=
  { d with state := .reseating, queue := d.inFlight ++ d.queue, inFlight := [], banks := d.banks.map fun b => (b.1, { b.2 with openRow := none }) }

/-- The relock of one PLL for its re-seat; an off PLL_1 stays off (R86, R88). (DEDUCED, log 64.) -/
def Chip.resetPll (p : Nat) (s : Chip) : Chip :=
  let s := if p = 0 then s.parkHeld else s
  if (s.pll p).state = .off then s else (s.endCondition (2001 + p)).relock p (s.vco p)

/-- A unit resets (Table 20.1). (DEDUCED, log 62.) -/
def Chip.unitReset (i u : Nat) (s : Chip) : Chip :=
  match i with
  | 0 => (s.dropController (busOf u)).modCtl (busOf u) fun c => { c with reseating := true, failed := false }
  | 2 => ((s.stopPartition u).clearRam u).modPart u fun x => { x with restarting := true, packets := [] }
  | 5 => s.resetSeq u
  | 6 => s.resetPll u
  | 8 => s.modDramCh u fun d => { d.hold with sweep := 0 }
  | _ => s

/-- What a retraining finds: each value in its window around the fixed one (R371, R387). (DESIGN CHOICE, log 131.) -/
def DramCh.retrain (t c : Nat) (d : DramCh) : DramCh :=
  let v (i w base : Nat) : Word16 := BitVec.ofNat 16 (base + Config.retrained t c i % (2 * w + 1) - w)
  { d with
    trained := [v 0 32 d.caOffset.toNat, v 1 64 (fieldAt d.wlStart 0 2), v 2 64 (fieldAt d.wlStart 2 2), v 3 48 (fieldAt d.gateBase 0 2),
      v 4 48 (fieldAt d.gateBase 2 2)] }

/-- A re-seated channel has been retrained; one whose fault stopped the MI stays faulted, until it is retired or the chip is reset
(R386). -/
def Chip.retrained (c : Nat) (s : Chip) : Chip :=
  let still : Bool := s.dram.mode == .faulted && byteAt s.dram.lastFault 0 == c
  s.modDramCh c fun d => { d.retrain s.clk.ticks c with state := if still then .faulted else .running }

/-- A unit runs again. -/
def Chip.unitRun (i u : Nat) (s : Chip) : Chip :=
  match i with
  | 0 => (s.modCtl (busOf u) fun c => { c with reseating := false, failed := false }).joinBus (busOf u)
  | 2 => s.startPartition u 1
  | 8 => s.retrained u
  | _ => s

/-- The code area of a partition in the running slot has its descriptor's digest (R162, check 5). -/
def Chip.codeOk (s : Chip) (p : Nat) : Bool :=
  let d := (s.part p).desc
  sha256 (s.flashRead (areaBase s.boot.running.toNat + descCode d) (descCodeLen d)) == slice d 40 32

/-- A unit is ready to run: a PLL locks first (R89), a partition's code is checked (Table 18.1). -/
def Chip.unitReady (s : Chip) (i u : Nat) : Bool :=
  if i = 2 then s.codeOk u
  else if i = 6 then (s.pll u).state == .locked || (s.pll u).state == .off
  else if i = 8 then (s.dramCh u).state == .reseating && !s.clk.refLost
  else true

/-- A unit that missed its limit is out of service (R485). -/
def Chip.unitOut (i u : Nat) (s : Chip) : Chip :=
  match i with
  | 0 => s.modCtl (busOf u) fun c => { c with reseating := false, failed := true }
  | 5 => s.modSq u fun x => { x with state := .faulted }
  | 6 => s.modPll u fun l => { l with state := .faulted }
  | 8 => s.modDramCh u fun d => { d with state := .faulted }
  | _ => s

end Sys2Proof.Machine
end

