-- ==== Sys2Proof/Machine/Reseat.lean ====
section
/-! DEFINITION. Re-seats (R483 to R486) and the replacement of one partition (R487 to R490). -/

namespace Sys2Proof.Machine

/-- The running-again limit of a re-seat unit, ms; none for a unit that is not listed (Table 20.1). -/
def reseatLimit (i u : Nat) : Option Nat :=
  match i, u with
  | 0, 0xFF => some 20
  | 0, 0 => some 5
  | 0, 1 => some 5
  | 2, 0xFF => some 30
  | 2, n => if n < 8 then some 20 else none
  | 3, 0xFF => some 60
  | 4, 0xFF => some 5
  | 5, 0xFF => some 2
  | 5, n => if n < 16 then some 1 else none
  | 6, 0 => some 3
  | 6, 1 => some 3
  | 7, 0xFF => some 1
  | 8, 0 => some 20
  | 8, 1 => some 20
  | 9, 0xFF => some 3
  | 10, 0xFF => some 5
  | _, _ => none

/-- The precondition of Table 20.1: 0, or the code of its row. (DEDUCED, log 63.) -/
def Chip.reseatPrecondition (s : Chip) (i u : Nat) : Nat :=
  if i = 2 ∧ u < 8 ∧ (s.part u).running = false then 5
  else if i = 3 ∧ (s.island 3 = .dead ∨ s.island 3 = .disabled) then 5
  else if i = 6 ∧ u = 1 ∧ (s.seqs.any fun x => x.2.state != .idle && x.2.source == 1) then 3
  else if i = 8 ∧ s.dram.inService.getLsbD u = false then 0x8005
  else 0

/-- Another host-requested re-seat has not completed. (DEDUCED, log 63.) -/
def Chip.hostReseating (s : Chip) : Bool := s.reseat.runs.any fun r => r.host && !r.failed

/-- What the balls show from the start of a re-seat (R60, Table 2.14). -/
def Chip.reseatBalls (i u : Nat) (s : Chip) : Chip :=
  match i with
  | 5 => if u = 0xFF then s else s.coverLanes (s.lanesOf u)
  | 6 =>
    let s := (List.range 16).foldl (fun t q => if (t.sq q).source = u then t.coverLanes (t.lanesOf q) else t) s
    if (s.pll u).state = .off then s
    else (s.outputsOf u).foldl (fun t k => let o := t.clko k; if o.inTransition then t else t.beginTransition k (t.vco u) o.formatIn o.sourceIn o.dividerIn) s
  | 8 => if u < 2 then s.modDramCh u DramCh.hold else s
  | 9 => s.lowLevels
  | 10 => s.openRing .linkDown
  | _ => s

/-- A re-seat begins to drain (R483, R484). (DEDUCED, log 63.) -/
def Chip.beginReseat (i u : Nat) (host : Bool) (s : Chip) : Chip :=
  let s := s.modReseat fun r =>
    { r with
      runs := (r.runs.filter fun x => x.island != i || x.unit != u) ++ [{ island := i, unit := u, host := host, startAt := s.clk.ticks }]
      status := if host then .draining else r.status }
  (if u = 0xFF then s.putIsland i .reseatPending else s).reseatBalls i u

/-- The owner's answer to a re-seat request (R483). -/
def reseatAnswer (i u : Nat) (_ : Req) (s : Chip) : Chip × Reply :=
  let code := s.reseatPrecondition i u
  if code ≠ 0 then (s, bad code) else if s.hostReseating then (s, .busy 10) else (s, ok)

/-- `RESEAT_REQUEST`: the answer first, then the re-seat (R483). -/
def execReseatRequest (p : Path) (tag : Word16) (island unit : Byte) (s : State) : Host.Outcome State Fault Refusal :=
  let i := island.toNat
  let u := unit.toNat
  next s (hostThen p tag 0x2020 1 [island, unit] (fun _ _ => if (reseatLimit i u).isSome then 0 else 2) (reseatAnswer i u)
    (fun s => s.beginReseat i u true) s.chip)

/-- The re-seat under way of a unit. -/
def Chip.reseatRun (s : Chip) (i u : Nat) : Option ReseatRun :=
  s.reseat.runs.find? fun r => r.island == i && r.unit == u && !r.failed

/-- Change the re-seat of a unit. -/
def Chip.modRun (i u : Nat) (f : ReseatRun → ReseatRun) (s : Chip) : Chip :=
  s.modReseat fun r => { r with runs := r.runs.map fun x => if x.island = i ∧ x.unit = u then f x else x }

/-- The state of a host-requested re-seat (0x2020:02). -/
def Chip.reseatStatus (r : ReseatRun) (x : ReseatSt) (s : Chip) : Chip :=
  if r.host then s.modReseat fun y => { y with status := x } else s

/-- The island or unit resets and reloads (R484); the record's cause is re-seat for a host's request and watchdog
for an escalation (R79). -/
def Chip.enterReset (r : ReseatRun) (s : Chip) : Chip :=
  let cause := if r.host then 3 else 2
  let s := if r.unit = 0xFF then (s.islandReset cause r.island).islandLoad r.island
    else (s.islandRecord cause r.island r.unit).unitReset r.island r.unit
  (s.modRun r.island r.unit fun x => { x with phase := .loading, resetAt := s.clk.ticks }).reseatStatus r .loading

/-- `RESEAT_DRAIN_END`: begun work is complete, or the drain limit has expired (R484). (DEDUCED, log 63.) -/
def reseatDrainEnd (i u : Nat) (s : Chip) : Chip :=
  match s.reseatRun i u with
  | some r => if r.phase = .draining then s.enterReset r else s
  | none => s

/-- `RESEAT_DRAIN_END` (R484). -/
def execReseatDrainEnd (island : Island) (unit : Byte) (s : State) : Host.Outcome State Fault Refusal :=
  next s (reseatDrainEnd (islandNo island) unit.toNat s.chip)

/-- The outcome of a host-requested re-seat (R485): 0x2020:02 to :04. -/
def Chip.reseatOutcome (r : ReseatRun) (good : Bool) (s : Chip) : Chip :=
  if r.host then
    s.modReseat fun y =>
      { y with
        status := if good then .completed else .failed
        last := le 1 r.island ++ le 1 r.unit ++ le 2 (if good then 0 else 4) ++ le 2 (min 0xFFFF ((s.clk.ticks - r.startAt) / 400000))
        count := satAdd 32 y.count 1 }
  else s

/-- The island or unit is ready to run: the SI by its own start, a PLL by its lock. -/
def Chip.reseatReady (s : Chip) (r : ReseatRun) : Bool :=
  if r.unit = 0xFF then (if r.island = 3 then s.island 3 == .running
    else s.mayLoad r.island && (s.island r.island == .loading || s.island r.island == .running))
  else s.unitReady r.island r.unit

/-- A faulted island whose last unit out of service has come back runs again (R485). -/
def Chip.recoverIsland (i : Nat) (s : Chip) : Chip :=
  if i = 6 then s.recoverTi
  else if (s.clk.refLost ∧ needsRef i) ∨ (i = 8 ∧ s.dram.mode = .faulted) then s
  else if s.island i = .faulted ∧ (s.reseat.runs.any fun r => r.failed && r.island == i) = false then s.runIsland i
  else s

/-- `RESEAT_COMPLETE`: the island or unit runs again, and the outcome reads completed (R485). -/
def reseatComplete (i u : Nat) (s : Chip) : Chip :=
  match s.reseatRun i u with
  | none => s
  | some r =>
    if r.phase ≠ .loading ∨ s.reseatReady r = false then s
    else
      let s := s.modReseat fun y => { y with runs := y.runs.filter fun x => x.island != i || (u != 0xFF && x.unit != u) }
      let s := if u = 0xFF then s.islandRun i else (s.unitRun i u).recoverIsland i
      s.reseatOutcome r true

/-- `RESEAT_COMPLETE` (R485). -/
def execReseatComplete (island : Island) (unit : Byte) (s : State) : Host.Outcome State Fault Refusal :=
  next s (reseatComplete (islandNo island) unit.toNat s.chip)

/-- A re-seat ends in failure: the island or unit is faulted, with the island-reset record of cause 0x05; a DRAM
channel that did not retrain follows its policy (R386, R485). (DEDUCED, log 68.) -/
def Chip.failReseat (r : ReseatRun) (s : Chip) : Chip :=
  let i := r.island
  let s := s.modRun i r.unit fun x => { x with failed := true }
  let s := if i = 8 then s.faultChannel r.unit .training else (if r.unit = 0xFF then s else s.unitOut i r.unit).failIsland i .faulted
  (s.islandRecord 5 i r.unit).reseatOutcome r false

/-- `RESEAT_LIMIT_EXPIRY`: not running by the limit of Table 20.1, counted from the entry to resetting (R485). -/
def reseatExpiry (i u : Nat) (s : Chip) : Chip :=
  match s.reseatRun i u, reseatLimit i u with
  | some r, some ms => if r.phase = .loading ∧ s.overMs r.resetAt ms then s.failReseat r else s
  | _, _ => s

/-- `RESEAT_LIMIT_EXPIRY` (R485). -/
def execReseatLimitExpiry (island : Island) (unit : Byte) (s : State) : Host.Outcome State Fault Refusal :=
  next s (reseatExpiry (islandNo island) unit.toNat s.chip)

/-! ## Replacing a partition -/

/-- A descriptor without its code length and digest. -/
def descFixed (d : Bytes) : Bytes := d.take 8 ++ slice d 12 28

/-- The code area of a descriptor. -/
def codeOf (b d : Bytes) : Bytes := slice b (descCode d) (descCodeLen d)

/-- The descriptor of a partition in an image. -/
def descOf (b : Bytes) (p : Nat) : Option Bytes := (imgDescs b).find? fun d => descId d == p

/-- The layout of a new image matches that of the running one for the replacement of one partition (R487). -/
def layoutMatches (old new : Bytes) (p : Nat) : Bool :=
  let same (d : Bytes) : Bool := match descOf new (descId d) with
    | none => false
    | some e => if descId d = p then descFixed d == descFixed e else d == e && codeOf old d == codeOf new e
  let starts := (imgDescs old).map descCode
  imgCount old == imgCount new && (imgDescs old).all same &&
    (match descOf new p with
      | none => false
      | some e => starts.all fun a => decide (a ≤ descCode e) || decide (descCode e + descCodeLen e ≤ a))

/-- The other slot of A and B. -/
def otherStatus (s : Chip) : Nat := if s.boot.running = 0 then s.boot.statusB.toNat else s.boot.statusA.toNat

/-- What refuses a replacement before the staged image is read: 0, or its code (R490). (DEDUCED, log 66.) -/
def replaceState (s : Chip) : Nat :=
  if s.formed ∨ s.cluster.state = .holdOver ∨ s.reseat.replacing.isSome then 5
  else if s.dramServes = false ∨ s.runs 4 = false then 4 else 0

/-- The checks of R487 of a staged image: 0, or the first failure's code. (DEDUCED, log 66.) -/
def replaceCode (p : Nat) (img : Bytes) (s : Chip) : Nat :=
  let a := s.boot.running.toNat
  let code := s.checkImage img false false (areaSize a)
  if code ≠ 0 then code
  else if otherStatus s ≠ 0 then 0x2008
  else if layoutMatches (s.areaImage a) img p = false then 0x2007
  else 0

/-- An accepted replacement: the partition stops, and the running slot's header block is erased (R488, steps 1 and 2). (DEDUCED, log 66.) -/
def replaceChecked (p : Nat) (img : Bytes) (s : Chip) : Chip × Reply :=
  let code := replaceCode p img s
  if code ≠ 0 then (s, bad code)
  else
    let s := ((s.stopPartition p).clearRam p).modPart p fun x => { x with replacing := true, packets := [] }
    let s := s.modReseat fun r => { r with replacing := some p, replacement := 0xFFFF, image := img }
    (s.flashErase (areaBase s.boot.running.toNat) 4096, ok)

/-- A replacement (R487, R490). (DEDUCED, log 66.) -/
def replacePartition (p : Nat) (_ : Req) (s : Chip) : Chip × Reply :=
  if replaceState s ≠ 0 then (s, bad (replaceState s)) else s.withStaged (replaceChecked p)

/-- `REPLACE_PARTITION` (R487). -/
def execReplacePartition (p : Path) (tag : Word16) (partition : Byte) (s : State) : Host.Outcome State Fault Refusal :=
  next s (hostWrite p tag 0x2020 6 [partition] (fun _ s => if (s.part partition.toNat).present then 0 else 2) (replacePartition partition.toNat) s.chip)

/-- `REPLACEMENT_COMPLETE`: the changed blocks are programmed, the slot is checked, and the partition starts, or
stays stopped with its check-in slots inactive (R449, R488, R489). (DEDUCED, log 66.) -/
def replacementComplete (s : Chip) : Chip :=
  match s.reseat.replacing with
  | none => s
  | some p =>
    let a := s.boot.running.toNat
    let img := s.reseat.image
    let s := s.writeArea a img
    let code := s.areaStatus a
    let s := s.modReseat fun r => { r with replacing := none, image := [], replacement := code }
    if code ≠ 0 then (s.modPart p fun x => { x with replacing := false }).modSlots p fun x => { x with state := .inactive }
    else
      let s := s.modBoot fun b => { b with digest := imgDigest img, signer := imgSigner img }
      (s.modPart p fun x => { x with desc := (descOf img p).getD x.desc }).startPartition p 2

/-- `REPLACEMENT_COMPLETE` (R488). -/
def execReplacementComplete (s : State) : Host.Outcome State Fault Refusal := next s (replacementComplete s.chip)

end Sys2Proof.Machine
end

