-- ==== Sys2Proof/Machine/Watchdog.lean ====
section
/-! DEFINITION. Conductor access rights (R19, R20, R164), the watchdog (R447 to R456), the scrubs and the state of
the background activities (R457 to R461), and telemetry (R462, R521). -/

namespace Sys2Proof.Machine

/-! ## Access rights (R19, R20, R164) -/

/-- A range of addresses with the kinds of access it allows. -/
structure Right where
  base : Nat
  size : Nat
  kinds : List AccessKind
  deriving DecidableEq, Repr

/-- The check-in page and the software trace page, mapped to every partition (R448, R479). (DEDUCED, log 71.) -/
def pageRights : List Right := [⟨0x40104000, 0x100, [.read, .write]⟩, ⟨0x40201000, 0x100, [.read, .write]⟩]

/-- What a partition may touch (R164), its DRAM inside the conductor region (R364). (DEDUCED, log 71.) -/
def Chip.partitionRights (s : Chip) (p : Nat) : List Right :=
  let d := (s.part p).desc
  [⟨0x20000000 + areaBase s.boot.running.toNat + descCode d, descCodeLen d, [.execute, .read]⟩,
   ⟨descRam d, descRamLen d, [.read, .write]⟩,
   ⟨0x80000000 + descDram d, min (descDramLen d) (s.regionSize 1 - descDram d), [.read, .write]⟩,
   ⟨0x10080000 + s.shareBase p, s.shareSize p, [.read]⟩] ++ pageRights ++
  (((List.range 11).filter fun i => descPrivileged d && (descWindows d).testBit i).map fun i => ⟨0x40000000 + 0x100000 * i, 0x100000, [.read, .write]⟩)

/-- What a master outside the partitions may touch (Table 1.4); the aperture ends with the conductor region (R364). -/
def Chip.mapRights (s : Chip) : List Right :=
  [⟨0, 0x10000, [.execute, .read]⟩, ⟨0x10000000, 0x80000, [.read, .write, .execute]⟩, ⟨0x10080000, 0x20000, [.read]⟩,
   ⟨0x20000000, 0x400000, [.execute, .read]⟩, ⟨0x40000000, 0xB00000, [.read, .write]⟩, ⟨0x80000000, min 0x80000000 (s.regionSize 1), [.read, .write]⟩]

/-- The first address of an access that its rights do not allow. -/
def firstForbidden (l : List Right) (k : AccessKind) (addr len : Nat) : Option Nat :=
  ((List.range len).map (addr + ·)).find? fun a => !l.any fun r => decide (r.base ≤ a) && decide (a < r.base + r.size) && r.kinds.contains k

/-- An access by an internal bus master: refused whole where any address of it is forbidden (R20). -/
def conductorAccess (master : Island) (partition : Option (Fin 8)) (kind : AccessKind) (addr len : Nat) (s : Chip) : Chip :=
  match partition with
  | none =>
    match firstForbidden s.mapRights kind addr len with
    | some a => s.accessRefused (islandNo master) a 0 (kindCode kind)
    | none => s
  | some p =>
    if (s.part p.val).running = false ∨ s.runs 2 = false then s
    else match firstForbidden (s.partitionRights p.val) kind addr len with
      | some a => (s.accessRefused 2 a 0 (kindCode kind)).accessFault p.val
      | none => s

/-- `CONDUCTOR_ACCESS_FAULT` (R20, R164). -/
def execConductorAccessFault (master : Island) (partition : Option (Fin 8)) (kind : AccessKind) (addr : Word32) (len : Nat) (s : State) :
    Host.Outcome State Fault Refusal :=
  next s (conductorAccess master partition kind addr.toNat len s.chip)

/-! ## Check-ins (R448, R449, R451, R452) -/

/-- Now lies in the closed window of the period (R451). -/
def Chip.inClosed (s : Chip) : Bool :=
  decide (4 * (s.clk.ticks - s.watchdog.startAt) < s.watchdog.closed.toNat * (400000 * s.watchdog.period))

/-- What a check-in does to its slot: any value but the period's number is bad, and one in the closed window is
early (R448, R451). (DEDUCED, log 69.) -/
def Slot.checkIn (valid early : Bool) (x : Slot) : Slot :=
  let x := if valid ∧ x.state = .grace then { x with state := .active } else x
  if valid = false then { x with bad := true }
  else if early then { x with bad := true, early := true }
  else { x with good := true }

/-- `WATCHDOG_CHECK_IN`: a write to the slot's word, refused whole for a slot of another owner (R448). (DEDUCED, log 69.) -/
def checkIn (p slot : Nat) (value : Word32) (s : Chip) : Chip :=
  if (s.part p).running = false ∨ s.runs 2 = false then s
  else if s.slotOwner slot ≠ some p then (s.accessRefused 2 (0x40104000 + 4 * slot) 0 1).accessFault p
  else
    let s := if s.traceOn 3 then s.tracePut p 0x07 slot value.toNat (max (s.part p).lastCycle s.cycles) else s
    let valid := value.toNat == s.watchdog.number % 65536
    s.modWatchdog fun w => { w with slots := w.slots.upd {} slot (Slot.checkIn valid s.inClosed) }

/-- `WATCHDOG_CHECK_IN` (R448). -/
def execWatchdogCheckIn (partition : Fin 8) (slot : Fin 16) (value : Word32) (s : State) : Host.Outcome State Fault Refusal :=
  next s (checkIn partition.val slot.val value s.chip)

/-! ## Escalation (R453 to R456) -/

/-- A strike at a tick is within the escalation window. (DEDUCED, log 69.) -/
def Chip.strikeHolds (s : Chip) (t : Nat) : Bool := decide (s.clk.ticks < t + 400000000 * s.watchdog.escalation)

/-- Full periods a slot in grace has ended without a valid check-in, with the one that ends now (R449). -/
def Chip.graceCount (s : Chip) (x : Slot) : Nat := if x.graceAt ≤ s.watchdog.startAt then x.periods + 1 else x.periods

/-- A slot fails the period that ends now (R449, R452). (DEDUCED, log 69.) -/
def Chip.slotFails (s : Chip) (x : Slot) : Bool :=
  match x.state with
  | .active => x.bad || !x.good
  | .grace => x.bad || decide (s.graceCount x ≥ 4)
  | _ => false

/-- The failed slot mask. -/
def Chip.failedSlots (s : Chip) : List Nat := (List.range 16).filter fun i => s.slotFails (SMap.get s.watchdog.slots {} i)

/-- A mask of the numbers of a list. -/
def maskOf (l : List Nat) : Nat := ((List.range 16).map fun i => if l.contains i then 2 ^ i else 0).sum

/-- The record of an escalation, and 0x2800:0B (R454). (DEDUCED, log 69.) -/
def Chip.noteEscalation (level partitions failed : Nat) (s : Chip) : Chip :=
  let d := le 1 level ++ le 1 partitions ++ le 2 failed
  (s.record 0x1011 1 d).modWatchdog fun w => { w with lastEsc := d }

/-- A partition-level restart begins: it stops, its SRAM range and trace share are cleared (Table 18.1). -/
def Chip.beginRestart (p : Nat) (s : Chip) : Chip :=
  let s := ((s.stopPartition p).clearRam p).modPart p fun x => { x with restarting := true, packets := [] }
  s.modWatchdog fun w => { w with strikes := w.strikes.put p s.clk.ticks, restarts := satAdd 32 w.restarts 1 }

/-- An island strike is counted (R453, R455). -/
def Chip.islandStrike (s : Chip) : Chip :=
  s.modWatchdog fun w => { w with islandStrikes := w.islandStrikes ++ [s.clk.ticks], islandEsc := satAdd 32 w.islandEsc 1 }

/-- The CI is re-seated by the watchdog; one already pending is completed as one (R454, R486). -/
def Chip.reseatCi (s : Chip) : Chip := if (s.reseatRun 2 0xFF).isSome then s else s.beginReseat 2 0xFF false

/-- The CI stops and resets without waiting for a period boundary (R455). -/
def Chip.reseatCiNow (s : Chip) : Chip :=
  let s := s.reseatCi
  match s.reseatRun 2 0xFF with
  | some r => if r.phase = .draining then s.enterReset r else s
  | none => s

/-- The next period begins, with the staged period and window (R451, R452). -/
def Chip.nextPeriod (s : Chip) : Chip :=
  let slots := (List.range 16).foldl (fun m i => SMap.upd m {} i fun x =>
    { x with periods := if x.state = .grace then s.graceCount x else x.periods, good := false, bad := false, early := false }) s.watchdog.slots
  s.modWatchdog fun w =>
    { w with
      slots := slots, number := (w.number + 1) % 2 ^ 32, startAt := w.startAt + 400000 * w.period, period := w.periodStaged
      closed := w.closedStaged, stopped := []
      strikes := List.filter (fun e : Nat × Nat => s.strikeHolds e.2) w.strikes
      islandStrikes := w.islandStrikes.filter s.strikeHolds }

/-- One action at the highest level found (R453). -/
def Chip.escalate (parts failed : List Nat) (s : Chip) : Chip :=
  let struck (p : Nat) : Bool := match s.watchdog.strikes.find? p with
    | some t => s.strikeHolds t
    | none => false
  let level := if parts.any struck then (if s.watchdog.islandStrikes.any s.strikeHolds then 3 else 2) else 1
  let s := (s.modWatchdog fun w => { w with failedLast := BitVec.ofNat 16 (maskOf failed) }).noteEscalation level (maskOf parts) (maskOf failed)
  if level = 3 then chipReset 0x40 (s.modWatchdog fun w => { w with chipEsc := satAdd 32 w.chipEsc 1 })
  else if level = 2 then s.nextPeriod.islandStrike.reseatCi
  else parts.foldl (fun t p => t.beginRestart p) s.nextPeriod

/-- The watchdog counts periods: the CI is neither off, resetting nor loading (R450). -/
def Chip.watching (s : Chip) : Bool := !(s.island 2 == .off || s.island 2 == .resetting || s.island 2 == .loading)

/-- `WATCHDOG_PERIOD_END` (R453). -/
def periodEnd (s : Chip) : Chip :=
  if s.watching = false ∨ s.overMs s.watchdog.startAt s.watchdog.period = false then s
  else
    let failed := s.failedSlots
    let parts := (List.range 8).filter fun p => s.watchdog.stopped.contains p || failed.any fun i => s.slotOwner i == some p
    if parts = [] then s.nextPeriod else s.escalate parts failed

/-- `WATCHDOG_PERIOD_END` (R453). -/
def execWatchdogPeriodEnd (s : State) : Host.Outcome State Fault Refusal := next s (periodEnd s.chip)

/-- A partition whose code digest fails: the island level at once (R455); a host's re-seat of it has failed. -/
def Chip.digestFails (p : Nat) (s : Chip) : Chip :=
  let s := s.record 0x2001 2 (le 1 p ++ le 1 2) p
  let s := match s.reseatRun 2 p with
    | some r => (s.modReseat fun y => { y with runs := y.runs.filter (· != r) }).reseatOutcome r false
    | none => s
  (s.noteEscalation 2 (2 ^ p) 0).islandStrike.reseatCiNow

/-- `PARTITION_RESTART_COMPLETE`: the code area is checked against its descriptor digest, and the partition starts
at its entry point (Table 18.1, R455). A host's re-seat of a partition ends by RESEAT_COMPLETE. (DEDUCED, log 70.) -/
def restartComplete (p : Nat) (s : Chip) : Chip :=
  if (s.part p).restarting = false ∨ s.runs 2 = false then s
  else if s.codeOk p = false then s.digestFails p
  else if (s.reseatRun 2 p).isSome then s
  else s.startPartition p 1

/-- `PARTITION_RESTART_COMPLETE` (R454). -/
def execPartitionRestartComplete (partition : Fin 8) (s : State) : Host.Outcome State Fault Refusal :=
  next s (restartComplete partition.val s.chip)

/-- `LOCKSTEP_MISMATCH`: the CI stops at once and escalates to the island level (R455). (DEDUCED, log 70.) -/
def lockstepMismatch (s : Chip) : Chip :=
  if s.runs 2 = false ∧ s.island 2 ≠ .reseatPending then s
  else
    let l := (List.range 8).filter fun p => (s.part p).running
    let s := l.foldl (fun t p => t.record 0x2001 2 (le 1 p ++ le 1 3) p) s
    (s.noteEscalation 2 (maskOf l) 0).islandStrike.reseatCiNow

/-- `LOCKSTEP_MISMATCH` (R455). -/
def execLockstepMismatch (s : State) : Host.Outcome State Fault Refusal := next s (lockstepMismatch s.chip)

/-! ## Scrubs (R458) -/

/-- An uncorrectable SRAM word faults the island that holds it (R458). (DEDUCED, log 73.) -/
def Chip.sramFault (i addr : Nat) (s : Chip) : Chip :=
  let s := s.record 0x0006 i (le 4 addr)
  if s.runs i = false then s
  else
    let s := s.modReseat fun r =>
      { r with runs := (r.runs.filter fun x => x.island != i || x.unit != 0xFF) ++ [{ island := i, failed := true, phase := .failed, startAt := s.clk.ticks, resetAt := s.clk.ticks }] }
    let s := if i = 5 ∨ i = 6 then s.faultSeqs 0 else s
    let s := if i = 8 then (s.parkAll.failRequests 4).loseStaging.modDram fun d => { d with mode := .faulted } else s
    let s := if i = 10 then (s.openRing .linkDown).modCluster fun c => { c with linkUp := false } else s
    s.failIsland i .faulted

/-- The number an address lies at in user flash. -/
def flashOffset (a : Nat) : Nat := a % 0x400000

/-- A corrected flash word: wear management moves its page, which may raise the highest erase count (R458). (DESIGN CHOICE, log 72.) -/
def Chip.movePage (s : Chip) : Chip :=
  (s.modFree (· + 1)).modBoot fun b => { b with highestErase := (b.highestErase + Config.freeNat s.free % 2) % 2 ^ 32 }

/-- An uncorrectable flash word: its page is marked bad, and what the data area held there is damaged; the layout of the
data area decides what that is (R458; log 4). (DESIGN CHOICE, log 72.) -/
def Chip.flashBad (addr : Nat) (s : Chip) : Chip :=
  let s := (s.record 0x2002 2 (le 4 addr ++ [1])).modBoot fun b =>
    { b with badPages := flashOffset addr / 4096 :: b.badPages.filter (· != flashOffset addr / 4096) }
  if flashOffset addr < dataArea then s
  else (s.modFree (· + 1)).damageData (Config.freeNat s.free)

/-- `SCRUB_CORRECTED`: a corrected word is written back, and counted for the DRAM; an uncorrectable one has the
outcome of its memory (R458, R367). -/
def scrub (t : ScrubTarget) (uncorrectable : Bool) (s : Chip) : Chip :=
  match t with
  | .sram i a => if uncorrectable then s.sramFault (islandNo i) a.toNat else s
  | .flash a => if uncorrectable then s.flashBad a.toNat else if s.runs 2 then s.movePage else s
  | .dram c off =>
    if (s.dram.inService.getLsbD c.val && s.dramServes) = false then s
    else
      if uncorrectable then s.countBad c.val off .scrub else s.countCorrected c.val off .scrub

/-- `SCRUB_CORRECTED` (R458). -/
def execScrubCorrected (target : ScrubTarget) (uncorrectable : Bool) (s : State) : Host.Outcome State Fault Refusal :=
  next s (scrub target uncorrectable s.chip)

/-! ## Background activities (R457 to R461) -/

/-- Whether an activity can be as the command says: two never fall behind, and two are behind by state the device
holds (Table 18.2). -/
def Chip.canBe (s : Chip) (n : Nat) (behind : Bool) : Bool :=
  if n = 3 ∨ n = 7 then false
  else if n = 4 then behind != s.calibrated
  else if n = 6 then behind == decide (s.boot.freeBlocks < 4)
  else true

/-- An activity record, of each kind at most one in an hour; the others are counted in the next (R459). -/
def Chip.activityRecord (n : Nat) (enters : Bool) (s : Chip) : Chip :=
  let key := 2 * n + (if enters then 0 else 1)
  let recent := match s.recorder.marksMs.find? key with
    | some t => decide (s.upMs < t + 3600000)
    | none => false
  if recent then s.modRecorder fun r => { r with uncounted := r.uncounted.upd 0 key (satAdd 32 · 1) }
  else
    (s.record (if enters then 7 else 8) (activityIsland n) (le 1 n ++ [0] ++ le 4 (s.recorder.uncounted.get 0 key))).modRecorder fun r =>
      { r with marksMs := r.marksMs.put key s.upMs, uncounted := r.uncounted.erase key }

/-- `ACTIVITY_BEHIND` (R459). (DESIGN CHOICE, log 74.) -/
def activityBehind (n : Nat) (enters : Bool) (s : Chip) : Chip :=
  let now := (SMap.get s.background.activities {} n).state == .behind
  if s.suspended n ∨ s.canBe n enters = false ∨ now = enters then s
  else
    (s.modBackground fun b => { b with activities := b.activities.upd {} n fun a => { a with state := if enters then .behind else .running } }).activityRecord n enters

/-- `ACTIVITY_BEHIND` (R459). -/
def execActivityBehind (activity : Fin 8) (enters : Bool) (s : State) : Host.Outcome State Fault Refusal :=
  next s (activityBehind activity.val enters s.chip)

/-- `FLASH_RECLAIM`: a block is reclaimed while fewer than 16 remain free; the activity is complete with 16 (R457,
Table 18.2). (DESIGN CHOICE, log 72.) -/
def flashReclaim (s : Chip) : Chip :=
  if s.runs 2 = false ∨ s.boot.freeBlocks ≥ 16 then s
  else
    let e := s.boot.highestErase + Config.freeNat s.free % 2
    let s := (s.modFree (· + 1)).modBoot fun b => { b with freeBlocks := b.freeBlocks + 1, highestErase := e % 2 ^ 32 }
    if s.boot.freeBlocks = 16 then s.activityDone 6 else s

/-- `FLASH_RECLAIM` (R457). -/
def execFlashReclaim (s : State) : Host.Outcome State Fault Refusal := next s (flashReclaim s.chip)

/-! ## Telemetry (R462, R521) -/

/-- The reading of a sensor that does not convert (R462). -/
def noReading : Int := 0x7FFF

/-- The highest junction reading, of the sensors that converted (0x2300:07). (DEDUCED, log 73.) -/
def highest (l : List Int) : Int :=
  match l.filter (· != noReading) with
  | [] => noReading
  | t :: ts => ts.foldl max t

/-- The island of the sensor that reads highest. (DEDUCED, log 73.) -/
def hottestIsland (l : List Int) : Nat :=
  let h := highest l
  [1, 2, 3, 6, 8].getD (l.findIdx (· == h)) 1

/-- The condition of the temperature warning (Table 5.11). -/
def Chip.raiseTemperature (s : Chip) : Chip :=
  s.raise 4000 0x4200 0x09 0x000C (hottestIsland s.background.temps) (unsigned 16 (highest s.background.temps))

/-- `TELEMETRY_SAMPLE`: every value is refreshed; the warning arises at 100.0 °C and ends below 95.0 °C (R462,
R521). (DEDUCED, log 73.) -/
def telemetrySample (x : Telemetry) (s : Chip) : Chip :=
  let temps := (List.range 5).map fun i => x.temps.getD i noReading
  let s := (s.modBackground fun b =>
    { b with
      temps := temps, rails := (List.range 7).map fun i => x.rails.getD i 0
      rates := (List.range 6).map (fun i => x.rates.getD i 0), peaks := pad 19 x.peaks }).activityDone 7
  let h := highest temps
  if h = noReading then s
  else if s.background.warning = false ∧ h ≥ 1000 then
    ((s.modBackground fun b => { b with warning := true }).record 0x000C (hottestIsland temps) (le 2 (unsigned 16 h))).raiseTemperature
  else if s.background.warning ∧ h < 950 then (s.modBackground fun b => { b with warning := false }).endCondition 4000
  else s

/-- `TELEMETRY_SAMPLE` (R462). -/
def execTelemetrySample (sample : Telemetry) (s : State) : Host.Outcome State Fault Refusal := next s (telemetrySample sample s.chip)

end Sys2Proof.Machine
end

