-- ==== Sys2Proof/Machine/Power.lean ====
section
/-! DEFINITION. Rails and brown-outs (R61 to R67), the reset sources (R42, R68, R71, R80), deep sleep (R76 to R78), and
loss and return of REFCLK (R81, R82). -/

namespace Sys2Proof.Machine

/-! ## Reset sources -/

/-- A chip reset of these causes; cause 0 is an AO power-on reset (Table 3.2). (DEDUCED, log 75.) -/
def resetBy (causes : Nat) (s : Chip) : Chip :=
  if causes = 0 then s else if causes.testBit 0 then aoPowerOn causes s else chipReset causes s

/-- `CHIP_RESET` (R68): sources on one edge are recorded together (R79). -/
def execChipReset (causes : BitVec 12) (s : State) : Host.Outcome State Fault Refusal := next s (resetBy causes.toNat s.chip)

/-- `AO_POWER_ON_RESET` (R67). -/
def execAoPowerOnReset (s : State) : Host.Outcome State Fault Refusal := next s (resetBy 1 s.chip)

/-- Whether a pulse is taken by a filter that never takes one below `lo` and always takes one of `hi` or more; between
them the device decides (R42, R64). -/
def Chip.filtered (lo hi n : Nat) (s : Chip) : Chip × Bool :=
  if n < lo then (s, false) else if hi ≤ n then (s, true) else let d := s.drawBool; (d.2, d.1)

/-- `RST_N_RESET`: a low level on RST_N (R42), which is ignored while VDD_AO is absent (R41); from deep sleep it is a
wake as well (R78). (DEDUCED, log 77.) -/
def rstN (lowNs : Nat) (s : Chip) : Chip :=
  if s.power.onVbat then s
  else
    let f := s.filtered 500 1000 lowNs
    if f.2 then chipReset (if s.power.phase = .asleep then 0x404 else 0x004) f.1 else f.1

/-- `RST_N_RESET` (R42). -/
def execRstNReset (lowNs : Nat) (s : State) : Host.Outcome State Fault Refusal := next s (rstN lowNs s.chip)

/-- `CHIP_RESET_COMMAND` (R80). -/
def execChipResetCommand (p : Path) (tag : Word16) (s : State) : Host.Outcome State Fault Refusal :=
  next s (hostThen p tag 0x2003 8 (le 4 0xA5) (fun _ _ => 0) (fun _ s => (s, ok)) (chipReset 0x100) s.chip)

/-! ## Rails (R61 to R66) -/

/-- The brown-out threshold of a rail, mV (Table 3.1). -/
def brownOut : Rail → Nat
  | .vddAo => 1600 | .vbat => 2250 | .vddCore => 720 | .vddIo18 => 1620 | .vddIo33 => 2970 | .vddSec => 720 | .vddPll => 720 | .vddqDram => 1000

/-- Put a rail's bits; VBAT is present at 2.2 V (Table 2.11), and the other pad supplies, for which the spec gives no
threshold, while their rail is good. (DESIGN CHOICE, log 117.) -/
def Chip.putRail (r : Rail) (good present : Bool) (s : Chip) : Chip :=
  let put (b : Byte) (k : Nat) (v : Bool) : Byte := if v then b ||| BitVec.twoPow 8 k else b &&& ~~~(BitVec.twoPow 8 k)
  s.modPower fun p =>
    let now := put p.railsGood (railBit r) good
    { p with
      railsGood := now
      goneMask := if now &&& gatingRails = 0 then now else p.goneMask
      railsPresent := match presentBit r with
        | some k => put p.railsPresent k present
        | none => p.railsPresent }

/-- The islands a rail's brown-out resets (Table 3.1). -/
def railIslands : Rail → List Nat
  | .vddSec => [3]
  | .vddPll => [6, 5, 7]
  | .vddqDram => [8]
  | _ => []

/-- Islands leave reset: start-up has come to the dictionary, and the device is not in deep sleep. -/
def Chip.upRunning (s : Chip) : Bool := s.power.phase == .online || s.power.phase == .ready

/-- Pending launches outlive the resets that come with a relock of PLL_0 (R96, R103). (DEDUCED, log 110.) -/
def Chip.keepLaunches (before s : Chip) : Chip :=
  (List.range 16).foldl (fun t q =>
    let x := before.sq q
    t.modSq q fun y => { y with launch := x.launch, launchHeld := x.launch.isSome, launchMissed := x.launchMissed, lastAction := x.lastAction }) s

/-- An island whose rail browned out resets, with its record and EMCY (R65, R141). (DEDUCED, log 64, log 76.) -/
def Chip.brownIsland (i : Nat) (s : Chip) : Chip :=
  match s.island i with
  | .off => s
  | .resetting => s
  | .disabled => s
  | .dead => s
  | _ => (s.islandReset 1 i).raise (3000 + i) 0x3000 0x05 0x0003 i (i + 256)

/-- The chip-reset cause of a rail and its place in the reset record. -/
def railCause : Rail → Option (Nat × Nat)
  | .vddCore => some (0x008, 0)
  | .vddIo18 => some (0x010, 1)
  | .vddIo33 => some (0x020, 2)
  | _ => none

/-- With this rail every one that gates the release is gone, the AO core being kept (Table 3.2); the supplies of the AO
rail gate nothing here. (DEDUCED, log 75.) -/
def Chip.noteAbsent (r : Rail) (s : Chip) : Chip :=
  if r = .vddAo ∨ r = .vbat then s
  else s.modPower fun p => { p with absent := p.absent || (p.railsGood &&& gatingRails == 0) }

/-- VDD_AO or VBAT fails: the AO rail is taken from the other, or falls below its retention level (R66, R67). -/
def Chip.aoSupply (s : Chip) : Chip :=
  if s.power.railsGood.getLsbD 6 then s
  else
    let s := Chip.follow s (s.modPower fun p => { p with onVbat := true })
    if s.power.vbatMv < 1900 then aoPowerOn 1 s else s

/-- The reaction of Table 3.1. (DEDUCED, log 75.) -/
def Chip.browned (r : Rail) (mv : Nat) (s : Chip) : Chip :=
  match r with
  | .vddAo => s.aoSupply
  | .vbat =>
    let s := ((s.modPower fun p => { p with vbatMv := mv }).record 0x1014 1 (le 2 mv)).raise 3100 0x3000 0x05 0x1014 1 mv
    s.aoSupply
  | _ =>
    match railCause r with
    | some (cause, k) =>
      if s.power.phase = .asleep then s
      else chipReset cause (s.modPower fun p => { p with minMv := p.minMv.put k mv })
    | none =>
      if s.upRunning = false then s
      else
        let t := (railIslands r).foldl (fun t i => t.brownIsland i) s
        if r = .vddPll then s.keepLaunches t else t

/-- `RAIL_BROWN_OUT`: a dip below the rail's brown-out threshold (R64). -/
def railBrownOut (r : Rail) (minMv dipNs : Nat) (s : Chip) : Chip :=
  if s.power.railsGood.getLsbD (railBit r) = false ∨ brownOut r ≤ minMv then s
  else
    let f := s.filtered 500 2000 dipNs
    if f.2 then ((f.1.putRail r false (r == .vbat && decide (2200 ≤ minMv))).browned r minMv).noteAbsent r else f.1

/-- `RAIL_BROWN_OUT` (R64). -/
def execRailBrownOut (rail : Rail) (minMv dipNs : Nat) (s : State) : Host.Outcome State Fault Refusal := next s (railBrownOut rail minMv dipNs s.chip)

/-- The internal reset is released: time 0, at which the straps are sampled; after an absence of the rails it is a
chip reset of cause internal power-on (R55, R79, section 3.4). (DEDUCED, log 75.) -/
def Chip.release (s : Chip) : Chip :=
  if s.power.phase ≠ .railsWait ∨ s.power.released = false then s
  else if s.power.absent then chipReset 0x002 s
  else strapRecords ((s.modPower fun p => { p with phase := .refclkCheck, straps := p.strapPins }).modClk fun c => { c with startTick := c.ticks })

/-- Islands that wait in reset go on, as far as their rail and REFCLK allow (R65, R81; section 3.4: the MI waits for VDDQ_DRAM). -/
def Chip.loadWaiting (l : List Nat) (s : Chip) : Chip :=
  if s.upRunning then l.foldl (fun t i => if t.island i = .resetting then t.islandLoad i else t) s else s

/-- The AO core becomes ready once its rail is good (section 3.4). -/
def Chip.noteCore (s : Chip) : Chip := s.modPower fun p => { p with coreReady := p.coreReady || p.aoRail }

/-- VBAT is measured every 1 s: not below its brown-out threshold while its rail is good, and with the AO rail taken from it
not below the retention limit (0x2003:06, 0x2001:04, R64, R67); an AO rail that it finds good may release the reset. The reading is free within that. (DESIGN CHOICE, log 111.) -/
def Chip.measureVbat (s : Chip) : Chip :=
  let n := Config.freeNat s.free
  let good := s.power.railsGood.getLsbD (railBit .vbat)
  let mv := if good then 2250 + n % 1351 else if s.power.onVbat then 1900 + n % 350 else n % 2250
  (((s.modFree (· + 1)).modPower fun p => { p with vbatMv := mv }).putRail .vbat good (decide (2200 ≤ mv))).noteCore.release

/-- A latched wake follows once every rail is good (R78). Its cause is deep-sleep wake alone, though the rails may have been
removed and returned meanwhile. (DESIGN CHOICE, log 129.) -/
def Chip.takeWake (s : Chip) : Chip :=
  if s.power.phase = .asleep ∧ s.power.latchedWake.isSome ∧ s.power.railsGood &&& 0x3F = 0x3F then chipReset 0x400 s else s

/-- What a rail's return does of its own: the AO switches back to VDD_AO (R66); VBAT's flag clears, and its voltage
is at least 2.30 V (0x2003:06). (DEDUCED, log 76.) -/
def Chip.railBack (r : Rail) (s : Chip) : Chip :=
  match r with
  | .vddAo => Chip.follow s (s.modPower fun p => { p with onVbat := false })
  | .vbat => ((s.modFree (· + 1)).modPower fun p => { p with vbatMv := 2300 + Config.freeNat s.free % 1301 }).endCondition 3100
  | _ => s

/-- `RAIL_GOOD`: above its good threshold for 200 µs (R64). -/
def railGood (r : Rail) (s : Chip) : Chip :=
  if s.power.railsGood.getLsbD (railBit r) then s
  else ((((s.putRail r true true).railBack r).noteCore.loadWaiting (railIslands r)).release).takeWake

/-- `RAIL_GOOD` (R64). -/
def execRailGood (rail : Rail) (s : State) : Host.Outcome State Fault Refusal := next s (railGood rail s.chip)

/-! ## Deep sleep (R76 to R78) -/

/-- Deep sleep: every island but the AO is off and its contents are lost; the AO core and services keep theirs
(R77); the DRAM's content generation counts on (R368). (DEDUCED, log 77, log 148.) -/
def sleepChip (s : Chip) : Chip :=
  let s := s.suspendSlots
  { ({} : Chip) with
    power := { s.power with phase := .asleep, latchedWake := none, lanesLive := false }
    clk := { ({} : Clocks) with ticks := s.clk.ticks, startTick := s.clk.startTick }
    lanes := s.lanes.foldl (fun m x => SMap.set m {} x.1 { input := x.2.input }) []
    router := s.router
    levels := { ({} : Levels) with pinClear := s.levels.pinClear }
    dram := { ({} : Dram) with generation := s.dram.generation }
    watchdog := s.watchdog
    boot := { s.boot with storing := none }
    life := s.life
    keys := { s.keys with slots := [] }
    recorder := s.recorder
    pair := { ({} : Pair) with publicKey := s.pair.publicKey, privateKey := s.pair.privateKey, takeovers := s.pair.takeovers }
    islands := List.replicate 11 .off |> (List.set · 1 .running)
    out := s.out
    free := s.free }

/-- The conditions of R76. -/
def sleepAnswer (_ : Req) (s : Chip) : Chip × Reply :=
  if s.anyArmed ∨ s.formed ∨ s.cluster.state = .holdOver ∨ (s.pair.state ≠ .unpaired) ∨ s.life.pending.isSome ∨ s.life.state = .locked ∨ s.life.state = .scrapped then (s, bad 5)
  else (s, ok)

/-- `DEEP_SLEEP_COMMAND` (R76): answered, then entered. -/
def execDeepSleepCommand (p : Path) (tag : Word16) (s : State) : Host.Outcome State Fault Refusal :=
  next s (hostThen p tag 0x2003 9 [1] (fun _ _ => 0) sleepAnswer sleepChip s.chip)

/-- A wake source is enabled, and an edge can come to the router's consumer: from a producer of the AO, and from an event ball only
while VDD_AO is there (R41, R78, R410, R414). -/
def Chip.wakes (s : Chip) (w : WakeSource) : Bool :=
  match w with
  | .rstN => !s.power.onVbat
  | .router => s.power.wakeSources.getLsbD 0 && s.edgeAt 0x5A
  | .spiCs => s.power.wakeSources.getLsbD 1

/-- `DEEP_SLEEP_WAKE` (R78): RST_N at once; the others once every rail is good. (DEDUCED, log 77.) -/
def deepSleepWake (w : WakeSource) (s : Chip) : Chip :=
  if s.power.phase ≠ .asleep ∨ s.wakes w = false then s
  else if w = .rstN then chipReset 0x404 s
  else (s.modPower fun p => { p with latchedWake := some w }).takeWake

/-- `DEEP_SLEEP_WAKE` (R78). -/
def execDeepSleepWake (source : WakeSource) (s : State) : Host.Outcome State Fault Refusal := next s (deepSleepWake source s.chip)

/-! ## REFCLK (R81, R82) -/

/-- The measured frequency of REFCLK is refreshed every 10 ms (0x2600:02): free within the window of the check while it passes,
0 while there is none, and free outside the window while it fails. (DESIGN CHOICE, log 111.) -/
def Chip.measureRef (s : Chip) : Chip :=
  let n := Config.freeNat s.free
  let f := s.refNominal
  let hz := if s.clk.refStatus = 0 then f * 98 / 100 + n % (f * 4 / 100 + 1)
    else if s.clk.refStatus = 1 then 0
    else if n % 2 = 0 then n % (f * 98 / 100) else f * 102 / 100 + 1 + n % f
  (s.modFree (· + 1)).modClk fun c => { c with refHz := hz }

/-- How far a frequency lies from the strap value: more than `n` thousandths of it (R81). (DEDUCED, log 78.) -/
def Chip.refBeyond (s : Chip) (n hz : Nat) : Bool :=
  decide (s.refNominal * n < 1000 * ((max hz s.refNominal) - (min hz s.refNominal)))

/-- The AO compares REFCLK from the first pass of the start-up check (R81). -/
def Chip.refWatched (s : Chip) : Bool :=
  s.power.phase == .booting || s.power.phase == .online || s.power.phase == .ready || s.power.phase == .reduced

/-- The MI of a lost REFCLK: both channels in self-refresh, requests answered with not running (Table 4.1). -/
def Chip.selfRefresh (s : Chip) : Chip :=
  if s.dram.mode = .twoChannels ∨ s.dram.mode = .oneChannel ∨ s.dram.mode = .retiring then (s.failRequests 4).loseStaging.modDram fun d => { d with mode := .selfRefresh } else s

/-- The TI, SQ and AQ of a lost REFCLK: faulted, with every masked lane parked; one that start-up has not brought to running holds
where it stands (R81, Table 4.1). -/
def Chip.stopTimed (s : Chip) : Chip :=
  let l := [5, 6, 7].filter fun i =>
    s.island i == .running || s.island i == .faulted || s.island i == .reseatPending || (s.island i == .loading && s.reseating i 0xFF)
  let s := (List.range 16).foldl (fun t q => t.faultSeq q) s
  l.foldl (fun t i => t.failIsland i .faulted) (s.modClk fun c => { c with stopped := l })

/-- `REFCLK_LOST` (R82). A frequency within 1.5 % is never a loss (R81). (DEDUCED, log 78.) -/
def refclkLost (hz : Nat) (s : Chip) : Chip :=
  if s.refWatched = false ∨ s.clk.refLost ∨ (hz ≠ 0 ∧ s.refBeyond 15 hz = false) then s
  else
    let kind := if hz = 0 then 1 else 2
    let s := s.modClk fun c => { c with refLost := true, lostAt := c.ticks, refStatus := BitVec.ofNat 8 kind, refHz := hz, spreadInForce := [] }
    let s := (s.record 0x1005 1 (le 1 kind)).raise 2000 0x5000 0x81 0x1005 1 kind
    let s := ((s.leaveBus .canA).leaveBus .canB).stopTimed.selfRefresh
    let s := (s.openRing .linkDown).modCluster fun c => { c with linkUp := false }
    let s := s.modPlls fun l => l.map fun p => if p.state = .off then p else { p with state := .locking }
    ((List.range 6).foldl (fun t k => if (t.clko k).formatIn = 0 then t else t.modClko k fun c => { c with status := .heldLow }) s).markHeld

/-- `REFCLK_LOST` (R82). -/
def execRefclkLost (measuredHz : Nat) (s : State) : Host.Outcome State Fault Refusal := next s (refclkLost measuredHz s.chip)

/-- The MI leaves self-refresh (Table 4.1). -/
def Chip.wakeDram (s : Chip) : Chip :=
  if s.dram.mode = .selfRefresh then
    s.modDram fun d => { d with mode := if d.retiring.isSome then .retiring else if d.inService = 3 then .twoChannels else .oneChannel }
  else s

/-- `REFCLK_RESTORED` (R82). A frequency more than 2.5 % off never passes (R81). (DEDUCED, log 78.) -/
def refclkRestored (hz : Nat) (s : Chip) : Chip :=
  if s.clk.refLost = false ∨ hz = 0 ∨ s.refBeyond 25 hz then s
  else
    let l := s.clk.stopped
    let us := (s.clk.ticks - s.clk.lostAt) / 400
    let s := s.modClk fun c => { c with refLost := false, refStatus := 0, refHz := hz, stopped := [] }
    let s := ((s.record 0x1006 1 (le 4 (min 0xFFFFFFFF us))).endCondition 2000).initCan.wakeDram
    let s := (List.range 6).foldl (fun t k => t.modClko k fun c => { c with inTransition := c.inTransition && c.fromOff }) s
    -- the TI's re-seat relocks the PLLs; where the TI was not stopped they relock here
    let ti : Bool := l.contains 6 && s.island 6 == .faulted
    let s := s.keepLaunches (l.foldl (fun t i => if t.island i = .faulted then (t.islandReset 3 i).islandLoad i else t) s)
    let s := if ti then s else [0, 1].foldl (fun t p => if (t.pll p).state = .off then t else t.relock p (t.vco p)) s
    let s := if (s.pll 1).state = .off then (s.outputsOf 1).foldl (fun t k => let o := t.clko k; t.transition k (t.vco 1) o.formatIn 1 o.dividerIn) s else s
    (if s.island 10 = .loading ∧ s.reseating 10 0xFF = false then s.runIsland 10 else s).loadWaiting [6, 5, 7, 8, 10]

/-- `REFCLK_RESTORED` (R82). -/
def execRefclkRestored (measuredHz : Nat) (s : State) : Host.Outcome State Fault Refusal := next s (refclkRestored measuredHz s.chip)

end Sys2Proof.Machine
end

