-- ==== Sys2Proof/Machine/ObjHost.lean ====
section
/-! DEFINITION. The objects of the host, always-on, conductor and clock groups: 0x1000 to 0x1A0F, 0x2000 to 0x2B00
(Tables 5.12, 5.13 and the object tables of chapters 1 to 4, 6, 18, 19 and 20): what each reads, and what a write
to each does. -/

namespace Sys2Proof.Machine

/-! ## Write rules -/

/-- What a write to an object does: the value and range check of step 5, the owner's act, and what follows the
answer (R31). -/
structure WriteRule where
  chk : Req → Chip → Nat
  act : Req → Chip → Chip × Reply
  after : Chip → Chip

/-- A write of a value that step 5 passes when `good`, and that then changes the device. -/
def setRule (good : Bool) (f : Chip → Chip) : WriteRule :=
  ⟨fun _ _ => if good then 0 else 2, fun _ s => (f s, ok), id⟩

/-- A command that step 5 passes when `good`. -/
def cmdRule (good : Bool) (act : Req → Chip → Chip × Reply) : WriteRule := ⟨fun _ _ => if good then 0 else 2, act, id⟩

/-- A write with a check of its own against the state. -/
def checkedRule (chk : Chip → Bool) (act : Req → Chip → Chip × Reply) : WriteRule :=
  ⟨fun _ s => if chk s then 0 else 2, act, id⟩

/-- A per-session selector with a range (R125). -/
def selRule (idx sub v : Nat) (good : Bool) : WriteRule :=
  ⟨fun _ _ => if good then 0 else 2, fun r s => (s.setSel r.dest.session idx sub v, ok), id⟩

/-- An object that no write reaches: the access check refuses it before. -/
def noRule : WriteRule := ⟨fun _ _ => 0, fun _ s => (s, bad 0x0010), id⟩

/-! ## TPDOs (R107, Table 5.12; the layout of CiA 1301) -/

/-- The size of an object its chapter marks mappable; none for the others. -/
def mappable (idx sub : Nat) : Option Nat :=
  if idx = 0x4000 ∧ sub = 0x0B then some 1
  else if idx = 0x4400 ∧ sub = 0x22 then some 2
  else if 0x3100 ≤ idx ∧ idx < 0x3110 then
    (if sub = 0x01 ∨ sub = 0x0B ∨ sub = 0x0C then some 1 else if sub = 0x0F then some 8 else if sub = 0x11 then some 4 else none)
  else if idx = 0x3500 ∧ sub = 0x0B then some 8
  else if idx = 0x3600 ∧ sub = 0x16 then some 4
  else if idx = 0x3700 then (if sub = 0x08 then some 1 else if sub = 0x0A then some 4 else none)
  else if idx = 0x3800 then
    (if sub = 0x0E ∨ sub = 0x17 ∨ sub = 0x18 then some 1 else if sub = 0x15 then some 2 else if sub = 0x16 then some 8 else none)
  else if idx = 0x4800 ∧ sub = 0x10 then some 4
  else if (idx = 0x4801 ∨ idx = 0x4802) ∧ sub = 0x0F then some 8
  else if idx = 0x4900 ∧ (sub = 0x08 ∨ sub = 0x09) then some 4
  else if idx = 0x3900 then (if sub = 0x0B ∨ sub = 0x13 then some 2 else if sub = 0x12 then some 1 else none)
  else if idx = 0x2700 ∧ 0x0A ≤ sub ∧ sub ≤ 0x0D then some 4
  else if idx = 0x4A00 then (if sub = 0x04 then some 1 else if sub = 0x0A then some 4 else if sub = 0x12 then some 2 else none)
  else if idx = 0x2300 then
    (if 2 ≤ sub ∧ sub ≤ 7 then some 2 else if sub = 8 then some 14 else if sub = 9 then some 24 else none)
  else if idx = 0x2B00 ∧ sub = 1 then some 1
  else if idx = 0x2900 ∧ sub = 9 then some 24
  else if idx = 0x4B00 then (if sub = 1 then some 1 else if sub = 8 then some 8 else none)
  else none

/-- The bytes of a communication or mapping object that nothing has set: disabled, event-driven, empty. -/
def tpdoDefault (comm : Bool) (sub : Nat) : Bytes :=
  if comm then
    match sub with
    | 0 => [6]
    | 1 => le 4 0x80000000
    | 2 => [0xFE]
    | 3 => [0, 0]
    | 5 => [0, 0]
    | _ => [0]
  else if sub = 0 then [0] else le 4 0

/-- A communication object of TPDO `n`. -/
def HostServices.pdoComm (h : HostServices) (n sub : Nat) : Bytes := h.tpdoComm.get (tpdoDefault true sub) (256 * n + sub)

/-- A mapping object of TPDO `n`. -/
def HostServices.pdoMap (h : HostServices) (n sub : Nat) : Bytes := h.tpdoMap.get (tpdoDefault false sub) (256 * n + sub)

/-- TPDO `n` exists: bit 31 of its COB-ID is clear. -/
def HostServices.pdoValid (h : HostServices) (n : Nat) : Bool := decide (fieldAt (h.pdoComm n 1) 0 4 < 0x80000000)

/-- The objects TPDO `n` maps: index and sub-index, in order. (PRESUMED, log 32.) -/
def HostServices.pdoObjects (h : HostServices) (n : Nat) : List (Nat × Nat) :=
  (List.range (byteAt (h.pdoMap n 0) 0)).map fun i =>
    let e := fieldAt (h.pdoMap n (i + 1)) 0 4
    (e / 0x10000, e / 0x100 % 0x100)

/-- A mapping entry names a mappable object with its length in bits. -/
def mapEntryOk (e : Nat) : Bool := mappable (e / 0x10000) (e / 0x100 % 0x100) == some (e % 0x100 / 8) && decide (e % 8 = 0)

/-- The first `k` entries of a mapping are mappable and fill at most 64 bytes. -/
def HostServices.mappingOk (h : HostServices) (n k : Nat) : Bool :=
  let es := (List.range k).map fun i => fieldAt (h.pdoMap n (i + 1)) 0 4
  decide (k ≤ 64) && es.all mapEntryOk && decide ((es.map fun e => e % 0x100 / 8).sum ≤ 64)

/-- A write to a TPDO communication object. (PRESUMED, log 32.) -/
def writeComm (n sub : Nat) (b : Bytes) : WriteRule :=
  let v := leNat b
  let good : Bool := match sub with
    | 1 => v / 0x800 % 0x100000 == 0
    | 2 => decide (v ≤ 240) || v == 254 || v == 255
    | _ => true
  cmdRule good fun _ s =>
    if s.host.pdoValid n ∧ ((sub = 1 ∧ v < 0x80000000 ∧ v ≠ fieldAt (s.host.pdoComm n 1) 0 4) ∨ sub = 3) then (s, bad 5)
    else (s.modHost fun h => { h with tpdoComm := h.tpdoComm.set (tpdoDefault true sub) (256 * n + sub) b, tpdoCount := h.tpdoCount.erase n }, ok)

/-- A write to a TPDO mapping object: of a TPDO that does not exist, entries while none is in use. (PRESUMED, log 32.) -/
def writeMap (n sub : Nat) (b : Bytes) : WriteRule :=
  let v := leNat b
  let good (s : Chip) : Bool := if sub = 0 then s.host.mappingOk n v else v == 0 || mapEntryOk v
  checkedRule good fun _ s =>
    if s.host.pdoValid n ∨ (sub ≠ 0 ∧ s.host.pdoMap n 0 ≠ [0]) then (s, bad 5)
    else (s.modHost fun h => { h with tpdoMap := h.tpdoMap.set (tpdoDefault false sub) (256 * n + sub) b }, ok)

/-! ## 0x1000 to 0x1FFF (Table 5.12) -/

/-- The value of a communication object. -/
def Chip.readComm (s : Chip) (idx sub : Nat) : Bytes :=
  let h := s.host
  match idx with
  | 0x1000 => le 4 0
  | 0x1001 => [h.errorReg]
  | 0x1003 => if sub = 0 then le 1 h.errors.length else le 4 (h.errors.getD (sub - 1) 0).toNat
  | 0x1005 => le 4 h.cobSync.toNat
  | 0x1006 => le 4 h.cyclePeriod.toNat
  | 0x1010 => le 4 1
  | 0x1011 => le 4 1
  | 0x1012 => le 4 h.cobTime.toNat
  | 0x1014 => le 4 (0x80 + s.nodeId)
  | 0x1015 => le 2 h.inhibit.toNat
  | 0x1016 => le 4 (SMap.get h.consumers {} (sub - 1)).entry.toNat
  | 0x1017 => le 2 h.heartbeat.toNat
  | 0x1018 =>
    match sub with
    | 0 => [4]
    | 1 => le 4 (s.fuseUsed 0x008).toNat
    | 2 => le 4 0x00064100
    | 3 => le 4 (Config.stepping.toNat + 256 * (if s.boot.running.toNat ≤ 2 then imgBuild (s.areaImage s.boot.running.toNat) else 0))
    | _ => le 4 (s.fuseUsed 0x009).toNat
  | _ =>
    if 0x1800 ≤ idx ∧ idx ≤ 0x180F then h.pdoComm (idx - 0x1800) sub
    else if 0x1A00 ≤ idx ∧ idx ≤ 0x1A0F then h.pdoMap (idx - 0x1A00) sub
    else []

/-- "save" (R123). -/
def saveWord : Nat := 0x65766173

/-- "load" (R123). -/
def loadWord : Nat := 0x64616F6C

/-- A restore of the defaults of a range is marked for the next chip reset (R123). -/
def markRestore (g : StoreRange) (_ : Req) (s : Chip) : Chip × Reply :=
  if s.boot.storing.isSome then (s, .busy 250)
  else (s.modBoot fun b => { b with restoreComm := b.restoreComm || inRange g 0x1000, restoreDev := b.restoreDev || inRange g 0x2000 }, ok)

/-- A write to a consumed-heartbeat entry restarts its supervision. (DEDUCED, log 79.) -/
def setConsumer (k : Nat) (v : Word32) (s : Chip) : Chip :=
  (s.modHost fun h => { h with consumers := h.consumers.set {} k { entry := v } }).endCondition (6000 + k)

/-- Writes of the communication objects, but for the stores of 0x1010. (DEDUCED, log 79.) -/
def commRule (idx sub : Nat) (b : Bytes) : WriteRule :=
  let v := leNat b
  match idx with
  | 0x1003 => setRule (decide (v = 0)) fun s => s.modHost fun h => { h with errors := [] }
  | 0x1005 => setRule (!v.testBit 30) fun s => s.modHost fun h => { h with cobSync := BitVec.ofNat 32 v }
  | 0x1006 => setRule true fun s => s.modHost fun h => { h with cyclePeriod := BitVec.ofNat 32 v }
  | 0x1011 => cmdRule (decide (v = loadWord)) (markRestore (rangeOf sub))
  | 0x1012 => setRule (!v.testBit 30) fun s => s.modHost fun h => { h with cobTime := BitVec.ofNat 32 v }
  | 0x1015 => setRule true fun s => s.modHost fun h => { h with inhibit := BitVec.ofNat 16 v }
  | 0x1016 => setRule (decide (v < 0x1000000)) (setConsumer (sub - 1) (BitVec.ofNat 32 v))
  | 0x1017 => setRule true fun s => s.modHost fun h => { h with heartbeat := BitVec.ofNat 16 v }
  | _ =>
    if 0x1800 ≤ idx ∧ idx ≤ 0x180F then writeComm (idx - 0x1800) sub b
    else if 0x1A00 ≤ idx ∧ idx ≤ 0x1A0F then writeMap (idx - 0x1A00) sub b
    else noRule

/-! ## Identity, straps, power, re-seat (0x2000, 0x2001, 0x2003, 0x2020) -/

/-- The value of an object of 0x2000 to 0x2020. -/
def Chip.readDevice (s : Chip) (idx sub : Nat) : Bytes :=
  let p := s.power
  match idx, sub with
  | 0x2000, 0 => [0x1A]
  | 0x2000, 1 => le 4 0x00064100
  | 0x2000, 2 => [Config.stepping]
  | 0x2000, 3 => le 2 0x07FF
  | 0x2000, 4 => le 2 (s.islandMask (· == .running))
  | 0x2000, 5 => le 2 (s.islandMask fun x => x == .faulted || x == .dead)
  | 0x2000, _ => le 1 (s.island (sub - 0x10)).code
  | 0x2001, 0 => [0x04]
  | 0x2001, 1 => le 2 p.straps.toNat
  | 0x2001, 2 => le 1 (if s.host.canA.status = .heldOff ∧ s.host.canB.status = .heldOff then 0 else s.nodeId)
  | 0x2001, 3 => le 4 s.refNominal
  | 0x2001, _ => [p.railsPresent]
  | 0x2003, 0 => [0x0C]
  | 0x2003, 1 => le 4 p.causes.toNat
  | 0x2003, 2 => le 1 (lowestBit p.causes.toNat)
  | 0x2003, 3 => le 4 p.chipResets
  | 0x2003, 4 => le 4 p.aoPowerOns
  | 0x2003, 5 => [p.railsGood]
  | 0x2003, 6 => le 2 p.vbatMv
  | 0x2003, 7 => [if p.onVbat then 1 else 0]
  | 0x2003, 8 => le 4 0
  | 0x2003, 9 => [0]
  | 0x2003, 0x0A => [p.wakeSources]
  | 0x2003, 0x0B => le 4 p.onlineUs
  | 0x2003, _ => le 4 p.readyUs
  | _, 0 => [0x07]
  | _, 1 => [0, 0]
  | _, 2 => [match s.reseat.status with | .none => 0 | .draining => 1 | .resetting => 2 | .loading => 3 | .completed => 4 | .failed => 5]
  | _, 3 => s.reseat.last
  | _, 4 => le 4 s.reseat.count
  | _, 5 => le 2 s.reseat.drainMs
  | _, 6 => [0xFF]
  | _, _ => le 2 s.reseat.replacement

/-- Writes of 0x2003 and 0x2020. -/
def deviceRule (idx sub : Nat) (b : Bytes) : WriteRule :=
  let v := leNat b
  match idx, sub with
  | 0x2003, 8 => { cmdRule (decide (v = 0xA5)) (fun _ s => (s, ok)) with after := chipReset 0x100 }
  | 0x2003, 9 => { cmdRule (decide (v = 1)) sleepAnswer with after := sleepChip }
  | 0x2003, 0x0A => setRule (decide (v < 4)) fun s => s.modPower fun p => { p with wakeSources := BitVec.ofNat 8 v }
  | 0x2020, 1 =>
    { chk := fun _ _ => if (reseatLimit (byteAt b 0) (byteAt b 1)).isSome then 0 else 2
      act := reseatAnswer (byteAt b 0) (byteAt b 1), after := fun s => s.beginReseat (byteAt b 0) (byteAt b 1) true }
  | 0x2020, 5 => setRule (decide (1 ≤ v) && decide (v ≤ 5000)) fun s => s.modReseat fun r => { r with drainMs := v }
  | 0x2020, 6 => checkedRule (fun s => (s.part v).present) (replacePartition v)
  | _, _ => noRule

/-! ## Sessions and bus settings (0x2100, 0x2200, 0x2201) -/

/-- The status of a CAN controller (Table 5.13). -/
def CanStatus.code : CanStatus → Nat
  | .heldOff => 0 | .errorActive => 1 | .errorPassive => 2 | .busOff => 3

/-- The bus SYNC and TIME are taken from (R108): CAN_A while it is on the bus and delivered a SYNC within three
cycle periods, or whenever it is on the bus with a period of zero; else CAN_B. -/
def Chip.syncBusNow (s : Chip) : Option Bus :=
  let a := s.onBus .canA && (s.host.cyclePeriod == 0 || (match s.host.lastSyncA with
    | some t => decide (s.clk.ticks ≤ t + 1200 * s.host.cyclePeriod.toNat)
    | none => false))
  if a then some .canA else if s.onBus .canB then some .canB else none

/-- The value of an object of 0x2100 to 0x2201, as session `n` reads it. -/
def Chip.readHostObj (s : Chip) (n idx sub : Nat) : Bytes :=
  let h := s.host
  let x := h.sessions.find? n
  let get (d : Nat) (f : Session → Nat) : Nat := match x with | some x => f x | none => d
  match idx, sub with
  | 0x2100, 0 => [0x0A]
  | 0x2100, 1 => le 2 (get 0 fun x => (x.staged.getD 0).toNat)
  | 0x2100, 2 => le 1 (get 0 fun x => if x.staged.isSome then 1 else 0)
  | 0x2100, 3 => [64]
  | 0x2100, 4 => le 1 (get 0 fun x => x.ledger.length)
  | 0x2100, 5 => le 2 (get 0 fun x => x.lastTag.toNat)
  | 0x2100, 6 => le 2 (get 0 fun x => x.lastResult.toNat)
  | 0x2100, 7 => le 2 (get 0 fun x => x.retryDelay)
  | 0x2100, 8 => le 4 h.replays
  | 0x2100, 9 => le 4 h.conflicts
  | 0x2100, _ => (match x with | some x => ((x.ledger.take 64).map LedgerEntry.bytes).flatten | none => [])
  | 0x2200, 0 => [0x14]
  | 0x2200, 1 => le 1 h.sessions.length
  | 0x2200, 3 => le 2 h.idleTimeout
  | 0x2200, 0x11 => le 1 n
  | 0x2200, 0x13 => le 1 (get 0 fun x => x.level.code)
  | 0x2200, 0x14 => (h.sessions.map fun e => s.sessionEntry e.1 e.2).flatten
  | 0x2201, 0 => [0x0B]
  | 0x2201, 5 => [h.spi.lanesObj]
  | 0x2201, 6 => le 2 h.usdoTimeout
  | 0x2201, 7 => [match s.syncBusNow with | some .canA => 0 | some .canB => 1 | none => 0xFF]
  | 0x2201, 8 => le 1 h.canA.status.code
  | 0x2201, 9 => le 1 h.canB.status.code
  | 0x2201, 0x0A => le 4 h.spi.rejects
  | 0x2201, 0x0B => le 4 h.spi.discards
  | 0x2201, _ => [s.bitCode sub]
  | _, _ => []

/-- A write to 0x2201:05: the width follows the fetch of its response; over CAN, whose answer no fetch delivers, its
answer (R116). (DEDUCED, log 80.) -/
def setLanes (v : Byte) (r : Req) (s : Chip) : Chip × Reply :=
  (s.modSpi fun p =>
    { p with
      lanesObj := v
      newQuad := (match r.dest.path with | .can _ _ => some (v == 1) | .spi _ => p.newQuad)
      quadEntry := (match r.dest.path with | .can _ _ => p.quadEntry | .spi _ => p.quadEntry ++ [(r.dest.entry, v == 1)]) }, ok)

/-- Bit-rate codes of Table 5.1: nominal 0x00 to 0x03, data 0x00 to 0x04. -/
def bitCodeOk (sub v : Nat) : Bool := if sub % 2 = 1 then decide (v ≤ 3) else decide (v ≤ 4)

/-- Writes of 0x2100 to 0x2201. -/
def hostRule (idx sub : Nat) (b : Bytes) : WriteRule :=
  let v := leNat b
  match idx, sub with
  | 0x2100, 1 => cmdRule true fun r s => (s.modSession r.dest.session fun x => { x with staged := some (BitVec.ofNat 16 v) }, ok)
  | 0x2200, 2 => cmdRule true fun r s =>
      (s.modHost fun h => { h with nonces := h.nonces.filter fun x => x.path != clientPath r.dest.path }, ok)
  | 0x2200, 3 => setRule (decide (10 ≤ v) && decide (v ≤ 3600)) fun s => s.modHost fun h => { h with idleTimeout := v }
  | 0x2200, 0x12 =>
    { chk := fun _ _ => 0, act := fun r s => if r.dest.session = v then (s, ok) else (s, bad 0x000C), after := fun s => s.endSession v }
  | 0x2201, 5 => cmdRule (decide (v ≤ 1)) (setLanes (BitVec.ofNat 8 v))
  | 0x2201, 6 => setRule (decide (10 ≤ v) && decide (v ≤ 10000)) fun s => s.modHost fun h => { h with usdoTimeout := v }
  | 0x2201, _ => setRule (bitCodeOk sub v) fun s => s.modHost fun h =>
      { h with bitCodes := h.bitCodes.set (if sub % 2 = 1 then 0x02 else 0x01) sub (BitVec.ofNat 8 v) }
  | _, _ => noRule

/-! ## Telemetry, life cycle, boot (0x2300, 0x2400, 0x2500) -/

/-- The value of an object of 0x2300 to 0x2500. -/
def Chip.readBoot (s : Chip) (idx sub : Nat) : Bytes :=
  let g := s.background
  let l := s.life
  let b := s.boot
  match idx, sub with
  | 0x2300, 0 => [0x0A]
  | 0x2300, 1 => le 2 s.host.telemetryPeriod
  | 0x2300, 7 => le 2 (unsigned 16 (highest g.temps))
  | 0x2300, 8 => ((List.range 7).map fun i => le 2 (g.rails.getD i 0).toNat).flatten
  | 0x2300, 9 => ((List.range 6).map fun i => le 4 (g.rates.getD i 0).toNat).flatten
  | 0x2300, 0x0A => pad 19 g.peaks
  | 0x2300, _ => le 2 (unsigned 16 (g.temps.getD (sub - 2) 0))
  | 0x2400, 0 => [0x0D]
  | 0x2400, 1 => le 1 l.state.code
  | 0x2400, 2 => [l.copies]
  | 0x2400, 3 => [l.pending.getD 0xFF]
  | 0x2400, 6 => le 2 l.fault.toNat
  | 0x2400, 7 => le 4 l.lastSkim
  | 0x2400, 8 => le 2 l.marginals
  | 0x2400, 0x0A => ((List.range 256).map fun w => le 4 (s.fuse w).toNat).flatten
  | 0x2400, 0x0B => le 4 (s.fuse 3).toNat
  | 0x2400, 0x0C => le 6 l.trimDefaults.toNat
  | 0x2400, 0x0D => [match l.debug with | .inactive => 0 | .awaiting => 1 | .authorised => 2 | .opened => 3]
  | 0x2500, 0 => [0x0C]
  | 0x2500, 1 => [b.running]
  | 0x2500, 2 => [b.preferred]
  | 0x2500, 3 => le 2 b.statusA.toNat
  | 0x2500, 4 => le 2 b.statusB.toNat
  | 0x2500, 5 => le 2 b.statusR.toNat
  | 0x2500, 6 => [b.version]
  | 0x2500, 7 => le 1 s.minVersion
  | 0x2500, 9 => le 4 b.bootUs
  | 0x2500, 0x0A => le 1 (((List.range 8).map fun p => if (s.part p).running then 2 ^ p else 0).sum)
  | 0x2500, _ => [0]
  | _, _ => []

/-- Writes of 0x2300 to 0x2500, but for the transition request. -/
def bootRule (idx sub : Nat) (b : Bytes) : WriteRule :=
  let v := leNat b
  match idx, sub with
  | 0x2300, 1 => setRule (decide (10 ≤ v) && decide (v ≤ 10000)) fun s => s.modHost fun h => { h with telemetryPeriod := v }
  | 0x2400, 9 => cmdRule true (fuseProgram (BitVec.ofNat 16 (fieldAt b 0 2)) (BitVec.ofNat 32 (fieldAt b 2 4)))
  | 0x2500, 2 => setRule (decide (v ≤ 1)) fun s => s.modBoot fun x => { x with preferred := BitVec.ofNat 8 v }
  | 0x2500, 8 => cmdRule true (raiseMinimum (BitVec.ofNat 8 v))
  | 0x2500, 0x0B => cmdRule (decide (v ≤ 2)) (if v = 2 then installRecovery else fun _ s => installImage v s)
  | 0x2500, 0x0C => cmdRule true (revokeSlot (BitVec.ofNat 8 v))
  | _, _ => noRule

/-! ## Clocks and time (0x2600 to 0x2680) -/

/-- The code of a PLL state (Table 4.7). -/
def PllState.code : PllState → Nat
  | .off => 0 | .locking => 1 | .locked => 2 | .faulted => 3

/-- The code of a clock-output status (Table 4.7). -/
def ClkoStatus.code : ClkoStatus → Nat
  | .off => 0 | .bypass => 1 | .running => 2 | .heldLow => 3

/-- The integer N of PLL_0: 4 GHz over REFCLK (R86). -/
def Chip.pll0N (s : Chip) : Nat := if s.refNominal = 0 then 0 else 4000000000 / s.refNominal

/-- The value of an object of 0x2600 to 0x2625; a fraction of a kHz of a VCO's frequency is dropped. (DESIGN CHOICE, log 146.) -/
def Chip.readClock (s : Chip) (idx sub : Nat) : Bytes :=
  let c := s.clk
  if idx = 0x2600 then
    match sub with
    | 0 => [0x07]
    | 1 => [c.refStatus]
    | 2 => le 4 c.refHz
    | 3 => [if c.refLost then 1 else 0]
    | _ => [c.spread.get 0 (sub - 4)]
  else if idx = 0x2610 ∨ idx = 0x2611 then
    let p := idx - 0x2610
    let l := s.pll p
    match sub with
    | 0 => [0x07]
    | 1 => le 1 l.state.code
    | 2 => le 1 (if p = 0 then s.pll0N else l.n)
    | 3 => le 4 (if p = 0 then 0 else l.f)
    | 4 => [0]
    | 5 => le 4 (s.vco p / 2 ^ 24 / 1000)
    | 6 => le 4 l.relocks
    | _ => le 4 l.lastUs
  else
    let o := s.clko (idx - 0x2620)
    match sub with
    | 0 => [0x09]
    | 1 => le 1 o.format
    | 2 => le 1 o.source
    | 3 => le 2 o.divider
    | 4 => [0, 0]
    | 5 => le 2 (unsigned 16 o.pendingSteps)
    | 6 => le 1 o.status.code
    | 7 => le 4 (unsigned 32 o.cumulative)
    | 8 => le 4 o.hz
    | _ => [0]

/-- Pending actions: launches accepted and not yet taken effect (0x2680:06). (DESIGN CHOICE, log 119.) -/
def Chip.earliestLaunch (s : Chip) : Nat :=
  match s.pendingLaunches.map (·.ns) with
  | [] => 0
  | x :: xs => xs.foldl min x

/-- The value of an object of 0x2680, but for the latching read of sub-index 01. -/
def Chip.readTime (s : Chip) (n sub : Nat) : Bytes :=
  let c := s.clk
  match sub with
  | 0 => [0x0B]
  | 1 => le 8 s.actionNs
  | 2 => le 1 (match s.host.sessions.find? n with | some x => x.nowFraction | none => 0)
  | 3 => le 1 s.quality
  | 4 => [c.timeSource]
  | 5 => le 2 c.generation
  | 6 => le 1 s.pendingLaunches.length
  | 7 => le 8 s.earliestLaunch
  | 8 => le 4 c.late
  | 9 => le 4 c.asap
  | 0x0A => le 6 c.lastTime.toNat
  | _ => le 8 c.timeAt

/-- Writes of 0x2600 to 0x2680. (DEDUCED, log 25.) -/
def clockRule (idx sub : Nat) (b : Bytes) : WriteRule :=
  let v := leNat b
  if idx = 0x2600 then
    setRule (decide (v ≤ 3)) fun s => s.modClk fun c => { c with spread := c.spread.set 0 (sub - 4) (BitVec.ofNat 8 v) }
  else if idx = 0x2611 then
    match sub with
    | 2 => setRule (decide (16 ≤ v)) fun s => s.modPll 1 fun l => { l with n := v }
    | 3 => setRule (decide (v < 2 ^ 24)) fun s => s.modPll 1 fun l => { l with f := v }
    | _ =>
      { chk := fun _ s => if v = 1 then (if s.vcoOk (s.pll 1).n (s.pll 1).f then 0 else 2) else if v = 2 then 0 else 2
        act := if v = 1 then pll1Apply else pll1Off, after := id }
  else if 0x2620 ≤ idx ∧ idx ≤ 0x2625 then
    let k := idx - 0x2620
    match sub with
    | 1 => setRule (decide (v ≤ 4)) fun s => s.modClko k fun c => { c with format := v }
    | 2 => setRule (decide (v ≤ 1)) fun s => s.modClko k fun c => { c with source := v }
    | 3 => setRule (decide (4 ≤ v)) fun s => s.modClko k fun c => { c with divider := v }
    | 4 =>
      checkedRule (fun s => let n := (s.clko k).pendingSteps + signed 16 v; decide (-32768 ≤ n) && decide (n ≤ 32767))
        fun _ s => (s.modClko k fun c => { c with pendingSteps := c.pendingSteps + signed 16 v }, ok)
    | _ =>
      checkedRule (fun s => v == 1 && s.outputOk (s.clko k).format (s.clko k).source (s.clko k).divider)
        fun _ s => (s.applyOutput k (s.clko k).format (s.clko k).source (s.clko k).divider, ok)
  else noRule

/-! ## Router (0x2700) -/

/-- The value of a router object, as session `n` reads it. -/
def Chip.readRouter (s : Chip) (n sub : Nat) : Bytes :=
  let x := s.router
  match sub with
  | 0 => [0x0F]
  | 1 => le 1 (s.sel n 0x2700 1)
  | 2 => [s.route (s.sel n 0x2700 1)]
  | 3 => (List.range 96).map s.route
  | 4 => [if s.consumer (s.sel n 0x2700 1) then 1 else 0]
  | 5 => le 16 ((List.range 128).map fun p => if s.producer p then 2 ^ p else 0).sum
  | 6 => [if x.software.getLsbD 0 then 1 else 0]
  | 7 => [if x.software.getLsbD 1 then 1 else 0]
  | 8 => [x.taps.getD 0 0]
  | 9 => [x.taps.getD 1 0]
  | 0x0E => le 4 x.suppressed
  | 0x0F => le 4 x.changes
  | _ => le 4 (x.counters.get 0 (sub - 0x0A))

/-- Writes of the router's objects. -/
def routerRule (sub : Nat) (b : Bytes) : WriteRule :=
  let v := leNat b
  match sub with
  | 1 => selRule 0x2700 1 v (decide (v ≤ 0x5F))
  | 2 => cmdRule true (writeRoute (b.getD 0 0))
  | 3 => cmdRule true (writeRoutes b)
  | 6 => cmdRule (decide (v ≤ 2)) fun _ s => (if v = 2 then s.pulseEvent 0 else s.setEvent 0 (v == 1), ok)
  | 7 => cmdRule (decide (v ≤ 2)) fun _ s => (if v = 2 then s.pulseEvent 1 else s.setEvent 1 (v == 1), ok)
  | 8 => cmdRule (decide (v < 64)) (writeTap 0 (b.getD 0 0))
  | 9 => cmdRule (decide (v < 64)) (writeTap 1 (b.getD 0 0))
  | _ => setRule (decide (v = 0)) fun s => s.modRouter fun r => { r with counters := r.counters.set 0 (sub - 0x0A) 0 }

/-! ## Watchdog, recorder, trace and activities (0x2800 to 0x2B00) -/

/-- The code of a slot state (0x2800:01). -/
def SlotState.code : SlotState → Nat
  | .inactive => 0 | .grace => 1 | .active => 2 | .suspended => 3

/-- The code of an activity state (0x2B00:10). -/
def ActState.code : ActState → Nat
  | .idle => 0 | .running => 1 | .behind => 2 | .suspended => 3

/-- The value of a watchdog object. -/
def Chip.readWatchdog (s : Chip) (sub : Nat) : Bytes :=
  let w := s.watchdog
  match sub with
  | 0 => [0x0C]
  | 1 => le 4 ((List.range 16).map fun i => (SMap.get w.slots {} i).state.code * 4 ^ i).sum
  | 2 => le 2 w.periodStaged
  | 3 => [w.closedStaged]
  | 4 => le 4 w.number
  | 5 => le 2 w.escalation
  | 6 => le 2 w.failedLast.toNat
  | 7 => le 4 w.restarts
  | 8 => le 4 w.islandEsc
  | 9 => le 4 w.chipEsc
  | 0x0A =>
    le 1 ((List.range 8).map fun p => if (match w.strikes.find? p with | some t => s.strikeHolds t | none => false) then 2 ^ p else 0).sum ++
      le 1 (min 255 (w.islandStrikes.filter s.strikeHolds).length)
  | 0x0B => w.lastEsc
  | _ => (List.range 16).map fun i => BitVec.ofNat 8 ((s.slotOwner i).getD 0xFF)

/-- The value of a recorder object, as session `n` reads it, but for the read-out. -/
def Chip.readRecorderObj (s : Chip) (a : RecArray) (n sub : Nat) : Bytes :=
  match sub with
  | 0 => [0x0A]
  | 1 => le 4 a.next
  | 2 => le 4 (s.sel n 0x2900 2)
  | 4 => le 4 (protectedBase - a.next)
  | 5 => le 1 (arraySlots - max protectedBase a.next)
  | 6 => le 4 a.notWritten
  | 7 => le 4 a.voids.length
  | 8 => le 4 s.recorder.lost
  | 9 => ((List.range 6).map fun i => le 4 (s.recorder.counters.get 0 (i + 1))).flatten
  | _ => le 4 s.recorder.lastReset

/-- The value of a trace object, as session `n` reads it, but for the read-out. -/
def Chip.readTraceObj (s : Chip) (n sub : Nat) : Bytes :=
  let p := s.sel n 0x2A00 1
  match sub with
  | 0 => [0x08]
  | 1 => le 1 p
  | 2 => le 4 (s.shareBase p)
  | 3 => le 4 (s.shareSize p)
  | 4 => le 8 (s.part p).written
  | 5 => le 8 (s.sel n 0x2A00 5)
  | 7 => [s.ci.traceEnable]
  | _ => le 4 (s.part p).dropped

/-- The value of a background-activity object. -/
def Chip.readActivities (s : Chip) (sub : Nat) : Bytes :=
  let act (i : Nat) : Activity := SMap.get s.background.activities {} i
  match sub with
  | 0 => [0x17]
  | 1 => le 1 ((List.range 8).map fun i => if (act i).state = .behind then 2 ^ i else 0).sum
  | 2 => le 2 s.boot.freeBlocks
  | 3 => le 4 s.boot.highestErase
  | _ =>
    let x := act (sub - 0x10)
    le 1 (s.activityState (sub - 0x10)).code ++ [0] ++ le 2 (s.activityProgress (sub - 0x10)) ++ le 4 x.lastMs ++ le 4 x.completions

/-- Writes of 0x2800 to 0x2A00; `used` is the number of slots used (R473). -/
def serviceRule (used idx sub : Nat) (b : Bytes) : WriteRule :=
  let v := leNat b
  match idx, sub with
  | 0x2800, 2 => setRule (decide (1 ≤ v) && decide (v ≤ 10000)) fun s => s.modWatchdog fun w => { w with periodStaged := v }
  | 0x2800, 3 => setRule (decide (v ≤ 3)) fun s => s.modWatchdog fun w => { w with closedStaged := BitVec.ofNat 8 v }
  | 0x2800, 5 => setRule (decide (1 ≤ v) && decide (v ≤ 3600)) fun s => s.modWatchdog fun w => { w with escalation := v }
  | 0x2900, 2 => selRule 0x2900 2 v (decide (v ≤ used))
  | 0x2A00, 1 => selRule 0x2A00 1 v (decide (v ≤ 7))
  | 0x2A00, 5 => selRule 0x2A00 5 v true
  | 0x2A00, 7 => setRule (decide (v < 16)) fun s => s.modCi fun c => { c with traceEnable := BitVec.ofNat 8 v }
  | _, _ => noRule

end Sys2Proof.Machine
end

