-- ==== Sys2Proof/Machine/ObjSeq.lean ====
section
/-! DEFINITION. The objects of the lanes, sequencers, segments, timing sets, generators, sample ports, sealed
fields, acquisition and levels: 0x3000 to 0x3900 (the object tables of chapters 2, 9 to 13 and 15), but for the
program window's data. -/

namespace Sys2Proof.Machine

/-- A write that is locked by arm while `locked` holds (R53, R235, R241, R273, R312, R336, R339, R358). -/
def lockRule (good : Bool) (locked : Req → Chip → Bool) (f : Req → Chip → Chip) : WriteRule :=
  cmdRule good fun r s => if locked r s then (s, bad 3) else (f r s, ok)

/-- Sequencer `q` is in a state other than idle. -/
def Chip.seqLocked (s : Chip) (q : Nat) : Bool := decide (q < 16) && (s.sq q).state != .idle

/-! ## Lanes (0x3000 + n) -/

/-- The value of a lane object. -/
def Chip.readLane (s : Chip) (n sub : Nat) : Bytes :=
  let l := s.lane n
  match sub with
  | 0 => [0x13]
  | 1 => [l.mode]
  | 2 => [l.slew]
  | 3 => [l.hysteresis]
  | 4 => [l.filter]
  | 5 => [l.pull]
  | 6 => le 1 ((if l.input && !l.sealedIn then 1 else 0) + (if l.driverOn && s.power.lanesLive then 2 else 0) + (if l.atDust then 4 else 0))
  | 7 => [l.owner]
  | 8 => [l.site]
  | 9 => [l.dust]
  | 0x10 => [l.mask]
  | 0x11 => le 4 l.fails
  | 0x12 => le 4 l.firstFail
  | _ => le 4 l.compares

/-- The drive of a lane outside a run: an owned one at its dust-sheet level, another with its driver off
(R52, R234); a port lane keeps its role (R54). (DEDUCED, log 80.) -/
def Lane.settled (l : Lane) : Lane :=
  if l.mode = 3 then l
  else if l.owner.toNat < 16 then l.cover
  else { l with atDust := false, driverOn := false, driven := false, edges := [] }

/-- A lane's pad is locked: its sequencer, or the one its port is attached to, is not idle (R53, R292). (DEDUCED, log 80.) -/
def Chip.padLocked (s : Chip) (n sub : Nat) : Bool :=
  s.seqLocked (s.lane n).owner.toNat || (sub != 1 && s.portLocked (n / 4))

/-- Change a lane that is outside a run. (DEDUCED, log 80.) -/
def setLane (n : Nat) (f : Lane → Lane) (s : Chip) : Chip := s.modLane n fun l => (f l).settled

/-- Writes of a lane's objects. -/
def laneRule (n sub : Nat) (b : Bytes) : WriteRule :=
  let v := leNat b
  let x := BitVec.ofNat 8 v
  let pad (good : Bool) (f : Lane → Lane) : WriteRule := lockRule good (fun _ s => s.padLocked n sub) fun _ s => setLane n f s
  match sub with
  | 1 =>
    { chk := fun _ s => if v ≤ 2 ∧ (s.lane n).mode ≠ 3 ∧ (v ≠ 2 ∨ (s.lane n).dust = 2) then 0 else 2
      act := fun _ s => if s.padLocked n 1 then (s, bad 3) else (setLane n (fun l => { l with mode := x }) s, ok)
      after := id }
  | 2 => pad (decide (v ≤ 3)) fun l => { l with slew := x, characterised := l.characterised && l.slew == x }
  | 3 => pad (decide (v ≤ 1)) fun l => { l with hysteresis := x }
  | 4 => pad (decide (v ≤ 3)) fun l => { l with filter := x, characterised := l.characterised && l.filter == x }
  | 5 => pad (decide (v ≤ 2)) fun l => { l with pull := x }
  | 7 => lockRule (decide (v ≤ 15) || v == 0xFF) (fun _ s => s.seqLocked (s.lane n).owner.toNat || s.seqLocked v)
      fun _ s => setLane n (fun l => { l with owner := x }) s
  | 8 => lockRule (decide (v ≤ 15) || v == 0xFF) (fun _ s => s.seqLocked (s.lane n).owner.toNat)
      fun _ s => setLane n (fun l => { l with site := x }) s
  | 9 =>
    { chk := fun _ s => if v ≤ 2 ∧ (v = 2 ∨ (s.lane n).mode ≠ 2) then 0 else 2
      act := fun _ s => if s.seqLocked (s.lane n).owner.toNat then (s, bad 3) else (setLane n (fun l => { l with dust := x }) s, ok)
      after := id }
  | 0x10 => lockRule (decide (v ≤ 1)) (fun _ s => s.seqLocked (s.lane n).owner.toNat) fun _ s => s.modLane n fun l => { l with mask := x }
  | _ => noRule

/-! ## Sequencers (0x3100 + s) -/

/-- The code of a sequencer state (Table 9.5). -/
def SeqState.code : SeqState → Nat
  | .idle => 0 | .arming => 1 | .armed => 2 | .launchPending => 3 | .running => 4 | .waiting => 5 | .parked => 6 | .faulted => 7

/-- The bytes of a stamp (Table 4.6). -/
def Stamp.bytes (x : Stamp) : Bytes := le 8 x.ns ++ le 1 x.frac ++ [x.flags]

/-- The value of a sequencer object. -/
def Chip.readSeq (s : Chip) (q sub : Nat) : Bytes :=
  let x := s.sq q
  match sub with
  | 0 => [0x11]
  | 1 => le 1 x.state.code
  | 3 => x.report.bytes
  | 5 => [x.endCause]
  | 6 => le 8 ((s.lanesOf q).map fun n => 2 ^ n).sum
  | 7 => ((List.range 4).map fun m => le 2 (x.masks.getD m 0).toNat).flatten
  | 8 => le 2 x.share
  | 9 => le 2 x.progLen
  | 0x0A => le 4 x.refusal.toNat
  | 0x0B => le 1 x.parked.toNat
  | 0x0C => le 1 x.dropped.toNat
  | 0x0D => le 2 x.pc
  | 0x0E => le 4 x.underruns
  | 0x0F => le 8 x.vectors
  | 0x10 => pad 32 x.digest
  | 0x11 => le 4 (64 * x.ring.length)
  | _ => [0]

/-- Writes of a sequencer's objects. -/
def seqRule (q sub : Nat) (b : Bytes) : WriteRule :=
  let v := leNat b
  let cfg (good : Bool) (f : Seq → Seq) : WriteRule := lockRule good (fun _ s => s.seqLocked q) fun _ s => s.modSq q f
  match sub with
  | 2 => cmdRule (decide (v ≤ 1)) (if v = 1 then armSeq q else disarmSeq q)
  | 3 => cmdRule (stampOk b == 0) (launchSeq q b)
  | 4 => cmdRule (decide (v = 1)) (stopSeq q)
  | 7 => cfg true fun x => { x with masks := (List.range 4).map fun m => BitVec.ofNat 16 (fieldAt b (2 * m) 2) }
  | 8 => cfg (decide (16 ≤ v) && decide (v ≤ 1024)) fun x => { x with share := v }
  | 9 => cfg (decide (v ≤ 4096)) fun x => { x with progLen := v }
  | _ => noRule

/-! ## Segments (0x3300) and timing sets (0x3400 + s) -/

/-- The segments that satisfy `f`. (DEDUCED, log 82.) -/
def countSegs (f : Nat → Bool) : Nat := ((List.range 16384).filter f).length

/-- The value of a segment object, as session `n` reads it. -/
def Chip.readSegment (s : Chip) (n sub : Nat) : Bytes :=
  let g := s.sel n 0x3300 1
  match sub with
  | 0 => [0x08]
  | 1 => le 2 g
  | 2 => (s.desc g).bytes
  | 3 => le 1 (s.segState g)
  | 4 => le 2 ((List.range 16).map fun q => if (s.sq q).refs.contains g then 2 ^ q else 0).sum
  | 5 => le 4 0
  | 6 => [if s.segs.exchanging g then 1 else 0]
  | 7 => le 2 (s.seqs.flatMap fun x => x.2.refs).dedup.length
  | _ => le 2 ((s.liveSegs.dedup.filter s.segActive).length)

/-- Writes of the segment objects. -/
def segmentRule (sub : Nat) (b : Bytes) : WriteRule :=
  match sub with
  | 1 => selRule 0x3300 1 (leNat b) (decide (leNat b < 0x4000))
  | 2 => cmdRule (segDescOk b) (writeDesc b)
  | 5 => cmdRule (segRange (fieldAt b 0 2) (fieldAt b 2 2) == 0) (stageExchange (fieldAt b 0 2) (fieldAt b 2 2))
  | _ => noRule

/-- The value of a timing-set object of sequencer `q`, as session `n` reads it. -/
def Chip.readTiming (s : Chip) (n q sub : Nat) : Bytes :=
  let x := s.sq q
  let k := s.sel n (0x3400 + q) 1
  let t := x.timing k
  match sub with
  | 0 => [0x08]
  | 1 => le 1 k
  | 2 => pad 16 t.header
  | 3 => le 1 (s.sel n (0x3400 + q) 3)
  | 4 => pad 24 (t.entry (s.sel n (0x3400 + q) 3))
  | 5 => s.setImage q k
  | 6 => pad 16 t.header ++ ((List.range 64).map fun l => pad 24 (t.entry l)).flatten
  | 7 => le 2 (x.enabledSets.map fun i => 2 ^ i).sum
  | _ => le 4 (if x.enabledSets.any fun i => (x.timing i).source == 1 && !s.locked 1 then 0 else s.shortest q)

/-- Change a timing set. -/
def Seq.modSet (k : Nat) (f : TimingSet → TimingSet) (x : Seq) : Seq := { x with sets := x.sets.upd {} k f }

/-- Writes of a timing-set object (R273). -/
def timingRule (q sub : Nat) (b : Bytes) : WriteRule :=
  let cfg (good : Bool) (f : Req → Chip → Seq → Seq) : WriteRule := lockRule good (fun _ s => s.seqLocked q) fun r s => s.modSq q (f r s)
  let set (r : Req) (s : Chip) : Nat := s.sel r.dest.session (0x3400 + q) 1
  match sub with
  | 1 => selRule (0x3400 + q) 1 (leNat b) (decide (leNat b ≤ 15))
  | 2 => cfg (headerBitsOk b) fun r s => Seq.modSet (set r s) fun t => { t with header := b }
  | 3 => selRule (0x3400 + q) 3 (leNat b) (decide (leNat b ≤ 63))
  | 4 => cfg (entryBitsOk b) fun r s => Seq.modSet (set r s) (TimingSet.putEntry (s.sel r.dest.session (0x3400 + q) 3) b)
  | 6 =>
    let es := (List.range 64).map fun l => slice b (16 + 24 * l) 24
    cfg (headerBitsOk (b.take 16) && es.all entryBitsOk) fun r s => Seq.modSet (set r s) fun t =>
      (List.range 64).foldl (fun t l => t.putEntry l (es.getD l [])) { t with header := b.take 16 }
  | _ => noRule

/-! ## Generators (0x3500) -/

/-- The code of a generator state (Table 11.3). -/
def GenState.code : GenState → Nat
  | .idle => 0 | .running => 1 | .completed => 2 | .abandoned => 3

/-- Words as bytes. -/
def wordBytes (l : List Word32) : Bytes := (l.map fun w => le 4 w.toNat).flatten

/-- The value of a generator object, as session `n` reads it. -/
def Chip.readGenerator (s : Chip) (n sub : Nat) : Bytes :=
  let g := (s.sq (s.sel n 0x3500 1)).gen
  match sub with
  | 0 => [0x0D]
  | 1 => le 1 (s.sel n 0x3500 1)
  | 2 => le 4 g.xCount ++ le 4 g.yCount
  | 3 => [g.width]
  | 4 => g.scramble
  | 5 => g.backgrounds
  | 6 => le 1 (s.sel n 0x3500 6)
  | 7 => wordBytes (g.program (s.sel n 0x3500 6))
  | 8 => le 2 g.readTemplate.1 ++ le 2 g.readTemplate.2
  | 9 => le 2 g.writeTemplate.1 ++ le 2 g.writeTemplate.2
  | 0x0A => wordBytes g.fieldMap
  | 0x0B => le 8 g.opsDone
  | 0x0C => le 4 g.position.toNat
  | _ => le 1 g.state.code

/-- The 32-bit words of a list of bytes. -/
def words32 (b : Bytes) : List Word32 := (wordsOf b).map (BitVec.ofNat 32)

/-- A field-map entry uses no reserved source (R309). -/
def mapSourceOk (e : Word32) : Bool := decide (mapSource e ≤ 0x21)

/-- Writes of the generator objects (R312). (DEDUCED, log 81.) -/
def generatorRule (sub : Nat) (b : Bytes) : WriteRule :=
  let v := leNat b
  let cfg (code : Nat) (f : Req → Chip → Generator → Generator) : WriteRule :=
    { chk := fun _ _ => code
      act := fun r s =>
        let q := s.sel r.dest.session 0x3500 1
        if s.seqLocked q then (s, bad 3) else (s.modSq q fun x => { x with gen := f r s x.gen }, ok)
      after := id }
  let len : Nat := if b.length % 4 = 0 then 0 else 0x0012
  match sub with
  | 1 => selRule 0x3500 1 v (decide (v ≤ 15))
  | 2 => cfg 0 fun _ _ g => { g with xCount := fieldAt b 0 4, yCount := fieldAt b 4 4 }
  | 3 => cfg (if 1 ≤ v ∧ v ≤ 10 then 0 else 2) fun _ _ g => { g with width := BitVec.ofNat 8 v }
  | 4 => cfg 0 fun _ _ g => { g with scramble := b }
  | 5 => cfg 0 fun _ _ g => { g with backgrounds := b }
  | 6 => lockRule (decide (v ≤ 15)) (fun r s => s.seqLocked (s.sel r.dest.session 0x3500 1)) fun r s => s.setSel r.dest.session 0x3500 6 v
  | 7 => cfg (if len ≠ 0 then len else if (words32 b).all elementOk then 0 else 2)
      fun r s g => { g with programs := g.programs.set [] (s.sel r.dest.session 0x3500 6) (words32 b) }
  | 8 => cfg 0 fun _ _ g => { g with readTemplate := (fieldAt b 0 2, fieldAt b 2 2) }
  | 9 => cfg 0 fun _ _ g => { g with writeTemplate := (fieldAt b 0 2, fieldAt b 2 2) }
  | 0x0A => cfg (if len ≠ 0 then len else if (words32 b).all mapSourceOk then 0 else 2) fun _ _ g => { g with fieldMap := words32 b }
  | _ => noRule

/-! ## Sample ports (0x3600) -/

/-- The value of a port object, as session `n` reads it. -/
def Chip.readPort (s : Chip) (n sub : Nat) : Bytes :=
  let p := s.port (s.sel n 0x3600 1)
  match sub with
  | 0 => [0x1A]
  | 1 => le 1 (s.sel n 0x3600 1)
  | 2 => [p.enable]
  | 3 => [p.seq]
  | 4 => le 2 p.divider
  | 5 => [p.format]
  | 6 => [p.source]
  | 7 => [p.channel]
  | 8 => le 2 (unsigned 16 p.idle)
  | 9 => [p.interp]
  | 0x0A => le 2 p.delay
  | 0x10 => le 4 p.staged.toNat
  | 0x12 => le 4 p.phase.toNat
  | 0x14 => le 2 p.amplitude
  | 0x15 => le 2 (unsigned 16 p.offset)
  | 0x16 => le 4 p.word.toNat
  | 0x17 => [if p.enable = 0 then 0 else if p.sending then 2 else 1]
  | 0x18 => le 4 p.rate
  | 0x19 => le 4 p.ratio
  | 0x1A => le 8 p.sent
  | _ => [0]

/-- A 16-bit signed value in the range of a 10-bit sample. -/
def sample10 (v : Nat) : Bool := decide (-512 ≤ signed 16 v) && decide (signed 16 v ≤ 511)

/-- Writes of the port objects (R291, R292, R304). (DEDUCED, log 81.) -/
def portRule (sub : Nat) (b : Bytes) : WriteRule :=
  let v := leNat b
  let x := BitVec.ofNat 8 v
  let k (r : Req) (s : Chip) : Nat := s.sel r.dest.session 0x3600 1
  let cfg (good : Bool) (f : Port → Port) : WriteRule := lockRule good (fun r s => s.portLocked (k r s)) fun r s => s.modPort (k r s) f
  let nco (good : Bool) (f : Nat → Port → Port) : WriteRule := cmdRule good fun r s => (s.modPort (k r s) (f (s.nowFine + ns100)), ok)
  match sub with
  | 1 => selRule 0x3600 1 v (decide (v ≤ 15))
  | 2 => cmdRule (decide (v ≤ 1)) (setPort (v == 1))
  | 3 => cfg (decide (v ≤ 15) || v == 0xFF) fun p => { p with seq := x }
  | 4 => cfg (decide (1 ≤ v)) fun p => { p with divider := v }
  | 5 => cfg (decide (v ≤ 1)) fun p => { p with format := x }
  | 6 => cfg (decide (v ≤ 1)) fun p => { p with source := x }
  | 7 => cfg true fun p => { p with channel := x }
  | 8 => cfg (sample10 v) fun p => { p with idle := signed 16 v }
  | 9 => cfg (decide (v ≤ 1)) fun p => { p with interp := x }
  | 0x0A => cfg true fun p => { p with delay := v }
  | 0x10 => nco true fun _ p => { p with staged := BitVec.ofNat 32 v }
  | 0x11 => cmdRule (decide (1 ≤ v) && decide (v ≤ 5)) (ncoApply (if v = 1 then none else some (v - 2)))
  | 0x12 => nco true fun _ p => { p with phase := BitVec.ofNat 32 v }
  | 0x13 => cmdRule (decide (v = 1)) ncoReset
  | 0x14 => nco (decide (v ≤ 512)) fun t p => { p with amplitude := v, amplitudeDue := p.amplitudeDue ++ [(t, v)] }
  | 0x15 => nco (sample10 v) fun t p => { p with offset := signed 16 v, offsetDue := p.offsetDue ++ [(t, signed 16 v)] }
  | _ => noRule

/-! ## Sealed fields (0x3700) -/

/-- The code of a field state (Table 12.8). -/
def FieldState.code : FieldState → Nat
  | .none => 0 | .waiting => 1 | .buffered => 2 | .playing => 3

/-- The value of a sealed-field object, as session `n` reads it. -/
def Chip.readSealed (s : Chip) (n sub : Nat) : Bytes :=
  let x := (s.sq (s.sel n 0x3700 3)).sealedCfg
  match sub with
  | 0 => [0x0E]
  | 1 => le 1 (s.sel n 0x3700 1)
  | 2 => s.recipe (s.sel n 0x3700 1)
  | 3 => le 1 (s.sel n 0x3700 3)
  | 4 => le 2 x.window
  | 5 => [x.proofOn]
  | 6 => le 2 x.proofKey.toNat
  | 7 => x.proofMap.read 0 0 2048
  | 8 => le 1 x.field.code
  | 9 => le 4 x.failed
  | 0x0A => le 4 x.completed
  | 0x0B => x.lastFailure
  | 0x0C => le 1 (s.sel n 0x3700 0x0C)
  | 0x0D => (s.seal (s.sel n 0x3700 0x0C)).records.flatten
  | _ => le 4 x.longest

/-- A recipe is named by the SFW of a sequencer that is not idle (R319). -/
def Chip.recipeLocked (s : Chip) (n : Nat) : Bool := (List.range 16).any fun q => s.seqLocked q && (s.sq q).sfws.any fun x => x.2 == n

/-- A recipe uses no reserved encoding (R9, Table 12.1). -/
def recipeBits (b : Bytes) : Bool := decide (byteAt b 0 ≤ 2) && decide (byteAt b 5 ≤ 1) && (b.drop 40).all (· == 0)

/-- Writes of the sealed-field objects (R319, R336). (DEDUCED, log 81.) -/
def sealedRule (sub : Nat) (b : Bytes) : WriteRule :=
  let v := leNat b
  let q (r : Req) (s : Chip) : Nat := s.sel r.dest.session 0x3700 3
  let cfg (good : Bool) (f : SealedCfg → SealedCfg) : WriteRule :=
    lockRule good (fun r s => s.seqLocked (q r s)) fun r s => s.modSq (q r s) fun x => { x with sealedCfg := f x.sealedCfg }
  match sub with
  | 1 => selRule 0x3700 1 v true
  | 2 => lockRule (recipeBits b) (fun r s => s.recipeLocked (s.sel r.dest.session 0x3700 1)) fun r s =>
      s.modSealed fun x => { x with recipes := x.recipes.set (List.replicate 64 0) (s.sel r.dest.session 0x3700 1) b }
  | 3 => selRule 0x3700 3 v (decide (v ≤ 15))
  | 4 => cfg (decide (1 ≤ v) && decide (v ≤ 1000)) fun c => { c with window := v }
  | 5 => cfg (decide (v ≤ 1)) fun c => { c with proofOn := BitVec.ofNat 8 v }
  | 6 => cfg true fun c => { c with proofKey := BitVec.ofNat 16 v }
  | 7 => cfg true fun c => { c with proofMap := SMap.write 0 [] 0 b }
  | 0x0C => selRule 0x3700 0x0C v (decide (v ≤ 15))
  | _ => noRule

/-! ## Acquisition (0x3800) -/

/-- The code of a unit state (R352). -/
def UnitState.code : UnitState → Nat
  | .idle => 0 | .ready => 1 | .capturing => 2 | .complete => 3 | .bufferFull => 4

/-- The dead time of a unit since launch, ns. -/
def Chip.deadNs (s : Chip) (u : Nat) : Nat :=
  let c := s.unit u
  (c.dead + (match c.deadFrom with | some f => s.clk.action - f | none => 0)) / 256

/-- The value of an acquisition object, as session `n` reads it. -/
def Chip.readAcq (s : Chip) (n sub : Nat) : Bytes :=
  let c := s.unit (s.sel n 0x3800 1)
  let k := s.siteAq (s.sel n 0x3800 0x14)
  match sub with
  | 0 => [0x1C]
  | 1 => le 1 (s.sel n 0x3800 1)
  | 2 => [c.sources]
  | 3 => [c.trigSource]
  | 4 => c.pattern
  | 5 => c.level
  | 6 => le 2 c.primerCount
  | 7 => le 4 c.post
  | 8 => le 1 c.trigCount
  | 9 => c.window
  | 0x0A => le 1 c.baseDec
  | 0x0B => c.buffer
  | 0x0C => le 8 c.wptr
  | 0x0D => le 8 c.rptr
  | 0x0E => le 1 c.state.code
  | 0x0F => le 4 c.lost
  | 0x10 => le 8 (s.deadNs (s.sel n 0x3800 1))
  | 0x11 => le 1 c.triggers
  | 0x12 => c.uidCfg
  | 0x13 => c.respCfg
  | 0x14 => le 1 (s.sel n 0x3800 0x14)
  | 0x15 => le 2 (((s.sq (s.sel n 0x3800 1)).sites.filter fun i => (s.siteAq i).flag).map (2 ^ ·)).sum
  | 0x16 => le 4 k.respTime ++ le 1 k.verdict.code ++ [0, 0, 0]
  | 0x17 => le 1 s.acq.decimation
  | 0x18 => le 1 s.acq.fill
  | 0x19 => le 4 c.failLost
  | 0x1A => le 4 k.fails
  | 0x1B => le 4 s.acq.decChanges
  | _ => le 2 c.failLimit

/-- A UID capture uses no reserved encoding; the UID length is 0 (off), 4, 7 or 10 (R342). (DEDUCED, log 81.) -/
def uidBitsOk (b : Bytes) : Bool :=
  decide (fieldAt b 0 2 < 0x4000) && [0, 4, 7, 10].contains (byteAt b 5) && decide (byteAt b 6 ≤ 1) && byteAt b 7 == 0

/-- A response timer uses no reserved encoding of its polarity and reject-slow flag (R344); its marker is checked at arm
(R356). (DEDUCED, log 81.) -/
def respBitsOk (b : Bytes) : Bool :=
  decide (byteAt b 2 ≤ 2) && decide (byteAt b 3 ≤ 1)

/-- Writes of the acquisition objects (R358). (DEDUCED, log 81.) -/
def acqRule (sub : Nat) (b : Bytes) : WriteRule :=
  let v := leNat b
  let x := BitVec.ofNat 8 v
  let u (r : Req) (s : Chip) : Nat := s.sel r.dest.session 0x3800 1
  let cfg (good : Bool) (f : CapUnit → CapUnit) : WriteRule := lockRule good (fun r s => s.seqLocked (u r s)) fun r s => s.modUnit (u r s) f
  match sub with
  | 1 => selRule 0x3800 1 v (decide (v ≤ 15))
  | 2 => cfg (decide (v < 64)) fun c => { c with sources := x }
  | 3 => cfg (decide (v ≤ 8)) fun c => { c with trigSource := x }
  | 4 => cfg true fun c => { c with pattern := b }
  | 5 => cfg (decide (byteAt b 2 ≤ 1) && decide (byteAt b 3 ≤ 15)) fun c => { c with level := b }
  | 6 => cfg (decide (v ≤ 4096)) fun c => { c with primerCount := v }
  | 7 => cfg (decide (1 ≤ v)) fun c => { c with post := v }
  | 8 => cfg (decide (1 ≤ v)) fun c => { c with trigCount := v }
  | 9 => cfg true fun c => { c with window := b }
  | 0x0A => cfg (decide (v ≤ 8)) fun c => { c with baseDec := v }
  | 0x0B => cfg true fun c => { c with buffer := b }
  | 0x0D => cmdRule true (writeReadPointer v)
  | 0x12 => cfg (uidBitsOk b) fun c => { c with uidCfg := b }
  | 0x13 => cfg (respBitsOk b) fun c => { c with respCfg := b }
  | 0x14 => selRule 0x3800 0x14 v (decide (v ≤ 15))
  | 0x1C => cfg true fun c => { c with failLimit := v }
  | _ => noRule

/-! ## Levels (0x3900) -/

/-- The value of a level object, as session `n` reads it; a read of 0C also clears its bit 2. -/
def Chip.readLevel (s : Chip) (n sub : Nat) : Bytes :=
  let c := s.lv (s.sel n 0x3900 1)
  let l := s.levels
  match sub with
  | 0 => [0x15]
  | 1 => le 1 (s.sel n 0x3900 1)
  | 2 => le 2 c.staged.code.toNat
  | 3 => [c.loadMode]
  | 4 => le 2 c.clearCode.toNat
  | 5 => [c.staged.mode]
  | 6 => le 2 c.staged.centre.toNat
  | 7 => le 2 c.staged.amplitude.toNat
  | 8 => le 4 c.staged.frequency.toNat
  | 9 => le 4 c.startPhase.toNat
  | 0x0A => [c.supply]
  | 0x0B => le 2 c.code.toNat
  | 0x0C => le 1 ((if c.atClear then 1 else 0) + (if c.short then 2 else 0) + (if c.saturated then 4 else 0) +
      (if c.active.mode = 1 then 8 else 0) + (if c.stagedNew then 16 else 0))
  | 0x0D => le 1 (unsigned 8 c.cal)
  | 0x12 => le 1 ((if l.pinClear then 1 else 0) + (if s.runs 9 && (l.eventClear || s.consumer 0x59) then 2 else 0))
  | 0x13 => le 2 ((List.range 16).map fun i => if (s.lv i).short then 2 ^ i else 0).sum
  | 0x14 => le 4 l.loads
  | 0x15 => le 2 l.mv
  | _ => [0]

/-- The staged field of a sub-index. -/
def stagedField (sub : Nat) : StagedField :=
  match sub with | 2 => .code | 5 => .mode | 6 => .centre | 7 => .amplitude | _ => .frequency

/-- Writes of the level objects. -/
def levelRule (sub : Nat) (b : Bytes) : WriteRule :=
  let v := leNat b
  let ch (good : Bool) (f : LvCh → LvCh) : WriteRule := cmdRule good fun r s => (s.modLv (s.sel r.dest.session 0x3900 1) f, ok)
  match sub with
  | 1 => selRule 0x3900 1 v (decide (v ≤ 15))
  | 3 => cmdRule (decide (v ≤ 1)) fun r s => (s.modLv (s.sel r.dest.session 0x3900 1) fun c =>
      -- a strobe that this channel has not loaded by yet still loads it (R394)
      let c := if c.loadMode = 1 ∧ v = 0 ∧ s.levels.strobe then c.owe s.clk.ticks else c
      { c with loadMode := BitVec.ofNat 8 v }, ok)
  | 4 => ch true fun c => { c with clearCode := BitVec.ofNat 16 v }
  | 9 => ch true fun c => { c with startPhase := BitVec.ofNat 32 v }
  | 0x0A => ch (decide (v ≤ 1)) fun c => { c with supply := BitVec.ofNat 8 v }
  | 0x0E => cmdRule (decide (v = 1)) restoreChannel
  | 0x10 => cmdRule (decide (v = 1)) strobeCommand
  | 0x11 => cmdRule (decide (v = 1)) clearAll
  | _ => cmdRule (stagedOk (stagedField sub) v) (stageLevel (stagedField sub) v)

end Sys2Proof.Machine
end

