-- ==== Sys2Proof/Machine/ObjMem.lean ====
section
/-! DEFINITION. The objects of the secure and verification islands, the memory island, admission, the cluster and
the pair: 0x4000 to 0x4B00 (the object tables of chapters 7, 8, 14, 17 and 20), but for the writes of the pair. -/

namespace Sys2Proof.Machine

/-! ## Owners and keys (0x4100 to 0x4500) -/

/-- The value of an object of owner `n`. -/
def Chip.readOwner (s : Chip) (n sub : Nat) : Bytes :=
  let o := s.owner n
  match sub with
  | 0 => [0x07]
  | 1 => [if o.active then 1 else 0]
  | 2 => pad 16 o.name
  | 3 => le 2 o.quota
  | 4 => le 2 (s.slotsUsed n)
  | 5 => le 1 o.keys.length
  | 6 => le 1 (o.keys.map fun k => 2 ^ k.1).sum
  | _ => sha256 o.keyBytes

/-- An expiry as an action time in the present time base, ns; 0 for none (R177). -/
def Chip.expiryAction (s : Chip) (k : Key) : Nat :=
  match k.expiry with
  | some e => ((s.actionNs : Int) + 1000 * ((e : Int) - s.us)).toNat
  | none => 0

/-- The slot information of a key slot (Table 7.14). (DEDUCED, log 82.) -/
def Chip.slotInfo (s : Chip) (n : Nat) : Bytes :=
  match s.keys.slots.find? n with
  | none => List.replicate 32 0
  | some k =>
    [if k.damaged then 2 else 1] ++ le 1 k.owner ++ [k.type, k.flags, k.action, 0] ++ le 2 k.usage.toNat ++ le 4 k.limit ++ le 4 k.uses ++
      le 8 (s.expiryAction k) ++ pad 3 k.kcv ++ List.replicate 5 0

/-- The code of 0x4500:01. -/
def Chip.armCode (s : Chip) : Nat :=
  if s.life.state = .wafer ∨ s.life.state = .calibrated ∨ s.life.state = .analysis then 4
  else match s.keys.arm with
    | .armed => 0 | .deadIntrusion => 1 | .deadRootKey => 2 | .awaitingRearm => 3

/-- The value of an object of 0x4200, 0x4300 or 0x4500, as session `n` reads it. -/
def Chip.readKeys (s : Chip) (n idx sub : Nat) : Bytes :=
  let k := s.keys
  let slot := s.sel n 0x4300 1
  let cust := s.sel n 0x4200 1
  match idx, sub with
  | 0x4200, 0 => [0x10]
  | 0x4200, 1 => le 2 cust
  | 0x4200, 3 => (s.owner (cust / 256)).keys.get (List.replicate 64 0) (cust % 256)
  | 0x4300, 0 => [0x12]
  | 0x4300, 1 => le 2 slot
  | 0x4300, 2 => s.slotInfo slot
  | 0x4300, 3 => (match k.slots.find? slot with | some x => x.pub | none => [])
  | 0x4300, 4 => le 2 k.slots.length
  | 0x4300, 5 => (List.range 512).map fun i => BitVec.ofNat 8 ((List.range 8).map fun b => if (k.slots.find? (8 * i + b)).isSome then 2 ^ b else 0).sum
  | 0x4300, 0x12 => (match s.host.sessions.find? n with | some x => x.lastExport | none => [])
  | 0x4500, 0 => [0x0A]
  | 0x4500, 1 => le 1 s.armCode
  | 0x4500, 2 => le 2 k.cause.toNat
  | 0x4500, 3 => [k.loops]
  | 0x4500, 4 => [k.period]
  | 0x4500, 5 => le 2 k.response.toNat
  | 0x4500, 6 => [k.mismatches]
  | 0x4500, 7 => le 4 k.intrusions
  | 0x4500, 8 => le 2 k.reserve.length
  | 0x4500, 9 => le 4 k.rearms
  | 0x4500, _ => le 2 k.zeroNs
  | _, _ => []

/-! ## Engines and queues (0x4000, 0x4400, 0x4600) -/

/-- The code of an entropy state. -/
def Entropy.code : Entropy → Nat
  | .startUp => 0 | .healthy => 1 | .failed => 2

/-- The engines available (0x4000:01): those whose self-test passed, the DRBG unless its entropy failed, the SAU in
service, and the VI while it runs. (DEDUCED, log 82.) -/
def Chip.engines (s : Chip) : Nat :=
  let t := s.crypto.selfTest
  (if t.getLsbD 0 then 0 else 0x0F) + (if t.getLsbD 1 then 0 else 0x30) + (if t.getLsbD 5 || s.crypto.entropy == .failed then 0 else 0x40) +
    (if s.crypto.sauFault then 0 else 0x80) + (if s.runs 4 then 0x100 else 0)

/-- The queue of a session: 0x1F plus its number; 0 for none. (DEDUCED, log 82.) -/
def ownQueue (n : Nat) : Nat := if n = 0 then 0 else 0x1F + n

/-- The value of an object of 0x4000, 0x4400 or 0x4600, as session `n` reads it. -/
def Chip.readCrypto (s : Chip) (n idx sub : Nat) : Bytes :=
  let c := s.crypto
  let q := ownQueue n
  match idx, sub with
  | 0x4000, 0 => [0x0D]
  | 0x4000, 1 => le 2 s.engines
  | 0x4000, 2 => [if c.sauFault then 1 else 0]
  | 0x4000, 3 => le 4 c.released
  | 0x4000, 4 => le 4 c.withheld
  | 0x4000, 5 => le 1 c.entropy.code
  | 0x4000, 6 => le 4 c.repetition
  | 0x4000, 7 => le 4 c.proportion
  | 0x4000, 8 => le 4 c.reseeds
  | 0x4000, 9 => le 2 c.drbgRequests
  | 0x4000, 0x0A => le 2 c.selfTest.toNat
  | 0x4000, 0x0B => le 1 c.contexts.length
  | 0x4000, 0x0C => le 4 c.preemptions
  | 0x4000, _ => le 4 c.declined
  | 0x4400, 0 => [0x22]
  | 0x4400, 1 => le 1 q
  | 0x4400, 2 => le 1 (if n = 0 then 2 else s.queuePriority q)
  | 0x4400, 3 => le 1 (if n = 0 then 0 else (s.queue q).entries.length)
  | 0x4400, 0x11 => if n = 0 then [] else s.completions q
  | 0x4400, 0x12 => [0, 0]
  | 0x4400, 0x20 => (List.range 64).map fun i => BitVec.ofNat 8 (s.queue i).entries.length
  | 0x4400, 0x21 => (List.range 64).map fun i => BitVec.ofNat 8 (s.queuePriority i)
  | 0x4400, 0x22 => le 2 ((List.range 64).map fun i => (s.queue i).entries.length).sum
  | 0x4600, 0 => [0x07]
  | 0x4600, 1 => le 4 c.verified
  | 0x4600, 2 => le 4 c.notVerified
  | 0x4600, 3 => le 4 c.checks
  | 0x4600, 4 => le 4 c.yields
  | 0x4600, 5 => le 1 c.viSuspended.length
  | 0x4600, 6 => le 4 c.longestWait
  | 0x4600, _ => le 2 c.lastP256
  | _, _ => []

/-- The fields of a job request in a submitted record (Table 8.2). -/
def jobOf (b : Bytes) : JobReq :=
  let n := fieldAt b 6 2
  { flags := b.getD 1 0, jobId := BitVec.ofNat 16 (fieldAt b 2 2), slot := BitVec.ofNat 16 (fieldAt b 4 2)
    inputLen := BitVec.ofNat 32 (fieldAt b 8 4), inputOffset := BitVec.ofNat 64 (fieldAt b 12 8)
    outputOffset := BitVec.ofNat 64 (fieldAt b 20 8), reserved := BitVec.ofNat 32 (fieldAt b 28 4)
    params := slice b 32 n, inline := b.drop (32 + n) }

/-- An opcode of Table 8.3; any other is a reserved encoding (R9). -/
def opKnown (op : Nat) : Bool :=
  (decide (1 ≤ op) && decide (op ≤ 0x0B)) || op == 0x10 || op == 0x11 || op == 0x18 || (decide (0x20 ≤ op) && decide (op ≤ 0x22))

/-- A write of 0x4400:10: the record's lengths, its opcode, then acceptance (R214). (DEDUCED, log 85.) -/
def jobRule (b : Bytes) : WriteRule :=
  ⟨fun _ _ => if b.length < 32 ∨ b.length < 32 + fieldAt b 6 2 then 0x0012 else if opKnown (byteAt b 0) then 0 else 2,
    submitJob (byteAt b 0) (jobOf b), id⟩

/-- An operation code of Table 7.4; any other is a reserved encoding (R9). -/
def authKnown (code : Nat) : Bool := (decide (1 ≤ code) && decide (code ≤ 4)) || (decide (0x10 ≤ code) && decide (code ≤ 0x15))

/-- A write of 0x4200:10: the length of body and authorisations, the operation code, then R185; a body too short for its
operation code and owner is one of the wrong length (R183). (DEDUCED, log 85.) (DESIGN CHOICE, log 140.) -/
def authRule (b : Bytes) : WriteRule :=
  let n := fieldAt b 16 2
  ⟨fun _ _ => if b.length < 18 + n ∨ (b.length - (18 + n)) % 68 ≠ 0 then 0x0012
      else if n < 2 ∨ authKnown (byteAt b 18) then 0 else 2,
    if n < 2 then authorised 0 0 [] (b.take 16) (b.drop (18 + n))
    else authorised (byteAt b 18) (byteAt b 19) (slice b 20 (n - 2)) (b.take 16) (b.drop (18 + n)), id⟩

/-- Writes of 0x4200 to 0x4400. -/
def secureRule (idx sub : Nat) (b : Bytes) : WriteRule :=
  let v := leNat b
  match idx, sub with
  | 0x4200, 1 => selRule 0x4200 1 v (decide (v / 256 < 64) && decide (v % 256 < 8))
  | 0x4200, 0x10 => authRule b
  | 0x4300, 1 => selRule 0x4300 1 v (decide (v < 4096))
  | 0x4300, 0x10 => cmdRule true (keyCommand b)
  | 0x4400, 0x10 => jobRule b
  | 0x4400, 2 => cmdRule (decide (v ≤ 5)) fun r s => (s.modQueue (ownQueue r.dest.session) fun q => { q with priority := v + 1 }, ok)
  | 0x4400, 0x12 => cmdRule true (acknowledge v)
  | _, _ => noRule

/-! ## Memory and admission (0x4800 to 0x4900) -/

/-- The code of an MI mode (Table 14.7). -/
def MiMode.code : MiMode → Nat
  | .awaitingDelays => 0 | .training => 1 | .initialising => 2 | .twoChannels => 3 | .oneChannel => 4 | .retiring => 5 | .faulted => 6
  | .selfRefresh => 7

/-- The code of a channel state (Table 14.7). -/
def ChState.code : ChState → Nat
  | .off => 0 | .training => 1 | .running => 2 | .reseating => 3 | .faulted => 4 | .retired => 5

/-- A layout as 16 bytes. -/
def layoutBytes (l : List Nat) : Bytes := ((List.range 4).map fun i => le 4 (l.getD i 0)).flatten

/-- The value of a memory object. -/
def Chip.readMemory (s : Chip) (sub : Nat) : Bytes :=
  let d := s.dram
  match sub with
  | 0 => [0x12]
  | 1 => le 1 d.mode.code
  | 2 => [d.rateStored]
  | 3 => le 1 d.inService.toNat
  | 4 => le 8 s.usable
  | 5 => layoutBytes d.layoutStored
  | 6 => layoutBytes d.layout
  | 7 => [d.policy]
  | 8 => [0xFF]
  | 9 => [0]
  | 0x0A => le 2 d.generation
  | 0x0B => le 2 d.threshold
  | 0x0C => d.watermarks
  | 0x0D => d.hints
  | 0x0E => le 2 d.rowHammer
  | 0x10 => le 4 d.misses
  | 0x11 => le 4 d.retirements
  | _ => d.lastFault

/-- The value of an object of DRAM channel `c`. -/
def Chip.readChannel (s : Chip) (c sub : Nat) : Bytes :=
  let d := s.dramCh c
  match sub with
  | 0 => [0x0F]
  | 1 => le 1 d.state.code
  | 2 => le 1 (d.gib % 64 + 64 * (d.ranks - 1))
  | 3 => le 2 d.caOffset.toNat
  | 4 => d.wlStart
  | 5 => d.gateBase
  | 6 => d.drive
  | 7 => d.refs
  | 8 => pad 32 (d.trained.map fun w => le 2 w.toNat).flatten
  | 9 => le 4 d.corrected
  | 0x0A => le 4 d.uncorrectable
  | 0x0B => le 8 d.lastBad
  | 0x0C => [d.multiplier]
  | 0x0D => le 4 d.neighbours
  | 0x0E => le 4 d.forced
  | _ => le 8 d.served

/-- A rate in kB/s rounded up. -/
def ceilRate (r : Rat) : Nat := r.ceil.toNat

/-- The value of an admission object, as session `n` reads it. (DEDUCED, log 82.) -/
def Chip.readAdmission (s : Chip) (n sub : Nat) : Bytes :=
  let d := s.dram
  let q := s.sel n 0x4900 0x0A
  let x := s.sq q
  let live (r : Rat) : Rat := if x.state = .idle then 0 else r
  match sub with
  | 0 => [0x0D]
  | 1 => le 4 s.budget
  | 2 => le 4 ((s.serving.map s.refreshCharge).foldl max 0)
  | 3 => le 4 (s.hammerCharge d.rowHammer)
  | 4 => le 4 16000
  | 5 => le 4 d.siShare
  | 6 => le 4 d.ciShare
  | 7 => le 4 230400
  | 8 => le 4 s.admitted
  | 9 => le 4 (s.budget - s.admitted)
  | 0x0A => le 1 q
  | 0x0B => le 4 x.floor
  | 0x0C => le 4 (ceilRate (live x.playback)) ++ le 4 (ceilRate (live x.capture)) ++ le 4 (ceilRate x.charge)
  | _ => le 4 d.refusals

/-- U with both channels in service: 7/8 of the installed capacity (R362); 0 while training has found none. -/
def Chip.fullUsable (s : Chip) : Nat := (s.dram.channels.map fun c => c.gib * 1073741824).sum * 7 / 8

/-- Writes of the stored layout: refused where it exceeds U with both channels in service (R365), which is known once
the memory has been found. (DESIGN CHOICE, log 83.) -/
def writeLayout (b : Bytes) (_ : Req) (s : Chip) : Chip × Reply :=
  let l := (List.range 4).map fun i => fieldAt b (4 * i) 4
  if s.fullUsable ≠ 0 ∧ layoutFits l s.fullUsable = false then (s, bad 0x8002)
  else (s.modDram fun d => { d with layoutStored := l }, ok)

/-- Writes of the memory, channel and admission objects. -/
def memoryRule (idx sub : Nat) (b : Bytes) : WriteRule :=
  let v := leNat b
  let x := BitVec.ofNat 8 v
  let set (good : Bool) (f : Dram → Dram) : WriteRule := setRule good fun s => s.modDram f
  let ch (good : Bool) (f : DramCh → DramCh) : WriteRule := setRule good fun s => s.modDramCh (idx - 0x4801) f
  if idx = 0x4800 then
    match sub with
    | 2 => set (decide (v ≤ 3)) fun d => { d with rateStored := x }
    | 5 => cmdRule true (writeLayout b)
    | 7 => set (decide (v ≤ 1)) fun d => { d with policy := x }
    | 8 => cmdRule (decide (v ≤ 1)) (retireWrite v)
    | 9 => cmdRule (decide (v = 1)) beginTraining
    | 0x0B => set (decide (1 ≤ v) && decide (v ≤ 1000)) fun d => { d with threshold := v }
    | 0x0C => set (decide (16 ≤ byteAt b 1) && decide (byteAt b 1 + 16 ≤ byteAt b 0) && decide (byteAt b 0 ≤ 60)) fun d => { d with watermarks := b }
    | 0x0D => set (b.all fun y => decide (y.toNat ≤ 1)) fun d => { d with hints := b }
    | 0x0E => cmdRule (shareOk .rowHammer v == 0) (writeShare .rowHammer v)
    | _ => noRule
  else if idx = 0x4801 ∨ idx = 0x4802 then
    match sub with
    | 3 => ch true fun d => { d with caOffset := BitVec.ofNat 16 v }
    | 4 => ch true fun d => { d with wlStart := b }
    | 5 => ch true fun d => { d with gateBase := b }
    | 6 => ch (driveOk b) fun d => { d with drive := b }
    | 7 => ch (refsOk b) fun d => { d with refs := b }
    | _ => noRule
  else
    match sub with
    | 5 => cmdRule (shareOk .secure v == 0) (writeShare .secure v)
    | 6 => cmdRule (shareOk .conductor v == 0) (writeShare .conductor v)
    | 0x0A => selRule 0x4900 0x0A v (decide (v ≤ 15))
    | 0x0B => lockRule true (fun r s => s.seqLocked (s.sel r.dest.session 0x4900 0x0A)) fun r s =>
        s.modSq (s.sel r.dest.session 0x4900 0x0A) fun y => { y with floor := v }
    | _ => noRule

/-! ## Cluster and pair (0x4A00, 0x4B00) -/

/-- The bits of the ring positions in this device's cluster. -/
def Chip.memberMask (s : Chip) : Nat :=
  ((List.range s.cluster.ring.length).map fun p =>
    if (p = s.cluster.position ∧ s.standing) ∨ s.counts (s.cluster.ring.getD p {}) then 2 ^ p else 0).sum

/-- The member at a ring position as the member table shows it; this device shows its own values. (DEDUCED, log 82.) -/
def Chip.memberEntry (s : Chip) (p : Nat) : Bytes :=
  let own := p = s.cluster.position
  let h := s.heartbeat
  let m : Member := if own then { heartbeatMember h 0 false (s.cluster.ring.getD p {}) with serial := s.serial } else s.cluster.ring.getD p {}
  le 1 p ++ le 1 m.node ++ [m.life, m.quality] ++ le 4 m.serial ++ le 4 (unsigned 32 m.offset) ++ [m.flags, m.state] ++ le 2 m.generation

/-- The value of a cluster object. -/
def Chip.readCluster (s : Chip) (sub : Nat) : Bytes :=
  let c := s.cluster
  match sub with
  | 0 => [0x19]
  | 1 => [c.clusterStored]
  | 2 => [c.priorityStored]
  | 3 => le 2 c.hopStored
  | 4 => le 1 c.state.code
  | 5 => [c.cause]
  | 6 => le 1 c.size
  | 7 => le 1 c.position
  | 8 => le 1 s.memberMask
  | 9 => le 4 c.master
  | 0x0A => le 4 (unsigned 32 c.offset)
  | 0x0B => le 4 c.hopDelay
  | 0x0C => le 4 c.wire
  | 0x0D => le 4 c.lastCal
  | 0x0E => le 4 c.barrierTimeout
  | 0x0F => le 4 c.releaseLead
  | 0x12 => le 2 ((List.range 16).map fun b => if (SMap.get c.barriers {} (16 + b)).held then 2 ^ b else 0).sum
  | 0x13 => ((List.range c.ring.length).filter fun p => s.memberMask.testBit p).flatMap s.memberEntry
  | 0x14 => le 4 c.received
  | 0x15 => le 4 c.sent
  | 0x16 => le 4 c.discarded
  | 0x17 => le 4 c.resends
  | 0x18 => pad 32 s.boot.digest
  | 0x19 => s.deviceArmDigest
  | _ => [0]

/-- The code of a pair state (Table 20.7). -/
def PairSt.code : PairSt → Nat
  | .unpaired => 0 | .pairing => 1 | .activeSync => 2 | .activePaired => 3 | .activeLost => 4 | .standbySync => 5 | .standbySynced => 6
  | .fenced => 7

/-- The value of a pair object. -/
def Chip.readPair (s : Chip) (sub : Nat) : Bytes :=
  let p := s.pair
  match sub with
  | 0 => [0x13]
  | 1 => le 1 p.state.code
  | 2 => p.publicKey
  | 5 => le 4 p.partner.toNat
  | 6 => [p.node]
  | 7 => le 4 p.generation
  | 8 => le 8 p.committed
  | 9 => le 8 (match p.awaiting with | some e => e.number | none => 0)
  | 0x0A => [p.solo]
  | 0x0B => [p.takeover]
  | 0x0C => le 2 p.takeoverMs
  | 0x0D => le 2 p.ackMs
  | 0x10 => le 4 p.epochs
  | 0x11 => le 4 p.discarded
  | 0x12 => le 4 p.longest
  | 0x13 => le 4 p.takeovers
  | _ => [0]

/-- Writes of the cluster objects, and of the pair's settings. -/
def clusterRule (idx sub : Nat) (b : Bytes) : WriteRule :=
  let v := leNat b
  let set (good : Bool) (f : Cluster → Cluster) : WriteRule := setRule good fun s => s.modCluster f
  let pair (good : Bool) (f : Pair → Pair) : WriteRule := setRule good fun s => s.modPair f
  match idx, sub with
  | 0x4A00, 1 => set (decide (v ≤ 7) || v == 0xFF) fun c => { c with clusterStored := BitVec.ofNat 8 v }
  | 0x4A00, 2 => set true fun c => { c with priorityStored := BitVec.ofNat 8 v }
  | 0x4A00, 3 => set true fun c => { c with hopStored := v }
  | 0x4A00, 0x0E => set (decide (1 ≤ v) && decide (v ≤ 600000)) fun c => { c with barrierTimeout := v }
  | 0x4A00, 0x0F => set (decide (50 ≤ v) && decide (v ≤ 10000)) fun c => { c with releaseLead := v }
  | 0x4A00, 0x10 => cmdRule (decide (v = 1)) calibrateNow
  | 0x4A00, 0x11 => cmdRule (decide (v = 1) || v == 2) (if v = 1 then clusterLeave else clusterRejoin)
  | 0x4B00, 0x0A => pair (decide (v ≤ 1)) fun p => { p with solo := BitVec.ofNat 8 v }
  | 0x4B00, 0x0B => pair (decide (v ≤ 1)) fun p => { p with takeover := BitVec.ofNat 8 v }
  | 0x4B00, 0x0C => pair (decide (10 ≤ v) && decide (v ≤ 1000)) fun p => { p with takeoverMs := v }
  | 0x4B00, 0x0D => pair (decide (5 ≤ v) && decide (v ≤ 1000)) fun p => { p with ackMs := v }
  | _, _ => noRule

end Sys2Proof.Machine
end

