-- ==== Sys2Proof/Machine/Windows.lean ====
section
/-! DEFINITION. The window objects 0x5000 and 0x3200 + s (R133 to R135, R241, R263): region and offset per session,
and the data object whose accesses move words at the offset. -/

namespace Sys2Proof.Machine

/-- The read and write levels of a region of 0x5000 (Table 14.2); none for never. -/
def regionLevels (r : Nat) : Option Level × Option Level :=
  if r = 1 then (some .vendor, none) else if r = 2 then (some .observer, some .operator) else if r = 3 then (some .observer, none)
  else (some .operator, some .operator)

/-- The level an access to a window's selected region needs; none for never. -/
def windowNeeds (idx region : Nat) (write : Bool) : Option Level :=
  if idx = 0x5000 then (if write then (regionLevels region).2 else (regionLevels region).1)
  else some (if write then .operator else .observer)

/-- The size of the region a session has selected in a window, bytes: 0 while none is (R133). -/
def Chip.windowSize (s : Chip) (n idx : Nat) : Nat := if idx = 0x5000 then s.regionSize (s.sel n 0x5000 1) else 16384

/-- No region is selected: the default of 0x5000:01 (R133). -/
def Chip.noRegion (s : Chip) (n idx : Nat) : Bool := idx == 0x5000 && s.sel n 0x5000 1 == 0

/-- The check of R134 of an access of `len` bytes: 0, or its code. -/
def Chip.windowCode (s : Chip) (n idx len : Nat) (l : Level) (write : Bool) : Nat :=
  let need := windowNeeds idx (s.sel n idx 1) write
  if s.noRegion n idx then 0x0013
  else if (need.all fun m => decide (l.rank < m.rank)) then 0x000C
  else if len = 0 ∨ s.windowSize n idx < s.sel n idx 2 + len then 0x0013
  else 0

/-- The access-refused record of a refused window access: the window region, and the first byte of the range that
lies outside it (R134). (DEDUCED, log 84.) -/
def Chip.windowNote (n idx : Nat) (write : Bool) (code : Nat) (s : Chip) : Chip :=
  if code ≠ 0x0013 then s
  else s.accessRefused 0 ((if s.noRegion n idx then s.sel n idx 2 else max (s.sel n idx 2) (s.windowSize n idx)) % 2 ^ 32) (s.sel n idx 1)
    (if write then 1 else 0)

/-- A length that an access moves (R133). -/
def windowLength (len : Nat) : Bool := decide (4 ≤ len) && decide (len ≤ 65536) && len % 4 == 0

/-- The MI's answer to a window access before it enters a channel: 0, or its code (R74, R484). (DEDUCED, log 84.) -/
def Chip.windowGate (s : Chip) : Nat :=
  if s.island 8 = .reseatPending then 0x0008 else if s.dramServes then 0 else 0x0004

/-- The words of a write enter a program store. -/
def Seq.storeWrite (off : Nat) (b : Bytes) (x : Seq) : Seq :=
  { x with store := (List.range (b.length / 4)).foldl (fun m i => m.set 0 (off / 4 + i) (BitVec.ofNat 32 (fieldAt b (4 * i) 4))) x.store }

/-- The bytes of a program store. -/
def Seq.storeRead (off len : Nat) (x : Seq) : Bytes := ((List.range (len / 4)).map fun i => le 4 (x.word (off / 4 + i)).toNat).flatten

/-- The owner's part of a window write: locked by arm over live segment data and in the store of a sequencer that is
not idle; otherwise the words move, over CH_14 for DRAM. The result data is the offset after the write (R128, R129). -/
def windowStore (idx : Nat) (b : Bytes) (r : Req) (s : Chip) : Chip × Reply :=
  let n := r.dest.session
  let off := s.sel n idx 2
  let region := s.sel n idx 1
  if idx = 0x5000 then
    if region = 2 ∧ s.overlapsLive off b.length then (s, bad 3)
    else if s.windowGate ≠ 0 then (s, bad s.windowGate)
    else (s.dramEnqueue { cls := .conductor, addr := s.regionBase region + off, write := true, len := b.length, dest := some r.dest, data := b },
      .later)
  else if s.seqLocked (idx - 0x3200) then (s, bad 3)
  else
    let s := (s.modSq (idx - 0x3200) (Seq.storeWrite off b)).advanceOffset r.dest b.length
    (s, .done 0 (le 8 (s.sel n idx 2)))

/-- A write of a window's data (R134). -/
def windowWrite (p : Path) (tag : Word16) (idx : Nat) (b : Bytes) (s : Chip) : Chip :=
  let chk (r : Req) (s : Chip) : Nat :=
    if windowLength b.length then s.windowCode r.dest.session idx b.length r.level true else 0x0012
  match gate p tag idx 3 b chk s fun r code s => s.windowNote r.dest.session idx true code with
  | .stop s => s
  | .go r s => Chip.finish r.dest (windowStore idx b r s)

/-- The owner's part of a window read. -/
def windowFetch (idx len : Nat) (r : Req) (s : Chip) : Chip × ReadReply :=
  let n := r.dest.session
  let off := s.sel n idx 2
  if idx = 0x5000 then
    if s.windowGate ≠ 0 then (s, .refused s.windowGate)
    else (s.dramEnqueue { cls := .conductor, addr := s.regionBase (s.sel n idx 1) + off, len := len, dest := some r.dest }, .later)
  else (s.advanceOffset r.dest len, .data ((s.sq (idx - 0x3200)).storeRead off len))

/-- The bytes a read moves: those an SPI frame counts, or over CAN those to the region's end (R133). -/
def Chip.windowCount (s : Chip) (p : Path) (n idx len : Nat) : Nat :=
  match p with
  | .can _ _ => min 65536 (s.windowSize n idx - s.sel n idx 2)
  | .spi _ => len

/-- A read of a window's data (R133, R134). -/
def windowRead (p : Path) (tag : Word16) (idx len : Nat) (s : Chip) : Chip :=
  match s.arrive p tag idx 3 with
  | (s, none) => s
  | (s, some t) =>
    let n := t.session
    if n = 0 then s.answerRead t (.refused 0x000B)
    else
      let x := SMap.get s.host.sessions {} n
      let count := s.windowCount p n idx len
      let code := if spiCountBad p len ∨ (count ≠ 0 ∧ windowLength count = false) then 0x0012 else s.windowCode n idx count x.level false
      let av := if s.unserved idx 3 then 0x0004 else s.availability (ownerOf idx 3) (if idx = 0x5000 then some 8 else none) false false
      if x.busy then ((s.modSession n fun y => { y with retryDelay := 1 }).count 1).answerRead t (.refused 1)
      else if code ≠ 0 then (s.windowNote n idx false code).answerRead t (.refused code)
      else if av ≠ 0 then s.answerRead t (.refused av)
      else if s.partitionStopped idx 3 then s.answerRead t (.refused 0x2005)
      else if idx ≠ 0x5000 ∧ s.ci.halted then
        s.queueRead t x.level (le 4 count)
      else
        let y := windowFetch idx count ⟨t, x.level⟩ s
        y.1.answerRead t y.2

/-- An access to a session's window data is in progress (R131): before its channel, in it, or at the DRAM. -/
def Chip.windowBusy (s : Chip) (t : Target) : Bool :=
  let mine (u : Target) : Bool := u.session == t.session && u.serial == t.serial && u.index == t.index && u.sub == 3
  let asked (r : DramReq) : Bool := r.dest.any mine
  s.dram.stalled.any asked || (s.dram.transfers.any fun x => asked x.req) ||
    (s.dram.channels.any fun c => (c.queue ++ c.inFlight).any asked) || s.host.ch01.any fun e => mine e.dest

/-- Writes of a window's region and offset (R131, R133). -/
def windowRule (idx sub : Nat) (b : Bytes) : WriteRule :=
  let v := leNat b
  let unlessBusy (f : Req → Chip → Chip) (r : Req) (s : Chip) : Chip × Reply :=
    if s.windowBusy r.dest then (s.count 1, .busy 1) else (f r s, ok)
  match sub with
  | 1 => ⟨fun _ _ => if v ≤ (if idx = 0x5000 then 5 else 0) then 0 else 2,
      unlessBusy fun r s => (s.setSel r.dest.session idx 1 v).setSel r.dest.session idx 2 0, id⟩
  | 2 => ⟨fun _ _ => if v % 4 = 0 then 0 else 0x0019,
      unlessBusy fun r s => let s := s.setSel r.dest.session idx 2 v
        if idx = 0x5000 then s.setSel r.dest.session 0x5000 6 0 else s, id⟩
  | _ => noRule

/-- The code of a level, never as 0xF (0x5000:05). -/
def levelNibble : Option Level → Nat
  | some l => l.code
  | none => 0xF

/-- The value of a window object other than its data. (DESIGN CHOICE, log 123.) -/
def Chip.readWindow (s : Chip) (n idx sub : Nat) : Bytes :=
  let r := s.sel n idx 1
  match sub with
  | 0 => [if idx = 0x5000 then 6 else 4]
  | 1 => le 2 r
  | 2 => le 8 (s.sel n idx 2)
  | 4 => le 8 (s.windowSize n idx)
  | 5 => le 1 (if r = 0 then 0 else levelNibble (regionLevels r).1 + 16 * levelNibble (regionLevels r).2)
  | _ => le 8 (s.sel n idx 6)

/-- A row of a window's region or offset. (DEDUCED, log 84.) -/
def windowSet (p : Path) (w : Window) (sub : Nat) (b : Bytes) (s : Chip) : Chip :=
  let r := windowRule (windowIndex w) sub b
  hostWrite p 0 (windowIndex w) sub b r.chk r.act s

/-- `WINDOW_REGION_SELECT` (R133). -/
def execWindowRegionSelect (p : Path) (window : Window) (region : Word16) (s : State) : Host.Outcome State Fault Refusal :=
  next s (windowSet p window 1 (le 2 region.toNat) s.chip)
/-- `WINDOW_OFFSET_SET` (R133). -/
def execWindowOffsetSet (p : Path) (window : Window) (offset : BitVec 64) (s : State) : Host.Outcome State Fault Refusal :=
  next s (windowSet p window 2 (le 8 offset.toNat) s.chip)
/-- `WINDOW_DATA_READ` (R134). -/
def execWindowDataRead (p : Path) (window : Window) (len : Nat) (s : State) : Host.Outcome State Fault Refusal :=
  next s (windowRead p 0 (windowIndex window) len s.chip)
/-- `WINDOW_DATA_WRITE` (R134). -/
def execWindowDataWrite (p : Path) (tag : Word16) (window : Window) (data : Bytes) (s : State) : Host.Outcome State Fault Refusal :=
  next s (windowWrite p tag (windowIndex window) data s.chip)

end Sys2Proof.Machine
end

