-- ==== Sys2Proof/Machine/Pair.lean ====
section
/-! DEFINITION. Pairing and replication (R491 to R508): the pair key and the pair request, PAIR-STATE, the journal's
epochs with their commit records, the standby's application of them, the loss of the standby, and takeover. -/

namespace Sys2Proof.Machine

/-! ## The partner -/

/-- The member of the last CAL-RESULT with a serial number, with its position (R428). -/
def Chip.ringMember (s : Chip) (serial : Nat) : Option (Nat × Member) :=
  ((List.range s.cluster.ring.length).map fun p => (p, s.cluster.ring.getD p {})).find? fun m => m.2.serial == serial && m.1 != s.cluster.position

/-- Send a replication message to the partner (Table 20.4): service 0x01, kind, content; a flow that was discarded begins anew (R426). -/
def Chip.sendPair (kind : Nat) (content : Bytes) (s : Chip) : Chip :=
  match s.ringMember s.pair.partner.toNat with
  | some m => (s.modCluster fun c => { c with flowsEnded := c.flowsEnded.filter (· != s.pair.partner.toNat) }).sendData m.1 ([1] ++ le 1 kind ++ content)
  | none => s

/-- The role of the device: 0 none, 1 active, 2 standby (R492). -/
def Pair.role (p : Pair) : Nat := if p.state = .unpaired then 0 else if p.asActive then 1 else 2

/-- The code of a pair state (Table 20.7). (DEDUCED, log 86.) -/
def pairCode (p : PairSt) : Nat :=
  match p with
  | .unpaired => 0 | .pairing => 1 | .activeSync => 2 | .activePaired => 3 | .activeLost => 4 | .standbySync => 5 | .standbySynced => 6
  | .fenced => 7

/-- The content of PAIR-STATE (Table 20.4). -/
def Chip.pairState (s : Chip) : Bytes :=
  be 1 s.pair.role ++ be 1 (pairCode s.pair.state) ++ be 4 s.pair.generation ++ be 8 s.pair.committed ++ pad 32 s.boot.digest

/-- PAIR-STATE goes to the partner (R500). -/
def Chip.sendPairState (s : Chip) : Chip :=
  if s.pair.state = .unpaired ∨ s.runs 3 = false ∨ (s.ringMember s.pair.partner.toNat).isNone then s
  else (s.sendPair 4 s.pairState).modPair fun p => { p with stateSent := s.pairState }

/-- At a tick, a PAIR-STATE goes out where one of its fields has changed since the last (R500). (DESIGN CHOICE, log 147.) -/
def Chip.pairStep (s : Chip) : Chip :=
  if s.pairState = s.pair.stateSent then s else s.sendPairState

/-- Replace the pair's state by `f`; a PAIR-STATE tells the partner (R500). -/
def Chip.changePair (f : Pair → Pair) (s : Chip) : Chip := (s.modPair f).sendPairState

/-- K_enc and K_mac of the present pair generation (R493). -/
def Chip.pairKeys (s : Chip) : Bytes :=
  let p := s.pair
  let own := (s.fuseUsed 0x009).toNat
  let other := p.partner.toNat
  kdf (p256.ecdh (beNat p.privateKey) p.partnerKey)
    (tagJKPK ++ [0] ++ be 4 (min own other) ++ be 4 (max own other) ++ be 4 p.generation ++ be 4 512) 64

/-- Derive the keys of the present generation. -/
def Chip.derivePair (s : Chip) : Chip :=
  let k := s.pairKeys
  s.modPair fun p => { p with encKey := k.take 32, macKey := k.drop 32 }

/-! ## The pair key (R491) -/

/-- Generate a pair key: its scalar comes from the DRBG. -/
def newPairKey (_ : Req) (s : Chip) : Chip × Reply :=
  if s.pair.state ≠ .unpaired then (s, bad 5)
  else if s.drbgGate ≠ 0 then (s, bad s.drbgGate)
  else
    let d := s.drbg 40
    let k := scalarFrom p256 d.1
    (d.2.modPair fun p => { p with privateKey := be 32 k, publicKey := p256.pub k }, ok)

/-- `NEW_PAIR_KEY` (R491). -/
def execNewPairKey (p : Path) (tag : Word16) (s : State) : Host.Outcome State Fault Refusal :=
  next s (hostCommand p tag 0x4B00 3 [1] newPairKey s.chip)

/-! ## The pair request (R492) -/

/-- The body of a pair request. -/
def pairBody (role : Nat) (q : PairReq) : Bytes := be 1 role ++ be 4 q.serial.toNat ++ [q.node] ++ q.key

/-- The request names no partner the device can have: 0xB002. (DEDUCED, log 86.) -/
def Chip.pairInvalid (s : Chip) (serial : Nat) : Bool :=
  (s.life.state != .provisioned && s.life.state != .service) ||
    match s.ringMember serial with
    | some m => m.2.cluster == s.cluster.clusterId.toNat
    | none => true

/-- The device is unpaired at once: what waits for the standby is answered, and 0xB007 records the partner. (DEDUCED, log 89.) -/
def Chip.unpair (s : Chip) : Chip :=
  if s.pair.state = .unpaired then s
  else
    let w := (match s.pair.awaiting with | some e => e.waiters | none => []) ++ s.pair.open_.waiters
    let t := s.modPair fun p =>
      { p with state := .unpaired, request := none, asActive := false, partnerState := [], partner := 0, node := 0, generation := 0, committed := 0
               awaiting := none, open_ := {}, syncLeft := 0, receiving := [], receivingEpoch := 0, encKey := [], macKey := [], partnerKey := [] }
    (w.foldl (fun t x => t.complete x.dest x.code x.data 0) t.releaseRecords).record 0xB007 3 (le 4 s.pair.partner.toNat)

/-- An accepted request with role active or standby: the device is pairing. -/
def Chip.beginPairing (role : Nat) (q : PairReq) (s : Chip) : Chip :=
  let w := (match s.pair.awaiting with | some e => e.waiters | none => []) ++ s.pair.open_.waiters
  let t := s.modPair fun p =>
    { p with state := .pairing, request := some q, asActive := role == 1, partnerState := [], partner := q.serial, node := q.node
             partnerKey := q.key, awaiting := none, open_ := {}, syncLeft := 0, receiving := [], receivingEpoch := 0 }
  (w.foldl (fun t x => t.complete x.dest x.code x.data 0) t.releaseRecords).sendPairState

/-- A pair request at the SI, in the order of R185: nonce, body, authorisations, then the checks of R492. (DEDUCED, log 86.) -/
def pairRequest (role : Nat) (q : PairReq) (r : Req) (s : Chip) : Chip × Reply :=
  let n := s.takeNonce r.dest q.nonce
  let s := n.2
  if n.1 = false then (s, bad 0x310C)
  else if p256.valid q.key = false then (s, bad 2)
  else if q.auths.length ≠ 136 then (s, bad 0x000D)
  else
    let c := s.checkAuths 0 (sha256 (tagJKPR ++ s.identity ++ q.nonce ++ pairBody role q)) q.auths
    if c ≠ 0 then (s, bad c)
    else if s.pairInvalid q.serial.toNat then (s, bad 0xB002)
    else if role = 0 then (s.unpair, ok) else (s.beginPairing role q, ok)

/-- The bytes of a pair request, in the layout of R183. -/
def pairBytes (role : Nat) (q : PairReq) : Bytes := let b := pairBody role q; q.nonce ++ le 2 b.length ++ b ++ q.auths

/-- A row of the pair request. -/
def pairRow (role : Nat) (p : Path) (tag : Word16) (q : PairReq) (s : Chip) : Chip :=
  hostWrite p tag 0x4B00 4 (pairBytes role q)
    (fun _ _ => if q.nonce.length ≠ 16 ∨ q.auths.length % 68 ≠ 0 then 0x0012 else if q.key.length ≠ 64 then 2 else 0)
    (pairRequest role q) s

/-- `PAIR_ACTIVE` (R492). -/
def execPairActive (p : Path) (tag : Word16) (req : PairReq) (s : State) : Host.Outcome State Fault Refusal := next s (pairRow 1 p tag req s.chip)
/-- `PAIR_STANDBY` (R492). -/
def execPairStandby (p : Path) (tag : Word16) (req : PairReq) (s : State) : Host.Outcome State Fault Refusal := next s (pairRow 2 p tag req s.chip)
/-- `UNPAIR` (R492). -/
def execUnpair (p : Path) (tag : Word16) (req : PairReq) (s : State) : Host.Outcome State Fault Refusal := next s (pairRow 0 p tag req s.chip)

/-! ## Synchronisation (R495) -/

/-- The entries of one session: itself, its ledger oldest first, and its last export. -/
def Chip.syncSession (n : Nat) (x : Session) (s : Chip) : Chip :=
  if x.isSpi then s
  else
    let s := s.journalSession n false
    let s := ((x.ledger.filter fun e => !e.inProgress).reverse).foldl (fun t e => t.journal false 6 (be 1 n ++ e.bytes ++ pad 16 e.data)) s
    if x.lastExport = [] then s else s.journal false 7 (be 1 n ++ be 2 x.lastExport.length ++ x.lastExport)

/-- The active journals its whole replicated state: owners 1 to 63 with their registries, their slots, and the
CAN-bound sessions. (DEDUCED, log 87.) -/
def Chip.synchronise (s : Chip) : Chip :=
  let s := s.modPair fun p => { p with state := .activeSync, awaiting := none, open_ := {} }
  let s := (List.range 63).foldl (fun t i => t.journalOwner (i + 1)) s
  let s := s.keys.slots.foldl (fun t e => t.journalSlot e.1) s
  let s := s.host.sessions.foldl (fun t e => t.syncSession e.1 e.2) s
  s.changePair fun p => { p with syncLeft := p.open_.entries.length }

/-- The standby discards its own state of owners 1 to 63. (DEDUCED, log 87.) -/
def Chip.discardReplica (s : Chip) : Chip :=
  let mine := s.keys.slots.filter fun e => e.2.owner ≠ 0
  let s := mine.foldl (fun t e => t.destroyKey e.1) s
  (s.modKeys fun k => { k with owners := k.owners.filter fun e => e.1 == 0 }).commitRegistry

/-! ## The pair forms (R492 to R494) -/

/-- The number lies outside the range of its port (R494). -/
def outOfRange (n : Nat) (x : Session) : Bool := if x.isSpi then decide (n ≤ 0x18) else decide (0x19 ≤ n)

/-- The partner's PAIR-STATE answers the device's own request: complementary role, equal firmware digest. -/
def Chip.pairMatches (s : Chip) : Bool :=
  let c := s.pair.partnerState
  decide (c.length = 46) && byteAt c 0 == (if s.pair.asActive then 2 else 1) && slice c 14 32 == pad 32 s.boot.digest

/-- `PAIR_FORMED`: keys are derived, generation and epoch start anew, and sessions outside their ranges end. (DEDUCED, log 86.) -/
def pairFormed (s : Chip) : Chip :=
  let p := s.pair
  if p.state ≠ .pairing ∨ p.request.isNone ∨ p.privateKey = [] ∨ s.runs 3 = false ∨ s.pairMatches = false then s
  else
    let standby := !p.asActive
    let s := s.endSessions fun n x => outOfRange n x || (standby && !x.isSpi)
    let s := s.modPair fun p =>
      { p with request := none, generation := 1, committed := 0, awaiting := none, open_ := {}, syncLeft := 0, receiving := [], receivingEpoch := 0
               state := if standby then .standbySync else .activeSync, lastState := s.clk.ticks }
    let s := s.derivePair.record 0xB001 3 (le 4 p.partner.toNat ++ le 4 1)
    if standby then s.discardReplica.sendPairState else s.synchronise

/-- `PAIR_FORMED` (R493). -/
def execPairFormed (s : State) : Host.Outcome State Fault Refusal := next s (pairFormed s.chip)

/-! ## Epochs (R498 to R500) -/

/-- The first entries of a body, up to the one with which it reaches `room` bytes (R498). (DEDUCED, log 88.) -/
def firstEntries : Nat → List Bytes → List Bytes
  | _, [] => []
  | room, e :: es => if room ≤ e.length then [e] else e :: firstEntries (room - e.length) es

/-- 64 KiB. -/
def bodyLimit : Nat := 65536

/-- The open epoch closes now (R498). -/
def Chip.closes (s : Chip) : Bool :=
  let e := s.pair.open_
  s.journals && s.pair.awaiting.isNone && e.entries != [] &&
    (e.keyChange || s.passedMs e.firstAt 2 || decide (bodyLimit ≤ e.entries.flatten.length))

/-- The body in AES-256-CTR under K_enc (R498). -/
def epochCipher (key : Bytes) (generation number : Nat) (b : Bytes) : Bytes :=
  ctr (keySchedule key) 4 (be 4 generation ++ be 8 number ++ List.replicate 4 0) b

/-- The commit record (Table 20.3). -/
def commitRecord (mac : Bytes) (generation number count : Nat) (body : Bytes) : Bytes :=
  let b := be 4 0x4A4B4352 ++ be 4 generation ++ be 8 number ++ be 2 count ++ be 4 body.length ++ sha256 body ++ [0, 0]
  b ++ cmac mac b

/-- The ENTRY messages of a body. -/
def Chip.sendEntries (number : Nat) : Nat → Nat → Bytes → Chip → Chip
  | 0, _, _, s => s
  | n + 1, off, b, s => if b = [] then s else (s.sendPair 1 (be 8 number ++ be 4 off ++ b.take 240)).sendEntries number n (off + 240) (b.drop 240)

/-- `EPOCH_CLOSE`: the body is encrypted and sent with its commit record; what lies beyond 64 KiB opens the next. -/
def epochClose (s : Chip) : Chip :=
  if s.closes = false then s
  else
    let p := s.pair
    let number := p.committed + 1
    let now := firstEntries bodyLimit p.open_.entries
    let rest := p.open_.entries.drop now.length
    let body := epochCipher p.encKey p.generation number now.flatten
    let e : Epoch := { number := number, entries := now, keyChange := p.open_.keyChange, firstAt := p.open_.firstAt
                       waiters := if rest = [] then p.open_.waiters else [], sentAt := s.clk.ticks }
    let s := s.modPair fun p =>
      { p with awaiting := some e, open_ := if rest = [] then {} else { p.open_ with entries := rest, firstAt := s.clk.ticks } }
    (s.sendEntries number (body.length / 240 + 1) 0 body).sendPair 2 (commitRecord p.macKey p.generation number now.length body)

/-- `EPOCH_CLOSE` (R498). -/
def execEpochClose (s : State) : Host.Outcome State Fault Refusal := next s (epochClose s.chip)

/-! ## What arrives over CH_17 -/

/-- A replication message of Table 20.4. -/
def isReplication (m : Bytes) : Bool := byteAt m 0 == 1 && decide (1 ≤ byteAt m 1) && decide (byteAt m 1 ≤ 4)

/-- The CI takes a message out of CH_17: true where it is the one at the front. A message of an unknown service is
dropped. -/
def Chip.takeMessage (kind : Nat) (content : Bytes) (s : Chip) : Bool × Chip :=
  match s.cluster.inbox.dropWhile fun m => !isReplication m with
  | m :: ms => if m = [1] ++ le 1 kind ++ content then (true, s.modCluster fun c => { c with inbox := ms }) else (false, s)
  | [] => (false, s)

/-- `ENTRY`: ciphertext of a new or of the partial epoch, in order (R500). -/
def takeEntry (content : Bytes) (s : Chip) : Chip :=
  let m := s.takeMessage 1 content
  let s := m.2
  let number := beNat (content.take 8)
  let off := beNat (slice content 8 4)
  let d := content.drop 12
  if m.1 = false ∨ content.length ≤ 12 ∨ 252 < content.length ∨ (s.pair.state ≠ .standbySync ∧ s.pair.state ≠ .standbySynced) then s
  else if off = 0 then s.modPair fun p => { p with receiving := d, receivingEpoch := number }
  else if number = s.pair.receivingEpoch ∧ off = s.pair.receiving.length then s.modPair fun p => { p with receiving := p.receiving ++ d }
  else s

/-- `ENTRY` (R500). -/
def execEntry (content : Bytes) (s : State) : Host.Outcome State Fault Refusal := next s (takeEntry content s.chip)

/-! ## The standby applies an epoch (R501) -/

/-- The entries of a decrypted body; none where their lengths do not fit. -/
def splitEntries : Nat → Bytes → Option (List (Nat × Bytes))
  | 0, b => if b = [] then some [] else none
  | n + 1, b =>
    let len := beNat (slice b 1 2)
    if b.length < 3 + len then none else (splitEntries n (b.drop (3 + len))).map fun l => (byteAt b 0, slice b 3 len) :: l

/-- A key from entry 0x01; its uses resume from the reservation. -/
def Chip.entryKey (s : Chip) (d : Bytes) : Key :=
  let type := byteAt d 3
  let life := beNat (slice d 16 8)
  let m := (slice d 24 48).take (keyLen type)
  { owner := byteAt d 2, type := d.getD 3 0, flags := d.getD 4 0, action := d.getD 5 0, usage := BitVec.ofNat 16 (beNat (slice d 6 2))
    limit := beNat (slice d 8 4), reserved := beNat (slice d 12 4), uses := beNat (slice d 12 4)
    expiry := if life = 2 ^ 64 - 1 then none else some (s.us + life), material := m, pub := publicOf type m
    generation := (SMap.get s.keys.slots {} (beNat (d.take 2))).generation }

/-- A ledger entry from entry 0x06. (DEDUCED, log 89.) -/
def entryLedger (d : Bytes) : LedgerEntry :=
  let idx := fieldAt d 13 2
  let sub := byteAt d 15
  { tag := BitVec.ofNat 16 (fieldAt d 1 2), result := BitVec.ofNat 16 (fieldAt d 3 2), digest := slice d 5 8, index := idx, sub := sub
    data := (d.drop 17).take (if isWindowData idx sub then 8 else 16) }

/-- The session of entry 0x05. -/
def Chip.entrySession (d : Bytes) (s : Chip) : Chip :=
  let n := byteAt d 0
  let old := SMap.get s.host.sessions { serial := s.host.nextSerial } n
  let x : Session := { old with level := (levelOf (byteAt d 1)).getD .observer, isSpi := false, client := fieldAt d 4 2, lastReq := s.clk.ticks }
  if byteAt d 8 = 1 then s.endSession n
  else s.modHost fun h => { h with sessions := h.sessions.put n x, nextSerial := h.nextSerial + 1 }

/-- One entry of Table 20.2 takes effect on the standby. -/
def Chip.applyEntry (e : Nat × Bytes) (s : Chip) : Chip :=
  let d := e.2
  match e.1 with
  | 1 => let k := s.entryKey d
         (s.modKeys fun x => { x with slots := x.slots.put (beNat (d.take 2)) k }).writeBlob (beNat (d.take 2))
  | 2 => s.destroyKey (beNat d)
  | 3 => (s.modKeys fun k => { k with owners := k.owners.upd {} (byteAt d 0) fun o =>
           { o with active := byteAt d 1 == 1, quota := beNat (slice d 2 2), name := slice d 4 16 } }).commitRegistry
  | 4 => (s.modKeys fun k => { k with owners := k.owners.upd {} (byteAt d 0) fun o =>
           { o with keys := (List.range (byteAt d 1)).map fun i => (i, slice d (2 + 64 * i) 64) } }).commitRegistry
  | 5 => s.entrySession d
  | 6 => s.modSession (byteAt d 0) fun x => { x with ledger := (entryLedger d :: x.ledger.filter fun y => y.tag != (entryLedger d).tag).take 64 }
  | _ => s.modSession (byteAt d 0) fun x => { x with lastExport := d.drop 3 }

/-- An entry has the length its type gives it (Table 20.2). -/
def entryOk (e : Nat × Bytes) : Bool :=
  match e.1 with
  | 1 => e.2.length == 72
  | 2 => e.2.length == 2
  | 3 => e.2.length == 20
  | 4 => decide (2 ≤ e.2.length) && e.2.length == 2 + 64 * byteAt e.2 1
  | 5 => e.2.length == 9
  | 6 => e.2.length == 33
  | 7 => decide (3 ≤ e.2.length) && e.2.length == 3 + beNat (slice e.2 1 2)
  | _ => false

/-- The checks of R501 on the whole body and its commit record: 0, or the ACK status. (DEDUCED, log 88.) -/
def Chip.commitStatus (s : Chip) (r : Bytes) : Nat :=
  let p := s.pair
  if r.length ≠ 72 ∨ beNat (r.take 4) ≠ 0x4A4B4352 then 1
  else if beNat (slice r 4 4) ≠ p.generation ∨ beNat (slice r 8 8) ≠ p.committed + 1 then 2
  else if p.receivingEpoch ≠ p.committed + 1 ∨ beNat (slice r 18 4) ≠ p.receiving.length ∨ slice r 22 32 ≠ sha256 p.receiving then 1
  else if (cmac p.macKey (r.take 56)).take 16 ≠ r.drop 56 then 1
  else 0

/-- The entries of the partial epoch; none where it cannot be applied. -/
def Chip.receivedEntries (s : Chip) (r : Bytes) : Option (List (Nat × Bytes)) :=
  let p := s.pair
  match splitEntries (beNat (slice r 16 2)) (epochCipher p.encKey p.generation (p.committed + 1) p.receiving) with
  | some l => if l.all entryOk ∧ s.runs 3 ∧ (s.flashFree ∨ l.all fun e => e.1 != 1) then some l else none
  | none => none

/-- A failed epoch is discarded whole, counted and recorded, and acknowledged with its status. -/
def Chip.discardEpoch (number status : Nat) (s : Chip) : Chip :=
  let s := s.modPair fun p => { p with receiving := [], receivingEpoch := 0, discarded := satAdd 32 p.discarded 1 }
  (s.record 0xB004 3 (le 8 number ++ le 1 status)).sendPair 3 (be 8 number ++ be 1 status)

/-- `COMMIT`: the epoch is applied whole, committed, and only then acknowledged (R501). -/
def takeCommit (content : Bytes) (s : Chip) : Chip :=
  let m := s.takeMessage 2 content
  let s := m.2
  let number := beNat (slice content 8 8)
  if m.1 = false ∨ (s.pair.state ≠ .standbySync ∧ s.pair.state ≠ .standbySynced) then s
  else
    let c := s.commitStatus content
    if c ≠ 0 then s.discardEpoch number c
    else match s.receivedEntries content with
      | none => s.discardEpoch number 3
      | some l =>
        let s := l.foldl (fun t e => t.applyEntry e) s
        let s := s.modPair fun p => { p with receiving := [], receivingEpoch := 0, committed := number, epochs := satAdd 32 p.epochs 1 }
        s.sendPair 3 (be 8 number ++ [0])

/-- `COMMIT` (R501). -/
def execCommit (content : Bytes) (s : State) : Host.Outcome State Fault Refusal := next s (takeCommit content s.chip)

/-! ## The active and its standby (R502, R503) -/

/-- The code with which a request that waited for a lost standby is answered (R503). -/
def lostCode (solo : Byte) (w : EpochWait) : Nat := if solo = 1 then 0xB003 else w.code

/-- The active declares its standby lost: waiting requests are answered, and records are released. (DEDUCED, log 88.) -/
def Chip.loseStandby (cause : Nat) (s : Chip) : Chip :=
  if s.journals = false then s
  else
    let p := s.pair
    let w := (match p.awaiting with | some e => e.waiters | none => []) ++ p.open_.waiters
    let number := match p.awaiting with | some e => e.number | none => p.committed
    let s := s.changePair fun p => { p with state := .activeLost, awaiting := none, open_ := {}, syncLeft := 0 }
    let s := (s.record 0xB003 3 (le 1 cause ++ le 8 number)).releaseRecords
    w.foldl (fun t x => t.complete x.dest (lostCode p.solo x) (if p.solo = 1 then [] else x.data) 0) s

/-- An epoch is acknowledged: it is committed, and what waited for it is answered (R502); with the last entry of a
synchronisation the device is paired. -/
def Chip.acknowledged (e : Epoch) (s : Chip) : Chip :=
  let us := (s.clk.ticks - e.sentAt) / 400
  let done := s.pair.state == .activeSync && decide (s.pair.syncLeft ≤ e.entries.length)
  let s := s.changePair fun p =>
    { p with awaiting := none, committed := e.number, epochs := satAdd 32 p.epochs 1, longest := max p.longest us
             syncLeft := p.syncLeft - e.entries.length, state := if done then .activePaired else p.state }
  let s := if done then s.record 0xB002 3 (le 8 e.number) else s
  e.waiters.foldl (fun t x => t.complete x.dest x.code x.data 0) s.releaseRecords

/-- `REPLICATION_ACK`: of the epoch that waits; a status other than 0x00 loses the standby (R501 to R503). -/
def takeReplicationAck (content : Bytes) (s : Chip) : Chip :=
  let m := s.takeMessage 3 content
  let s := m.2
  match s.pair.awaiting with
  | none => s
  | some e =>
    if m.1 = false ∨ content.length ≠ 9 ∨ beNat (content.take 8) ≠ e.number then s
    else if byteAt content 8 = 0 then s.acknowledged e
    else s.loseStandby 2

/-- `REPLICATION_ACK` (R503). -/
def execReplicationAck (content : Bytes) (s : State) : Host.Outcome State Fault Refusal := next s (takeReplicationAck content s.chip)

/-- `ACK_TIMEOUT`: no ACK within the ack timeout of the COMMIT. -/
def ackTimeout (s : Chip) : Chip :=
  match s.pair.awaiting with
  | some e => if s.overMs e.sentAt s.pair.ackMs then s.loseStandby 1 else s
  | none => s

/-- `ACK_TIMEOUT` (R503). -/
def execAckTimeout (s : State) : Host.Outcome State Fault Refusal := next s (ackTimeout s.chip)

/-- No PAIR-STATE has come for the takeover time. -/
def Chip.silent (s : Chip) : Bool := s.overMs s.pair.lastState s.pair.takeoverMs

/-- `PAIR_STATE_SILENCE` (R503). -/
def execPairStateSilence (s : State) : Host.Outcome State Fault Refusal := next s (if s.chip.silent then s.chip.loseStandby 3 else s.chip)

/-! ## PAIR-STATE (R500, R503, R506) -/

/-- `PAIR_STATE_SEND` (R500). -/
def execPairStateSend (s : State) : Host.Outcome State Fault Refusal := next s s.chip.sendPairState

/-- An active device that sees a higher generation is fenced: what waited is answered as not active. (DEDUCED, log 88.) -/
def Chip.fence (generation : Nat) (s : Chip) : Chip :=
  let w := (match s.pair.awaiting with | some e => e.waiters | none => []) ++ s.pair.open_.waiters
  let s := s.changePair fun p => { p with state := .fenced, awaiting := none, open_ := {}, syncLeft := 0 }
  (w.foldl (fun t x => t.complete x.dest 0xB001 [] 0) s.releaseRecords).record 0xB006 3 (le 4 generation)

/-- What a PAIR-STATE brings about. -/
def Chip.pairHeard (role state generation committed wasState : Nat) (s : Chip) : Chip :=
  let p := s.pair
  let active := p.state = .activeSync ∨ p.state = .activePaired ∨ p.state = .activeLost
  if active ∧ role = 1 ∧ p.generation < generation then s.fence generation
  else if generation ≠ p.generation then s
  else match p.state with
    | .activeLost => if role = 2 ∧ s.runs 3 then (s.modPair fun p => { p with committed := committed }).synchronise else s
    | .standbySync =>
      if role = 1 ∧ state = 3 then (s.changePair fun p => { p with state := .standbySynced }).record 0xB002 3 (le 8 p.committed)
      else if role = 1 ∧ state = 2 ∧ wasState ≠ 2 then s.discardReplica else s
    | .standbySynced =>
      if role = 1 ∧ state = 2 ∧ wasState ≠ 2 then s.discardReplica.changePair fun p => { p with state := .standbySync } else s
    | _ => s

/-- `PAIR_STATE`: the partner's message is kept with its time, and acts on the pair state. (DEDUCED, log 87.) -/
def takePairState (content : Bytes) (s : Chip) : Chip :=
  let m := s.takeMessage 4 content
  let s := m.2
  if m.1 = false ∨ content.length ≠ 46 ∨ s.pair.state = .unpaired then s
  else
    let was := byteAt s.pair.partnerState 1
    let s := s.modPair fun p => { p with partnerState := content, lastState := s.clk.ticks }
    s.pairHeard (byteAt content 0) (byteAt content 1) (beNat (slice content 2 4)) (beNat (slice content 6 8)) was

/-- `PAIR_STATE` (R500). -/
def execPairState (content : Bytes) (s : State) : Host.Outcome State Fault Refusal := next s (takePairState content s.chip)

/-! ## Takeover (R504, R505) -/

/-- The order of R505. (DEDUCED, log 88.) -/
def Chip.takeOver (s : Chip) : Chip :=
  let partial_ := s.pair.receiving != []
  let s := s.modPair fun p =>
    { p with receiving := [], receivingEpoch := 0, discarded := if partial_ then satAdd 32 p.discarded 1 else p.discarded
             generation := p.generation + 1 }
  let s := s.modHost fun h => { h with sessions := h.sessions.map fun e => (e.1, if e.2.isSpi then e.2 else { e.2 with lastReq := s.clk.ticks }) }
  let s := s.derivePair.changePair fun p => { p with asActive := true, state := .activeLost, takeovers := p.takeovers + 1 }
  s.record 0xB005 3 (le 4 s.pair.generation ++ le 8 s.pair.committed)

/-- The consumed heartbeat that names the partner is lost (R143, R504). -/
def Chip.partnerLost (s : Chip) : Bool := s.host.consumers.any fun c => c.2.lost && (c.2.entry.toNat / 65536) % 128 == s.pair.node.toNat

/-- `AUTOMATIC_TAKEOVER`: silence on the ring and on the buses. -/
def automaticTakeover (s : Chip) : Chip :=
  if s.pair.state = .standbySynced ∧ s.pair.takeover = 1 ∧ s.silent ∧ s.partnerLost then s.takeOver else s

/-- `AUTOMATIC_TAKEOVER` (R504). -/
def execAutomaticTakeover (s : State) : Host.Outcome State Fault Refusal := next s (automaticTakeover s.chip)

/-- A write of 0x01 to 0x4B00:0E. -/
def takeOverWrite (_ : Req) (s : Chip) : Chip × Reply :=
  if s.pair.state = .standbySynced ∧ s.silent then (s.takeOver, ok) else (s, bad 0xB004)

/-- `TAKE_OVER` (R504). -/
def execTakeOver (p : Path) (tag : Word16) (s : State) : Host.Outcome State Fault Refusal :=
  next s (hostCommand p tag 0x4B00 0xE [1] takeOverWrite s.chip)

/-- Writes of 0x4B00:03, :04 and :0E. -/
def pairRule (sub : Nat) (b : Bytes) : WriteRule :=
  match sub with
  | 3 => cmdRule (decide (leNat b = 1)) newPairKey
  | 4 =>
    let n := fieldAt b 16 2
    let q : PairReq := { nonce := b.take 16, serial := BitVec.ofNat 32 (beNat (slice b 19 4)), node := b.getD 23 0, key := slice b 24 64, auths := b.drop 88 }
    ⟨fun _ _ => if b.length < 18 + n ∨ (b.length - (18 + n)) % 68 ≠ 0 then 0x0012 else if n ≠ 70 ∨ 2 < byteAt b 18 then 2 else 0,
      pairRequest (byteAt b 18) q, id⟩
  | _ => cmdRule (decide (leNat b = 1)) takeOverWrite

end Sys2Proof.Machine
end

