-- ==== Sys2Proof/Machine/Reading.lean ====
section
/-! DEFINITION. What a read of any object answers. -/

namespace Sys2Proof.Machine

/-- The value of an object that no read changes, as session `n` reads it. (DEDUCED, log 27.) -/
def Chip.value (s : Chip) (a : RecArray) (n idx sub : Nat) : Bytes :=
  if idx < 0x2000 then s.readComm idx sub
  else if idx = 0x2000 ∨ idx = 0x2001 ∨ idx = 0x2003 ∨ idx = 0x2020 then s.readDevice idx sub
  else if idx < 0x2300 then s.readHostObj n idx sub
  else if idx < 0x2600 then s.readBoot idx sub
  else if idx < 0x2680 then s.readClock idx sub
  else if idx = 0x2680 then s.readTime n sub
  else if idx = 0x2700 then s.readRouter n sub
  else if idx = 0x2800 then s.readWatchdog sub
  else if idx = 0x2900 then s.readRecorderObj a n sub
  else if idx = 0x2A00 then s.readTraceObj n sub
  else if idx = 0x2B00 then s.readActivities sub
  else if idx < 0x3040 then s.readLane (idx - 0x3000) sub
  else if idx < 0x3200 then s.readSeq (idx - 0x3100) sub
  else if idx < 0x3300 then s.readWindow n idx sub
  else if idx = 0x3300 then s.readSegment n sub
  else if idx < 0x3500 then s.readTiming n (idx - 0x3400) sub
  else if idx = 0x3500 then s.readGenerator n sub
  else if idx = 0x3600 then s.readPort n sub
  else if idx = 0x3700 then s.readSealed n sub
  else if idx = 0x3800 then s.readAcq n sub
  else if idx = 0x3900 then s.readLevel n sub
  else if idx = 0x4000 ∨ idx = 0x4400 ∨ idx = 0x4600 then s.readCrypto n idx sub
  else if idx < 0x4200 then s.readOwner (idx - 0x4100) sub
  else if idx < 0x4800 then s.readKeys n idx sub
  else if idx = 0x4800 then s.readMemory sub
  else if idx < 0x4900 then s.readChannel (idx - 0x4801) sub
  else if idx = 0x4900 then s.readAdmission n sub
  else if idx = 0x4A00 then s.readCluster sub
  else if idx = 0x4B00 then s.readPair sub
  else s.readWindow n idx sub

/-- The owner's part of a read of any object but the window data: most answer a value, and some change the device as
they are read. -/
def readObject (a : RecArray) (idx sub : Nat) (r : Req) (s : Chip) : Chip × ReadReply :=
  let n := r.dest.session
  let d : ReadReply := .data (s.value a n idx sub)
  match idx, sub with
  | 0x2200, 2 => readSessionNonce r s
  | 0x2400, 5 => readTransitionNonce r s
  | 0x2680, 1 => (s.modSession n fun x => { x with nowFraction := s.clk.action % 256 }, d)
  | 0x2900, 3 => readRecorder a r s
  | 0x2A00, 6 => readTrace r s
  | 0x3900, 0x0C => (s.modLv (s.sel n 0x3900 1) fun c => { c with saturated := false }, d)
  | 0x4200, 2 => readOpNonce r s
  | _, _ => (s, d)

/-- A host read of any object; `len` is the byte count of an SPI frame. -/
def objectRead (a : RecArray) (p : Path) (tag : Word16) (idx sub len : Nat) (s : Chip) : Chip :=
  if isWindowData idx sub then windowRead p tag idx len s else hostRead p tag idx sub (readObject a idx sub) s

end Sys2Proof.Machine
end

