-- ==== Sys2Proof/Machine/Store.lean ====
section
/-! DEFINITION. Storing the persistent objects (R123, R523): the stored image with the selectors of every value, its
limit of 96 KiB, and the store of a range. The image is applied at start-up (`Restore`). -/

namespace Sys2Proof.Machine

/-! ## The values of every selection (R523) -/

/-- Every value of one selector. -/
def oneSelector (idx sub n : Nat) : List (List (Nat × Nat)) := (List.range n).map fun i => [(256 * idx + sub, i)]

/-- Every pair of values of two selectors of an object. -/
def twoSelectors (idx a n b m : Nat) : List (List (Nat × Nat)) :=
  (List.range n).flatMap fun i => (List.range m).map fun j => [(256 * idx + a, i), (256 * idx + b, j)]

/-- The selections through which a persistent object is reached: its selectors with their values (R523). -/
def selections (idx sub : Nat) : List (List (Nat × Nat)) :=
  if idx = 0x2700 ∧ sub = 2 then oneSelector idx 1 96
  else if 0x3400 ≤ idx ∧ idx < 0x3410 then (if sub = 4 then twoSelectors idx 1 16 3 64 else oneSelector idx 1 16)
  else if idx = 0x3500 then (if sub = 7 then twoSelectors idx 1 16 6 16 else oneSelector idx 1 16)
  else if idx = 0x3600 then oneSelector idx 1 16
  else if idx = 0x3700 then (if sub = 2 then oneSelector idx 1 256 else oneSelector idx 3 16)
  else if idx = 0x3800 then oneSelector idx 1 16
  else if idx = 0x3900 then oneSelector idx 1 16
  else if idx = 0x4900 ∧ sub = 0x0B then oneSelector idx 0x0A 16
  else [[]]

/-- The session number under which the device itself reads and restores its values: no client's (R118). -/
def ownSession : Nat := 0xFF

/-- The device with its own session at a selection. -/
def Chip.selecting (sels : List (Nat × Nat)) (s : Chip) : Chip :=
  s.modHost fun h => { h with sessions := h.sessions.put ownSession { level := .vendor, isSpi := true, selectors := sels.foldl (fun m x => m.set 0 x.1 x.2) [] } }

/-- The persistent objects of a range. -/
def persistent (g : StoreRange) : List (Nat × Nat) :=
  objGroups.flatMap fun o => (List.range o.count).flatMap fun i =>
    if inRange g (o.base + i) then
      (o.rows.filter (·.persist)).flatMap fun r => (List.range (r.hi + 1 - r.lo)).map fun j => (o.base + i, r.lo + j)
    else []

/-- The value of one selection. -/
def Chip.storedValue (s : Chip) (idx sub : Nat) (sels : List (Nat × Nat)) : Bytes := (s.selecting sels).value {} ownSession idx sub

/-- A lane that is a member of an enabled port takes its mode from the port (R291). (DESIGN CHOICE, log 91.) -/
def followsPort (idx sub : Nat) (v : Bytes) : Bool := decide (0x3000 ≤ idx) && decide (idx < 0x3040) && sub == 1 && v == [3]

/-- The values of a range that differ from their defaults (R523). (DESIGN CHOICE, log 91.) -/
def Chip.storeImage (s : Chip) (g : StoreRange) : List Stored :=
  (persistent g).flatMap fun o => (selections o.1 o.2).filterMap fun sels =>
    let v := s.storedValue o.1 o.2 sels
    if v = ({} : Chip).storedValue o.1 o.2 sels ∨ followsPort o.1 o.2 v then none
    else some { index := o.1, sub := o.2, sels := sels, value := v }

/-- The bytes an image takes (log 6). -/
def imageBytes (l : List Stored) : Nat := (l.map fun e => e.value.length + Config.storeOverhead e.sels.length).sum

/-- The store after a range has been stored: the other range's values stay. -/
def Chip.storeAfter (s : Chip) (g : StoreRange) (l : List Stored) : List Stored := (s.boot.store.filter fun e => !inRange g e.index) ++ l

/-! ## The commands -/

/-- A store begins with the current values; it is busy while one is in progress, store failed past 96 KiB, and refused
with flash space exhausted (R123, R460, R523, Table 5.9). (DESIGN CHOICE, log 91.) -/
def beginStore (g : StoreRange) (r : Req) (s : Chip) : Chip × Reply :=
  let l := s.storeImage g
  if s.boot.storing.isSome then (s, .busy 250)
  else if 98304 < imageBytes (s.storeAfter g l) then (s, bad 0x0018)
  else if s.flashFree = false then (s, bad 0x2006)
  else (s.modBoot fun b => { b with storing := some (g, l, { dest := r.dest }) }, .later)

/-- Writes of 0x1010. -/
def storeRule (sub : Nat) (b : Bytes) : WriteRule := cmdRule (decide (leNat b = saveWord)) (beginStore (rangeOf sub))

/-- `STORE_PARAMETERS` (R123). -/
def execStoreParameters (p : Path) (range : StoreRange) (s : State) : Host.Outcome State Fault Refusal :=
  next s (hostCommand p 0 0x1010 (rangeSub range) (le 4 saveWord) (beginStore range) s.chip)

/-- `STORE_COMPLETE`: the copy is committed, a pending restore of its range is cancelled, and the write is answered. -/
def storeComplete (s : Chip) : Chip :=
  match s.boot.storing with
  | none => s
  | some (g, l, w) =>
    let s := s.modBoot fun b =>
      { b with storing := none, store := s.storeAfter g l
               restoreComm := b.restoreComm && !inRange g 0x1000, restoreDev := b.restoreDev && !inRange g 0x2000 }
    s.useBlock.completeWaiter w 0 []

/-- `STORE_COMPLETE` (R123). -/
def execStoreComplete (s : State) : Host.Outcome State Fault Refusal := next s (storeComplete s.chip)

/-- `RESTORE_DEFAULTS` (R123). -/
def execRestoreDefaults (p : Path) (range : StoreRange) (s : State) : Host.Outcome State Fault Refusal :=
  next s (hostCommand p 0 0x1011 (rangeSub range) (le 4 loadWord) (markRestore range) s.chip)

end Sys2Proof.Machine
end

