-- ==== Sys2Proof/Machine/Objects.lean ====
section
/-! DEFINITION. What a write to any object does (`OBJECT_WRITE`, R31), and the requests that waited in CH_01. -/

namespace Sys2Proof.Machine

/-! ## Writes -/

/-- What a write of `b` does, for every object but 0x2200:10, 0x2400:04 and the window data; `used` is the number of
recorder slots used. -/
def writeRule (used idx sub : Nat) (b : Bytes) : WriteRule :=
  if idx = 0x1010 then storeRule sub b
  else if idx < 0x2000 then commRule idx sub b
  else if idx = 0x2000 ∨ idx = 0x2001 ∨ idx = 0x2003 ∨ idx = 0x2020 then deviceRule idx sub b
  else if idx < 0x2300 then hostRule idx sub b
  else if idx < 0x2600 then bootRule idx sub b
  else if idx < 0x2700 then clockRule idx sub b
  else if idx = 0x2700 then routerRule sub b
  else if idx < 0x3000 then serviceRule used idx sub b
  else if idx < 0x3040 then laneRule (idx - 0x3000) sub b
  else if idx < 0x3200 then seqRule (idx - 0x3100) sub b
  else if idx < 0x3300 then windowRule idx sub b
  else if idx = 0x3300 then segmentRule sub b
  else if idx < 0x3500 then timingRule (idx - 0x3400) sub b
  else if idx = 0x3500 then generatorRule sub b
  else if idx = 0x3600 then portRule sub b
  else if idx = 0x3700 then sealedRule sub b
  else if idx = 0x3800 then acqRule sub b
  else if idx = 0x3900 then levelRule sub b
  else if idx < 0x4800 then secureRule idx sub b
  else if idx < 0x4A00 then memoryRule idx sub b
  else if idx = 0x4B00 ∧ (sub = 3 ∨ sub = 4 ∨ sub = 0x0E) then pairRule sub b
  else if idx < 0x5000 then clusterRule idx sub b
  else windowRule idx sub b

/-- A host write of any object. -/
def objectWrite (used : Nat) (p : Path) (tag : Word16) (idx sub : Nat) (b : Bytes) (s : Chip) : Chip :=
  if isWindowData idx sub then windowWrite p tag idx b s
  else if idx = 0x2200 ∧ sub = 0x10 then sessionOpen p b s
  else if idx = 0x2400 ∧ sub = 4 then lifeCycleTransition p tag (b.getD 0 0) (b.getD 1 0) (slice b 2 16) (b.drop 18) [] none s
  else
    let r := writeRule used idx sub b
    hostThen p tag idx sub b r.chk r.act r.after s

/-- `OBJECT_WRITE` (R31). -/
def execObjectWrite (p : Path) (tag index : Word16) (sub : Byte) (payload : Bytes) (s : State) : Host.Outcome State Fault Refusal :=
  next s (objectWrite s.array.next p tag index.toNat sub.toNat payload s.chip)

/-! ## CH_01 after a halt (R22, R168) -/

/-- What a request of an ended session does, with the selectors its session had: it completes in its island, whatever session has
its number now, and that session stays as it was (R121). -/
def Chip.asEnded (t : Target) (f : Chip → Chip) (s : Chip) : Chip :=
  match s.host.endedSels.find? t.serial with
  | none => f s
  | some m =>
    let present := s.host.sessions.find? t.session
    let u := f (s.modHost fun h => { h with sessions := h.sessions.put t.session { serial := h.nextSerial, selectors := m } })
    u.modHost fun h =>
      { h with
        sessions := match present with
          | some x => h.sessions.put t.session x
          | none => h.sessions.erase t.session
        endedSels := match h.sessions.find? t.session with
          | some x => h.endedSels.put t.serial x.selectors
          | none => h.endedSels }

/-- A request that waited in CH_01 does its work. -/
def runCiRequest (a : RecArray) (q : CiReq) (s : Chip) : Chip :=
  let t := q.dest
  let r : Req := ⟨t, q.level⟩
  if q.reading then
    if t.session ≠ 0 ∧ (s.sessionOf t).isNone then s.freeEntry t
    else if isWindowData t.index t.sub then
      let y := windowFetch t.index (leNat q.payload) r s
      match y.2 with
      | .data b => y.1.completeRead t 0 b
      | .refused c => y.1.completeRead t c []
      | .later => y.1
    else
      let y := readObject a t.index t.sub r s
      match y.2 with
      | .data b => y.1.completeRead t 0 b
      | .refused c => y.1.completeRead t c []
      | .later => y.1
  else if isWindowData t.index t.sub then Chip.finish t (windowStore t.index q.payload r s)
  else
    let w := writeRule a.next t.index t.sub q.payload
    let x := w.act r s
    if x.2 = ok then w.after (Chip.finish t x) else Chip.finish t x

/-- A request that waited in CH_01 reaches the CI. -/
def takeCiRequest (a : RecArray) (s : Chip) (q : CiReq) : Chip :=
  if q.dest.session ≠ 0 ∧ (s.sessionOf q.dest).isNone then s.asEnded q.dest (runCiRequest a q) else runCiRequest a q s

/-- CH_01 is emptied in order. (DEDUCED, log 9.) -/
def drainCh01 (a : RecArray) (s : Chip) : Chip :=
  (s.host.ch01.foldl (takeCiRequest a) (s.modHost fun h => { h with ch01 := [] })).modHost fun h => { h with endedSels := [] }

end Sys2Proof.Machine
end

