-- ==== Sys2Proof/Machine/Restore.lean ====
section
/-! DEFINITION. Stored values put in force (R10, R124): each is written through the rules of its object, and one that
its owner refuses keeps the default. -/

namespace Sys2Proof.Machine

/-- The request under which the device restores a value. -/
def restoreReq (e : Stored) : Req :=
  ⟨{ path := .spi 0, session := ownSession, tag := 0, index := e.index, sub := e.sub }, .vendor⟩

/-- What a stored value's checks answer: its length, its range and its owner's own. -/
def Chip.tryRestore (s : Chip) (e : Stored) : Chip × Nat :=
  let w := writeRule 0 e.index e.sub e.value
  let r := restoreReq e
  match lookup e.index e.sub with
  | .found row =>
    if row.persist = false then (s, 2)
    else if row.size.ok e.value.length = false then (s, 0x0012)
    else if w.chk r s ≠ 0 then (s, w.chk r s)
    else
      let x := w.act r s
      match x.2 with
      | .done c _ => (x.1, c)
      | .busy _ => (s, 1)
      | .later => (x.1, 0)
  | _ => (s, 0x000E)

/-- One stored value: put in force, or its default kept with a configuration-refused record (R124). -/
def Chip.restoreOne (s : Chip) (e : Stored) : Chip :=
  let x := (s.selecting e.sels).tryRestore e
  let drop (t : Chip) : Chip := t.modHost fun h => { h with sessions := h.sessions.erase ownSession }
  if x.2 = 0 then drop x.1
  else s.record 0x0004 ((groupIsland e.index).getD (ownerOf e.index e.sub)) (le 2 e.index ++ le 1 e.sub ++ le 2 x.2)

/-- The order in which values are put in force: a TPDO's mapping, its parameters and then its COB-ID, and a port's
enable after its configuration. (DESIGN CHOICE, log 91.) -/
def restoreRank (e : Stored) : Nat :=
  if 0x1A00 ≤ e.index ∧ e.index ≤ 0x1A0F then (if e.sub = 0 then 1 else 0)
  else if 0x1800 ≤ e.index ∧ e.index ≤ 0x180F then (if e.sub = 1 then 3 else 2)
  else if e.index = 0x3600 ∧ e.sub = 2 then 5 else 4

/-- The stored values of a range are put in force (R124). (DESIGN CHOICE, log 91.) -/
def Chip.restoreStored (g : StoreRange) (s : Chip) : Chip :=
  let l := s.boot.store.filter fun e => inRange g e.index
  ((List.range 6).flatMap fun k => l.filter fun e => restoreRank e == k).foldl Chip.restoreOne s

end Sys2Proof.Machine
end

