-- ==== Sys2Proof/Machine/Can.lean ====
section
/-! DEFINITION. The CAN services beside the USDO server (R105 to R110, R140 to R143, R526): SYNC with the TPDOs,
TIME, NMT, heartbeats, bus-off and error passive, EMCY inhibit, and the USDO timeout. -/

namespace Sys2Proof.Machine

/-- A controller receives: the HI serves and the controller is on its bus (R74, R110). -/
def Chip.hears (s : Chip) (b : Bus) : Bool := s.host.online && s.onBus b

/-! ## SYNC, TIME and TPDOs (R107, R108) -/

/-- The content of a TPDO: its mapped objects in order. -/
def Chip.pdoContent (s : Chip) (a : RecArray) (n : Nat) : Bytes :=
  (s.host.pdoObjects n).flatMap fun o => s.value a 0 o.1 o.2

/-- A frame of this format is taken: classical or FD with the ISO CRC, and no remote frame (R105). -/
def canTaken : CanFormat → Bool
  | .classical => true
  | .fd => true
  | .fdBrs => true
  | .nonIso => false
  | .remote => false

/-- The format of what the device sends on a bus: answers of the USDO server and messages go out as FD frames with the
bit-rate switch set (R105). -/
def Output.format : Output → Option CanFormat
  | .can _ f _ _ => some f
  | .answer t _ _ _ => if pathSpi t.path then none else some .fdBrs
  | .readAnswer p _ _ _ _ => if pathSpi p then none else some .fdBrs
  | .usdoAbort _ _ _ => some .fdBrs
  | _ => none

/-- A bit timing of Table 5.1: bit rate, prescaler, time quanta per bit and sample point in %. -/
structure BitTiming where
  rate : Nat
  prescaler : Nat
  quanta : Nat
  sample : Nat
  deriving DecidableEq, Repr

/-- The nominal codes (Table 5.1). -/
def nominalTiming (code : Nat) : Option BitTiming :=
  [⟨125000, 2, 320, 80⟩, ⟨250000, 1, 320, 80⟩, ⟨500000, 1, 160, 80⟩, (⟨1000000, 1, 80, 80⟩ : BitTiming)][code]?

/-- The data codes (Table 5.1). -/
def dataTiming (code : Nat) : Option BitTiming :=
  [⟨1000000, 1, 80, 75⟩, ⟨2000000, 1, 40, 75⟩, ⟨4000000, 1, 20, 75⟩, ⟨5000000, 1, 16, 75⟩, (⟨8000000, 1, 10, 70⟩ : BitTiming)][code]?

/-- The resynchronisation jump width of a timing: the phase segment after the sample point, in time quanta (R106). -/
def BitTiming.jump (t : BitTiming) : Nat := t.quanta * (100 - t.sample) / 100

/-- Transmitter delay compensation of a data code, with its offset in time quanta: the sample point of the data phase, for
codes 0x02 to 0x04 (R106). -/
def delayCompensation (code : Nat) : Option Nat :=
  if code < 2 then none else (dataTiming code).map fun t => t.quanta * t.sample / 100

/-- The timings a controller runs with: those of the codes in force (R106). -/
def CanCtl.timing (c : CanCtl) : Option BitTiming × Option BitTiming := (nominalTiming c.nominal.toNat, dataTiming c.dataCode.toNat)

/-- A TPDO goes out on every bus whose controller is on the bus (R107). -/
def Chip.sendPdo (n : Nat) (d : Bytes) (s : Chip) : Chip :=
  let id := fieldAt (s.host.pdoComm n 1) 0 4 % 0x800
  ((s.sendCan .canA id d).sendCan .canB id d).modHost fun h =>
    { h with tpdoCount := h.tpdoCount.erase n, tpdoLast := h.tpdoLast.set [] n d, tpdoAt := h.tpdoAt.put n s.clk.ticks }

/-- A synchronous TPDO at a SYNC: of type 1 to 240 at every SYNC of that number, of type 0 when its content has
changed. (PRESUMED, log 32.) (DESIGN CHOICE, log 92.) -/
def Chip.syncPdo (a : RecArray) (s : Chip) (n : Nat) : Chip :=
  let t := byteAt (s.host.pdoComm n 2) 0
  let d := s.pdoContent a n
  if s.host.pdoValid n = false ∨ 240 < t then s
  else if t = 0 then (if SMap.get s.host.tpdoLast [] n = d then s else s.sendPdo n d)
  else if t ≤ SMap.get s.host.tpdoCount 0 n + 1 then s.sendPdo n d
  else s.modHost fun h => { h with tpdoCount := h.tpdoCount.upd 0 n (· + 1) }

/-- An event-driven TPDO, of type 254 or 255: it goes out when its content has changed, and at the end of its event timer
(sub-index 05, ms), no sooner after the last than its inhibit time (sub-index 03, 100 µs). (PRESUMED, log 32.) (DESIGN CHOICE, log 92.) -/
def Chip.eventPdo (a : RecArray) (s : Chip) (n : Nat) : Chip :=
  let since := SMap.get s.host.tpdoAt 0 n
  let timer := fieldAt (s.host.pdoComm n 5) 0 2
  if s.host.pdoValid n = false ∨ byteAt (s.host.pdoComm n 2) 0 < 254 ∨
      s.passedUs since (100 * fieldAt (s.host.pdoComm n 3) 0 2) = false then s
  else
    let d := s.pdoContent a n
    if SMap.get s.host.tpdoLast [] n ≠ d ∨ (timer ≠ 0 ∧ s.passedMs since timer) then s.sendPdo n d else s

/-- The event-driven TPDOs while operational (R107, R109). -/
def Chip.eventPdos (a : RecArray) (s : Chip) : Chip :=
  if s.host.online ∧ s.host.nmt = .operational then (List.range 16).foldl (Chip.eventPdo a) s else s

/-- A SYNC is received: one on CAN_A keeps CAN_A in use; on the bus in use it drives the synchronous TPDOs while
operational (R108, R109). (DEDUCED, log 93.) -/
def canopenSync (a : RecArray) (b : Bus) (f : CanFormat) (s : Chip) : Chip :=
  if s.hears b = false ∨ canTaken f = false then s
  else
    let s := if b = .canA then s.modHost fun h => { h with lastSyncA := some s.clk.ticks } else s
    if s.syncBusNow = some b ∧ s.host.nmt = .operational then (List.range 16).foldl (Chip.syncPdo a) s else s

/-- `CANOPEN_SYNC` (R108). -/
def execCanopenSync (rx : CanRx) (s : State) : Host.Outcome State Fault Refusal := next s (canopenSync s.array rx.bus rx.format s.chip)

/-- A TIME message on the bus in use is stored with its action time, where 0x1012 consumes TIME (R108, R109). (DEDUCED, log 93.) -/
def timeMessage (b : Bus) (f : CanFormat) (content : BitVec 48) (s : Chip) : Chip :=
  if s.hears b ∧ canTaken f ∧ s.syncBusNow = some b ∧ s.host.nmt = .operational ∧ s.host.cobTime.getLsbD 31 then
    s.modClk fun c => { c with lastTime := content, timeAt := s.actionNs }
  else s

/-- `TIME_MESSAGE` (R108). -/
def execTimeMessage (rx : CanRx) (content : BitVec 48) (s : State) : Host.Outcome State Fault Refusal :=
  next s (timeMessage rx.bus rx.format content s.chip)

/-- CAN_A has delivered no SYNC for three cycle periods: SYNC and TIME come from CAN_B (R108). -/
def syncSourceTimeout (s : Chip) : Chip :=
  if s.host.cyclePeriod = 0 then s else s.modHost fun h => { h with lastSyncA := none }

/-- `SYNC_SOURCE_TIMEOUT` (R108). -/
def execSyncSourceTimeout (s : State) : Host.Outcome State Fault Refusal := next s (syncSourceTimeout s.chip)

/-! ## NMT (R109, R70, R526) -/

/-- The CAN and heartbeat conditions: error passive of each bus, and consumed heartbeat lost. -/
def canCondition (c : Condition) : Bool := decide (5000 ≤ c.key) && decide (c.key < 7000)

/-- The communication objects return to their stored values (R10, Table 3.2). (DEDUCED, log 94.) -/
def Chip.resetComm (s : Chip) : Chip :=
  let h : HostServices := {}
  (s.modHost fun x =>
    { x with cobSync := h.cobSync, cyclePeriod := h.cyclePeriod, cobTime := h.cobTime, inhibit := h.inhibit, consumers := []
             heartbeat := h.heartbeat, tpdoComm := [], tpdoMap := [], tpdoCount := [], tpdoLast := [], tpdoAt := [] }).restoreStored .communication

/-- A controller is reset: it leaves its bus with what it holds. -/
def CanCtl.reset (c : CanCtl) : CanCtl := { c with status := .heldOff, waiting := [], inhibited := false }

/-- The codes of 0x2201 take effect (R106). -/
def Chip.takeBitCodes (s : Chip) : Chip :=
  (s.modCtl .canA fun c => { c with nominal := s.bitCode 1, dataCode := s.bitCode 2 }).modCtl .canB fun c =>
    { c with nominal := s.bitCode 3, dataCode := s.bitCode 4 }

/-- The lasting conditions that hold are sent again (R526). (DEDUCED, log 94.) -/
def Chip.resendConditions (s : Chip) : Chip :=
  s.host.conditions.foldl (fun t c => t.emcySend { c.emcy with register := t.host.conditionBits }) s

/-- NMT reset communication (R70, R106, R526, Table 3.2). (DEDUCED, log 94.) -/
def nmtReset (s : Chip) : Chip :=
  let s := (s.endSessions fun _ x => !x.isSpi).record 0x0003 0 [0, 4]
  let s := s.modHost fun h =>
    { h with errorReg := 0, errors := [], eventBits := 0, conditions := h.conditions.filter fun c => !canCondition c }
  let s := ((s.modCtl .canA CanCtl.reset).modCtl .canB CanCtl.reset).resetComm.takeBitCodes
  s.initCan.resendConditions

/-- An NMT command is obeyed from either bus, unless an identical one was obeyed from the other bus within 10 ms
(R109). (PRESUMED, log 32.) (DEDUCED, log 93.) -/
def nmtCommand (b : Bus) (f : CanFormat) (spec node : Byte) (s : Chip) : Chip :=
  let recent := s.host.lastNmt.filter fun (x : Bus × Byte × Byte × Nat) => decide (s.clk.ticks ≤ x.2.2.2 + 4000000)
  let dup := recent.any fun (x : Bus × Byte × Byte × Nat) => x.1 != b && x.2.1 == spec && x.2.2.1 == node
  if s.hears b = false ∨ canTaken f = false ∨ (node ≠ 0 ∧ node.toNat ≠ s.nodeId) ∨ dup then s
  else
    let t := s.modHost fun h => { h with lastNmt := recent ++ [(b, spec, node, s.clk.ticks)] }
    match spec.toNat with
    | 0x01 => t.modHost fun h => { h with nmt := .operational }
    | 0x02 => t.modHost fun h => { h with nmt := .stopped }
    | 0x80 => t.modHost fun h => { h with nmt := .preOperational }
    | 0x81 => chipReset 0x80 t
    | 0x82 => nmtReset t
    | _ => s

/-- `NMT_COMMAND` (R109). -/
def execNmtCommand (rx : CanRx) (specifier node : Byte) (s : State) : Host.Outcome State Fault Refusal :=
  next s (nmtCommand rx.bus rx.format specifier node s.chip)

/-- `NMT_RESET_COMMUNICATION`: the command for all nodes, on a bus (R70). -/
def execNmtResetCommunication (bus : Bus) (s : State) : Host.Outcome State Fault Refusal :=
  next s (nmtCommand bus .classical 0x82 0 s.chip)

/-! ## Heartbeats (R143) -/

/-- The state byte of a heartbeat. -/
def NmtState.byte : NmtState → Byte
  | .preOperational => 0x7F
  | .operational => 0x05
  | .stopped => 0x04

/-- The heartbeat goes out on both buses at the period of 0x1017; a period of zero sends none (R143). -/
def heartbeatSend (s : Chip) : Chip :=
  if s.host.online = false ∨ s.host.heartbeat = 0 ∨ s.passedMs s.host.lastBeat s.host.heartbeat.toNat = false then s
  else
    ((s.sendCan .canA (0x700 + s.nodeId) [s.host.nmt.byte]).sendCan .canB (0x700 + s.nodeId) [s.host.nmt.byte]).modHost fun h =>
      { h with lastBeat := s.clk.ticks }

/-- `CAN_HEARTBEAT_SEND` (R143). -/
def execCanHeartbeatSend (s : State) : Host.Outcome State Fault Refusal := next s (heartbeatSend s.chip)

/-- The node a consumer entry names. -/
def Consumer.node (c : Consumer) : Nat := c.entry.toNat / 0x10000 % 0x100

/-- The time of a consumer entry, ms. -/
def Consumer.ms (c : Consumer) : Nat := c.entry.toNat % 0x10000

/-- A consumed heartbeat, once received, has not come in its time: record and EMCY (R143). (DEDUCED, log 94.) -/
def heartbeatLost (k : Nat) (s : Chip) : Chip :=
  let c := SMap.get s.host.consumers {} k
  if s.host.online ∧ c.ms ≠ 0 ∧ c.monitored ∧ c.lost = false ∧ s.overMs c.lastAt c.ms then
    let s := s.modHost fun h => { h with consumers := h.consumers.upd {} k fun c => { c with lost := true, monitored := false } }
    (s.record 0x0009 0 (le 1 c.node ++ le 1 (busNo c.bus))).raise (6000 + k) 0x8130 0x11 0x0009 0 (c.node + 256 * busNo c.bus)
  else s

/-- `CONSUMED_HEARTBEAT_LOST` (R143). -/
def execConsumedHeartbeatLost (k : Fin 4) (s : State) : Host.Outcome State Fault Refusal := next s (heartbeatLost k.val s.chip)

/-- A heartbeat for one consumer entry, which has one supervision whichever bus carries it: the last reception's bus is the one a
loss names. (DESIGN CHOICE, log 139.) -/
def Chip.consume (b : Bus) (node : Nat) (s : Chip) (k : Nat) : Chip :=
  let c := SMap.get s.host.consumers {} k
  if c.node = node ∧ c.ms ≠ 0 then
    (s.modHost fun h => { h with consumers := h.consumers.upd {} k fun c =>
      { c with lastAt := s.clk.ticks, monitored := true, lost := false, bus := b } }).endCondition (6000 + k)
  else s

/-- A heartbeat of a node set in 0x1016 restarts its time and ends a lost condition (R143). -/
def heartbeatReceived (b : Bus) (f : CanFormat) (node : Nat) (s : Chip) : Chip :=
  if s.hears b ∧ canTaken f then (List.range 4).foldl (Chip.consume b node) s else s

/-- `CONSUMED_HEARTBEAT_RECEIVED` (R143). -/
def execConsumedHeartbeatReceived (rx : CanRx) (node : BitVec 7) (s : State) : Host.Outcome State Fault Refusal :=
  next s (heartbeatReceived rx.bus rx.format node.toNat s.chip)

/-! ## Controller states (R110, R141) -/

/-- A controller reaches bus-off: it neither receives nor transmits (R110). -/
def busOff (b : Bus) (s : Chip) : Chip :=
  if s.onBus b then s.modCtl b fun c => { c with status := .busOff } else s

/-- `BUS_OFF` (R110). -/
def execBusOff (bus : Bus) (s : State) : Host.Outcome State Fault Refusal := next s (busOff bus s.chip)

/-- Recovery from bus-off: error active, an error-passive condition ends silently, and the event 0x8140 (R110). -/
def busOffRecovery (b : Bus) (s : Chip) : Chip :=
  if (s.ctl b).status = .busOff then
    (((s.modCtl b fun c => { c with status := .errorActive }).dropCondition (5000 + busNo b)).count 6).raiseEvent
      0x8140 0x11 0x000D 0 (busNo b + 0x300)
  else s

/-- `BUS_OFF_RECOVERY` (R110). -/
def execBusOffRecovery (bus : Bus) (s : State) : Host.Outcome State Fault Refusal := next s (busOffRecovery bus s.chip)

/-- A controller enters error passive: a lasting condition, counted (R141). -/
def errorPassive (b : Bus) (s : Chip) : Chip :=
  if (s.ctl b).status = .errorActive then
    ((s.modCtl b fun c => { c with status := .errorPassive }).count 6).raise (5000 + busNo b) 0x8120 0x11 0x000D 0 (busNo b + 0x200)
  else s

/-- `CAN_ERROR_PASSIVE` (R141). -/
def execCanErrorPassive (bus : Bus) (s : State) : Host.Outcome State Fault Refusal := next s (errorPassive bus s.chip)

/-- A controller returns to error active: the condition ends (R141). -/
def errorPassiveEnd (b : Bus) (s : Chip) : Chip :=
  if (s.ctl b).status = .errorPassive then
    (s.modCtl b fun c => { c with status := .errorActive }).endCondition (5000 + busNo b)
  else s

/-- `CAN_ERROR_PASSIVE_END` (R141). -/
def execCanErrorPassiveEnd (bus : Bus) (s : State) : Host.Outcome State Fault Refusal := next s (errorPassiveEnd bus s.chip)

/-- A receive overrun is an event, counted (R141). -/
def receiveOverrun (b : Bus) (s : Chip) : Chip :=
  if s.hears b then (s.count 6).raiseEvent 0x8110 0x11 0x000D 0 (busNo b + 0x100) else s

/-- `CAN_RECEIVE_OVERRUN` (R141). -/
def execCanReceiveOverrun (bus : Bus) (s : State) : Host.Outcome State Fault Refusal := next s (receiveOverrun bus s.chip)

/-! ## EMCY inhibit, error field, USDO timeout -/

/-- The inhibit time of a bus ends: the oldest waiting EMCY goes out and starts the next; on a bus that does not serve
EMCY the waiting ones fall due unsent, and without an inhibit time all go out (R110, R142). -/
def inhibitExpiry (b : Bus) (s : Chip) : Chip :=
  let send (s : Chip) (m : EmcyMsg) : Chip := s.sendCan b (0x80 + s.nodeId) m.bytes
  let w := (s.ctl b).waiting
  if (s.ctl b).inhibited = false then s
  else if s.onBus b = false ∨ s.host.nmt = .stopped then s.modCtl b fun c => { c with waiting := [], inhibited := false }
  else if s.host.inhibit = 0 then w.foldl send (s.modCtl b fun c => { c with waiting := [], inhibited := false })
  else match w with
    | [] => s.modCtl b fun c => { c with inhibited := false }
    | m :: l => (send s m).modCtl b fun c => { c with waiting := l }

/-- `EMCY_INHIBIT_EXPIRY` (R142). -/
def execEmcyInhibitExpiry (bus : Bus) (s : State) : Host.Outcome State Fault Refusal := next s (inhibitExpiry bus s.chip)

/-- `ERROR_FIELD_CLEAR`: a write of 0 to 0x1003:00 empties the field (R144). -/
def execErrorFieldClear (p : Path) (s : State) : Host.Outcome State Fault Refusal :=
  next s (hostCommand p 0 0x1003 0 [0] (fun _ s => (s.modHost fun h => { h with errors := [] }, ok)) s.chip)

/-- `USDO_TIMEOUT`: the server aborts a transfer whose next segment did not come in the time of 0x2201:06; a segment
acknowledged into the HI on the edge of expiry is taken (R24, R25, R140). (DESIGN CHOICE, log 92.) -/
def usdoTimeout (b : Bus) (client : BitVec 7) (lastAt : Nat) (onEdge : Bool) (s : Chip) : Chip :=
  if s.host.online = false ∨ onEdge ∨ s.overMs lastAt s.host.usdoTimeout = false then s
  else s.sendUsdo b client 0x0014 (.usdoAbort b client.toNat 0)

/-- `USDO_TIMEOUT` (R140). -/
def execUsdoTimeout (bus : Bus) (transfer : UsdoTransfer) (s : State) : Host.Outcome State Fault Refusal :=
  next s (usdoTimeout bus transfer.client transfer.lastAt transfer.onEdge s.chip)

end Sys2Proof.Machine
end

