-- ==== Sys2Proof/Machine/Intrusion.lean ====
section
/-! DEFINITION. The intrusion monitor (R197 to R202), the nonce reserve (R203) and re-arm (R204, R205). -/

namespace Sys2Proof.Machine

/-! ## Detection -/

/-- The monitor zeroises, and the mesh is driven (R197, Table 2.13). -/
def Chip.monitorActs (s : Chip) : Bool := s.life.state == .provisioned || s.life.state == .service || s.life.state == .locked

/-- The causes that trip: enabled loops where the mesh is driven, sensors of the response mask, the supply sensor while
the SI runs (R198, R199, Table 7.9). -/
def Chip.tripping (s : Chip) (cause : Nat) : Nat :=
  let k := s.keys
  let loops := if s.monitorActs then cause % 16 &&& k.loops.toNat else 0
  let sensors := cause / 16 % 16 &&& k.response.toNat
  loops + 16 * (if s.runs 3 then sensors else sensors / 2 * 2)

/-- The causes join those of an intrusion that holds, or take the place of the last (0x4500:02). -/
def Chip.noteCause (cause : Nat) (s : Chip) : Chip :=
  s.modKeys fun k => { k with cause := if k.arm = .armed then BitVec.ofNat 16 cause else k.cause ||| BitVec.ofNat 16 cause }

/-- The zeroisation of Table 7.10: the SI is reset into dead, and one record and one EMCY follow (R201, R328). (DEDUCED, log 96.) -/
def Chip.intrude (cause ns : Nat) (s : Chip) : Chip :=
  if s.keys.arm = .deadIntrusion then s.noteCause cause
  else
    let s := (s.noteCause cause).modKeys fun k =>
      { k with arm := .deadIntrusion, rootOk := false, intrusions := satAdd 32 k.intrusions 1, zeroNs := min 0xFFFF ns }
    let s := ((s.siLost true).zeroise).resetSi
    (s.record 0x100E 1 (le 2 s.keys.cause.toNat ++ le 2 (min 0xFFFF ns))).failIsland 3 .dead

/-- A loop or sensor trips (R197, R201): outside the states in which the monitor acts it only reports, and in Scrapped it
is off. (DEDUCED, log 96.) -/
def intrusionDetected (cause ns : Nat) (s : Chip) : Chip :=
  let c := s.tripping cause
  if s.life.state = .scrapped ∨ c = 0 then s
  else if s.monitorActs then s.intrude c ns
  else (s.noteCause c).record 0x100E 1 (le 2 c ++ [0, 0])

/-- `INTRUSION_DETECTED` (R201). -/
def execIntrusionDetected (cause : BitVec 8) (zeroiseNs : Nat) (s : State) : Host.Outcome State Fault Refusal :=
  next s (intrusionDetected cause.toNat zeroiseNs s.chip)

/-- A sensor whose bit is clear in the response mask records without zeroising; the supply sensor trips only while the SI
runs (R199, Table 7.9). -/
def sensorTrip (x : Sensor) (s : Chip) : Chip :=
  let c := 2 ^ (4 + sensorBit x)
  if s.life.state = .scrapped ∨ (x = .supply ∧ s.runs 3 = false) ∨ s.keys.response.getLsbD (sensorBit x) then s
  else (s.noteCause c).record 0x100E 1 (le 2 c ++ [0, 0])

/-- `SENSOR_TRIP_RECORDED` (R199). -/
def execSensorTripRecorded (sensor : Sensor) (s : State) : Host.Outcome State Fault Refusal := next s (sensorTrip sensor s.chip)

/-- Loop k is driven: the mesh is, and the loop is enabled (Table 2.13, R198). -/
def Chip.loopDriven (s : Chip) (k : Nat) : Bool := s.monitorActs && s.keys.loops.getLsbD k

/-- The level of TAMP_k_OUT: the output of the loop's LFSR, low for a loop that is not driven (R198, Table 2.13). (DESIGN CHOICE, log 106.) -/
def Chip.tampOut (s : Chip) (k : Nat) : Bool := s.loopDriven k && (s.keys.mesh.getD k 0).getLsbD 30

/-- The level that a driven loop samples at TAMP_k_IN: a bit that mismatches TAMP_k_OUT sets its bit of 0x4500:06, and a
second one within 16 consecutive bits is an intrusion (R198). (DEDUCED, log 96.) -/
def loopMismatch (k : Nat) (level : Bool) (s : Chip) : Chip :=
  if s.loopDriven k = false ∨ level = s.tampOut k then s
  else
    let again : Bool := match SMap.find? s.keys.lastMismatch k with
      | some t => decide (s.us ≤ t + 15 * 2 ^ (s.keys.period.toNat % 4))
      | none => false
    let s := s.modKeys fun x => { x with mismatches := x.mismatches ||| BitVec.ofNat 8 (2 ^ k), lastMismatch := x.lastMismatch.put k s.us }
    if again then
      let d := s.drawBytes 2
      d.2.intrude (2 ^ k) (leNat d.1 % 2001)
    else s

/-- `TAMPER_LOOP_MISMATCH` (R198). -/
def execTamperLoopMismatch (sample : LoopSample) (s : State) : Host.Outcome State Fault Refusal :=
  next s (loopMismatch sample.loop.val sample.level s.chip)

/-- One bit period: the LFSR of polynomial x^31 + x^28 + 1 shifts (R198). (DESIGN CHOICE, log 106.) -/
def meshShift (v : BitVec 31) : BitVec 31 := BitVec.ofNat 31 (2 * v.toNat + (v.getLsbD 30 ^^ v.getLsbD 27).toNat)

/-- The bit period of the mesh, µs (Table 7.11). -/
def Keys.bitPeriod (k : Keys) : Nat := 2 ^ (k.period.toNat % 4)

/-- The mesh moves on by one bit at each bit period (R198). -/
def Chip.meshStep (s : Chip) : Chip :=
  if s.monitorActs ∧ (s.clk.ticks - s.clk.startTick) % (400 * s.keys.bitPeriod) = 0 then
    s.modKeys fun k => { k with mesh := k.mesh.map meshShift }
  else s

/-! ## The nonce reserve (R203) -/

/-- While the SI runs, the reserve is filled with DRBG output, up to 256 entries. (DEDUCED, log 35.) -/
def reserveFill (s : Chip) : Chip :=
  if s.drbgGate ≠ 0 then s
  else
    let n := 256 - s.keys.reserve.length
    let d := s.drbg (16 * n)
    d.2.modKeys fun k => { k with reserve := (k.reserve ++ (List.range n).map fun i => slice d.1 (16 * i) 16).take 256 }

/-- `NONCE_RESERVE_FILL` (R203). -/
def execNonceReserveFill (s : State) : Host.Outcome State Fault Refusal := next s (reserveFill s.chip)

/-- 16 fresh bytes for the debug port: from the DRBG, or from an entry of the reserve while the SI does not run; none
with the reserve empty (R169, R203). (DEDUCED, log 97.) -/
def Chip.freshNonce (s : Chip) : Bytes × Chip :=
  if s.drbgGate = 0 then s.drbg 16
  else if s.runs 3 then ([], s)
  else match s.keys.reserve with
    | [] => ([], s)
    | e :: rest => (e, s.modKeys fun k => { k with reserve := rest })

/-! ## Re-arm (R204, R205) -/

/-- The debug port may operate the device (R168, Table 2.13). -/
def Chip.debugOpen (s : Chip) : Bool := s.life.debugOn && (s.life.debug == .authorised || s.life.debug == .opened)

/-- The checks of a submitted re-arm, in the order of R185: nonce, body, authorisations of owner 0, and its own. (DEDUCED, log 97.) -/
def Chip.rearmCode (s : Chip) : Nat :=
  let b := s.keys.rearmBuf
  let nonce := b.take 16
  let custodians : Bool := s.keys.registryOk == false || !(s.owner 0).keys.isEmpty
  if s.keys.rearmOpen = false ∨ nonce ≠ s.keys.rearmNonce then 0x310C
  else if fieldAt b 16 2 ≠ 2 ∨ slice b 18 2 ≠ [0x14, 0] then 0x0002
  else
    let c := if custodians then s.checkAuths 0 (opDigest s nonce (slice b 18 2)) (slice b 20 136) else 0
    if c ≠ 0 then c
    else if s.keys.arm ≠ .awaitingRearm then 0x0005
    else if s.power.railsGood.getLsbD 1 = false then 0x0004
    else 0

/-- The steps of an accepted re-arm, in the order of R205, up to loading: the SI's start, with its entropy and self-tests,
then sets it running (R225, R228). (DEDUCED, log 97.) -/
def Chip.rearm (s : Chip) : Chip :=
  let s := (s.putIsland 3 .loading).modCrypto fun c => { c with entropy := .startUp }
  let d := s.drawBytes 32
  let s := d.2.modKeys fun k => { k with rootKey := d.1, rootOk := true, rootLost := false }
  let s := s.keys.blobs.foldl (fun t _ => t.freeBlock) s
  let s := s.modKeys fun k => { k with blobs := [], slots := [], arm := .armed, rearms := satAdd 32 k.rearms 1 }
  s.record 0x100F 1 []

/-- The buffer is submitted: the result code and the done bit of 0x4010_8204 follow (Table 7.13). -/
def submitRearm (s : Chip) : Chip :=
  if s.debugOpen = false then s
  else
    let c := s.rearmCode
    (if c = 0 then s.rearm else s).modKeys fun k => { k with rearmResult := BitVec.ofNat 32 (0x80000000 + c) }

/-- `RE_ARM` (R205). -/
def execReArm (s : State) : Host.Outcome State Fault Refusal := next s (submitRearm s.chip)

end Sys2Proof.Machine
end

