-- ==== Sys2Proof/Machine/Rv32.lean ====
section
/-! DEFINITION. The instructions of the conductor's cores, which Table 1.1 of spec/01_architecture.md names RV32IMC:
their decoding, the 16-bit forms among them, and what the register operations compute. The spec quotes no encoding:
these are PRESUMED from the RISC-V unprivileged standard (log 99). -/

namespace Sys2Proof.Machine

/-- An instruction of RV32IMC, a 16-bit form as what it stands for. -/
inductive RvOp where
  | lui (rd : Nat) (v : Word32)
  | auipc (rd : Nat) (v : Word32)
  | jal (rd : Nat) (off : Word32)
  | jalr (rd a : Nat) (off : Word32)
  | branch (f a b : Nat) (off : Word32)
  | load (f rd a : Nat) (off : Word32)
  | store (f a b : Nat) (off : Word32)
  | aluImm (f : Nat) (alt : Bool) (rd a : Nat) (v : Word32)
  | alu (f : Nat) (alt : Bool) (rd a b : Nat)
  | mul (f rd a b : Nat)
  | fence
  /-- A system instruction, or a word that RV32IMC does not define. -/
  | system
  deriving DecidableEq, Repr

/-- The field of `n` bits from bit `lo`. -/
def rvField (w lo n : Nat) : Nat := w / 2 ^ lo % 2 ^ n

/-- A number of `n` bits, sign-extended. -/
def rvSext (n v : Nat) : Word32 := (BitVec.ofNat n v).signExtend 32

/-- An immediate gathered from fields (from, width, to) of a word. -/
def rvGather (w : Nat) (l : List (Nat × Nat × Nat)) : Nat := (l.map fun x => rvField w x.1 x.2.1 * 2 ^ x.2.2).sum

/-- The 32-bit forms. (PRESUMED, log 99.) -/
def rvDecode (w : Nat) : RvOp :=
  let rd := rvField w 7 5
  let f := rvField w 12 3
  let a := rvField w 15 5
  let b := rvField w 20 5
  let f7 := rvField w 25 7
  let i := rvSext 12 (rvField w 20 12)
  match w % 128 with
  | 0x37 => .lui rd (BitVec.ofNat 32 (w - w % 4096))
  | 0x17 => .auipc rd (BitVec.ofNat 32 (w - w % 4096))
  | 0x6F => .jal rd (rvSext 21 (rvGather w [(21, 10, 1), (20, 1, 11), (12, 8, 12), (31, 1, 20)]))
  | 0x67 => if f = 0 then .jalr rd a i else .system
  | 0x63 => if f = 2 ∨ f = 3 then .system else .branch f a b (rvSext 13 (rvGather w [(8, 4, 1), (25, 6, 5), (7, 1, 11), (31, 1, 12)]))
  | 0x03 => if f = 3 ∨ 5 < f then .system else .load f rd a i
  | 0x23 => if 2 < f then .system else .store f a b (rvSext 12 (rvGather w [(7, 5, 0), (25, 7, 5)]))
  | 0x13 =>
    if f = 1 then (if f7 = 0 then .aluImm 1 false rd a (BitVec.ofNat 32 b) else .system)
    else if f = 5 then (if f7 = 0 ∨ f7 = 0x20 then .aluImm 5 (f7 == 0x20) rd a (BitVec.ofNat 32 b) else .system)
    else .aluImm f false rd a i
  | 0x33 =>
    if f7 = 1 then .mul f rd a b
    else if f7 = 0 ∨ (f7 = 0x20 ∧ (f = 0 ∨ f = 5)) then .alu f (f7 == 0x20) rd a b
    else .system
  | 0x0F => if f = 0 then .fence else .system
  | _ => .system

/-- The 16-bit forms of quadrants 0 and 2. -/
def rvExpandEven (w : Nat) : RvOp :=
  let rd := rvField w 7 5
  let b := rvField w 2 5
  let x := 8 + rvField w 2 3
  let y := 8 + rvField w 7 3
  let word (l : List (Nat × Nat × Nat)) : Word32 := BitVec.ofNat 32 (rvGather w l)
  let lw := word [(6, 1, 2), (10, 3, 3), (5, 1, 6)]
  match w % 4, w / 8192 with
  | 0, 0 =>
    let v := word [(6, 1, 2), (5, 1, 3), (11, 2, 4), (7, 4, 6)]
    if v = 0 then .system else .aluImm 0 false x 2 v
  | 0, 2 => .load 2 x y lw
  | 0, 6 => .store 2 y x lw
  | 2, 0 => if rvField w 12 1 = 1 then .system else .aluImm 1 false rd rd (BitVec.ofNat 32 b)
  | 2, 2 => if rd = 0 then .system else .load 2 rd 2 (word [(4, 3, 2), (12, 1, 5), (2, 2, 6)])
  | 2, 4 =>
    if rvField w 12 1 = 0 then
      if b ≠ 0 then .alu 0 false rd 0 b else if rd = 0 then .system else .jalr 0 rd 0
    else if b ≠ 0 then .alu 0 false rd rd b
    else if rd = 0 then .system else .jalr 1 rd 0
  | 2, 6 => .store 2 2 b (word [(9, 4, 2), (7, 2, 6)])
  | _, _ => .system

/-- The 16-bit forms of quadrant 1. -/
def rvExpandOdd (w : Nat) : RvOp :=
  let rd := rvField w 7 5
  let x := 8 + rvField w 2 3
  let y := 8 + rvField w 7 3
  let i := rvSext 6 (rvGather w [(2, 5, 0), (12, 1, 5)])
  let j := rvSext 12 (rvGather w [(3, 3, 1), (11, 1, 4), (2, 1, 5), (7, 1, 6), (6, 1, 7), (9, 2, 8), (8, 1, 10), (12, 1, 11)])
  let br := rvSext 9 (rvGather w [(3, 2, 1), (10, 2, 3), (2, 1, 5), (5, 2, 6), (12, 1, 8)])
  match w / 8192 with
  | 0 => .aluImm 0 false rd rd i
  | 1 => .jal 1 j
  | 2 => .aluImm 0 false rd 0 i
  | 3 =>
    if i = 0 then .system
    else if rd = 2 then .aluImm 0 false 2 2 (rvSext 10 (rvGather w [(6, 1, 4), (2, 1, 5), (5, 1, 6), (3, 2, 7), (12, 1, 9)]))
    else .lui rd (i <<< 12)
  | 4 =>
    match rvField w 10 2 with
    | 2 => .aluImm 7 false y y i
    | 3 =>
      if rvField w 12 1 = 1 then .system
      else match rvField w 5 2 with
        | 0 => .alu 0 true y y x
        | 1 => .alu 4 false y y x
        | 2 => .alu 6 false y y x
        | _ => .alu 7 false y y x
    | k => if rvField w 12 1 = 1 then .system else .aluImm 5 (k == 1) y y (BitVec.ofNat 32 (rvField w 2 5))
  | 5 => .jal 0 j
  | 6 => .branch 0 y 0 br
  | _ => .branch 1 y 0 br

/-- The 16-bit forms. (PRESUMED, log 99.) -/
def rvExpand (w : Nat) : RvOp := if w % 4 = 1 then rvExpandOdd w else rvExpandEven w

/-- What a register operation computes. (PRESUMED, log 99.) -/
def rvAlu (f : Nat) (alt : Bool) (a b : Word32) : Word32 :=
  match f with
  | 0 => if alt then a - b else a + b
  | 1 => a <<< (b.toNat % 32)
  | 2 => if a.slt b then 1 else 0
  | 3 => if a.ult b then 1 else 0
  | 4 => a ^^^ b
  | 5 => if alt then a.sshiftRight (b.toNat % 32) else a >>> (b.toNat % 32)
  | 6 => a ||| b
  | _ => a &&& b

/-- What a multiplication or a division computes. (PRESUMED, log 99.) -/
def rvMul (f : Nat) (a b : Word32) : Word32 :=
  match f with
  | 0 => a * b
  | 1 => BitVec.ofInt 32 (a.toInt * b.toInt / 2 ^ 32)
  | 2 => BitVec.ofInt 32 (a.toInt * b.toNat / 2 ^ 32)
  | 3 => BitVec.ofNat 32 (a.toNat * b.toNat / 2 ^ 32)
  | 4 => if b = 0 then BitVec.allOnes 32 else BitVec.ofInt 32 (a.toInt.tdiv b.toInt)
  | 5 => if b = 0 then BitVec.allOnes 32 else a / b
  | 6 => if b = 0 then a else BitVec.ofInt 32 (a.toInt.tmod b.toInt)
  | _ => if b = 0 then a else a % b

/-- Whether a branch is taken. -/
def rvTaken (f : Nat) (a b : Word32) : Bool :=
  match f with
  | 0 => a == b
  | 1 => a != b
  | 4 => a.slt b
  | 5 => !a.slt b
  | 6 => a.ult b
  | _ => !a.ult b

end Sys2Proof.Machine
end

