-- ==== Sys2Proof/Machine/Debug.lean ====
section
/-! DEFINITION. The debug port (R168 to R170, Table 6.10, Table 7.13). -/

namespace Sys2Proof.Machine

/-! ## Frames (R168) -/

/-- One bit shifted through the CRC-8 register, polynomial 0x07. -/
def crc8Bit (c : Nat) : Nat := if c ≥ 0x80 then ((c * 2) ^^^ 0x107) % 0x100 else c * 2

/-- One byte shifted through the CRC-8 register. -/
def crc8Byte (c : Nat) (b : Byte) : Nat :=
  crc8Bit (crc8Bit (crc8Bit (crc8Bit (crc8Bit (crc8Bit (crc8Bit (crc8Bit (c ^^^ b.toNat))))))))

/-- CRC-8 with polynomial 0x07 and initial value zero (R168). -/
def crc8 (b : Bytes) : Nat := b.foldl crc8Byte 0

/-- The first 72 bits of a request frame, most significant bit first. -/
def frameBytes (op : Nat) (f : DebugFrame) : Bytes := be 1 op ++ be 4 f.address.toNat ++ be 4 f.data.toNat

/-- The 48 bits of a response. -/
def responseBytes (status data : Nat) : Bytes :=
  let b := be 1 status ++ be 4 data
  b ++ be 1 (crc8 b)

/-- The port drives a response. -/
def Chip.respond (status data : Nat) (s : Chip) : Chip :=
  (s.modLife fun l => { l with debugOut := responseBytes status data }).emit (.debug (responseBytes status data))

/-- The port takes frames: DBG_EN_N is asserted in a state in which the debug pins act (R168, Table 2.13). -/
def Chip.debugActive (s : Chip) : Bool := s.life.debugOn && s.life.debug != .inactive

/-- A request frame: its CRC, then the authorisation that opcodes from 0x10 need (R168, R169), then `act`. -/
def debugFrame (op : Nat) (f : DebugFrame) (act : Nat → Nat → Chip → Chip × Nat × Nat) (s : Chip) : Chip :=
  if s.debugActive = false then s
  else if crc8 (frameBytes op f) ≠ f.crc.toNat then s.respond 3 0
  else if 0x10 ≤ op ∧ s.debugOpen = false then s.respond 1 0
  else
    let y := act f.address.toNat f.data.toNat s
    y.1.respond y.2.1 y.2.2

/-! ## The debug session (R168, R169) -/

/-- DBG_EN_N is asserted: a session starts with what Table 2.13 offers and a fresh challenge. -/
def debugEnable (s : Chip) : Chip :=
  if s.life.debugOn then s
  else
    let offer := debugOffer s.life.state
    let n := if offer = .inactive then ([], s) else s.freshNonce
    n.2.modLife fun l => { l with debugOn := true, debug := offer, challenge := n.1, authWords := [] }

/-- `DEBUG_ENABLE` (R169). -/
def execDebugEnable (s : State) : Host.Outcome State Fault Refusal := next s (debugEnable s.chip)

/-- DBG_EN_N is deasserted: the session ends, its authorisation lapses, and so does the re-arm nonce (R168, R204). (DEDUCED, log 100.) -/
def debugDisable (s : Chip) : Chip :=
  (s.modLife fun l => { l with debugOn := false, debug := .inactive, challenge := [], authWords := [] }).modKeys fun k =>
    { k with rearmOpen := false, rearmNonce := List.replicate 16 0 }

/-- `DEBUG_DISABLE` (R168). -/
def execDebugDisable (s : State) : Host.Outcome State Fault Refusal := next s (debugDisable s.chip)

/-- A frame whose opcode Table 6.10 does not list: status 0x05 after its CRC check, authorised or not (R168). (DEDUCED, log 98.) -/
def debugReserved (op : Nat) (f : DebugFrame) (s : Chip) : Chip :=
  if s.debugActive = false then s
  else if crc8 (frameBytes op f) ≠ f.crc.toNat then s.respond 3 0
  else s.respond 5 0

/-- `DEBUG_IDENTIFY`: the product code, or in place of identify a frame of a reserved opcode (R168). -/
def execDebugIdentify (f : IdentifyFrame) (s : State) : Host.Outcome State Fault Refusal :=
  next s (if f.opcode = 0x01 then debugFrame 0x01 f.frame (fun _ _ s => (s, 0, 0x00064100)) s.chip else debugReserved f.opcode.toNat f.frame s.chip)

/-- A word of the challenge; busy while none could be drawn (R169, R203). (DEDUCED, log 98.) -/
def challengeWord (a _d : Nat) (s : Chip) : Chip × Nat × Nat :=
  let n := if s.life.challenge = [] then s.freshNonce else (s.life.challenge, s)
  let s := n.2.modLife fun l => { l with challenge := n.1 }
  if 3 < a then (s, 2, 0) else if n.1 = [] then (s, 4, 0) else (s, 0, beNat (slice n.1 (4 * a) 4))

/-- `DEBUG_CHALLENGE_WORD` (R169). -/
def execDebugChallengeWord (f : DebugFrame) (s : State) : Host.Outcome State Fault Refusal :=
  next s (debugFrame 0x02 f challengeWord s.chip)

/-- A word of the authorisation is loaded. -/
def authorisationWord (a d : Nat) (s : Chip) : Chip × Nat × Nat :=
  if 127 < a then (s, 2, 0) else (s.modLife fun l => { l with authWords := l.authWords.set 0 a (BitVec.ofNat 32 d) }, 0, 0)

/-- `DEBUG_AUTHORISATION_WORD` (R169). -/
def execDebugAuthorisationWord (f : DebugFrame) (s : State) : Host.Outcome State Fault Refusal :=
  next s (debugFrame 0x03 f authorisationWord s.chip)

/-- The first `n` authorisation words as bytes. -/
def LifeState.authBytes (l : LifeState) (n : Nat) : Bytes := (List.range n).flatMap fun i => be 4 (SMap.get l.authWords 0 i).toNat

/-- The authorisation of the life-cycle state verifies (R169). -/
def Chip.debugAuth (s : Chip) : Bool :=
  let l := s.life
  let serial := be 4 (s.fuseUsed 0x009).toNat
  match l.state with
  | .provisioned =>
    let b := l.authBytes 32
    decide (sha256 (b.take 64) = s.fuseHash 0x070) && s.hashSound 0x070 &&
      p256.verify (b.take 64) (sha256 (tagJKDB ++ serial ++ l.challenge)) (b.drop 64)
  | .service => s.checkAuths 0 (sha256 (tagJKDB ++ s.identity ++ le 1 l.state.code ++ l.challenge)) (l.authBytes 34) == 0
  | _ => false

/-- The words are submitted: the VI verifies them (R169), and is busy while it does not run. (DEDUCED, log 98; DESIGN CHOICE, log 145.) -/
def debugAuthorise (_a _d : Nat) (s : Chip) : Chip × Nat × Nat :=
  if s.debugOpen then (s, 0, 0)
  else if s.runs 4 = false then (s, 4, 0)
  else if s.life.challenge ≠ [] ∧ s.debugAuth then (s.modLife fun l => { l with debug := .authorised }, 0, 0)
  else (s, 1, 0)

/-- `DEBUG_AUTHORISE` (R169). -/
def execDebugAuthorise (f : DebugFrame) (s : State) : Host.Outcome State Fault Refusal :=
  next s (debugFrame 0x04 f debugAuthorise s.chip)

/-! ## The cores (R168, R170, R450) -/

/-- The cores' registers and program counter where the spec does not say what they hold: free (log 99). -/
def Chip.wildCores (s : Chip) : Chip :=
  let d := s.drawBytes 128
  let w (i : Nat) : Word32 := BitVec.ofNat 32 (fieldAt d.1 (4 * i) 4)
  d.2.modCi fun c => { c with regs := (List.range 31).map w, pc := w 31 }

/-- Both lockstep cores halt, with what their firmware left in their registers; in Wafer, Calibrated and Analysis the
check-in slots are suspended (R170, R450). (DEDUCED, log 98.) -/
def debugHalt (_a _d : Nat) (s : Chip) : Chip × Nat × Nat :=
  if s.runs 2 = false then (s, 4, 0)
  else if s.ci.halted then (s, 0, 0)
  else
    let s := s.wildCores.modCi fun c => { c with halted := true }
    (if s.haltSuspends then s.suspendSlots else s, 0, 0)

/-- `DEBUG_HALT` (R168). -/
def execDebugHalt (f : DebugFrame) (s : State) : Host.Outcome State Fault Refusal := next s (debugFrame 0x10 f debugHalt s.chip)

/-- Both lockstep cores resume: suspended slots re-enter grace, and CH_01 is emptied (R22, R450). -/
def debugResume (a : RecArray) (_a _d : Nat) (s : Chip) : Chip × Nat × Nat :=
  if s.ci.halted = false then (s, 0, 0)
  else
    let again := s.haltSuspends
    let s := s.modCi fun c => { c with halted := false }
    (drainCh01 a (if again then s.resumeSlots else s), 0, 0)

/-- `DEBUG_RESUME` (R168). -/
def execDebugResume (f : DebugFrame) (s : State) : Host.Outcome State Fault Refusal :=
  next s (debugFrame 0x11 f (debugResume s.array) s.chip)

/-- A core register: 0 reads as zero, 1 to 31 general, 32 the program counter; busy while the cores run. (DEDUCED, log 98.) -/
def debugReadReg (a _d : Nat) (s : Chip) : Chip × Nat × Nat :=
  if 32 < a then (s, 2, 0)
  else if s.ci.halted = false then (s, 4, 0)
  else if a = 32 then (s, 0, s.ci.pc.toNat)
  else if a = 0 then (s, 0, 0)
  else (s, 0, (s.ci.regs.getD (a - 1) 0).toNat)

/-- `DEBUG_READ_REGISTER` (R168). -/
def execDebugReadRegister (f : DebugFrame) (s : State) : Host.Outcome State Fault Refusal :=
  next s (debugFrame 0x22 f debugReadReg s.chip)

/-- A write of a core register. -/
def debugWriteReg (a d : Nat) (s : Chip) : Chip × Nat × Nat :=
  if 32 < a then (s, 2, 0)
  else if s.ci.halted = false then (s, 4, 0)
  else if a = 32 then (s.modCi fun c => { c with pc := BitVec.ofNat 32 d }, 0, 0)
  else if a = 0 then (s, 0, 0)
  else (s.modCi fun c => { c with regs := c.regs.set (a - 1) (BitVec.ofNat 32 d) }, 0, 0)

/-- `DEBUG_WRITE_REGISTER` (R168). -/
def execDebugWriteRegister (f : DebugFrame) (s : State) : Host.Outcome State Fault Refusal :=
  next s (debugFrame 0x23 f debugWriteReg s.chip)

/-- `DEBUG_CHIP_RESET`: a chip reset with the debug cause, after the response (R68, R80). -/
def debugReset (f : DebugFrame) (s : Chip) : Chip :=
  let t := debugFrame 0x30 f (fun _ _ s => (s, 0, 0)) s
  if s.debugActive ∧ s.debugOpen ∧ crc8 (frameBytes 0x30 f) = f.crc.toNat then chipReset 0x800 t else t

/-- `DEBUG_CHIP_RESET` (R68). -/
def execDebugChipReset (f : DebugFrame) (s : State) : Host.Outcome State Fault Refusal := next s (debugReset f s.chip)

/-! ## Memory (R19, R20, R170, Table 7.13) -/

/-- The re-arm registers of the AO window, and which of them a debug access may read or write (Table 7.13). -/
def rearmBase : Nat := 0x40108000

/-- An address of the re-arm registers is accessed against its direction. -/
def rearmRefuses (write : Bool) (a : Nat) : Bool :=
  decide (rearmBase ≤ a) && decide (a < rearmBase + 0x220) && (decide (a < rearmBase + 0x204) != write)

/-- The first address of a word that the debug port may not touch: outside the map, against a direction, a check-in
word, which belongs to a partition (R448), or in Service the SI register window (R170). (DEDUCED, log 100.) -/
def Chip.debugForbidden (s : Chip) (write : Bool) (a : Nat) : Option Nat :=
  let bad (x : Nat) : Bool :=
    rearmRefuses write x || (write && decide (0x40104000 ≤ x) && decide (x < 0x40104040)) ||
      (s.life.state == .service && decide (0x40300000 ≤ x) && decide (x ≤ 0x403FFFFF))
  let k : AccessKind := if write then .write else .read
  ((List.range 4).map (a + ·)).find? fun x => bad x || (firstForbidden s.mapRights k x 1).isSome

/-- A byte of the trace buffer: packet number n of a share lies in place n modulo its size in packets (R476, R477). -/
def Chip.traceByte (s : Chip) (o : Nat) : Byte :=
  match (List.range 8).find? fun p => decide (s.shareBase p ≤ o) && decide (o < s.shareBase p + s.shareSize p) with
  | none => 0
  | some p =>
    let q := s.part p
    let cap := s.shareSize p / 8
    let i := (o - s.shareBase p) / 8
    let newest := q.written - 1
    let n := newest - (newest + cap - i) % cap
    let oldest := q.written - q.packets.length
    if newest < (newest + cap - i) % cap ∨ n < oldest ∨ q.written = 0 then 0
    else (q.packets.getD (n - oldest) []).getD ((o - s.shareBase p) % 8) 0

/-- Nothing is stored in the data area: no parameters, no wrapped keys and no registry, whose places in it the spec leaves to
wear management (R160). -/
def Chip.dataErased (s : Chip) : Bool := s.boot.store == [] && s.keys.blobs == [] && s.keys.regDigest == none

/-- The DRAM request of an access to the aperture, over CH_14 (R21, R364). -/
def Chip.apertureReq (s : Chip) (a n : Nat) : DramReq := { cls := .conductor, addr := s.regionBase 1 + (a - 0x80000000), len := n }

/-- A byte of the conductor's map whose contents the spec gives; none for the other island registers, and for a data area in
which something is stored (R160). (PRESUMED, log 99.) -/
def Chip.mapByte (s : Chip) (a : Nat) : Option Byte :=
  if a < 0x10000 then some (Config.bootRom a)
  else if a < 0x10080000 then some (SMap.get s.ci.tcsram 0 (a - 0x10000000))
  else if a < 0x100A0000 then some (s.traceByte (a - 0x10080000))
  else if a < 0x20000000 + dataArea ∨ (a < 0x20400000 ∧ s.dataErased) then some (SMap.get s.boot.flash 0xFF (a - 0x20000000))
  else if a < 0x20400000 then none
  else if 0x80000000 ≤ a then some ((s.readBehind (s.apertureReq a 1)).getD 0 0)
  else if rearmBase + 0x204 ≤ a ∧ a < rearmBase + 0x208 then some ((le 4 s.keys.rearmResult.toNat).getD (a - (rearmBase + 0x204)) 0)
  else if rearmBase + 0x210 ≤ a ∧ a < rearmBase + 0x220 then some (s.keys.rearmNonce.getD (a - (rearmBase + 0x210)) 0)
  else if 0x40201000 ≤ a ∧ a < 0x40201100 then some 0
  else if 0x40104080 ≤ a ∧ a < 0x40104084 then some ((le 4 s.watchdog.number).getD (a - 0x40104080) 0)
  else none

/-- The re-arm nonce is drawn at its first read in a debug session (R203, R204). (DEDUCED, log 97.) -/
def Chip.openRearm (a : Nat) (s : Chip) : Chip :=
  if s.keys.rearmOpen ∨ a + 4 ≤ rearmBase + 0x210 ∨ rearmBase + 0x220 ≤ a then s
  else
    let n := s.freshNonce
    if n.1 = [] then s else n.2.modKeys fun k => { k with rearmOpen := true, rearmNonce := n.1 }

/-- A word of the aperture while the DRAM does not serve or CH_14 is full, or of the nonce with none drawn, is busy. -/
def Chip.debugBusy (s : Chip) (a : Nat) : Bool :=
  (decide (0x80000000 ≤ a) && (!s.dramServes || s.conductorHeld)) ||
    (!s.keys.rearmOpen && decide (rearmBase + 0x210 < a + 4) && decide (a < rearmBase + 0x220))

/-- Opcode 0x20: the four bytes from an address, the lowest address in the least significant byte; an uncorrectable burst of the
aperture answers as a refused access. (DEDUCED, log 98.) -/
def debugRead (a _d : Nat) (s : Chip) : Chip × Nat × Nat :=
  match s.debugForbidden false a with
  | some x => (s.accessRefused 2 x 0 0, 2, 0)
  | none =>
    let s := s.openRearm a
    if s.debugBusy a then (s, 4, 0)
    else if 0x80000000 ≤ a then
      match s.serve (s.apertureReq a 4) with
      | (some b, s) => (s, 0, leNat b)
      | (none, s) => (s, 2, 0)
    else
      let d := s.drawBytes 4
      (d.2, 0, leNat ((List.range 4).map fun i => (s.mapByte (a + i)).getD (d.1.getD i 0)))

/-- `DEBUG_READ_WORD` (R170). -/
def execDebugReadWord (f : DebugFrame) (s : State) : Host.Outcome State Fault Refusal := next s (debugFrame 0x20 f debugRead s.chip)

/-- A byte written to the conductor's map; an island register the spec does not give keeps no value,
and the aperture is written through the DRAM's queue. (PRESUMED, log 99.) -/
def Chip.mapWrite (s : Chip) (x : Nat × Byte) : Chip :=
  let a := x.1
  if 0x10000000 ≤ a ∧ a < 0x10080000 then s.modCi fun c => { c with tcsram := c.tcsram.set 0 (a - 0x10000000) x.2 }
  else if rearmBase ≤ a ∧ a < rearmBase + 0x200 then s.modKeys fun k => { k with rearmBuf := k.rearmBuf.set (a - rearmBase) x.2 }
  else s

/-- Opcode 0x21: the four bytes from an address, refused whole where one is forbidden (R20); 1 written to 0x4010_8200
submits the re-arm buffer (Table 7.13). (DEDUCED, log 100.) -/
def debugWrite (a d : Nat) (s : Chip) : Chip × Nat × Nat :=
  match s.debugForbidden true a with
  | some x => (s.accessRefused 2 x 0 1, 2, 0)
  | none =>
    if 0x80000000 ≤ a then
      if s.dramServes = false then (s, 4, 0)
      else (s.dramEnqueue { s.apertureReq a 4 with write := true, data := le 4 d }, 0, 0)
    else if a = rearmBase + 0x200 then (if d = 1 then submitRearm s else s, 0, 0)
    else (((List.range 4).map fun i => (a + i, BitVec.ofNat 8 (d / 256 ^ i))).foldl Chip.mapWrite s, 0, 0)

/-- `DEBUG_WRITE_WORD` (R170). -/
def execDebugWriteWord (f : DebugFrame) (s : State) : Host.Outcome State Fault Refusal := next s (debugFrame 0x21 f debugWrite s.chip)

/-! ## Single step (R168) -/

/-- A core's register; register 0 reads as zero. -/
def Chip.xreg (s : Chip) (i : Nat) : Word32 := if i = 0 then 0 else s.ci.regs.getD (i - 1) 0

/-- Write a core's register; register 0 keeps nothing. -/
def Chip.setX (i : Nat) (v : Word32) (s : Chip) : Chip := s.modCi fun c => { c with regs := if i = 0 then c.regs else c.regs.set (i - 1) v }

/-- Write the program counter. -/
def Chip.setPc (v : Word32) (s : Chip) : Chip := s.modCi fun c => { c with pc := v }

/-- The partition that the cores execute: the running one in whose code the address lies (R164). (PRESUMED, log 99.) -/
def Chip.corePart (s : Chip) (pc : Nat) : Option (Fin 8) :=
  (List.finRange 8).find? fun p =>
    (s.part p.val).running && ((s.partitionRights p.val).take 1).any fun r => decide (r.base ≤ pc) && decide (pc < r.base + r.size)

/-- The first address of an access of the cores that is not allowed: outside the rights of the partition, or of
Table 1.4 outside every partition; to the re-arm registers, which the debug port alone reaches (R204); or a check-in word of
another's slot (R19, R164, R448). -/
def Chip.coreForbidden (s : Chip) (part : Option (Fin 8)) (k : AccessKind) (a n : Nat) : Option Nat :=
  let rights := match part with
    | some p => s.partitionRights p.val
    | none => s.mapRights
  let bad (x : Nat) : Bool :=
    (k != .execute && decide (rearmBase ≤ x) && decide (x < rearmBase + 0x220)) ||
      (k == .write && decide (0x40104000 ≤ x) && decide (x < 0x40104040) && s.slotOwner ((x - 0x40104000) / 4) != part.map Fin.val)
  ((List.range n).map (a + ·)).find? fun x => bad x || (firstForbidden rights k x 1).isSome

/-- An access is refused whole and recorded, and taken as an access-fault exception (R20). (PRESUMED, log 99.) -/
def Chip.coreFault (part : Option (Fin 8)) (k : AccessKind) (x : Nat) (s : Chip) : Chip :=
  (s.accessRefused 2 x 0 (kindCode k)).coreTrap (part.map Fin.val)

/-- The bytes of a load; none for an uncorrectable burst. -/
def Chip.loadBytes (a n : Nat) (s : Chip) : Option Bytes × Chip :=
  if 0x80000000 ≤ a then s.serve (s.apertureReq a n)
  else
    let d := s.drawBytes 4
    (some ((List.range n).map fun i => (s.mapByte (a + i)).getD (d.1.getD i 0)), d.2)

/-- A load of the cores, and where they go on; none while it cannot be served (R367). -/
def Chip.coreLoad (part : Option (Fin 8)) (f rd a : Nat) (go : Word32) (s : Chip) : Option Chip :=
  if s.debugBusy a then none
  else
    let n := 2 ^ (f % 4)
    match s.loadBytes a n with
    | (some b, s) => some ((s.setX rd (if f < 4 then rvSext (8 * n) (leNat b) else BitVec.ofNat 32 (leNat b))).setPc go)
    | (none, s) => some (s.coreTrap (part.map Fin.val))

/-- A store of the cores: to the aperture by the DRAM's queue, to a check-in word a check-in, to a software trace word
a packet, else to the bytes of the map; none while it cannot be served. -/
def Chip.coreStore (part : Option (Fin 8)) (f a : Nat) (v : Word32) (s : Chip) : Option Chip :=
  let n := 2 ^ f
  if 0x80000000 ≤ a then
    if s.dramServes then
      some (s.dramEnqueue { s.apertureReq a n with write := true, data := le n v.toNat, owner := (part.map fun p => p.val + 1).getD 0 })
    else none
  else if 0x40104000 ≤ a ∧ a < 0x40104040 ∧ a % 4 = 0 ∧ f = 2 then
    some (match part with
      | some p => checkIn p.val ((a - 0x40104000) / 4) v s
      | none => s)
  else if 0x40201000 ≤ a ∧ a < 0x40201100 ∧ a % 4 = 0 ∧ f = 2 then
    some (match part with
      | some p => traceSoftware p (Fin.ofNat 64 ((a - 0x40201000) / 4)) v s
      | none => s)
  else some (((List.range n).map fun i => (a + i, BitVec.ofNat 8 (v.toNat / 256 ^ i))).foldl Chip.mapWrite s)

/-- One instruction of `n` bytes at the program counter runs; none while its access cannot be served. -/
def Chip.coreRun (part : Option (Fin 8)) (n : Nat) (op : RvOp) (s : Chip) : Option Chip :=
  let pc := s.ci.pc &&& ~~~1
  let go := pc + BitVec.ofNat 32 n
  match op with
  | .lui rd v => some ((s.setX rd v).setPc go)
  | .auipc rd v => some ((s.setX rd (pc + v)).setPc go)
  | .jal rd off => some ((s.setX rd go).setPc (pc + off))
  | .jalr rd a off => some ((s.setX rd go).setPc ((s.xreg a + off) &&& ~~~1))
  | .branch f a b off => some (s.setPc (if rvTaken f (s.xreg a) (s.xreg b) then pc + off else go))
  | .aluImm f alt rd a v => some ((s.setX rd (rvAlu f alt (s.xreg a) v)).setPc go)
  | .alu f alt rd a b => some ((s.setX rd (rvAlu f alt (s.xreg a) (s.xreg b))).setPc go)
  | .mul f rd a b => some ((s.setX rd (rvMul f (s.xreg a) (s.xreg b))).setPc go)
  | .fence => some (s.setPc go)
  | .system => some s.wildCores
  | .load f rd a off =>
    let x := (s.xreg a + off).toNat
    match s.coreForbidden part .read x (2 ^ (f % 4)) with
    | some y => some (s.coreFault part .read y)
    | none => s.coreLoad part f rd x go
  | .store f a b off =>
    let x := (s.xreg a + off).toNat
    match s.coreForbidden part .write x (2 ^ f) with
    | some y => some (s.coreFault part .write y)
    | none => (s.coreStore part f x (s.xreg b)).map (Chip.setPc go)

/-- `n` bytes of code at an address. -/
def Chip.coreFetch (s : Chip) (a n : Nat) : Nat := leNat ((List.range n).map fun i => (s.mapByte (a + i)).getD 0)

/-- Fetch and run one instruction; none while its access cannot be served. (PRESUMED, log 99.) -/
def Chip.coreStep (s : Chip) : Option Chip :=
  let a := (s.ci.pc &&& ~~~1).toNat
  let part := s.corePart a
  match s.coreForbidden part .execute a 2 with
  | some x => some (s.coreFault part .execute x)
  | none =>
    if s.coreFetch a 2 % 4 ≠ 3 then s.coreRun part 2 (rvExpand (s.coreFetch a 2))
    else match s.coreForbidden part .execute a 4 with
      | some x => some (s.coreFault part .execute x)
      | none => s.coreRun part 4 (rvDecode (s.coreFetch a 4))

/-- Opcode 0x12: the halted cores run one instruction; busy while they run, or while the access cannot be served. -/
def debugStep (_a _d : Nat) (s : Chip) : Chip × Nat × Nat :=
  if s.ci.halted = false then (s, 4, 0)
  else match s.coreStep with
    | some c => (c, 0, 0)
    | none => (s, 4, 0)

/-- `DEBUG_SINGLE_STEP` (R168). -/
def execDebugSingleStep (f : DebugFrame) (s : State) : Host.Outcome State Fault Refusal := next s (debugFrame 0x12 f debugStep s.chip)

end Sys2Proof.Machine
end

