-- ==== Sys2Proof/Machine/Spi.lean ====
section
/-! DEFINITION. The SPI target port (R111 to R116): request frames, FETCH, STATUS, SPI_IRQ_N and the lane width. -/

namespace Sys2Proof.Machine

/-- A frame is rejected: nothing executes, bit 3 is set and the rejection counted (R113). (DESIGN CHOICE, log 122.) -/
def SpiPort.reject (p : SpiPort) : SpiPort := { p with rejected := true, rejects := satAdd 32 p.rejects 1 }

/-- A frame meets a full port: it is discarded whole (R114, R137). -/
def Chip.discardFrame (s : Chip) : Chip :=
  (s.modSpi fun q => { q with discarded := true, discards := satAdd 32 q.discards 1 }).count 3

/-- A request frame of Table 5.3 that step 1 passes: whole bytes, a request command, a length that agrees with the
bytes clocked, and the CRC (R112, R113). -/
def frameSound (f : Bytes) (broken : Bool) : Bool :=
  let n := f.length
  let body := n - 2
  let agrees : Bool := match byteAt f 0 with
    | 0x10 => body == 9
    | 0x20 => body == 9 + fieldAt f 7 2
    | _ => false
  !broken && decide (11 ≤ n) && agrees && crc16 (f.take body) == leNat (f.drop body)

/-- SPI_CS_N falls: the port takes mode 0 or mode 3 from the level of SPI_SCK (R45), and a width whose response has been fetched
takes effect (R116). (DESIGN CHOICE, log 126.) -/
def Chip.csFall (sckHigh : Bool) (s : Chip) : Chip :=
  s.modSpi fun p => { p with mode3 := sckHigh, quad := p.newQuad.getD p.quad, newQuad := none }

/-- SPI_CS_N falls on a FETCH, a STATUS or a bare change of width, whose commands do not carry the level of SPI_SCK: it is free.
(DESIGN CHOICE, log 126.) -/
def Chip.csFallFree (s : Chip) : Chip := (s.modFree (· + 1)).csFall (Config.freeBool s.free)

/-- A READ of an object other than window data whose Length is not zero: length mismatch once the object is found
(R112). (DEDUCED, log 95.) -/
def badLengthRead (p : Path) (tag : Word16) (idx sub : Nat) (s : Chip) : Chip :=
  match s.arrive p tag idx sub with
  | (s, none) => s
  | (s, some t) =>
    s.answerRead t (.refused (match lookup idx sub with
      | .noObject => 0x000E
      | .noSub => 0x000F
      | .found row => if row.writeOnly then 0x0011 else 0x0012))

/-- A request frame comes in, behind the fall of SPI_CS_N: discarded at a full port, rejected, or handled as the read or write it
spells. (DEDUCED, log 95.) -/
def spiRequest (a : RecArray) (f : Bytes) (g : SpiFraming) (s : Chip) : Chip :=
  if s.host.online = false then s else
  let s := s.csFall g.sckHigh
  if s.host.spi.free = false then s.discardFrame
  else if frameSound f g.broken = false then s.modSpi SpiPort.reject
  else
    let p : Path := .spi (f.getD 1 0)
    let tag : Word16 := BitVec.ofNat 16 (fieldAt f 2 2)
    let idx := fieldAt f 4 2
    let sub := byteAt f 6
    let len := fieldAt f 7 2
    if byteAt f 0 = 0x20 then objectWrite a.next p tag idx sub (slice f 9 len) s
    else if isWindowData idx sub = false ∧ len ≠ 0 then badLengthRead p tag idx sub s
    else objectRead a p tag idx sub len s

/-- `SPI_READ` (R111). -/
def execSpiRead (frame : Bytes) (framing : SpiFraming) (s : State) : Host.Outcome State Fault Refusal :=
  next s (spiRequest s.array frame framing s.chip)

/-- `SPI_WRITE` (R111). -/
def execSpiWrite (frame : Bytes) (framing : SpiFraming) (s : State) : Host.Outcome State Fault Refusal :=
  next s (spiRequest s.array frame framing s.chip)

/-- A waiting response may leave: no earlier request of its session occupies the port (R114). -/
def SpiPort.mayLeave (p : SpiPort) (e : SpiEntry) : Bool :=
  e.frame.isSome && !(p.entries.any fun x => x.session == e.session && decide (x.id < e.id))

/-- The response that leaves next: the oldest completion among those that may (R114). -/
def SpiPort.nextOut (p : SpiPort) : Option SpiEntry :=
  (p.entries.filter p.mayLeave).foldl (fun best e =>
    match best with
    | none => some e
    | some b => if e.order < b.order then some e else some b) none

/-- FETCH: the oldest waiting response leaves and frees its entry; with none ready, the frame status alone (R114,
Table 5.4). The fetch of the response to a width write lets the width change (R116). -/
def SpiPort.fetch (p : SpiPort) : SpiPort × Bytes :=
  match p.nextOut with
  | none => (p, [0])
  | some e =>
    let q := { p with entries := p.entries.filter fun x => x.id != e.id }
    let q := match p.quadEntry.find? fun w => w.1 == e.id with
      | some w => { q with newQuad := some w.2, quadEntry := p.quadEntry.filter fun w => w.1 != e.id }
      | none => q
    (q.setIrq, e.frame.getD [])

/-- FETCH. -/
def spiFetch (s : Chip) : Chip :=
  if s.host.online = false then s
  else
    let s := s.csFallFree
    let x := s.host.spi.fetch
    (s.modSpi fun _ => x.1).emit (.spi s.host.spi.quad x.2)

/-- `SPI_FETCH` (R114). -/
def execSpiFetch (s : State) : Host.Outcome State Fault Refusal := next s (spiFetch s.chip)

/-- STATUS: the status byte, whose bits 2 to 4 it clears (R114, R115). -/
def spiStatus (s : Chip) : Chip :=
  if s.host.online = false then s
  else
    let s := s.csFallFree
    (s.modSpi fun p => SpiPort.setIrq { p with emcyPending := false, rejected := false, discarded := false }).emit
      (.spi s.host.spi.quad [s.host.spi.status])

/-- `SPI_STATUS` (R114). -/
def execSpiStatus (s : State) : Host.Outcome State Fault Refusal := next s (spiStatus s.chip)

/-- `SPI_LANE_SWITCH` (R116): a fall of SPI_CS_N. -/
def execSpiLaneSwitch (s : State) : Host.Outcome State Fault Refusal := next s s.chip.csFallFree

/-! ## The data lines (R45, R111) -/

/-- What SPI_IO_k is to the port: an input, an output, or left at high impedance. -/
inductive SpiRole where
  | input | output | idle
  deriving DecidableEq, Repr

/-- The role of SPI_IO_k while the host sends or the device returns bytes: in single lane IO_0 is the data input and IO_1
the data output, the others at high impedance; in quad lane all four carry the byte (R45, R111). -/
def spiRole (quad returning : Bool) (k : Nat) : SpiRole :=
  if quad then (if returning then .output else .input)
  else if k = 0 then .input else if k = 1 ∧ returning then .output else .idle

/-- The levels on the lines at each clock of a byte, the most significant first: one bit on a single line, or in quad lane the
high nibble and then the low one, with bit 7 or 3 on SPI_IO_3 (R111). -/
def spiClocks (quad : Bool) (b : Byte) : List (List Bool) :=
  if quad then [[4, 5, 6, 7].map b.getLsbD, [0, 1, 2, 3].map b.getLsbD] else ((List.range 8).map fun i => [b.getLsbD (7 - i)])

/-- The bytes of a transaction: what the host sends, a dummy byte after FETCH and STATUS, and what the device then
drives (R111). -/
def spiTransaction (quad : Bool) (sent returned : Bytes) : List (List Bool) × List (List Bool) :=
  let dummy : Bytes := if returned = [] then [] else [0]
  ((sent ++ dummy).flatMap (spiClocks quad), returned.flatMap (spiClocks quad))

end Sys2Proof.Machine
end

