-- ==== Sys2Proof/Machine/StartUp.lean ====
section
/-! DEFINITION. Start-up after time 0 (R72 to R75, Table 3.3): the REFCLK check, the boot ROM's choice of an image
(R163), dictionary online (R107, R124), the SI's start (R195, R196, R226, R228) and ready to arm. -/

namespace Sys2Proof.Machine

/-! ## The REFCLK check (R73, R81) -/

/-- Whether a measured REFCLK passes: within 1.5 % always, beyond 2.5 % or absent never, between them as the device
decides (Table 3.4). (DEDUCED, log 78.) -/
def Chip.refPasses (hz : Nat) (s : Chip) : Bool × Chip :=
  if hz = 0 ∨ s.refBeyond 25 hz then (false, s) else if s.refBeyond 15 hz = false then (true, s) else s.drawBool

/-- The check passes: the clocks lock, the CI's boot ROM runs, and the VI serves it. It fails: one record, and the check
repeats (R73). -/
def refclkCheck (hz : Nat) (s : Chip) : Chip :=
  if s.power.phase ≠ .refclkCheck then s
  else
    let y := s.refPasses hz
    let s := y.2.modClk fun c => { c with refHz := hz, refStatus := if y.1 then 0 else if hz = 0 then 1 else 2 }
    if y.1 then (((s.modPower fun p => { p with phase := .booting }).putIsland 2 .loading).putIsland 4 .running)
    else if s.power.refFaultRecorded then s
    else (s.record 0x1004 1 (le 4 hz)).modPower fun p => { p with refFaultRecorded := true }

/-- `STARTUP_REFCLK_CHECK` (R73). -/
def execStartupRefclkCheck (measuredHz : Nat) (s : State) : Host.Outcome State Fault Refusal := next s (refclkCheck measuredHz s.chip)

/-! ## The boot ROM (R163, R447, R476) -/

/-- The slot that runs: the preferred one, then the other, if bootable. (DEDUCED, log 101.) -/
def Chip.bootSlot (s : Chip) : Option Nat :=
  let first := s.boot.preferred.toNat % 2
  [first, 1 - first].find? fun a => s.areaStatus a == 0

/-- The partitions of the running image. -/
def partitionsOf (img : Bytes) : SMap Partition :=
  (imgDescs img).foldl (fun m d => m.put (descId d) { present := true, desc := d, entry := descEntry d }) []

/-- A watchdog slot that two partitions name gives a record for the later ones (R447). -/
def Chip.slotConflicts (s : Chip) : Chip :=
  (List.range 8).foldl (fun t p =>
    let later : Bool := (List.range 16).any fun i => (descSlots (s.part p).desc).testBit i && s.slotOwner i != some p
    if (s.part p).present ∧ later then t.record 0x0004 1 (le 2 0x2800 ++ [0x0C] ++ le 2 2) else t) s

/-- Stored values that wait for their time are in force from here: the DRAM's layout and rate (R365), the cluster's
identity (R444) and the clock outputs, which wait for their PLL (R91). -/
def Chip.takeStart (s : Chip) : Chip :=
  let stored (k : Nat) : Bool := s.boot.store.any fun e => e.index == 0x2620 + k && decide (1 ≤ e.sub) && decide (e.sub ≤ 3)
  let s := (s.modDram fun d => { d with layout := d.layoutStored, rate := d.rateStored }).modCluster Cluster.takeStored
  (List.range 6).foldl (fun t k => if stored k then t.modClko k fun c => { c with restored := some (c.format, c.source, c.divider) } else t) s

/-- The boot ROM's checks are complete: the first bootable slot runs, with the stored configuration, or the reduced
service applies (R75, R163). In Locked and Scrapped start-up stops after the container check (R72); in Locked with an intent
pending and a valid recovery image the ROM goes on to that image (R158). -/
def bootVerified (s : Chip) : Chip :=
  if s.power.phase ≠ .booting ∨ s.boot.running ≠ 0xFF then s
  else
    let s := ((s.noteArea 0).noteArea 1).noteArea 2
    let reduce (t : Chip) : Chip := t.modPower fun p => { p with phase := .reduced }
    if s.life.state = .locked ∧ s.life.pending.isSome ∧ s.areaStatus 2 = 0 then s
    else if s.life.state = .locked ∨ s.life.state = .scrapped then reduce s
    else
      -- the preferred slot is a stored value, which the ROM takes before the others (R163)
      let s := match s.boot.store.find? fun e => e.index == 0x2500 && e.sub == 2 with
        | some e => s.modBoot fun b => { b with preferred := e.value.getD 0 0 }
        | none => s
      match s.bootSlot with
      | none => reduce s
      | some a =>
        let img := s.areaImage a
        let s := s.modBoot fun b =>
          { b with running := BitVec.ofNat 8 a, version := BitVec.ofNat 8 (imgVersion img), digest := imgDigest img, signer := imgSigner img, bootUs := s.upUs }
        let s := (s.modCi fun c => { c with partitions := partitionsOf img }).slotConflicts
        (s.restoreStored .all).takeStart.runCi

/-- `BOOT_IMAGE_VERIFIED` (R163). -/
def execBootImageVerified (s : State) : Host.Outcome State Fault Refusal := next s (bootVerified s.chip)

/-! ## Dictionary online (R72, R107) -/

/-- The islands that leave reset with the dictionary online (Table 3.3): those whose rail is good, and REFCLK is there for (R65,
R81). The LV completes its first calibration in loading (R401). -/
def Chip.leaveReset (s : Chip) : Chip :=
  let s := if s.island 3 = .resetting then s.islandLoad 3 else s
  let s := [6, 5, 7, 8].foldl (fun t i => t.islandLoad i) s
  (((s.islandLoad 9).firstCalibration).putIsland 9 .running).islandLoad 10

/-- Conditions that still hold at start-up produce their EMCY after the boot-up message (R526). (DEDUCED, log 101.) -/
def Chip.findConditions (s : Chip) : Chip :=
  let s := (List.range 11).foldl (fun t i =>
    let x := t.island i
    if x = .faulted ∨ x = .dead then t.raise (1000 + i) 0x5000 0x81 0x000B i (i + 256 * x.code) else t) s
  let s := if s.clk.refLost then s.raise 2000 0x5000 0x81 0x1005 1 s.clk.refStatus.toNat else s
  let s := [0, 1].foldl (fun t p => if (t.pll p).faultHeld then t.raise (2001 + p) 0x5000 0x81 0x6001 6 p else t) s
  let s := [Rail.vddSec, .vddPll, .vddqDram].foldl (fun t r =>
    if t.power.railsGood.getLsbD (railBit r) then t
    else (railIslands r).foldl (fun t i => t.raise (3000 + i) 0x3000 0x05 0x0003 i (i + 256)) t) s
  let s := if s.power.railsGood.getLsbD 7 then s else s.raise 3100 0x3000 0x05 0x1014 1 s.power.vbatMv
  if s.background.warning then s.raiseTemperature else s

/-- The HI leaves reset: CAN services initialise with a boot-up message on each bus, and the islands that the image
needs leave reset (R72, R107). (DEDUCED, log 101.) -/
def dictionaryOnline (s : Chip) : Chip :=
  let booted : Bool := s.power.phase == .booting && s.boot.running != 0xFF
  if s.host.online ∨ (booted = false ∧ s.power.phase ≠ .reduced) then s
  else
    let s := (s.putIsland 0 .running).modHost fun h => { h with online := true, conditions := [], errors := [], errorReg := 0, eventBits := 0 }
    let s := (s.takeBitCodes.initCan).modPower fun p => { p with onlineUs := s.upUs, phase := if booted then .online else .reduced }
    (if booted then s.leaveReset else s).findConditions

/-- `DICTIONARY_ONLINE` (R107). -/
def execDictionaryOnline (s : State) : Host.Outcome State Fault Refusal := next s (dictionaryOnline s.chip)

/-! ## The SI's start and ready to arm -/

/-- The SI starts: keys from their blobs (R195), known-answer tests (R228), the registry (R196), and the entropy
source's start-up test, which seeds the DRBG (R225 to R227). -/
def siStart (tests : BitVec 9) (entropyOk : Bool) (s : Chip) : Chip :=
  if s.island 3 ≠ .loading then s
  else
    let s := s.reloadKeys.loadRegistry.modCrypto fun c => { c with selfTest := BitVec.ofNat 16 tests.toNat }
    if tests ≠ 0 then (s.record 0x3005 3 (le 2 tests.toNat)).failIsland 3 .faulted
    else if s.keys.registryOk = false then (s.record 0x3002 3 []).failIsland 3 .faulted
    else
      let s := if entropyOk then (s.modCrypto fun c => { c with entropy := .healthy }).seedDrbg else s.entropyFailed 1
      s.runIsland 3

/-- `SI_START` (R228). -/
def execSiStart (selfTest : BitVec 9) (entropyOk : Bool) (s : State) : Host.Outcome State Fault Refusal :=
  next s (siStart selfTest entropyOk s.chip)

/-- Ready to arm: the MI, the SI and the TI run; in Analysis the SI is disabled (R72, Table 6.2). (DEDUCED, log 101.) -/
def readyToArm (s : Chip) : Chip :=
  let si : Bool := s.island 3 == .running || s.life.state == .analysis
  if s.power.phase = .online ∧ s.island 8 = .running ∧ si ∧ s.island 6 = .running then
    s.modPower fun p => { p with phase := .ready, readyUs := max 1 s.upUs }
  else s

/-- `READY_TO_ARM` (R72). -/
def execReadyToArm (s : State) : Host.Outcome State Fault Refusal := next s (readyToArm s.chip)

end Sys2Proof.Machine
end

