-- ==== Sys2Proof/Machine/Dispatch.lean ====
section
/-! DEFINITION. What each command does: one arm for each constructor of `Instr`, in the table's order. -/

namespace Sys2Proof.Machine

def exec (i : Instr) (s : State) : Host.Outcome State Fault Refusal :=
  match i with
  | .objectWrite p tag index sub payload => Sys2Proof.Machine.execObjectWrite p tag index sub payload s
  | .conductorAccessFault master partition kind addr len => Sys2Proof.Machine.execConductorAccessFault master partition kind addr len s
  | .rstNReset lowNs => Sys2Proof.Machine.execRstNReset lowNs s
  | .chipReset causes => Sys2Proof.Machine.execChipReset causes s
  | .aoPowerOnReset => Sys2Proof.Machine.execAoPowerOnReset s
  | .railBrownOut rail minMv dipNs => Sys2Proof.Machine.execRailBrownOut rail minMv dipNs s
  | .railGood rail => Sys2Proof.Machine.execRailGood rail s
  | .startupRefclkCheck measuredHz => Sys2Proof.Machine.execStartupRefclkCheck measuredHz s
  | .bootImageVerified => Sys2Proof.Machine.execBootImageVerified s
  | .dictionaryOnline => Sys2Proof.Machine.execDictionaryOnline s
  | .siStart selfTest entropyOk => Sys2Proof.Machine.execSiStart selfTest entropyOk s
  | .readyToArm => Sys2Proof.Machine.execReadyToArm s
  | .chipResetCommand p tag => Sys2Proof.Machine.execChipResetCommand p tag s
  | .deepSleepCommand p tag => Sys2Proof.Machine.execDeepSleepCommand p tag s
  | .deepSleepWake source => Sys2Proof.Machine.execDeepSleepWake source s
  | .refclkLost measuredHz => Sys2Proof.Machine.execRefclkLost measuredHz s
  | .refclkRestored measuredHz => Sys2Proof.Machine.execRefclkRestored measuredHz s
  | .spreadTakesEffect unit => Sys2Proof.Machine.execSpreadTakesEffect unit s
  | .pll1Apply p tag => Sys2Proof.Machine.execPll1Apply p tag s
  | .pll1PowerOff p tag => Sys2Proof.Machine.execPll1PowerOff p tag s
  | .pllLocked pll => Sys2Proof.Machine.execPllLocked pll s
  | .pllFault pll => Sys2Proof.Machine.execPllFault pll s
  | .clkoApply p tag k => Sys2Proof.Machine.execClkoApply p tag k s
  | .clkoPhaseStep p tag k steps => Sys2Proof.Machine.execClkoPhaseStep p tag k steps s
  | .phaseStepApplied k => Sys2Proof.Machine.execPhaseStepApplied k s
  | .launchTakesEffect sq => Sys2Proof.Machine.execLaunchTakesEffect sq s
  | .heldLaunchPermitted sq => Sys2Proof.Machine.execHeldLaunchPermitted sq s
  | .heldActionLate sq => Sys2Proof.Machine.execHeldActionLate sq s
  | .canopenSync rx => Sys2Proof.Machine.execCanopenSync rx s
  | .timeMessage rx content => Sys2Proof.Machine.execTimeMessage rx content s
  | .nmtCommand rx specifier node => Sys2Proof.Machine.execNmtCommand rx specifier node s
  | .nmtResetCommunication bus => Sys2Proof.Machine.execNmtResetCommunication bus s
  | .canHeartbeatSend => Sys2Proof.Machine.execCanHeartbeatSend s
  | .consumedHeartbeatLost k => Sys2Proof.Machine.execConsumedHeartbeatLost k s
  | .busOff bus => Sys2Proof.Machine.execBusOff bus s
  | .busOffRecovery bus => Sys2Proof.Machine.execBusOffRecovery bus s
  | .canErrorPassive bus => Sys2Proof.Machine.execCanErrorPassive bus s
  | .emcyInhibitExpiry bus => Sys2Proof.Machine.execEmcyInhibitExpiry bus s
  | .errorFieldClear p => Sys2Proof.Machine.execErrorFieldClear p s
  | .usdoTimeout bus transfer => Sys2Proof.Machine.execUsdoTimeout bus transfer s
  | .spiRead frame broken => Sys2Proof.Machine.execSpiRead frame broken s
  | .spiWrite frame broken => Sys2Proof.Machine.execSpiWrite frame broken s
  | .spiFetch => Sys2Proof.Machine.execSpiFetch s
  | .spiStatus => Sys2Proof.Machine.execSpiStatus s
  | .spiLaneSwitch => Sys2Proof.Machine.execSpiLaneSwitch s
  | .sessionNonceRead p => Sys2Proof.Machine.execSessionNonceRead p s
  | .sessionNonceDiscard p bytes => Sys2Proof.Machine.execSessionNonceDiscard p bytes s
  | .sessionOpen p request => Sys2Proof.Machine.execSessionOpen p request s
  | .sessionClose p number => Sys2Proof.Machine.execSessionClose p number s
  | .sessionIdleTimeout session => Sys2Proof.Machine.execSessionIdleTimeout session s
  | .tagStage p tag => Sys2Proof.Machine.execTagStage p tag s
  | .storeParameters p range => Sys2Proof.Machine.execStoreParameters p range s
  | .storeComplete => Sys2Proof.Machine.execStoreComplete s
  | .restoreDefaults p range => Sys2Proof.Machine.execRestoreDefaults p range s
  | .windowRegionSelect p window region => Sys2Proof.Machine.execWindowRegionSelect p window region s
  | .windowOffsetSet p window offset => Sys2Proof.Machine.execWindowOffsetSet p window offset s
  | .windowDataRead p window len => Sys2Proof.Machine.execWindowDataRead p window len s
  | .windowDataWrite p tag window data => Sys2Proof.Machine.execWindowDataWrite p tag window data s
  | .lifeCycleTransition p tag target count nonce auths stuck => Sys2Proof.Machine.execLifeCycleTransition p tag target count nonce auths stuck s
  | .transitionNonceRead p => Sys2Proof.Machine.execTransitionNonceRead p s
  | .recoveryImageRun stuck => Sys2Proof.Machine.execRecoveryImageRun stuck s
  | .fuseSkim read => Sys2Proof.Machine.execFuseSkim read s
  | .fuseProgram p tag word bits => Sys2Proof.Machine.execFuseProgram p tag word bits s
  | .imageInstall p tag slotB => Sys2Proof.Machine.execImageInstall p tag slotB s
  | .recoveryInstall p tag => Sys2Proof.Machine.execRecoveryInstall p tag s
  | .raiseMinimumVersion p tag version => Sys2Proof.Machine.execRaiseMinimumVersion p tag version s
  | .revokeKeySlot p tag slot => Sys2Proof.Machine.execRevokeKeySlot p tag slot s
  | .debugEnable => Sys2Proof.Machine.execDebugEnable s
  | .debugDisable => Sys2Proof.Machine.execDebugDisable s
  | .debugIdentify f => Sys2Proof.Machine.execDebugIdentify f s
  | .debugChallengeWord f => Sys2Proof.Machine.execDebugChallengeWord f s
  | .debugAuthorisationWord f => Sys2Proof.Machine.execDebugAuthorisationWord f s
  | .debugAuthorise f => Sys2Proof.Machine.execDebugAuthorise f s
  | .debugHalt f => Sys2Proof.Machine.execDebugHalt f s
  | .debugResume f => Sys2Proof.Machine.execDebugResume f s
  | .debugSingleStep f => Sys2Proof.Machine.execDebugSingleStep f s
  | .debugReadWord f => Sys2Proof.Machine.execDebugReadWord f s
  | .debugWriteWord f => Sys2Proof.Machine.execDebugWriteWord f s
  | .debugReadRegister f => Sys2Proof.Machine.execDebugReadRegister f s
  | .debugWriteRegister f => Sys2Proof.Machine.execDebugWriteRegister f s
  | .debugChipReset f => Sys2Proof.Machine.execDebugChipReset f s
  | .importKey p tag op => Sys2Proof.Machine.execImportKey p tag op s
  | .exportKey p tag op => Sys2Proof.Machine.execExportKey p tag op s
  | .destroy p tag op => Sys2Proof.Machine.execDestroy p tag op s
  | .changeAttributes p tag op => Sys2Proof.Machine.execChangeAttributes p tag op s
  | .createOwner p tag op => Sys2Proof.Machine.execCreateOwner p tag op s
  | .deleteOwner p tag op => Sys2Proof.Machine.execDeleteOwner p tag op s
  | .addCustodian p tag op => Sys2Proof.Machine.execAddCustodian p tag op s
  | .removeCustodian p tag op => Sys2Proof.Machine.execRemoveCustodian p tag op s
  | .reArm => Sys2Proof.Machine.execReArm s
  | .intrusionConfiguration p tag op => Sys2Proof.Machine.execIntrusionConfiguration p tag op s
  | .operationNonceRead p => Sys2Proof.Machine.execOperationNonceRead p s
  | .generate p tag rest => Sys2Proof.Machine.execGenerate p tag rest s
  | .derive p tag rest => Sys2Proof.Machine.execDerive p tag rest s
  | .keyExpiry slot => Sys2Proof.Machine.execKeyExpiry slot s
  | .intrusionDetected cause zeroiseNs => Sys2Proof.Machine.execIntrusionDetected cause zeroiseNs s
  | .sensorTripRecorded sensor => Sys2Proof.Machine.execSensorTripRecorded sensor s
  | .aesCbcEncrypt p tag job => Sys2Proof.Machine.execAesCbcEncrypt p tag job s
  | .aesCbcDecrypt p tag job => Sys2Proof.Machine.execAesCbcDecrypt p tag job s
  | .aesCtr p tag job => Sys2Proof.Machine.execAesCtr p tag job s
  | .aesGcmEncrypt p tag job => Sys2Proof.Machine.execAesGcmEncrypt p tag job s
  | .aesGcmDecrypt p tag job => Sys2Proof.Machine.execAesGcmDecrypt p tag job s
  | .aesCmacGenerate p tag job => Sys2Proof.Machine.execAesCmacGenerate p tag job s
  | .aesCmacVerify p tag job => Sys2Proof.Machine.execAesCmacVerify p tag job s
  | .hmacGenerate p tag job => Sys2Proof.Machine.execHmacGenerate p tag job s
  | .hmacVerify p tag job => Sys2Proof.Machine.execHmacVerify p tag job s
  | .sha256 p tag job => Sys2Proof.Machine.execSha256 p tag job s
  | .sha384 p tag job => Sys2Proof.Machine.execSha384 p tag job s
  | .ecdsaSign p tag job => Sys2Proof.Machine.execEcdsaSign p tag job s
  | .ecdhP256 p tag job => Sys2Proof.Machine.execEcdhP256 p tag job s
  | .randomBytes p tag job => Sys2Proof.Machine.execRandomBytes p tag job s
  | .ecdsaVerifyP256 p tag job => Sys2Proof.Machine.execEcdsaVerifyP256 p tag job s
  | .ecdsaVerifyP384 p tag job => Sys2Proof.Machine.execEcdsaVerifyP384 p tag job s
  | .rsaVerify p tag job => Sys2Proof.Machine.execRsaVerify p tag job s
  | .engineDispatch engine => Sys2Proof.Machine.execEngineDispatch engine s
  | .jobComplete engine => Sys2Proof.Machine.execJobComplete engine s
  | .completionAcknowledge p tag jobId => Sys2Proof.Machine.execCompletionAcknowledge p tag jobId s
  | .preemptionBoundary engine blocksDone => Sys2Proof.Machine.execPreemptionBoundary engine blocksDone s
  | .releaseVerdict valid => Sys2Proof.Machine.execReleaseVerdict valid s
  | .viYieldPoint remainingUs => Sys2Proof.Machine.execViYieldPoint remainingUs s
  | .entropyTestFailure test => Sys2Proof.Machine.execEntropyTestFailure test s
  | .entropyRetest passed => Sys2Proof.Machine.execEntropyRetest passed s
  | .drbgReseed => Sys2Proof.Machine.execDrbgReseed s
  | .seqArm p tag sq => Sys2Proof.Machine.execSeqArm p tag sq s
  | .armingComplete sq => Sys2Proof.Machine.execArmingComplete sq s
  | .seqDisarm p tag sq => Sys2Proof.Machine.execSeqDisarm p tag sq s
  | .seqLaunch p tag sq stamp => Sys2Proof.Machine.execSeqLaunch p tag sq stamp s
  | .seqStop p tag sq => Sys2Proof.Machine.execSeqStop p tag sq s
  | .segmentExchangeStage p tag a b => Sys2Proof.Machine.execSegmentExchangeStage p tag a b s
  | .segmentExchangeApply a => Sys2Proof.Machine.execSegmentExchangeApply a s
  | .refillRequest sq => Sys2Proof.Machine.execRefillRequest sq s
  | .nop sq => Sys2Proof.Machine.execNop sq s
  | .play sq obs => Sys2Proof.Machine.execPlay sq obs s
  | .plays sq obs => Sys2Proof.Machine.execPlays sq obs s
  | .loop sq => Sys2Proof.Machine.execLoop sq s
  | .endl sq => Sys2Proof.Machine.execEndl sq s
  | .call sq => Sys2Proof.Machine.execCall sq s
  | .ret sq => Sys2Proof.Machine.execRet sq s
  | .jmp sq => Sys2Proof.Machine.execJmp sq s
  | .jev sq => Sys2Proof.Machine.execJev sq s
  | .evarm sq => Sys2Proof.Machine.execEvarm sq s
  | .evdis sq => Sys2Proof.Machine.execEvdis sq s
  | .wait run => Sys2Proof.Machine.execWait run s
  | .barw sq => Sys2Proof.Machine.execBarw sq s
  | .sfw sq => Sys2Proof.Machine.execSfw sq s
  | .drop sq => Sys2Proof.Machine.execDrop sq s
  | .dropTakesEffect sq => Sys2Proof.Machine.execDropTakesEffect sq s
  | .alg sq obs => Sys2Proof.Machine.execAlg sq obs s
  | .halt sq => Sys2Proof.Machine.execHalt sq s
  | .evclr sq => Sys2Proof.Machine.execEvclr sq s
  | .seqEvent sq j => Sys2Proof.Machine.execSeqEvent sq j s
  | .armedJumpTaken sq => Sys2Proof.Machine.execArmedJumpTaken sq s
  | .underrun sq missing dataError => Sys2Proof.Machine.execUnderrun sq missing dataError s
  | .invalidRecordPark sq stream segment recordIndex => Sys2Proof.Machine.execInvalidRecordPark sq stream segment recordIndex s
  | .trackingPassStart => Sys2Proof.Machine.execTrackingPassStart s
  | .tiTemperatureRead deciC => Sys2Proof.Machine.execTiTemperatureRead deciC s
  | .trackingPassComplete => Sys2Proof.Machine.execTrackingPassComplete s
  | .samplePortEnable p tag => Sys2Proof.Machine.execSamplePortEnable p tag s
  | .samplePortDisable p tag => Sys2Proof.Machine.execSamplePortDisable p tag s
  | .portFrame port inBits => Sys2Proof.Machine.execPortFrame port inBits s
  | .ncoApplyNow p tag => Sys2Proof.Machine.execNcoApplyNow p tag s
  | .ncoApplyAtMarker p tag marker => Sys2Proof.Machine.execNcoApplyAtMarker p tag marker s
  | .ncoPhaseReset p tag => Sys2Proof.Machine.execNcoPhaseReset p tag s
  | .fieldRequestAccept site => Sys2Proof.Machine.execFieldRequestAccept site s
  | .fieldWordsSent site => Sys2Proof.Machine.execFieldWordsSent site s
  | .fieldWordArrival site latencyNs => Sys2Proof.Machine.execFieldWordArrival site latencyNs s
  | .latencyWindowClose sq => Sys2Proof.Machine.execLatencyWindowClose sq s
  | .fieldFailure site => Sys2Proof.Machine.execFieldFailure site s
  | .sealedPlayStart sq => Sys2Proof.Machine.execSealedPlayStart sq s
  | .sealedBufferClear site => Sys2Proof.Machine.execSealedBufferClear site s
  | .responseEdge lane rising edge => Sys2Proof.Machine.execResponseEdge lane rising edge s
  | .responseLimitExpiry site => Sys2Proof.Machine.execResponseLimitExpiry site s
  | .aqTriggerIn u => Sys2Proof.Machine.execAqTriggerIn u s
  | .readPointerWrite p tag value => Sys2Proof.Machine.execReadPointerWrite p tag value s
  | .decimationRaise => Sys2Proof.Machine.execDecimationRaise s
  | .decimationLower => Sys2Proof.Machine.execDecimationLower s
  | .beginTraining p tag => Sys2Proof.Machine.execBeginTraining p tag s
  | .trainingComplete ch0 ch1 => Sys2Proof.Machine.execTrainingComplete ch0 ch1 s
  | .dramInitComplete => Sys2Proof.Machine.execDramInitComplete s
  | .dramRequestGrant ch => Sys2Proof.Machine.execDramRequestGrant ch s
  | .dramReadReturn ch uncorrectable corrected burst => Sys2Proof.Machine.execDramReadReturn ch uncorrectable corrected burst s
  | .rowIdleClose ch rank bank => Sys2Proof.Machine.execRowIdleClose ch rank bank s
  | .refreshDue ch rank => Sys2Proof.Machine.execRefreshDue ch rank s
  | .refreshPostponeLimit ch rank => Sys2Proof.Machine.execRefreshPostponeLimit ch rank s
  | .mr4Read ch rank multiplier outsideLimits => Sys2Proof.Machine.execMr4Read ch rank multiplier outsideLimits s
  | .activationTableClear => Sys2Proof.Machine.execActivationTableClear s
  | .admittedShareWrite p tag share value => Sys2Proof.Machine.execAdmittedShareWrite p tag share value s
  | .channelFault ch cause => Sys2Proof.Machine.execChannelFault ch cause s
  | .channelRetire p tag ch => Sys2Proof.Machine.execChannelRetire p tag ch s
  | .pwmFrame => Sys2Proof.Machine.execPwmFrame s
  | .levelStagedWrite p tag field value => Sys2Proof.Machine.execLevelStagedWrite p tag field value s
  | .lvlLoadNFall lowNs => Sys2Proof.Machine.execLvlLoadNFall lowNs s
  | .lvLoadEvent => Sys2Proof.Machine.execLvLoadEvent s
  | .loadStrobeCommand p tag => Sys2Proof.Machine.execLoadStrobeCommand p tag s
  | .lvlClrNAssert lowNs => Sys2Proof.Machine.execLvlClrNAssert lowNs s
  | .lvlClrNRelease => Sys2Proof.Machine.execLvlClrNRelease s
  | .lvClearEvent asserted => Sys2Proof.Machine.execLvClearEvent asserted s
  | .clearAll p tag => Sys2Proof.Machine.execClearAll p tag s
  | .shortLatch ch => Sys2Proof.Machine.execShortLatch ch s
  | .restoreChannel p tag => Sys2Proof.Machine.execRestoreChannel p tag s
  | .levelCalibrationPass measured => Sys2Proof.Machine.execLevelCalibrationPass measured s
  | .vddIo33Measure mv => Sys2Proof.Machine.execVddIo33Measure mv s
  | .routeWrite p tag route => Sys2Proof.Machine.execRouteWrite p tag route s
  | .routeTableWrite p tag routes => Sys2Proof.Machine.execRouteTableWrite p tag routes s
  | .laneTapWrite p tag tap lane => Sys2Proof.Machine.execLaneTapWrite p tag tap lane s
  | .softwareEventLow p tag ev => Sys2Proof.Machine.execSoftwareEventLow p tag ev s
  | .softwareEventHigh p tag ev => Sys2Proof.Machine.execSoftwareEventHigh p tag ev s
  | .softwareEventPulse p tag ev => Sys2Proof.Machine.execSoftwareEventPulse p tag ev s
  | .softwarePulseEnd ev => Sys2Proof.Machine.execSoftwarePulseEnd ev s
  | .counterEdge c => Sys2Proof.Machine.execCounterEdge c s
  | .counterClear p tag c => Sys2Proof.Machine.execCounterClear p tag c s
  | .markEdge => Sys2Proof.Machine.execMarkEdge s
  | .linkUp => Sys2Proof.Machine.execLinkUp s
  | .linkDown => Sys2Proof.Machine.execLinkDown s
  | .helloSend => Sys2Proof.Machine.execHelloSend s
  | .hello frame => Sys2Proof.Machine.execHello frame s
  | .calResult frame => Sys2Proof.Machine.execCalResult frame s
  | .calibrationStart => Sys2Proof.Machine.execCalibrationStart s
  | .calibrateNow p tag => Sys2Proof.Machine.execCalibrateNow p tag s
  | .cal frame loop256 residence256 => Sys2Proof.Machine.execCal frame loop256 residence256 s
  | .nestanSyncSend => Sys2Proof.Machine.execNestanSyncSend s
  | .nestanSync frame residence256 => Sys2Proof.Machine.execNestanSync frame residence256 s
  | .syncMissed => Sys2Proof.Machine.execSyncMissed s
  | .holdOverEnd => Sys2Proof.Machine.execHoldOverEnd s
  | .nestanHeartbeatSend => Sys2Proof.Machine.execNestanHeartbeatSend s
  | .heartbeat frame => Sys2Proof.Machine.execHeartbeat frame s
  | .memberLost position => Sys2Proof.Machine.execMemberLost position s
  | .formationRetry => Sys2Proof.Machine.execFormationRetry s
  | .arrive frame => Sys2Proof.Machine.execArrive frame s
  | .release frame => Sys2Proof.Machine.execRelease frame s
  | .abort frame => Sys2Proof.Machine.execAbort frame s
  | .barrierTimeout b => Sys2Proof.Machine.execBarrierTimeout b s
  | .data frame => Sys2Proof.Machine.execData frame s
  | .ack frame => Sys2Proof.Machine.execAck frame s
  | .dataResend destination => Sys2Proof.Machine.execDataResend destination s
  | .clusterLeave p tag => Sys2Proof.Machine.execClusterLeave p tag s
  | .clusterRejoin p tag => Sys2Proof.Machine.execClusterRejoin p tag s
  | .watchdogCheckIn partition slot value => Sys2Proof.Machine.execWatchdogCheckIn partition slot value s
  | .watchdogPeriodEnd => Sys2Proof.Machine.execWatchdogPeriodEnd s
  | .partitionRestartComplete partition => Sys2Proof.Machine.execPartitionRestartComplete partition s
  | .lockstepMismatch => Sys2Proof.Machine.execLockstepMismatch s
  | .scrubCorrected target uncorrectable => Sys2Proof.Machine.execScrubCorrected target uncorrectable s
  | .activityBehind activity enters => Sys2Proof.Machine.execActivityBehind activity enters s
  | .flashReclaim => Sys2Proof.Machine.execFlashReclaim s
  | .telemetrySample sample => Sys2Proof.Machine.execTelemetrySample sample s
  | .recordCommit run => Sys2Proof.Machine.execRecordCommit run s
  | .overloadSummaryDue category => Sys2Proof.Machine.execOverloadSummaryDue category s
  | .recorderRead p => Sys2Proof.Machine.execRecorderRead p s
  | .traceRead p => Sys2Proof.Machine.execTraceRead p s
  | .traceSoftwareWrite partition channel value => Sys2Proof.Machine.execTraceSoftwareWrite partition channel value s
  | .reseatRequest p tag island unit => Sys2Proof.Machine.execReseatRequest p tag island unit s
  | .reseatDrainEnd island unit => Sys2Proof.Machine.execReseatDrainEnd island unit s
  | .reseatLimitExpiry island unit => Sys2Proof.Machine.execReseatLimitExpiry island unit s
  | .reseatComplete island unit => Sys2Proof.Machine.execReseatComplete island unit s
  | .replacePartition p tag partition => Sys2Proof.Machine.execReplacePartition p tag partition s
  | .replacementComplete => Sys2Proof.Machine.execReplacementComplete s
  | .newPairKey p tag => Sys2Proof.Machine.execNewPairKey p tag s
  | .pairActive p tag req => Sys2Proof.Machine.execPairActive p tag req s
  | .pairStandby p tag req => Sys2Proof.Machine.execPairStandby p tag req s
  | .unpair p tag req => Sys2Proof.Machine.execUnpair p tag req s
  | .pairFormed => Sys2Proof.Machine.execPairFormed s
  | .epochClose => Sys2Proof.Machine.execEpochClose s
  | .entry content => Sys2Proof.Machine.execEntry content s
  | .commit content => Sys2Proof.Machine.execCommit content s
  | .replicationAck content => Sys2Proof.Machine.execReplicationAck content s
  | .pairStateSend => Sys2Proof.Machine.execPairStateSend s
  | .pairState content => Sys2Proof.Machine.execPairState content s
  | .ackTimeout => Sys2Proof.Machine.execAckTimeout s
  | .pairStateSilence => Sys2Proof.Machine.execPairStateSilence s
  | .automaticTakeover => Sys2Proof.Machine.execAutomaticTakeover s
  | .takeOver p tag => Sys2Proof.Machine.execTakeOver p tag s
  | .consumedHeartbeatReceived rx node => Sys2Proof.Machine.execConsumedHeartbeatReceived rx node s
  | .canReceiveOverrun bus => Sys2Proof.Machine.execCanReceiveOverrun bus s
  | .canErrorPassiveEnd bus => Sys2Proof.Machine.execCanErrorPassiveEnd bus s
  | .syncSourceTimeout => Sys2Proof.Machine.execSyncSourceTimeout s
  | .eviOrLaneTapChange source level => Sys2Proof.Machine.execEviOrLaneTapChange source level s
  | .tamperLoopMismatch sample => Sys2Proof.Machine.execTamperLoopMismatch sample s
  | .nonceReserveFill => Sys2Proof.Machine.execNonceReserveFill s
  | .referenceDisagreement beyond => Sys2Proof.Machine.execReferenceDisagreement beyond s
  | .periodicZqCalibration ch => Sys2Proof.Machine.execPeriodicZqCalibration ch s
  | .tracedExceptionOrBranch partition kind info payload cycles => Sys2Proof.Machine.execTracedExceptionOrBranch partition kind info payload cycles s

end Sys2Proof.Machine
end

