-- ==== Sys2Proof/Machine/Tick.lean ====
section
/-! DEFINITION. The passage of time: one edge of the 400 MHz tap, which a step on an empty queue is
(R96, R177; log 2). -/

namespace Sys2Proof.Machine

/-- One period of 2.5 ns: the AO clock counts it, and action time advances by 2 ns and 128/256 ns once
it counts (R96). (DESIGN CHOICE, log 2.) -/
def Chip.advance (s : Chip) : Chip :=
  s.modClk fun c => { c with ticks := c.ticks + 1, action := if c.counting then (c.action + 640) % 2 ^ 72 else c.action }

/-- Every 1 s of the AO clock VBAT is measured (0x2003:06). -/
def Chip.vbatTick (s : Chip) : Chip := if s.clk.ticks % 400000000 = 0 then s.measureVbat else s

/-- Every 10 ms REFCLK is measured, while the AO compares it (R81, 0x2600:02). -/
def Chip.refTick (s : Chip) : Chip := if s.refWatched ∧ (s.clk.ticks - s.clk.startTick) % 4000000 = 0 then s.measureRef else s

/-- The DRAM scrub reads a block of 64 bytes of each channel in service every 4 µs, which is its share of 16,000 kB/s (Table
18.2); a channel's sweep ends behind its last block. (DESIGN CHOICE, log 74.) -/
def Chip.dramSweep (s : Chip) : Chip :=
  if s.suspended 0 ∨ s.clk.ticks % 1600 ≠ 0 then s
  else s.servingChannels.foldl (fun s c =>
    if (s.dramCh c).sweep + 1 < (s.dramCh c).blocks then s.modDramCh c fun d => { d with sweep := d.sweep + 1 }
    else (s.modDramCh c fun d => { d with sweep := 0 }).activityDone 0) s

/-- An island's SRAM scrub takes its next word, once in 64 clocks of the island, until it has swept them all. -/
def Chip.sramStep (s : Chip) (m : SMap Nat) (p : SramPart) : SMap Nat :=
  if s.clk.ticks * p.mhz / 25600 = (s.clk.ticks - 1) * p.mhz / 25600 then m else m.set 0 p.island (min p.words (m.get 0 p.island + 1))

/-- The SRAM scrubs move on, each where its island runs; the sweep ends when the SRAM of every running island is swept (Table
18.2). (DESIGN CHOICE, log 74.) -/
def Chip.sramSweep (s : Chip) : Chip :=
  let l := s.sramRunning
  let m := l.foldl s.sramStep s.background.sramSweep
  if l.all fun p => m.get 0 p.island == p.words then
    if l.isEmpty then s else (s.modBackground fun b => { b with sramSweep := [] }).activityDone 1
  else s.modBackground fun b => { b with sramSweep := m }

/-- The flash scrub reads the whole flash in its nominal 24 h, 1/65,536 of it every 527,343,750 ticks (Table 18.2). (DESIGN CHOICE, log 74.) -/
def Chip.flashSweep (s : Chip) : Chip :=
  if s.suspended 2 ∨ s.clk.ticks % 527343750 ≠ 0 then s
  else if (SMap.get s.background.activities {} 2).progress + 1 < 65536 then
    s.modBackground fun b => { b with activities := b.activities.upd {} 2 fun a => { a with progress := a.progress + 1 } }
  else s.activityDone 2

/-- One edge of the tap, with what the device does of itself at its time: the measurements of VBAT and REFCLK, the mesh
sequence (R198), the sweeps of the scrubs (R457), the steps of a slew and the frames of the link (R434, R430, R500, R425), and the TPDOs
that a change or a timer sends (R107). (DESIGN CHOICE, log 2.) -/
def tick (a : RecArray) (s : Chip) : Chip :=
  (s.advance.vbatTick.refTick.meshStep.dramSweep.sramSweep.flashSweep.adjustStep.beatStep.pairStep.transmitStep).eventPdos a

end Sys2Proof.Machine
end

