-- ==== Sys2Proof/Safety.lean ====
section
/-! DEFINITION. What a safe run is, and the terms claims use: which parts of the device a step may change,
and the conditions on which a host's request reaches its owner. -/

namespace Sys2Proof.Machine

/-- A step completes: it answers a next state. -/
def Completes (s : State) : Prop := ∃ t, step s = .next t

/-- Every one of the next `k` steps completes. -/
def SafeFor : Nat → State → Prop
  | 0, _ => True
  | k + 1, s => ∃ t, step s = .next t ∧ SafeFor k t

/-- The groups of the device's state, one for each field of `Chip`. -/
inductive Part where
  | host | power | clk | plls | clkos | lanes | seqs | segs | sealed_ | acq | dram | levels | router
  | cluster | watchdog | ci | boot | life | keys | crypto | recorder | reseat | pair | background
  | islands | out | free
  deriving DecidableEq, Repr

/-- Two devices agree in a part. -/
def Part.same (a b : Chip) : Part → Prop
  | .host => b.host = a.host
  | .power => b.power = a.power
  | .clk => b.clk = a.clk
  | .plls => b.plls = a.plls
  | .clkos => b.clkos = a.clkos
  | .lanes => b.lanes = a.lanes
  | .seqs => b.seqs = a.seqs
  | .segs => b.segs = a.segs
  | .sealed_ => b.sealed_ = a.sealed_
  | .acq => b.acq = a.acq
  | .dram => b.dram = a.dram
  | .levels => b.levels = a.levels
  | .router => b.router = a.router
  | .cluster => b.cluster = a.cluster
  | .watchdog => b.watchdog = a.watchdog
  | .ci => b.ci = a.ci
  | .boot => b.boot = a.boot
  | .life => b.life = a.life
  | .keys => b.keys = a.keys
  | .crypto => b.crypto = a.crypto
  | .recorder => b.recorder = a.recorder
  | .reseat => b.reseat = a.reseat
  | .pair => b.pair = a.pair
  | .background => b.background = a.background
  | .islands => b.islands = a.islands
  | .out => b.out = a.out
  | .free => b.free = a.free

/-- From `a` to `b` only the listed parts change. -/
def Only (ps : List Part) (a b : Chip) : Prop := ∀ p, p ∉ ps → p.same a b

/-- From `s` to `t` only the listed parts of the device change: the recorder's array and the queue stay. -/
def Within (ps : List Part) (s t : State) : Prop :=
  Only ps s.chip t.chip ∧ t.array = s.array ∧ t.pending = s.pending

/-- From `a` to `b` a chip reset has taken place: the session table, its ledgers, the request channel and the
sequencers are empty, the DRAM and its contents are lost, action time has not started, start-up stands at
time 0, and nothing has been sent (R68, R96). -/
def Restarted (a b : Chip) : Prop :=
  b.host.sessions = [] ∧ b.host.ch01 = [] ∧ b.host.online = false ∧ b.seqs = [] ∧ b.dram = { generation := a.dram.generation } ∧
  b.clk.startTick = b.clk.ticks ∧ b.clk.action = 0 ∧ b.clk.counting = false ∧ b.out = a.out

/-- A host read reaches its owner as request `r`, the device then being `c`: it arrives, has a session where a
window is read, its object exists and can be read, its session has no position-moving access in progress
where it is one, the owner is available (R74), the partition that serves it is not stopped (R171), it is not of a retired DRAM channel (R390), and the cores are not halted where
the owner is the conductor (R31, R117, R131). -/
def ReadReaches (p : Path) (tag : Word16) (idx sub : Nat) (s : Chip) (r : Req) (c : Chip) : Prop :=
  s.arrive p tag idx sub = (c, some r.dest) ∧ (r.dest.session ≠ 0 ∨ isWindowData idx sub = false) ∧
  r.level = (SMap.get c.host.sessions {} r.dest.session).level ∧
  ∃ row, lookup idx sub = .found row ∧ row.writeOnly = false ∧
    (movesPosition idx sub = false ∨ (SMap.get c.host.sessions {} r.dest.session).busy = false) ∧ c.unserved idx sub = false ∧
    c.availability (ownerOf idx sub) (sourceOf idx sub row) false (c.unitFaulted (ownerOf idx sub)) = 0 ∧
    c.partitionStopped idx sub = false ∧ c.retiredObject idx sub = false ∧ (ownerOf idx sub ≠ 2 ∨ c.ci.halted = false)

/-- An authorised operation of a code reaches its own effect as request `r`, the device then being `c`: the
request reaches the owner with its fields' lengths in agreement, no pair state and no full queue turns it
away, its nonce is the session's and is consumed, its body is in order, and it is the bootstrap or carries
two authorisations that the running VI verifies (R185). -/
def Authorised (code : Nat) (p : Path) (tag : Word16) (op : AuthOp) (s : Chip) (r : Req) (c : Chip) : Prop :=
  op.nonce.length = 16 ∧ op.auths.length % 68 = 0 ∧
  ∃ g, gate p tag 0x4200 0x10 (authBytes code op) (fun _ _ => 0) s = .go r g ∧ g.takeNonce r.dest op.nonce = (true, c) ∧ c.authGate code = 0 ∧
    c.queueBusy (0x1F + r.dest.session) = none ∧ bodyOk code op.owner.toNat op.rest c = true ∧
    (c.bootstraps r code op.owner.toNat op.auths = true ∨
      (op.auths.length = 136 ∧
        c.checkAuths (authOwner code op.owner.toNat) (opDigest c op.nonce (be 1 code ++ be 1 op.owner.toNat ++ op.rest)) op.auths = 0))

/-- A device hears a frame of a type on its link (R423). -/
def Hears (type : Nat) (b : Bytes) (s : Chip) (f : Frame) : Prop :=
  s.cluster.linkUp = true ∧ s.runs 10 = true ∧ parseFrame b = some f ∧ f.type = type

/-- It consumes the frame: addressed to it, or to every device (R425). -/
def Takes (type : Nat) (b : Bytes) (s : Chip) (f : Frame) : Prop := Hears type b s f ∧ (s.heed f = .mine ∨ s.heed f = .both)

/-- The device once a heard frame is counted. -/
def Chip.countedFrame (s : Chip) : Chip := s.modCluster fun c => { c with received := satAdd 32 c.received 1 }

/-- The device once a consumed frame is counted and, where every device is to have it, forwarded. -/
def Chip.taken (s : Chip) (f : Frame) : Chip := if s.heed f = .both then s.countedFrame.forwardFrame f else s.countedFrame

/-- Frame `f` has come to the transmitter of `a`, which became `b`: a line that is not driven takes none, an idle transmitter has sent
it at once, and otherwise it is the last of those that wait (R425). -/
def Handed (f : Frame) (forwarded : Bool) (a b : Chip) : Prop :=
  (a.transmits = false → b.out = a.out ∧ b.cluster.tx = a.cluster.tx) ∧
  (a.transmits = true → a.txIdle = true → b.out = .nestan f.bytes :: a.out ∧ b.cluster.tx = a.cluster.tx) ∧
  (a.transmits = true → a.txIdle = false → b.out = a.out ∧ b.cluster.tx = a.cluster.tx ++ [{ frame := f, forwarded := forwarded }])

/-- Sequencer `q` runs and the word at its program counter is instruction `i`; no DROP is due (R247, R261). -/
def Chip.atOp (s : Chip) (q : Nat) (i : SeqOp) : Prop :=
  (s.sq q).state = .running ∧ (s.sq q).pc < (s.sq q).progLen ∧ (s.sq q).dropDue = false ∧ (s.sq q).op (s.sq q).pc = some i

/-- From `s` to `t` only sequencer `q` changes, and it becomes `x`. -/
def SeqStep (q : Nat) (x : Seq) (s t : State) : Prop :=
  t.chip.sq q = x ∧ (∀ j, j ≠ q → t.chip.sq j = s.chip.sq j) ∧ Within [.seqs] s t

/-- Sequencer `x` becomes `y` by one vector of a play: the boundary is one period of timing set `set` later, the vector has these
markers, and the place in the instruction moves on by one of `reps` repeats of a record, one of `count` records or one of
`repeats` plays, and behind the last to the next instruction (R237, R253, R264). -/
def Seq.PlaysOne (x y : Seq) (set reps markers count repeats : Nat) : Prop :=
  y.tb = x.tb + x.periodUnits set ∧ y.vecIndex = x.vecIndex + 1 ∧ y.vectors = (x.vectors + 1) % 2 ^ 64 ∧ y.lastSet = set ∧
  y.markers = BitVec.ofNat 4 markers ∧ y.state = x.state ∧ y.loops = x.loops ∧ y.calls = x.calls ∧
  (x.recAt + 1 < reps → y.pc = x.pc ∧ y.playNo = x.playNo ∧ y.recNo = x.recNo ∧ y.recAt = x.recAt + 1 ∧ y.ring = x.ring) ∧
  (reps ≤ x.recAt + 1 → x.recNo + 1 < count → y.pc = x.pc ∧ y.playNo = x.playNo ∧ y.recNo = x.recNo + 1 ∧ y.recAt = 0) ∧
  (reps ≤ x.recAt + 1 → count ≤ x.recNo + 1 → x.playNo + 1 < repeats → y.pc = x.pc ∧ y.playNo = x.playNo + 1 ∧ y.recNo = 0 ∧ y.recAt = 0) ∧
  (reps ≤ x.recAt + 1 → count ≤ x.recNo + 1 → repeats ≤ x.playNo + 1 →
    y.pc = x.pc + 1 ∧ y.done = 0 ∧ y.playNo = 0 ∧ y.recNo = 0 ∧ y.recAt = 0)

/-- From `a` to `b` the masks `l` of sequencer `q` park with a record (R265): bits, counter, EMCY condition, lanes at the dust
sheet, and the end of the run where no mask plays on. The record is written where CH_16 has room and the SQ holds none back. -/
def Parked (q : Nat) (l : List Nat) (code : Nat) (detail : Bytes) (a b : Chip) : Prop :=
  (b.sq q).parked = (a.sq q).parked ||| maskBits l ∧ (b.sq q).underruns = satAdd 32 (a.sq q).underruns 1 ∧
  (b.host.conditions.any fun c => c.key == 7000 + 4 * q + l.headD 0) = true ∧
  (a.recorder.inChannel < 32 → SMap.get a.recorder.held [] 5 = [] →
    ∃ r ∈ b.recorder.queue, r.code = code ∧ r.unit = q ∧ r.payload = pad 12 (le 1 q ++ le 1 (maskBits l).toNat ++ detail)) ∧
  (∀ m ∈ l, ∀ n ∈ a.maskLanes q m, (a.lane n).mode ≠ 3 → (b.lane n).atDust = true) ∧
  (if ({ a.sq q with parked := (a.sq q).parked ||| maskBits l } : Seq).masksUsed.any ({ a.sq q with parked := (a.sq q).parked ||| maskBits l } : Seq).plays
    then (b.sq q).state = (a.sq q).state ∧ (b.sq q).pc = (a.sq q).pc
    else (b.sq q).state = .parked ∧ (b.sq q).endCause = 4)

/-- What holds of the recorder's array in every run: the programmed slots lie below the next one, each
record has 32 bytes, begins with its slot's number and ends with its CRC, and a void slot holds no record
(R465, R466, R468). -/
def RecArray.Inv (a : RecArray) : Prop :=
  SMap.sorted a.slots = true ∧ a.next ≤ arraySlots ∧
  (∀ c ∈ a.slots, c.1 < a.next ∧ c.2.length = 32 ∧ c.2.take 4 = le 4 c.1 ∧ c.2.drop 30 = le 2 (crc16 (c.2.take 30))) ∧
  (∀ n ∈ a.voids, n < a.next ∧ SMap.find? a.slots n = none)

end Sys2Proof.Machine
end

