-- ==== Sys2Proof/WellFormed.lean ====
section
/-! DEFINITION. Which commands are well formed: what can arrive at the device's pins, and what a physical
measurement can answer. -/

namespace Sys2Proof

/-- A CAN client's node-ID is 1 to 127 and an SPI session byte 0x00 to 0x20 (R112, R118). -/
def Path.wf : Path → Bool
  | .can _ n => n != 0
  | .spi s => decide (s.toNat ≤ 0x20)

/-- A training outcome has 1 or 2 ranks, at most 7 GiB·8 of capacity, and at most 16 delays (R360, 0x4801+c:08). -/
def TrainResult.wf (r : TrainResult) : Bool :=
  decide (1 ≤ r.ranks) && decide (r.ranks ≤ 2) && decide (r.gib < 64) && decide (r.values.length ≤ 16)

/-- A telemetry sample has five temperatures, seven rails, six class rates and nineteen peaks (Table 18.4). -/
def Telemetry.wf (t : Telemetry) : Bool :=
  t.temps.length == 5 && t.rails.length == 7 && t.rates.length == 6 && t.peaks.length == 19

/-- The opcodes of the debug port that Table 6.10 lists (R168). -/
def debugOpcodes : List Nat := [0x01, 0x02, 0x03, 0x04, 0x10, 0x11, 0x12, 0x20, 0x21, 0x22, 0x23, 0x30]

/-- A command is well formed: one arm for each row, so that a new row cannot slip past. -/
def Instr.wf : Instr → Bool
  | .objectWrite p _ _ _ payload => p.wf && decide (payload.length ≤ 65536)
  | .conductorAccessFault _ _ _ _ _ => true
  | .rstNReset _ => true
  | .chipReset causes => causes != 0
  | .aoPowerOnReset => true
  | .railBrownOut _ _ _ => true
  | .railGood _ => true
  | .startupRefclkCheck _ => true
  | .bootImageVerified => true
  | .dictionaryOnline => true
  | .siStart _ _ => true
  | .readyToArm => true
  | .chipResetCommand p _ => p.wf
  | .deepSleepCommand p _ => p.wf
  | .deepSleepWake _ => true
  | .refclkLost _ => true
  | .refclkRestored _ => true
  | .spreadTakesEffect _ => true
  | .pll1Apply p _ => p.wf
  | .pll1PowerOff p _ => p.wf
  | .pllLocked _ => true
  | .pllFault _ => true
  | .clkoApply p _ _ => p.wf
  | .clkoPhaseStep p _ _ _ => p.wf
  | .phaseStepApplied _ => true
  | .launchTakesEffect _ => true
  | .heldLaunchPermitted _ => true
  | .heldActionLate _ => true
  | .canopenSync _ => true
  | .timeMessage _ _ => true
  | .nmtCommand _ _ _ => true
  | .nmtResetCommunication _ => true
  | .canHeartbeatSend => true
  | .consumedHeartbeatLost _ => true
  | .busOff _ => true
  | .busOffRecovery _ => true
  | .canErrorPassive _ => true
  | .emcyInhibitExpiry _ => true
  | .errorFieldClear p => p.wf
  | .usdoTimeout _ x => x.client != 0
  | .spiRead frame _ => !frame.isEmpty
  | .spiWrite frame _ => !frame.isEmpty
  | .spiFetch => true
  | .spiStatus => true
  | .spiLaneSwitch => true
  | .sessionNonceRead p => p.wf
  | .sessionNonceDiscard p _ => p.wf
  | .sessionOpen p _ => p.wf
  | .sessionClose p _ => p.wf
  | .sessionIdleTimeout _ => true
  | .tagStage p _ => p.wf
  | .storeParameters p _ => p.wf
  | .storeComplete => true
  | .restoreDefaults p _ => p.wf
  | .windowRegionSelect p _ _ => p.wf
  | .windowOffsetSet p _ _ => p.wf
  | .windowDataRead p _ len => p.wf && decide (len ≤ 65536)
  | .windowDataWrite p _ _ bs => p.wf && decide (bs.length ≤ 65536)
  | .lifeCycleTransition p _ _ _ _ _ _ => p.wf
  | .transitionNonceRead p => p.wf
  | .recoveryImageRun _ => true
  | .fuseSkim _ => true
  | .fuseProgram p _ _ _ => p.wf
  | .imageInstall p _ _ => p.wf
  | .recoveryInstall p _ => p.wf
  | .raiseMinimumVersion p _ _ => p.wf
  | .revokeKeySlot p _ _ => p.wf
  | .debugEnable => true
  | .debugDisable => true
  | .debugIdentify f => f.opcode == 1 || !debugOpcodes.contains f.opcode.toNat
  | .debugChallengeWord _ => true
  | .debugAuthorisationWord _ => true
  | .debugAuthorise _ => true
  | .debugHalt _ => true
  | .debugResume _ => true
  | .debugSingleStep _ => true
  | .debugReadWord _ => true
  | .debugWriteWord _ => true
  | .debugReadRegister _ => true
  | .debugWriteRegister _ => true
  | .debugChipReset _ => true
  | .importKey p _ _ => p.wf
  | .exportKey p _ _ => p.wf
  | .destroy p _ _ => p.wf
  | .changeAttributes p _ _ => p.wf
  | .createOwner p _ _ => p.wf
  | .deleteOwner p _ _ => p.wf
  | .addCustodian p _ _ => p.wf
  | .removeCustodian p _ _ => p.wf
  | .reArm => true
  | .intrusionConfiguration p _ _ => p.wf
  | .operationNonceRead p => p.wf
  | .generate p _ _ => p.wf
  | .derive p _ _ => p.wf
  | .keyExpiry _ => true
  | .intrusionDetected _ _ => true
  | .sensorTripRecorded _ => true
  | .aesCbcEncrypt p _ _ => p.wf
  | .aesCbcDecrypt p _ _ => p.wf
  | .aesCtr p _ _ => p.wf
  | .aesGcmEncrypt p _ _ => p.wf
  | .aesGcmDecrypt p _ _ => p.wf
  | .aesCmacGenerate p _ _ => p.wf
  | .aesCmacVerify p _ _ => p.wf
  | .hmacGenerate p _ _ => p.wf
  | .hmacVerify p _ _ => p.wf
  | .sha256 p _ _ => p.wf
  | .sha384 p _ _ => p.wf
  | .ecdsaSign p _ _ => p.wf
  | .ecdhP256 p _ _ => p.wf
  | .randomBytes p _ _ => p.wf
  | .ecdsaVerifyP256 p _ _ => p.wf
  | .ecdsaVerifyP384 p _ _ => p.wf
  | .rsaVerify p _ _ => p.wf
  | .engineDispatch _ => true
  | .jobComplete _ => true
  | .completionAcknowledge p _ _ => p.wf
  | .preemptionBoundary _ _ => true
  | .releaseVerdict _ => true
  | .viYieldPoint _ => true
  | .entropyTestFailure _ => true
  | .entropyRetest _ => true
  | .drbgReseed => true
  | .seqArm p _ _ => p.wf
  | .armingComplete _ => true
  | .seqDisarm p _ _ => p.wf
  | .seqLaunch p _ _ _ => p.wf
  | .seqStop p _ _ => p.wf
  | .segmentExchangeStage p _ _ _ => p.wf
  | .segmentExchangeApply _ => true
  | .refillRequest _ => true
  | .nop _ => true
  | .play _ _ => true
  | .plays _ _ => true
  | .loop _ => true
  | .endl _ => true
  | .call _ => true
  | .ret _ => true
  | .jmp _ => true
  | .jev _ => true
  | .evarm _ => true
  | .evdis _ => true
  | .wait _ => true
  | .barw _ => true
  | .sfw _ => true
  | .drop _ => true
  | .dropTakesEffect _ => true
  | .alg _ _ => true
  | .halt _ => true
  | .evclr _ => true
  | .seqEvent _ _ => true
  | .armedJumpTaken _ => true
  | .underrun _ _ _ => true
  | .invalidRecordPark _ _ _ _ => true
  | .trackingPassStart => true
  | .tiTemperatureRead _ => true
  | .trackingPassComplete => true
  | .samplePortEnable p _ => p.wf
  | .samplePortDisable p _ => p.wf
  | .portFrame _ _ => true
  | .ncoApplyNow p _ => p.wf
  | .ncoApplyAtMarker p _ _ => p.wf
  | .ncoPhaseReset p _ => p.wf
  | .fieldRequestAccept _ => true
  | .fieldWordsSent _ => true
  | .fieldWordArrival _ _ => true
  | .latencyWindowClose _ => true
  | .fieldFailure _ => true
  | .sealedPlayStart _ => true
  | .sealedBufferClear _ => true
  | .responseEdge _ _ _ => true
  | .responseLimitExpiry _ => true
  | .aqTriggerIn _ => true
  | .readPointerWrite p _ _ => p.wf
  | .decimationRaise => true
  | .decimationLower => true
  | .beginTraining p _ => p.wf
  | .trainingComplete ch0 ch1 => ch0.wf && ch1.wf
  | .dramInitComplete => true
  | .dramRequestGrant _ => true
  | .dramReadReturn _ _ _ _ => true
  | .rowIdleClose _ _ _ => true
  | .refreshDue _ _ => true
  | .refreshPostponeLimit _ _ => true
  | .mr4Read _ _ _ _ => true
  | .activationTableClear => true
  | .admittedShareWrite p _ _ _ => p.wf
  | .channelFault _ _ => true
  | .channelRetire p _ _ => p.wf
  | .pwmFrame => true
  | .levelStagedWrite p _ _ _ => p.wf
  | .lvlLoadNFall _ => true
  | .lvLoadEvent => true
  | .loadStrobeCommand p _ => p.wf
  | .lvlClrNAssert _ => true
  | .lvlClrNRelease => true
  | .lvClearEvent _ => true
  | .clearAll p _ => p.wf
  | .shortLatch _ => true
  | .restoreChannel p _ => p.wf
  | .levelCalibrationPass measured => measured.length == 16
  | .vddIo33Measure _ => true
  | .routeWrite p _ _ => p.wf
  | .routeTableWrite p _ _ => p.wf
  | .laneTapWrite p _ _ _ => p.wf
  | .softwareEventLow p _ _ => p.wf
  | .softwareEventHigh p _ _ => p.wf
  | .softwareEventPulse p _ _ => p.wf
  | .softwarePulseEnd _ => true
  | .counterEdge _ => true
  | .counterClear p _ _ => p.wf
  | .markEdge => true
  | .linkUp => true
  | .linkDown => true
  | .helloSend => true
  | .hello _ => true
  | .calResult _ => true
  | .calibrationStart => true
  | .calibrateNow p _ => p.wf
  | .cal _ _ _ => true
  | .nestanSyncSend => true
  | .nestanSync _ _ => true
  | .syncMissed => true
  | .holdOverEnd => true
  | .nestanHeartbeatSend => true
  | .heartbeat _ => true
  | .memberLost _ => true
  | .formationRetry => true
  | .arrive _ => true
  | .release _ => true
  | .abort _ => true
  | .barrierTimeout _ => true
  | .data _ => true
  | .ack _ => true
  | .dataResend _ => true
  | .clusterLeave p _ => p.wf
  | .clusterRejoin p _ => p.wf
  | .watchdogCheckIn _ _ _ => true
  | .watchdogPeriodEnd => true
  | .partitionRestartComplete _ => true
  | .lockstepMismatch => true
  | .scrubCorrected _ _ => true
  | .activityBehind _ _ => true
  | .flashReclaim => true
  | .telemetrySample sample => sample.wf
  | .recordCommit _ => true
  | .overloadSummaryDue _ => true
  | .recorderRead p => p.wf
  | .traceRead p => p.wf
  | .traceSoftwareWrite _ _ _ => true
  | .reseatRequest p _ _ _ => p.wf
  | .reseatDrainEnd _ _ => true
  | .reseatLimitExpiry _ _ => true
  | .reseatComplete _ _ => true
  | .replacePartition p _ _ => p.wf
  | .replacementComplete => true
  | .newPairKey p _ => p.wf
  | .pairActive p _ _ => p.wf
  | .pairStandby p _ _ => p.wf
  | .unpair p _ _ => p.wf
  | .pairFormed => true
  | .epochClose => true
  | .entry _ => true
  | .commit _ => true
  | .replicationAck _ => true
  | .pairStateSend => true
  | .pairState _ => true
  | .ackTimeout => true
  | .pairStateSilence => true
  | .automaticTakeover => true
  | .takeOver p _ => p.wf
  | .consumedHeartbeatReceived _ node => node != 0
  | .canReceiveOverrun _ => true
  | .canErrorPassiveEnd _ => true
  | .syncSourceTimeout => true
  | .eviOrLaneTapChange _ _ => true
  | .tamperLoopMismatch _ => true
  | .nonceReserveFill => true
  | .referenceDisagreement _ => true
  | .periodicZqCalibration _ => true
  | .tracedExceptionOrBranch _ _ _ _ _ => true

end Sys2Proof
end

