-- ==== Sys2Proof/Certificates/Slice0/Obligations.lean ====
section
/-! DEFINITION. The statements for the provers. Host rows are stated from the request the gate lets through (`gate … =
.go r c`: the request `r`, the device `c` as the gate leaves it) or the read that reaches its owner (`ReadReaches`); events
from the conditions on the state alone. `Within ps s t` says that outside the listed parts nothing has changed. -/

open Sys2Proof Sys2Proof.Machine

/-! ## The block: steps, the queue, the recorder's array -/

/-- A step takes the command at the front of the queue and is `exec` of it on the state whose queue is the
rest (log 1). With no command waiting it is one period of the 400 MHz tap: action time, once it counts, advances by
640 of its 1/256 ns units where no offset is being worked off (R434), and the parts that do something of themselves at their times may; that a step on an empty queue
is a clock period is the model's choice (log 2). -/
def Obligations.StepTakesTheFrontOrIdles : Prop :=
  (∀ (c : Instr) (s : State), step { s with pending := c :: s.pending } = exec c s) ∧
  (∀ s : State, s.chip.power.phase ≠ .railsWait → ∃ t, step { s with pending := [] } = .next t ∧
    t.chip.clk = { s.chip.clk with
            ticks := s.chip.clk.ticks + 1
            action := t.chip.clk.action
            refHz := t.chip.clk.refHz } ∧
    (s.chip.cluster.adjust = 0 →
      t.chip.clk.action = if s.chip.clk.counting then (s.chip.clk.action + 640) % 2 ^ 72 else s.chip.clk.action) ∧
    Within [.clk, .power, .free, .keys, .dram, .background, .cluster, .pair, .host, .out] { s with pending := [] } t) ∧
  (∀ s : State, ∃ t, step { s with pending := [] } = .next t ∧ t.pending = [])

/-- No command stops the block: `exec` answers a next state for every command in every state, and changes
the queue of waiting commands by nothing. -/
def Obligations.EveryCommandAnswersNext : Prop :=
  ∀ (c : Instr) (s : State), ∃ t, exec c s = .next t ∧ t.pending = s.pending

/-- The record array is reached by `RECORD_COMMIT` alone: no other command of the table, a chip reset, a
wipe, an intrusion and a life-cycle transition among them, changes any slot, any count or the next slot. -/
def Obligations.OnlyCommitChangesArray : Prop :=
  ∀ (c : Instr) (s t : State), exec c s = .next t → (∀ torn overrun, c ≠ .recordCommit ⟨torn, overrun⟩) → t.array = s.array

/-- What the array holds stays well formed under every step, whatever the queue holds: record `n` has 32
bytes, its sequence number is `n`, its CRC verifies, all slots at or above the next are unprogrammed and no
void slot is read as a record. -/
def Obligations.RecorderInvariantKept : Prop :=
  ∀ s t : State, s.array.Inv → step s = .next t → t.array.Inv

/-- R465, whole: slots 0 to 65,535 of 32 bytes; the record in slot `n` has sequence number `n`; nothing erases
or rewrites a slot. The premise is the invariant of `RecorderInvariantKept`. -/
def Obligations.RecorderSlotsAreNeverRewritten : Prop :=
  ∀ s t : State, s.array.Inv → step s = .next t →
    (∀ n b, SMap.find? s.array.slots n = some b → SMap.find? t.array.slots n = some b) ∧
    (∀ n ∈ s.array.voids, n ∈ t.array.voids ∧ SMap.find? t.array.slots n = none) ∧
    s.array.next ≤ t.array.next ∧ t.array.next ≤ 65536 ∧
    (∀ n b, SMap.find? t.array.slots n = some b → n < 65536 ∧ b.length = 32 ∧ fieldAt b 0 4 = n)

/-! ## Supplies, resets and start-up (chapter 3) -/

/-- R64 to R68 and R76 to R79: each source of a chip reset ends every session, empties every ledger and starts the
sequence at time 0, and the reset record follows the records before it; deep sleep leaves only the AO; each rail's
brown-out reaches what Table 3.1 says. -/
def Obligations.ResetAndRailRows : Prop :=
  ((∀ (causes : BitVec 12) (s : State), causes ≠ 0 → ∃ t, exec (.chipReset causes) s = .next t ∧ Restarted s.chip t.chip ∧
    t.chip.clk.ticks = (if causes.getLsbD 0 then 0 else s.chip.clk.ticks) ∧
    (causes.getLsbD 0 = false → ∃ x rest, t.chip.recorder.queue = s.chip.recorder.queue ++ x :: rest ∧ x.code = 0x1001)) ∧
  (∀ s : State, ∃ t, exec .aoPowerOnReset s = .next t ∧ Restarted s.chip t.chip ∧ t.chip.clk.ticks = 0) ∧
  (∀ (n : Nat) (s : State), 1000 ≤ n → s.chip.power.onVbat = false →
    ∃ t, exec (.rstNReset n) s = .next t ∧ Restarted s.chip t.chip ∧ t.chip.clk.ticks = s.chip.clk.ticks) ∧
  (∀ (n : Nat) (s : State), n < 500 → exec (.rstNReset n) s = .next s) ∧
  (∀ (w : WakeSource) (s : State), s.chip.power.phase = .asleep → s.chip.wakes w = true →
    (w = .rstN ∨ s.chip.power.railsGood &&& 0x3F = 0x3F) →
    ∃ t, exec (.deepSleepWake w) s = .next t ∧ Restarted s.chip t.chip) ∧
  (∀ (p : Path) (tag : Word16) (s : State) (r : Req) (c : Chip),
    gate p tag 0x2003 8 (le 4 0xA5) (fun _ _ => 0) s.chip = .go r c →
    ∃ t, exec (.chipResetCommand p tag) s = .next t ∧ Restarted (Chip.finish r.dest (c, ok)) t.chip)) ∧
  (∀ (p : Path) (tag : Word16) (s : State) (r : Req) (c : Chip),
    gate p tag 0x2003 9 [1] (fun _ _ => 0) s.chip = .go r c →
    let refused := c.anyArmed = true ∨ c.formed = true ∨ c.cluster.state = .holdOver ∨ c.pair.state ≠ .unpaired ∨ c.life.pending.isSome = true ∨
      c.life.state = .locked ∨ c.life.state = .scrapped
    (refused → exec (.deepSleepCommand p tag) s = .next { s with chip := Chip.finish r.dest (c, .done 0x0005 []) }) ∧
    (¬ refused → ∃ t, exec (.deepSleepCommand p tag) s = .next t ∧
      (∀ i, i < 11 → t.chip.island i = if i = 1 then .running else .off) ∧
      t.chip.power.phase = .asleep ∧ t.chip.host = {} ∧ t.chip.dram = { generation := c.dram.generation } ∧ t.chip.keys.slots = [] ∧
      t.chip.keys.rootKey = c.keys.rootKey ∧ t.chip.router = c.router ∧ t.chip.recorder = c.recorder ∧
      t.chip.out = (Chip.finish r.dest (c, .done 0 [])).out)) ∧
  ((∀ rail mv dip (s : State), dip < 500 → exec (.railBrownOut rail mv dip) s = .next s) ∧
  (∀ rail mv dip (s : State), rail = .vddCore ∨ rail = .vddIo18 ∨ rail = .vddIo33 → 2000 ≤ dip → mv < brownOut rail →
    s.chip.power.railsGood.getLsbD (railBit rail) = true → s.chip.power.phase ≠ .asleep →
    ∃ t, exec (.railBrownOut rail mv dip) s = .next t ∧ Restarted s.chip t.chip ∧ t.chip.clk.ticks = s.chip.clk.ticks) ∧
  (∀ mv dip (s : State), 2000 ≤ dip → mv < 1600 → s.chip.power.railsGood.getLsbD 6 = true → 1900 ≤ s.chip.power.vbatMv →
    ∃ t, exec (.railBrownOut .vddAo mv dip) s = .next t ∧ t.chip.power.onVbat = true ∧ t.chip.islands = s.chip.islands ∧
      t.chip.power.railsGood.getLsbD 6 = false ∧ t.chip.host.sessions = s.chip.host.sessions) ∧
  (∀ mv dip (s : State), 2000 ≤ dip → mv < 720 → s.chip.power.railsGood.getLsbD 1 = true → s.chip.upRunning = true →
    s.chip.island 3 = .running → s.chip.islands.length = 11 →
    ∃ t, exec (.railBrownOut .vddSec mv dip) s = .next t ∧ t.chip.island 3 = .resetting ∧ t.chip.power.railsGood.getLsbD 1 = false) ∧
  (∀ (s : State), s.chip.power.railsGood.getLsbD 3 = false → s.chip.upRunning = false → s.chip.power.phase ≠ .railsWait →
    s.chip.power.phase ≠ .asleep → ∃ t, exec (.railGood .vddqDram) s = .next t ∧ t.chip.power.railsGood.getLsbD 3 = true ∧
      Within [.power] s t))

/-- Table 3.3 as the commands give it: each event starts from the phase it depends on and leaves the next one. -/
def Obligations.StartUpRows : Prop :=
  (∀ (hz : Nat) (s : State), s.chip.power.phase = .refclkCheck → hz ≠ 0 → s.chip.refBeyond 15 hz = false → s.chip.islands.length = 11 →
    ∃ t, exec (.startupRefclkCheck hz) s = .next t ∧ t.chip.power.phase = .booting ∧ t.chip.island 2 = .loading ∧
      t.chip.island 4 = .running ∧ t.chip.clk.refHz = hz ∧ t.chip.clk.refStatus = 0 ∧ Within [.power, .clk, .islands] s t) ∧
  (∀ (hz : Nat) (s : State), s.chip.power.phase = .refclkCheck → hz = 0 ∨ s.chip.refBeyond 25 hz = true →
    ∃ t, exec (.startupRefclkCheck hz) s = .next t ∧ t.chip.power.phase = .refclkCheck ∧ t.chip.power.refFaultRecorded = true ∧
      t.chip.recorder = (if s.chip.power.refFaultRecorded then s.chip else s.chip.record 0x1004 1 (le 4 hz)).recorder ∧
      Within [.power, .clk, .recorder] s t) ∧
  (∀ s : State, s.chip.power.phase = .booting → s.chip.boot.running = 0xFF →
    s.chip.life.state = .scrapped ∨ (s.chip.life.state = .locked ∧ s.chip.life.pending = none) →
    ∃ t, exec .bootImageVerified s = .next t ∧ t.chip.power.phase = .reduced ∧ t.chip.boot.running = 0xFF ∧ Within [.power, .boot] s t) ∧
  (∀ s : State, s.chip.power.phase = .booting → s.chip.boot.running = 0xFF → s.chip.life.state = .locked → s.chip.life.pending.isSome = true →
    (((s.chip.noteArea 0).noteArea 1).noteArea 2).areaStatus 2 = 0 →
    ∃ t, exec .bootImageVerified s = .next t ∧ t.chip.power = s.chip.power ∧ t.chip.boot.running = 0xFF ∧ Within [.boot] s t) ∧
  (∀ s : State, s.chip.power.phase = .booting → s.chip.boot.running = 0xFF → s.chip.life.pending = none → s.chip.areaEmpty 0 = true → s.chip.areaEmpty 1 = true →
    ∃ t, exec .bootImageVerified s = .next t ∧ t.chip.power.phase = .reduced ∧ t.chip.boot.running = 0xFF ∧ Within [.power, .boot] s t) ∧
  (∀ (a : Nat) (s : State), a < 2 → s.chip.power.phase = .booting → s.chip.boot.running = 0xFF →
    s.chip.life.state ≠ .locked → s.chip.life.state ≠ .scrapped → s.chip.boot.preferred.toNat = a →
    (s.chip.boot.store.find? fun e => e.index == 0x2500 && e.sub == 2) = none → s.chip.areaStatus a = 0 →
    ∃ t, exec .bootImageVerified s = .next t ∧ t.chip.watchdog.number = 0 ∧ t.chip.watchdog.startAt = t.chip.clk.ticks ∧
      (∀ x, t.chip.islands[2]? = some x → x = .running)) ∧
  (∀ s : State, s.chip.host.online = false → s.chip.power.phase = .booting → s.chip.boot.running ≠ 0xFF →
    ∃ t, exec .dictionaryOnline s = .next t ∧ t.chip.host.online = true ∧ t.chip.power.phase = .online ∧
      t.chip.power.onlineUs = s.chip.upUs) ∧
  (∀ (ok : Bool) (s : State), s.chip.island 3 = .loading → s.chip.reloadKeys.loadRegistry.keys.registryOk = true →
    ∃ t, exec (.siStart 0 ok) s = .next t ∧ t.chip.crypto.selfTest = 0 ∧ (∀ x, t.chip.islands[3]? = some x → x = .running)) ∧
  (∀ (tests : BitVec 9) (ok : Bool) (s : State), s.chip.island 3 = .loading → tests ≠ 0 →
    ∃ t, exec (.siStart tests ok) s = .next t ∧ t.chip.crypto.selfTest = BitVec.ofNat 16 tests.toNat ∧
      (∀ x, t.chip.islands[3]? = some x → x = .faulted)) ∧
  (∀ s : State, s.chip.power.phase = .online → s.chip.island 8 = .running → s.chip.island 3 = .running → s.chip.island 6 = .running →
    exec .readyToArm s = .next { s with chip := { s.chip with power := { s.chip.power with phase := .ready, readyUs := max 1 s.chip.upUs } } })

/-! ## PLLs and clock outputs (chapter 4) -/

/-- R81, R82, R88, R89 and the start of action time in R96. The facts named hold of the answered state. -/
def Obligations.PllAndRefclkRows : Prop :=
  ((∀ (p : Fin 2) (s : State), (s.chip.pll p.val).state = .locking → s.chip.clk.refLost = false → s.chip.pllUnpowered = false →
    s.chip.plls.length = 2 →
    ∃ t, exec (.pllLocked p) s = .next t ∧ (t.chip.pll p.val).state = .locked ∧
      (t.chip.pll p.val).lastUs = (s.chip.clk.ticks - (s.chip.pll p.val).relockAt) / 400 ∧
      (p = 0 → t.chip.clk.counting = true) ∧ (p = 0 → s.chip.clk.counting = false → t.chip.clk.action = 0)) ∧
  (∀ (p : Fin 2) (s : State), (s.chip.pll p.val).state = .locking → s.chip.clk.refLost = false → s.chip.pllUnpowered = false →
    s.chip.plls.length = 2 → s.chip.overMs (s.chip.pll p.val).relockAt 2 = true →
    ∃ t, exec (.pllFault p) s = .next t ∧ (t.chip.pll p.val).state = .faulted) ∧
  (∀ (p : Path) (tag : Word16) (s : State) (r : Req) (c : Chip),
    gate p tag 0x2611 4 [1] (fun _ s => if s.vcoOk (s.pll 1).n (s.pll 1).f then 0 else 2) s.chip = .go r c →
    (c.pll1Used = true → exec (.pll1Apply p tag) s = next s (Chip.finish r.dest (c, .done 0x0003 []))) ∧
    (c.pll1Used = false → c.plls.length = 2 → ∃ t, exec (.pll1Apply p tag) s = .next t ∧
      (t.chip.pll 1).nApplied = (c.pll 1).n ∧ (t.chip.pll 1).fApplied = (c.pll 1).f ∧ (t.chip.pll 1).state = .locking ∧
      (t.chip.pll 1).relockAt = c.clk.ticks)) ∧
  (∀ (p : Path) (tag : Word16) (s : State) (r : Req) (c : Chip), gate p tag 0x2611 4 [2] (fun _ _ => 0) s.chip = .go r c →
    (c.pll1Used = true ∨ c.outputsOf 1 ≠ [] →
      exec (.pll1PowerOff p tag) s = next s (Chip.finish r.dest (c, .done 0x0003 []))) ∧
    (c.pll1Used = false → c.outputsOf 1 = [] → c.plls.length = 2 → c.clk.pll1Started = true →
      ∃ t, exec (.pll1PowerOff p tag) s = .next t ∧ (t.chip.pll 1).state = .off))) ∧
  ((∀ (hz : Nat) (s : State), s.chip.refWatched = true → s.chip.clk.refLost = false → hz = 0 ∨ s.chip.refBeyond 15 hz = true →
    ∃ t, exec (.refclkLost hz) s = .next t ∧ t.chip.clk.refLost = true ∧ t.chip.clk.lostAt = s.chip.clk.ticks ∧
      t.chip.clk.refHz = hz ∧ t.chip.clk.refStatus = (if hz = 0 then 1 else 2)) ∧
  (∀ (hz : Nat) (s : State), hz ≠ 0 → s.chip.refBeyond 15 hz = false → exec (.refclkLost hz) s = .next s) ∧
  (∀ (hz : Nat) (s : State), s.chip.clk.refLost = true → hz ≠ 0 → s.chip.refBeyond 25 hz = false →
    ∃ t, exec (.refclkRestored hz) s = .next t ∧ t.chip.clk.refLost = false ∧ t.chip.clk.refStatus = 0 ∧ t.chip.clk.refHz = hz ∧
      t.chip.clk.stopped = []))

/-- R92 to R95 and R84, with everything each command leaves alone: the answered state is given whole. -/
def Obligations.ClockOutputRows : Prop :=
  (∀ (p : Path) (tag : Word16) (k : Fin 6) (s : State) (r : Req) (c : Chip),
    gate p tag (0x2620 + k.val) 9 [1] (fun _ s => let o := s.clko k.val; if s.outputOk o.format o.source o.divider then 0 else 2) s.chip = .go r c →
    let o := c.clko k.val
    let d := c.modClko k.val fun x => { x with restored := none }
    (o.inTransition = true → exec (.clkoApply p tag k) s = next s (Chip.finish r.dest
      (d.modClko k.val fun x => { x with again := some (o.format, o.source, o.divider) }, ok))) ∧
    (o.inTransition = false → o.format = 0 → exec (.clkoApply p tag k) s = next s (Chip.finish r.dest
      (d.modClko k.val fun x => { x with formatIn := 0, sourceIn := o.source, dividerIn := o.divider, status := .off, inTransition := false, fromOff := false, bypass := none, hz := 0 }, ok))) ∧
    (o.inTransition = false → o.format ≠ 0 → o.formatIn = 0 → c.locked o.source = true →
      ∃ t, exec (.clkoApply p tag k) s = .next t ∧
        Only [.clkos, .host, .out, .pair] c t.chip ∧
        t.chip = Chip.finish r.dest ((d.modClko k.val fun x => { x with formatIn := o.format, sourceIn := o.source, dividerIn := o.divider, inTransition := true, fromOff := true, bypass := none, status := .heldLow }).stepFive k.val, ok))) ∧
  (∀ (p : Path) (tag : Word16) (k : Fin 6) (steps : Word16) (s : State) (r : Req) (c : Chip),
    gate p tag (0x2620 + k.val) 4 (le 2 steps.toNat)
      (fun _ s => let n := (s.clko k.val).pendingSteps + steps.toInt; if -32768 ≤ n ∧ n ≤ 32767 then 0 else 2) s.chip = .go r c →
    exec (.clkoPhaseStep p tag k steps) s = next s (Chip.finish r.dest
      (c.modClko k.val fun o => { o with pendingSteps := o.pendingSteps + steps.toInt }, ok))) ∧
  (∀ (k : Fin 6) (s : State), (s.chip.clko k.val).status = .running → (s.chip.clko k.val).inTransition = false →
    (0 < (s.chip.clko k.val).pendingSteps → exec (.phaseStepApplied k) s = next s (s.chip.modClko k.val fun o => { o with pendingSteps := o.pendingSteps - 1, cumulative := o.cumulative + 1 })) ∧
    ((s.chip.clko k.val).pendingSteps < 0 → exec (.phaseStepApplied k) s = next s (s.chip.modClko k.val fun o => { o with pendingSteps := o.pendingSteps + 1, cumulative := o.cumulative - 1 })) ∧
    ((s.chip.clko k.val).pendingSteps = 0 → exec (.phaseStepApplied k) s = .next s)) ∧
  (∀ (unit : Fin 4) (s : State), s.chip.clk.refLost = false →
    exec (.spreadTakesEffect unit) s = next s ({ s.chip with clk := { s.chip.clk with
      spreadInForce := s.chip.clk.spreadInForce.set 0 unit.val (s.chip.clk.spread.get 0 unit.val) } }))

/-! ## The way of a host request, sessions and the ledger (chapter 5) -/

/-- Steps 1 to 6 of R31: with every condition met a tagged CAN write reaches its owner; and whatever reaches step 6
has passed every earlier step with only the host island changed. -/
def Obligations.GateSteps : Prop :=
  (∀ (b : Bus) (client : BitVec 7) (idx sub : Nat) (payload : Bytes) (chk : Req → Chip → Nat) (s : Chip) (x : Session) (row : ObjRow) (tag : Word16),
    let n := s.sessionAt (.can b client)
    s.host.online = true → s.onBus b = true → s.host.nmt ≠ .stopped →
    n ≠ 0 → SMap.find? s.host.sessions n = some x → x.busy = false → x.staged = some tag → (∀ e ∈ x.ledger, e.tag ≠ tag) →
    lookup idx sub = .found row → accessCode row.access x.level = 0 → tagExempt idx row = false →
    row.size.ok payload.length = true → payload.length ≤ 65536 → s.unserved idx sub = false →
    s.availability (ownerOf idx sub) (sourceOf idx sub row) true (s.unitFaulted (ownerOf idx sub)) = 0 →
    s.reseatCode idx sub = 0 → s.partitionStopped idx sub = false → (ownerOf idx sub = 2 → s.ci.halted = false) →
    ∃ (t : Target) (c : Chip), t.path = .can b client ∧ t.index = idx ∧ t.sub = sub ∧ t.session = n ∧ t.tag = tag ∧ t.tagged = true ∧
      Only [.host] s c ∧
      SMap.find? c.host.sessions n = some { x with
        lastReq := s.clk.ticks, bus := b, staged := none, busy := true, lastTag := tag
        ledger := { tag := tag, digest := s.digestOf t payload, index := idx, sub := sub, inProgress := true } :: x.ledger } ∧
      (chk ⟨t, x.level⟩ c = 0 → gate (.can b client) 0 idx sub payload chk s = .go ⟨t, x.level⟩ c) ∧
      (chk ⟨t, x.level⟩ c ≠ 0 → gate (.can b client) 0 idx sub payload chk s = .stop (c.refuseOpened t (chk ⟨t, x.level⟩ c) 0))) ∧
  (∀ (p : Path) (tag : Word16) (idx sub : Nat) (payload : Bytes) (chk : Req → Chip → Nat) (s c : Chip) (r : Req),
    gate p tag idx sub payload chk s = .go r c →
    Only [.host] s c ∧ s.host.online = true ∧ chk r c = 0 ∧ payload.length ≤ pathLimit p ∧
    r.dest.path = p ∧ r.dest.index = idx ∧ r.dest.sub = sub ∧
    (r.dest.session ≠ 0 ∨ (idx = 0x2200 ∧ (sub = 0x02 ∨ sub = 0x10))) ∧
    ∃ row, lookup idx sub = .found row ∧ accessCode row.access r.level = 0 ∧ row.size.ok payload.length = true ∧
      r.dest.tagged = !tagExempt idx row)

/-- R128, R129 and R131: the outcomes of the lookup with a tag, and what answering a tagged request does. -/
def Obligations.LedgerRules : Prop :=
  (∀ (t : Target) (x : Session) (payload : Bytes) (s : Chip),
    ((∀ e ∈ x.ledger, e.tag ≠ t.tag) → x.busy = false →
      ∃ c, s.ledgerLookup t x payload = .inr (t, c) ∧ c = s.modSession t.session fun y =>
        { y with
          busy := true
          lastTag := t.tag
          ledger := { tag := t.tag, digest := s.digestOf t payload, index := t.index, sub := t.sub, inProgress := true } :: y.ledger }) ∧
    ((∀ e ∈ x.ledger, e.tag ≠ t.tag) → x.busy = true → s.ledgerLookup t x payload = .inl ((s.refuse t 0x0001 1).count 1)) ∧
    (∀ e, (x.ledger.find? fun y => y.tag == t.tag) = some e → e.digest = s.digestOf t payload → e.inProgress = false →
      s.ledgerLookup t x payload = .inl (s.replay t e) ∧ (s.replay t e).host.replays = satAdd 32 s.host.replays 1 ∧
      Only [.host, .out] s (s.replay t e)) ∧
    (∀ e, (x.ledger.find? fun y => y.tag == t.tag) = some e → e.digest = s.digestOf t payload → e.inProgress = true →
      s.ledgerLookup t x payload = .inl (s.modSession t.session fun y =>
        { y with ledger := y.ledger.map fun e => if e.inProgress then { e with copies := e.copies ++ [t] } else e })) ∧
    (∀ e, (x.ledger.find? fun y => y.tag == t.tag) = some e → e.digest ≠ s.digestOf t payload →
      ∃ c, s.ledgerLookup t x payload = .inl c ∧ c.host.conflicts = satAdd 32 s.host.conflicts 1 ∧
        (∀ y, SMap.find? s.host.sessions t.session = some y → ∃ z, SMap.find? c.host.sessions t.session = some z ∧ z.ledger = y.ledger) ∧
        Only [.host, .out] s c)) ∧
  (∀ (t : Target) (code : Nat) (data : Bytes) (delay : Nat) (s : Chip), t.session ≠ 0 → t.tagged = true →
    Only [.host, .out, .pair] s (s.complete t code data delay) ∧
    (s.sessionOf t = none → s.complete t code data delay = s.freeEntry t) ∧
    (∀ x, s.sessionOf t = some x → ∃ y, SMap.find? (s.complete t code data delay).host.sessions t.session = some y ∧
      y.busy = false ∧ y.lastResult = BitVec.ofNat 16 code ∧ (∀ e ∈ y.ledger, e.inProgress = false) ∧
      (unstored code = false → y.ledger.length ≤ 64) ∧
      (unstored code = true → y.ledger = x.ledger.filter fun e => !e.inProgress)) ∧
    (∀ x b client, s.sessionOf t = some x → t.path = .can b client → s.usdoServes b = true → x.heldCopies = [] →
      (s.complete t code data delay).out = (if code = 0 then .answer t 0 data delay
        else .usdoAbort b client.toNat (BitVec.ofNat 32 (abortCode code))) :: s.out))

/-- R31 and R120 to R126 as their commands give them. The nonce's bytes are free values. -/
def Obligations.ObjectWriteAndSessionRows : Prop :=
  ((∀ (p : Path) (tag index : Word16) (sub : Byte) (payload : Bytes) (s : State) (r : Req) (c : Chip),
    let w := writeRule s.array.next index.toNat sub.toNat payload
    isWindowData index.toNat sub.toNat = false → ¬ (index = 0x2200 ∧ sub = 0x10) → ¬ (index = 0x2400 ∧ sub = 4) →
    gate p tag index.toNat sub.toNat payload w.chk s.chip = .go r c →
    exec (.objectWrite p tag index sub payload) s = next s
      (if (w.act r c).2 = ok then w.after (Chip.finish r.dest (w.act r c)) else Chip.finish r.dest (w.act r c))) ∧
  (∀ (p : Path) (tag : Word16) (s : State) (r : Req) (c : Chip), gate p 0 0x2100 1 (le 2 tag.toNat) (fun _ _ => 0) s.chip = .go r c →
    exec (.tagStage p tag) s = next s (Chip.finish r.dest (c.modSession r.dest.session fun x => { x with staged := some tag }, ok))) ∧
  (∀ (b : Bus) (client : BitVec 7) (s : State), s.chip.host.online = true → s.chip.onBus b = true → s.chip.host.nmt ≠ .stopped →
    s.chip.reduced = false → s.chip.island 0 = .running → s.chip.drbgGate = 0 → ∃ t v, exec (.sessionNonceRead (.can b client)) s = .next t ∧ v.length = 16 ∧
      t.chip.out = .readAnswer (.can b client) 0x2200 2 0 v :: s.chip.out ∧
      (∃ e ∈ t.chip.host.nonces, e.value = v ∧ e.readAt = s.chip.clk.ticks)) ∧
  (∀ (p : Path) (bytes : Bytes) (s : State) (r : Req) (c : Chip), gate p 0 0x2200 2 bytes (fun _ _ => 0) s.chip = .go r c →
    exec (.sessionNonceDiscard p bytes) s = next s (Chip.finish r.dest
      (c.modHost fun h => { h with nonces := h.nonces.filter fun x => x.path != clientPath r.dest.path }, ok))) ∧
  (∀ (p : Path) (req : Bytes) (s : State) (r : Req) (c : Chip) (l : Level) (k : Nat),
    gate p 0 0x2200 0x10 req (fun _ s => s.openForm req) s.chip = .go r c → levelOf (byteAt req 0) = some l → c.proofLen l = some 0 →
    (pathSpi p || !(c.host.sessions.any fun e => !e.2.isSpi && e.2.client == clientOf p req)) = true → c.freeSession (pathSpi p) = some k →
    ∃ t, exec (.sessionOpen p req) s = .next t ∧ (∃ x, SMap.find? t.chip.host.sessions k = some x ∧ x.level = l ∧ x.ledger = [] ∧
      x.staged = none ∧ x.isSpi = pathSpi p ∧ x.client = clientOf p req ∧ x.lastReq = c.clk.ticks)) ∧
  (∀ (p : Path) (n : Byte) (s : State) (r : Req) (c : Chip), gate p 0 0x2200 0x12 [n] (fun _ _ => 0) s.chip = .go r c →
    (r.dest.session = n.toNat → exec (.sessionClose p n) s = next s ((Chip.finish r.dest (c, ok)).endSession n.toNat)) ∧
    (r.dest.session ≠ n.toNat → exec (.sessionClose p n) s = next s (Chip.finish r.dest (c, .done 0x000C [])))) ∧
  (∀ (n : BitVec 6) (s : State) (x : Session), SMap.find? s.chip.host.sessions n.toNat = some x → s.chip.dormant x = false →
    (s.chip.overMs x.lastReq (1000 * s.chip.host.idleTimeout) = true → exec (.sessionIdleTimeout n) s = next s (s.chip.endSession n.toNat)) ∧
    (s.chip.overMs x.lastReq (1000 * s.chip.host.idleTimeout) = false → exec (.sessionIdleTimeout n) s = .next s))) ∧
  (∀ (n m : Nat) (s : Chip), SMap.sorted s.host.sessions = true →
    SMap.find? (s.endSession n).host.sessions m = if m = n then none else SMap.find? s.host.sessions m)

/-! ## CAN services (chapter 5) -/

/-- R108, R109, R143 and R70 as their commands give them. -/
def Obligations.NmtSyncAndHeartbeatRows : Prop :=
  (∀ (b : Bus) (f : CanFormat) (spec node : Byte) (s : State), s.chip.hears b = true → canTaken f = true → node = 0 ∨ node.toNat = s.chip.nodeId →
    (s.chip.host.lastNmt.any fun x => decide (s.chip.clk.ticks ≤ x.2.2.2 + 4000000) && x.1 != b && x.2.1 == spec && x.2.2.1 == node) = false →
    ∃ t, exec (.nmtCommand ⟨b, f⟩ spec node) s = .next t ∧
      (spec = 0x01 → t.chip.host.nmt = .operational ∧ Within [.host] s t) ∧
      (spec = 0x02 → t.chip.host.nmt = .stopped ∧ Within [.host] s t) ∧
      (spec = 0x80 → t.chip.host.nmt = .preOperational ∧ Within [.host] s t) ∧
      (spec = 0x81 → Restarted s.chip t.chip)) ∧
  (∀ (b : Bus) (f : CanFormat) (spec node : Byte) (s : State), canTaken f = false ∨
    (s.chip.host.lastNmt.any fun x => decide (s.chip.clk.ticks ≤ x.2.2.2 + 4000000) && x.1 != b && x.2.1 == spec && x.2.2.1 == node) = true →
    exec (.nmtCommand ⟨b, f⟩ spec node) s = .next s) ∧
  (∀ (b : Bus) (s : State), s.chip.hears b = true →
    (s.chip.host.lastNmt.any fun x => decide (s.chip.clk.ticks ≤ x.2.2.2 + 4000000) && x.1 != b && x.2.1 == 0x82 && x.2.2.1 == 0) = false →
    ∃ t c, exec (.nmtResetCommunication b) s = .next t ∧ t.chip = nmtReset c ∧ Only [.host] s.chip c ∧
      c.host.sessions = s.chip.host.sessions ∧ t.chip.host.nmt = .preOperational) ∧
  (∀ (f : CanFormat) (s : State), s.chip.hears .canA = true → canTaken f = true →
    ∃ t, exec (.canopenSync ⟨.canA, f⟩) s = .next t ∧ t.chip.host.lastSyncA = some s.chip.clk.ticks) ∧
  (∀ (b : Bus) (f : CanFormat) (content : BitVec 48) (s : State), s.chip.hears b = true → canTaken f = true → s.chip.syncBusNow = some b → s.chip.host.nmt = .operational →
    s.chip.host.cobTime.getLsbD 31 = true →
    exec (.timeMessage ⟨b, f⟩ content) s = next s { s.chip with clk := { s.chip.clk with lastTime := content, timeAt := s.chip.actionNs } }) ∧
  (∀ (s : State), s.chip.host.cyclePeriod ≠ 0 → exec .syncSourceTimeout s = next s { s.chip with host := { s.chip.host with lastSyncA := none } }) ∧
  (∀ (s : State), s.chip.host.online = true → s.chip.host.heartbeat ≠ 0 →
    s.chip.passedMs s.chip.host.lastBeat s.chip.host.heartbeat.toNat = true → s.chip.onBus .canA = true → s.chip.onBus .canB = true →
    exec .canHeartbeatSend s = next s { s.chip with
      host := { s.chip.host with lastBeat := s.chip.clk.ticks }
      out := .can .canB .fdBrs (0x700 + s.chip.nodeId) [s.chip.host.nmt.byte] :: .can .canA .fdBrs (0x700 + s.chip.nodeId) [s.chip.host.nmt.byte] :: s.chip.out }) ∧
  (∀ (k : Fin 4) (s : State), s.chip.host.online = true → (SMap.get s.chip.host.consumers {} k.val).ms ≠ 0 →
    (SMap.get s.chip.host.consumers {} k.val).monitored = true → (SMap.get s.chip.host.consumers {} k.val).lost = false →
    s.chip.overMs (SMap.get s.chip.host.consumers {} k.val).lastAt (SMap.get s.chip.host.consumers {} k.val).ms = true →
    SMap.sorted s.chip.host.consumers = true →
    ∃ t, exec (.consumedHeartbeatLost k) s = .next t ∧ (SMap.get t.chip.host.consumers {} k.val).lost = true ∧
      (t.chip.host.conditions.any fun c => c.key == 6000 + k.val) = true ∧ Within [.host, .recorder, .out] s t) ∧
  (∀ (b : Bus) (f : CanFormat) (n : BitVec 7) (k : Fin 4) (s : State), s.chip.hears b = true → canTaken f = true → (SMap.get s.chip.host.consumers {} k.val).node = n.toNat →
    (SMap.get s.chip.host.consumers {} k.val).ms ≠ 0 → SMap.sorted s.chip.host.consumers = true →
    ∃ t, exec (.consumedHeartbeatReceived ⟨b, f⟩ n) s = .next t ∧ Within [.host, .out] s t ∧
      (SMap.get t.chip.host.consumers {} k.val).lost = false ∧ (SMap.get t.chip.host.consumers {} k.val).monitored = true ∧
      (SMap.get t.chip.host.consumers {} k.val).lastAt = s.chip.clk.ticks)

/-- R110 and R140 to R144. -/
def Obligations.CanControllerRows : Prop :=
  (∀ (b : Bus) (s : State), s.chip.onBus b = true → ∃ t, exec (.busOff b) s = .next t ∧ (t.chip.ctl b).status = .busOff ∧ t.chip.onBus b = false ∧
    Within [.host] s t) ∧
  (∀ (b : Bus) (s : State), (s.chip.ctl b).status = .busOff → ∃ t, exec (.busOffRecovery b) s = .next t ∧ (t.chip.ctl b).status = .errorActive ∧
    t.chip.host.errors.head? = some 0x000D8140 ∧ Within [.host, .recorder, .out] s t) ∧
  (∀ (b : Bus) (s : State), (s.chip.ctl b).status = .errorActive → (s.chip.host.conditions.any fun c => c.key == 5000 + busNo b) = false →
    ∃ t, exec (.canErrorPassive b) s = .next t ∧ (t.chip.ctl b).status = .errorPassive ∧ t.chip.host.errors.head? = some 0x000D8120 ∧
      (t.chip.host.conditions.any fun c => c.key == 5000 + busNo b) = true ∧ Within [.host, .recorder, .out] s t) ∧
  (∀ (b : Bus) (s : State), (s.chip.ctl b).status = .errorPassive → ∃ t, exec (.canErrorPassiveEnd b) s = .next t ∧
    (t.chip.ctl b).status = .errorActive ∧ (t.chip.host.conditions.any fun c => c.key == 5000 + busNo b) = false ∧ Within [.host, .out] s t) ∧
  (∀ (b : Bus) (s : State), s.chip.hears b = true → ∃ t, exec (.canReceiveOverrun b) s = .next t ∧
    t.chip.host.errors.head? = some 0x000D8110 ∧ Within [.host, .recorder, .out] s t) ∧
  (∀ (b : Bus) (s : State) (m : EmcyMsg) (l : List EmcyMsg), (s.chip.ctl b).inhibited = true → (s.chip.ctl b).waiting = m :: l →
    s.chip.onBus b = true → s.chip.host.nmt ≠ .stopped → s.chip.host.inhibit ≠ 0 →
    exec (.emcyInhibitExpiry b) s = next s ((s.chip.emit (.can b .fdBrs (0x80 + s.chip.nodeId) m.bytes)).modCtl b fun c => { c with waiting := l })) ∧
  (∀ (b : Bus) (s : State), (s.chip.ctl b).inhibited = true → (s.chip.ctl b).waiting = [] → s.chip.onBus b = true → s.chip.host.nmt ≠ .stopped →
    ∃ t, exec (.emcyInhibitExpiry b) s = .next t ∧ (t.chip.ctl b).inhibited = false ∧ Within [.host] s t) ∧
  (∀ (p : Path) (s : State) (r : Req) (c : Chip), gate p 0 0x1003 0 [0] (fun _ _ => 0) s.chip = .go r c →
    exec (.errorFieldClear p) s = next s (Chip.finish r.dest ({ c with host := { c.host with errors := [] } }, ok))) ∧
  (∀ (b : Bus) (client : BitVec 7) (lastAt : Nat) (onEdge : Bool) (s : State),
    (s.chip.hears b = true → s.chip.host.nmt ≠ .stopped → onEdge = false → s.chip.overMs lastAt s.chip.host.usdoTimeout = true →
      exec (.usdoTimeout b ⟨client, lastAt, onEdge⟩) s = next s { s.chip with out := .usdoAbort b client.toNat 0x05040000 :: s.chip.out }) ∧
    (onEdge = true ∨ s.chip.overMs lastAt s.chip.host.usdoTimeout = false → exec (.usdoTimeout b ⟨client, lastAt, onEdge⟩) s = .next s))

/-! ## The SPI port, stored parameters and windows (chapters 5 and 14) -/

/-- R111 to R116. The port serves while the host island is online. -/
def Obligations.SpiPortRows : Prop :=
  (∀ (f : Bytes) (k : Bool) (s : State), s.chip.host.online = true → s.chip.host.spi.entries.length < 8 → frameSound f false = true → byteAt f 0 = 0x20 →
    exec (.spiWrite f ⟨false, k⟩) s = next s (objectWrite s.array.next (.spi (f.getD 1 0)) (BitVec.ofNat 16 (fieldAt f 2 2)) (fieldAt f 4 2) (byteAt f 6)
      (slice f 9 (fieldAt f 7 2)) (s.chip.csFall k))) ∧
  (∀ (f : Bytes) (k : Bool) (s : State), s.chip.host.online = true → s.chip.host.spi.entries.length < 8 → frameSound f false = true → byteAt f 0 = 0x10 →
    isWindowData (fieldAt f 4 2) (byteAt f 6) = true ∨ fieldAt f 7 2 = 0 →
    exec (.spiRead f ⟨false, k⟩) s = next s (objectRead s.array (.spi (f.getD 1 0)) (BitVec.ofNat 16 (fieldAt f 2 2)) (fieldAt f 4 2) (byteAt f 6)
      (fieldAt f 7 2) (s.chip.csFall k))) ∧
  (∀ (f : Bytes) (g : SpiFraming) (s : State), s.chip.host.online = true → s.chip.host.spi.entries.length < 8 → frameSound f g.broken = false →
    ∃ t, exec (.spiWrite f g) s = .next t ∧ exec (.spiRead f g) s = .next t ∧ t.chip.host.spi.rejected = true ∧ t.chip.host.spi.mode3 = g.sckHigh ∧
      t.chip.host.spi.rejects = satAdd 32 s.chip.host.spi.rejects 1 ∧ t.chip.host.spi.entries = s.chip.host.spi.entries ∧ Within [.host] s t) ∧
  (∀ (f : Bytes) (g : SpiFraming) (s : State), s.chip.host.online = true → 8 ≤ s.chip.host.spi.entries.length →
    ∃ t, exec (.spiWrite f g) s = .next t ∧ exec (.spiRead f g) s = .next t ∧ t.chip.host.spi.discarded = true ∧
      t.chip.host.spi.discards = satAdd 32 s.chip.host.spi.discards 1 ∧ t.chip.host.spi.entries = s.chip.host.spi.entries ∧
      Within [.host, .recorder] s t) ∧
  (∀ (e : SpiEntry) (d : Bytes) (s : State), s.chip.host.online = true → s.chip.host.spi.entries = [e] → e.frame = some d →
    s.chip.host.spi.quadEntry = [] →
    ∃ t, exec .spiFetch s = .next t ∧ t.chip.out = .spi (s.chip.host.spi.newQuad.getD s.chip.host.spi.quad) d :: s.chip.out ∧ t.chip.host.spi.entries = [] ∧
      t.chip.host.spi.irq = s.chip.host.spi.emcyPending ∧ Within [.host, .out, .free] s t) ∧
  (∀ s : State, s.chip.host.online = true → (∀ e ∈ s.chip.host.spi.entries, e.frame = none) →
    exec .spiFetch s = next s (s.chip.csFallFree.emit (.spi (s.chip.host.spi.newQuad.getD s.chip.host.spi.quad) [0]))) ∧
  (∀ s : State, s.chip.host.online = true → ∃ t, exec .spiStatus s = .next t ∧ t.chip.out = .spi (s.chip.host.spi.newQuad.getD s.chip.host.spi.quad) [s.chip.host.spi.status] :: s.chip.out ∧
    t.chip.host.spi.emcyPending = false ∧ t.chip.host.spi.rejected = false ∧ t.chip.host.spi.discarded = false ∧
    t.chip.host.spi.entries = s.chip.host.spi.entries ∧ Within [.host, .out, .free] s t) ∧
  (∀ s : State, ∃ t, exec .spiLaneSwitch s = .next t ∧ t.chip.host.spi.quad = s.chip.host.spi.newQuad.getD s.chip.host.spi.quad ∧
    t.chip.host.spi.newQuad = none ∧ t.chip.host.spi.entries = s.chip.host.spi.entries ∧ Within [.host, .free] s t)

/-- R123 and R523. -/
def Obligations.StoreRows : Prop :=
  (∀ (p : Path) (g : StoreRange) (s : State) (r : Req) (c : Chip), gate p 0 0x1010 (rangeSub g) (le 4 saveWord) (fun _ _ => 0) s.chip = .go r c →
    (c.boot.storing.isSome = true → exec (.storeParameters p g) s = next s (c.complete r.dest 0x0001 [] 250)) ∧
    (c.boot.storing = none → 98304 < imageBytes (c.storeAfter g (c.storeImage g)) →
      exec (.storeParameters p g) s = next s (Chip.finish r.dest (c, .done 0x0018 []))) ∧
    (c.boot.storing = none → imageBytes (c.storeAfter g (c.storeImage g)) ≤ 98304 → c.flashFree = true →
      exec (.storeParameters p g) s = next s { c with boot := { c.boot with storing := some (g, c.storeImage g, { dest := r.dest }) } })) ∧
  (∀ (g : StoreRange) (l : List Stored) (w : Waiter) (s : State), s.chip.boot.storing = some (g, l, w) → ∃ t, exec .storeComplete s = .next t ∧
    t.chip.boot.storing = none ∧ t.chip.boot.store = (s.chip.boot.store.filter fun e => !inRange g e.index) ++ l ∧
    Within [.boot, .free, .host, .out, .pair] s t) ∧
  (∀ (p : Path) (g : StoreRange) (s : State) (r : Req) (c : Chip), gate p 0 0x1011 (rangeSub g) (le 4 loadWord) (fun _ _ => 0) s.chip = .go r c →
    c.boot.storing = none →
    exec (.restoreDefaults p g) s = next s (Chip.finish r.dest ({ c with boot := { c.boot with
      restoreComm := c.boot.restoreComm || inRange g 0x1000, restoreDev := c.boot.restoreDev || inRange g 0x2000 } }, ok)))

/-- R131, R133 and R134. -/
def Obligations.WindowRows : Prop :=
  (∀ (p : Path) (w : Window) (region : Word16) (s : State) (r : Req) (c : Chip),
    gate p 0 (windowIndex w) 1 (le 2 region.toNat) (windowRule (windowIndex w) 1 (le 2 region.toNat)).chk s.chip = .go r c →
    (c.windowBusy r.dest = true → exec (.windowRegionSelect p w region) s = next s ((c.count 1).complete r.dest 0x0001 [] 1)) ∧
    (c.windowBusy r.dest = false → exec (.windowRegionSelect p w region) s = next s (Chip.finish r.dest
      ((c.setSel r.dest.session (windowIndex w) 1 (leNat (le 2 region.toNat))).setSel r.dest.session (windowIndex w) 2 0, ok)))) ∧
  (∀ (p : Path) (q : Fin 16) (off : BitVec 64) (s : State) (r : Req) (c : Chip),
    gate p 0 (0x3200 + q.val) 2 (le 8 off.toNat) (windowRule (0x3200 + q.val) 2 (le 8 off.toNat)).chk s.chip = .go r c →
    c.windowBusy r.dest = false →
    exec (.windowOffsetSet p (.program q) off) s = next s (Chip.finish r.dest
      (c.setSel r.dest.session (0x3200 + q.val) 2 (leNat (le 8 off.toNat)), ok))) ∧
  (∀ (p : Path) (off : BitVec 64) (s : State) (r : Req) (c : Chip),
    gate p 0 0x5000 2 (le 8 off.toNat) (windowRule 0x5000 2 (le 8 off.toNat)).chk s.chip = .go r c →
    c.windowBusy r.dest = false →
    exec (.windowOffsetSet p .main off) s = next s (Chip.finish r.dest
      ((c.setSel r.dest.session 0x5000 2 (leNat (le 8 off.toNat))).setSel r.dest.session 0x5000 6 0, ok))) ∧
  (∀ (p : Path) (tag : Word16) (q : Fin 16) (data : Bytes) (s : State) (r : Req) (c : Chip),
    gate p tag (0x3200 + q.val) 3 data (fun r s => if windowLength data.length then s.windowCode r.dest.session (0x3200 + q.val) data.length r.level true else 0x0012)
      s.chip (fun r code s => s.windowNote r.dest.session (0x3200 + q.val) true code) = .go r c →
    c.seqLocked q.val = false →
    ∃ t, exec (.windowDataWrite p tag (.program q) data) s = .next t ∧
      t.chip = Chip.finish r.dest ((c.modSq q.val (Seq.storeWrite (c.sel r.dest.session (0x3200 + q.val) 2) data)).advanceOffset r.dest data.length,
        .done 0 (le 8 (((c.modSq q.val (Seq.storeWrite (c.sel r.dest.session (0x3200 + q.val) 2) data)).advanceOffset r.dest data.length).sel
          r.dest.session (0x3200 + q.val) 2)))) ∧
  (∀ (p : Path) (tag : Word16) (data : Bytes) (s : State) (r : Req) (c : Chip),
    gate p tag 0x5000 3 data (fun r s => if windowLength data.length then s.windowCode r.dest.session 0x5000 data.length r.level true else 0x0012)
      s.chip (fun r code s => s.windowNote r.dest.session 0x5000 true code) = .go r c →
    c.sel r.dest.session 0x5000 1 ≠ 2 ∨ c.overlapsLive (c.sel r.dest.session 0x5000 2) data.length = false → c.windowGate = 0 →
    exec (.windowDataWrite p tag .main data) s = next s (c.dramEnqueue
      { cls := .conductor, addr := c.regionBase (c.sel r.dest.session 0x5000 1) + c.sel r.dest.session 0x5000 2, write := true
        len := data.length, dest := some r.dest, data := data })) ∧
  (∀ (b : Byte) (q : Fin 16) (len : Nat) (s c : State) (t : Target),
    s.chip.arrive (.spi b) 0 (0x3200 + q.val) 3 = (c.chip, some t) → t.session ≠ 0 → windowLength len = true → len ≤ 4096 →
    (SMap.get c.chip.host.sessions {} t.session).busy = false →
    c.chip.windowCode t.session (0x3200 + q.val) len (SMap.get c.chip.host.sessions {} t.session).level false = 0 →
    c.chip.unserved (0x3200 + q.val) 3 = false → c.chip.availability (ownerOf (0x3200 + q.val) 3) none false false = 0 → c.chip.partitionStopped (0x3200 + q.val) 3 = false →
    c.chip.ci.halted = false →
    exec (.windowDataRead (.spi b) (.program q) len) s = next s ((c.chip.advanceOffset t len).answerRead t
      (.data ((c.chip.sq q.val).storeRead (c.chip.sel t.session (0x3200 + q.val) 2) len))))

/-! ## Sequencers: arm, launch, stop (chapter 9) -/

/-- R246, R258, R262 and R263. -/
def Obligations.SequencerArmRows : Prop :=
  (∀ (p : Path) (tag : Word16) (q : Fin 16) (s : State) (r : Req) (c : Chip), gate p tag (0x3100 + q.val) 2 [1] (fun _ _ => 0) s.chip = .go r c →
    ((c.sq q.val).state ≠ .idle → (c.sq q.val).state ≠ .armed → (c.sq q.val).state ≠ .parked →
      exec (.seqArm p tag q) s = next s (c.complete r.dest 0x0005 [] 0)) ∧
    ((c.sq q.val).state = .idle ∨ (c.sq q.val).state = .armed ∨ (c.sq q.val).state = .parked →
      let d := if c.armEarly q.val = none then c.armPass else c
      (∀ f, d.armFail q.val = some f → ∃ (t : Chip) (y : Seq), exec (.seqArm p tag q) s = next s (t.complete r.dest f.code [] 0) ∧ (t.sq q.val).state = .idle ∧
        (t.sq q.val).refusal = BitVec.ofNat 32 (f.code + 65536 * f.detail) ∧ y = t.sq q.val ∧ y.ring = [] ∧ y.refs = []) ∧
      (d.armFail q.val = none → ∃ t, exec (.seqArm p tag q) s = .next t ∧ (t.chip.sq q.val).state = .arming ∧
        (t.chip.sq q.val).armWaiter = some { dest := r.dest } ∧ (t.chip.sq q.val).parked = 0 ∧ (t.chip.sq q.val).vectors = 0))) ∧
  (∀ (q : Fin 16) (s : State), (s.chip.sq q.val).state = .arming → ∃ t, exec (.armingComplete q) s = .next t ∧
    (t.chip.sq q.val).state = (if (s.chip.sq q.val).launch.isSome then .launchPending else .armed) ∧ (t.chip.sq q.val).armWaiter = none ∧ Within [.seqs, .segs, .dram, .recorder, .host, .out, .pair] s t) ∧
  (∀ (q : Fin 16) (s : State), (s.chip.sq q.val).state ≠ .arming → exec (.armingComplete q) s = .next s) ∧
  (∀ (p : Path) (tag : Word16) (q : Fin 16) (s : State) (r : Req) (c : Chip), gate p tag (0x3100 + q.val) 2 [0] (fun _ _ => 0) s.chip = .go r c →
    ((c.sq q.val).state = .armed ∨ (c.sq q.val).state = .parked ∨ (c.sq q.val).state = .faulted →
      ∃ t : Chip, exec (.seqDisarm p tag q) s = next s (t.complete r.dest 0 [] 0) ∧ (t.sq q.val).state = .idle ∧ (t.sq q.val).ring = [] ∧ (t.sq q.val).refs = []) ∧
    ((c.sq q.val).state ≠ .armed → (c.sq q.val).state ≠ .parked → (c.sq q.val).state ≠ .faulted →
      exec (.seqDisarm p tag q) s = next s (c.complete r.dest 0x0005 [] 0))) ∧
  (∀ (p : Path) (tag : Word16) (q : Fin 16) (s : State) (r : Req) (c : Chip), gate p tag (0x3100 + q.val) 4 [1] (fun _ _ => 0) s.chip = .go r c →
    ((c.sq q.val).state = .launchPending → ∃ t : Chip, exec (.seqStop p tag q) s = next s (t.complete r.dest 0 [] 0) ∧ (t.sq q.val).state = .armed ∧
      (t.sq q.val).launch = none ∧ Only [.seqs] c t) ∧
    ((c.sq q.val).state = .running ∨ (c.sq q.val).state = .waiting → ∃ t : Chip, exec (.seqStop p tag q) s = next s (t.complete r.dest 0 [] 0) ∧
      (t.sq q.val).state = .arming ∧ (t.sq q.val).endCause = 2) ∧
    ((c.sq q.val).state ≠ .launchPending → (c.sq q.val).state ≠ .running → (c.sq q.val).state ≠ .waiting →
      exec (.seqStop p tag q) s = next s (c.complete r.dest 0x0005 [] 0)))

/-- R98 to R103 and R260. -/
def Obligations.LaunchRows : Prop :=
  (∀ (p : Path) (tag : Word16) (q : Fin 16) (b : Bytes) (s : State) (r : Req) (c : Chip),
    gate p tag (0x3100 + q.val) 3 b (fun _ _ => stampOk b) s.chip = .go r c →
    (c.power.phase ≠ .ready ∨ c.runs 5 = false ∨ c.runs 6 = false → exec (.seqLaunch p tag q b) s = next s (c.complete r.dest 0x0004 [] 0)) ∧
    (c.power.phase = .ready → c.runs 5 = true → c.runs 6 = true →
      ((c.sq q.val).state ≠ .armed → exec (.seqLaunch p tag q b) s = next s (c.complete r.dest 0x0005 [] 0)) ∧
      ((c.sq q.val).state = .armed →
        (64 ≤ c.pendingLaunches.length → exec (.seqLaunch p tag q b) s = next s (c.complete r.dest 0x0001 [] (clamp 1 1000 c.launchDelay))) ∧
        (c.pendingLaunches.length < 64 → (stampOf b).at256 ≠ 0 → (stampOf b).at256 < c.clk.action + 512000 →
          exec (.seqLaunch p tag q b) s = next s (Chip.complete r.dest 0x0006 [] 0 { c with clk := { c.clk with late := satAdd 32 c.clk.late 1 } })) ∧
        (c.pendingLaunches.length < 64 → (stampOf b).at256 = 0 ∨ c.clk.action + 512000 ≤ (stampOf b).at256 →
          ∃ t : Chip, exec (.seqLaunch p tag q b) s = next s (t.complete r.dest 0 [] 0) ∧ (t.sq q.val).state = .launchPending ∧
            (t.sq q.val).launch = some (stampOf b) ∧ (t.sq q.val).launchHeld = !c.permits (stampOf b) ∧ (∀ j, j ≠ q.val → t.sq j = c.sq j) ∧ Only [.seqs] c t)))) ∧
  (∀ (q : Fin 16) (x : Stamp) (s : State), (s.chip.sq q.val).launch = some x → (s.chip.sq q.val).state = .launchPending →
    x.at256 = 0 ∨ x.at256 ≤ s.chip.clk.action →
    (s.chip.permits x = true → (s.chip.sq q.val).launchMissed = false → ∃ t, exec (.launchTakesEffect q) s = .next t ∧
      (t.chip.sq q.val).state = .running ∧ (t.chip.sq q.val).pc = 0 ∧ (t.chip.sq q.val).vecIndex = 0 ∧ (t.chip.sq q.val).launch = none ∧
      (t.chip.sq q.val).baseNs256 = (if x.at256 = 0 then s.chip.clk.action else x.at256) ∧ (t.chip.sq q.val).latches = 0 ∧ (t.chip.sq q.val).dropped = 0) ∧
    (s.chip.permits x = false → ∃ t, exec (.launchTakesEffect q) s = .next t ∧ SeqStep q.val { s.chip.sq q.val with launchHeld := true } s t)) ∧
  (∀ (q : Fin 16) (x : Stamp) (s : State), (s.chip.sq q.val).launch = some x → (s.chip.sq q.val).launchHeld = true → s.chip.permits x = true →
    (x.at256 = 0 → (s.chip.sq q.val).state = .launchPending → exec (.heldLaunchPermitted q) s = next s (s.chip.launchNow q.val x true)) ∧
    (x.at256 ≠ 0 → x.at256 < s.chip.clk.action + 512000 → ∃ t, exec (.heldLaunchPermitted q) s = .next t ∧
      SeqStep q.val { s.chip.sq q.val with launchMissed := true } s t)) ∧
  (∀ (q : Fin 16) (x : Stamp) (s : State), (s.chip.sq q.val).launch = some x → x.at256 ≠ 0 → x.at256 ≤ s.chip.clk.action →
    s.chip.permits x = false ∨ (s.chip.sq q.val).launchMissed = true ∨ (s.chip.sq q.val).state ≠ .launchPending →
    ∃ t, exec (.heldActionLate q) s = .next t ∧
    (t.chip.sq q.val).state = (if (s.chip.sq q.val).state = .launchPending then .armed else (s.chip.sq q.val).state) ∧
    (t.chip.sq q.val).launch = none ∧ (t.chip.sq q.val).lastAction = some 6 ∧ t.chip.clk.late = satAdd 32 s.chip.clk.late 1 ∧ Within [.seqs, .clk] s t)

/-- R242 and R244. -/
def Obligations.ExchangeAndRefillRows : Prop :=
  (∀ (p : Path) (tag a b : Word16) (s : State) (r : Req) (c : Chip),
    gate p tag 0x3300 5 (le 2 a.toNat ++ le 2 b.toNat) (fun _ _ => segRange a.toNat b.toNat) s.chip = .go r c →
    (exchangeCode c a.toNat b.toNat ≠ 0 →
      exec (.segmentExchangeStage p tag a b) s = next s (c.complete r.dest (exchangeCode c a.toNat b.toNat) [] 0)) ∧
    (exchangeCode c a.toNat b.toNat = 0 → exec (.segmentExchangeStage p tag a b) s = next s
      (Chip.complete r.dest 0 [] 0 { c with segs := { c.segs with exchanges := c.segs.exchanges ++ [(a.toNat, b.toNat)] } }))) ∧
  (∀ (a : BitVec 14) (b : Nat) (s : State), s.chip.segs.exchanges = [(a.toNat, b)] → s.chip.segActive a.toNat = false → b ≠ a.toNat →
    ∃ t, exec (.segmentExchangeApply a) s = .next t ∧ t.chip.desc a.toNat = { s.chip.desc a.toNat with offset := (s.chip.desc b).offset } ∧
      t.chip.desc b = { s.chip.desc b with offset := (s.chip.desc a.toNat).offset } ∧ t.chip.segs.exchanges = [] ∧
      (∀ g, g ≠ a.toNat → g ≠ b → t.chip.desc g = s.chip.desc g) ∧ Within [.segs] s t) ∧
  (∀ (a : BitVec 14) (s : State), s.chip.segActive a.toNat = true → exec (.segmentExchangeApply a) s = .next s) ∧
  (∀ (q : Fin 16) (b : PathBurst) (f : FetchPos) (s : State), (s.chip.sq q.val).state = .running → (s.chip.sq q.val).ringRoom = true →
    (s.chip.sq q.val).fetching.length < 16 → s.chip.channelFull .playback = false → s.chip.dramServes = true →
    s.chip.nextBurst q.val pathSteps (s.chip.sq q.val).fetch = (some b, f) → ∃ t, exec (.refillRequest q) s = .next t ∧
      t.chip.sq q.val = { s.chip.sq q.val with fetch := f, fetching := (s.chip.sq q.val).fetching ++ [(b.seg, b.stream)] } ∧ Within [.seqs, .dram] s t)

/-! ## The sequencer instructions (Table 9.3) -/

/-- R247: the encoding of Table 9.3, both ways. -/
def Obligations.SequencerWordRoundTrip : Prop :=
  (∀ i : SeqOp, decodeOp (encodeOp i) = some i) ∧ (∀ (w : Word32) (i : SeqOp), decodeOp w = some i ↔ w = encodeOp i)

/-- R248, as the program counter and the two stacks show it. -/
def Obligations.ControlInstructions : Prop :=
  ∀ (q : Fin 16) (s : State),
    (s.chip.atOp q.val .nop → ∃ t, exec (.nop q) s = .next t ∧ SeqStep q.val ((s.chip.sq q.val).goto ((s.chip.sq q.val).pc + 1)) s t) ∧
    (∀ n, s.chip.atOp q.val (.loop n) → ∃ t, exec (.loop q) s = .next t ∧
      SeqStep q.val { (s.chip.sq q.val).goto ((s.chip.sq q.val).pc + 1) with loops := ⟨(s.chip.sq q.val).pc, n.toNat⟩ :: (s.chip.sq q.val).loops } s t) ∧
    (∀ l ls, s.chip.atOp q.val .endl → (s.chip.sq q.val).loops = l :: ls →
      (l.left = 0 → ∃ t, exec (.endl q) s = .next t ∧ SeqStep q.val { (s.chip.sq q.val).goto ((s.chip.sq q.val).pc + 1) with loops := ls } s t) ∧
      (0 < l.left → ∃ t, exec (.endl q) s = .next t ∧
        SeqStep q.val { (s.chip.sq q.val).goto (l.start + 1) with loops := { l with left := l.left - 1 } :: ls } s t)) ∧
    (∀ a, s.chip.atOp q.val (.call a) → ∃ t, exec (.call q) s = .next t ∧ SeqStep q.val { (s.chip.sq q.val).goto a.toNat with
      calls := ⟨(s.chip.sq q.val).pc + 1, (s.chip.sq q.val).loops.length⟩ :: (s.chip.sq q.val).calls } s t) ∧
    (∀ c cs, s.chip.atOp q.val .ret → (s.chip.sq q.val).calls = c :: cs → ∃ t, exec (.ret q) s = .next t ∧
      SeqStep q.val { (s.chip.sq q.val).goto c.ret with
        calls := cs, loops := (s.chip.sq q.val).loops.drop ((s.chip.sq q.val).loops.length - c.loops) } s t) ∧
    (∀ a, s.chip.atOp q.val (.jmp a) → ∃ t, exec (.jmp q) s = .next t ∧ SeqStep q.val { (s.chip.sq q.val).goto a.toNat with
      loops := cutLoops (s.chip.sq q.val).pairs (s.chip.sq q.val).pc a.toNat (s.chip.sq q.val).loops } s t)

/-- R250 to R252. -/
def Obligations.EventInstructions : Prop :=
  (∀ (q : Fin 16) (j : Fin 4) (s : State), s.chip.routed (4 * q.val + j.val) = true → s.chip.runs 5 = true →
    ((s.chip.sq q.val).latches.getLsbD j.val = false → ∃ t, exec (.seqEvent q j) s = .next t ∧ (t.chip.sq q.val).latches.getLsbD j.val = true ∧
      SMap.get (t.chip.sq q.val).eventAt 0 j.val = s.chip.clk.action ∧ (t.chip.sq q.val).pc = (s.chip.sq q.val).pc ∧ Within [.seqs] s t) ∧
    ((s.chip.sq q.val).latches.getLsbD j.val = true → exec (.seqEvent q j) s = .next s)) ∧
  (∀ (q : Fin 16) (j : BitVec 2) (a : BitVec 12) (s : State), s.chip.atOp q.val (.jev j a) →
    (s.chip.sampled q.val j.toNat = true → ∃ t, exec (.jev q) s = .next t ∧ (t.chip.sq q.val).pc = a.toNat ∧
      (t.chip.sq q.val).latches.getLsbD j.toNat = false ∧ (t.chip.sq q.val).ring = [] ∧ (t.chip.sq q.val).state = .running ∧
      (∀ i, i ≠ q.val → t.chip.sq i = s.chip.sq i) ∧ Within [.seqs, .dram] s t) ∧
    (s.chip.sampled q.val j.toNat = false → ∃ t, exec (.jev q) s = .next t ∧
      SeqStep q.val ((s.chip.sq q.val).goto ((s.chip.sq q.val).pc + 1)) s t)) ∧
  (∀ (q : Fin 16) (j : BitVec 2) (a : BitVec 12) (s : State), s.chip.atOp q.val (.evarm j a) → ∃ t, exec (.evarm q) s = .next t ∧
    SeqStep q.val { (s.chip.sq q.val).goto ((s.chip.sq q.val).pc + 1) with
      jumps := (s.chip.sq q.val).jumps.put j.toNat { target := a.toNat, loops := cutLoops (s.chip.sq q.val).pairs (s.chip.sq q.val).pc a.toNat (s.chip.sq q.val).loops, calls := (s.chip.sq q.val).calls } } s t) ∧
  (∀ (q : Fin 16) (j : BitVec 2) (s : State), s.chip.atOp q.val (.evdis j) → ∃ t, exec (.evdis q) s = .next t ∧
    SeqStep q.val { (s.chip.sq q.val).goto ((s.chip.sq q.val).pc + 1) with jumps := (s.chip.sq q.val).jumps.erase j.toNat } s t) ∧
  (∀ (q : Fin 16) (j : BitVec 2) (s : State), s.chip.atOp q.val (.evclr j) → ∃ t, exec (.evclr q) s = .next t ∧
    (t.chip.sq q.val).latches.getLsbD j.toNat = false ∧ (t.chip.sq q.val).pc = (s.chip.sq q.val).pc + 1 ∧
    (∀ i, i ≠ j.toNat → (t.chip.sq q.val).latches.getLsbD i = (s.chip.sq q.val).latches.getLsbD i) ∧ Within [.seqs] s t) ∧
  (∀ (q : Fin 16) (j : Nat) (a : ArmedJump) (s : State), (s.chip.sq q.val).state.inRun = true →
    (s.chip.holdForJump q.val).dueJump q.val = some j → (s.chip.sq q.val).jumps.find? j = some a → ∃ t, exec (.armedJumpTaken q) s = .next t ∧
      (t.chip.sq q.val).pc = a.target ∧ (t.chip.sq q.val).loops = a.loops ∧ (t.chip.sq q.val).calls = a.calls ∧
      (t.chip.sq q.val).latches.getLsbD j = false ∧ (t.chip.sq q.val).state = .running ∧ (t.chip.sq q.val).ring = [] ∧
      (t.chip.sq q.val).vecIndex = ((s.chip.holdForJump q.val).sq q.val).vecIndex) ∧
  (∀ (q : Fin 16) (s : State), (s.chip.sq q.val).state = .running → (s.chip.sq q.val).dropDue = false →
    (∀ n, (s.chip.sq q.val).op (s.chip.sq q.val).pc ≠ some (.wait n)) → s.chip.dueJump q.val = none →
    exec (.armedJumpTaken q) s = .next s)

/-- R254 to R256, R261 and R322. -/
def Obligations.WaitingInstructions : Prop :=
  (∀ (q : Fin 16) (n : BitVec 24) (k : Nat) (s : State), s.chip.atOp q.val (.wait n) → (s.chip.sq q.val).done ≤ n.toNat → 0 < k →
    let m := min k (n.toNat + 1 - (s.chip.sq q.val).done)
    ∃ t, exec (.wait ⟨q, k⟩) s = .next t ∧
    (n.toNat + 1 ≤ (s.chip.sq q.val).done + k → (t.chip.sq q.val).pc = (s.chip.sq q.val).pc + 1 ∧ (t.chip.sq q.val).done = 0) ∧
    ((s.chip.sq q.val).done + k ≤ n.toNat → (t.chip.sq q.val).pc = (s.chip.sq q.val).pc ∧ (t.chip.sq q.val).done = (s.chip.sq q.val).done + k) ∧
    (t.chip.sq q.val).vecIndex = (s.chip.sq q.val).vecIndex + m ∧
    (t.chip.sq q.val).tb = (s.chip.sq q.val).tb + m * (s.chip.sq q.val).periodUnits (s.chip.sq q.val).lastSet ∧
    (t.chip.sq q.val).markers = 0 ∧ (∀ j, j ≠ q.val → t.chip.sq j = s.chip.sq j) ∧ Within [.seqs, .lanes] s t) ∧
  (∀ (q : Fin 16) (b : BitVec 5) (j : Fin 16) (s : State), s.chip.atOp q.val (.barw b) → b.toNat < 16 → j ≠ q →
    (s.chip.sq j.val).participates b.toNat = true → (s.chip.sq j.val).barrier ≠ some b.toNat → ∃ t, exec (.barw q) s = .next t ∧
    SeqStep q.val { s.chip.sq q.val with state := .waiting, barrier := some b.toNat } s t) ∧
  (∀ (q : Fin 16) (r : BitVec 8) (s : State), s.chip.atOp q.val (.sfw r) → ∃ t, exec (.sfw q) s = .next t ∧
    (t.chip.sq q.val).state = .waiting ∧ (t.chip.sq q.val).sealedCfg.recipe = r.toNat ∧ (t.chip.sq q.val).sealedCfg.windowOpen = true ∧
    (t.chip.sq q.val).sealedCfg.startAt = s.chip.fine q.val (s.chip.sq q.val).tb ∧ (t.chip.sq q.val).pc = (s.chip.sq q.val).pc ∧ Within [.seqs, .sealed_] s t) ∧
  (∀ (q : Fin 16) (s : State), s.chip.atOp q.val .drop → ∃ t, exec (.drop q) s = .next t ∧
    SeqStep q.val { s.chip.sq q.val with dropDue := true } s t) ∧
  (∀ (q : Fin 16) (s : State), (s.chip.sq q.val).state = .running → (s.chip.sq q.val).dropDue = true →
    (s.chip.failedMasks q.val = [] → ((s.chip.sq q.val).masksUsed.any (s.chip.sq q.val).plays) = true → ∃ t, exec (.dropTakesEffect q) s = .next t ∧
      (t.chip.sq q.val).pc = (s.chip.sq q.val).pc + 1 ∧ (t.chip.sq q.val).dropDue = false ∧ (t.chip.sq q.val).state = .running ∧
      (t.chip.sq q.val).dropped = (s.chip.sq q.val).dropped ∧ Within [.seqs, .lanes] s t) ∧
    (∃ t, exec (.dropTakesEffect q) s = .next t ∧ (t.chip.sq q.val).dropped = (s.chip.sq q.val).dropped ||| maskBits (s.chip.failedMasks q.val))) ∧
  (∀ (q : Fin 16) (s : State), s.chip.atOp q.val .halt → ∃ t, exec (.halt q) s = .next t ∧ (t.chip.sq q.val).state = .arming ∧
    (t.chip.sq q.val).endCause = 1 ∧ (t.chip.sq q.val).jumps = [] ∧ (t.chip.sq q.val).ring = [])

/-- R264, R310, R324, R265 and R327. -/
def Obligations.VectorInstructions : Prop :=
  (∀ (q : Fin 16) (r : BitVec 12) (g : BitVec 14) (o : LaneObs) (s : State), s.chip.atOp q.val (.play r g) →
    let x := s.chip.sq q.val
    let h := s.chip.vecRec g.toNat x.recNo
    let d := s.chip.desc g.toNat
    (s.chip.playable q.val g.toNat 4 x.recNo = true → ∃ t, exec (.play q [o]) s = .next t ∧
      Seq.PlaysOne x (t.chip.sq q.val) (if d.sample then 0 else h.set) (if d.sample then 1 else h.reps) (if d.sample then 0 else h.markers) d.count (r.toNat + 1) ∧
      (∀ j, j ≠ q.val → t.chip.sq j = s.chip.sq j) ∧ Within [.seqs, .lanes, .acq, .sealed_, .segs, .dram, .free, .recorder] s t) ∧
    (s.chip.playable q.val g.toNat 4 x.recNo = false → exec (.play q [o]) s = .next s)) ∧
  (∀ (q : Fin 16) (b : BitVec 14) (o : LaneObs) (s : State), s.chip.atOp q.val (.plays b) →
    let x := s.chip.sq q.val
    let ms := x.masksUsed.filter x.plays
    let h := s.chip.vecRec (b.toNat + ms.headD 0) x.recNo
    let d := s.chip.desc (b.toNat + ms.headD 0)
    (ms ≠ [] → (∀ m ∈ ms, s.chip.playable q.val (b.toNat + m) m x.recNo = true) → ∃ t, exec (.plays q [o]) s = .next t ∧
      Seq.PlaysOne x (t.chip.sq q.val) (if d.sample then 0 else h.set) (if d.sample then 1 else h.reps) (if d.sample then 0 else h.markers) d.count 1 ∧
      (∀ j, j ≠ q.val → t.chip.sq j = s.chip.sq j) ∧ Within [.seqs, .lanes, .acq, .sealed_, .segs, .dram, .free, .recorder] s t) ∧
    (∀ m ∈ ms, s.chip.playable q.val (b.toNat + m) m x.recNo = false → exec (.plays q [o]) s = .next s)) ∧
  (∀ (q : Fin 16) (p : BitVec 4) (o : LaneObs) (s : State), s.chip.atOp q.val (.alg p) →
    let x := s.chip.sq q.val
    (∀ a, s.chip.algAt q.val (x.gen.program p.toNat) 0 x.done = some a → ∃ t, exec (.alg q [o]) s = .next t ∧
      (t.chip.sq q.val).vecIndex = x.vecIndex + 1 ∧ (t.chip.sq q.val).vectors = (x.vectors + 1) % 2 ^ 64 ∧
      (t.chip.sq q.val).tb = x.tb + x.periodUnits (if a.code = 0 then x.lastSet else (s.chip.algVec q.val p.toNat a).set) ∧
      (x.done + 1 < s.chip.algVectors q.val p.toNat → (t.chip.sq q.val).pc = x.pc ∧ (t.chip.sq q.val).done = x.done + 1 ∧ (t.chip.sq q.val).gen.state = .running) ∧
      (s.chip.algVectors q.val p.toNat ≤ x.done + 1 → (t.chip.sq q.val).pc = x.pc + 1 ∧ (t.chip.sq q.val).done = 0 ∧ (t.chip.sq q.val).gen.state = .completed) ∧
      (∀ j, j ≠ q.val → t.chip.sq j = s.chip.sq j) ∧ Within [.seqs, .lanes, .acq, .sealed_, .segs, .dram, .free, .recorder] s t) ∧
    (s.chip.algAt q.val (x.gen.program p.toNat) 0 x.done = none → exec (.alg q [o]) s = .next s)) ∧
  (∀ (q : Fin 16) (s : State), s.chip.sealedReady q.val = true → ∃ t, exec (.sealedPlayStart q) s = .next t ∧
    (t.chip.sq q.val).state = .running ∧ (t.chip.sq q.val).pc = (s.chip.sq q.val).pc + 1 ∧
    (t.chip.sq q.val).playing = some (s.chip.sq q.val).sealedCfg.recipe ∧ (t.chip.sq q.val).sealedCfg.windowOpen = false ∧
    (t.chip.sq q.val).sealedCfg.field = .playing ∧
    (∀ n ∈ s.chip.lanesOf q.val, (s.chip.sq q.val).livingSites.contains (s.chip.lane n).site.toNat = true → (t.chip.lane n).sealedIn = true) ∧
    (∀ j, j ≠ q.val → t.chip.sq j = s.chip.sq j) ∧ Within [.seqs, .lanes] s t) ∧
  (∀ (q : Fin 16) (s : State), s.chip.sealedReady q.val = false → exec (.sealedPlayStart q) s = .next s) ∧
  (∀ (q : Fin 16) (ms : BitVec 4) (e : Bool) (g : Word16) (i : Word32) (s : State), (s.chip.sq q.val).state = .running → (s.chip.sq q.val).streamMasks ms ≠ [] →
    let x := s.chip.sq q.val
    let l := x.streamMasks ms
    let i' := l.filter fun m => s.chip.invalidNext q.val [m] g.toNat i.toNat
    (∃ t, exec (.underrun q ms e) s = .next t ∧ Parked q.val l 0x5001 (le 1 (if e then 1 else 0) ++ [0] ++ le 4 x.vectors) s.chip t.chip) ∧
    (i' ≠ [] → ∃ t, exec (.invalidRecordPark q ms g i) s = .next t ∧ Parked q.val i' 0x5002 (le 2 g.toNat ++ le 4 i.toNat) s.chip t.chip) ∧
    (i' = [] → exec (.invalidRecordPark q ms g i) s = .next s)) ∧
  (∀ (q : Fin 16) (k : Fin 16) (s : State), s.chip.seqOfSite k.val = some q.val → (s.chip.seal k.val).cause ≠ 0 →
    (s.chip.sq q.val).state.inRun = true →
    let x := s.chip.sq q.val
    let d := if x.state = .waiting then s.chip.emitWaits q.val (s.chip.holdsUntil q.val (s.chip.seal k.val).failAt) else s.chip
    let ks := d.failuresDue q.val
    let l := (List.range 4).filter fun m => x.plays m && ks.any fun j => x.maskOf j == m
    let y : Seq := { x with dropped := x.dropped ||| maskBits l }
    k.val ∈ ks → ∃ t, exec (.fieldFailure k) s = .next t ∧
      (∀ j ∈ ks, (t.chip.seal j).cause = 0 ∧ (t.chip.host.conditions.any fun c => c.key == 7100 + j) = true) ∧
      (t.chip.sq q.val).sealedCfg.failed = satAdd 32 x.sealedCfg.failed ks.length ∧ (t.chip.sq q.val).dropped = y.dropped ∧
      (∀ m ∈ l, ∀ n ∈ s.chip.maskLanes q.val m, (s.chip.lane n).mode ≠ 3 → (t.chip.lane n).atDust = true) ∧
      (ks = [k.val] → (t.chip.sq q.val).sealedCfg.lastFailure = le 1 k.val ++ [(s.chip.seal k.val).cause] ++ le 1 x.sealedCfg.recipe ++ [0] ∧
        (s.chip.recorder.inChannel < 32 → SMap.get s.chip.recorder.held [] 5 = [] → ∃ r ∈ t.chip.recorder.queue, r.code = 0x5003 ∧ r.unit = q.val ∧
          r.payload = pad 12 (le 1 k.val ++ [(s.chip.seal k.val).cause] ++ le 1 q.val ++ le 1 x.sealedCfg.recipe))) ∧
      (if y.masksUsed.any y.plays then (t.chip.sq q.val).state = x.state ∧ (t.chip.sq q.val).pc = x.pc
        else (t.chip.sq q.val).state = if x.parked = 0 then .arming else .parked))

/-! ## Life cycle, fuses and images (chapter 6) -/

/-- R150 to R154 and R158. That a nonce which is not the outstanding one is refused with 0x310C is the
model's choice (log 16). -/
def Obligations.LifeCycleRows : Prop :=
  (∀ (p : Path) (tag : Word16) (target count : Byte) (nonce auths : Bytes) (stuck : List FuseFault) (cut : Option Nat) (t : LifeCycle) (s : State) (r : Req) (c : Chip),
    nonce.length = 16 → auths.length = 68 * count.toNat → target.toNat < 6 → lifeOf target.toNat = some t → count = 0 ∨ count = 2 ∨ s.chip.life.state = .service →
    gate p tag 0x2400 4 ([target, count] ++ nonce ++ auths) (fun _ _ => 0) s.chip = .go r c →
    (transitionCode r t count.toNat nonce auths c ≠ 0 → ∃ (c' : Chip), exec (.lifeCycleTransition p tag target count nonce auths ⟨stuck, cut⟩) s =
        next s (c'.complete r.dest (transitionCode r t count.toNat nonce auths c) [] 0) ∧ c'.life.nonce ≠ some nonce ∧ c'.life.state = c.life.state ∧
        c'.life.fuses = c.life.fuses ∧ Only [.life] c c') ∧
    (transitionCode r t count.toNat nonce auths c = 0 → ∀ n, ∃ (c' : Chip), exec (.lifeCycleTransition p tag target count nonce auths ⟨stuck, some n⟩) s =
        next s (aoPowerOn 1 (tornRun t n c')) ∧ c'.life.nonce ≠ some nonce ∧ c'.life.fuses = c.life.fuses ∧ Only [.life] c c') ∧
    (transitionCode r t count.toNat nonce auths c = 0 → stuck = [] → ∃ (c' : Chip) (code : Nat), exec (.lifeCycleTransition p tag target count nonce auths ⟨stuck, none⟩) s =
        next s (chipReset 0x200 (c'.complete r.dest code [] 0)) ∧ (code = 0 ∨ code = 0x1004) ∧
        (t = .calibrated → code = 0) ∧ c'.life.nonce ≠ some nonce ∧ c'.intentNibble t = 15 ∧
        (t = .calibrated → ∀ k < 3, c'.fuse k = c.fuse k ||| 0xF))) ∧
  (∀ (p : Path) (s : State) (r : Req) (c : Chip), ReadReaches p 0 0x2400 5 s.chip r c → c.crypto.entropy ≠ .failed →
    ∃ (c' : Chip) (d : Bytes), exec (.transitionNonceRead p) s = next s (c'.answerRead r.dest (.data d)) ∧ d.length = 16 ∧ c'.life.nonce = some d ∧
      c'.life.nonceAt = c.clk.ticks ∧ c'.life.fuses = c.life.fuses ∧ Only [.life, .free] c c') ∧
  (∀ (stuck : List FuseFault) (n : Byte) (t : LifeCycle) (s : State), s.chip.life.pending = some n → lifeOf n.toNat = some t →
    (s.chip.life.state = .locked → s.chip.power.phase = .booting → s.chip.areaStatus 2 = 0 → ∃ (c' : Chip), exec (.recoveryImageRun stuck) s = next s (chipReset 0x200 c') ∧
      (t = .calibrated → stuck = [] → ∀ k < 3, c'.fuse k = s.chip.fuse k ||| 0xF)) ∧
    (s.chip.life.state ≠ .locked ∨ s.chip.power.phase ≠ .booting ∨ s.chip.areaStatus 2 ≠ 0 → exec (.recoveryImageRun stuck) s = .next s))

/-- R145, R148 and R165 to R167. That an unlisted word is 0x0002 and a wrong state 0x0005, and that an install is
answered with 0x0004 while the DRAM or the VI does not serve, are the model's choices (logs 37 and 134). -/
def Obligations.FuseAndImageRows : Prop :=
  (∀ (p : Path) (tag w : Word16) (bits : Word32) (s : State) (r : Req) (c : Chip),
    gate p tag 0x2400 9 (le 2 w.toNat ++ le 4 bits.toNat) (fun _ _ => 0) s.chip = .go r c →
    (programStates w.toNat = [] → exec (.fuseProgram p tag w bits) s = next s (c.complete r.dest 0x0002 [] 0)) ∧
    (programStates w.toNat ≠ [] → (programStates w.toNat).contains c.life.state = false →
      exec (.fuseProgram p tag w bits) s = next s (c.complete r.dest 0x0005 [] 0)) ∧
    ((programStates w.toNat).contains c.life.state = true → ∃ (c' : Chip), exec (.fuseProgram p tag w bits) s = next s (c'.complete r.dest 0 [] 0) ∧
      c'.fuse w.toNat = c.fuse w.toNat ||| bits ∧ (∀ v, v ≠ w.toNat → c'.fuse v = c.fuse v) ∧ Only [.life] c c')) ∧
  (∀ (m : List Byte) (bits : Word32) (s : State),
    (86400 * (s.chip.life.lastSkim / 86400 + 1) ≤ s.chip.upUs / 1000000 → ∃ t, exec (.fuseSkim ⟨m, bits⟩) s = .next t ∧
      t.chip.life.marginal = wordSet m ∧ t.chip.life.intentMarginal = (if 3 ∈ wordSet m then bits else 0) ∧ t.chip.life.lastSkim = s.chip.upUs / 1000000 ∧ t.chip.life.state = s.chip.life.state ∧
      t.chip.life.fuses = s.chip.life.fuses ∧ t.chip.life.fault = (if wordSet m = [] then s.chip.life.fault else s.chip.life.fault ||| 3) ∧
      Within [.life, .recorder, .background] s t) ∧
    (s.chip.upUs / 1000000 < 86400 * (s.chip.life.lastSkim / 86400 + 1) → exec (.fuseSkim ⟨m, bits⟩) s = .next s)) ∧
  (∀ (p : Path) (tag : Word16) (b : Bool) (s : State) (r : Req) (c : Chip),
    gate p tag 0x2500 0x0B [if b then 1 else 0] (fun _ _ => 0) s.chip = .go r c →
    (c.boot.running.toNat = (if b then 1 else 0) → exec (.imageInstall p tag b) s = next s (c.complete r.dest 0x2004 [] 0)) ∧
    (c.boot.running.toNat ≠ (if b then 1 else 0) →
      (c.dramServes = false ∨ c.runs 4 = false → exec (.imageInstall p tag b) s = next s (c.complete r.dest 0x0004 [] 0)) ∧
      (∀ d, c.dramServes = true → c.runs 4 = true → c.readStaged = (none, d) → exec (.imageInstall p tag b) s = next s (d.complete r.dest 0x8003 [] 0)) ∧
      (∀ img d, c.dramServes = true → c.runs 4 = true → c.readStaged = (some img, d) →
        let code := d.checkImage img false false (areaSize (if b then 1 else 0))
        (code ≠ 0 → exec (.imageInstall p tag b) s = next s (d.complete r.dest code [] 0)) ∧
        (code = 0 → exec (.imageInstall p tag b) s = next s ((d.writeArea (if b then 1 else 0) img).complete r.dest
          ((d.writeArea (if b then 1 else 0) img).areaStatus (if b then 1 else 0)) [] 0))))) ∧
  (∀ (p : Path) (tag : Word16) (s : State) (r : Req) (c : Chip), gate p tag 0x2500 0x0B [2] (fun _ _ => 0) s.chip = .go r c →
    (r.level ≠ .vendor → exec (.recoveryInstall p tag) s = next s (c.complete r.dest 0x000C [] 0)) ∧
    (∀ img d, r.level = .vendor → c.boot.running.toNat ≠ 2 → c.dramServes = true → c.runs 4 = true → c.readStaged = (some img, d) →
      d.checkImage img true false (areaSize 2) = 0 →
      exec (.recoveryInstall p tag) s = next s ((d.writeArea 2 img).complete r.dest ((d.writeArea 2 img).areaStatus 2) [] 0))) ∧
  (∀ (p : Path) (tag : Word16) (v : Byte) (s : State) (r : Req) (c : Chip), gate p tag 0x2500 8 [v] (fun _ _ => 0) s.chip = .go r c →
    (v.toNat ≤ c.minVersion ∨ 32 < v.toNat ∨ c.boot.version.toNat < v.toNat →
      exec (.raiseMinimumVersion p tag v) s = next s (c.complete r.dest 0x0002 [] 0)) ∧
    (c.minVersion < v.toNat → v.toNat ≤ 32 → v.toNat ≤ c.boot.version.toNat → c.sound 0x061 = true → ∃ (c' : Chip), exec (.raiseMinimumVersion p tag v) s = next s (c'.complete r.dest 0 [] 0) ∧
      c'.minVersion = v.toNat ∧ (∀ w, w ≠ 0x061 → c'.fuse w = c.fuse w) ∧ Only [.life] c c')) ∧
  (∀ (p : Path) (tag : Word16) (k : Byte) (s : State) (r : Req) (c : Chip), gate p tag 0x2500 0x0C [k] (fun _ _ => 0) s.chip = .go r c →
    (k.toNat = 0 ∨ 3 < k.toNat → exec (.revokeKeySlot p tag k) s = next s (c.complete r.dest 0x0002 [] 0)) ∧
    (1 ≤ k.toNat → k.toNat ≤ 3 → c.boot.signer = some k.toNat → exec (.revokeKeySlot p tag k) s = next s (c.complete r.dest 0x0005 [] 0)) ∧
    (1 ≤ k.toNat → k.toNat ≤ 3 → c.boot.signer ≠ some k.toNat → ∃ (c' : Chip), exec (.revokeKeySlot p tag k) s = next s (c'.complete r.dest 0 [] 0) ∧
      c'.revoked k.toNat = true ∧ (∀ w, w ≠ 0x060 → c'.fuse w = c.fuse w) ∧ Only [.life] c c'))

/-! ## The debug port (R168 to R170) -/

/-- R168 and R169: the steps before an opcode's effect, each row with its opcode, then enable, identify, challenge,
authorise and disable. -/
def Obligations.DebugFrameAndSessionRows : Prop :=
  (∀ s : State, s.chip.life.debugOn = false → ∃ t, exec .debugEnable s = .next t ∧ t.chip.life.debugOn = true ∧
    t.chip.life.debug = debugOffer s.chip.life.state ∧ t.chip.life.authWords = []) ∧
  (∀ s : State, s.chip.life.debugOn = true → exec .debugEnable s = .next s) ∧
  (∀ s : State, ∃ t, exec .debugDisable s = .next t ∧ t.chip.life.debugOn = false ∧ t.chip.life.debug = .inactive ∧ t.chip.life.challenge = [] ∧
    t.chip.keys.rearmOpen = false ∧ Within [.life, .keys] s t) ∧
  (∀ (f : DebugFrame) (s : State), s.chip.debugActive = true → crc8 (frameBytes 0x01 f) = f.crc.toNat →
    exec (.debugIdentify ⟨0x01, f⟩) s = next s (s.chip.respond 0 0x00064100)) ∧
  (∀ (f : DebugFrame) (s : State), s.chip.debugActive = true → crc8 (frameBytes 0x02 f) = f.crc.toNat → s.chip.life.challenge ≠ [] → f.address.toNat ≤ 3 →
    exec (.debugChallengeWord f) s = next s (s.chip.respond 0 (beNat (slice s.chip.life.challenge (4 * f.address.toNat) 4)))) ∧
  (∀ (f : DebugFrame) (s : State), s.chip.debugActive = true → crc8 (frameBytes 0x02 f) = f.crc.toNat → s.chip.life.challenge ≠ [] → 3 < f.address.toNat →
    exec (.debugChallengeWord f) s = next s (s.chip.respond 2 0)) ∧
  (∀ (f : DebugFrame) (s : State), s.chip.debugActive = true → crc8 (frameBytes 0x03 f) = f.crc.toNat → f.address.toNat ≤ 127 →
    ∃ c : Chip, exec (.debugAuthorisationWord f) s = next s (c.respond 0 0) ∧ SMap.get c.life.authWords 0 f.address.toNat = f.data ∧
      (∀ a, a ≠ f.address.toNat → SMap.get c.life.authWords 0 a = SMap.get s.chip.life.authWords 0 a) ∧ Only [.life] s.chip c) ∧
  (∀ (f : DebugFrame) (s : State), s.chip.debugActive = true → crc8 (frameBytes 0x03 f) = f.crc.toNat → 127 < f.address.toNat →
    exec (.debugAuthorisationWord f) s = next s (s.chip.respond 2 0)) ∧
  (∀ (f : DebugFrame) (s : State), s.chip.debugActive = true → crc8 (frameBytes 0x04 f) = f.crc.toNat → s.chip.debugOpen = false →
    s.chip.runs 4 = true → s.chip.life.challenge ≠ [] → s.chip.debugAuth = true →
    exec (.debugAuthorise f) s = next s (Chip.respond 0 0 { s.chip with life := { s.chip.life with debug := .authorised } })) ∧
  (∀ (f : DebugFrame) (s : State), s.chip.debugActive = true → crc8 (frameBytes 0x04 f) = f.crc.toNat → s.chip.debugOpen = false →
    (s.chip.runs 4 = false → exec (.debugAuthorise f) s = next s (s.chip.respond 4 0)) ∧
    (s.chip.runs 4 = true → s.chip.debugAuth = false → exec (.debugAuthorise f) s = next s (s.chip.respond 1 0))) ∧
  (∀ (op : Byte) (f : DebugFrame) (s : State), op ≠ 0x01 → s.chip.debugActive = true → crc8 (frameBytes op.toNat f) = f.crc.toNat →
    exec (.debugIdentify ⟨op, f⟩) s = next s (s.chip.respond 5 0)) ∧
  (∀ (f : DebugFrame) (s : State) (i : Instr) (op : Nat),
    (op, i) ∈ [(0x01, Instr.debugIdentify ⟨0x01, f⟩), (0x02, .debugChallengeWord f), (0x03, .debugAuthorisationWord f), (0x04, .debugAuthorise f),
      (0x10, .debugHalt f), (0x11, .debugResume f), (0x12, .debugSingleStep f), (0x20, .debugReadWord f), (0x21, .debugWriteWord f),
      (0x22, .debugReadRegister f), (0x23, .debugWriteRegister f), (0x30, .debugChipReset f)] →
    (s.chip.debugActive = false → exec i s = .next s) ∧
    (s.chip.debugActive = true → crc8 (frameBytes op f) ≠ f.crc.toNat → exec i s = next s (s.chip.respond 3 0)) ∧
    (s.chip.debugActive = true → crc8 (frameBytes op f) = f.crc.toNat → 0x10 ≤ op → s.chip.debugOpen = false → exec i s = next s (s.chip.respond 1 0)))

/-- R168, R170, R20, R450 and R68. That the cores' instructions are those of RV32IMC as its
standard has them, that a halt finds the registers free, and the register numbers are the model's choices (log 99). -/
def Obligations.DebugAccessRows : Prop :=
  (∀ (f : DebugFrame) (s : State), s.chip.debugActive = true → s.chip.debugOpen = true → crc8 (frameBytes 0x10 f) = f.crc.toNat →
    s.chip.runs 2 = true → s.chip.ci.halted = false → ∃ t, exec (.debugHalt f) s = .next t ∧
      (∃ rs pc, t.chip.ci = { s.chip.ci with halted := true, regs := rs, pc := pc } ∧ rs.length = 31) ∧ Within [.ci, .watchdog, .life, .out, .free] s t) ∧
  (∀ (f : DebugFrame) (s : State), s.chip.debugActive = true → s.chip.debugOpen = true → crc8 (frameBytes 0x10 f) = f.crc.toNat →
    s.chip.runs 2 = false → exec (.debugHalt f) s = next s (s.chip.respond 4 0)) ∧
  (∀ (f : DebugFrame) (s : State), s.chip.debugActive = true → s.chip.debugOpen = true → crc8 (frameBytes 0x11 f) = f.crc.toNat →
    s.chip.ci.halted = true → s.chip.host.ch01 = [] → s.chip.haltSuspends = false → exec (.debugResume f) s = next s (Chip.respond 0 0
      { s.chip with ci := { s.chip.ci with halted := false }, host := { s.chip.host with endedSels := [] } })) ∧
  (∀ (f : DebugFrame) (s : State), s.chip.debugActive = true → s.chip.debugOpen = true → crc8 (frameBytes 0x12 f) = f.crc.toNat →
    s.chip.ci.halted = false → exec (.debugSingleStep f) s = next s (s.chip.respond 4 0)) ∧
  (∀ (f : DebugFrame) (a : Nat) (m : Option (Fin 8)) (s : State), s.chip.debugActive = true → s.chip.debugOpen = true →
    crc8 (frameBytes 0x12 f) = f.crc.toNat → s.chip.ci.halted = true → a = (s.chip.ci.pc &&& ~~~1).toNat → m = s.chip.corePart a →
    (∀ x, s.chip.coreForbidden m .execute a 2 = some x → ∃ c : Chip, exec (.debugSingleStep f) s = next s (c.respond 0 0) ∧ c.ci.regs = s.chip.ci.regs) ∧
    (s.chip.coreForbidden m .execute a 2 = none → s.chip.coreFetch a 2 % 4 = 3 → s.chip.coreForbidden m .execute a 4 = none →
      (∀ k alt rd x v, rvDecode (s.chip.coreFetch a 4) = .aluImm k alt rd x v → exec (.debugSingleStep f) s = next s (Chip.respond 0 0
        { s.chip with ci := { s.chip.ci with
            regs := if rd = 0 then s.chip.ci.regs else s.chip.ci.regs.set (rd - 1) (rvAlu k alt (s.chip.xreg x) v), pc := (s.chip.ci.pc &&& ~~~1) + 4 } })) ∧
      (∀ k x y off, rvDecode (s.chip.coreFetch a 4) = .branch k x y off → exec (.debugSingleStep f) s = next s (Chip.respond 0 0
        { s.chip with ci := { s.chip.ci with
            pc := if rvTaken k (s.chip.xreg x) (s.chip.xreg y) then (s.chip.ci.pc &&& ~~~1) + off else (s.chip.ci.pc &&& ~~~1) + 4 } })))) ∧
  (∀ (f : DebugFrame) (s : State), s.chip.debugActive = true → s.chip.debugOpen = true → crc8 (frameBytes 0x22 f) = f.crc.toNat → s.chip.ci.halted = true →
    (f.address.toNat = 0 → exec (.debugReadRegister f) s = next s (s.chip.respond 0 0)) ∧
    (1 ≤ f.address.toNat → f.address.toNat ≤ 31 → exec (.debugReadRegister f) s = next s (s.chip.respond 0 (s.chip.ci.regs.getD (f.address.toNat - 1) 0).toNat)) ∧
    (f.address.toNat = 32 → exec (.debugReadRegister f) s = next s (s.chip.respond 0 s.chip.ci.pc.toNat)) ∧
    (32 < f.address.toNat → exec (.debugReadRegister f) s = next s (s.chip.respond 2 0))) ∧
  (∀ (f : DebugFrame) (s : State), s.chip.debugActive = true → s.chip.debugOpen = true → crc8 (frameBytes 0x22 f) = f.crc.toNat →
    s.chip.ci.halted = false → f.address.toNat ≤ 32 → exec (.debugReadRegister f) s = next s (s.chip.respond 4 0)) ∧
  (∀ (f : DebugFrame) (s : State), s.chip.debugActive = true → s.chip.debugOpen = true → crc8 (frameBytes 0x23 f) = f.crc.toNat → s.chip.ci.halted = true →
    (1 ≤ f.address.toNat → f.address.toNat ≤ 31 → exec (.debugWriteRegister f) s = next s (Chip.respond 0 0
      { s.chip with ci := { s.chip.ci with regs := s.chip.ci.regs.set (f.address.toNat - 1) f.data } })) ∧
    (f.address.toNat = 32 → exec (.debugWriteRegister f) s = next s (Chip.respond 0 0 { s.chip with ci := { s.chip.ci with pc := f.data } })) ∧
    (f.address.toNat = 0 → exec (.debugWriteRegister f) s = next s (s.chip.respond 0 0))) ∧
  (∀ (f : DebugFrame) (s : State), s.chip.debugActive = true → s.chip.debugOpen = true → crc8 (frameBytes 0x20 f) = f.crc.toNat →
    s.chip.debugForbidden false f.address.toNat = none → 0x10000000 ≤ f.address.toNat → f.address.toNat + 4 ≤ 0x10080000 →
    ∃ c : Chip, exec (.debugReadWord f) s = next s (c.respond 0 (leNat ((List.range 4).map fun i =>
      SMap.get s.chip.ci.tcsram 0 (f.address.toNat - 0x10000000 + i)))) ∧ Only [.free] s.chip c) ∧
  (∀ (f : DebugFrame) (x : Nat) (s : State), s.chip.debugActive = true → s.chip.debugOpen = true → crc8 (frameBytes 0x20 f) = f.crc.toNat →
    s.chip.debugForbidden false f.address.toNat = some x → exec (.debugReadWord f) s = next s ((s.chip.accessRefused 2 x 0 0).respond 2 0)) ∧
  (∀ (f : DebugFrame) (s : State), s.chip.debugActive = true → s.chip.debugOpen = true → crc8 (frameBytes 0x21 f) = f.crc.toNat →
    s.chip.debugForbidden true f.address.toNat = none → 0x10000000 ≤ f.address.toNat → f.address.toNat + 4 ≤ 0x10080000 →
    ∃ c : Chip, exec (.debugWriteWord f) s = next s (c.respond 0 0) ∧
      (∀ i < 4, SMap.get c.ci.tcsram 0 (f.address.toNat - 0x10000000 + i) = BitVec.ofNat 8 (f.data.toNat / 256 ^ i)) ∧
      (∀ a, a < f.address.toNat - 0x10000000 ∨ f.address.toNat - 0x10000000 + 4 ≤ a → SMap.get c.ci.tcsram 0 a = SMap.get s.chip.ci.tcsram 0 a) ∧
      Only [.ci] s.chip c) ∧
  (∀ (f : DebugFrame) (x : Nat) (s : State), s.chip.debugActive = true → s.chip.debugOpen = true → crc8 (frameBytes 0x21 f) = f.crc.toNat →
    s.chip.debugForbidden true f.address.toNat = some x → exec (.debugWriteWord f) s = next s ((s.chip.accessRefused 2 x 0 1).respond 2 0)) ∧
  (∀ (f : DebugFrame) (s : State), s.chip.debugActive = true → s.chip.debugOpen = true → crc8 (frameBytes 0x30 f) = f.crc.toNat →
    exec (.debugChipReset f) s = next s (chipReset 0x800 (s.chip.respond 0 0)))

/-! ## Owners, keys and custodians (chapter 7) -/

/-- R185. A matching nonce is consumed whatever follows (R184). -/
def Obligations.AuthorisedOperationOrder : Prop :=
  ∀ (p : Path) (tag : Word16) (op : AuthOp) (s : State) (r : Req) (c : Chip) (i : Instr) (code : Nat),
    (code, i) ∈ [(0x01, Instr.importKey p tag op), (0x02, .exportKey p tag op), (0x03, .destroy p tag op), (0x04, .changeAttributes p tag op),
      (0x10, .createOwner p tag op), (0x11, .deleteOwner p tag op), (0x12, .addCustodian p tag op), (0x13, .removeCustodian p tag op),
      (0x15, .intrusionConfiguration p tag op)] →
    op.nonce.length = 16 → op.auths.length % 68 = 0 → gate p tag 0x4200 0x10 (authBytes code op) (fun _ _ => 0) s.chip = .go r c →
    (∀ n, c.takeNonce r.dest op.nonce = n →
      (n.2.authGate code ≠ 0 → exec i s = next s (n.2.complete r.dest (n.2.authGate code) [] 0)) ∧
      (n.2.authGate code = 0 → ∀ ms, n.2.queueBusy (0x1F + r.dest.session) = some ms →
        exec i s = next s (n.2.complete r.dest 0x0001 [] (clamp 1 1000 ms))) ∧
      (n.2.authGate code = 0 → n.2.queueBusy (0x1F + r.dest.session) = none →
        (n.1 = false → exec i s = next s (n.2.complete r.dest 0x310C [] 0)) ∧
        (n.1 = true → bodyOk code op.owner.toNat op.rest n.2 = false → exec i s = next s (n.2.complete r.dest 0x0002 [] 0)) ∧
        (n.1 = true → bodyOk code op.owner.toNat op.rest n.2 = true → n.2.bootstraps r code op.owner.toNat op.auths = false →
          (op.auths.length ≠ 136 → exec i s = next s (n.2.complete r.dest 0x000D [] 0)) ∧
          (∀ a, op.auths.length = 136 →
            n.2.checkAuths (authOwner code op.owner.toNat) (opDigest n.2 op.nonce (be 1 code ++ be 1 op.owner.toNat ++ op.rest)) op.auths = a → a ≠ 0 →
            exec i s = next s (n.2.complete r.dest a [] 0))))) ∧
    (∀ c', Authorised code p tag op s.chip r c' → exec i s = next s (Chip.finish r.dest (runOp r code op.owner.toNat op.rest c')))

/-- R178, R187, R190 and R192. -/
def Obligations.KeySlotOperations : Prop :=
  ∀ (p : Path) (tag : Word16) (op : AuthOp) (s : State) (r : Req) (c : Chip),
    (Authorised 0x01 p tag op s.chip r c → ∀ k key, c.slotFree (beNat (op.rest.take 2)) op.owner.toNat true = 0 → envHeader (op.rest.drop 4) = true →
      c.ownSlot (beNat (slice op.rest 2 2)) op.owner.toNat = some k → c.keyUsable k = 0 →
      openEnvelope c (beNat (op.rest.take 2)) op.owner.toNat (op.rest.drop 4) k = .inr key → c.flashFree = true →
      (c.countUse (beNat (slice op.rest 2 2))).2 = 0 → ∃ (c' : Chip) (rep : Reply) (g : Nat), exec (.importKey p tag op) s = next s (Chip.finish r.dest (c', rep)) ∧
        c'.keys.slots.find? (beNat (op.rest.take 2)) = some { key with generation := g }) ∧
    (Authorised 0x02 p tag op s.chip r c →
      (c.ownSlot (beNat (op.rest.take 2)) op.owner.toNat = none → exec (.exportKey p tag op) s = next s (c.complete r.dest 0x3101 [] 0)) ∧
      (∀ k, c.ownSlot (beNat (op.rest.take 2)) op.owner.toNat = some k →
        (k.damaged = true → exec (.exportKey p tag op) s = next s (c.complete r.dest 0x3111 [] 0)) ∧
        (k.damaged = false → k.flags.getLsbD 0 = false → exec (.exportKey p tag op) s = next s (c.complete r.dest 0x3105 [] 0)) ∧
        (k.damaged = false → k.flags.getLsbD 0 = true → byteAt op.rest 2 = 2 → p256.valid (op.rest.drop 5) = true → c.crypto.sauFault = false →
          c.drbgGate = 0 → ∃ (c' : Chip) (e : Bytes), exec (.exportKey p tag op) s = next s (c'.complete r.dest 0 (le 2 e.length ++ slice e (e.length - 16) 8) 0) ∧
            e.take 4 = tagEWEN ∧ c'.keys = c.keys))) ∧
    (Authorised 0x03 p tag op s.chip r c → ∀ k, c.ownSlot (beNat (op.rest.take 2)) op.owner.toNat = some k →
      (c.slotArmed (beNat (op.rest.take 2)) = true → exec (.destroy p tag op) s = next s (c.complete r.dest 0x0003 [] 0)) ∧
      (c.slotArmed (beNat (op.rest.take 2)) = false → ∃ (c' : Chip) (rep : Reply), exec (.destroy p tag op) s = next s (Chip.finish r.dest (c', rep)) ∧
        c'.keys.slots.find? (beNat (op.rest.take 2)) = none ∧ c'.keys.blobs.find? (beNat (op.rest.take 2)) = none ∧
        (∀ n, n ≠ beNat (op.rest.take 2) → c'.keys.slots.find? n = c.keys.slots.find? n))) ∧
    (Authorised 0x04 p tag op s.chip r c → ∀ k, c.ownSlot (beNat (op.rest.take 2)) op.owner.toNat = some k →
      c.slotArmed (beNat (op.rest.take 2)) = false → k.damaged = false →
      (narrowed c k op.rest = none → exec (.changeAttributes p tag op) s = next s (c.complete r.dest 0x310D [] 0)) ∧
      (∀ k', narrowed c k op.rest = some k' → c.flashFree = true → ∃ (c' : Chip) (rep : Reply) (g : Nat), exec (.changeAttributes p tag op) s = next s (Chip.finish r.dest (c', rep)) ∧
        c'.keys.slots.find? (beNat (op.rest.take 2)) = some { k' with generation := g } ∧ k'.owner = k.owner ∧ k'.material = k.material))

/-- R179, R180, R183, R184, R198 and R199. -/
def Obligations.OwnerOperations : Prop :=
  ∀ (p : Path) (tag : Word16) (op : AuthOp) (s : State) (r : Req) (c : Chip),
    (Authorised 0x10 p tag op s.chip r c → (c.owner op.owner.toNat).active = false → c.quotas + beNat (op.rest.take 2) ≤ 4096 → c.flashFree = true →
      ∃ (c' : Chip) (rep : Reply), exec (.createOwner p tag op) s = next s (Chip.finish r.dest (c', rep)) ∧ (c'.owner op.owner.toNat).active = true ∧
        (c'.owner op.owner.toNat).quota = beNat (op.rest.take 2) ∧ (c'.owner op.owner.toNat).name = slice op.rest 2 16 ∧
        (c'.owner op.owner.toNat).keys.map (·.2) = keyList (byteAt op.rest 18) (op.rest.drop 19) ∧ (∀ n, n ≠ op.owner.toNat → c'.owner n = c.owner n)) ∧
    (Authorised 0x11 p tag op s.chip r c →
      (op.owner.toNat = 0 ∨ (c.owner op.owner.toNat).active = false ∨ c.slotsUsed op.owner.toNat ≠ 0 →
        exec (.deleteOwner p tag op) s = next s (c.complete r.dest 0x310E [] 0)) ∧
      (op.owner.toNat ≠ 0 → (c.owner op.owner.toNat).active = true → c.slotsUsed op.owner.toNat = 0 → c.flashFree = true →
        ∃ (c' : Chip) (rep : Reply), exec (.deleteOwner p tag op) s = next s (Chip.finish r.dest (c', rep)) ∧ c'.owner op.owner.toNat = {} ∧
          (∀ n, n ≠ op.owner.toNat → c'.owner n = c.owner n))) ∧
    (Authorised 0x12 p tag op s.chip r c →
      (8 ≤ (c.owner op.owner.toNat).keys.length → exec (.addCustodian p tag op) s = next s (c.complete r.dest 0x310F [] 0)) ∧
      (∀ j, (c.owner op.owner.toNat).keys.length < 8 → c.flashFree = true →
        ((List.range 8).find? fun i => ((c.owner op.owner.toNat).keys.find? i).isNone) = some j →
        ∃ (c' : Chip) (rep : Reply), exec (.addCustodian p tag op) s = next s (Chip.finish r.dest (c', rep)) ∧ (c'.owner op.owner.toNat).keys.find? j = some op.rest ∧
          (∀ i, i ≠ j → (c'.owner op.owner.toNat).keys.find? i = (c.owner op.owner.toNat).keys.find? i) ∧
          (∀ n, n ≠ op.owner.toNat → c'.owner n = c.owner n))) ∧
    (Authorised 0x13 p tag op s.chip r c → ((c.owner op.owner.toNat).keys.find? (byteAt op.rest 0)).isSome = true →
      ((c.owner op.owner.toNat).keys.length ≤ 2 → exec (.removeCustodian p tag op) s = next s (c.complete r.dest 0x310F [] 0)) ∧
      (2 < (c.owner op.owner.toNat).keys.length → c.flashFree = true →
        ∃ (c' : Chip) (rep : Reply), exec (.removeCustodian p tag op) s = next s (Chip.finish r.dest (c', rep)) ∧
          (c'.owner op.owner.toNat).keys.find? (byteAt op.rest 0) = none ∧ (∀ n, n ≠ op.owner.toNat → c'.owner n = c.owner n))) ∧
    (Authorised 0x15 p tag op s.chip r c → exec (.intrusionConfiguration p tag op) s = next s (Chip.complete r.dest 0 [] 0
      { c with keys := { c.keys with loops := op.rest.getD 0 0, period := op.rest.getD 1 0, response := BitVec.ofNat 16 (beNat (slice op.rest 2 2)) } })) ∧
    (ReadReaches p 0 0x4200 2 s.chip r c → c.drbgGate = 0 → ∃ (c' : Chip) (d : Bytes), exec (.operationNonceRead p) s = next s (c'.answerRead r.dest (.data d)) ∧ d.length = 16 ∧
      (∀ x, c.host.sessions.find? r.dest.session = some x → (c'.host.sessions.find? r.dest.session) = some { x with opNonce := some (d, c.clk.ticks) }) ∧
      Only [.host, .free, .crypto] c c')

/-- R177 and R186. -/
def Obligations.KeyCommandRows : Prop :=
  (∀ (p : Path) (tag : Word16) (b rest : Bytes) (s : State) (r : Req) (c : Chip) (i : Instr),
    (b = 0x21 :: rest ∧ i = .generate p tag rest) ∨ (b = 0x22 :: rest ∧ i = .derive p tag rest) →
    gate p tag 0x4300 0x10 b (fun _ _ => 0) s.chip = .go r c →
    (c.pairGate ≠ 0 → exec i s = next s (c.complete r.dest c.pairGate [] 0)) ∧
    (c.pairGate = 0 → ∀ ms, c.queueBusy (0x1F + r.dest.session) = some ms → exec i s = next s (c.complete r.dest 0x0001 [] (clamp 1 1000 ms))) ∧
    (c.pairGate = 0 → c.queueBusy (0x1F + r.dest.session) = none →
      (commandForm b ≠ 0 → exec i s = next s (c.complete r.dest (commandForm b) [] 0)) ∧
      (commandForm b = 0 → c.slotFree (fieldAt b 2 2) (byteAt b 1) false ≠ 0 →
        exec i s = next s (c.complete r.dest (c.slotFree (fieldAt b 2 2) (byteAt b 1) false) [] 0)) ∧
      (commandForm b = 0 → c.slotFree (fieldAt b 2 2) (byteAt b 1) false = 0 → usageAllowed (fieldAt b 2 2) (byteAt b 4) (byteAt b 5) (fieldAt b 6 2) = false →
        exec i s = next s (c.complete r.dest 0x3104 [] 0)) ∧
      (commandForm b = 0 → c.slotFree (fieldAt b 2 2) (byteAt b 1) false = 0 → usageAllowed (fieldAt b 2 2) (byteAt b 4) (byteAt b 5) (fieldAt b 6 2) = true →
        c.flashFree = true →
        (byteAt b 0 = 0x21 → isEc (byteAt b 4) = false → c.drbgGate = 0 → ∃ (c' : Chip) (rep : Reply) (m : Bytes) (g : Nat), exec i s = next s (Chip.finish r.dest (c', rep)) ∧
          m.length = keyLen (byteAt b 4) ∧ c'.keys.slots.find? (fieldAt b 2 2) = some { commandKey c b m with generation := g }) ∧
        (∀ k, byteAt b 0 = 0x22 → c.ownSlot (fieldAt b 18 2) (byteAt b 1) = some k → k.type.toNat ≤ 2 → k.usage.getLsbD 4 = true →
          bitsWithin (fieldAt b 6 2) k.usage.toNat = true → (byteAt b 5 ≠ 1 ∨ k.flags.getLsbD 0 = true) → c.keyUsable k = 0 →
          (c.countUse (fieldAt b 18 2)).2 = 0 → ∃ (c' : Chip) (rep : Reply) (g : Nat), exec i s = next s (Chip.finish r.dest (c', rep)) ∧
            c'.keys.slots.find? (fieldAt b 2 2) = some { commandKey c b (kdf k.material (deriveInput b) (keyLen (byteAt b 4))) with generation := g })))) ∧
  (∀ (n : BitVec 12) (k : Key) (e : Nat) (s : State), s.chip.keys.slots.find? n.toNat = some k → k.expiry = some e → s.chip.runs 3 = true →
    (400 * e < s.chip.clk.ticks →
      (k.action = 0 → exec (.keyExpiry n) s = .next s) ∧
      (k.action = 1 → ∃ t, exec (.keyExpiry n) s = .next t ∧ t.chip.keys.slots.find? n.toNat = some { k with disabled := true } ∧ Within [.keys] s t) ∧
      (k.action = 2 → s.chip.slotArmed n.toNat = true → ∃ t, exec (.keyExpiry n) s = .next t ∧
        t.chip.keys.slots.find? n.toNat = some { k with disabled := true, destroyAtDisarm := true } ∧ Within [.keys] s t) ∧
      (k.action = 2 → s.chip.slotArmed n.toNat = false → ∃ t, exec (.keyExpiry n) s = .next t ∧ t.chip.keys.slots.find? n.toNat = none ∧
        t.chip.keys.blobs.find? n.toNat = none ∧ Within [.keys, .boot, .free, .pair, .recorder] s t)) ∧
    (s.chip.clk.ticks ≤ 400 * e → exec (.keyExpiry n) s = .next s))

/-! ## Jobs, engines, entropy (chapter 8) -/

/-- R214, for every opcode of Table 8.3. -/
def Obligations.JobSubmissionRows : Prop :=
  ∀ (p : Path) (tag : Word16) (j : JobReq) (s : State) (r : Req) (c : Chip) (i : Instr) (op : Nat),
    (op, i) ∈ [(0x01, Instr.aesCbcEncrypt p tag j), (0x02, .aesCbcDecrypt p tag j), (0x03, .aesCtr p tag j), (0x04, .aesGcmEncrypt p tag j),
      (0x05, .aesGcmDecrypt p tag j), (0x06, .aesCmacGenerate p tag j), (0x07, .aesCmacVerify p tag j), (0x08, .hmacGenerate p tag j),
      (0x09, .hmacVerify p tag j), (0x0A, .sha256 p tag j), (0x0B, .sha384 p tag j), (0x10, .ecdsaSign p tag j), (0x11, .ecdhP256 p tag j),
      (0x18, .randomBytes p tag j), (0x20, .ecdsaVerifyP256 p tag j), (0x21, .ecdsaVerifyP384 p tag j), (0x22, .rsaVerify p tag j)] →
    gate p tag 0x4400 0x10 (jobBytes op j) (fun _ _ => 0) s.chip = .go r c →
    ∀ (q type : Nat), q = 0x1F + r.dest.session →
    type = (if opType op (SMap.get c.keys.slots {} j.slot.toNat).type.toNat then (SMap.get c.keys.slots {} j.slot.toNat).type.toNat else 0) →
    (c.standbyGate ≠ 0 → exec i s = next s (c.complete r.dest 0xB001 [] 0)) ∧
    (c.standbyGate = 0 → jobForm op j type ≠ 0 → exec i s = next s (c.complete r.dest (jobForm op j type) [] 0)) ∧
    (c.standbyGate = 0 → jobForm op j type = 0 →
      ((c.queue q).entries.any (fun e => e.id == j.jobId.toNat) = true → exec i s = next s (c.complete r.dest 0x3005 [] 0)) ∧
      ((c.queue q).entries.any (fun e => e.id == j.jobId.toNat) = false →
        (∀ a, j.flags.getLsbD 1 = true → c.cryptoRange j.inputOffset.toNat j.inputLen.toNat = some a →
          exec i s = next s ((c.accessRefused 3 (a % 2 ^ 32) 4 0).complete r.dest 0x0013 [] 0)) ∧
        (∀ a, j.flags.getLsbD 1 = false → j.flags.getLsbD 2 = true → c.cryptoRange j.outputOffset.toNat (opOut op j.params j.inputLen.toNat) = some a →
          exec i s = next s ((c.accessRefused 3 (a % 2 ^ 32) 4 1).complete r.dest 0x0013 [] 0)) ∧
        ((j.flags.getLsbD 1 = true → c.cryptoRange j.inputOffset.toNat j.inputLen.toNat = none) →
          (j.flags.getLsbD 2 = true → c.cryptoRange j.outputOffset.toNat (opOut op j.params j.inputLen.toNat) = none) →
          (opEngine op = 3 → c.crypto.sauFault = true → exec i s = next s (c.complete r.dest 0x3003 [] 0)) ∧
          (opEngine op ≠ 3 ∨ c.crypto.sauFault = false → c.jobKey op j.slot.toNat ≠ 0 →
            exec i s = next s (c.complete r.dest (c.jobKey op j.slot.toNat) [] 0)) ∧
          (opEngine op ≠ 3 ∨ c.crypto.sauFault = false → c.jobKey op j.slot.toNat = 0 →
            (∀ ms, c.queueBusy q = some ms → exec i s = next s (c.complete r.dest 0x0001 [] (clamp 1 1000 ms))) ∧
            (c.queueBusy q = none → (opUsage op = none ∨ (c.countUse j.slot.toNat).2 = 0) → ∃ (c' : Chip) (e : JobEntry),
              exec i s = next s (c'.complete r.dest 0 [] 0) ∧ (c'.queue q).entries = (c.queue q).entries ++ [e] ∧ e.opcode = op ∧ e.id = j.jobId.toNat ∧
              e.params = j.params ∧ e.input = j.inline ∧ e.uid = c.crypto.nextUid ∧ e.phase = .queued ∧ c'.crypto.nextUid = c.crypto.nextUid + 1 ∧
              (∀ n, n ≠ q → c'.queue n = c.queue n)))))) 

/-- R215, R216, R219, R220, R222 and R223. -/
def Obligations.EngineRows : Prop :=
  (∀ (e : Engine) (s : State), (s.chip.crypto.running.find? (engineNo e)).isSome = true → exec (.engineDispatch e) s = .next s) ∧
  (∀ (e : Engine) (q p : Nat) (j : JobEntry) (s : State), engineType (engineNo e) ≠ 4 → s.chip.crypto.running.find? (engineNo e) = none → s.chip.runs 3 = true →
    s.chip.choose (engineType (engineNo e)) = some (q, p, j) →
    (j.flags.getLsbD 1 = false ∨ j.startAt.isSome = true ∨ s.chip.dramServes = true → ∃ t, exec (.engineDispatch e) s = .next t ∧
      t.chip.crypto.running.find? (engineNo e) = some j.uid ∧ t.chip.crypto.pointers.get 0 p = q ∧ Within [.crypto, .dram] s t) ∧
    (j.flags.getLsbD 1 = true → j.startAt = none → s.chip.dramServes = false → ∃ t, exec (.engineDispatch e) s = .next t ∧
      t.chip.crypto.running = s.chip.crypto.running ∧ Within [.crypto, .free] s t)) ∧
  (∀ (e : Engine) (s : State), engineType (engineNo e) ≠ 4 → s.chip.choose (engineType (engineNo e)) = none → exec (.engineDispatch e) s = .next s) ∧
  (∀ (e : Engine) (s : State), s.chip.crypto.running.find? (engineNo e) = none → exec (.jobComplete e) s = .next s) ∧
  (∀ (e : Engine) (u q : Nat) (j : JobEntry) (s : State), s.chip.crypto.running.find? (engineNo e) = some u → s.chip.job u = some (q, j) → j.opcode ≤ 0x0B →
    ((engineNo e = 7 ∧ s.chip.sauHeld = true) ∨ j.inputDue = true → exec (.jobComplete e) s = .next s) ∧
    (engineNo e ≠ 7 ∨ s.chip.sauHeld = false → j.inputDue = false → exec (.jobComplete e) s = next s
      (Chip.finishJob q j (jobYield j) false { s.chip with crypto := { s.chip.crypto with running := s.chip.crypto.running.erase (engineNo e) } }))) ∧
  (∀ (p : Path) (tag id : Word16) (s : State) (r : Req) (c : Chip), gate p tag 0x4400 0x12 (le 2 id.toNat) (fun _ _ => 0) s.chip = .go r c →
    (∀ e, (c.queue (0x1F + r.dest.session)).entries.find? (fun e => e.id == id.toNat && !e.orphan) = some e →
      (e.phase = .done → exec (.completionAcknowledge p tag id) s = next s ((c.dropJob (0x1F + r.dest.session) e.uid).complete r.dest 0 [] 0)) ∧
      (e.phase ≠ .done → exec (.completionAcknowledge p tag id) s = next s (c.complete r.dest 0x0005 [] 0))) ∧
    ((c.queue (0x1F + r.dest.session)).entries.find? (fun e => e.id == id.toNat && !e.orphan) = none → (c.queue (0x1F + r.dest.session)).resets = [] →
      exec (.completionAcknowledge p tag id) s = next s (c.complete r.dest 0x0002 [] 0))) ∧
  (∀ (e : Engine) (n u q : Nat) (j : JobEntry) (s : State), s.chip.crypto.running.find? (engineNo e) = some u → s.chip.job u = some (q, j) →
    engineType (engineNo e) ≤ 1 → 16 ≤ q → opPreempts j.opcode = true → j.opcode ≠ 0x10 → j.resumedAt < n → (n - j.resumedAt) % 64 = 0 →
    n + 64 < ceilDiv j.inLen (opBlock j.opcode j.key.type.toNat) →
    ((s.chip.candidates (engineType (engineNo e))).any fun x => decide (s.chip.queuePriority q < x.2.1)) = true →
    ((enginesOf (engineType (engineNo e))).any fun x => (s.chip.crypto.running.find? x).isNone) = false →
    (∀ i < 24, s.chip.crypto.contexts.find? i = none → (∀ k < i, (s.chip.crypto.contexts.find? k).isSome = true) →
      ∃ t, exec (.preemptionBoundary e n) s = .next t ∧ t.chip.crypto.running.find? (engineNo e) = none ∧
        t.chip.crypto.contexts.find? i = some j.uid ∧ (∀ k, k ≠ i → t.chip.crypto.contexts.find? k = s.chip.crypto.contexts.find? k) ∧
        t.chip.crypto.preemptions = satAdd 32 s.chip.crypto.preemptions 1 ∧ t.chip.crypto.declined = s.chip.crypto.declined ∧ Within [.crypto] s t) ∧
    ((∀ i < 32, (s.chip.crypto.contexts.find? i).isSome = true) →
      ∃ t, exec (.preemptionBoundary e n) s = .next t ∧ t.chip.crypto.running = s.chip.crypto.running ∧
        t.chip.crypto.contexts = s.chip.crypto.contexts ∧ t.chip.crypto.declined = satAdd 32 s.chip.crypto.declined 1 ∧ Within [.crypto] s t)) ∧
  (∀ (u q : Nat) (j : JobEntry) (s : State), s.chip.crypto.checking = some u → s.chip.job u = some (q, j) →
    (∃ t, exec (.releaseVerdict true) s = .next t ∧ t.chip.crypto.checks = satAdd 32 s.chip.crypto.checks 1 ∧
      t.chip.crypto.released = satAdd 32 s.chip.crypto.released 1 ∧ t.chip.crypto.sauFault = s.chip.crypto.sauFault) ∧
    (∃ t, exec (.releaseVerdict false) s = .next t ∧ t.chip.crypto.checks = satAdd 32 s.chip.crypto.checks 1 ∧
      t.chip.crypto.withheld = satAdd 32 s.chip.crypto.withheld 1 ∧ t.chip.crypto.released = s.chip.crypto.released ∧ t.chip.crypto.sauFault = true)) ∧
  (∀ (us u q : Nat) (j : JobEntry) (s : State), s.chip.crypto.running.find? 8 = some u → s.chip.job u = some (q, j) → s.chip.crypto.checkWaits.isSome = true →
    s.chip.crypto.viSuspended.length < 4 → ∃ t, exec (.viYieldPoint us) s = .next t ∧ t.chip.crypto.running.find? 8 = none ∧
      t.chip.crypto.viSuspended = s.chip.crypto.viSuspended ++ [j.uid] ∧ t.chip.crypto.yields = satAdd 32 s.chip.crypto.yields 1 ∧ Within [.crypto] s t)

/-- R226, R227 and R203. Which failing blocks follow one another is left free (assumption log). -/
def Obligations.EntropyRows : Prop :=
  (∀ (x : EntropyTest) (s : State), s.chip.crypto.entropy = .failed → exec (.entropyTestFailure x) s = .next s) ∧
  (∀ s : State, s.chip.crypto.entropy = .startUp → s.chip.island 3 = .loading → ∃ t, exec (.entropyTestFailure .startUp) s = .next t ∧
    t.chip.crypto.entropy = .failed ∧ t.chip.crypto.entropyAt = s.chip.clk.ticks ∧ Within [.crypto, .recorder] s t) ∧
  (∀ s : State, s.chip.crypto.entropy = .healthy → s.chip.island 3 = .running → ∃ t, exec (.entropyTestFailure .repetition) s = .next t ∧
    t.chip.crypto.repetition = satAdd 32 s.chip.crypto.repetition 1 ∧ (s.chip.crypto.badBlocks < 2 → t.chip.crypto.entropy = .healthy) ∧
    (t.chip.crypto.entropy = .failed ∨ t.chip.crypto.badBlocks = 1 ∨ t.chip.crypto.badBlocks = s.chip.crypto.badBlocks + 1) ∧
    Within [.crypto, .recorder, .free] s t) ∧
  (∀ s : State, s.chip.crypto.entropy = .failed → s.chip.passedUs s.chip.crypto.entropyAt 1000000 = true →
    (∃ t, exec (.entropyRetest true) s = .next t ∧ t.chip.crypto.entropy = .healthy ∧ t.chip.crypto.drbgUp = true ∧ t.chip.crypto.drbgRequests = 0 ∧
      Within [.crypto, .free] s t) ∧
    (∃ t, exec (.entropyRetest false) s = .next t ∧ t.chip.crypto.entropy = .failed ∧ t.chip.crypto.entropyAt = s.chip.clk.ticks ∧ Within [.crypto] s t)) ∧
  (∀ s : State, s.chip.crypto.drbgUp = true → s.chip.crypto.entropy ≠ .failed → 1024 ≤ s.chip.crypto.drbgRequests → ∃ t, exec .drbgReseed s = .next t ∧
    t.chip.crypto.drbgRequests = 0 ∧ t.chip.crypto.drbgAt = s.chip.clk.ticks ∧ t.chip.crypto.reseeds = satAdd 32 s.chip.crypto.reseeds 1 ∧ Within [.crypto, .free] s t) ∧
  (∀ s : State, s.chip.crypto.entropy = .failed → exec .drbgReseed s = .next s) ∧
  (∀ s : State, s.chip.drbgGate = 0 → ∃ t, exec .nonceReserveFill s = .next t ∧ t.chip.keys.reserve.length = 256 ∧ t.chip.keys.slots = s.chip.keys.slots ∧
    Within [.keys, .crypto, .free] s t) ∧
  (∀ s : State, s.chip.drbgGate ≠ 0 → exec .nonceReserveFill s = .next s)

/-- R197 to R205 as the command rows show them. -/
def Obligations.IntrusionRows : Prop :=
  (∀ (cause : BitVec 8) (ns : Nat) (s : State), s.chip.monitorActs = true → s.chip.tripping cause.toNat ≠ 0 → s.chip.keys.arm ≠ .deadIntrusion →
    ∃ t, exec (.intrusionDetected cause ns) s = .next t ∧ t.chip.keys.arm = .deadIntrusion ∧ t.chip.keys.slots = [] ∧
      t.chip.keys.rootKey = List.replicate 32 0 ∧ t.chip.keys.rootOk = false ∧ t.chip.keys.intrusions = satAdd 32 s.chip.keys.intrusions 1 ∧
      t.chip.keys.zeroNs = min 0xFFFF ns ∧ (∀ x, t.chip.islands[3]? = some x → x = .dead)) ∧
  (∀ (cause : BitVec 8) (ns : Nat) (s : State), s.chip.monitorActs = true → s.chip.tripping cause.toNat ≠ 0 → s.chip.keys.arm = .deadIntrusion →
    ∃ t, exec (.intrusionDetected cause ns) s = .next t ∧ t.chip.keys.cause = s.chip.keys.cause ||| BitVec.ofNat 16 (s.chip.tripping cause.toNat) ∧
      t.chip.keys.intrusions = s.chip.keys.intrusions ∧ Within [.keys] s t) ∧
  (∀ (cause : BitVec 8) (ns : Nat) (s : State), s.chip.tripping cause.toNat = 0 → exec (.intrusionDetected cause ns) s = .next s) ∧
  (∀ (x : Sensor) (s : State), s.chip.life.state ≠ .scrapped → s.chip.keys.response.getLsbD (sensorBit x) = false → (x = .supply → s.chip.runs 3 = true) →
    ∃ t, exec (.sensorTripRecorded x) s = .next t ∧ t.chip.keys.slots = s.chip.keys.slots ∧ t.chip.keys.rootKey = s.chip.keys.rootKey ∧
      (s.chip.keys.arm = .armed → t.chip.keys.cause = BitVec.ofNat 16 (2 ^ (4 + sensorBit x))) ∧ Within [.keys, .recorder] s t) ∧
  (∀ (k : Fin 4) (level : Bool) (s : State), s.chip.monitorActs = true → s.chip.keys.loops.getLsbD k.val = true → level ≠ s.chip.tampOut k.val → s.chip.keys.lastMismatch.find? k.val = none →
    ∃ t, exec (.tamperLoopMismatch ⟨k, level⟩) s = .next t ∧ t.chip.keys.mismatches = s.chip.keys.mismatches ||| BitVec.ofNat 8 (2 ^ k.val) ∧
      t.chip.keys.lastMismatch.find? k.val = some s.chip.us ∧ t.chip.keys.slots = s.chip.keys.slots ∧ Within [.keys] s t) ∧
  (∀ s : State, s.chip.debugOpen = true →
    (s.chip.rearmCode = 0 → ∃ t, exec .reArm s = .next t ∧ t.chip.keys.arm = .armed ∧ t.chip.keys.slots = [] ∧ t.chip.keys.blobs = [] ∧
      t.chip.keys.rootKey.length = 32 ∧ t.chip.keys.rootOk = true ∧ t.chip.keys.rearms = satAdd 32 s.chip.keys.rearms 1 ∧
      t.chip.keys.rearmResult = 0x80000000 ∧ t.chip.crypto.entropy = .startUp ∧ (∀ x, t.chip.islands[3]? = some x → x = .loading)) ∧
    (s.chip.rearmCode ≠ 0 → ∃ t, exec .reArm s = .next t ∧ t.chip.keys.rearmResult = BitVec.ofNat 32 (0x80000000 + s.chip.rearmCode) ∧
      t.chip.keys.slots = s.chip.keys.slots ∧ t.chip.keys.rootKey = s.chip.keys.rootKey ∧ Within [.keys] s t)) ∧
  (∀ (k : Fin 4) (s : State), exec (.tamperLoopMismatch ⟨k, s.chip.tampOut k.val⟩) s = .next s) ∧
  (∀ s : State, s.chip.debugOpen = false → exec .reArm s = .next s)

/-! ## Timing, sample ports, acquisition and sealed fields (chapters 10 to 13) -/

/-- R284, R285, R291, R292, R296 and R302 to R304. -/
def Obligations.TimingAndPortRows : Prop :=
  (∀ (t : Int) (s : State), exec (.tiTemperatureRead t) s = next s { s.chip with segs := { s.chip.segs with tiTemp := t } }) ∧
  (∀ s : State, s.chip.segs.tracking = false → s.chip.arming = false → s.chip.trackDue = true → s.chip.runs 6 = true → ∃ t, exec .trackingPassStart s = .next t ∧
    t.chip.segs.tracking = true ∧ t.chip.segs.trackAt = s.chip.clk.ticks ∧ t.chip.segs.trackTemp = s.chip.segs.tiTemp ∧ Within [.segs, .background] s t) ∧
  (∀ s : State, s.chip.segs.tracking = true → exec .trackingPassStart s = .next s ∧
    (s.chip.runs 6 = false → exec .trackingPassComplete s = .next s) ∧
    (s.chip.runs 6 = true → ∃ t, exec .trackingPassComplete s = .next t ∧ t.chip.segs.tracking = false ∧
      t.chip.segs.trackDone = some s.chip.clk.ticks ∧ t.chip.segs.trackDoneTemp = s.chip.segs.trackTemp ∧
      t.chip.segs.replicas = (List.range 8).map (Config.replica s.chip.clk.ticks) ∧ t.chip.seqs = s.chip.seqs ∧ Within [.segs, .background, .lanes] s t)) ∧
  (∀ (p : Path) (tag : Word16) (s : State) (r : Req) (c : Chip), gate p tag 0x3600 2 [1] (fun _ _ => 0) s.chip = .go r c →
    (c.portLocked (c.sel r.dest.session 0x3600 1) = true → exec (.samplePortEnable p tag) s = next s (c.complete r.dest 0x0003 [] 0)) ∧
    (c.portLocked (c.sel r.dest.session 0x3600 1) = false →
      ((∃ i < 4, (c.lane (4 * c.sel r.dest.session 0x3600 1 + i)).owner ≠ 0xFF) → exec (.samplePortEnable p tag) s = next s (c.complete r.dest 0x0005 [] 0)) ∧
      ((∀ i < 4, (c.lane (4 * c.sel r.dest.session 0x3600 1 + i)).mode = 0 ∧ (c.lane (4 * c.sel r.dest.session 0x3600 1 + i)).owner = 0xFF) →
        ∃ c' : Chip, exec (.samplePortEnable p tag) s = next s (c'.complete r.dest 0 [] 0) ∧ (c'.port (c.sel r.dest.session 0x3600 1)).enable = 1 ∧
          (∀ i < 4, (c'.lane (4 * c.sel r.dest.session 0x3600 1 + i)).mode = 3) ∧ Only [.lanes, .segs] c c'))) ∧
  (∀ (p : Path) (tag : Word16) (s : State) (r : Req) (c : Chip), gate p tag 0x3600 2 [0] (fun _ _ => 0) s.chip = .go r c →
    c.portLocked (c.sel r.dest.session 0x3600 1) = false → ∃ c' : Chip, exec (.samplePortDisable p tag) s = next s (c'.complete r.dest 0 [] 0) ∧
      (c'.port (c.sel r.dest.session 0x3600 1)).enable = 0 ∧ (c'.port (c.sel r.dest.session 0x3600 1)).sending = false ∧ Only [.lanes, .segs] c c') ∧
  (∀ (p : Path) (tag : Word16) (m : Fin 4) (s : State) (r : Req) (c : Chip),
    (gate p tag 0x3600 0x11 [1] (fun _ _ => 0) s.chip = .go r c → ∃ c' : Chip, exec (.ncoApplyNow p tag) s = next s (c'.complete r.dest 0 [] 0) ∧
      (c'.port (c.sel r.dest.session 0x3600 1)).apply = some { word := (c.port (c.sel r.dest.session 0x3600 1)).staged, marker := none, due := 100 * c.clk.action + 2560000 } ∧
      Only [.segs] c c') ∧
    (gate p tag 0x3600 0x11 (le 1 (m.val + 2)) (fun _ _ => 0) s.chip = .go r c → ∃ c' : Chip, exec (.ncoApplyAtMarker p tag m) s = next s (c'.complete r.dest 0 [] 0) ∧
      ((c'.port (c.sel r.dest.session 0x3600 1)).apply.map fun a => (a.word, a.marker)) =
        some ((c.port (c.sel r.dest.session 0x3600 1)).staged, some m.val) ∧ Only [.segs] c c') ∧
    (gate p tag 0x3600 0x13 [1] (fun _ _ => 0) s.chip = .go r c → ∃ c' : Chip, exec (.ncoPhaseReset p tag) s = next s (c'.complete r.dest 0 [] 0) ∧
      (c'.port (c.sel r.dest.session 0x3600 1)).resets = (c.port (c.sel r.dest.session 0x3600 1)).resets ++ [100 * c.clk.action + 2560000] ∧ Only [.segs] c c')) ∧
  (∀ (k : Fin 16) (b : BitVec 10) (s : State), (s.chip.port k.val).sending = true → (s.chip.port k.val).seq.toNat < 16 → (s.chip.port k.val).apply = none →
    (s.chip.port k.val).resets = [] → ∃ t, exec (.portFrame k b) s = .next t ∧ (t.chip.port k.val).sent = ((s.chip.port k.val).sent + 1) % 2 ^ 64 ∧
      (t.chip.port k.val).acc = ((s.chip.port k.val).acc + (s.chip.port k.val).word.toNat) % 2 ^ 32) ∧
  (∀ (k : Fin 16) (b : BitVec 10) (s : State), (s.chip.port k.val).sending = false → exec (.portFrame k b) s = .next s)

/-- R344, R345, R348, R350, R351 and R353. -/
def Obligations.AcquisitionRows : Prop :=
  (∀ s : State, (8192 * 3 < s.chip.acq.held * 4 → s.chip.acq.decimation < 8 → ∃ t, exec .decimationRaise s = .next t ∧
      t.chip.acq.decimation = s.chip.acq.decimation + 1 ∧ t.chip.acq.decChanges = satAdd 32 s.chip.acq.decChanges 1 ∧ Within [.acq, .recorder] s t) ∧
    (s.chip.acq.held * 4 ≤ 8192 * 3 → exec .decimationRaise s = .next s) ∧
    (s.chip.acq.held * 4 < 8192 → 0 < s.chip.acq.decimation → ∃ t, exec .decimationLower s = .next t ∧
      t.chip.acq.decimation = s.chip.acq.decimation - 1 ∧ t.chip.acq.decChanges = satAdd 32 s.chip.acq.decChanges 1 ∧ Within [.acq] s t) ∧
    (8192 ≤ s.chip.acq.held * 4 → exec .decimationLower s = .next s)) ∧
  (∀ (u : Fin 16) (s : State), s.chip.runs 7 = true → s.chip.routed (0x40 + u.val) = true → (s.chip.unit u.val).trigSource = 5 → (s.chip.sq u.val).state.inRun = true →
    ((s.chip.unit u.val).state = .ready → (s.chip.unit u.val).triggers < (s.chip.unit u.val).trigCount → s.chip.inWindow u.val s.chip.nowFine = true →
      s.chip.inHold u.val s.chip.nowFine = false →
      ∃ t, exec (.aqTriggerIn u) s = .next t ∧ (t.chip.unit u.val).triggers = (s.chip.unit u.val).triggers + 1 ∧ (t.chip.unit u.val).missed = 0 ∧
        (t.chip.unit u.val).postLeft = (s.chip.unit u.val).post ∧ (t.chip.unit u.val).primer = [] ∧ Within [.acq, .dram, .recorder] s t) ∧
    ((s.chip.unit u.val).state ≠ .ready ∨ s.chip.inHold u.val s.chip.nowFine = true → (s.chip.unit u.val).state ≠ .idle → ∃ t, exec (.aqTriggerIn u) s = .next t ∧
      t.chip.unit u.val = { s.chip.unit u.val with missed := (s.chip.unit u.val).missed + 1 } ∧ Within [.acq] s t)) ∧
  (∀ (u : Fin 16) (s : State), (s.chip.unit u.val).trigSource ≠ 5 ∨ (s.chip.sq u.val).state.inRun = false → exec (.aqTriggerIn u) s = .next s) ∧
  (∀ (p : Path) (tag : Word16) (v : BitVec 64) (s : State) (r : Req) (c : Chip), gate p tag 0x3800 0x0D (le 8 v.toNat) (fun _ _ => 0) s.chip = .go r c →
    ((c.unit (c.sel r.dest.session 0x3800 1)).wptr < v.toNat ∨ v.toNat < (c.unit (c.sel r.dest.session 0x3800 1)).rptr →
      exec (.readPointerWrite p tag v) s = next s (c.complete r.dest 0x7006 [] 0)) ∧
    (v.toNat ≤ (c.unit (c.sel r.dest.session 0x3800 1)).wptr → (c.unit (c.sel r.dest.session 0x3800 1)).rptr ≤ v.toNat → ∃ c' : Chip,
      exec (.readPointerWrite p tag v) s = next s (c'.complete r.dest 0 [] 0) ∧ (c'.unit (c.sel r.dest.session 0x3800 1)).rptr = v.toNat ∧
      (c'.unit (c.sel r.dest.session 0x3800 1)).wptr = (c.unit (c.sel r.dest.session 0x3800 1)).wptr ∧ Only [.acq] c c')) ∧
  (∀ (n : Fin 64) (ten width : Nat) (q k : Nat) (s : State), s.chip.runs 7 = true → s.chip.passes n.val width = true → (s.chip.lane n.val).owner.toNat = q → q < 16 →
    (s.chip.lane n.val).site.toNat = k → k < 16 → (s.chip.unit q).marker ≠ 0xFF → (s.chip.siteAq k).timing = true → (s.chip.siteAq k).verdict = .pending →
    (s.chip.lane n.val).sealedIn = false → (s.chip.siteLanes q k)[(s.chip.unit q).respLane]? = some n.val → byteAt (s.chip.unit q).respCfg 2 = 2 →
    (s.chip.sq q).state = .running → ∃ t, exec (.responseEdge n true ⟨ten, width⟩) s = .next t ∧ (t.chip.siteAq k).timing = false ∧
      (t.chip.siteAq k).respTime = (ten + 50) / 100 ∧ (t.chip.siteAq k).responded = true ∧
      (t.chip.siteAq k).verdict = (if 256 * ten ≤ (s.chip.unit q).limit then .inTime else .slow) ∧ Within [.acq, .dram, .recorder] s t) ∧
  (∀ (n : Fin 64) (up : Bool) (ten width : Nat) (s : State), s.chip.passes n.val width = false → exec (.responseEdge n up ⟨ten, width⟩) s = .next s) ∧
  (∀ (k q : Fin 16) (s : State), (s.chip.siteAq k.val).verdict = .pending → s.chip.seqOfSite k.val = some q.val →
    (s.chip.siteAq k.val).startAt + (s.chip.unit q.val).limit < s.chip.nowFine → ∃ t, exec (.responseLimitExpiry k) s = .next t ∧
    (t.chip.siteAq k.val).verdict = .slow ∧ (t.chip.siteAq k.val).slowSeen = true ∧
    (t.chip.siteAq k.val).flag = ((s.chip.siteAq k.val).flag || (s.chip.unit q.val).rejectSlow) ∧ Within [.acq] s t) ∧
  (∀ (k : Fin 16) (s : State), (s.chip.siteAq k.val).verdict ≠ .pending ∨ s.chip.limitPassed k.val = false → exec (.responseLimitExpiry k) s = .next s)

/-- R318, R321 to R323, R325 and R327. -/
def Obligations.SealedFieldRows : Prop :=
  (∀ (k q : Fin 16) (s : State), s.chip.seqOfSite k.val = some q.val → (s.chip.seal k.val).waiting = true → (s.chip.seal k.val).job = none →
    (s.chip.queue q.val).entries.length < 8 →
    (s.chip.runs 3 = false → ∃ t, exec (.fieldRequestAccept k) s = .next t ∧ (t.chip.seal k.val).waiting = false ∧ (t.chip.seal k.val).cause = 6 ∧
      Within [.sealed_, .seqs] s t) ∧
    (s.chip.runs 3 = true → (s.chip.seal k.val).uidRefused = true → ∃ t, exec (.fieldRequestAccept k) s = .next t ∧ (t.chip.seal k.val).waiting = false ∧
      (t.chip.seal k.val).cause = 3 ∧ (t.chip.seal k.val).uid = none ∧ Within [.sealed_, .seqs] s t) ∧
    (∀ uid, s.chip.runs 3 = true → (s.chip.seal k.val).uidRefused = false → (s.chip.seal k.val).uid = some uid →
      (uid.length ≠ recU (s.chip.recipe (s.chip.sq q.val).sealedCfg.recipe) → ∃ t, exec (.fieldRequestAccept k) s = .next t ∧
        (t.chip.seal k.val).waiting = false ∧ (t.chip.seal k.val).cause = 2 ∧ Within [.sealed_, .seqs] s t) ∧
      (uid.length = recU (s.chip.recipe (s.chip.sq q.val).sealedCfg.recipe) →
        s.chip.masterOk (recOwner (s.chip.recipe (s.chip.sq q.val).sealedCfg.recipe)) (recSlot (s.chip.recipe (s.chip.sq q.val).sealedCfg.recipe)) = false →
        ∃ t, exec (.fieldRequestAccept k) s = .next t ∧ (t.chip.seal k.val).waiting = false ∧ (t.chip.seal k.val).cause = 5 ∧ Within [.sealed_, .seqs] s t) ∧
      (uid.length = recU (s.chip.recipe (s.chip.sq q.val).sealedCfg.recipe) →
        s.chip.masterOk (recOwner (s.chip.recipe (s.chip.sq q.val).sealedCfg.recipe)) (recSlot (s.chip.recipe (s.chip.sq q.val).sealedCfg.recipe)) = true →
        (∀ t, s.chip.reserveWait k.val (recSlot (s.chip.recipe (s.chip.sq q.val).sealedCfg.recipe)) = some t →
          (s.chip.countUse (recSlot (s.chip.recipe (s.chip.sq q.val).sealedCfg.recipe))).2 ≠ 0x3107 → exec (.fieldRequestAccept k) s = next s t) ∧
        (s.chip.reserveWait k.val (recSlot (s.chip.recipe (s.chip.sq q.val).sealedCfg.recipe)) = none →
        (s.chip.countUse (recSlot (s.chip.recipe (s.chip.sq q.val).sealedCfg.recipe))).2 = 0 → ∃ t, exec (.fieldRequestAccept k) s = .next t ∧
        (t.chip.seal k.val).waiting = true ∧ (t.chip.seal k.val).uid = none ∧ (t.chip.seal k.val).job = some s.chip.crypto.nextUid ∧
        t.chip.crypto.nextUid = s.chip.crypto.nextUid + 1 ∧ Within [.sealed_, .keys, .boot, .free, .pair, .crypto] s t)))) ∧
  (∀ (k : Fin 16) (s : State), (s.chip.seal k.val).derived = true → ∃ t, exec (.fieldWordsSent k) s = .next t ∧ (t.chip.seal k.val).sent = true ∧
    (t.chip.seal k.val).derived = false ∧ (t.chip.seal k.val).value = (s.chip.seal k.val).value ∧ Within [.sealed_] s t) ∧
  (∀ (k q : Fin 16) (ns : Nat) (s : State), s.chip.seqOfSite k.val = some q.val → (s.chip.seal k.val).sent = true → (s.chip.seal k.val).waiting = true →
    ((s.chip.sq q.val).sealedCfg.windowOpen = true → ns ≤ 1000 * (s.chip.sq q.val).sealedCfg.window → ∃ t, exec (.fieldWordArrival k ns) s = .next t ∧
      (t.chip.seal k.val).waiting = false ∧ (t.chip.seal k.val).buffer = (s.chip.seal k.val).value ∧ (t.chip.seal k.val).pos = 0 ∧
      Within [.sealed_, .seqs, .free, .crypto] s t) ∧
    ((s.chip.sq q.val).sealedCfg.windowOpen = false → ∃ t, exec (.fieldWordArrival k ns) s = .next t ∧ (t.chip.seal k.val).waiting = true ∧
      (t.chip.seal k.val).value = [] ∧ (t.chip.seal k.val).sent = false ∧ Within [.sealed_, .crypto] s t)) ∧
  (∀ (q k : Fin 16) (s : State), (s.chip.sq q.val).sealedCfg.windowOpen = true → (s.chip.sq q.val).sealedCfg.closeAt < s.chip.nowFine → k.val ∈ (s.chip.sq q.val).livingSites → (s.chip.seal k.val).waiting = true →
    (s.chip.seal k.val).job = none → (s.chip.seal k.val).uid = none → (s.chip.seal k.val).uidRefused = false → ∃ t, exec (.latencyWindowClose q) s = .next t ∧
      (t.chip.sq q.val).sealedCfg.windowOpen = false ∧ (t.chip.seal k.val).waiting = false ∧ (t.chip.seal k.val).cause = 1 ∧ Within [.sealed_, .seqs, .crypto] s t) ∧
  (∀ (q : Fin 16) (s : State), (s.chip.sq q.val).sealedCfg.windowOpen = false ∨ s.chip.nowFine ≤ (s.chip.sq q.val).sealedCfg.closeAt → exec (.latencyWindowClose q) s = .next s) ∧
  (∀ (k : Fin 16) (s : State), 8 * (s.chip.seal k.val).buffer.length ≤ (s.chip.seal k.val).pos → ∃ t, exec (.sealedBufferClear k) s = .next t ∧
    (t.chip.seal k.val).buffer = [] ∧ (t.chip.seal k.val).pos = 0 ∧ Within [.sealed_] s t)

/-! ## The DRAM controller (chapter 14) -/

/-- R360, R365, R368 to R371, R380, R386 and R388. -/
def Obligations.DramTrainingRows : Prop :=
  (∀ (p : Path) (tag : Word16) (s : State) (r : Req) (c : Chip), gate p tag 0x4800 9 [1] (fun _ _ => 0) s.chip = .go r c →
    (c.dram.mode ≠ .awaitingDelays → exec (.beginTraining p tag) s = next s (c.complete r.dest 0x0005 [] 0)) ∧
    (c.dram.mode = .awaitingDelays → (c.dram.channels.all fun d => d.state == .retired || d.delaysOk) = false → exec (.beginTraining p tag) s = next s (c.complete r.dest 0x0002 [] 0)) ∧
    (c.dram.mode = .awaitingDelays → (c.dram.channels.all fun d => d.state == .retired || d.delaysOk) = true → ∃ c' : Chip, exec (.beginTraining p tag) s = next s (c'.complete r.dest 0 [] 0) ∧
      c'.dram.mode = .training ∧ (∀ d ∈ c'.dram.channels, d.state = .training ∨ d.state = .retired) ∧ Only [.dram] c c')) ∧
  (∀ (a b : TrainResult) (s : State), s.chip.dram.mode = .training → s.chip.clk.refLost = false → (s.chip.dramCh 0).trainOk a = true → (s.chip.dramCh 1).trainOk b = true →
    a.gib = b.gib → a.ranks = b.ranks → s.chip.dram.channels.length = 2 → (s.chip.dramCh 0).state ≠ .retired → (s.chip.dramCh 1).state ≠ .retired → ∃ t, exec (.trainingComplete a b) s = .next t ∧ t.chip.dram.mode = .initialising ∧
      t.chip.dram.inService = 3 ∧ (t.chip.dramCh 0).trained = a.values ∧ (t.chip.dramCh 1).trained = b.values ∧ (t.chip.dramCh 0).gib = a.gib ∧
      Within [.dram] s t) ∧
  (∀ s : State, s.chip.dram.mode = .initialising → s.chip.clk.refLost = false → ∃ t, exec .dramInitComplete s = .next t ∧ t.chip.dram.bytes = [] ∧
    t.chip.dram.generation = (s.chip.dram.generation + 1) % 65536 ∧ t.chip.dram.mode = (if s.chip.dram.inService = 3 then .twoChannels else .oneChannel) ∧
    (∀ x, t.chip.islands[8]? = some x → x = .running) ∧ Within [.dram, .recorder, .islands, .host, .out, .seqs, .crypto, .free] s t) ∧
  (∀ (a b : TrainResult) (s : State), s.chip.dram.mode ≠ .training ∨ s.chip.clk.refLost = true → exec (.trainingComplete a b) s = .next s) ∧
  (∀ s : State, (s.chip.dram.mode ≠ .initialising ∧ s.chip.dram.mode ≠ .retiring) ∨ s.chip.clk.refLost = true → exec .dramInitComplete s = .next s) ∧
  (∀ (k : Fin 2) (x : ChannelCause) (s : State), s.chip.faultHolds k.val x = false → exec (.channelFault k x) s = .next s) ∧
  (∀ (k : Fin 2) (x : ChannelCause) (s : State), s.chip.faultHolds k.val x = true → s.chip.dram.policy = 1 → s.chip.otherServes k.val = true →
    ∃ t, exec (.channelFault k x) s = .next t ∧ t.chip.dram.mode = .retiring ∧ t.chip.dram.retiring = some k.val ∧
      t.chip.dram.lastFault = le 1 k.val ++ le 1 (causeCode x) ∧ t.chip.dram.retirements = satAdd 32 s.chip.dram.retirements 1 ∧
      t.chip.dram.inService.getLsbD k.val = false) ∧
  (∀ (p : Path) (tag : Word16) (k : Fin 2) (s : State) (r : Req) (c : Chip), gate p tag 0x4800 8 (le 1 k.val) (fun _ _ => 0) s.chip = .go r c →
    ((c.dramCh k.val).state = .retired ∨ c.otherServes k.val = false ∨ c.dram.mode = .retiring →
      exec (.channelRetire p tag k) s = next s (c.complete r.dest 0x8004 [] 0)) ∧
    ((c.dramCh k.val).state ≠ .retired → c.otherServes k.val = true → c.dram.mode ≠ .retiring → ∃ c' : Chip,
      exec (.channelRetire p tag k) s = next s (c'.complete r.dest 0 [] 0) ∧ c'.dram.mode = .retiring ∧ c'.dram.retiring = some k.val ∧
      c'.dram.inService.getLsbD k.val = false)) ∧
  (∀ (p : Path) (tag : Word16) (v : Word32) (s : State) (r : Req) (c : Chip),
    gate p tag 0x4900 5 (le 4 v.toNat) (fun _ _ => shareOk .secure v.toNat) s.chip = .go r c →
    (c.dram.siShare < v.toNat → (c.overBudget v.toNat c.dram.ciShare c.dram.rowHammer (c.seqCharges 16)).isSome = true →
      exec (.admittedShareWrite p tag .secure v) s = next s (Chip.complete r.dest 0x8001 [] 0 { c with dram := { c.dram with refusals := satAdd 32 c.dram.refusals 1 } })) ∧
    (v.toNat ≤ c.dram.siShare ∨ (c.overBudget v.toNat c.dram.ciShare c.dram.rowHammer (c.seqCharges 16)).isSome = false →
      exec (.admittedShareWrite p tag .secure v) s = next s (Chip.complete r.dest 0 [] 0 { c with dram := { c.dram with siShare := v.toNat } }))) ∧
  (∀ (k : Fin 2) (s : State), ∃ t, exec (.periodicZqCalibration k) s = .next t ∧ t = s)

/-- R27, R367 and R372 to R378. -/
def Obligations.DramAccessRows : Prop :=
  (∀ (k : Fin 2) (s : State), (s.chip.dramCh k.val).state ≠ .running → exec (.dramRequestGrant k) s = .next s) ∧
  (∀ (k : Fin 2) (r : DramReq) (s : State), s.chip.dram.channels.length = 2 → s.chip.dramServes = true → (s.chip.dramCh k.val).state = .running →
    (s.chip.dramCh k.val).queue = [r] → (s.chip.dramCh k.val).inFlight = [] → (s.chip.dramCh k.val).banks = [] → s.chip.dram.stalled = [] → r.cls = .playback →
    (r.write = false → r.dest = none → ∃ t, exec (.dramRequestGrant k) s = .next t ∧ (t.chip.dramCh k.val).queue = [] ∧
      (t.chip.dramCh k.val).inFlight = [r] ∧ t.chip.dram.bytes = s.chip.dram.bytes ∧ Within [.dram] s t)) ∧
  (∀ (k : Fin 2) (r : DramReq) (s : State), s.chip.dram.channels.length = 2 → s.chip.dramServes = true → (s.chip.dramCh k.val).state = .running →
    (s.chip.dramCh k.val).queue = [r] → (s.chip.dramCh k.val).inFlight = [] → (s.chip.dramCh k.val).banks = [] → s.chip.dram.stalled = [] → s.chip.dram.transfers = [] → r.cls = .conductor →
    r.write = true → r.dest = none → r.addr % 64 = 0 → r.data.length % 64 = 0 → r.data ≠ [] → ∃ t, exec (.dramRequestGrant k) s = .next t ∧
      (t.chip.dramCh k.val).queue = [] ∧ (∀ i, i < r.data.length → SMap.get t.chip.dram.bytes 0 (r.addr + i) = r.data.getD i 0) ∧
      (∀ a, a < r.addr ∨ r.addr + r.data.length ≤ a → SMap.get t.chip.dram.bytes 0 a = SMap.get s.chip.dram.bytes 0 a) ∧ Within [.dram] s t) ∧
  (∀ (k : Fin 2) (a b : Bool) (n : Nat) (s : State), (s.chip.dramCh k.val).inFlight = [] → exec (.dramReadReturn k a b n) s = .next s) ∧
  (∀ (k : Fin 2) (n : Nat) (r : DramReq) (l : List DramReq) (s : State), s.chip.dram.channels.length = 2 → s.chip.dram.stalled = [] → (s.chip.dramCh k.val).inFlight = r :: l →
    r.cls = .playback → r.write = false → r.tx = 0 →
    (∃ t, exec (.dramReadReturn k false false n) s = .next t ∧ (t.chip.dramCh k.val).inFlight = l ∧
      (t.chip.sq r.owner).ring = (s.chip.sq r.owner).ring ++ [{ seg := r.seg, stream := r.stream, bytes := r.len }] ∧
      t.chip.dram.misses = (if s.chip.pastDeadline r = true then satAdd 32 s.chip.dram.misses 1 else s.chip.dram.misses) ∧ Within [.dram, .seqs] s t) ∧
    (∃ t, exec (.dramReadReturn k true false n) s = .next t ∧ (t.chip.dramCh k.val).inFlight = l ∧
      (t.chip.sq r.owner).ring = (s.chip.sq r.owner).ring ++ [{ seg := r.seg, stream := r.stream, bytes := r.len, bad := true }] ∧
      (t.chip.dramCh k.val).uncorrectable = satAdd 32 (s.chip.dramCh k.val).uncorrectable 1 ∧ (t.chip.dramCh k.val).lastBad = (r.addr / 64 + min n (r.bursts - 1)) * 64 ∧
      Within [.dram, .seqs, .recorder] s t)) ∧
  (∀ (k r : Fin 2) (b : Fin 8) (s : State), s.chip.dram.channels.length = 2 → (s.chip.dramCh k.val).queue = [] → ∃ t, exec (.rowIdleClose k r b) s = .next t ∧
    ((t.chip.dramCh k.val).bank r.val b.val).openRow = none ∧ Within [.dram] s t) ∧
  (∀ (k r : Fin 2) (s : State), s.chip.dram.channels.length = 2 → (s.chip.dramCh k.val).state = .running → r.val < (s.chip.dramCh k.val).ranks →
    (s.chip.dramCh k.val).queue = [] → (s.chip.dramCh k.val).roundDone = [] → (s.chip.dramCh k.val).postponed = [] → ∃ t, exec (.refreshDue k r) s = .next t ∧
      (t.chip.dramCh k.val).roundDone.get 0 r.val = 1 ∧ (t.chip.dramCh k.val).postponed.get 0 r.val = 0 ∧ Within [.dram] s t) ∧
  (∀ (k r : Fin 2) (s : State), s.chip.dram.channels.length = 2 → (s.chip.dramCh k.val).state = .running → (s.chip.dramCh k.val).roundDone = [] →
    (s.chip.dramCh k.val).postponed.get 0 r.val ≠ 0 → ∃ t, exec (.refreshPostponeLimit k r) s = .next t ∧
      (t.chip.dramCh k.val).forced = satAdd 32 (s.chip.dramCh k.val).forced 1 ∧
      (t.chip.dramCh k.val).postponed.get 0 r.val = (s.chip.dramCh k.val).postponed.get 0 r.val - 1 ∧ Within [.dram] s t) ∧
  (∀ (k r : Fin 2) (m : Byte) (s : State), s.chip.dram.channels.length = 2 → (s.chip.dramCh k.val).state = .running → r.val < (s.chip.dramCh k.val).ranks →
    m = 1 ∨ m = 2 ∨ m = 4 → ∃ t, exec (.mr4Read k r m false) s = .next t ∧ (t.chip.dramCh k.val).mr4.get 1 r.val = m ∧
      Within [.dram, .host, .out, .recorder] s t) ∧
  (∀ s : State, ∃ t, exec .activationTableClear s = .next t ∧ (∀ d ∈ t.chip.dram.channels, ∀ e ∈ d.banks, e.2.rows = []) ∧
    t.chip.dram.bytes = s.chip.dram.bytes ∧ Within [.dram] s t)

/-! ## Level outputs (chapter 15) and the event router (chapter 16) -/

/-- R393 to R396, R399, R400 and R402 to R405. -/
def Obligations.LevelRows : Prop :=
  (∀ (p : Path) (tag : Word16) (v : Word32) (s : State) (r : Req) (c : Chip),
    gate p tag 0x3900 2 (le 2 v.toNat) (fun _ _ => if stagedOk .code (v.toNat % 65536) then 0 else 2) s.chip = .go r c →
    ∃ c' : Chip, exec (.levelStagedWrite p tag .code v) s = next s (c'.complete r.dest 0 [] 0) ∧
      (c'.lv (c.sel r.dest.session 0x3900 1)).staged.code = BitVec.ofNat 16 (v.toNat % 65536) ∧
      (c'.lv (c.sel r.dest.session 0x3900 1)).active = (c.lv (c.sel r.dest.session 0x3900 1)).active ∧
      ((c.lv (c.sel r.dest.session 0x3900 1)).loadMode = 0 → c.runs 9 = true → c.clearing = false → (c.lv (c.sel r.dest.session 0x3900 1)).loadAt = none →
        (c'.lv (c.sel r.dest.session 0x3900 1)).loadAt = some (c.clk.ticks + 8)) ∧
      (∀ n, n ≠ c.sel r.dest.session 0x3900 1 → c'.lv n = c.lv n) ∧ Only [.levels] c c') ∧
  (∀ (ns : Nat) (s : State), (ns < 50 → exec (.lvlLoadNFall ns) s = .next s) ∧
    (200 ≤ ns → s.chip.runs 9 = true → s.chip.clearing = false → exec (.lvlLoadNFall ns) s = next s { s.chip with levels := { s.chip.levels with strobe := true } }) ∧
    (200 ≤ ns → s.chip.runs 9 = false ∨ s.chip.clearing = true → exec (.lvlLoadNFall ns) s = .next s)) ∧
  (∀ s : State, (s.chip.edgeAt 0x58 = true → s.chip.runs 9 = true → s.chip.clearing = false →
      exec .lvLoadEvent s = next s { s.chip with levels := { s.chip.levels with strobe := true } }) ∧
    (s.chip.edgeAt 0x58 = false ∨ s.chip.runs 9 = false ∨ s.chip.clearing = true → exec .lvLoadEvent s = .next s)) ∧
  (∀ (p : Path) (tag : Word16) (s : State) (r : Req) (c : Chip), gate p tag 0x3900 0x10 [1] (fun _ _ => 0) s.chip = .go r c →
    (c.clearing = true → exec (.loadStrobeCommand p tag) s = next s (c.complete r.dest 0x9001 [] 0)) ∧
    (c.runs 9 = true → c.clearing = false → exec (.loadStrobeCommand p tag) s = next s (Chip.complete r.dest 0 [] 0 { c with levels := { c.levels with strobe := true } }))) ∧
  (∀ (ns : Nat) (s : State), (ns < 50 → exec (.lvlClrNAssert ns) s = .next s) ∧
    (s.chip.runs 9 = false → 200 ≤ ns → exec (.lvlClrNAssert ns) s = next s { s.chip with levels := { s.chip.levels with pinClear := true } }) ∧
    (s.chip.runs 9 = true → 200 ≤ ns → ∃ t, exec (.lvlClrNAssert ns) s = .next t ∧ t.chip.levels.pinClear = true ∧ t.chip.levels.clearSeen = true ∧
      t.chip.levels.strobe = false ∧ t.chip.clearing = true ∧ (∀ k < 16, (t.chip.lv k).loadAt = none ∧ (t.chip.lv k).loadNext = none) ∧
      Within [.levels] s t)) ∧
  (∀ s : State, exec .lvlClrNRelease s = next s { s.chip with levels := { s.chip.levels with pinClear := false } }) ∧
  (∀ s : State, (s.chip.runs 9 = true → s.chip.consumer 0x59 = true ∨ s.chip.edgeAt 0x59 = true → ∃ t, exec (.lvClearEvent true) s = .next t ∧
      t.chip.levels.eventClear = !s.chip.consumer 0x59 ∧ t.chip.levels.clearSeen = true ∧ t.chip.levels.strobe = false ∧
      (∀ k < 16, (t.chip.lv k).loadAt = none ∧ (t.chip.lv k).loadNext = none) ∧ Within [.levels] s t) ∧
    (s.chip.runs 9 = false ∨ (s.chip.consumer 0x59 = false ∧ s.chip.edgeAt 0x59 = false) → exec (.lvClearEvent true) s = .next s) ∧
    exec (.lvClearEvent false) s = next s { s.chip with levels := { s.chip.levels with eventClear := false } }) ∧
  (∀ (p : Path) (tag : Word16) (s : State) (r : Req) (c : Chip), gate p tag 0x3900 0x11 [1] (fun _ _ => 0) s.chip = .go r c →
    (c.runs 9 = true → ∃ c' : Chip, exec (.clearAll p tag) s = next s (c'.complete r.dest 0 [] 0) ∧ c'.levels.clearSeen = true ∧ c'.levels.strobe = false ∧
      c'.levels.clearFrames = 2 ∧ c'.clearing = true ∧ Only [.levels] c c') ∧
    (c.runs 9 = false → exec (.clearAll p tag) s = next s (c.complete r.dest 0 [] 0))) ∧
  (∀ s : State, s.chip.levelsRun = true → ∃ t, exec .pwmFrame s = .next t ∧ t.chip.levels.strobe = false ∧ t.chip.levels.clearSeen = false ∧
    t.chip.levels.mvNow = s.chip.levels.mv ∧ t.chip.levels.clearFrames = s.chip.levels.clearFrames - 1 ∧
    (s.chip.clearing = true → s.chip.levels.clearFrames ≠ 1 → ∀ k < 16, (t.chip.lv k).code = (s.chip.lv k).clearCode ∧ (t.chip.lv k).atClear = true) ∧
    (∀ k < 16, (t.chip.lv k).h ≤ 1024 ∧ ((s.chip.lv k).r < 64 → (t.chip.lv k).r < 64)) ∧ Within [.levels] s t) ∧
  (∀ s : State, s.chip.levelsRun = false → exec .pwmFrame s = .next s) ∧
  (∀ (k : Fin 16) (s : State), s.chip.levelsRun = true → (s.chip.lv k.val).short = false → ∃ t, exec (.shortLatch k) s = .next t ∧
    (t.chip.lv k.val).short = true ∧ (∀ n, n ≠ k.val → (t.chip.lv n).short = (s.chip.lv n).short ∧ (t.chip.lv n).active = (s.chip.lv n).active) ∧ Within [.levels, .recorder] s t) ∧
  (∀ (p : Path) (tag : Word16) (s : State) (r : Req) (c : Chip), gate p tag 0x3900 0x0E [1] (fun _ _ => 0) s.chip = .go r c →
    ((c.lv (c.sel r.dest.session 0x3900 1)).short = false → exec (.restoreChannel p tag) s = next s (c.complete r.dest 0x9002 [] 0)) ∧
    ((c.lv (c.sel r.dest.session 0x3900 1)).short = true → ∃ c' : Chip, exec (.restoreChannel p tag) s = next s (c'.complete r.dest 0 [] 0) ∧
      (c'.lv (c.sel r.dest.session 0x3900 1)).restore = true ∧ (c'.lv (c.sel r.dest.session 0x3900 1)).short = true ∧ Only [.levels] c c')) ∧
  (∀ (l : List Int) (s : State), s.chip.levelsRun = true → ∃ t, exec (.levelCalibrationPass l) s = .next t ∧
    (∀ k < 16, k < l.length → (t.chip.lv k).calNext = max (-64) (min 63 (l.getD k 0))) ∧ Within [.levels, .background] s t) ∧
  (∀ (mv : Nat) (s : State), exec (.vddIo33Measure mv) s = next s { s.chip with levels := { s.chip.levels with mv := mv % 65536 } })

/-- R409 to R411, R416 to R418 and R334. -/
def Obligations.RouterRows : Prop :=
  (∀ (p : Path) (tag : Word16) (b : Byte) (s : State) (r : Req) (c : Chip), gate p tag 0x2700 2 [b] (fun _ _ => 0) s.chip = .go r c →
    (c.routeLocked (c.sel r.dest.session 0x2700 1) = true → c.route (c.sel r.dest.session 0x2700 1) ≠ b →
      exec (.routeWrite p tag b) s = next s (c.complete r.dest 0x0003 [] 0)) ∧
    (c.routeLocked (c.sel r.dest.session 0x2700 1) = false → ∃ c' : Chip, exec (.routeWrite p tag b) s = next s (c'.complete r.dest 0 [] 0) ∧
      c'.route (c.sel r.dest.session 0x2700 1) = b ∧ (∀ n, n ≠ c.sel r.dest.session 0x2700 1 → c'.route n = c.route n) ∧ Only [.router, .levels] c c')) ∧
  (∀ (p : Path) (tag : Word16) (b : Bytes) (s : State) (r : Req) (c : Chip), gate p tag 0x2700 3 b (fun _ _ => 0) s.chip = .go r c → b.length = 96 →
    (∀ n < 80, c.routeLocked n = false) → ∃ c' : Chip, exec (.routeTableWrite p tag b) s = next s (c'.complete r.dest 0 [] 0) ∧
      (∀ n < 96, c'.route n = b.getD n 0) ∧ Only [.router, .levels] c c') ∧
  (∀ (p : Path) (tag : Word16) (t : Fin 2) (b : Byte) (s : State) (r : Req) (c : Chip),
    gate p tag 0x2700 (8 + t.val) [b] (fun _ _ => if b.toNat < 64 then 0 else 2) s.chip = .go r c → (∀ n < 80, c.routeLocked n = false) →
    c.router.taps.length = 2 → ∃ c' : Chip, exec (.laneTapWrite p tag t b) s = next s (c'.complete r.dest 0 [] 0) ∧ c'.router.taps.getD t.val 0 = b ∧
      Only [.router, .levels] c c') ∧
  (∀ (k : Fin 8) (v : Bool) (w : Nat) (s : State), s.chip.eviPasses k.val w = false → exec (.eviOrLaneTapChange (.evi k) ⟨v, w⟩) s = .next s) ∧
  (∀ (k : Fin 8) (v : Bool) (w : Nat) (s : State), s.chip.eviPasses k.val w = true → ∃ t, exec (.eviOrLaneTapChange (.evi k) ⟨v, w⟩) s = .next t ∧ t.chip.router.evi.getLsbD k.val = v ∧
    (∀ n, n < 8 → n ≠ k.val → t.chip.router.evi.getLsbD n = s.chip.router.evi.getLsbD n) ∧ Within [.router, .levels] s t) ∧
  (∀ (k : Fin 2) (v : Bool) (w : Nat) (s : State), s.chip.passes (s.chip.router.taps.getD k.val 0).toNat w = false →
    ∃ t, exec (.eviOrLaneTapChange (.laneTap k) ⟨v, w⟩) s = .next t ∧ (∀ n, (t.chip.lane n).input = (s.chip.lane n).input) ∧ Within [.lanes, .levels] s t) ∧
  (∀ (k : Fin 2) (v : Bool) (w : Nat) (s : State), (s.chip.lane (s.chip.router.taps.getD k.val 0).toNat).sealedIn = false →
    s.chip.passes (s.chip.router.taps.getD k.val 0).toNat w = true →
    ∃ t, exec (.eviOrLaneTapChange (.laneTap k) ⟨v, w⟩) s = .next t ∧ (t.chip.lane (s.chip.router.taps.getD k.val 0).toNat).input = v ∧ Within [.lanes, .levels] s t) ∧
  (∀ (p : Path) (tag : Word16) (e : Fin 2) (s : State) (r : Req) (c : Chip),
    (gate p tag 0x2700 (6 + e.val) [0] (fun _ _ => 0) s.chip = .go r c → ∃ c' : Chip, exec (.softwareEventLow p tag e) s = next s (c'.complete r.dest 0 [] 0) ∧
      c'.router.software.getLsbD e.val = false ∧ c'.router.pulses.find? e.val = none ∧ Only [.router, .levels] c c') ∧
    (gate p tag 0x2700 (6 + e.val) [1] (fun _ _ => 0) s.chip = .go r c → ∃ c' : Chip, exec (.softwareEventHigh p tag e) s = next s (c'.complete r.dest 0 [] 0) ∧
      c'.router.software.getLsbD e.val = true ∧ c'.router.pulses.find? e.val = none ∧ Only [.router, .levels] c c') ∧
    (gate p tag 0x2700 (6 + e.val) [2] (fun _ _ => 0) s.chip = .go r c → c.router.software.getLsbD e.val = false → ∃ c' : Chip,
      exec (.softwareEventPulse p tag e) s = next s (c'.complete r.dest 0 [] 0) ∧ c'.router.software.getLsbD e.val = true ∧
      c'.router.pulses.find? e.val = some (c.clk.ticks + 40) ∧ Only [.router, .levels] c c') ∧
    (gate p tag 0x2700 (6 + e.val) [2] (fun _ _ => 0) s.chip = .go r c → c.router.software.getLsbD e.val = true →
      exec (.softwareEventPulse p tag e) s = next s (c.complete r.dest 0 [] 0))) ∧
  (∀ (e : Fin 2) (s : State), (s.chip.router.pulses.find? e.val).isSome = true → ∃ t, exec (.softwarePulseEnd e) s = .next t ∧
    t.chip.router.software.getLsbD e.val = false ∧ t.chip.router.pulses.find? e.val = none ∧ Within [.router, .levels] s t) ∧
  (∀ (k : Fin 4) (s : State), (s.chip.runs 1 = true → s.chip.edgeAt (0x5B + k.val) = true → ∃ t, exec (.counterEdge k) s = .next t ∧
      t.chip.router.counters.get 0 k.val = satAdd 32 (s.chip.router.counters.get 0 k.val) 1 ∧ Within [.router] s t) ∧
    (s.chip.runs 1 = false ∨ s.chip.edgeAt (0x5B + k.val) = false → exec (.counterEdge k) s = .next s)) ∧
  (∀ (p : Path) (tag : Word16) (k : Fin 4) (s : State) (r : Req) (c : Chip), gate p tag 0x2700 (0x0A + k.val) (le 4 0) (fun _ _ => 0) s.chip = .go r c →
    ∃ c' : Chip, exec (.counterClear p tag k) s = next s (c'.complete r.dest 0 [] 0) ∧ c'.router.counters.get 0 k.val = 0 ∧
      (∀ n, n ≠ k.val → c'.router.counters.get 0 n = c.router.counters.get 0 n) ∧ Only [.router] c c') ∧
  (∀ s : State, (s.chip.runs 1 = false ∨ s.chip.edgeAt 0x5F = false → exec .markEdge s = .next s)) ∧
  (∀ s : State, s.chip.runs 1 = true → s.chip.edgeAt 0x5F = true → (s.chip.router.lastMark = none → ∃ t, exec .markEdge s = .next t ∧ t.chip.router.suppressed = 0 ∧
      t.chip.router.lastMark = some s.chip.clk.ticks ∧ Within [.router, .recorder] s t) ∧
    (∀ m, s.chip.router.lastMark = some m → s.chip.passedMs m 1 = false → ∃ t, exec .markEdge s = .next t ∧
      t.chip.router.suppressed = satAdd 32 s.chip.router.suppressed 1 ∧ Within [.router] s t))

/-! ## The cluster link (chapter 17) -/

/-- R423: layout, length, reserved types and CRC, in both directions. -/
def Obligations.FrameRoundTrip : Prop :=
  (∀ f : Frame, 1 ≤ f.type → f.type ≤ 0x0A → f.cluster < 256 → f.src < 256 → f.dst < 256 → f.seq < 65536 → f.payload.length ≤ 256 →
    parseFrame f.bytes = some f) ∧
  (∀ (b : Bytes) (f : Frame), parseFrame b = some f → f.bytes = b ∧ 1 ≤ f.type ∧ f.type ≤ 0x0A ∧ f.payload.length ≤ 256)

/-- R423, R425 and R426. -/
def Obligations.FrameAndFlowRows : Prop :=
  (∀ (b : Bytes) (l256 r256 : Nat) (s : State) (type : Nat) (i : Instr),
    (type, i) ∈ [(0x01, Instr.hello b), (0x02, .nestanSync b r256), (0x03, .cal b l256 r256), (0x04, .calResult b), (0x05, .heartbeat b), (0x06, .arrive b),
      (0x07, .release b), (0x08, .abort b), (0x09, .ack b), (0x0A, .data b)] →
    (s.chip.cluster.linkUp = false ∨ s.chip.runs 10 = false → exec i s = .next s) ∧
    (s.chip.cluster.linkUp = true → s.chip.runs 10 = true → parseFrame b = none →
      exec i s = next s { s.chip with cluster := { s.chip.cluster with discarded := satAdd 32 s.chip.cluster.discarded 1 } }) ∧
    (∀ f, parseFrame b = some f → s.chip.cluster.linkUp = true → s.chip.runs 10 = true → f.type ≠ type → exec i s = .next s) ∧
    (∀ f, Hears type b s.chip f → 4 ≤ type → s.chip.heed f = .own → exec i s = next s s.chip.countedFrame) ∧
    (∀ f, Hears type b s.chip f → 4 ≤ type → s.chip.heed f = .pass → exec i s = next s (s.chip.countedFrame.forwardFrame f) ∧
      Handed f true s.chip.countedFrame (s.chip.countedFrame.forwardFrame f))) ∧
  ((∀ (b : Bytes) (f : Frame) (s : State) (c : Chip) (x : Flow), Takes 0x0A b s.chip f → s.chip.taken f = c → f.dst = c.cluster.position → x = c.flow f.src →
    (f.seq = x.expect → c.cluster.inbox.length < 32 → ∃ t, exec (.data b) s = .next t ∧ t.chip.cluster.inbox = c.cluster.inbox ++ [f.payload] ∧
      t.chip.flow f.src = { x with expect := (x.expect + 1) % 65536 } ∧ (∀ p, p ≠ f.src → t.chip.flow p = c.flow p) ∧
      Handed { type := 9, cluster := c.cluster.clusterId.toNat, src := c.cluster.position, dst := f.src, seq := 0, payload := be 2 f.seq } false c t.chip ∧
      Only [.cluster, .out] c t.chip) ∧
    (f.seq = x.expect → 32 ≤ c.cluster.inbox.length → exec (.data b) s = next s c) ∧
    (f.seq ≠ x.expect → (x.expect + 65536 - f.seq) % 65536 ≤ 4 → exec (.data b) s = next s (c.sendTo 9 f.src 0 (be 2 f.seq))) ∧
    (f.seq ≠ x.expect → 4 < (x.expect + 65536 - f.seq) % 65536 → exec (.data b) s = next s c)) ∧
  (∀ (b : Bytes) (f : Frame) (s : State) (c : Chip) (x : Flow), Takes 9 b s.chip f → s.chip.taken f = c → f.dst = c.cluster.position → x = c.flow f.src →
    f.payload.length = 2 →
    (x.waiting.any (·.1 == beNat f.payload) = false → exec (.ack b) s = next s c) ∧
    (x.waiting.any (·.1 == beNat f.payload) = true → ∃ (t : State) (fresh : List (Nat × Bytes)), exec (.ack b) s = .next t ∧
      (t.chip.flow f.src).waiting = (x.waiting.dropWhile fun e => e.1 != beNat f.payload).drop 1 ++ fresh ∧
      fresh.map (·.2) ++ (t.chip.flow f.src).queued = x.queued ∧ (fresh ≠ [] → (t.chip.flow f.src).waiting.length ≤ 4) ∧
      (t.chip.flow f.src).expect = x.expect ∧ t.chip.cluster.inbox = c.cluster.inbox ∧ Only [.cluster, .out] c t.chip)) ∧
  (∀ (p : Byte) (s : State) (x : Flow), x = s.chip.flow p.toNat →
    (x.waiting ≠ [] → s.chip.overMs x.sentAt 1 = true → s.chip.cluster.state ≠ .holdOver → s.chip.cluster.size ≠ 0 → ∃ t, exec (.dataResend p) s = .next t ∧
      t.chip.flow p.toNat = { x with sentAt := s.chip.clk.ticks } ∧ t.chip.cluster.resends = satAdd 32 s.chip.cluster.resends x.waiting.length ∧
      (∀ frames : List Frame, frames = x.waiting.map (fun e => { type := 0x0A, cluster := s.chip.cluster.clusterId.toNat, src := s.chip.cluster.position, dst := p.toNat, seq := e.1, payload := e.2 }) →
        s.chip.transmits = true →
        (s.chip.txIdle = true → t.chip.out = (frames.take 1).map (fun f => Output.nestan f.bytes) ++ s.chip.out ∧
          t.chip.cluster.tx = s.chip.cluster.tx ++ (frames.drop 1).map (fun f => { frame := f })) ∧
        (s.chip.txIdle = false → t.chip.out = s.chip.out ∧ t.chip.cluster.tx = s.chip.cluster.tx ++ frames.map (fun f => { frame := f }))) ∧
      Within [.cluster, .out] s t) ∧
    (x.waiting = [] ∨ s.chip.overMs x.sentAt 1 = false ∨ s.chip.cluster.state = .holdOver ∨ s.chip.cluster.size = 0 → exec (.dataResend p) s = .next s)))

/-- R445, whole: CALIBRATE_NOW is the write to 0x4A00:10, CLUSTER_REJOIN that of 0x02 to 0x4A00:11. -/
def Obligations.RingDownCode : Prop :=
  ∀ (p : Path) (tag : Word16) (s : State) (r : Req) (c : Chip) (sub : Nat) (v : Byte) (i : Instr),
    (sub, v, i) ∈ [(0x10, 1, Instr.calibrateNow p tag), (0x11, 2, .clusterRejoin p tag)] →
    gate p tag 0x4A00 sub [v] (fun _ _ => 0) s.chip = .go r c → c.cluster.size = 0 →
    exec i s = next s (c.complete r.dest 0xA001 [] 0) ∧
    ∃ y, (c.complete r.dest 0xA001 [] 0).host.sessions.find? r.dest.session = some y ∧
      ∃ e ∈ y.ledger, e.tag = r.dest.tag ∧ e.result = 0xA001 ∧ e.inProgress = false

/-- R422, R427 to R429, R435 and R442 to R444. -/
def Obligations.LinkAndRingRows : Prop :=
  (∀ s : State, (s.chip.runs 10 = true → s.chip.clk.refLost = false → ∃ t, exec .linkUp s = .next t ∧ t.chip.cluster.linkUp = true ∧
      t.chip.cluster.state = (if s.chip.cluster.state = .linkDown then .ringOpen else s.chip.cluster.state) ∧ Within [.cluster] s t) ∧
    (s.chip.runs 10 = false ∨ s.chip.clk.refLost = true → exec .linkUp s = .next s) ∧ (s.chip.runs 10 = false → exec .linkDown s = .next s)) ∧
  (∀ s : State, s.chip.runs 10 = true → ∃ t, exec .linkDown s = .next t ∧ t.chip.cluster.linkUp = false ∧ t.chip.cluster.size = 0 ∧
    t.chip.cluster.position = 0xFE ∧
    (s.chip.cluster.state = .formed ∨ s.chip.cluster.state = .holdOver → t.chip.cluster.state = s.chip.cluster.state ∧ t.chip.cluster.flows = s.chip.cluster.flows) ∧
    (s.chip.cluster.state ≠ .formed → s.chip.cluster.state ≠ .holdOver → t.chip.cluster.flows = [] ∧
      t.chip.cluster.state = (if s.chip.cluster.state = .left then .left else .linkDown)) ∧ Within [.cluster] s t) ∧
  (∀ s : State, (s.chip.cluster.linkUp = false ∨ s.chip.transmits = false → exec .helloSend s = .next s) ∧
    (s.chip.cluster.linkUp = true → s.chip.transmits = true → ∃ (t : State) (k : Cluster), exec .helloSend s = .next t ∧
      k = (if s.chip.cluster.size = 0 then s.chip.cluster.takeStored else s.chip.cluster) ∧
      t.chip.cluster = { k with sent := t.chip.cluster.sent, tx := t.chip.cluster.tx, txUntil := t.chip.cluster.txUntil } ∧
      Handed { type := 1, cluster := 0xFF, src := k.position, dst := 0xFF, seq := 0, payload := be 4 s.chip.serial ++ be 1 (if k.state = .left then 0xFF else k.clusterId.toNat) ++ be 1 k.priority.toNat ++ be 1 1 ++ be 4 s.chip.serial ++ be 1 k.priority.toNat ++ be 2 k.hopLength } false s.chip t.chip ∧
      Within [.cluster, .out] s t)) ∧
  (∀ (b : Bytes) (f : Frame) (s : State), Hears 1 b s.chip f → f.payload.length = 14 → beNat (slice f.payload 0 4) = s.chip.serial →
    ∃ t, exec (.hello b) s = .next t ∧ t.chip.cluster.size = byteAt f.payload 6 ∧ Within [.cluster, .out] s t ∧
      (8 < byteAt f.payload 6 → s.chip.cluster.state ≠ .left → t.chip.cluster.state = .refused ∧ t.chip.cluster.cause = 3) ∧
      (byteAt f.payload 6 ≤ 8 → s.chip.cluster.size = byteAt f.payload 6 → s.chip.standing = true → s.chip.cluster.position ≠ 0xFE →
        (∀ m ∈ s.chip.cluster.ring, m.serial = beNat (slice f.payload 7 4) → m.lost = false ∧ m.state ≠ 7) →
        t.chip.cluster.master = beNat (slice f.payload 7 4))) ∧
  (∀ (b : Bytes) (f : Frame) (s : State), Hears 1 b s.chip f → f.payload.length = 14 → beNat (slice f.payload 0 4) ≠ s.chip.serial →
    ∃ (t : State) (q : Bytes), exec (.hello b) s = .next t ∧ q.length = 14 ∧ q.take 6 = f.payload.take 6 ∧ byteAt q 6 = (byteAt f.payload 6 + 1) % 256 ∧
      Handed { f with payload := q } true s.chip t.chip ∧
      (t.chip.cluster.upstream.find? (byteAt f.payload 6)).map (·.serial) = some (beNat (slice f.payload 0 4)) ∧ Within [.cluster, .out] s t) ∧
  (∀ (b : Bytes) (f : Frame) (s : State) (e : Nat × Nat), Takes 4 b s.chip f → (calEntries f.payload).find? (·.1 == s.chip.serial) = some e →
    ∃ t, exec (.calResult b) s = .next t ∧ t.chip.cluster.hopNext = some e.2 ∧
      (s.chip.cluster.position = 0xFE → t.chip.cluster.position = (calEntries f.payload).findIdx (·.1 == s.chip.serial)) ∧
      Within [.cluster, .out] s t) ∧
  (∀ (p : Path) (tag : Word16) (s : State) (r : Req) (c : Chip), gate p tag 0x4A00 0x11 [1] (fun _ _ => 0) s.chip = .go r c →
    ∃ c' : Chip, exec (.clusterLeave p tag) s = next s (c'.complete r.dest 0 [] 0) ∧ c'.cluster.state = .left ∧ c'.cluster.cause = 4 ∧
      c'.cluster.flows = c.cluster.flows ∧ Only [.cluster, .seqs] c c') ∧
  (∀ (p : Path) (tag : Word16) (s : State) (r : Req) (c : Chip), gate p tag 0x4A00 0x11 [2] (fun _ _ => 0) s.chip = .go r c → c.cluster.size ≠ 0 →
    (c.formed = true → exec (.clusterRejoin p tag) s = next s (c.complete r.dest 0 [] 0)) ∧
    (c.formed = false → ∃ c' : Chip, exec (.clusterRejoin p tag) s = next s (c'.complete r.dest 0 [] 0) ∧ c'.cluster.clusterId = c.cluster.clusterStored ∧
      c'.cluster.priority = c.cluster.priorityStored ∧ c'.cluster.hopLength = c.cluster.hopStored ∧ c'.cluster.cause = 0 ∧ (c'.cluster.adopted = false ∨ c'.cluster.state = .formed) ∧
      (c.cluster.clusterStored = 0xFF → c'.cluster.state = .closed) ∧
      (c.cluster.clusterStored ≠ 0xFF → c'.cluster.state = .forming ∨ c'.cluster.state = .formed) ∧ Only [.cluster] c c'))

/-- R421, R432 to R435 and R442. -/
def Obligations.ClusterTimeRows : Prop :=
  (∀ s : State, (s.chip.calibrator = true → s.chip.transmits = true → ∃ t, exec .calibrationStart s = .next t ∧ t.chip.cluster.calibrating = true ∧
      t.chip.cluster.calSums = [] ∧ Within [.cluster, .out] s t ∧
      (∀ i, 1 ≤ i → i < 256 → ∃ x ∈ t.chip.cluster.tx, x.frame.type = 3 ∧ x.forwarded = false ∧ x.due = s.chip.clk.ticks + 4000 * i) ∧
      (∀ c : Chip, c = { s.chip with cluster := { s.chip.cluster with tx := s.chip.cluster.tx.filter fun x => x.forwarded || x.frame.type != 3 } } →
        (c.txIdle = true → t.chip.out.length = s.chip.out.length + 1 ∧ t.chip.cluster.tx.length = c.cluster.tx.length + 255) ∧
        (c.txIdle = false → t.chip.out = s.chip.out ∧ t.chip.cluster.tx.length = c.cluster.tx.length + 256))) ∧
    (s.chip.calibrator = false ∨ s.chip.transmits = false → exec .calibrationStart s = .next s)) ∧
  (∀ (p : Path) (tag : Word16) (s : State) (r : Req) (c : Chip), gate p tag 0x4A00 0x10 [1] (fun _ _ => 0) s.chip = .go r c → c.cluster.size ≠ 0 →
    (c.cluster.position = 0xFE ∨ c.transmits = false → exec (.calibrateNow p tag) s = next s (c.complete r.dest 0 [] 0)) ∧
    (c.cluster.position ≠ 0xFE → c.transmits = true → ∃ c' : Chip, exec (.calibrateNow p tag) s = next s (c'.complete r.dest 0 [] 0) ∧
      c'.cluster.calibrating = true ∧ c'.cluster.calSums = [] ∧ Only [.cluster, .out] c c')) ∧
  (∀ (b : Bytes) (f : Frame) (l256 r256 : Nat) (s : State), Hears 3 b s.chip f → s.chip.heed f ≠ .own →
    ∃ (t : State) (q : Bytes), exec (.cal b l256 r256) s = .next t ∧
      Handed { f with payload := q } true s.chip t.chip ∧
      (∀ k, f.payload.length = 11 + 10 * k → byteAt f.payload 10 = k → k < 255 → byteAt q 10 = k + 1 ∧ q.take 10 = f.payload.take 10 ∧
        q.drop 11 = f.payload.drop 11 ++ be 4 s.chip.serial ++ be 2 s.chip.cluster.hopLength ++ be 4 r256) ∧ Within [.cluster, .out] s t) ∧
  (∀ (b : Bytes) (f : Frame) (l256 r256 : Nat) (s : State), Hears 3 b s.chip f → s.chip.heed f = .own →
    (s.chip.cluster.calibrating = false → exec (.cal b l256 r256) s = next s s.chip.countedFrame) ∧
    (s.chip.cluster.calibrating = true → ∀ sums, sums = s.chip.cluster.calSums ++ [l256 - ((calFrameEntries f.payload).map (·.2.2)).sum] →
      (sums.length < 256 → ∃ t, exec (.cal b l256 r256) s = .next t ∧ t.chip.cluster.calSums = sums ∧ t.chip.cluster.calibrating = true ∧ Within [.cluster] s t) ∧
      (256 ≤ sums.length → ∃ t, exec (.cal b l256 r256) s = .next t ∧ t.chip.cluster.calibrating = false ∧ t.chip.cluster.calSums = [] ∧
        t.chip.cluster.wire = (2 * sums.sum + 256) / 512 ∧ t.chip.cluster.hopNext.isSome = true ∧ Within [.cluster, .out] s t))) ∧
  (∀ s : State, (s.chip.elected = false ∨ s.chip.transmits = false → exec .nestanSyncSend s = .next s) ∧
    (s.chip.elected = true → s.chip.transmits = true → ∀ u, u = s.chip.takeHop.tryForm.compareMembers → ∃ (t : State) (flags : Nat), exec .nestanSyncSend s = .next t ∧
      t.chip.cluster.syncSeq = (s.chip.cluster.syncSeq + 1) % 65536 ∧ flags.testBit 0 = !u.cluster.timeBad ∧ flags.testBit 1 = u.formed ∧
      flags.testBit 2 = u.cluster.digestBad ∧ u.clk.action = s.chip.clk.action ∧
      (u.cluster.resendArrive = false ∨ u.formed = false → Handed { type := 2, cluster := s.chip.cluster.clusterId.toNat, src := s.chip.cluster.position, dst := 0xFF, seq := 0, payload := frameStamp s.chip.clk.action 1 ++ be 8 0 ++ be 1 flags ++ be 2 s.chip.cluster.syncSeq } false u t.chip))) ∧
  (∀ (b : Bytes) (f : Frame) (r256 : Nat) (s : State), Hears 2 b s.chip f → s.chip.heed f = .own → ∃ t, exec (.nestanSync b r256) s = .next t ∧
    t.chip.cluster.lastSync = s.chip.clk.ticks ∧ t.chip.clk = s.chip.clk ∧ t.chip.out = s.chip.out ∧ Within [.cluster] s t) ∧
  (∀ (b : Bytes) (f : Frame) (r256 : Nat) (s : State), Hears 2 b s.chip f → s.chip.heed f ≠ .own → s.chip.ofCluster f = false ∨ s.chip.cluster.state = .left →
    ∃ (t : State) (q : Bytes), exec (.nestanSync b r256) s = .next t ∧
      (18 ≤ f.payload.length → q.take 10 = f.payload.take 10 ∧ q.drop 18 = f.payload.drop 18 ∧ beNat (slice q 10 8) =
        unsigned 64 (signed 64 (beNat (slice f.payload 10 8)) + (s.chip.cluster.hopNext.getD s.chip.cluster.hopDelay : Int) + r256)) ∧
      t.chip.clk = s.chip.clk ∧ Handed { f with payload := q } true s.chip t.chip ∧
      Within [.cluster, .out] s t) ∧
  (∀ (b : Bytes) (f : Frame) (r256 : Nat) (s : State) (origin : Nat) (offset : Int), Hears 2 b s.chip f → s.chip.heed f ≠ .own → s.chip.ofCluster f = true →
    s.chip.cluster.state ≠ .left → (byteAt f.payload 18).testBit 1 = true → s.chip.agreesWithMaster = true → s.chip.cluster.cause ≠ 3 → s.chip.runs 6 = true →
    s.chip.cluster.resendArrive = false →
    origin = ((stampTime f.payload : Int) + (signed 64 (beNat (slice f.payload 10 8)) + (s.chip.cluster.hopNext.getD s.chip.cluster.hopDelay : Int))).toNat →
    offset = (s.chip.clk.action : Int) - origin →
    ∃ t, exec (.nestanSync b r256) s = .next t ∧ t.chip.cluster.state = .formed ∧ t.chip.cluster.offset = offset ∧ t.chip.cluster.lastSync = s.chip.clk.ticks ∧
      (s.chip.cluster.adopted = false ∨ 256000 < offset.natAbs → t.chip.clk.action = origin ∧ t.chip.cluster.adopted = true ∧
        t.chip.clk.generation = (s.chip.clk.generation + 1) % 65536) ∧
      (s.chip.cluster.adopted = true → offset.natAbs ≤ 256000 → 256 < offset.natAbs → t.chip.cluster.slewing = true ∧ t.chip.cluster.adjust = -offset ∧
        t.chip.clk.action = s.chip.clk.action) ∧
      (s.chip.cluster.adopted = true → offset.natAbs ≤ 256 → t.chip.cluster.slewing = false ∧ t.chip.cluster.adjust = -offset ∧ t.chip.clk.action = s.chip.clk.action ∧
        t.chip.cluster.goodSyncs = min 16 (s.chip.cluster.goodSyncs + 1)) ∧ Within [.cluster, .out, .seqs, .clk] s t) ∧
  (∀ c : Chip, c.cluster.lastSync < c.clk.ticks → (c.clk.ticks - c.cluster.lastSync) % 400 = 0 → c.cluster.slewing = false →
    (0 < c.cluster.adjust → c.adjustStep.clk.action = c.clk.action + 1 ∧ c.adjustStep.cluster.adjust = c.cluster.adjust - 1) ∧
    (c.cluster.adjust < 0 → c.adjustStep.clk.action = c.clk.action - 1 ∧ c.adjustStep.cluster.adjust = c.cluster.adjust + 1)) ∧
  (∀ (t flags : Nat) (c : Chip), (flags.testBit 1 = true ∧ c.cluster.state ≠ .left ∧ c.agreesWithMaster = true ∧ c.cluster.cause ≠ 3 ∨ c.formed = true) → c.runs 6 = false →
    (c.takeSync t flags).clk.ch18 = (if c.clk.ch18 < 4 then c.clk.ch18 + 1 else c.clk.ch18) ∧
    (c.takeSync t flags).clk.ch18Refused = (c.clk.ch18Refused || decide (4 ≤ c.clk.ch18)) ∧ (c.takeSync t flags).clk.action = c.clk.action) ∧
  (∀ s : State, (s.chip.formed = true → s.chip.overMs s.chip.cluster.lastSync 3 = true → ∃ t, exec .syncMissed s = .next t ∧
      t.chip.cluster.state = .holdOver ∧ t.chip.cluster.holdSince = s.chip.clk.ticks ∧ t.chip.cluster.size = s.chip.cluster.size ∧
      t.chip.cluster.position = s.chip.cluster.position ∧ t.chip.cluster.flows = s.chip.cluster.flows ∧
      Within [.cluster, .seqs] s t) ∧
    (s.chip.formed = false ∨ s.chip.overMs s.chip.cluster.lastSync 3 = false → exec .syncMissed s = .next s)) ∧
  (∀ s : State, (s.chip.cluster.state = .holdOver → s.chip.overMs s.chip.cluster.holdSince 100 = true → ∃ t, exec .holdOverEnd s = .next t ∧
      t.chip.cluster.flows = [] ∧ t.chip.cluster.state ≠ .holdOver ∧ t.chip.cluster.state ≠ .formed ∧ t.chip.clk = s.chip.clk ∧ Within [.cluster] s t) ∧
    (s.chip.cluster.state ≠ .holdOver ∨ s.chip.overMs s.chip.cluster.holdSince 100 = false → exec .holdOverEnd s = .next s)) ∧
  (∀ (v : Bool) (s : State), ∃ t, exec (.referenceDisagreement v) s = .next t ∧ t.chip.clk.refDisagrees = v ∧ (v = true → t.chip.quality = 2) ∧
    Within [.clk, .cluster, .seqs, .recorder] s t)

/-- R426 and R429 to R432. -/
def Obligations.MembershipRows : Prop :=
  (∀ s : State, (s.chip.cluster.position = 0xFE → exec .nestanHeartbeatSend s = .next s) ∧
    (s.chip.cluster.position ≠ 0xFE → s.chip.transmits = true → ∃ t, exec .nestanHeartbeatSend s = .next t ∧ s.chip.heartbeat.length = 82 ∧
      Handed { type := 5, cluster := s.chip.cluster.clusterId.toNat, src := s.chip.cluster.position, dst := 0xFF, seq := 0, payload := s.chip.heartbeat } false s.chip t.chip ∧
      t.chip.cluster.beatSent = s.chip.beat ∧
      Within [.cluster, .out] s t)) ∧
  (∀ (b : Bytes) (f : Frame) (s : State) (m : Member), Takes 5 b s.chip f → s.chip.ofCluster f = true → f.payload.length = 82 →
    s.chip.cluster.ring[f.src]? = some m → m.serial = beNat (slice f.payload 0 4) →
    ∃ (t : State) (n : Member), exec (.heartbeat b) s = .next t ∧ t.chip.cluster.ring[f.src]? = some n ∧ n.serial = m.serial ∧ n.heard = true ∧ n.lost = false ∧
      n.lastAt = s.chip.clk.ticks ∧ n.digest = slice f.payload 16 32 ∧ n.armDigest = slice f.payload 48 32 ∧ n.barriers = beNat (slice f.payload 10 2) ∧
      n.offset = signed 32 (beNat (slice f.payload 12 4)) ∧
      (∀ p, p ≠ f.src → t.chip.cluster.ring[p]? = s.chip.cluster.ring[p]?) ∧
      (s.chip.formed = false → s.chip.standing = true → s.chip.cluster.state ≠ .holdOver → s.chip.cluster.flagFormed = false → byteAt f.payload 6 ≠ 7 →
        (slice f.payload 16 32 ≠ s.chip.boot.digest → t.chip.cluster.state = .refused ∧ t.chip.cluster.cause = 1) ∧
        (slice f.payload 16 32 = s.chip.boot.digest → byteAt f.payload 7 ≠ s.chip.life.state.code → t.chip.cluster.state = .refused ∧ t.chip.cluster.cause = 2))) ∧
  (∀ (p : Byte) (s : State) (m : Member), s.chip.cluster.ring[p.toNat]? = some m → p.toNat ≠ s.chip.cluster.position → m.heard = true → m.lost = false →
    (m.cluster ≠ s.chip.cluster.clusterId.toNat → s.chip.overMs m.lastAt 30 = true → ∃ t, exec (.memberLost p) s = .next t ∧
      t.chip.cluster.ring[p.toNat]? = some { m with lost := true } ∧ t.chip.cluster.flows.find? p.toNat = none ∧ Within [.cluster] s t) ∧
    (m.cluster = s.chip.cluster.clusterId.toNat → s.chip.overMs m.lastAt 30 = true → ∃ t, exec (.memberLost p) s = .next t ∧ t.chip.cluster.ring[p.toNat]? = some { m with lost := true } ∧
      t.chip.cluster.flows.find? p.toNat = none ∧ ((s.chip.cluster.flows.find? p.toNat).isSome = true → m.serial ∈ t.chip.cluster.flowsEnded) ∧ (∀ q, q ≠ p.toNat → t.chip.cluster.ring[q]? = s.chip.cluster.ring[q]? ∧
        t.chip.cluster.flows.find? q = s.chip.cluster.flows.find? q)) ∧
    (s.chip.overMs m.lastAt 30 = false → exec (.memberLost p) s = .next s)) ∧
  (∀ s : State, s.chip.standing = true → s.chip.cluster.master = s.chip.serial → s.chip.cluster.state = .refused →
    s.chip.cluster.cause = 1 ∨ s.chip.cluster.cause = 2 → ∃ t, exec .formationRetry s = .next t ∧ Within [.cluster] s t ∧
      (∀ p ∈ s.chip.peers, ∀ m, s.chip.cluster.ring[p]? = some m → m.heard = true → s.chip.cluster.flagFormed = false →
        m.digest ≠ s.chip.boot.digest ∨ m.life ≠ BitVec.ofNat 8 s.chip.life.state.code →
        t.chip.cluster.state = .refused ∧ (t.chip.cluster.cause = 1 ∨ t.chip.cluster.cause = 2)) ∧
      ((∀ p ∈ s.chip.peers, ∀ m, s.chip.cluster.ring[p]? = some m → m.heard = true → m.digest = s.chip.boot.digest ∧ m.life.toNat = s.chip.life.state.code) →
        t.chip.cluster.cause = 0 ∧ (t.chip.cluster.state = .forming ∨ t.chip.cluster.state = .formed))) ∧
  (∀ s : State, s.chip.cluster.state ≠ .refused → exec .formationRetry s = .next s)

/-- R438 to R441. -/
def Obligations.ClusterBarrierRows : Prop :=
  (∀ (b : Bytes) (f : Frame) (s : State) (c : Chip) (n : Nat), Takes 6 b s.chip f → s.chip.taken f = c → n = byteAt f.payload 0 →
    (c.ofCluster f = false ∨ c.isMaster = false ∨ f.payload.length ≠ 36 ∨ n < 16 ∨ 31 < n ∨ beNat (slice f.payload 1 2) ≠ (c.barrier n).generation →
      exec (.arrive b) s = next s c) ∧
    (∀ u : Chip, c.ofCluster f = true → c.isMaster = true → f.payload.length = 36 → 16 ≤ n → n ≤ 31 → beNat (slice f.payload 1 2) = (c.barrier n).generation →
      u = c.modBarrier n (fun x => { x with arrivals := x.arrivals.filter (·.position != f.src) ++ [{ position := f.src, digest := slice f.payload 4 32, withdrawn := byteAt f.payload 3 % 2 = 1 }], firstAt := if x.arrivals = [] then c.clk.ticks else x.firstAt, lastAt := c.clk.action }) →
      (u.cluster.size = 0 ∨ u.barrierFull n = false → exec (.arrive b) s = next s u) ∧
      (u.cluster.size ≠ 0 → u.barrierFull n = true → digestsAgree (u.barrier n).arrivals = false ∨ u.cluster.digestBad = true → ∃ t, exec (.arrive b) s = .next t ∧
        (t.chip.barrier n).held = true ∧ (t.chip.barrier n).generation = (u.barrier n).generation ∧ Only [.cluster, .recorder] u t.chip) ∧
      (u.cluster.size ≠ 0 → u.barrierFull n = true → digestsAgree (u.barrier n).arrivals = true → u.cluster.digestBad = false → u.cluster.timeBad = true →
        exec (.arrive b) s = next s (u.modBarrier n fun x => { x with waited := true })) ∧
      (u.cluster.size ≠ 0 → u.barrierFull n = true → digestsAgree (u.barrier n).arrivals = true → u.cluster.digestBad = false → u.cluster.timeBad = false → ∃ t, exec (.arrive b) s = .next t ∧
        t.chip.barrier n = { generation := ((u.barrier n).generation + 1) % 65536 } ∧ Only [.cluster, .out, .seqs, .lanes] u t.chip ∧
        Handed { type := 7, cluster := u.cluster.clusterId.toNat, src := u.cluster.position, dst := 0xFF, seq := 0, payload := be 1 n ++ be 2 (u.barrier n).generation ++ frameStamp (u.clk.action + 256000 * u.cluster.releaseLead) 1 } false u t.chip ∧
        (∀ q < 16, (u.sq q).barrier = some n → t.chip.sq q = (u.resume q (100 * (u.clk.action + 256000 * u.cluster.releaseLead))).sq q) ∧
        (∀ q, (u.sq q).barrier ≠ some n → t.chip.sq q = u.sq q)))) ∧
  (∀ (b : Bytes) (f : Frame) (s : State) (n : Nat), Takes 7 b s.chip f → n = byteAt f.payload 0 →
    (s.chip.formed = false → exec (.release b) s = next s (s.chip.taken f)) ∧
    (s.chip.ofCluster f = true → s.chip.formed = true → f.payload.length = 13 → 16 ≤ n → n ≤ 31 → ∃ (t : State) (due : Nat), exec (.release b) s = .next t ∧
      due = max (100 * stampTime (slice f.payload 3 10)) (s.chip.nowFine + ns60) ∧
      t.chip.barrier n = { generation := (beNat (slice f.payload 1 2) + 1) % 65536 } ∧
      (∀ q < 16, (s.chip.sq q).barrier = some n → t.chip.sq q = (s.chip.resume q due).sq q ∧ (t.chip.sq q).state = .running ∧ (t.chip.sq q).barrier = none) ∧
      (∀ q, (s.chip.sq q).barrier ≠ some n → t.chip.sq q = s.chip.sq q) ∧ Within [.cluster, .out, .seqs, .lanes, .recorder] s t)) ∧
  (∀ (b : Bytes) (f : Frame) (s : State) (n : Nat), Takes 8 b s.chip f → n = byteAt f.payload 0 →
    (s.chip.formed = false → exec (.abort b) s = next s (s.chip.taken f)) ∧
    (s.chip.ofCluster f = true → s.chip.formed = true → f.payload.length = 4 → 16 ≤ n → n ≤ 31 → ∃ t, exec (.abort b) s = .next t ∧
      (∀ q < 16, (t.chip.sq q).barrier ≠ some n ∧ ((s.chip.sq q).barrier = some n → (t.chip.sq q).endCause = 2)))) ∧
  (∀ (k : Fin 16) (s : State),
    (s.chip.isMaster = true → (s.chip.barrier (16 + k.val)).arrivals ≠ [] →
      s.chip.overMs (s.chip.barrier (16 + k.val)).firstAt s.chip.cluster.barrierTimeout = true → ∃ t, exec (.barrierTimeout k) s = .next t ∧
        ∀ q < 16, (t.chip.sq q).barrier ≠ some (16 + k.val) ∧ ((s.chip.sq q).barrier = some (16 + k.val) → (t.chip.sq q).endCause = 2)) ∧
    (s.chip.formed = false → s.chip.cluster.state ≠ .holdOver → (s.chip.barrier (16 + k.val)).localArrived = true →
      s.chip.overMs (s.chip.barrier (16 + k.val)).localAt s.chip.cluster.barrierTimeout = true → ∃ t, exec (.barrierTimeout k) s = .next t ∧
        ∀ q < 16, (t.chip.sq q).barrier ≠ some (16 + k.val) ∧ ((s.chip.sq q).barrier = some (16 + k.val) → (t.chip.sq q).endCause = 2)) ∧
    (s.chip.formed = true → s.chip.isMaster = false → exec (.barrierTimeout k) s = .next s) ∧
    (s.chip.isMaster = true → s.chip.overMs (s.chip.barrier (16 + k.val)).firstAt s.chip.cluster.barrierTimeout = false → exec (.barrierTimeout k) s = .next s) ∧
    (s.chip.isMaster = false → s.chip.overMs (s.chip.barrier (16 + k.val)).localAt s.chip.cluster.barrierTimeout = false → exec (.barrierTimeout k) s = .next s))

/-! ## The conductor's rights, the watchdog and the background activities (chapter 18) -/

/-- R20, R164, R448 and R451 to R455. -/
def Obligations.WatchdogRows : Prop :=
  (∀ (m : Island) (k : AccessKind) (a : Word32) (len : Nat) (s : State),
    (firstForbidden s.chip.mapRights k a.toNat len = none → exec (.conductorAccessFault m none k a len) s = .next s) ∧
    (∀ x, firstForbidden s.chip.mapRights k a.toNat len = some x →
      exec (.conductorAccessFault m none k a len) s = next s (s.chip.accessRefused (islandNo m) x 0 (kindCode k)))) ∧
  (∀ (m : Island) (p : Fin 8) (k : AccessKind) (a : Word32) (len : Nat) (s : State),
    ((s.chip.part p.val).running = false ∨ s.chip.runs 2 = false ∨ firstForbidden (s.chip.partitionRights p.val) k a.toNat len = none →
      exec (.conductorAccessFault m (some p) k a len) s = .next s) ∧
    ((s.chip.part p.val).running = true → s.chip.runs 2 = true → firstForbidden (s.chip.partitionRights p.val) k a.toNat len ≠ none →
      ∃ t, exec (.conductorAccessFault m (some p) k a len) s = .next t ∧ (t.chip.part p.val).running = false ∧ p.val ∈ t.chip.watchdog.stopped ∧
        (∀ q, q ≠ p.val → t.chip.part q = s.chip.part q) ∧ t.chip.ci.tcsram = s.chip.ci.tcsram ∧ Within [.ci, .watchdog, .recorder] s t)) ∧
  (∀ (p : Fin 8) (i : Fin 16) (v : Word32) (s : State),
    ((s.chip.part p.val).running = false ∨ s.chip.runs 2 = false → exec (.watchdogCheckIn p i v) s = .next s) ∧
    ((s.chip.part p.val).running = true → s.chip.runs 2 = true → s.chip.slotOwner i.val ≠ some p.val → ∃ t, exec (.watchdogCheckIn p i v) s = .next t ∧
      (t.chip.part p.val).running = false ∧ t.chip.watchdog.slots.get {} i.val = s.chip.watchdog.slots.get {} i.val ∧ Within [.ci, .watchdog, .recorder] s t) ∧
    ((s.chip.part p.val).running = true → s.chip.runs 2 = true → s.chip.slotOwner i.val = some p.val →
      ∀ x, x = s.chip.watchdog.slots.get {} i.val → ∃ (t : State) (y : Slot), exec (.watchdogCheckIn p i v) s = .next t ∧
        t.chip.watchdog.slots.get {} i.val = y ∧ y.owner = x.owner ∧
        (∀ j, j ≠ i.val → t.chip.watchdog.slots.get {} j = s.chip.watchdog.slots.get {} j) ∧
        (v.toNat ≠ s.chip.watchdog.number % 65536 → y = { x with bad := true }) ∧
        (v.toNat = s.chip.watchdog.number % 65536 → y.state = (if x.state = .grace then .active else x.state)) ∧
        (v.toNat = s.chip.watchdog.number % 65536 → s.chip.inClosed = true → y.bad = true ∧ y.early = true ∧ y.good = x.good) ∧
        (v.toNat = s.chip.watchdog.number % 65536 → s.chip.inClosed = false → y.good = true ∧ y.bad = x.bad ∧ y.early = x.early) ∧
        Within [.ci, .watchdog] s t)) ∧
  (∀ (s : State) (parts : List Nat), (s.chip.watching = false ∨ s.chip.overMs s.chip.watchdog.startAt s.chip.watchdog.period = false →
      exec .watchdogPeriodEnd s = .next s) ∧
    (s.chip.watching = true → s.chip.overMs s.chip.watchdog.startAt s.chip.watchdog.period = true →
      parts = (List.range 8).filter (fun p => s.chip.watchdog.stopped.contains p || s.chip.failedSlots.any fun i => s.chip.slotOwner i == some p) →
      (parts = [] → ∃ t, exec .watchdogPeriodEnd s = .next t ∧ t.chip.watchdog.number = (s.chip.watchdog.number + 1) % 2 ^ 32 ∧
        t.chip.watchdog.startAt = s.chip.watchdog.startAt + 400000 * s.chip.watchdog.period ∧ t.chip.watchdog.period = s.chip.watchdog.periodStaged ∧
        t.chip.watchdog.closed = s.chip.watchdog.closedStaged ∧ Within [.watchdog] s t) ∧
      (parts ≠ [] → (∀ p ∈ parts, ∀ k, s.chip.watchdog.strikes.find? p = some k → s.chip.strikeHolds k = false) → ∃ t, exec .watchdogPeriodEnd s = .next t ∧
        t.chip.watchdog.number = (s.chip.watchdog.number + 1) % 2 ^ 32 ∧
        t.chip.watchdog.lastEsc = le 1 1 ++ le 1 (maskOf parts) ++ le 2 (maskOf s.chip.failedSlots) ∧
        (∀ p ∈ parts, (t.chip.part p).running = false ∧ (t.chip.part p).restarting = true ∧ t.chip.watchdog.strikes.find? p = some s.chip.clk.ticks) ∧
        (∀ p, p ∉ parts → t.chip.part p = s.chip.part p) ∧ Within [.ci, .watchdog, .recorder] s t) ∧
      (∀ p ∈ parts, ∀ k, s.chip.watchdog.strikes.find? p = some k → s.chip.strikeHolds k = true → s.chip.watchdog.islandStrikes.any s.chip.strikeHolds = false →
        ∃ t, exec .watchdogPeriodEnd s = .next t ∧ (t.chip.reseatRun 2 0xFF).isSome = true ∧ s.chip.clk.ticks ∈ t.chip.watchdog.islandStrikes ∧
          t.chip.watchdog.lastEsc = le 1 2 ++ le 1 (maskOf parts) ++ le 2 (maskOf s.chip.failedSlots) ∧ Within [.watchdog, .recorder, .reseat, .islands] s t) ∧
      (∀ p ∈ parts, ∀ k, s.chip.watchdog.strikes.find? p = some k → s.chip.strikeHolds k = true → s.chip.watchdog.islandStrikes.any s.chip.strikeHolds = true →
        ∃ t, exec .watchdogPeriodEnd s = .next t ∧ Restarted s.chip t.chip))) ∧
  (∀ (p : Fin 8) (s : State), ((s.chip.part p.val).restarting = false ∨ s.chip.runs 2 = false → exec (.partitionRestartComplete p) s = .next s) ∧
    ((s.chip.part p.val).restarting = true → s.chip.runs 2 = true → s.chip.codeOk p.val = true → s.chip.reseatRun 2 p.val = none →
      ∃ t, exec (.partitionRestartComplete p) s = .next t ∧ (t.chip.part p.val).running = true ∧ (t.chip.part p.val).restarting = false ∧
        (∀ q, q ≠ p.val → t.chip.part q = s.chip.part q) ∧ Within [.ci, .watchdog] s t) ∧
    ((s.chip.part p.val).restarting = true → s.chip.runs 2 = true → s.chip.codeOk p.val = false →
      (∀ r, s.chip.reseatRun 2 0xFF = some r → r.phase = .draining) → ∃ t, exec (.partitionRestartComplete p) s = .next t ∧
        (∀ q, (t.chip.part q).running = false) ∧ s.chip.clk.ticks ∈ t.chip.watchdog.islandStrikes)) ∧
  (∀ s : State, (s.chip.runs 2 = false → s.chip.island 2 ≠ .reseatPending → exec .lockstepMismatch s = .next s) ∧
    (s.chip.runs 2 = true ∨ s.chip.island 2 = .reseatPending → (∀ r, s.chip.reseatRun 2 0xFF = some r → r.phase = .draining) →
      ∃ t, exec .lockstepMismatch s = .next t ∧ (∀ q, (t.chip.part q).running = false) ∧ s.chip.clk.ticks ∈ t.chip.watchdog.islandStrikes))

/-- R367, R457 to R459, R461, R462 and R521. -/
def Obligations.BackgroundRows : Prop :=
  (∀ (i : Island) (a : Word32) (s : State), exec (.scrubCorrected (.sram i a) false) s = .next s ∧ (s.chip.runs 2 = false → exec (.scrubCorrected (.flash a) false) s = .next s) ∧
    (s.chip.runs 2 = true → ∃ t, exec (.scrubCorrected (.flash a) false) s = .next t ∧ t.chip.boot = { s.chip.boot with highestErase := t.chip.boot.highestErase } ∧
      (t.chip.boot.highestErase = s.chip.boot.highestErase % 2 ^ 32 ∨ t.chip.boot.highestErase = (s.chip.boot.highestErase + 1) % 2 ^ 32) ∧ Within [.boot, .free] s t) ∧
    (s.chip.runs (islandNo i) = false → exec (.scrubCorrected (.sram i a) true) s = next s (s.chip.record 0x0006 (islandNo i) (le 4 a.toNat))) ∧
    (s.chip.runs (islandNo i) = true → ∃ t, exec (.scrubCorrected (.sram i a) true) s = .next t ∧
      (t.chip.reseat.runs.any fun r => r.failed && r.island == islandNo i && r.unit == 0xFF) = true) ∧
    (flashOffset a.toNat < dataArea → ∃ t, exec (.scrubCorrected (.flash a) true) s = .next t ∧ t.chip.recorder = (s.chip.record 0x2002 2 (le 4 a.toNat ++ [1])).recorder ∧
      flashOffset a.toNat / 4096 ∈ t.chip.boot.badPages ∧ t.chip.boot = { s.chip.boot with badPages := t.chip.boot.badPages } ∧ Within [.recorder, .boot] s t) ∧
    (dataArea ≤ flashOffset a.toNat → ∃ t, exec (.scrubCorrected (.flash a) true) s = .next t ∧ flashOffset a.toNat / 4096 ∈ t.chip.boot.badPages ∧
      Within [.recorder, .boot, .free, .keys] s t)) ∧
  (∀ (c : Fin 2) (off : Nat) (bad : Bool) (s : State),
    ((s.chip.dram.inService.getLsbD c.val && s.chip.dramServes) = false → exec (.scrubCorrected (.dram c off) bad) s = .next s) ∧
    ((s.chip.dram.inService.getLsbD c.val && s.chip.dramServes) = true → s.chip.dram.channels.length = 2 →
      ∃ t, exec (.scrubCorrected (.dram c off) bad) s = .next t ∧
        (bad = false → (t.chip.dramCh c.val).corrected = satAdd 32 (s.chip.dramCh c.val).corrected 1 ∧ Within [.dram] s t) ∧
        (bad = true → (t.chip.dramCh c.val).uncorrectable = satAdd 32 (s.chip.dramCh c.val).uncorrectable 1 ∧ (t.chip.dramCh c.val).lastBad = off ∧
          Within [.dram, .recorder] s t) ∧ t.chip.dram.bytes = s.chip.dram.bytes)) ∧
  (∀ (n : Fin 8) (v : Bool) (s : State),
    (s.chip.suspended n.val = true ∨ s.chip.canBe n.val v = false ∨ ((s.chip.background.activities.get {} n.val).state == .behind) = v → exec (.activityBehind n v) s = .next s) ∧
    (s.chip.suspended n.val = false → s.chip.canBe n.val v = true → ((s.chip.background.activities.get {} n.val).state == .behind) = !v → ∃ t, exec (.activityBehind n v) s = .next t ∧
      (t.chip.background.activities.get {} n.val).state = (if v then .behind else .running) ∧
      (∀ m, m ≠ n.val → t.chip.background.activities.get {} m = s.chip.background.activities.get {} m) ∧ Within [.background, .recorder] s t)) ∧
  (∀ (c : Chip) (n : Nat), n ≠ 1 → c.runs (activityIsland n) = false → c.activityState n = .suspended) ∧
  (∀ c : Chip, (∀ i, c.runs i = false) → c.activityState 1 = .suspended) ∧
  (∀ s : State, (s.chip.runs 2 = false ∨ 16 ≤ s.chip.boot.freeBlocks → exec .flashReclaim s = .next s) ∧
    (s.chip.runs 2 = true → s.chip.boot.freeBlocks < 16 → ∃ t, exec .flashReclaim s = .next t ∧ t.chip.boot.freeBlocks = s.chip.boot.freeBlocks + 1 ∧
      t.chip.boot.flash = s.chip.boot.flash ∧ (t.chip.boot.highestErase = s.chip.boot.highestErase % 2 ^ 32 ∨ t.chip.boot.highestErase = (s.chip.boot.highestErase + 1) % 2 ^ 32) ∧
      Within [.boot, .free, .background] s t)) ∧
  (∀ (x : Telemetry) (s : State) (temps : List Int), temps = (List.range 5).map (fun i => x.temps.getD i noReading) → ∃ t, exec (.telemetrySample x) s = .next t ∧
    t.chip.background.temps = temps ∧ (∀ i < 7, t.chip.background.rails.getD i 0 = x.rails.getD i 0) ∧
    (highest temps ≠ noReading → 1000 ≤ highest temps → t.chip.background.warning = true) ∧
    (highest temps < 950 → t.chip.background.warning = false) ∧
    (highest temps = noReading ∨ (950 ≤ highest temps ∧ highest temps < 1000) → t.chip.background.warning = s.chip.background.warning) ∧
    Within [.background, .recorder, .host, .out] s t)

/-! ## The recorder and the trace (chapter 19) -/

/-- R466, R468 to R471 and R473. -/
def Obligations.RecorderRows : Prop :=
  (∀ (torn : Bool) (s : State), s.chip.recorder.queue = [] → exec (.recordCommit ⟨torn, false⟩) s = .next s) ∧
  (∀ (torn : Bool) (s : State) (x : RecordIn) (rest : List RecordIn), s.chip.recorder.queue = x :: rest → ∃ (t : State) (more : List RecordIn),
    exec (.recordCommit ⟨torn, false⟩) s = .next t ∧ t.chip.recorder.queue = rest ++ more ∧ more.length ≤ 1 ∧ t.chip.recorder.lost = satAdd 32 s.chip.recorder.lost x.lost ∧
    Only [.recorder] s.chip t.chip ∧ t.pending = s.pending ∧
    (s.array.next < 65472 ∨ (protectedCode x.code = true ∧ s.array.next < 65536) → t.array.next = s.array.next + 1 ∧
      (torn = true → t.array.voids = s.array.voids ++ [s.array.next] ∧ t.array.slots = s.array.slots) ∧
      (torn = false → t.array.voids = s.array.voids ∧ t.array.slots.find? s.array.next = some (recordBytes s.array.next s.chip.us x) ∧
        (∀ n, n ≠ s.array.next → t.array.slots.find? n = s.array.slots.find? n))) ∧
    (65472 ≤ s.array.next → protectedCode x.code = true → 65536 ≤ s.array.next → t.array = { s.array with notWritten := satAdd 32 s.array.notWritten 1 }) ∧
    (65472 ≤ s.array.next → protectedCode x.code = false → s.array.fullSaid = true → t.array = { s.array with notWritten := satAdd 32 s.array.notWritten 1 }) ∧
    (65472 ≤ s.array.next → s.array.next < 65536 → protectedCode x.code = false → s.array.fullSaid = false → t.array.fullSaid = true ∧
      t.array.next = s.array.next + 1 ∧ t.array.slots.find? s.array.next = some (recordBytes s.array.next s.chip.us fullRecord) ∧
      t.array.notWritten = satAdd 32 s.array.notWritten 1)) ∧
  (∀ (torn : Bool) (s : State), (s.chip.runs 7 = false → exec (.recordCommit ⟨torn, true⟩) s = exec (.recordCommit ⟨torn, false⟩) s) ∧
    (s.chip.runs 7 = true → ∃ t, exec (.recordCommit ⟨torn, true⟩) s = .next t ∧ (∀ x, t.chip.islands[7]? = some x → x = .faulted))) ∧
  (∀ (k : Fin 6) (s : State),
    (∀ m, s.chip.recorder.lastSummary.find? (k.val + 1) = some m → m + 3600000000 ≤ s.chip.us → s.chip.recorder.counters.get 0 (k.val + 1) ≠ 0 →
      ∃ t, exec (.overloadSummaryDue k) s = .next t ∧ t.chip.recorder.counters.get 0 (k.val + 1) = 0 ∧
        t.chip.recorder.lastSummary.find? (k.val + 1) = some s.chip.us ∧
        (∀ j, j ≠ k.val + 1 → t.chip.recorder.counters.get 0 j = s.chip.recorder.counters.get 0 j) ∧ Within [.recorder] s t) ∧
    (s.chip.recorder.lastSummary.find? (k.val + 1) = none ∨ s.chip.recorder.counters.get 0 (k.val + 1) = 0 → exec (.overloadSummaryDue k) s = .next s) ∧
    (∀ m, s.chip.recorder.lastSummary.find? (k.val + 1) = some m → s.chip.us < m + 3600000000 → exec (.overloadSummaryDue k) s = .next s)) ∧
  (∀ (p : Path) (s : State) (r : Req) (c : Chip) (pos n : Nat), ReadReaches p 0 0x2900 3 s.chip r c → pos = c.sel r.dest.session 0x2900 2 →
    n = min 64 (s.array.next - pos) →
    exec (.recorderRead p) s = next s (Chip.answerRead r.dest (.data ((List.range n).flatMap fun i => s.array.slots.get [] (pos + i))) (c.setSel r.dest.session 0x2900 2 (pos + n))))

/-- R477 to R481. -/
def Obligations.TraceRows : Prop :=
  (∀ (p : Fin 8) (ch : Fin 64) (v : Word32) (s : State), s.chip.traceOn 2 = true → (s.chip.part p.val).running = true →
    ∃ t, exec (.traceSoftwareWrite p ch v) s = .next t ∧ Within [.ci] s t) ∧
  (∀ (p : Fin 8) (k : TraceKind) (info : Byte) (v : Word32) (n : Nat) (s : State), s.chip.traceOn (traceKindPacket k).2 = true →
    (s.chip.part p.val).running = true → ∃ t, exec (.tracedExceptionOrBranch p k info v n) s = .next t ∧ Within [.ci] s t) ∧
  (∀ (p : Fin 8) (ch : Fin 64) (k : TraceKind) (info : Byte) (v : Word32) (n : Nat) (s : State) (i : Instr) (bit type inf cyc cap : Nat),
    (i, bit, type, inf, cyc) ∈ [(Instr.traceSoftwareWrite p ch v, 2, 0x06, ch.val, max (s.chip.part p.val).lastCycle s.chip.cycles),
      (.tracedExceptionOrBranch p k info v n, (traceKindPacket k).2, (traceKindPacket k).1, (if k = .exception then info.toNat else 0), (s.chip.part p.val).lastCycle + n)] →
    cap = s.chip.shareSize p.val / 8 →
    (s.chip.traceOn bit = false ∨ (s.chip.part p.val).running = false → exec i s = .next s) ∧
    (s.chip.traceOn bit = true → (s.chip.part p.val).running = true → ∃ t, exec i s = .next t ∧
      (∀ q, q ≠ p.val → t.chip.part q = s.chip.part q) ∧ t.chip.ci.tcsram = s.chip.ci.tcsram ∧ Within [.ci] s t ∧
      (cap = 0 → t.chip.part p.val = s.chip.part p.val) ∧
      (cap ≠ 0 → cyc = (s.chip.part p.val).lastCycle → 16 ≤ (s.chip.part p.val).inCycle → (t.chip.part p.val).packets = (s.chip.part p.val).packets ∧
        (t.chip.part p.val).written = (s.chip.part p.val).written ∧ (t.chip.part p.val).dropped = satAdd 32 (s.chip.part p.val).dropped 1) ∧
      (cap ≠ 0 → cyc ≠ (s.chip.part p.val).lastCycle ∨ (s.chip.part p.val).inCycle < 16 → (s.chip.part p.val).packets.length ≤ cap →
        (s.chip.part p.val).written < (t.chip.part p.val).written ∧ (t.chip.part p.val).packets.length ≤ cap ∧
        (t.chip.part p.val).dropped = (s.chip.part p.val).dropped ∧ (t.chip.part p.val).lastCycle = cyc ∧
        (2 ≤ cap → ∃ d, tracePacket type inf d v.toNat ∈ (t.chip.part p.val).packets)))) ∧
  (∀ (p : Path) (s : State) (r : Req) (c : Chip) (q : Partition) (first : Nat) (l : List Bytes), ReadReaches p 0 0x2A00 6 s.chip r c →
    q = c.part (c.sel r.dest.session 0x2A00 1) → first = max (c.sel r.dest.session 0x2A00 5) (q.written - q.packets.length) →
    l = (q.packets.drop (first - (q.written - q.packets.length))).take (match r.dest.path with | .can _ _ => 8191 | .spi _ => 511) →
    exec (.traceRead p) s = next s (Chip.answerRead r.dest (.data (le 8 first ++ l.flatten)) (c.setSel r.dest.session 0x2A00 5 (first + l.length))))

/-! ## Re-seats, replacement and pairs (chapter 20) -/

/-- R483 to R485 and R487 to R489. -/
def Obligations.ReseatAndReplacementRows : Prop :=
  (∀ (p : Path) (tag : Word16) (i u : Byte) (s : State) (r : Req) (c : Chip),
    gate p tag 0x2020 1 [i, u] (fun _ _ => if (reseatLimit i.toNat u.toNat).isSome then 0 else 2) s.chip = .go r c →
    (c.reseatPrecondition i.toNat u.toNat ≠ 0 → exec (.reseatRequest p tag i u) s = next s (c.complete r.dest (c.reseatPrecondition i.toNat u.toNat) [] 0)) ∧
    (c.reseatPrecondition i.toNat u.toNat = 0 → c.hostReseating = true → exec (.reseatRequest p tag i u) s = next s (c.complete r.dest 0x0001 [] 10)) ∧
    (c.reseatPrecondition i.toNat u.toNat = 0 → c.hostReseating = false → ∃ (c' : Chip) (x : ReseatRun), exec (.reseatRequest p tag i u) s = next s c' ∧
      c'.reseatRun i.toNat u.toNat = some x ∧ x.host = true ∧ x.phase = .draining ∧ c'.reseat.status = .draining ∧
      (u = 0xFF → c.islands.length = 11 → i.toNat < 11 → c'.island i.toNat = .reseatPending) ∧ (∀ j, j ≠ i.toNat → c'.island j = c.island j) ∧
      Only [.host, .out, .pair, .reseat, .islands, .lanes, .levels, .cluster, .dram, .clk, .clkos] c c')) ∧
  (∀ (i : Island) (u : Byte) (s : State),
    (s.chip.reseatRun (islandNo i) u.toNat = none → exec (.reseatDrainEnd i u) s = .next s ∧ exec (.reseatComplete i u) s = .next s ∧
      exec (.reseatLimitExpiry i u) s = .next s) ∧
    (∀ r, s.chip.reseatRun (islandNo i) u.toNat = some r →
      (r.phase ≠ .draining → exec (.reseatDrainEnd i u) s = .next s) ∧
      (r.phase = .draining → ∃ t, exec (.reseatDrainEnd i u) s = .next t ∧
        t.chip.reseatRun (islandNo i) u.toNat = some { r with phase := .loading, resetAt := s.chip.clk.ticks } ∧ (r.host = true → t.chip.reseat.status = .loading)) ∧
      (r.phase ≠ .loading ∨ s.chip.reseatReady r = false → exec (.reseatComplete i u) s = .next s) ∧
      (r.phase = .loading → s.chip.reseatReady r = true → ∃ t, exec (.reseatComplete i u) s = .next t ∧ t.chip.reseatRun (islandNo i) u.toNat = none ∧
        (r.host = true → t.chip.reseat.status = .completed ∧ t.chip.reseat.count = satAdd 32 s.chip.reseat.count 1 ∧ slice t.chip.reseat.last 2 2 = le 2 0) ∧
        (r.host = false → t.chip.reseat.status = s.chip.reseat.status)) ∧
      (∀ ms, reseatLimit (islandNo i) u.toNat = some ms → r.phase = .loading → s.chip.overMs r.resetAt ms = true →
        ∃ t, exec (.reseatLimitExpiry i u) s = .next t ∧
          (t.chip.reseat.runs.any fun x => x.failed && x.island == islandNo i && x.unit == u.toNat) = true ∧
          (r.host = true → t.chip.reseat.status = .failed ∧ slice t.chip.reseat.last 2 2 = le 2 4)) ∧
      (∀ ms, reseatLimit (islandNo i) u.toNat = some ms → r.phase ≠ .loading ∨ s.chip.overMs r.resetAt ms = false → exec (.reseatLimitExpiry i u) s = .next s))) ∧
  (∀ (p : Path) (tag : Word16) (n : Byte) (s : State) (r : Req) (c : Chip),
    gate p tag 0x2020 6 [n] (fun _ s => if (s.part n.toNat).present then 0 else 2) s.chip = .go r c →
    (replaceState c ≠ 0 → exec (.replacePartition p tag n) s = next s (c.complete r.dest (replaceState c) [] 0)) ∧
    (∀ d, replaceState c = 0 → c.readStaged = (none, d) → exec (.replacePartition p tag n) s = next s (d.complete r.dest 0x8003 [] 0)) ∧
    (∀ img d, replaceState c = 0 → c.readStaged = (some img, d) →
      (replaceCode n.toNat img d ≠ 0 → exec (.replacePartition p tag n) s = next s (d.complete r.dest (replaceCode n.toNat img d) [] 0)) ∧
      (replaceCode n.toNat img d = 0 → ∃ c' : Chip, exec (.replacePartition p tag n) s = next s (c'.complete r.dest 0 [] 0) ∧ (c'.part n.toNat).running = false ∧
        (c'.part n.toNat).replacing = true ∧ c'.reseat.replacing = some n.toNat ∧ c'.reseat.replacement = 0xFFFF ∧ c'.reseat.image = img ∧
        (∀ q, q ≠ n.toNat → c'.part q = d.part q) ∧ Only [.ci, .watchdog, .reseat, .boot] d c'))) ∧
  (∀ s : State, (s.chip.reseat.replacing = none → exec .replacementComplete s = .next s) ∧
    (∀ n code, s.chip.reseat.replacing = some n → code = (s.chip.writeArea s.chip.boot.running.toNat s.chip.reseat.image).areaStatus s.chip.boot.running.toNat →
      ∃ t, exec .replacementComplete s = .next t ∧ t.chip.reseat.replacing = none ∧ t.chip.reseat.replacement = code ∧ (t.chip.part n).replacing = false ∧
        (code = 0 → (t.chip.part n).running = true ∧ t.chip.boot.digest = imgDigest s.chip.reseat.image) ∧
        (code ≠ 0 → (t.chip.part n).running = (s.chip.part n).running) ∧ (∀ q, q ≠ n → t.chip.part q = s.chip.part q)))

/-- R491 to R494. -/
def Obligations.PairingRows : Prop :=
  (∀ (p : Path) (tag : Word16) (s : State) (r : Req) (c : Chip), gate p tag 0x4B00 3 [1] (fun _ _ => 0) s.chip = .go r c →
    (c.pair.state ≠ .unpaired → exec (.newPairKey p tag) s = next s (c.complete r.dest 5 [] 0)) ∧
    (c.pair.state = .unpaired → c.drbgGate ≠ 0 → exec (.newPairKey p tag) s = next s (c.complete r.dest c.drbgGate [] 0)) ∧
    (c.pair.state = .unpaired → c.drbgGate = 0 → ∃ c' : Chip, exec (.newPairKey p tag) s = next s (c'.complete r.dest 0 [] 0) ∧
      c'.pair.privateKey.length = 32 ∧ c'.pair.publicKey = p256.pub (beNat c'.pair.privateKey) ∧ c'.pair.state = .unpaired ∧ Only [.pair, .free, .crypto] c c')) ∧
  (∀ (p : Path) (tag : Word16) (q : PairReq) (s : State) (r : Req) (c : Chip) (role : Nat) (i : Instr) (n : Bool × Chip) (a : Nat),
    (role, i) ∈ [(1, Instr.pairActive p tag q), (2, .pairStandby p tag q), (0, .unpair p tag q)] →
    gate p tag 0x4B00 4 (pairBytes role q)
      (fun _ _ => if q.nonce.length ≠ 16 ∨ q.auths.length % 68 ≠ 0 then 0x0012 else if q.key.length ≠ 64 then 2 else 0) s.chip = .go r c →
    n = c.takeNonce r.dest q.nonce → a = n.2.checkAuths 0 (sha256 (tagJKPR ++ n.2.identity ++ q.nonce ++ pairBody role q)) q.auths →
    (n.1 = false → exec i s = next s (n.2.complete r.dest 0x310C [] 0)) ∧
    (n.1 = true → p256.valid q.key = false → exec i s = next s (n.2.complete r.dest 2 [] 0)) ∧
    (n.1 = true → p256.valid q.key = true → q.auths.length ≠ 136 → exec i s = next s (n.2.complete r.dest 0x000D [] 0)) ∧
    (n.1 = true → p256.valid q.key = true → q.auths.length = 136 →
      (a ≠ 0 → exec i s = next s (n.2.complete r.dest a [] 0)) ∧
      (a = 0 → n.2.pairInvalid q.serial.toNat = true → exec i s = next s (n.2.complete r.dest 0xB002 [] 0)) ∧
      (a = 0 → n.2.pairInvalid q.serial.toNat = false → ∃ c' : Chip, exec i s = next s (c'.complete r.dest 0 [] 0) ∧
        (role = 0 → c'.pair.state = .unpaired) ∧
        (role ≠ 0 → c'.pair.state = .pairing ∧ c'.pair.asActive = (role == 1) ∧ c'.pair.request = some q ∧ c'.pair.partner = q.serial ∧ c'.pair.partnerKey = q.key)))) ∧
  (∀ s : State, (s.chip.pair.state ≠ .pairing ∨ s.chip.pair.request = none ∨ s.chip.pair.privateKey = [] ∨ s.chip.runs 3 = false ∨ s.chip.pairMatches = false →
      exec .pairFormed s = .next s) ∧
    (s.chip.pair.state = .pairing → s.chip.pair.request ≠ none → s.chip.pair.privateKey ≠ [] → s.chip.runs 3 = true → s.chip.pairMatches = true →
      ∃ t, exec .pairFormed s = .next t ∧ t.chip.pair.generation = 1 ∧ t.chip.pair.committed = 0 ∧ t.chip.pair.request = none ∧
        (s.chip.pair.asActive = true → t.chip.pair.state = .activeSync ∧ t.chip.pair.syncLeft = t.chip.pair.open_.entries.length) ∧
        (s.chip.pair.asActive = false → t.chip.pair.state = .standbySync ∧ ∀ e ∈ t.chip.keys.owners, e.1 = 0)))

/-- R498, R500 to R503 and R506. A message of a row is at the front of CH_17 where `takeMessage` says so. -/
def Obligations.ReplicationRows : Prop :=
  (∀ s : State, (s.chip.closes = false → exec .epochClose s = .next s) ∧
    (s.chip.closes = true → ∃ (t : State) (e : Epoch), exec .epochClose s = .next t ∧ t.chip.pair.awaiting = some e ∧
      e.number = s.chip.pair.committed + 1 ∧ e.entries ++ t.chip.pair.open_.entries = s.chip.pair.open_.entries ∧ e.sentAt = s.chip.clk.ticks ∧
      t.chip.pair.committed = s.chip.pair.committed ∧ Within [.pair, .cluster, .out] s t)) ∧
  (∀ (b : Bytes) (s : State) (c : Chip), (s.chip.takeMessage 1 b = (false, c) → exec (.entry b) s = next s c) ∧
    (s.chip.takeMessage 1 b = (true, c) → 12 < b.length → b.length ≤ 252 → c.pair.state = .standbySync ∨ c.pair.state = .standbySynced →
      (beNat (slice b 8 4) = 0 → exec (.entry b) s = next s { c with pair := { c.pair with receiving := b.drop 12, receivingEpoch := beNat (b.take 8) } }) ∧
      (beNat (slice b 8 4) ≠ 0 → beNat (b.take 8) = c.pair.receivingEpoch → beNat (slice b 8 4) = c.pair.receiving.length →
        exec (.entry b) s = next s { c with pair := { c.pair with receiving := c.pair.receiving ++ b.drop 12 } }) ∧
      (beNat (slice b 8 4) ≠ 0 → beNat (b.take 8) ≠ c.pair.receivingEpoch ∨ beNat (slice b 8 4) ≠ c.pair.receiving.length → exec (.entry b) s = next s c))) ∧
  (∀ (b : Bytes) (s : State) (c : Chip), (s.chip.takeMessage 2 b = (false, c) → exec (.commit b) s = next s c) ∧
    (s.chip.takeMessage 2 b = (true, c) → c.pair.state = .standbySync ∨ c.pair.state = .standbySynced →
      (c.commitStatus b ≠ 0 ∨ c.receivedEntries b = none → ∃ t, exec (.commit b) s = .next t ∧ t.chip.pair.receiving = [] ∧
        t.chip.pair.committed = c.pair.committed ∧ t.chip.pair.discarded = satAdd 32 c.pair.discarded 1 ∧ Only [.pair, .recorder, .cluster, .out] c t.chip) ∧
      (∀ l, c.commitStatus b = 0 → c.receivedEntries b = some l → ∃ t, exec (.commit b) s = .next t ∧ t.chip.pair.receiving = [] ∧
        t.chip.pair.committed = beNat (slice b 8 8)))) ∧
  (∀ (b : Bytes) (s : State) (c : Chip), (s.chip.takeMessage 3 b = (false, c) ∨ (s.chip.takeMessage 3 b).2.pair.awaiting = none →
      exec (.replicationAck b) s = next s (s.chip.takeMessage 3 b).2) ∧
    (∀ e, s.chip.takeMessage 3 b = (true, c) → c.pair.awaiting = some e → b.length = 9 → beNat (b.take 8) = e.number → byteAt b 8 = 0 →
      ∃ t, exec (.replicationAck b) s = .next t ∧ t.chip.pair.awaiting = none ∧ t.chip.pair.committed = e.number ∧
        t.chip.pair.epochs = satAdd 32 c.pair.epochs 1 ∧
        (c.pair.state = .activeSync → c.pair.syncLeft ≤ e.entries.length → t.chip.pair.state = .activePaired)) ∧
    (∀ e, s.chip.takeMessage 3 b = (true, c) → c.pair.awaiting = some e → c.journals = true → b.length = 9 → beNat (b.take 8) = e.number → byteAt b 8 ≠ 0 →
      ∃ t, exec (.replicationAck b) s = .next t ∧ t.chip.pair.awaiting = none ∧ t.chip.pair.state = .activeLost ∧ t.chip.pair.committed = c.pair.committed)) ∧
  (∀ s : State, (s.chip.pair.state = .unpaired ∨ s.chip.runs 3 = false → exec .pairStateSend s = .next s) ∧
    (s.chip.pair.state ≠ .unpaired → s.chip.runs 3 = true →
      (s.chip.ringMember s.chip.pair.partner.toNat = none → exec .pairStateSend s = .next s) ∧
      (∀ m x, s.chip.ringMember s.chip.pair.partner.toNat = some m → x = s.chip.flow m.1 → x.queued = [] → x.waiting.length < 4 →
        s.chip.cluster.state ≠ .holdOver → s.chip.cluster.size ≠ 0 → ∃ t, exec .pairStateSend s = .next t ∧
          Handed { type := 0x0A, cluster := s.chip.cluster.clusterId.toNat, src := s.chip.cluster.position, dst := m.1, seq := x.nextSeq, payload := [1] ++ le 1 4 ++ s.chip.pairState } false s.chip t.chip ∧
          (t.chip.flow m.1).waiting = x.waiting ++ [(x.nextSeq, [1] ++ le 1 4 ++ s.chip.pairState)] ∧
          t.chip.pair = { s.chip.pair with stateSent := s.chip.pairState } ∧ Within [.cluster, .pair, .out] s t))) ∧
  (∀ (b : Bytes) (s : State) (c : Chip), (s.chip.takeMessage 4 b = (false, c) → exec (.pairState b) s = next s c) ∧
    (s.chip.takeMessage 4 b = (true, c) → b.length = 46 → c.pair.state ≠ .unpaired → ∃ t, exec (.pairState b) s = .next t ∧ t.chip.pair.partnerState = b ∧
      t.chip.pair.lastState = c.clk.ticks ∧
      (c.pair.state = .activeSync ∨ c.pair.state = .activePaired ∨ c.pair.state = .activeLost → byteAt b 0 = 1 → c.pair.generation < beNat (slice b 2 4) →
        t.chip.pair.state = .fenced ∧ t.chip.pair.awaiting = none) ∧
      (c.pair.state = .standbySync → beNat (slice b 2 4) = c.pair.generation → byteAt b 0 = 1 → byteAt b 1 = 3 → t.chip.pair.state = .standbySynced)))

/-- R503 to R505. -/
def Obligations.TakeoverRows : Prop :=
  (∀ s : State, (s.chip.pair.awaiting = none ∨ s.chip.journals = false → exec .ackTimeout s = .next s) ∧
    (∀ e, s.chip.pair.awaiting = some e → s.chip.overMs e.sentAt s.chip.pair.ackMs = false → exec .ackTimeout s = .next s) ∧
    (∀ e, s.chip.pair.awaiting = some e → s.chip.journals = true → s.chip.overMs e.sentAt s.chip.pair.ackMs = true → ∃ t, exec .ackTimeout s = .next t ∧
      t.chip.pair.state = .activeLost ∧ t.chip.pair.awaiting = none ∧ t.chip.pair.open_ = {} ∧ t.chip.pair.committed = s.chip.pair.committed)) ∧
  (∀ s : State, (s.chip.silent = false ∨ s.chip.journals = false → exec .pairStateSilence s = .next s) ∧
    (s.chip.silent = true → s.chip.journals = true → ∃ t, exec .pairStateSilence s = .next t ∧
      t.chip.pair.state = .activeLost ∧ t.chip.pair.awaiting = none ∧ t.chip.pair.open_ = {} ∧ t.chip.pair.committed = s.chip.pair.committed)) ∧
  (∀ s : State, (s.chip.pair.state = .standbySynced → s.chip.pair.takeover = 1 → s.chip.silent = true → s.chip.partnerLost = true →
      ∃ t, exec .automaticTakeover s = .next t ∧ t.chip.pair.state = .activeLost ∧ t.chip.pair.asActive = true ∧
        t.chip.pair.generation = s.chip.pair.generation + 1 ∧ t.chip.pair.receiving = [] ∧ t.chip.pair.committed = s.chip.pair.committed ∧
        t.chip.keys = s.chip.keys ∧ Within [.pair, .host, .cluster, .out, .recorder] s t) ∧
    (s.chip.pair.state ≠ .standbySynced ∨ s.chip.pair.takeover ≠ 1 ∨ s.chip.silent = false ∨ s.chip.partnerLost = false → exec .automaticTakeover s = .next s)) ∧
  (∀ (p : Path) (tag : Word16) (s : State) (r : Req) (c : Chip), gate p tag 0x4B00 0x0E [1] (fun _ _ => 0) s.chip = .go r c →
    (c.pair.state ≠ .standbySynced ∨ c.silent = false → exec (.takeOver p tag) s = next s (c.complete r.dest 0xB004 [] 0)) ∧
    (c.pair.state = .standbySynced → c.silent = true → ∃ c' : Chip, exec (.takeOver p tag) s = next s (c'.complete r.dest 0 [] 0) ∧
      c'.pair.state = .activeLost ∧ c'.pair.asActive = true ∧ c'.pair.generation = c.pair.generation + 1 ∧ c'.pair.receiving = [] ∧
      c'.pair.committed = c.pair.committed ∧ Only [.pair, .host, .cluster, .out, .recorder] c c'))

/-- R68, R96, R116, R261, R465 and R526 at the moment `State.reset` stands for (log 3). -/
def Obligations.ResetState : Prop :=
  State.reset.pending = [] ∧ State.reset.chip.host.sessions = [] ∧ State.reset.chip.host.conditions = [] ∧ State.reset.chip.host.errorReg = 0 ∧
  State.reset.chip.host.errors = [] ∧ State.reset.chip.clk.action = 0 ∧ State.reset.chip.clk.counting = false ∧ State.reset.chip.host.spi.quad = false ∧
  (∀ q, (State.reset.chip.sq q).state = .idle) ∧ State.reset.chip.dramServes = false ∧ State.reset.chip.island 1 = .running ∧
  (∀ i, i < 11 → i ≠ 1 → State.reset.chip.island i = .resetting) ∧ State.reset.array.Inv ∧ State.reset.array.next = 0 ∧ State.reset.array.slots = []
end

