-- ==== Sys2Proof/Laws/Frame.lean ====
section
/-! SUPPORT. What the shared operations leave unchanged: for each one lemma `Only parts s (op s)`, and
the lemmas by which they combine. -/

namespace Sys2Proof.Machine

theorem Only.refl (a : Chip) (ps : List Part) : Only ps a a := by
  intro p _; cases p <;> rfl

theorem Only.trans {a b c : Chip} {ps qs : List Part} (h : Only ps a b) (k : Only qs b c) : Only (ps ++ qs) a c := by
  intro p hp
  rw [List.mem_append, not_or] at hp
  have h1 := h p hp.1
  have h2 := k p hp.2
  cases p <;> exact h2.trans h1

theorem Only.mono {a b : Chip} {ps qs : List Part} (h : Only ps a b) (k : ps ⊆ qs) : Only qs a b :=
  fun p hp => h p fun hm => hp (k hm)

/-- Two changes within the same parts. -/
theorem Only.comp {a b c : Chip} {ps : List Part} (h : Only ps a b) (k : Only ps b c) : Only ps a c :=
  (h.trans k).mono (by simp)

theorem Only.ite {a b c : Chip} {ps : List Part} {q : Prop} [Decidable q] (h : Only ps a b) (k : Only ps a c) :
    Only ps a (if q then b else c) := by
  split <;> assumption

theorem Only.foldl {α : Type _} {ps : List Part} (f : Chip → α → Chip) (h : ∀ s x, Only ps s (f s x)) (l : List α) (s : Chip) :
    Only ps s (l.foldl f s) := by
  induction l generalizing s with
  | nil => exact Only.refl s ps
  | cons x l ih => exact (h s x).comp (ih (f s x))

/-- A part that is not listed is unchanged. -/
theorem Only.get {a b : Chip} {ps : List Part} (h : Only ps a b) (p : Part) (hp : p ∉ ps := by decide) : p.same a b := h p hp

theorem Only.modHost {f} (s : Chip) : Only [.host] s (s.modHost f) := by
  intro p hp; cases p <;> first | rfl | simp at hp

theorem Only.modPower {f} (s : Chip) : Only [.power] s (s.modPower f) := by
  intro p hp; cases p <;> first | rfl | simp at hp

theorem Only.modClk {f} (s : Chip) : Only [.clk] s (s.modClk f) := by
  intro p hp; cases p <;> first | rfl | simp at hp

theorem Only.modPlls {f} (s : Chip) : Only [.plls] s (s.modPlls f) := by
  intro p hp; cases p <;> first | rfl | simp at hp

theorem Only.modClkos {f} (s : Chip) : Only [.clkos] s (s.modClkos f) := by
  intro p hp; cases p <;> first | rfl | simp at hp

theorem Only.modLanes {f} (s : Chip) : Only [.lanes] s (s.modLanes f) := by
  intro p hp; cases p <;> first | rfl | simp at hp

theorem Only.modSeqs {f} (s : Chip) : Only [.seqs] s (s.modSeqs f) := by
  intro p hp; cases p <;> first | rfl | simp at hp

theorem Only.modSegs {f} (s : Chip) : Only [.segs] s (s.modSegs f) := by
  intro p hp; cases p <;> first | rfl | simp at hp

theorem Only.modSealed {f} (s : Chip) : Only [.sealed_] s (s.modSealed f) := by
  intro p hp; cases p <;> first | rfl | simp at hp

theorem Only.modAcq {f} (s : Chip) : Only [.acq] s (s.modAcq f) := by
  intro p hp; cases p <;> first | rfl | simp at hp

theorem Only.modDram {f} (s : Chip) : Only [.dram] s (s.modDram f) := by
  intro p hp; cases p <;> first | rfl | simp at hp

theorem Only.modLevels {f} (s : Chip) : Only [.levels] s (s.modLevels f) := by
  intro p hp; cases p <;> first | rfl | simp at hp

theorem Only.modRouter {f} (s : Chip) : Only [.router] s (s.modRouter f) := by
  intro p hp; cases p <;> first | rfl | simp at hp

theorem Only.modCluster {f} (s : Chip) : Only [.cluster] s (s.modCluster f) := by
  intro p hp; cases p <;> first | rfl | simp at hp

theorem Only.modWatchdog {f} (s : Chip) : Only [.watchdog] s (s.modWatchdog f) := by
  intro p hp; cases p <;> first | rfl | simp at hp

theorem Only.modCi {f} (s : Chip) : Only [.ci] s (s.modCi f) := by
  intro p hp; cases p <;> first | rfl | simp at hp

theorem Only.modBoot {f} (s : Chip) : Only [.boot] s (s.modBoot f) := by
  intro p hp; cases p <;> first | rfl | simp at hp

theorem Only.modLife {f} (s : Chip) : Only [.life] s (s.modLife f) := by
  intro p hp; cases p <;> first | rfl | simp at hp

theorem Only.modKeys {f} (s : Chip) : Only [.keys] s (s.modKeys f) := by
  intro p hp; cases p <;> first | rfl | simp at hp

theorem Only.modCrypto {f} (s : Chip) : Only [.crypto] s (s.modCrypto f) := by
  intro p hp; cases p <;> first | rfl | simp at hp

theorem Only.modRecorder {f} (s : Chip) : Only [.recorder] s (s.modRecorder f) := by
  intro p hp; cases p <;> first | rfl | simp at hp

theorem Only.modReseat {f} (s : Chip) : Only [.reseat] s (s.modReseat f) := by
  intro p hp; cases p <;> first | rfl | simp at hp

theorem Only.modPair {f} (s : Chip) : Only [.pair] s (s.modPair f) := by
  intro p hp; cases p <;> first | rfl | simp at hp

theorem Only.modBackground {f} (s : Chip) : Only [.background] s (s.modBackground f) := by
  intro p hp; cases p <;> first | rfl | simp at hp

theorem Only.modIslands {f} (s : Chip) : Only [.islands] s (s.modIslands f) := by
  intro p hp; cases p <;> first | rfl | simp at hp

theorem Only.modOut {f} (s : Chip) : Only [.out] s (s.modOut f) := by
  intro p hp; cases p <;> first | rfl | simp at hp

theorem Only.modFree {f} (s : Chip) : Only [.free] s (s.modFree f) := by
  intro p hp; cases p <;> first | rfl | simp at hp


theorem Only.modLane {n f} (s : Chip) : Only [.lanes] s (s.modLane n f) := by
  intro p hp; cases p <;> first | rfl | simp at hp

theorem Only.modSq {n f} (s : Chip) : Only [.seqs] s (s.modSq n f) := by
  intro p hp; cases p <;> first | rfl | simp at hp

theorem Only.modPll {n f} (s : Chip) : Only [.plls] s (s.modPll n f) := by
  intro p hp; cases p <;> first | rfl | simp at hp

theorem Only.modClko {n f} (s : Chip) : Only [.clkos] s (s.modClko n f) := by
  intro p hp; cases p <;> first | rfl | simp at hp

theorem Only.putIsland {n f} (s : Chip) : Only [.islands] s (s.putIsland n f) := by
  intro p hp; cases p <;> first | rfl | simp at hp

theorem Only.modSpi {f} (s : Chip) : Only [.host] s (s.modSpi f) := by
  intro p hp; cases p <;> first | rfl | simp at hp

theorem Only.modDramCh {n f} (s : Chip) : Only [.dram] s (s.modDramCh n f) := by
  intro p hp; cases p <;> first | rfl | simp at hp

theorem Only.modLv {n f} (s : Chip) : Only [.levels] s (s.modLv n f) := by
  intro p hp; cases p <;> first | rfl | simp at hp

theorem Only.modUnit {n f} (s : Chip) : Only [.acq] s (s.modUnit n f) := by
  intro p hp; cases p <;> first | rfl | simp at hp

theorem Only.modSiteAq {n f} (s : Chip) : Only [.acq] s (s.modSiteAq n f) := by
  intro p hp; cases p <;> first | rfl | simp at hp

theorem Only.modSeal {n f} (s : Chip) : Only [.sealed_] s (s.modSeal n f) := by
  intro p hp; cases p <;> first | rfl | simp at hp

theorem Only.modPart {n f} (s : Chip) : Only [.ci] s (s.modPart n f) := by
  intro p hp; cases p <;> first | rfl | simp at hp

theorem Only.modQueue {n f} (s : Chip) : Only [.crypto] s (s.modQueue n f) := by
  intro p hp; cases p <;> first | rfl | simp at hp

theorem Only.modCtl {b f} (s : Chip) : Only [.host] s (s.modCtl b f) := by cases b <;> exact Only.modHost s

theorem Only.emit {o} (s : Chip) : Only [.out] s (s.emit o) := by
  intro p hp; cases p <;> first | rfl | simp at hp

/-- Drawing free bytes moves the model's counter only. -/
theorem Only.drawBytes {n} (s : Chip) : Only [.free] s (s.drawBytes n).2 := by
  intro p hp; cases p <;> first | rfl | simp at hp

/-- Drawing a free choice moves the model's counter only. -/
theorem Only.drawBool (s : Chip) : Only [.free] s s.drawBool.2 := by
  intro p hp; cases p <;> first | rfl | simp at hp

theorem Only.sendCan {b c d} (s : Chip) : Only [.out] s (s.sendCan b c d) := by
  unfold Chip.sendCan; exact Only.ite (Only.emit s) (Only.refl s _)

theorem Only.recordBy {a b c d e} (s : Chip) : Only [.recorder] s (s.recordBy a b c d e) := Only.modRecorder s

/-- Writing a record reaches the recorder's input only. -/
theorem Only.record {c i d u} (s : Chip) : Only [.recorder] s (s.record c i d u) := Only.recordBy s

theorem Only.accessRefused {a b c d} (s : Chip) : Only [.recorder] s (s.accessRefused a b c d) := Only.record s

theorem Only.summary {a b} (s : Chip) : Only [.recorder] s (s.summary a b) := (Only.record s).comp (Only.modRecorder _)

/-- Counting an event of a rate-limited category reaches the recorder's input only. -/
theorem Only.count {c} (s : Chip) : Only [.recorder] s (s.count c) := by
  unfold Chip.count
  exact Only.ite (Only.modRecorder s) (Only.ite (Only.summary s) (Only.modRecorder s))

theorem Only.emcyOnBus {m b} (s : Chip) : Only [.host, .out] s (s.emcyOnBus m b) := by
  unfold Chip.emcyOnBus
  exact Only.ite (Only.refl s _) (Only.ite ((Only.modCtl s).mono (by simp)) (((Only.sendCan s).mono (by simp)).comp ((Only.modCtl _).mono (by simp))))

theorem Only.emcySend {m} (s : Chip) : Only [.host, .out] s (s.emcySend m) :=
  (((Only.modHost s).mono (by simp)).comp (Only.emcyOnBus _)).comp (Only.emcyOnBus _)

/-- Raising an EMCY reaches the host island and the outputs only. -/
theorem Only.raise {a b c d e f} (s : Chip) : Only [.host, .out] s (s.raise a b c d e f) := by
  unfold Chip.raise
  exact Only.ite (Only.refl s _) (((Only.modHost s).mono (by simp)).comp (Only.emcySend _))

theorem Only.raiseEvent {b c d e f} (s : Chip) : Only [.host, .out] s (s.raiseEvent b c d e f) :=
  ((Only.modHost s).mono (by simp)).comp (Only.emcySend _)

theorem Only.endCondition {k} (s : Chip) : Only [.host, .out] s (s.endCondition k) := by
  unfold Chip.endCondition
  split
  · dsimp only
    refine Only.comp (b := s.modHost fun h => { h with conditions := h.conditions.filter (·.key ≠ k) }) ((Only.modHost s).mono (by simp)) ?_
    split
    · exact ((Only.modHost _).mono (by simp)).comp (Only.emcySend _)
    · exact (Only.modHost _).mono (by simp)
  · exact Only.refl s _

theorem Only.dropCondition {k} (s : Chip) : Only [.host] s (s.dropCondition k) := Only.modHost s

/-- An island that becomes faulted changes its state, writes a record and raises an EMCY. -/
theorem Only.failIsland {i x} (s : Chip) : Only [.islands, .recorder, .host, .out] s (s.failIsland i x) := by
  unfold Chip.failIsland
  refine Only.ite (Only.refl s _) ?_
  exact (((Only.putIsland s).mono (by simp)).comp ((Only.record _).mono (by simp))).comp ((Only.raise _).mono (by simp))

theorem Only.runIsland {i} (s : Chip) : Only [.islands, .host, .out] s (s.runIsland i) :=
  (((Only.putIsland s).mono (by simp)).comp ((Only.endCondition _).mono (by simp))).comp ((Only.endCondition _).mono (by simp))

theorem Only.modSession {n f} (s : Chip) : Only [.host] s (s.modSession n f) := Only.modHost s

theorem Only.modOwn {t f} (s : Chip) : Only [.host] s (s.modOwn t f) := by
  unfold Chip.modOwn; exact Only.ite (Only.modSession s) (Only.refl s _)

theorem Only.setSel {a b c d} (s : Chip) : Only [.host] s (s.setSel a b c d) := Only.modSession s

/-- The end of a USDO transfer reaches the outputs only. -/
theorem Only.sendUsdo {b c k o} (s : Chip) : Only [.out] s (s.sendUsdo b c k o) := by
  unfold Chip.sendUsdo; exact Only.ite (Only.refl s _) (Only.emit s)

theorem Only.freeEntry {t} (s : Chip) : Only [.host] s (s.freeEntry t) := by
  unfold Chip.freeEntry
  split
  · exact Only.refl s _
  · exact Only.modSpi s

/-- An answer reaches the SPI port and the outputs only. -/
theorem Only.answerAs {n t c d m} (s : Chip) : Only [.host, .out] s (s.answerAs n t c d m) := by
  unfold Chip.answerAs
  split
  · exact (Only.sendUsdo s).mono (by simp)
  · exact ((Only.modSpi s).mono (by simp)).comp ((Only.emit _).mono (by simp))

theorem Only.answer {t c d m} (s : Chip) : Only [.host, .out] s (s.answer t c d m) := Only.answerAs s

theorem Only.journal {a b c} (s : Chip) : Only [.pair] s (s.journal a b c) := by
  unfold Chip.journal; exact Only.ite (Only.modPair s) (Only.refl s _)

theorem Only.journalLedger {t} (s : Chip) : Only [.pair] s (s.journalLedger t) := by
  unfold Chip.journalLedger
  split
  · split
    · exact Only.ite (Only.refl s _) (Only.journal s)
    · exact Only.refl s _
  · exact Only.refl s _

/-- Completing a request reaches the session's ledger, the answers and the replication journal only. -/
theorem Only.complete {t c d m} (s : Chip) : Only [.host, .out, .pair] s (s.complete t c d m) := by
  unfold Chip.complete
  split
  · exact (Only.answer s).mono (by simp)
  · split
    · exact (Only.freeEntry s).mono (by simp)
    · refine ((((Only.modSession s).mono (by simp)).comp ((Only.journalLedger _).mono (by simp))).comp
        ((Only.answer _).mono (by simp))).comp (Only.foldl _ (fun s x => (Only.answer s).mono (by simp)) _ _)

theorem Only.completeOpt {w c d} (s : Chip) : Only [.host, .out, .pair] s (s.completeOpt w c d) := by
  unfold Chip.completeOpt
  split
  · exact Only.complete s
  · exact Only.refl s _

theorem Only.finish {t r} : Only [.host, .out, .pair] r.1 (Chip.finish t r) := by
  unfold Chip.finish
  split
  · exact Only.complete _
  · exact Only.complete _
  · exact Only.refl _ _

theorem Only.refuse {t c m} (s : Chip) : Only [.host, .out] s (s.refuse t c m) :=
  ((Only.modOwn s).mono (by simp)).comp (Only.answer _)

theorem Only.refuseOpened {t c m} (s : Chip) : Only [.host, .out] s (s.refuseOpened t c m) :=
  ((Only.modOwn s).mono (by simp)).comp (Only.refuse _)

theorem Only.sendRead {t c d} (s : Chip) : Only [.host, .out] s (s.sendRead t c d) := by
  unfold Chip.sendRead
  split
  · exact (Only.sendUsdo s).mono (by simp)
  · exact ((Only.modSpi s).mono (by simp)).comp ((Only.emit _).mono (by simp))

theorem Only.answerRead {t r} (s : Chip) : Only [.host, .out] s (s.answerRead t r) := by
  unfold Chip.answerRead
  split
  · exact Only.sendRead s
  · exact Only.sendRead s
  · exact (Only.modOwn s).mono (by simp)

/-- A request's arrival touches its session and the SPI port, and counts a discarded frame. -/
theorem Only.arrive {p t i j} (s : Chip) : Only [.host, .recorder] s (s.arrive p t i j).1 := by
  unfold Chip.arrive
  split
  · exact Only.refl s _
  · dsimp only
    split
    · split
      · exact Only.refl s _
      · exact (Only.modSession s).mono (by simp)
    · split
      · exact ((Only.modSpi s).mono (by simp)).comp ((Only.count _).mono (by simp))
      · exact ((Only.modSpi s).mono (by simp)).comp ((Only.modSession _).mono (by simp))

theorem Only.unstage {t} (s : Chip) : Only [.host] s (s.unstage t) := by
  unfold Chip.unstage
  split
  · exact Only.modSession s
  · exact Only.refl s _

theorem Only.replay {t e} (s : Chip) : Only [.host, .out] s (s.replay t e) := by
  unfold Chip.replay
  refine Only.comp (b := if _ then _ else _) ?_ (Only.answer _)
  refine Only.mono (ps := [.host]) ?_ (by simp)
  exact Only.ite (((Only.modHost s).comp (Only.modSession _)).comp (Only.setSel _)) ((Only.modHost s).comp (Only.modSession _))

theorem Only.ledgerLookup {t x b} (s : Chip) :
    Only [.host, .out, .recorder] s ((s.ledgerLookup t x b).elim id (·.2)) := by
  unfold Chip.ledgerLookup
  split
  · split
    · exact (((Only.modHost s).mono (by simp)).comp (Only.refuse _)).mono (by simp)
    · split
      · exact Only.mono (ps := [.host]) (Only.modSession s) (by simp)
      · exact Only.mono (ps := [.host, .out]) (Only.replay s) (by simp)
  · split
    · exact Only.comp ((Only.refuse s).mono (by simp)) ((Only.count _).mono (by simp))
    · exact Only.mono (ps := [.host]) (Only.modSession s) (by simp)

/-- The ledger step touches sessions, ports, answers and the recorder's input only. -/
theorem Only.ledgerStep {t x b} (s : Chip) :
    Only [.host, .out, .recorder] s ((s.ledgerStep t x b).elim id (·.2)) := by
  unfold Chip.ledgerStep
  split
  · exact Only.mono (ps := [.host, .out]) (((Only.unstage s).mono (by simp)).comp (Only.refuse _)) (by simp)
  · exact ((Only.unstage s).mono (by simp)).comp (Only.ledgerLookup _)

/-- What a gate's outcome holds of the device. -/
def Gate.chip : Gate → Chip
  | .stop s => s
  | .go _ s => s

theorem Only.dispatch {t l b row} (s : Chip) : Only [.host, .out, .recorder, .pair] s (s.dispatch t l b row).chip := by
  unfold Chip.dispatch
  dsimp only
  repeat' split
  all_goals dsimp only [Gate.chip]
  all_goals first
    | exact Only.refl s _
    | exact (Only.complete s).mono (by simp)
    | exact (Only.refuseOpened s).mono (by simp)
    | exact ((Only.refuseOpened s).mono (by simp)).comp ((Only.count _).mono (by simp))
    | exact Only.mono (ps := [.host]) (Only.modHost s) (by simp)

/-- The steps before the owner touch sessions, ports and answers, the recorder's input and the journal only. -/
theorem Only.gate {p tag i j b chk note} (hn : ∀ r n c, Only [.host, .out, .recorder, .pair] c (note r n c)) (s : Chip) :
    Only [.host, .out, .recorder, .pair] s (gate p tag i j b chk s note).chip := by
  unfold Machine.gate
  have ha := Only.arrive (p := p) (t := tag) (i := i) (j := j) s
  revert ha
  generalize s.arrive p tag i j = a
  intro ha
  obtain ⟨a1, a2⟩ := a
  have ha : Only [.host, .out, .recorder, .pair] s a1 := ha.mono (by simp)
  refine ha.comp ?_
  cases a2 with
  | none => exact Only.refl _ _
  | some t =>
    dsimp only
    split
    · exact (Only.refuse _).mono (by simp)
    · split
      · exact (Only.refuse _).mono (by simp)
      · exact (Only.refuse _).mono (by simp)
      · split
        · exact (Only.refuse _).mono (by simp)
        · rename_i row _ _
          have hl : ∀ t' : Target, Only [.host, .out, .recorder, .pair] a1
              ((if t'.tagged then a1.ledgerStep t' (SMap.get a1.host.sessions {} t.session) b else .inr (t', a1)).elim id (·.2)) := by
            intro t'
            split
            · exact (Only.ledgerStep a1).mono (by simp)
            · exact Only.refl _ _
          have hl := hl { t with tagged := !tagExempt i row }
          revert hl
          dsimp only
          generalize (if (!tagExempt i row) = true then _ else _ : Chip ⊕ (Target × Chip)) = e
          intro hl
          refine Only.comp hl ?_
          split
          · exact Only.refl _ _
          · rw [Sum.elim_inr]
            repeat' split
            all_goals first
              | exact Only.dispatch _
              | exact (hn _ _ _).comp ((Only.refuseOpened _).mono (by simp))

/-- A host write touches what the way of a request touches, and what its owner's answer does. -/
theorem Only.hostWrite {p tag i j b chk act ps} (h : ∀ r c, Only ps c (act r c).1) (s : Chip) :
    Only ([.host, .out, .recorder, .pair] ++ ps) s (hostWrite p tag i j b chk act s) := by
  unfold Machine.hostWrite
  have hg := Only.gate (p := p) (tag := tag) (i := i) (j := j) (b := b) (chk := chk) (note := fun _ _ s => s) (fun _ _ c => Only.refl c _) s
  revert hg
  generalize Machine.gate p tag i j b chk s = g
  intro hg
  cases g with
  | stop c => exact hg.mono (by simp)
  | go r c => exact (hg.trans ((h r c).trans Only.finish)).mono (by intro x; simp; tauto)

end Sys2Proof.Machine
end

