-- ==== Sys2Proof/Laws/State.lean ====
section
/-! SUPPORT. One lemma for each field and each update of the device: what an update of one group of
state leaves in every other. -/

namespace Sys2Proof.Machine

@[simp] theorem Chip.modHost_host (f : HostServices → HostServices) (s : Chip) : (s.modHost f).host = f s.host := rfl
@[simp] theorem Chip.modHost_power (f : HostServices → HostServices) (s : Chip) : (s.modHost f).power = s.power := rfl
@[simp] theorem Chip.modHost_clk (f : HostServices → HostServices) (s : Chip) : (s.modHost f).clk = s.clk := rfl
@[simp] theorem Chip.modHost_plls (f : HostServices → HostServices) (s : Chip) : (s.modHost f).plls = s.plls := rfl
@[simp] theorem Chip.modHost_clkos (f : HostServices → HostServices) (s : Chip) : (s.modHost f).clkos = s.clkos := rfl
@[simp] theorem Chip.modHost_lanes (f : HostServices → HostServices) (s : Chip) : (s.modHost f).lanes = s.lanes := rfl
@[simp] theorem Chip.modHost_seqs (f : HostServices → HostServices) (s : Chip) : (s.modHost f).seqs = s.seqs := rfl
@[simp] theorem Chip.modHost_segs (f : HostServices → HostServices) (s : Chip) : (s.modHost f).segs = s.segs := rfl
@[simp] theorem Chip.modHost_sealed (f : HostServices → HostServices) (s : Chip) : (s.modHost f).sealed_ = s.sealed_ := rfl
@[simp] theorem Chip.modHost_acq (f : HostServices → HostServices) (s : Chip) : (s.modHost f).acq = s.acq := rfl
@[simp] theorem Chip.modHost_dram (f : HostServices → HostServices) (s : Chip) : (s.modHost f).dram = s.dram := rfl
@[simp] theorem Chip.modHost_levels (f : HostServices → HostServices) (s : Chip) : (s.modHost f).levels = s.levels := rfl
@[simp] theorem Chip.modHost_router (f : HostServices → HostServices) (s : Chip) : (s.modHost f).router = s.router := rfl
@[simp] theorem Chip.modHost_cluster (f : HostServices → HostServices) (s : Chip) : (s.modHost f).cluster = s.cluster := rfl
@[simp] theorem Chip.modHost_watchdog (f : HostServices → HostServices) (s : Chip) : (s.modHost f).watchdog = s.watchdog := rfl
@[simp] theorem Chip.modHost_ci (f : HostServices → HostServices) (s : Chip) : (s.modHost f).ci = s.ci := rfl
@[simp] theorem Chip.modHost_boot (f : HostServices → HostServices) (s : Chip) : (s.modHost f).boot = s.boot := rfl
@[simp] theorem Chip.modHost_life (f : HostServices → HostServices) (s : Chip) : (s.modHost f).life = s.life := rfl
@[simp] theorem Chip.modHost_keys (f : HostServices → HostServices) (s : Chip) : (s.modHost f).keys = s.keys := rfl
@[simp] theorem Chip.modHost_crypto (f : HostServices → HostServices) (s : Chip) : (s.modHost f).crypto = s.crypto := rfl
@[simp] theorem Chip.modHost_recorder (f : HostServices → HostServices) (s : Chip) : (s.modHost f).recorder = s.recorder := rfl
@[simp] theorem Chip.modHost_reseat (f : HostServices → HostServices) (s : Chip) : (s.modHost f).reseat = s.reseat := rfl
@[simp] theorem Chip.modHost_pair (f : HostServices → HostServices) (s : Chip) : (s.modHost f).pair = s.pair := rfl
@[simp] theorem Chip.modHost_background (f : HostServices → HostServices) (s : Chip) : (s.modHost f).background = s.background := rfl
@[simp] theorem Chip.modHost_islands (f : HostServices → HostServices) (s : Chip) : (s.modHost f).islands = s.islands := rfl
@[simp] theorem Chip.modHost_out (f : HostServices → HostServices) (s : Chip) : (s.modHost f).out = s.out := rfl
@[simp] theorem Chip.modHost_free (f : HostServices → HostServices) (s : Chip) : (s.modHost f).free = s.free := rfl
@[simp] theorem Chip.modPower_host (f : Power → Power) (s : Chip) : (s.modPower f).host = s.host := rfl
@[simp] theorem Chip.modPower_power (f : Power → Power) (s : Chip) : (s.modPower f).power = f s.power := rfl
@[simp] theorem Chip.modPower_clk (f : Power → Power) (s : Chip) : (s.modPower f).clk = s.clk := rfl
@[simp] theorem Chip.modPower_plls (f : Power → Power) (s : Chip) : (s.modPower f).plls = s.plls := rfl
@[simp] theorem Chip.modPower_clkos (f : Power → Power) (s : Chip) : (s.modPower f).clkos = s.clkos := rfl
@[simp] theorem Chip.modPower_lanes (f : Power → Power) (s : Chip) : (s.modPower f).lanes = s.lanes := rfl
@[simp] theorem Chip.modPower_seqs (f : Power → Power) (s : Chip) : (s.modPower f).seqs = s.seqs := rfl
@[simp] theorem Chip.modPower_segs (f : Power → Power) (s : Chip) : (s.modPower f).segs = s.segs := rfl
@[simp] theorem Chip.modPower_sealed (f : Power → Power) (s : Chip) : (s.modPower f).sealed_ = s.sealed_ := rfl
@[simp] theorem Chip.modPower_acq (f : Power → Power) (s : Chip) : (s.modPower f).acq = s.acq := rfl
@[simp] theorem Chip.modPower_dram (f : Power → Power) (s : Chip) : (s.modPower f).dram = s.dram := rfl
@[simp] theorem Chip.modPower_levels (f : Power → Power) (s : Chip) : (s.modPower f).levels = s.levels := rfl
@[simp] theorem Chip.modPower_router (f : Power → Power) (s : Chip) : (s.modPower f).router = s.router := rfl
@[simp] theorem Chip.modPower_cluster (f : Power → Power) (s : Chip) : (s.modPower f).cluster = s.cluster := rfl
@[simp] theorem Chip.modPower_watchdog (f : Power → Power) (s : Chip) : (s.modPower f).watchdog = s.watchdog := rfl
@[simp] theorem Chip.modPower_ci (f : Power → Power) (s : Chip) : (s.modPower f).ci = s.ci := rfl
@[simp] theorem Chip.modPower_boot (f : Power → Power) (s : Chip) : (s.modPower f).boot = s.boot := rfl
@[simp] theorem Chip.modPower_life (f : Power → Power) (s : Chip) : (s.modPower f).life = s.life := rfl
@[simp] theorem Chip.modPower_keys (f : Power → Power) (s : Chip) : (s.modPower f).keys = s.keys := rfl
@[simp] theorem Chip.modPower_crypto (f : Power → Power) (s : Chip) : (s.modPower f).crypto = s.crypto := rfl
@[simp] theorem Chip.modPower_recorder (f : Power → Power) (s : Chip) : (s.modPower f).recorder = s.recorder := rfl
@[simp] theorem Chip.modPower_reseat (f : Power → Power) (s : Chip) : (s.modPower f).reseat = s.reseat := rfl
@[simp] theorem Chip.modPower_pair (f : Power → Power) (s : Chip) : (s.modPower f).pair = s.pair := rfl
@[simp] theorem Chip.modPower_background (f : Power → Power) (s : Chip) : (s.modPower f).background = s.background := rfl
@[simp] theorem Chip.modPower_islands (f : Power → Power) (s : Chip) : (s.modPower f).islands = s.islands := rfl
@[simp] theorem Chip.modPower_out (f : Power → Power) (s : Chip) : (s.modPower f).out = s.out := rfl
@[simp] theorem Chip.modPower_free (f : Power → Power) (s : Chip) : (s.modPower f).free = s.free := rfl
@[simp] theorem Chip.modClk_host (f : Clocks → Clocks) (s : Chip) : (s.modClk f).host = s.host := rfl
@[simp] theorem Chip.modClk_power (f : Clocks → Clocks) (s : Chip) : (s.modClk f).power = s.power := rfl
@[simp] theorem Chip.modClk_clk (f : Clocks → Clocks) (s : Chip) : (s.modClk f).clk = f s.clk := rfl
@[simp] theorem Chip.modClk_plls (f : Clocks → Clocks) (s : Chip) : (s.modClk f).plls = s.plls := rfl
@[simp] theorem Chip.modClk_clkos (f : Clocks → Clocks) (s : Chip) : (s.modClk f).clkos = s.clkos := rfl
@[simp] theorem Chip.modClk_lanes (f : Clocks → Clocks) (s : Chip) : (s.modClk f).lanes = s.lanes := rfl
@[simp] theorem Chip.modClk_seqs (f : Clocks → Clocks) (s : Chip) : (s.modClk f).seqs = s.seqs := rfl
@[simp] theorem Chip.modClk_segs (f : Clocks → Clocks) (s : Chip) : (s.modClk f).segs = s.segs := rfl
@[simp] theorem Chip.modClk_sealed (f : Clocks → Clocks) (s : Chip) : (s.modClk f).sealed_ = s.sealed_ := rfl
@[simp] theorem Chip.modClk_acq (f : Clocks → Clocks) (s : Chip) : (s.modClk f).acq = s.acq := rfl
@[simp] theorem Chip.modClk_dram (f : Clocks → Clocks) (s : Chip) : (s.modClk f).dram = s.dram := rfl
@[simp] theorem Chip.modClk_levels (f : Clocks → Clocks) (s : Chip) : (s.modClk f).levels = s.levels := rfl
@[simp] theorem Chip.modClk_router (f : Clocks → Clocks) (s : Chip) : (s.modClk f).router = s.router := rfl
@[simp] theorem Chip.modClk_cluster (f : Clocks → Clocks) (s : Chip) : (s.modClk f).cluster = s.cluster := rfl
@[simp] theorem Chip.modClk_watchdog (f : Clocks → Clocks) (s : Chip) : (s.modClk f).watchdog = s.watchdog := rfl
@[simp] theorem Chip.modClk_ci (f : Clocks → Clocks) (s : Chip) : (s.modClk f).ci = s.ci := rfl
@[simp] theorem Chip.modClk_boot (f : Clocks → Clocks) (s : Chip) : (s.modClk f).boot = s.boot := rfl
@[simp] theorem Chip.modClk_life (f : Clocks → Clocks) (s : Chip) : (s.modClk f).life = s.life := rfl
@[simp] theorem Chip.modClk_keys (f : Clocks → Clocks) (s : Chip) : (s.modClk f).keys = s.keys := rfl
@[simp] theorem Chip.modClk_crypto (f : Clocks → Clocks) (s : Chip) : (s.modClk f).crypto = s.crypto := rfl
@[simp] theorem Chip.modClk_recorder (f : Clocks → Clocks) (s : Chip) : (s.modClk f).recorder = s.recorder := rfl
@[simp] theorem Chip.modClk_reseat (f : Clocks → Clocks) (s : Chip) : (s.modClk f).reseat = s.reseat := rfl
@[simp] theorem Chip.modClk_pair (f : Clocks → Clocks) (s : Chip) : (s.modClk f).pair = s.pair := rfl
@[simp] theorem Chip.modClk_background (f : Clocks → Clocks) (s : Chip) : (s.modClk f).background = s.background := rfl
@[simp] theorem Chip.modClk_islands (f : Clocks → Clocks) (s : Chip) : (s.modClk f).islands = s.islands := rfl
@[simp] theorem Chip.modClk_out (f : Clocks → Clocks) (s : Chip) : (s.modClk f).out = s.out := rfl
@[simp] theorem Chip.modClk_free (f : Clocks → Clocks) (s : Chip) : (s.modClk f).free = s.free := rfl
@[simp] theorem Chip.modPlls_host (f : List Pll → List Pll) (s : Chip) : (s.modPlls f).host = s.host := rfl
@[simp] theorem Chip.modPlls_power (f : List Pll → List Pll) (s : Chip) : (s.modPlls f).power = s.power := rfl
@[simp] theorem Chip.modPlls_clk (f : List Pll → List Pll) (s : Chip) : (s.modPlls f).clk = s.clk := rfl
@[simp] theorem Chip.modPlls_plls (f : List Pll → List Pll) (s : Chip) : (s.modPlls f).plls = f s.plls := rfl
@[simp] theorem Chip.modPlls_clkos (f : List Pll → List Pll) (s : Chip) : (s.modPlls f).clkos = s.clkos := rfl
@[simp] theorem Chip.modPlls_lanes (f : List Pll → List Pll) (s : Chip) : (s.modPlls f).lanes = s.lanes := rfl
@[simp] theorem Chip.modPlls_seqs (f : List Pll → List Pll) (s : Chip) : (s.modPlls f).seqs = s.seqs := rfl
@[simp] theorem Chip.modPlls_segs (f : List Pll → List Pll) (s : Chip) : (s.modPlls f).segs = s.segs := rfl
@[simp] theorem Chip.modPlls_sealed (f : List Pll → List Pll) (s : Chip) : (s.modPlls f).sealed_ = s.sealed_ := rfl
@[simp] theorem Chip.modPlls_acq (f : List Pll → List Pll) (s : Chip) : (s.modPlls f).acq = s.acq := rfl
@[simp] theorem Chip.modPlls_dram (f : List Pll → List Pll) (s : Chip) : (s.modPlls f).dram = s.dram := rfl
@[simp] theorem Chip.modPlls_levels (f : List Pll → List Pll) (s : Chip) : (s.modPlls f).levels = s.levels := rfl
@[simp] theorem Chip.modPlls_router (f : List Pll → List Pll) (s : Chip) : (s.modPlls f).router = s.router := rfl
@[simp] theorem Chip.modPlls_cluster (f : List Pll → List Pll) (s : Chip) : (s.modPlls f).cluster = s.cluster := rfl
@[simp] theorem Chip.modPlls_watchdog (f : List Pll → List Pll) (s : Chip) : (s.modPlls f).watchdog = s.watchdog := rfl
@[simp] theorem Chip.modPlls_ci (f : List Pll → List Pll) (s : Chip) : (s.modPlls f).ci = s.ci := rfl
@[simp] theorem Chip.modPlls_boot (f : List Pll → List Pll) (s : Chip) : (s.modPlls f).boot = s.boot := rfl
@[simp] theorem Chip.modPlls_life (f : List Pll → List Pll) (s : Chip) : (s.modPlls f).life = s.life := rfl
@[simp] theorem Chip.modPlls_keys (f : List Pll → List Pll) (s : Chip) : (s.modPlls f).keys = s.keys := rfl
@[simp] theorem Chip.modPlls_crypto (f : List Pll → List Pll) (s : Chip) : (s.modPlls f).crypto = s.crypto := rfl
@[simp] theorem Chip.modPlls_recorder (f : List Pll → List Pll) (s : Chip) : (s.modPlls f).recorder = s.recorder := rfl
@[simp] theorem Chip.modPlls_reseat (f : List Pll → List Pll) (s : Chip) : (s.modPlls f).reseat = s.reseat := rfl
@[simp] theorem Chip.modPlls_pair (f : List Pll → List Pll) (s : Chip) : (s.modPlls f).pair = s.pair := rfl
@[simp] theorem Chip.modPlls_background (f : List Pll → List Pll) (s : Chip) : (s.modPlls f).background = s.background := rfl
@[simp] theorem Chip.modPlls_islands (f : List Pll → List Pll) (s : Chip) : (s.modPlls f).islands = s.islands := rfl
@[simp] theorem Chip.modPlls_out (f : List Pll → List Pll) (s : Chip) : (s.modPlls f).out = s.out := rfl
@[simp] theorem Chip.modPlls_free (f : List Pll → List Pll) (s : Chip) : (s.modPlls f).free = s.free := rfl
@[simp] theorem Chip.modClkos_host (f : SMap Clko → SMap Clko) (s : Chip) : (s.modClkos f).host = s.host := rfl
@[simp] theorem Chip.modClkos_power (f : SMap Clko → SMap Clko) (s : Chip) : (s.modClkos f).power = s.power := rfl
@[simp] theorem Chip.modClkos_clk (f : SMap Clko → SMap Clko) (s : Chip) : (s.modClkos f).clk = s.clk := rfl
@[simp] theorem Chip.modClkos_plls (f : SMap Clko → SMap Clko) (s : Chip) : (s.modClkos f).plls = s.plls := rfl
@[simp] theorem Chip.modClkos_clkos (f : SMap Clko → SMap Clko) (s : Chip) : (s.modClkos f).clkos = f s.clkos := rfl
@[simp] theorem Chip.modClkos_lanes (f : SMap Clko → SMap Clko) (s : Chip) : (s.modClkos f).lanes = s.lanes := rfl
@[simp] theorem Chip.modClkos_seqs (f : SMap Clko → SMap Clko) (s : Chip) : (s.modClkos f).seqs = s.seqs := rfl
@[simp] theorem Chip.modClkos_segs (f : SMap Clko → SMap Clko) (s : Chip) : (s.modClkos f).segs = s.segs := rfl
@[simp] theorem Chip.modClkos_sealed (f : SMap Clko → SMap Clko) (s : Chip) : (s.modClkos f).sealed_ = s.sealed_ := rfl
@[simp] theorem Chip.modClkos_acq (f : SMap Clko → SMap Clko) (s : Chip) : (s.modClkos f).acq = s.acq := rfl
@[simp] theorem Chip.modClkos_dram (f : SMap Clko → SMap Clko) (s : Chip) : (s.modClkos f).dram = s.dram := rfl
@[simp] theorem Chip.modClkos_levels (f : SMap Clko → SMap Clko) (s : Chip) : (s.modClkos f).levels = s.levels := rfl
@[simp] theorem Chip.modClkos_router (f : SMap Clko → SMap Clko) (s : Chip) : (s.modClkos f).router = s.router := rfl
@[simp] theorem Chip.modClkos_cluster (f : SMap Clko → SMap Clko) (s : Chip) : (s.modClkos f).cluster = s.cluster := rfl
@[simp] theorem Chip.modClkos_watchdog (f : SMap Clko → SMap Clko) (s : Chip) : (s.modClkos f).watchdog = s.watchdog := rfl
@[simp] theorem Chip.modClkos_ci (f : SMap Clko → SMap Clko) (s : Chip) : (s.modClkos f).ci = s.ci := rfl
@[simp] theorem Chip.modClkos_boot (f : SMap Clko → SMap Clko) (s : Chip) : (s.modClkos f).boot = s.boot := rfl
@[simp] theorem Chip.modClkos_life (f : SMap Clko → SMap Clko) (s : Chip) : (s.modClkos f).life = s.life := rfl
@[simp] theorem Chip.modClkos_keys (f : SMap Clko → SMap Clko) (s : Chip) : (s.modClkos f).keys = s.keys := rfl
@[simp] theorem Chip.modClkos_crypto (f : SMap Clko → SMap Clko) (s : Chip) : (s.modClkos f).crypto = s.crypto := rfl
@[simp] theorem Chip.modClkos_recorder (f : SMap Clko → SMap Clko) (s : Chip) : (s.modClkos f).recorder = s.recorder := rfl
@[simp] theorem Chip.modClkos_reseat (f : SMap Clko → SMap Clko) (s : Chip) : (s.modClkos f).reseat = s.reseat := rfl
@[simp] theorem Chip.modClkos_pair (f : SMap Clko → SMap Clko) (s : Chip) : (s.modClkos f).pair = s.pair := rfl
@[simp] theorem Chip.modClkos_background (f : SMap Clko → SMap Clko) (s : Chip) : (s.modClkos f).background = s.background := rfl
@[simp] theorem Chip.modClkos_islands (f : SMap Clko → SMap Clko) (s : Chip) : (s.modClkos f).islands = s.islands := rfl
@[simp] theorem Chip.modClkos_out (f : SMap Clko → SMap Clko) (s : Chip) : (s.modClkos f).out = s.out := rfl
@[simp] theorem Chip.modClkos_free (f : SMap Clko → SMap Clko) (s : Chip) : (s.modClkos f).free = s.free := rfl
@[simp] theorem Chip.modLanes_host (f : SMap Lane → SMap Lane) (s : Chip) : (s.modLanes f).host = s.host := rfl
@[simp] theorem Chip.modLanes_power (f : SMap Lane → SMap Lane) (s : Chip) : (s.modLanes f).power = s.power := rfl
@[simp] theorem Chip.modLanes_clk (f : SMap Lane → SMap Lane) (s : Chip) : (s.modLanes f).clk = s.clk := rfl
@[simp] theorem Chip.modLanes_plls (f : SMap Lane → SMap Lane) (s : Chip) : (s.modLanes f).plls = s.plls := rfl
@[simp] theorem Chip.modLanes_clkos (f : SMap Lane → SMap Lane) (s : Chip) : (s.modLanes f).clkos = s.clkos := rfl
@[simp] theorem Chip.modLanes_lanes (f : SMap Lane → SMap Lane) (s : Chip) : (s.modLanes f).lanes = f s.lanes := rfl
@[simp] theorem Chip.modLanes_seqs (f : SMap Lane → SMap Lane) (s : Chip) : (s.modLanes f).seqs = s.seqs := rfl
@[simp] theorem Chip.modLanes_segs (f : SMap Lane → SMap Lane) (s : Chip) : (s.modLanes f).segs = s.segs := rfl
@[simp] theorem Chip.modLanes_sealed (f : SMap Lane → SMap Lane) (s : Chip) : (s.modLanes f).sealed_ = s.sealed_ := rfl
@[simp] theorem Chip.modLanes_acq (f : SMap Lane → SMap Lane) (s : Chip) : (s.modLanes f).acq = s.acq := rfl
@[simp] theorem Chip.modLanes_dram (f : SMap Lane → SMap Lane) (s : Chip) : (s.modLanes f).dram = s.dram := rfl
@[simp] theorem Chip.modLanes_levels (f : SMap Lane → SMap Lane) (s : Chip) : (s.modLanes f).levels = s.levels := rfl
@[simp] theorem Chip.modLanes_router (f : SMap Lane → SMap Lane) (s : Chip) : (s.modLanes f).router = s.router := rfl
@[simp] theorem Chip.modLanes_cluster (f : SMap Lane → SMap Lane) (s : Chip) : (s.modLanes f).cluster = s.cluster := rfl
@[simp] theorem Chip.modLanes_watchdog (f : SMap Lane → SMap Lane) (s : Chip) : (s.modLanes f).watchdog = s.watchdog := rfl
@[simp] theorem Chip.modLanes_ci (f : SMap Lane → SMap Lane) (s : Chip) : (s.modLanes f).ci = s.ci := rfl
@[simp] theorem Chip.modLanes_boot (f : SMap Lane → SMap Lane) (s : Chip) : (s.modLanes f).boot = s.boot := rfl
@[simp] theorem Chip.modLanes_life (f : SMap Lane → SMap Lane) (s : Chip) : (s.modLanes f).life = s.life := rfl
@[simp] theorem Chip.modLanes_keys (f : SMap Lane → SMap Lane) (s : Chip) : (s.modLanes f).keys = s.keys := rfl
@[simp] theorem Chip.modLanes_crypto (f : SMap Lane → SMap Lane) (s : Chip) : (s.modLanes f).crypto = s.crypto := rfl
@[simp] theorem Chip.modLanes_recorder (f : SMap Lane → SMap Lane) (s : Chip) : (s.modLanes f).recorder = s.recorder := rfl
@[simp] theorem Chip.modLanes_reseat (f : SMap Lane → SMap Lane) (s : Chip) : (s.modLanes f).reseat = s.reseat := rfl
@[simp] theorem Chip.modLanes_pair (f : SMap Lane → SMap Lane) (s : Chip) : (s.modLanes f).pair = s.pair := rfl
@[simp] theorem Chip.modLanes_background (f : SMap Lane → SMap Lane) (s : Chip) : (s.modLanes f).background = s.background := rfl
@[simp] theorem Chip.modLanes_islands (f : SMap Lane → SMap Lane) (s : Chip) : (s.modLanes f).islands = s.islands := rfl
@[simp] theorem Chip.modLanes_out (f : SMap Lane → SMap Lane) (s : Chip) : (s.modLanes f).out = s.out := rfl
@[simp] theorem Chip.modLanes_free (f : SMap Lane → SMap Lane) (s : Chip) : (s.modLanes f).free = s.free := rfl
@[simp] theorem Chip.modSeqs_host (f : SMap Seq → SMap Seq) (s : Chip) : (s.modSeqs f).host = s.host := rfl
@[simp] theorem Chip.modSeqs_power (f : SMap Seq → SMap Seq) (s : Chip) : (s.modSeqs f).power = s.power := rfl
@[simp] theorem Chip.modSeqs_clk (f : SMap Seq → SMap Seq) (s : Chip) : (s.modSeqs f).clk = s.clk := rfl
@[simp] theorem Chip.modSeqs_plls (f : SMap Seq → SMap Seq) (s : Chip) : (s.modSeqs f).plls = s.plls := rfl
@[simp] theorem Chip.modSeqs_clkos (f : SMap Seq → SMap Seq) (s : Chip) : (s.modSeqs f).clkos = s.clkos := rfl
@[simp] theorem Chip.modSeqs_lanes (f : SMap Seq → SMap Seq) (s : Chip) : (s.modSeqs f).lanes = s.lanes := rfl
@[simp] theorem Chip.modSeqs_seqs (f : SMap Seq → SMap Seq) (s : Chip) : (s.modSeqs f).seqs = f s.seqs := rfl
@[simp] theorem Chip.modSeqs_segs (f : SMap Seq → SMap Seq) (s : Chip) : (s.modSeqs f).segs = s.segs := rfl
@[simp] theorem Chip.modSeqs_sealed (f : SMap Seq → SMap Seq) (s : Chip) : (s.modSeqs f).sealed_ = s.sealed_ := rfl
@[simp] theorem Chip.modSeqs_acq (f : SMap Seq → SMap Seq) (s : Chip) : (s.modSeqs f).acq = s.acq := rfl
@[simp] theorem Chip.modSeqs_dram (f : SMap Seq → SMap Seq) (s : Chip) : (s.modSeqs f).dram = s.dram := rfl
@[simp] theorem Chip.modSeqs_levels (f : SMap Seq → SMap Seq) (s : Chip) : (s.modSeqs f).levels = s.levels := rfl
@[simp] theorem Chip.modSeqs_router (f : SMap Seq → SMap Seq) (s : Chip) : (s.modSeqs f).router = s.router := rfl
@[simp] theorem Chip.modSeqs_cluster (f : SMap Seq → SMap Seq) (s : Chip) : (s.modSeqs f).cluster = s.cluster := rfl
@[simp] theorem Chip.modSeqs_watchdog (f : SMap Seq → SMap Seq) (s : Chip) : (s.modSeqs f).watchdog = s.watchdog := rfl
@[simp] theorem Chip.modSeqs_ci (f : SMap Seq → SMap Seq) (s : Chip) : (s.modSeqs f).ci = s.ci := rfl
@[simp] theorem Chip.modSeqs_boot (f : SMap Seq → SMap Seq) (s : Chip) : (s.modSeqs f).boot = s.boot := rfl
@[simp] theorem Chip.modSeqs_life (f : SMap Seq → SMap Seq) (s : Chip) : (s.modSeqs f).life = s.life := rfl
@[simp] theorem Chip.modSeqs_keys (f : SMap Seq → SMap Seq) (s : Chip) : (s.modSeqs f).keys = s.keys := rfl
@[simp] theorem Chip.modSeqs_crypto (f : SMap Seq → SMap Seq) (s : Chip) : (s.modSeqs f).crypto = s.crypto := rfl
@[simp] theorem Chip.modSeqs_recorder (f : SMap Seq → SMap Seq) (s : Chip) : (s.modSeqs f).recorder = s.recorder := rfl
@[simp] theorem Chip.modSeqs_reseat (f : SMap Seq → SMap Seq) (s : Chip) : (s.modSeqs f).reseat = s.reseat := rfl
@[simp] theorem Chip.modSeqs_pair (f : SMap Seq → SMap Seq) (s : Chip) : (s.modSeqs f).pair = s.pair := rfl
@[simp] theorem Chip.modSeqs_background (f : SMap Seq → SMap Seq) (s : Chip) : (s.modSeqs f).background = s.background := rfl
@[simp] theorem Chip.modSeqs_islands (f : SMap Seq → SMap Seq) (s : Chip) : (s.modSeqs f).islands = s.islands := rfl
@[simp] theorem Chip.modSeqs_out (f : SMap Seq → SMap Seq) (s : Chip) : (s.modSeqs f).out = s.out := rfl
@[simp] theorem Chip.modSeqs_free (f : SMap Seq → SMap Seq) (s : Chip) : (s.modSeqs f).free = s.free := rfl
@[simp] theorem Chip.modSegs_host (f : Segs → Segs) (s : Chip) : (s.modSegs f).host = s.host := rfl
@[simp] theorem Chip.modSegs_power (f : Segs → Segs) (s : Chip) : (s.modSegs f).power = s.power := rfl
@[simp] theorem Chip.modSegs_clk (f : Segs → Segs) (s : Chip) : (s.modSegs f).clk = s.clk := rfl
@[simp] theorem Chip.modSegs_plls (f : Segs → Segs) (s : Chip) : (s.modSegs f).plls = s.plls := rfl
@[simp] theorem Chip.modSegs_clkos (f : Segs → Segs) (s : Chip) : (s.modSegs f).clkos = s.clkos := rfl
@[simp] theorem Chip.modSegs_lanes (f : Segs → Segs) (s : Chip) : (s.modSegs f).lanes = s.lanes := rfl
@[simp] theorem Chip.modSegs_seqs (f : Segs → Segs) (s : Chip) : (s.modSegs f).seqs = s.seqs := rfl
@[simp] theorem Chip.modSegs_segs (f : Segs → Segs) (s : Chip) : (s.modSegs f).segs = f s.segs := rfl
@[simp] theorem Chip.modSegs_sealed (f : Segs → Segs) (s : Chip) : (s.modSegs f).sealed_ = s.sealed_ := rfl
@[simp] theorem Chip.modSegs_acq (f : Segs → Segs) (s : Chip) : (s.modSegs f).acq = s.acq := rfl
@[simp] theorem Chip.modSegs_dram (f : Segs → Segs) (s : Chip) : (s.modSegs f).dram = s.dram := rfl
@[simp] theorem Chip.modSegs_levels (f : Segs → Segs) (s : Chip) : (s.modSegs f).levels = s.levels := rfl
@[simp] theorem Chip.modSegs_router (f : Segs → Segs) (s : Chip) : (s.modSegs f).router = s.router := rfl
@[simp] theorem Chip.modSegs_cluster (f : Segs → Segs) (s : Chip) : (s.modSegs f).cluster = s.cluster := rfl
@[simp] theorem Chip.modSegs_watchdog (f : Segs → Segs) (s : Chip) : (s.modSegs f).watchdog = s.watchdog := rfl
@[simp] theorem Chip.modSegs_ci (f : Segs → Segs) (s : Chip) : (s.modSegs f).ci = s.ci := rfl
@[simp] theorem Chip.modSegs_boot (f : Segs → Segs) (s : Chip) : (s.modSegs f).boot = s.boot := rfl
@[simp] theorem Chip.modSegs_life (f : Segs → Segs) (s : Chip) : (s.modSegs f).life = s.life := rfl
@[simp] theorem Chip.modSegs_keys (f : Segs → Segs) (s : Chip) : (s.modSegs f).keys = s.keys := rfl
@[simp] theorem Chip.modSegs_crypto (f : Segs → Segs) (s : Chip) : (s.modSegs f).crypto = s.crypto := rfl
@[simp] theorem Chip.modSegs_recorder (f : Segs → Segs) (s : Chip) : (s.modSegs f).recorder = s.recorder := rfl
@[simp] theorem Chip.modSegs_reseat (f : Segs → Segs) (s : Chip) : (s.modSegs f).reseat = s.reseat := rfl
@[simp] theorem Chip.modSegs_pair (f : Segs → Segs) (s : Chip) : (s.modSegs f).pair = s.pair := rfl
@[simp] theorem Chip.modSegs_background (f : Segs → Segs) (s : Chip) : (s.modSegs f).background = s.background := rfl
@[simp] theorem Chip.modSegs_islands (f : Segs → Segs) (s : Chip) : (s.modSegs f).islands = s.islands := rfl
@[simp] theorem Chip.modSegs_out (f : Segs → Segs) (s : Chip) : (s.modSegs f).out = s.out := rfl
@[simp] theorem Chip.modSegs_free (f : Segs → Segs) (s : Chip) : (s.modSegs f).free = s.free := rfl
@[simp] theorem Chip.modSealed_host (f : Sealed → Sealed) (s : Chip) : (s.modSealed f).host = s.host := rfl
@[simp] theorem Chip.modSealed_power (f : Sealed → Sealed) (s : Chip) : (s.modSealed f).power = s.power := rfl
@[simp] theorem Chip.modSealed_clk (f : Sealed → Sealed) (s : Chip) : (s.modSealed f).clk = s.clk := rfl
@[simp] theorem Chip.modSealed_plls (f : Sealed → Sealed) (s : Chip) : (s.modSealed f).plls = s.plls := rfl
@[simp] theorem Chip.modSealed_clkos (f : Sealed → Sealed) (s : Chip) : (s.modSealed f).clkos = s.clkos := rfl
@[simp] theorem Chip.modSealed_lanes (f : Sealed → Sealed) (s : Chip) : (s.modSealed f).lanes = s.lanes := rfl
@[simp] theorem Chip.modSealed_seqs (f : Sealed → Sealed) (s : Chip) : (s.modSealed f).seqs = s.seqs := rfl
@[simp] theorem Chip.modSealed_segs (f : Sealed → Sealed) (s : Chip) : (s.modSealed f).segs = s.segs := rfl
@[simp] theorem Chip.modSealed_sealed (f : Sealed → Sealed) (s : Chip) : (s.modSealed f).sealed_ = f s.sealed_ := rfl
@[simp] theorem Chip.modSealed_acq (f : Sealed → Sealed) (s : Chip) : (s.modSealed f).acq = s.acq := rfl
@[simp] theorem Chip.modSealed_dram (f : Sealed → Sealed) (s : Chip) : (s.modSealed f).dram = s.dram := rfl
@[simp] theorem Chip.modSealed_levels (f : Sealed → Sealed) (s : Chip) : (s.modSealed f).levels = s.levels := rfl
@[simp] theorem Chip.modSealed_router (f : Sealed → Sealed) (s : Chip) : (s.modSealed f).router = s.router := rfl
@[simp] theorem Chip.modSealed_cluster (f : Sealed → Sealed) (s : Chip) : (s.modSealed f).cluster = s.cluster := rfl
@[simp] theorem Chip.modSealed_watchdog (f : Sealed → Sealed) (s : Chip) : (s.modSealed f).watchdog = s.watchdog := rfl
@[simp] theorem Chip.modSealed_ci (f : Sealed → Sealed) (s : Chip) : (s.modSealed f).ci = s.ci := rfl
@[simp] theorem Chip.modSealed_boot (f : Sealed → Sealed) (s : Chip) : (s.modSealed f).boot = s.boot := rfl
@[simp] theorem Chip.modSealed_life (f : Sealed → Sealed) (s : Chip) : (s.modSealed f).life = s.life := rfl
@[simp] theorem Chip.modSealed_keys (f : Sealed → Sealed) (s : Chip) : (s.modSealed f).keys = s.keys := rfl
@[simp] theorem Chip.modSealed_crypto (f : Sealed → Sealed) (s : Chip) : (s.modSealed f).crypto = s.crypto := rfl
@[simp] theorem Chip.modSealed_recorder (f : Sealed → Sealed) (s : Chip) : (s.modSealed f).recorder = s.recorder := rfl
@[simp] theorem Chip.modSealed_reseat (f : Sealed → Sealed) (s : Chip) : (s.modSealed f).reseat = s.reseat := rfl
@[simp] theorem Chip.modSealed_pair (f : Sealed → Sealed) (s : Chip) : (s.modSealed f).pair = s.pair := rfl
@[simp] theorem Chip.modSealed_background (f : Sealed → Sealed) (s : Chip) : (s.modSealed f).background = s.background := rfl
@[simp] theorem Chip.modSealed_islands (f : Sealed → Sealed) (s : Chip) : (s.modSealed f).islands = s.islands := rfl
@[simp] theorem Chip.modSealed_out (f : Sealed → Sealed) (s : Chip) : (s.modSealed f).out = s.out := rfl
@[simp] theorem Chip.modSealed_free (f : Sealed → Sealed) (s : Chip) : (s.modSealed f).free = s.free := rfl
@[simp] theorem Chip.modAcq_host (f : Acq → Acq) (s : Chip) : (s.modAcq f).host = s.host := rfl
@[simp] theorem Chip.modAcq_power (f : Acq → Acq) (s : Chip) : (s.modAcq f).power = s.power := rfl
@[simp] theorem Chip.modAcq_clk (f : Acq → Acq) (s : Chip) : (s.modAcq f).clk = s.clk := rfl
@[simp] theorem Chip.modAcq_plls (f : Acq → Acq) (s : Chip) : (s.modAcq f).plls = s.plls := rfl
@[simp] theorem Chip.modAcq_clkos (f : Acq → Acq) (s : Chip) : (s.modAcq f).clkos = s.clkos := rfl
@[simp] theorem Chip.modAcq_lanes (f : Acq → Acq) (s : Chip) : (s.modAcq f).lanes = s.lanes := rfl
@[simp] theorem Chip.modAcq_seqs (f : Acq → Acq) (s : Chip) : (s.modAcq f).seqs = s.seqs := rfl
@[simp] theorem Chip.modAcq_segs (f : Acq → Acq) (s : Chip) : (s.modAcq f).segs = s.segs := rfl
@[simp] theorem Chip.modAcq_sealed (f : Acq → Acq) (s : Chip) : (s.modAcq f).sealed_ = s.sealed_ := rfl
@[simp] theorem Chip.modAcq_acq (f : Acq → Acq) (s : Chip) : (s.modAcq f).acq = f s.acq := rfl
@[simp] theorem Chip.modAcq_dram (f : Acq → Acq) (s : Chip) : (s.modAcq f).dram = s.dram := rfl
@[simp] theorem Chip.modAcq_levels (f : Acq → Acq) (s : Chip) : (s.modAcq f).levels = s.levels := rfl
@[simp] theorem Chip.modAcq_router (f : Acq → Acq) (s : Chip) : (s.modAcq f).router = s.router := rfl
@[simp] theorem Chip.modAcq_cluster (f : Acq → Acq) (s : Chip) : (s.modAcq f).cluster = s.cluster := rfl
@[simp] theorem Chip.modAcq_watchdog (f : Acq → Acq) (s : Chip) : (s.modAcq f).watchdog = s.watchdog := rfl
@[simp] theorem Chip.modAcq_ci (f : Acq → Acq) (s : Chip) : (s.modAcq f).ci = s.ci := rfl
@[simp] theorem Chip.modAcq_boot (f : Acq → Acq) (s : Chip) : (s.modAcq f).boot = s.boot := rfl
@[simp] theorem Chip.modAcq_life (f : Acq → Acq) (s : Chip) : (s.modAcq f).life = s.life := rfl
@[simp] theorem Chip.modAcq_keys (f : Acq → Acq) (s : Chip) : (s.modAcq f).keys = s.keys := rfl
@[simp] theorem Chip.modAcq_crypto (f : Acq → Acq) (s : Chip) : (s.modAcq f).crypto = s.crypto := rfl
@[simp] theorem Chip.modAcq_recorder (f : Acq → Acq) (s : Chip) : (s.modAcq f).recorder = s.recorder := rfl
@[simp] theorem Chip.modAcq_reseat (f : Acq → Acq) (s : Chip) : (s.modAcq f).reseat = s.reseat := rfl
@[simp] theorem Chip.modAcq_pair (f : Acq → Acq) (s : Chip) : (s.modAcq f).pair = s.pair := rfl
@[simp] theorem Chip.modAcq_background (f : Acq → Acq) (s : Chip) : (s.modAcq f).background = s.background := rfl
@[simp] theorem Chip.modAcq_islands (f : Acq → Acq) (s : Chip) : (s.modAcq f).islands = s.islands := rfl
@[simp] theorem Chip.modAcq_out (f : Acq → Acq) (s : Chip) : (s.modAcq f).out = s.out := rfl
@[simp] theorem Chip.modAcq_free (f : Acq → Acq) (s : Chip) : (s.modAcq f).free = s.free := rfl
@[simp] theorem Chip.modDram_host (f : Dram → Dram) (s : Chip) : (s.modDram f).host = s.host := rfl
@[simp] theorem Chip.modDram_power (f : Dram → Dram) (s : Chip) : (s.modDram f).power = s.power := rfl
@[simp] theorem Chip.modDram_clk (f : Dram → Dram) (s : Chip) : (s.modDram f).clk = s.clk := rfl
@[simp] theorem Chip.modDram_plls (f : Dram → Dram) (s : Chip) : (s.modDram f).plls = s.plls := rfl
@[simp] theorem Chip.modDram_clkos (f : Dram → Dram) (s : Chip) : (s.modDram f).clkos = s.clkos := rfl
@[simp] theorem Chip.modDram_lanes (f : Dram → Dram) (s : Chip) : (s.modDram f).lanes = s.lanes := rfl
@[simp] theorem Chip.modDram_seqs (f : Dram → Dram) (s : Chip) : (s.modDram f).seqs = s.seqs := rfl
@[simp] theorem Chip.modDram_segs (f : Dram → Dram) (s : Chip) : (s.modDram f).segs = s.segs := rfl
@[simp] theorem Chip.modDram_sealed (f : Dram → Dram) (s : Chip) : (s.modDram f).sealed_ = s.sealed_ := rfl
@[simp] theorem Chip.modDram_acq (f : Dram → Dram) (s : Chip) : (s.modDram f).acq = s.acq := rfl
@[simp] theorem Chip.modDram_dram (f : Dram → Dram) (s : Chip) : (s.modDram f).dram = f s.dram := rfl
@[simp] theorem Chip.modDram_levels (f : Dram → Dram) (s : Chip) : (s.modDram f).levels = s.levels := rfl
@[simp] theorem Chip.modDram_router (f : Dram → Dram) (s : Chip) : (s.modDram f).router = s.router := rfl
@[simp] theorem Chip.modDram_cluster (f : Dram → Dram) (s : Chip) : (s.modDram f).cluster = s.cluster := rfl
@[simp] theorem Chip.modDram_watchdog (f : Dram → Dram) (s : Chip) : (s.modDram f).watchdog = s.watchdog := rfl
@[simp] theorem Chip.modDram_ci (f : Dram → Dram) (s : Chip) : (s.modDram f).ci = s.ci := rfl
@[simp] theorem Chip.modDram_boot (f : Dram → Dram) (s : Chip) : (s.modDram f).boot = s.boot := rfl
@[simp] theorem Chip.modDram_life (f : Dram → Dram) (s : Chip) : (s.modDram f).life = s.life := rfl
@[simp] theorem Chip.modDram_keys (f : Dram → Dram) (s : Chip) : (s.modDram f).keys = s.keys := rfl
@[simp] theorem Chip.modDram_crypto (f : Dram → Dram) (s : Chip) : (s.modDram f).crypto = s.crypto := rfl
@[simp] theorem Chip.modDram_recorder (f : Dram → Dram) (s : Chip) : (s.modDram f).recorder = s.recorder := rfl
@[simp] theorem Chip.modDram_reseat (f : Dram → Dram) (s : Chip) : (s.modDram f).reseat = s.reseat := rfl
@[simp] theorem Chip.modDram_pair (f : Dram → Dram) (s : Chip) : (s.modDram f).pair = s.pair := rfl
@[simp] theorem Chip.modDram_background (f : Dram → Dram) (s : Chip) : (s.modDram f).background = s.background := rfl
@[simp] theorem Chip.modDram_islands (f : Dram → Dram) (s : Chip) : (s.modDram f).islands = s.islands := rfl
@[simp] theorem Chip.modDram_out (f : Dram → Dram) (s : Chip) : (s.modDram f).out = s.out := rfl
@[simp] theorem Chip.modDram_free (f : Dram → Dram) (s : Chip) : (s.modDram f).free = s.free := rfl
@[simp] theorem Chip.modLevels_host (f : Levels → Levels) (s : Chip) : (s.modLevels f).host = s.host := rfl
@[simp] theorem Chip.modLevels_power (f : Levels → Levels) (s : Chip) : (s.modLevels f).power = s.power := rfl
@[simp] theorem Chip.modLevels_clk (f : Levels → Levels) (s : Chip) : (s.modLevels f).clk = s.clk := rfl
@[simp] theorem Chip.modLevels_plls (f : Levels → Levels) (s : Chip) : (s.modLevels f).plls = s.plls := rfl
@[simp] theorem Chip.modLevels_clkos (f : Levels → Levels) (s : Chip) : (s.modLevels f).clkos = s.clkos := rfl
@[simp] theorem Chip.modLevels_lanes (f : Levels → Levels) (s : Chip) : (s.modLevels f).lanes = s.lanes := rfl
@[simp] theorem Chip.modLevels_seqs (f : Levels → Levels) (s : Chip) : (s.modLevels f).seqs = s.seqs := rfl
@[simp] theorem Chip.modLevels_segs (f : Levels → Levels) (s : Chip) : (s.modLevels f).segs = s.segs := rfl
@[simp] theorem Chip.modLevels_sealed (f : Levels → Levels) (s : Chip) : (s.modLevels f).sealed_ = s.sealed_ := rfl
@[simp] theorem Chip.modLevels_acq (f : Levels → Levels) (s : Chip) : (s.modLevels f).acq = s.acq := rfl
@[simp] theorem Chip.modLevels_dram (f : Levels → Levels) (s : Chip) : (s.modLevels f).dram = s.dram := rfl
@[simp] theorem Chip.modLevels_levels (f : Levels → Levels) (s : Chip) : (s.modLevels f).levels = f s.levels := rfl
@[simp] theorem Chip.modLevels_router (f : Levels → Levels) (s : Chip) : (s.modLevels f).router = s.router := rfl
@[simp] theorem Chip.modLevels_cluster (f : Levels → Levels) (s : Chip) : (s.modLevels f).cluster = s.cluster := rfl
@[simp] theorem Chip.modLevels_watchdog (f : Levels → Levels) (s : Chip) : (s.modLevels f).watchdog = s.watchdog := rfl
@[simp] theorem Chip.modLevels_ci (f : Levels → Levels) (s : Chip) : (s.modLevels f).ci = s.ci := rfl
@[simp] theorem Chip.modLevels_boot (f : Levels → Levels) (s : Chip) : (s.modLevels f).boot = s.boot := rfl
@[simp] theorem Chip.modLevels_life (f : Levels → Levels) (s : Chip) : (s.modLevels f).life = s.life := rfl
@[simp] theorem Chip.modLevels_keys (f : Levels → Levels) (s : Chip) : (s.modLevels f).keys = s.keys := rfl
@[simp] theorem Chip.modLevels_crypto (f : Levels → Levels) (s : Chip) : (s.modLevels f).crypto = s.crypto := rfl
@[simp] theorem Chip.modLevels_recorder (f : Levels → Levels) (s : Chip) : (s.modLevels f).recorder = s.recorder := rfl
@[simp] theorem Chip.modLevels_reseat (f : Levels → Levels) (s : Chip) : (s.modLevels f).reseat = s.reseat := rfl
@[simp] theorem Chip.modLevels_pair (f : Levels → Levels) (s : Chip) : (s.modLevels f).pair = s.pair := rfl
@[simp] theorem Chip.modLevels_background (f : Levels → Levels) (s : Chip) : (s.modLevels f).background = s.background := rfl
@[simp] theorem Chip.modLevels_islands (f : Levels → Levels) (s : Chip) : (s.modLevels f).islands = s.islands := rfl
@[simp] theorem Chip.modLevels_out (f : Levels → Levels) (s : Chip) : (s.modLevels f).out = s.out := rfl
@[simp] theorem Chip.modLevels_free (f : Levels → Levels) (s : Chip) : (s.modLevels f).free = s.free := rfl
@[simp] theorem Chip.modRouter_host (f : Router → Router) (s : Chip) : (s.modRouter f).host = s.host := rfl
@[simp] theorem Chip.modRouter_power (f : Router → Router) (s : Chip) : (s.modRouter f).power = s.power := rfl
@[simp] theorem Chip.modRouter_clk (f : Router → Router) (s : Chip) : (s.modRouter f).clk = s.clk := rfl
@[simp] theorem Chip.modRouter_plls (f : Router → Router) (s : Chip) : (s.modRouter f).plls = s.plls := rfl
@[simp] theorem Chip.modRouter_clkos (f : Router → Router) (s : Chip) : (s.modRouter f).clkos = s.clkos := rfl
@[simp] theorem Chip.modRouter_lanes (f : Router → Router) (s : Chip) : (s.modRouter f).lanes = s.lanes := rfl
@[simp] theorem Chip.modRouter_seqs (f : Router → Router) (s : Chip) : (s.modRouter f).seqs = s.seqs := rfl
@[simp] theorem Chip.modRouter_segs (f : Router → Router) (s : Chip) : (s.modRouter f).segs = s.segs := rfl
@[simp] theorem Chip.modRouter_sealed (f : Router → Router) (s : Chip) : (s.modRouter f).sealed_ = s.sealed_ := rfl
@[simp] theorem Chip.modRouter_acq (f : Router → Router) (s : Chip) : (s.modRouter f).acq = s.acq := rfl
@[simp] theorem Chip.modRouter_dram (f : Router → Router) (s : Chip) : (s.modRouter f).dram = s.dram := rfl
@[simp] theorem Chip.modRouter_levels (f : Router → Router) (s : Chip) : (s.modRouter f).levels = s.levels := rfl
@[simp] theorem Chip.modRouter_router (f : Router → Router) (s : Chip) : (s.modRouter f).router = f s.router := rfl
@[simp] theorem Chip.modRouter_cluster (f : Router → Router) (s : Chip) : (s.modRouter f).cluster = s.cluster := rfl
@[simp] theorem Chip.modRouter_watchdog (f : Router → Router) (s : Chip) : (s.modRouter f).watchdog = s.watchdog := rfl
@[simp] theorem Chip.modRouter_ci (f : Router → Router) (s : Chip) : (s.modRouter f).ci = s.ci := rfl
@[simp] theorem Chip.modRouter_boot (f : Router → Router) (s : Chip) : (s.modRouter f).boot = s.boot := rfl
@[simp] theorem Chip.modRouter_life (f : Router → Router) (s : Chip) : (s.modRouter f).life = s.life := rfl
@[simp] theorem Chip.modRouter_keys (f : Router → Router) (s : Chip) : (s.modRouter f).keys = s.keys := rfl
@[simp] theorem Chip.modRouter_crypto (f : Router → Router) (s : Chip) : (s.modRouter f).crypto = s.crypto := rfl
@[simp] theorem Chip.modRouter_recorder (f : Router → Router) (s : Chip) : (s.modRouter f).recorder = s.recorder := rfl
@[simp] theorem Chip.modRouter_reseat (f : Router → Router) (s : Chip) : (s.modRouter f).reseat = s.reseat := rfl
@[simp] theorem Chip.modRouter_pair (f : Router → Router) (s : Chip) : (s.modRouter f).pair = s.pair := rfl
@[simp] theorem Chip.modRouter_background (f : Router → Router) (s : Chip) : (s.modRouter f).background = s.background := rfl
@[simp] theorem Chip.modRouter_islands (f : Router → Router) (s : Chip) : (s.modRouter f).islands = s.islands := rfl
@[simp] theorem Chip.modRouter_out (f : Router → Router) (s : Chip) : (s.modRouter f).out = s.out := rfl
@[simp] theorem Chip.modRouter_free (f : Router → Router) (s : Chip) : (s.modRouter f).free = s.free := rfl
@[simp] theorem Chip.modCluster_host (f : Cluster → Cluster) (s : Chip) : (s.modCluster f).host = s.host := rfl
@[simp] theorem Chip.modCluster_power (f : Cluster → Cluster) (s : Chip) : (s.modCluster f).power = s.power := rfl
@[simp] theorem Chip.modCluster_clk (f : Cluster → Cluster) (s : Chip) : (s.modCluster f).clk = s.clk := rfl
@[simp] theorem Chip.modCluster_plls (f : Cluster → Cluster) (s : Chip) : (s.modCluster f).plls = s.plls := rfl
@[simp] theorem Chip.modCluster_clkos (f : Cluster → Cluster) (s : Chip) : (s.modCluster f).clkos = s.clkos := rfl
@[simp] theorem Chip.modCluster_lanes (f : Cluster → Cluster) (s : Chip) : (s.modCluster f).lanes = s.lanes := rfl
@[simp] theorem Chip.modCluster_seqs (f : Cluster → Cluster) (s : Chip) : (s.modCluster f).seqs = s.seqs := rfl
@[simp] theorem Chip.modCluster_segs (f : Cluster → Cluster) (s : Chip) : (s.modCluster f).segs = s.segs := rfl
@[simp] theorem Chip.modCluster_sealed (f : Cluster → Cluster) (s : Chip) : (s.modCluster f).sealed_ = s.sealed_ := rfl
@[simp] theorem Chip.modCluster_acq (f : Cluster → Cluster) (s : Chip) : (s.modCluster f).acq = s.acq := rfl
@[simp] theorem Chip.modCluster_dram (f : Cluster → Cluster) (s : Chip) : (s.modCluster f).dram = s.dram := rfl
@[simp] theorem Chip.modCluster_levels (f : Cluster → Cluster) (s : Chip) : (s.modCluster f).levels = s.levels := rfl
@[simp] theorem Chip.modCluster_router (f : Cluster → Cluster) (s : Chip) : (s.modCluster f).router = s.router := rfl
@[simp] theorem Chip.modCluster_cluster (f : Cluster → Cluster) (s : Chip) : (s.modCluster f).cluster = f s.cluster := rfl
@[simp] theorem Chip.modCluster_watchdog (f : Cluster → Cluster) (s : Chip) : (s.modCluster f).watchdog = s.watchdog := rfl
@[simp] theorem Chip.modCluster_ci (f : Cluster → Cluster) (s : Chip) : (s.modCluster f).ci = s.ci := rfl
@[simp] theorem Chip.modCluster_boot (f : Cluster → Cluster) (s : Chip) : (s.modCluster f).boot = s.boot := rfl
@[simp] theorem Chip.modCluster_life (f : Cluster → Cluster) (s : Chip) : (s.modCluster f).life = s.life := rfl
@[simp] theorem Chip.modCluster_keys (f : Cluster → Cluster) (s : Chip) : (s.modCluster f).keys = s.keys := rfl
@[simp] theorem Chip.modCluster_crypto (f : Cluster → Cluster) (s : Chip) : (s.modCluster f).crypto = s.crypto := rfl
@[simp] theorem Chip.modCluster_recorder (f : Cluster → Cluster) (s : Chip) : (s.modCluster f).recorder = s.recorder := rfl
@[simp] theorem Chip.modCluster_reseat (f : Cluster → Cluster) (s : Chip) : (s.modCluster f).reseat = s.reseat := rfl
@[simp] theorem Chip.modCluster_pair (f : Cluster → Cluster) (s : Chip) : (s.modCluster f).pair = s.pair := rfl
@[simp] theorem Chip.modCluster_background (f : Cluster → Cluster) (s : Chip) : (s.modCluster f).background = s.background := rfl
@[simp] theorem Chip.modCluster_islands (f : Cluster → Cluster) (s : Chip) : (s.modCluster f).islands = s.islands := rfl
@[simp] theorem Chip.modCluster_out (f : Cluster → Cluster) (s : Chip) : (s.modCluster f).out = s.out := rfl
@[simp] theorem Chip.modCluster_free (f : Cluster → Cluster) (s : Chip) : (s.modCluster f).free = s.free := rfl
@[simp] theorem Chip.modWatchdog_host (f : Watchdog → Watchdog) (s : Chip) : (s.modWatchdog f).host = s.host := rfl
@[simp] theorem Chip.modWatchdog_power (f : Watchdog → Watchdog) (s : Chip) : (s.modWatchdog f).power = s.power := rfl
@[simp] theorem Chip.modWatchdog_clk (f : Watchdog → Watchdog) (s : Chip) : (s.modWatchdog f).clk = s.clk := rfl
@[simp] theorem Chip.modWatchdog_plls (f : Watchdog → Watchdog) (s : Chip) : (s.modWatchdog f).plls = s.plls := rfl
@[simp] theorem Chip.modWatchdog_clkos (f : Watchdog → Watchdog) (s : Chip) : (s.modWatchdog f).clkos = s.clkos := rfl
@[simp] theorem Chip.modWatchdog_lanes (f : Watchdog → Watchdog) (s : Chip) : (s.modWatchdog f).lanes = s.lanes := rfl
@[simp] theorem Chip.modWatchdog_seqs (f : Watchdog → Watchdog) (s : Chip) : (s.modWatchdog f).seqs = s.seqs := rfl
@[simp] theorem Chip.modWatchdog_segs (f : Watchdog → Watchdog) (s : Chip) : (s.modWatchdog f).segs = s.segs := rfl
@[simp] theorem Chip.modWatchdog_sealed (f : Watchdog → Watchdog) (s : Chip) : (s.modWatchdog f).sealed_ = s.sealed_ := rfl
@[simp] theorem Chip.modWatchdog_acq (f : Watchdog → Watchdog) (s : Chip) : (s.modWatchdog f).acq = s.acq := rfl
@[simp] theorem Chip.modWatchdog_dram (f : Watchdog → Watchdog) (s : Chip) : (s.modWatchdog f).dram = s.dram := rfl
@[simp] theorem Chip.modWatchdog_levels (f : Watchdog → Watchdog) (s : Chip) : (s.modWatchdog f).levels = s.levels := rfl
@[simp] theorem Chip.modWatchdog_router (f : Watchdog → Watchdog) (s : Chip) : (s.modWatchdog f).router = s.router := rfl
@[simp] theorem Chip.modWatchdog_cluster (f : Watchdog → Watchdog) (s : Chip) : (s.modWatchdog f).cluster = s.cluster := rfl
@[simp] theorem Chip.modWatchdog_watchdog (f : Watchdog → Watchdog) (s : Chip) : (s.modWatchdog f).watchdog = f s.watchdog := rfl
@[simp] theorem Chip.modWatchdog_ci (f : Watchdog → Watchdog) (s : Chip) : (s.modWatchdog f).ci = s.ci := rfl
@[simp] theorem Chip.modWatchdog_boot (f : Watchdog → Watchdog) (s : Chip) : (s.modWatchdog f).boot = s.boot := rfl
@[simp] theorem Chip.modWatchdog_life (f : Watchdog → Watchdog) (s : Chip) : (s.modWatchdog f).life = s.life := rfl
@[simp] theorem Chip.modWatchdog_keys (f : Watchdog → Watchdog) (s : Chip) : (s.modWatchdog f).keys = s.keys := rfl
@[simp] theorem Chip.modWatchdog_crypto (f : Watchdog → Watchdog) (s : Chip) : (s.modWatchdog f).crypto = s.crypto := rfl
@[simp] theorem Chip.modWatchdog_recorder (f : Watchdog → Watchdog) (s : Chip) : (s.modWatchdog f).recorder = s.recorder := rfl
@[simp] theorem Chip.modWatchdog_reseat (f : Watchdog → Watchdog) (s : Chip) : (s.modWatchdog f).reseat = s.reseat := rfl
@[simp] theorem Chip.modWatchdog_pair (f : Watchdog → Watchdog) (s : Chip) : (s.modWatchdog f).pair = s.pair := rfl
@[simp] theorem Chip.modWatchdog_background (f : Watchdog → Watchdog) (s : Chip) : (s.modWatchdog f).background = s.background := rfl
@[simp] theorem Chip.modWatchdog_islands (f : Watchdog → Watchdog) (s : Chip) : (s.modWatchdog f).islands = s.islands := rfl
@[simp] theorem Chip.modWatchdog_out (f : Watchdog → Watchdog) (s : Chip) : (s.modWatchdog f).out = s.out := rfl
@[simp] theorem Chip.modWatchdog_free (f : Watchdog → Watchdog) (s : Chip) : (s.modWatchdog f).free = s.free := rfl
@[simp] theorem Chip.modCi_host (f : Conductor → Conductor) (s : Chip) : (s.modCi f).host = s.host := rfl
@[simp] theorem Chip.modCi_power (f : Conductor → Conductor) (s : Chip) : (s.modCi f).power = s.power := rfl
@[simp] theorem Chip.modCi_clk (f : Conductor → Conductor) (s : Chip) : (s.modCi f).clk = s.clk := rfl
@[simp] theorem Chip.modCi_plls (f : Conductor → Conductor) (s : Chip) : (s.modCi f).plls = s.plls := rfl
@[simp] theorem Chip.modCi_clkos (f : Conductor → Conductor) (s : Chip) : (s.modCi f).clkos = s.clkos := rfl
@[simp] theorem Chip.modCi_lanes (f : Conductor → Conductor) (s : Chip) : (s.modCi f).lanes = s.lanes := rfl
@[simp] theorem Chip.modCi_seqs (f : Conductor → Conductor) (s : Chip) : (s.modCi f).seqs = s.seqs := rfl
@[simp] theorem Chip.modCi_segs (f : Conductor → Conductor) (s : Chip) : (s.modCi f).segs = s.segs := rfl
@[simp] theorem Chip.modCi_sealed (f : Conductor → Conductor) (s : Chip) : (s.modCi f).sealed_ = s.sealed_ := rfl
@[simp] theorem Chip.modCi_acq (f : Conductor → Conductor) (s : Chip) : (s.modCi f).acq = s.acq := rfl
@[simp] theorem Chip.modCi_dram (f : Conductor → Conductor) (s : Chip) : (s.modCi f).dram = s.dram := rfl
@[simp] theorem Chip.modCi_levels (f : Conductor → Conductor) (s : Chip) : (s.modCi f).levels = s.levels := rfl
@[simp] theorem Chip.modCi_router (f : Conductor → Conductor) (s : Chip) : (s.modCi f).router = s.router := rfl
@[simp] theorem Chip.modCi_cluster (f : Conductor → Conductor) (s : Chip) : (s.modCi f).cluster = s.cluster := rfl
@[simp] theorem Chip.modCi_watchdog (f : Conductor → Conductor) (s : Chip) : (s.modCi f).watchdog = s.watchdog := rfl
@[simp] theorem Chip.modCi_ci (f : Conductor → Conductor) (s : Chip) : (s.modCi f).ci = f s.ci := rfl
@[simp] theorem Chip.modCi_boot (f : Conductor → Conductor) (s : Chip) : (s.modCi f).boot = s.boot := rfl
@[simp] theorem Chip.modCi_life (f : Conductor → Conductor) (s : Chip) : (s.modCi f).life = s.life := rfl
@[simp] theorem Chip.modCi_keys (f : Conductor → Conductor) (s : Chip) : (s.modCi f).keys = s.keys := rfl
@[simp] theorem Chip.modCi_crypto (f : Conductor → Conductor) (s : Chip) : (s.modCi f).crypto = s.crypto := rfl
@[simp] theorem Chip.modCi_recorder (f : Conductor → Conductor) (s : Chip) : (s.modCi f).recorder = s.recorder := rfl
@[simp] theorem Chip.modCi_reseat (f : Conductor → Conductor) (s : Chip) : (s.modCi f).reseat = s.reseat := rfl
@[simp] theorem Chip.modCi_pair (f : Conductor → Conductor) (s : Chip) : (s.modCi f).pair = s.pair := rfl
@[simp] theorem Chip.modCi_background (f : Conductor → Conductor) (s : Chip) : (s.modCi f).background = s.background := rfl
@[simp] theorem Chip.modCi_islands (f : Conductor → Conductor) (s : Chip) : (s.modCi f).islands = s.islands := rfl
@[simp] theorem Chip.modCi_out (f : Conductor → Conductor) (s : Chip) : (s.modCi f).out = s.out := rfl
@[simp] theorem Chip.modCi_free (f : Conductor → Conductor) (s : Chip) : (s.modCi f).free = s.free := rfl
@[simp] theorem Chip.modBoot_host (f : Boot → Boot) (s : Chip) : (s.modBoot f).host = s.host := rfl
@[simp] theorem Chip.modBoot_power (f : Boot → Boot) (s : Chip) : (s.modBoot f).power = s.power := rfl
@[simp] theorem Chip.modBoot_clk (f : Boot → Boot) (s : Chip) : (s.modBoot f).clk = s.clk := rfl
@[simp] theorem Chip.modBoot_plls (f : Boot → Boot) (s : Chip) : (s.modBoot f).plls = s.plls := rfl
@[simp] theorem Chip.modBoot_clkos (f : Boot → Boot) (s : Chip) : (s.modBoot f).clkos = s.clkos := rfl
@[simp] theorem Chip.modBoot_lanes (f : Boot → Boot) (s : Chip) : (s.modBoot f).lanes = s.lanes := rfl
@[simp] theorem Chip.modBoot_seqs (f : Boot → Boot) (s : Chip) : (s.modBoot f).seqs = s.seqs := rfl
@[simp] theorem Chip.modBoot_segs (f : Boot → Boot) (s : Chip) : (s.modBoot f).segs = s.segs := rfl
@[simp] theorem Chip.modBoot_sealed (f : Boot → Boot) (s : Chip) : (s.modBoot f).sealed_ = s.sealed_ := rfl
@[simp] theorem Chip.modBoot_acq (f : Boot → Boot) (s : Chip) : (s.modBoot f).acq = s.acq := rfl
@[simp] theorem Chip.modBoot_dram (f : Boot → Boot) (s : Chip) : (s.modBoot f).dram = s.dram := rfl
@[simp] theorem Chip.modBoot_levels (f : Boot → Boot) (s : Chip) : (s.modBoot f).levels = s.levels := rfl
@[simp] theorem Chip.modBoot_router (f : Boot → Boot) (s : Chip) : (s.modBoot f).router = s.router := rfl
@[simp] theorem Chip.modBoot_cluster (f : Boot → Boot) (s : Chip) : (s.modBoot f).cluster = s.cluster := rfl
@[simp] theorem Chip.modBoot_watchdog (f : Boot → Boot) (s : Chip) : (s.modBoot f).watchdog = s.watchdog := rfl
@[simp] theorem Chip.modBoot_ci (f : Boot → Boot) (s : Chip) : (s.modBoot f).ci = s.ci := rfl
@[simp] theorem Chip.modBoot_boot (f : Boot → Boot) (s : Chip) : (s.modBoot f).boot = f s.boot := rfl
@[simp] theorem Chip.modBoot_life (f : Boot → Boot) (s : Chip) : (s.modBoot f).life = s.life := rfl
@[simp] theorem Chip.modBoot_keys (f : Boot → Boot) (s : Chip) : (s.modBoot f).keys = s.keys := rfl
@[simp] theorem Chip.modBoot_crypto (f : Boot → Boot) (s : Chip) : (s.modBoot f).crypto = s.crypto := rfl
@[simp] theorem Chip.modBoot_recorder (f : Boot → Boot) (s : Chip) : (s.modBoot f).recorder = s.recorder := rfl
@[simp] theorem Chip.modBoot_reseat (f : Boot → Boot) (s : Chip) : (s.modBoot f).reseat = s.reseat := rfl
@[simp] theorem Chip.modBoot_pair (f : Boot → Boot) (s : Chip) : (s.modBoot f).pair = s.pair := rfl
@[simp] theorem Chip.modBoot_background (f : Boot → Boot) (s : Chip) : (s.modBoot f).background = s.background := rfl
@[simp] theorem Chip.modBoot_islands (f : Boot → Boot) (s : Chip) : (s.modBoot f).islands = s.islands := rfl
@[simp] theorem Chip.modBoot_out (f : Boot → Boot) (s : Chip) : (s.modBoot f).out = s.out := rfl
@[simp] theorem Chip.modBoot_free (f : Boot → Boot) (s : Chip) : (s.modBoot f).free = s.free := rfl
@[simp] theorem Chip.modLife_host (f : LifeState → LifeState) (s : Chip) : (s.modLife f).host = s.host := rfl
@[simp] theorem Chip.modLife_power (f : LifeState → LifeState) (s : Chip) : (s.modLife f).power = s.power := rfl
@[simp] theorem Chip.modLife_clk (f : LifeState → LifeState) (s : Chip) : (s.modLife f).clk = s.clk := rfl
@[simp] theorem Chip.modLife_plls (f : LifeState → LifeState) (s : Chip) : (s.modLife f).plls = s.plls := rfl
@[simp] theorem Chip.modLife_clkos (f : LifeState → LifeState) (s : Chip) : (s.modLife f).clkos = s.clkos := rfl
@[simp] theorem Chip.modLife_lanes (f : LifeState → LifeState) (s : Chip) : (s.modLife f).lanes = s.lanes := rfl
@[simp] theorem Chip.modLife_seqs (f : LifeState → LifeState) (s : Chip) : (s.modLife f).seqs = s.seqs := rfl
@[simp] theorem Chip.modLife_segs (f : LifeState → LifeState) (s : Chip) : (s.modLife f).segs = s.segs := rfl
@[simp] theorem Chip.modLife_sealed (f : LifeState → LifeState) (s : Chip) : (s.modLife f).sealed_ = s.sealed_ := rfl
@[simp] theorem Chip.modLife_acq (f : LifeState → LifeState) (s : Chip) : (s.modLife f).acq = s.acq := rfl
@[simp] theorem Chip.modLife_dram (f : LifeState → LifeState) (s : Chip) : (s.modLife f).dram = s.dram := rfl
@[simp] theorem Chip.modLife_levels (f : LifeState → LifeState) (s : Chip) : (s.modLife f).levels = s.levels := rfl
@[simp] theorem Chip.modLife_router (f : LifeState → LifeState) (s : Chip) : (s.modLife f).router = s.router := rfl
@[simp] theorem Chip.modLife_cluster (f : LifeState → LifeState) (s : Chip) : (s.modLife f).cluster = s.cluster := rfl
@[simp] theorem Chip.modLife_watchdog (f : LifeState → LifeState) (s : Chip) : (s.modLife f).watchdog = s.watchdog := rfl
@[simp] theorem Chip.modLife_ci (f : LifeState → LifeState) (s : Chip) : (s.modLife f).ci = s.ci := rfl
@[simp] theorem Chip.modLife_boot (f : LifeState → LifeState) (s : Chip) : (s.modLife f).boot = s.boot := rfl
@[simp] theorem Chip.modLife_life (f : LifeState → LifeState) (s : Chip) : (s.modLife f).life = f s.life := rfl
@[simp] theorem Chip.modLife_keys (f : LifeState → LifeState) (s : Chip) : (s.modLife f).keys = s.keys := rfl
@[simp] theorem Chip.modLife_crypto (f : LifeState → LifeState) (s : Chip) : (s.modLife f).crypto = s.crypto := rfl
@[simp] theorem Chip.modLife_recorder (f : LifeState → LifeState) (s : Chip) : (s.modLife f).recorder = s.recorder := rfl
@[simp] theorem Chip.modLife_reseat (f : LifeState → LifeState) (s : Chip) : (s.modLife f).reseat = s.reseat := rfl
@[simp] theorem Chip.modLife_pair (f : LifeState → LifeState) (s : Chip) : (s.modLife f).pair = s.pair := rfl
@[simp] theorem Chip.modLife_background (f : LifeState → LifeState) (s : Chip) : (s.modLife f).background = s.background := rfl
@[simp] theorem Chip.modLife_islands (f : LifeState → LifeState) (s : Chip) : (s.modLife f).islands = s.islands := rfl
@[simp] theorem Chip.modLife_out (f : LifeState → LifeState) (s : Chip) : (s.modLife f).out = s.out := rfl
@[simp] theorem Chip.modLife_free (f : LifeState → LifeState) (s : Chip) : (s.modLife f).free = s.free := rfl
@[simp] theorem Chip.modKeys_host (f : Keys → Keys) (s : Chip) : (s.modKeys f).host = s.host := rfl
@[simp] theorem Chip.modKeys_power (f : Keys → Keys) (s : Chip) : (s.modKeys f).power = s.power := rfl
@[simp] theorem Chip.modKeys_clk (f : Keys → Keys) (s : Chip) : (s.modKeys f).clk = s.clk := rfl
@[simp] theorem Chip.modKeys_plls (f : Keys → Keys) (s : Chip) : (s.modKeys f).plls = s.plls := rfl
@[simp] theorem Chip.modKeys_clkos (f : Keys → Keys) (s : Chip) : (s.modKeys f).clkos = s.clkos := rfl
@[simp] theorem Chip.modKeys_lanes (f : Keys → Keys) (s : Chip) : (s.modKeys f).lanes = s.lanes := rfl
@[simp] theorem Chip.modKeys_seqs (f : Keys → Keys) (s : Chip) : (s.modKeys f).seqs = s.seqs := rfl
@[simp] theorem Chip.modKeys_segs (f : Keys → Keys) (s : Chip) : (s.modKeys f).segs = s.segs := rfl
@[simp] theorem Chip.modKeys_sealed (f : Keys → Keys) (s : Chip) : (s.modKeys f).sealed_ = s.sealed_ := rfl
@[simp] theorem Chip.modKeys_acq (f : Keys → Keys) (s : Chip) : (s.modKeys f).acq = s.acq := rfl
@[simp] theorem Chip.modKeys_dram (f : Keys → Keys) (s : Chip) : (s.modKeys f).dram = s.dram := rfl
@[simp] theorem Chip.modKeys_levels (f : Keys → Keys) (s : Chip) : (s.modKeys f).levels = s.levels := rfl
@[simp] theorem Chip.modKeys_router (f : Keys → Keys) (s : Chip) : (s.modKeys f).router = s.router := rfl
@[simp] theorem Chip.modKeys_cluster (f : Keys → Keys) (s : Chip) : (s.modKeys f).cluster = s.cluster := rfl
@[simp] theorem Chip.modKeys_watchdog (f : Keys → Keys) (s : Chip) : (s.modKeys f).watchdog = s.watchdog := rfl
@[simp] theorem Chip.modKeys_ci (f : Keys → Keys) (s : Chip) : (s.modKeys f).ci = s.ci := rfl
@[simp] theorem Chip.modKeys_boot (f : Keys → Keys) (s : Chip) : (s.modKeys f).boot = s.boot := rfl
@[simp] theorem Chip.modKeys_life (f : Keys → Keys) (s : Chip) : (s.modKeys f).life = s.life := rfl
@[simp] theorem Chip.modKeys_keys (f : Keys → Keys) (s : Chip) : (s.modKeys f).keys = f s.keys := rfl
@[simp] theorem Chip.modKeys_crypto (f : Keys → Keys) (s : Chip) : (s.modKeys f).crypto = s.crypto := rfl
@[simp] theorem Chip.modKeys_recorder (f : Keys → Keys) (s : Chip) : (s.modKeys f).recorder = s.recorder := rfl
@[simp] theorem Chip.modKeys_reseat (f : Keys → Keys) (s : Chip) : (s.modKeys f).reseat = s.reseat := rfl
@[simp] theorem Chip.modKeys_pair (f : Keys → Keys) (s : Chip) : (s.modKeys f).pair = s.pair := rfl
@[simp] theorem Chip.modKeys_background (f : Keys → Keys) (s : Chip) : (s.modKeys f).background = s.background := rfl
@[simp] theorem Chip.modKeys_islands (f : Keys → Keys) (s : Chip) : (s.modKeys f).islands = s.islands := rfl
@[simp] theorem Chip.modKeys_out (f : Keys → Keys) (s : Chip) : (s.modKeys f).out = s.out := rfl
@[simp] theorem Chip.modKeys_free (f : Keys → Keys) (s : Chip) : (s.modKeys f).free = s.free := rfl
@[simp] theorem Chip.modCrypto_host (f : Crypto → Crypto) (s : Chip) : (s.modCrypto f).host = s.host := rfl
@[simp] theorem Chip.modCrypto_power (f : Crypto → Crypto) (s : Chip) : (s.modCrypto f).power = s.power := rfl
@[simp] theorem Chip.modCrypto_clk (f : Crypto → Crypto) (s : Chip) : (s.modCrypto f).clk = s.clk := rfl
@[simp] theorem Chip.modCrypto_plls (f : Crypto → Crypto) (s : Chip) : (s.modCrypto f).plls = s.plls := rfl
@[simp] theorem Chip.modCrypto_clkos (f : Crypto → Crypto) (s : Chip) : (s.modCrypto f).clkos = s.clkos := rfl
@[simp] theorem Chip.modCrypto_lanes (f : Crypto → Crypto) (s : Chip) : (s.modCrypto f).lanes = s.lanes := rfl
@[simp] theorem Chip.modCrypto_seqs (f : Crypto → Crypto) (s : Chip) : (s.modCrypto f).seqs = s.seqs := rfl
@[simp] theorem Chip.modCrypto_segs (f : Crypto → Crypto) (s : Chip) : (s.modCrypto f).segs = s.segs := rfl
@[simp] theorem Chip.modCrypto_sealed (f : Crypto → Crypto) (s : Chip) : (s.modCrypto f).sealed_ = s.sealed_ := rfl
@[simp] theorem Chip.modCrypto_acq (f : Crypto → Crypto) (s : Chip) : (s.modCrypto f).acq = s.acq := rfl
@[simp] theorem Chip.modCrypto_dram (f : Crypto → Crypto) (s : Chip) : (s.modCrypto f).dram = s.dram := rfl
@[simp] theorem Chip.modCrypto_levels (f : Crypto → Crypto) (s : Chip) : (s.modCrypto f).levels = s.levels := rfl
@[simp] theorem Chip.modCrypto_router (f : Crypto → Crypto) (s : Chip) : (s.modCrypto f).router = s.router := rfl
@[simp] theorem Chip.modCrypto_cluster (f : Crypto → Crypto) (s : Chip) : (s.modCrypto f).cluster = s.cluster := rfl
@[simp] theorem Chip.modCrypto_watchdog (f : Crypto → Crypto) (s : Chip) : (s.modCrypto f).watchdog = s.watchdog := rfl
@[simp] theorem Chip.modCrypto_ci (f : Crypto → Crypto) (s : Chip) : (s.modCrypto f).ci = s.ci := rfl
@[simp] theorem Chip.modCrypto_boot (f : Crypto → Crypto) (s : Chip) : (s.modCrypto f).boot = s.boot := rfl
@[simp] theorem Chip.modCrypto_life (f : Crypto → Crypto) (s : Chip) : (s.modCrypto f).life = s.life := rfl
@[simp] theorem Chip.modCrypto_keys (f : Crypto → Crypto) (s : Chip) : (s.modCrypto f).keys = s.keys := rfl
@[simp] theorem Chip.modCrypto_crypto (f : Crypto → Crypto) (s : Chip) : (s.modCrypto f).crypto = f s.crypto := rfl
@[simp] theorem Chip.modCrypto_recorder (f : Crypto → Crypto) (s : Chip) : (s.modCrypto f).recorder = s.recorder := rfl
@[simp] theorem Chip.modCrypto_reseat (f : Crypto → Crypto) (s : Chip) : (s.modCrypto f).reseat = s.reseat := rfl
@[simp] theorem Chip.modCrypto_pair (f : Crypto → Crypto) (s : Chip) : (s.modCrypto f).pair = s.pair := rfl
@[simp] theorem Chip.modCrypto_background (f : Crypto → Crypto) (s : Chip) : (s.modCrypto f).background = s.background := rfl
@[simp] theorem Chip.modCrypto_islands (f : Crypto → Crypto) (s : Chip) : (s.modCrypto f).islands = s.islands := rfl
@[simp] theorem Chip.modCrypto_out (f : Crypto → Crypto) (s : Chip) : (s.modCrypto f).out = s.out := rfl
@[simp] theorem Chip.modCrypto_free (f : Crypto → Crypto) (s : Chip) : (s.modCrypto f).free = s.free := rfl
@[simp] theorem Chip.modRecorder_host (f : Recorder → Recorder) (s : Chip) : (s.modRecorder f).host = s.host := rfl
@[simp] theorem Chip.modRecorder_power (f : Recorder → Recorder) (s : Chip) : (s.modRecorder f).power = s.power := rfl
@[simp] theorem Chip.modRecorder_clk (f : Recorder → Recorder) (s : Chip) : (s.modRecorder f).clk = s.clk := rfl
@[simp] theorem Chip.modRecorder_plls (f : Recorder → Recorder) (s : Chip) : (s.modRecorder f).plls = s.plls := rfl
@[simp] theorem Chip.modRecorder_clkos (f : Recorder → Recorder) (s : Chip) : (s.modRecorder f).clkos = s.clkos := rfl
@[simp] theorem Chip.modRecorder_lanes (f : Recorder → Recorder) (s : Chip) : (s.modRecorder f).lanes = s.lanes := rfl
@[simp] theorem Chip.modRecorder_seqs (f : Recorder → Recorder) (s : Chip) : (s.modRecorder f).seqs = s.seqs := rfl
@[simp] theorem Chip.modRecorder_segs (f : Recorder → Recorder) (s : Chip) : (s.modRecorder f).segs = s.segs := rfl
@[simp] theorem Chip.modRecorder_sealed (f : Recorder → Recorder) (s : Chip) : (s.modRecorder f).sealed_ = s.sealed_ := rfl
@[simp] theorem Chip.modRecorder_acq (f : Recorder → Recorder) (s : Chip) : (s.modRecorder f).acq = s.acq := rfl
@[simp] theorem Chip.modRecorder_dram (f : Recorder → Recorder) (s : Chip) : (s.modRecorder f).dram = s.dram := rfl
@[simp] theorem Chip.modRecorder_levels (f : Recorder → Recorder) (s : Chip) : (s.modRecorder f).levels = s.levels := rfl
@[simp] theorem Chip.modRecorder_router (f : Recorder → Recorder) (s : Chip) : (s.modRecorder f).router = s.router := rfl
@[simp] theorem Chip.modRecorder_cluster (f : Recorder → Recorder) (s : Chip) : (s.modRecorder f).cluster = s.cluster := rfl
@[simp] theorem Chip.modRecorder_watchdog (f : Recorder → Recorder) (s : Chip) : (s.modRecorder f).watchdog = s.watchdog := rfl
@[simp] theorem Chip.modRecorder_ci (f : Recorder → Recorder) (s : Chip) : (s.modRecorder f).ci = s.ci := rfl
@[simp] theorem Chip.modRecorder_boot (f : Recorder → Recorder) (s : Chip) : (s.modRecorder f).boot = s.boot := rfl
@[simp] theorem Chip.modRecorder_life (f : Recorder → Recorder) (s : Chip) : (s.modRecorder f).life = s.life := rfl
@[simp] theorem Chip.modRecorder_keys (f : Recorder → Recorder) (s : Chip) : (s.modRecorder f).keys = s.keys := rfl
@[simp] theorem Chip.modRecorder_crypto (f : Recorder → Recorder) (s : Chip) : (s.modRecorder f).crypto = s.crypto := rfl
@[simp] theorem Chip.modRecorder_recorder (f : Recorder → Recorder) (s : Chip) : (s.modRecorder f).recorder = f s.recorder := rfl
@[simp] theorem Chip.modRecorder_reseat (f : Recorder → Recorder) (s : Chip) : (s.modRecorder f).reseat = s.reseat := rfl
@[simp] theorem Chip.modRecorder_pair (f : Recorder → Recorder) (s : Chip) : (s.modRecorder f).pair = s.pair := rfl
@[simp] theorem Chip.modRecorder_background (f : Recorder → Recorder) (s : Chip) : (s.modRecorder f).background = s.background := rfl
@[simp] theorem Chip.modRecorder_islands (f : Recorder → Recorder) (s : Chip) : (s.modRecorder f).islands = s.islands := rfl
@[simp] theorem Chip.modRecorder_out (f : Recorder → Recorder) (s : Chip) : (s.modRecorder f).out = s.out := rfl
@[simp] theorem Chip.modRecorder_free (f : Recorder → Recorder) (s : Chip) : (s.modRecorder f).free = s.free := rfl
@[simp] theorem Chip.modReseat_host (f : Reseat → Reseat) (s : Chip) : (s.modReseat f).host = s.host := rfl
@[simp] theorem Chip.modReseat_power (f : Reseat → Reseat) (s : Chip) : (s.modReseat f).power = s.power := rfl
@[simp] theorem Chip.modReseat_clk (f : Reseat → Reseat) (s : Chip) : (s.modReseat f).clk = s.clk := rfl
@[simp] theorem Chip.modReseat_plls (f : Reseat → Reseat) (s : Chip) : (s.modReseat f).plls = s.plls := rfl
@[simp] theorem Chip.modReseat_clkos (f : Reseat → Reseat) (s : Chip) : (s.modReseat f).clkos = s.clkos := rfl
@[simp] theorem Chip.modReseat_lanes (f : Reseat → Reseat) (s : Chip) : (s.modReseat f).lanes = s.lanes := rfl
@[simp] theorem Chip.modReseat_seqs (f : Reseat → Reseat) (s : Chip) : (s.modReseat f).seqs = s.seqs := rfl
@[simp] theorem Chip.modReseat_segs (f : Reseat → Reseat) (s : Chip) : (s.modReseat f).segs = s.segs := rfl
@[simp] theorem Chip.modReseat_sealed (f : Reseat → Reseat) (s : Chip) : (s.modReseat f).sealed_ = s.sealed_ := rfl
@[simp] theorem Chip.modReseat_acq (f : Reseat → Reseat) (s : Chip) : (s.modReseat f).acq = s.acq := rfl
@[simp] theorem Chip.modReseat_dram (f : Reseat → Reseat) (s : Chip) : (s.modReseat f).dram = s.dram := rfl
@[simp] theorem Chip.modReseat_levels (f : Reseat → Reseat) (s : Chip) : (s.modReseat f).levels = s.levels := rfl
@[simp] theorem Chip.modReseat_router (f : Reseat → Reseat) (s : Chip) : (s.modReseat f).router = s.router := rfl
@[simp] theorem Chip.modReseat_cluster (f : Reseat → Reseat) (s : Chip) : (s.modReseat f).cluster = s.cluster := rfl
@[simp] theorem Chip.modReseat_watchdog (f : Reseat → Reseat) (s : Chip) : (s.modReseat f).watchdog = s.watchdog := rfl
@[simp] theorem Chip.modReseat_ci (f : Reseat → Reseat) (s : Chip) : (s.modReseat f).ci = s.ci := rfl
@[simp] theorem Chip.modReseat_boot (f : Reseat → Reseat) (s : Chip) : (s.modReseat f).boot = s.boot := rfl
@[simp] theorem Chip.modReseat_life (f : Reseat → Reseat) (s : Chip) : (s.modReseat f).life = s.life := rfl
@[simp] theorem Chip.modReseat_keys (f : Reseat → Reseat) (s : Chip) : (s.modReseat f).keys = s.keys := rfl
@[simp] theorem Chip.modReseat_crypto (f : Reseat → Reseat) (s : Chip) : (s.modReseat f).crypto = s.crypto := rfl
@[simp] theorem Chip.modReseat_recorder (f : Reseat → Reseat) (s : Chip) : (s.modReseat f).recorder = s.recorder := rfl
@[simp] theorem Chip.modReseat_reseat (f : Reseat → Reseat) (s : Chip) : (s.modReseat f).reseat = f s.reseat := rfl
@[simp] theorem Chip.modReseat_pair (f : Reseat → Reseat) (s : Chip) : (s.modReseat f).pair = s.pair := rfl
@[simp] theorem Chip.modReseat_background (f : Reseat → Reseat) (s : Chip) : (s.modReseat f).background = s.background := rfl
@[simp] theorem Chip.modReseat_islands (f : Reseat → Reseat) (s : Chip) : (s.modReseat f).islands = s.islands := rfl
@[simp] theorem Chip.modReseat_out (f : Reseat → Reseat) (s : Chip) : (s.modReseat f).out = s.out := rfl
@[simp] theorem Chip.modReseat_free (f : Reseat → Reseat) (s : Chip) : (s.modReseat f).free = s.free := rfl
@[simp] theorem Chip.modPair_host (f : Pair → Pair) (s : Chip) : (s.modPair f).host = s.host := rfl
@[simp] theorem Chip.modPair_power (f : Pair → Pair) (s : Chip) : (s.modPair f).power = s.power := rfl
@[simp] theorem Chip.modPair_clk (f : Pair → Pair) (s : Chip) : (s.modPair f).clk = s.clk := rfl
@[simp] theorem Chip.modPair_plls (f : Pair → Pair) (s : Chip) : (s.modPair f).plls = s.plls := rfl
@[simp] theorem Chip.modPair_clkos (f : Pair → Pair) (s : Chip) : (s.modPair f).clkos = s.clkos := rfl
@[simp] theorem Chip.modPair_lanes (f : Pair → Pair) (s : Chip) : (s.modPair f).lanes = s.lanes := rfl
@[simp] theorem Chip.modPair_seqs (f : Pair → Pair) (s : Chip) : (s.modPair f).seqs = s.seqs := rfl
@[simp] theorem Chip.modPair_segs (f : Pair → Pair) (s : Chip) : (s.modPair f).segs = s.segs := rfl
@[simp] theorem Chip.modPair_sealed (f : Pair → Pair) (s : Chip) : (s.modPair f).sealed_ = s.sealed_ := rfl
@[simp] theorem Chip.modPair_acq (f : Pair → Pair) (s : Chip) : (s.modPair f).acq = s.acq := rfl
@[simp] theorem Chip.modPair_dram (f : Pair → Pair) (s : Chip) : (s.modPair f).dram = s.dram := rfl
@[simp] theorem Chip.modPair_levels (f : Pair → Pair) (s : Chip) : (s.modPair f).levels = s.levels := rfl
@[simp] theorem Chip.modPair_router (f : Pair → Pair) (s : Chip) : (s.modPair f).router = s.router := rfl
@[simp] theorem Chip.modPair_cluster (f : Pair → Pair) (s : Chip) : (s.modPair f).cluster = s.cluster := rfl
@[simp] theorem Chip.modPair_watchdog (f : Pair → Pair) (s : Chip) : (s.modPair f).watchdog = s.watchdog := rfl
@[simp] theorem Chip.modPair_ci (f : Pair → Pair) (s : Chip) : (s.modPair f).ci = s.ci := rfl
@[simp] theorem Chip.modPair_boot (f : Pair → Pair) (s : Chip) : (s.modPair f).boot = s.boot := rfl
@[simp] theorem Chip.modPair_life (f : Pair → Pair) (s : Chip) : (s.modPair f).life = s.life := rfl
@[simp] theorem Chip.modPair_keys (f : Pair → Pair) (s : Chip) : (s.modPair f).keys = s.keys := rfl
@[simp] theorem Chip.modPair_crypto (f : Pair → Pair) (s : Chip) : (s.modPair f).crypto = s.crypto := rfl
@[simp] theorem Chip.modPair_recorder (f : Pair → Pair) (s : Chip) : (s.modPair f).recorder = s.recorder := rfl
@[simp] theorem Chip.modPair_reseat (f : Pair → Pair) (s : Chip) : (s.modPair f).reseat = s.reseat := rfl
@[simp] theorem Chip.modPair_pair (f : Pair → Pair) (s : Chip) : (s.modPair f).pair = f s.pair := rfl
@[simp] theorem Chip.modPair_background (f : Pair → Pair) (s : Chip) : (s.modPair f).background = s.background := rfl
@[simp] theorem Chip.modPair_islands (f : Pair → Pair) (s : Chip) : (s.modPair f).islands = s.islands := rfl
@[simp] theorem Chip.modPair_out (f : Pair → Pair) (s : Chip) : (s.modPair f).out = s.out := rfl
@[simp] theorem Chip.modPair_free (f : Pair → Pair) (s : Chip) : (s.modPair f).free = s.free := rfl
@[simp] theorem Chip.modBackground_host (f : Background → Background) (s : Chip) : (s.modBackground f).host = s.host := rfl
@[simp] theorem Chip.modBackground_power (f : Background → Background) (s : Chip) : (s.modBackground f).power = s.power := rfl
@[simp] theorem Chip.modBackground_clk (f : Background → Background) (s : Chip) : (s.modBackground f).clk = s.clk := rfl
@[simp] theorem Chip.modBackground_plls (f : Background → Background) (s : Chip) : (s.modBackground f).plls = s.plls := rfl
@[simp] theorem Chip.modBackground_clkos (f : Background → Background) (s : Chip) : (s.modBackground f).clkos = s.clkos := rfl
@[simp] theorem Chip.modBackground_lanes (f : Background → Background) (s : Chip) : (s.modBackground f).lanes = s.lanes := rfl
@[simp] theorem Chip.modBackground_seqs (f : Background → Background) (s : Chip) : (s.modBackground f).seqs = s.seqs := rfl
@[simp] theorem Chip.modBackground_segs (f : Background → Background) (s : Chip) : (s.modBackground f).segs = s.segs := rfl
@[simp] theorem Chip.modBackground_sealed (f : Background → Background) (s : Chip) : (s.modBackground f).sealed_ = s.sealed_ := rfl
@[simp] theorem Chip.modBackground_acq (f : Background → Background) (s : Chip) : (s.modBackground f).acq = s.acq := rfl
@[simp] theorem Chip.modBackground_dram (f : Background → Background) (s : Chip) : (s.modBackground f).dram = s.dram := rfl
@[simp] theorem Chip.modBackground_levels (f : Background → Background) (s : Chip) : (s.modBackground f).levels = s.levels := rfl
@[simp] theorem Chip.modBackground_router (f : Background → Background) (s : Chip) : (s.modBackground f).router = s.router := rfl
@[simp] theorem Chip.modBackground_cluster (f : Background → Background) (s : Chip) : (s.modBackground f).cluster = s.cluster := rfl
@[simp] theorem Chip.modBackground_watchdog (f : Background → Background) (s : Chip) : (s.modBackground f).watchdog = s.watchdog := rfl
@[simp] theorem Chip.modBackground_ci (f : Background → Background) (s : Chip) : (s.modBackground f).ci = s.ci := rfl
@[simp] theorem Chip.modBackground_boot (f : Background → Background) (s : Chip) : (s.modBackground f).boot = s.boot := rfl
@[simp] theorem Chip.modBackground_life (f : Background → Background) (s : Chip) : (s.modBackground f).life = s.life := rfl
@[simp] theorem Chip.modBackground_keys (f : Background → Background) (s : Chip) : (s.modBackground f).keys = s.keys := rfl
@[simp] theorem Chip.modBackground_crypto (f : Background → Background) (s : Chip) : (s.modBackground f).crypto = s.crypto := rfl
@[simp] theorem Chip.modBackground_recorder (f : Background → Background) (s : Chip) : (s.modBackground f).recorder = s.recorder := rfl
@[simp] theorem Chip.modBackground_reseat (f : Background → Background) (s : Chip) : (s.modBackground f).reseat = s.reseat := rfl
@[simp] theorem Chip.modBackground_pair (f : Background → Background) (s : Chip) : (s.modBackground f).pair = s.pair := rfl
@[simp] theorem Chip.modBackground_background (f : Background → Background) (s : Chip) : (s.modBackground f).background = f s.background := rfl
@[simp] theorem Chip.modBackground_islands (f : Background → Background) (s : Chip) : (s.modBackground f).islands = s.islands := rfl
@[simp] theorem Chip.modBackground_out (f : Background → Background) (s : Chip) : (s.modBackground f).out = s.out := rfl
@[simp] theorem Chip.modBackground_free (f : Background → Background) (s : Chip) : (s.modBackground f).free = s.free := rfl
@[simp] theorem Chip.modIslands_host (f : List IslandState → List IslandState) (s : Chip) : (s.modIslands f).host = s.host := rfl
@[simp] theorem Chip.modIslands_power (f : List IslandState → List IslandState) (s : Chip) : (s.modIslands f).power = s.power := rfl
@[simp] theorem Chip.modIslands_clk (f : List IslandState → List IslandState) (s : Chip) : (s.modIslands f).clk = s.clk := rfl
@[simp] theorem Chip.modIslands_plls (f : List IslandState → List IslandState) (s : Chip) : (s.modIslands f).plls = s.plls := rfl
@[simp] theorem Chip.modIslands_clkos (f : List IslandState → List IslandState) (s : Chip) : (s.modIslands f).clkos = s.clkos := rfl
@[simp] theorem Chip.modIslands_lanes (f : List IslandState → List IslandState) (s : Chip) : (s.modIslands f).lanes = s.lanes := rfl
@[simp] theorem Chip.modIslands_seqs (f : List IslandState → List IslandState) (s : Chip) : (s.modIslands f).seqs = s.seqs := rfl
@[simp] theorem Chip.modIslands_segs (f : List IslandState → List IslandState) (s : Chip) : (s.modIslands f).segs = s.segs := rfl
@[simp] theorem Chip.modIslands_sealed (f : List IslandState → List IslandState) (s : Chip) : (s.modIslands f).sealed_ = s.sealed_ := rfl
@[simp] theorem Chip.modIslands_acq (f : List IslandState → List IslandState) (s : Chip) : (s.modIslands f).acq = s.acq := rfl
@[simp] theorem Chip.modIslands_dram (f : List IslandState → List IslandState) (s : Chip) : (s.modIslands f).dram = s.dram := rfl
@[simp] theorem Chip.modIslands_levels (f : List IslandState → List IslandState) (s : Chip) : (s.modIslands f).levels = s.levels := rfl
@[simp] theorem Chip.modIslands_router (f : List IslandState → List IslandState) (s : Chip) : (s.modIslands f).router = s.router := rfl
@[simp] theorem Chip.modIslands_cluster (f : List IslandState → List IslandState) (s : Chip) : (s.modIslands f).cluster = s.cluster := rfl
@[simp] theorem Chip.modIslands_watchdog (f : List IslandState → List IslandState) (s : Chip) : (s.modIslands f).watchdog = s.watchdog := rfl
@[simp] theorem Chip.modIslands_ci (f : List IslandState → List IslandState) (s : Chip) : (s.modIslands f).ci = s.ci := rfl
@[simp] theorem Chip.modIslands_boot (f : List IslandState → List IslandState) (s : Chip) : (s.modIslands f).boot = s.boot := rfl
@[simp] theorem Chip.modIslands_life (f : List IslandState → List IslandState) (s : Chip) : (s.modIslands f).life = s.life := rfl
@[simp] theorem Chip.modIslands_keys (f : List IslandState → List IslandState) (s : Chip) : (s.modIslands f).keys = s.keys := rfl
@[simp] theorem Chip.modIslands_crypto (f : List IslandState → List IslandState) (s : Chip) : (s.modIslands f).crypto = s.crypto := rfl
@[simp] theorem Chip.modIslands_recorder (f : List IslandState → List IslandState) (s : Chip) : (s.modIslands f).recorder = s.recorder := rfl
@[simp] theorem Chip.modIslands_reseat (f : List IslandState → List IslandState) (s : Chip) : (s.modIslands f).reseat = s.reseat := rfl
@[simp] theorem Chip.modIslands_pair (f : List IslandState → List IslandState) (s : Chip) : (s.modIslands f).pair = s.pair := rfl
@[simp] theorem Chip.modIslands_background (f : List IslandState → List IslandState) (s : Chip) : (s.modIslands f).background = s.background := rfl
@[simp] theorem Chip.modIslands_islands (f : List IslandState → List IslandState) (s : Chip) : (s.modIslands f).islands = f s.islands := rfl
@[simp] theorem Chip.modIslands_out (f : List IslandState → List IslandState) (s : Chip) : (s.modIslands f).out = s.out := rfl
@[simp] theorem Chip.modIslands_free (f : List IslandState → List IslandState) (s : Chip) : (s.modIslands f).free = s.free := rfl
@[simp] theorem Chip.modOut_host (f : List Output → List Output) (s : Chip) : (s.modOut f).host = s.host := rfl
@[simp] theorem Chip.modOut_power (f : List Output → List Output) (s : Chip) : (s.modOut f).power = s.power := rfl
@[simp] theorem Chip.modOut_clk (f : List Output → List Output) (s : Chip) : (s.modOut f).clk = s.clk := rfl
@[simp] theorem Chip.modOut_plls (f : List Output → List Output) (s : Chip) : (s.modOut f).plls = s.plls := rfl
@[simp] theorem Chip.modOut_clkos (f : List Output → List Output) (s : Chip) : (s.modOut f).clkos = s.clkos := rfl
@[simp] theorem Chip.modOut_lanes (f : List Output → List Output) (s : Chip) : (s.modOut f).lanes = s.lanes := rfl
@[simp] theorem Chip.modOut_seqs (f : List Output → List Output) (s : Chip) : (s.modOut f).seqs = s.seqs := rfl
@[simp] theorem Chip.modOut_segs (f : List Output → List Output) (s : Chip) : (s.modOut f).segs = s.segs := rfl
@[simp] theorem Chip.modOut_sealed (f : List Output → List Output) (s : Chip) : (s.modOut f).sealed_ = s.sealed_ := rfl
@[simp] theorem Chip.modOut_acq (f : List Output → List Output) (s : Chip) : (s.modOut f).acq = s.acq := rfl
@[simp] theorem Chip.modOut_dram (f : List Output → List Output) (s : Chip) : (s.modOut f).dram = s.dram := rfl
@[simp] theorem Chip.modOut_levels (f : List Output → List Output) (s : Chip) : (s.modOut f).levels = s.levels := rfl
@[simp] theorem Chip.modOut_router (f : List Output → List Output) (s : Chip) : (s.modOut f).router = s.router := rfl
@[simp] theorem Chip.modOut_cluster (f : List Output → List Output) (s : Chip) : (s.modOut f).cluster = s.cluster := rfl
@[simp] theorem Chip.modOut_watchdog (f : List Output → List Output) (s : Chip) : (s.modOut f).watchdog = s.watchdog := rfl
@[simp] theorem Chip.modOut_ci (f : List Output → List Output) (s : Chip) : (s.modOut f).ci = s.ci := rfl
@[simp] theorem Chip.modOut_boot (f : List Output → List Output) (s : Chip) : (s.modOut f).boot = s.boot := rfl
@[simp] theorem Chip.modOut_life (f : List Output → List Output) (s : Chip) : (s.modOut f).life = s.life := rfl
@[simp] theorem Chip.modOut_keys (f : List Output → List Output) (s : Chip) : (s.modOut f).keys = s.keys := rfl
@[simp] theorem Chip.modOut_crypto (f : List Output → List Output) (s : Chip) : (s.modOut f).crypto = s.crypto := rfl
@[simp] theorem Chip.modOut_recorder (f : List Output → List Output) (s : Chip) : (s.modOut f).recorder = s.recorder := rfl
@[simp] theorem Chip.modOut_reseat (f : List Output → List Output) (s : Chip) : (s.modOut f).reseat = s.reseat := rfl
@[simp] theorem Chip.modOut_pair (f : List Output → List Output) (s : Chip) : (s.modOut f).pair = s.pair := rfl
@[simp] theorem Chip.modOut_background (f : List Output → List Output) (s : Chip) : (s.modOut f).background = s.background := rfl
@[simp] theorem Chip.modOut_islands (f : List Output → List Output) (s : Chip) : (s.modOut f).islands = s.islands := rfl
@[simp] theorem Chip.modOut_out (f : List Output → List Output) (s : Chip) : (s.modOut f).out = f s.out := rfl
@[simp] theorem Chip.modOut_free (f : List Output → List Output) (s : Chip) : (s.modOut f).free = s.free := rfl
@[simp] theorem Chip.modFree_host (f : Nat → Nat) (s : Chip) : (s.modFree f).host = s.host := rfl
@[simp] theorem Chip.modFree_power (f : Nat → Nat) (s : Chip) : (s.modFree f).power = s.power := rfl
@[simp] theorem Chip.modFree_clk (f : Nat → Nat) (s : Chip) : (s.modFree f).clk = s.clk := rfl
@[simp] theorem Chip.modFree_plls (f : Nat → Nat) (s : Chip) : (s.modFree f).plls = s.plls := rfl
@[simp] theorem Chip.modFree_clkos (f : Nat → Nat) (s : Chip) : (s.modFree f).clkos = s.clkos := rfl
@[simp] theorem Chip.modFree_lanes (f : Nat → Nat) (s : Chip) : (s.modFree f).lanes = s.lanes := rfl
@[simp] theorem Chip.modFree_seqs (f : Nat → Nat) (s : Chip) : (s.modFree f).seqs = s.seqs := rfl
@[simp] theorem Chip.modFree_segs (f : Nat → Nat) (s : Chip) : (s.modFree f).segs = s.segs := rfl
@[simp] theorem Chip.modFree_sealed (f : Nat → Nat) (s : Chip) : (s.modFree f).sealed_ = s.sealed_ := rfl
@[simp] theorem Chip.modFree_acq (f : Nat → Nat) (s : Chip) : (s.modFree f).acq = s.acq := rfl
@[simp] theorem Chip.modFree_dram (f : Nat → Nat) (s : Chip) : (s.modFree f).dram = s.dram := rfl
@[simp] theorem Chip.modFree_levels (f : Nat → Nat) (s : Chip) : (s.modFree f).levels = s.levels := rfl
@[simp] theorem Chip.modFree_router (f : Nat → Nat) (s : Chip) : (s.modFree f).router = s.router := rfl
@[simp] theorem Chip.modFree_cluster (f : Nat → Nat) (s : Chip) : (s.modFree f).cluster = s.cluster := rfl
@[simp] theorem Chip.modFree_watchdog (f : Nat → Nat) (s : Chip) : (s.modFree f).watchdog = s.watchdog := rfl
@[simp] theorem Chip.modFree_ci (f : Nat → Nat) (s : Chip) : (s.modFree f).ci = s.ci := rfl
@[simp] theorem Chip.modFree_boot (f : Nat → Nat) (s : Chip) : (s.modFree f).boot = s.boot := rfl
@[simp] theorem Chip.modFree_life (f : Nat → Nat) (s : Chip) : (s.modFree f).life = s.life := rfl
@[simp] theorem Chip.modFree_keys (f : Nat → Nat) (s : Chip) : (s.modFree f).keys = s.keys := rfl
@[simp] theorem Chip.modFree_crypto (f : Nat → Nat) (s : Chip) : (s.modFree f).crypto = s.crypto := rfl
@[simp] theorem Chip.modFree_recorder (f : Nat → Nat) (s : Chip) : (s.modFree f).recorder = s.recorder := rfl
@[simp] theorem Chip.modFree_reseat (f : Nat → Nat) (s : Chip) : (s.modFree f).reseat = s.reseat := rfl
@[simp] theorem Chip.modFree_pair (f : Nat → Nat) (s : Chip) : (s.modFree f).pair = s.pair := rfl
@[simp] theorem Chip.modFree_background (f : Nat → Nat) (s : Chip) : (s.modFree f).background = s.background := rfl
@[simp] theorem Chip.modFree_islands (f : Nat → Nat) (s : Chip) : (s.modFree f).islands = s.islands := rfl
@[simp] theorem Chip.modFree_out (f : Nat → Nat) (s : Chip) : (s.modFree f).out = s.out := rfl
@[simp] theorem Chip.modFree_free (f : Nat → Nat) (s : Chip) : (s.modFree f).free = f s.free := rfl

end Sys2Proof.Machine
end

