-- ==== Sys2Proof/Laws/Reset.lean ====
section
/-! SUPPORT. What a chip reset does: every chip reset restarts the device (`chipReset_restarted`), keeps the AO
clock unless it is an AO power-on (`chipReset_ticks`), and writes its record after those that stand
(`chipReset_record`); and what the operations it is made of touch. -/

namespace Sys2Proof.Machine


/-- The parts a chip reset rewrites after its restart: none of them the sessions, the sequencers, the DRAM or the
clock. -/
def resetParts : List Part := [.recorder, .power, .life, .keys, .crypto, .pair, .boot, .ci, .free, .islands]

theorem Only.inReset {a b : Chip} {p} (h : Only [p] a b) (k : p ∈ resetParts) : Only resetParts a b := h.mono (by intro x hx; simp at hx; subst hx; exact k)

theorem Only.foldlReset {α : Type _} (f : Chip → α → Chip) (h : ∀ s x, Only resetParts s (f s x)) (l : List α) (s : Chip) : Only resetParts s (l.foldl f s) := Only.foldl f h l s

theorem Only.blow {st w b} (s : Chip) : Only resetParts s (s.blow st w b) := by
  unfold Chip.blow
  dsimp only
  exact Only.ite (Only.inReset (Only.modLife s) (by decide)) ((Only.inReset (Only.modLife s) (by decide)).comp (Only.inReset (Only.record _) (by decide)))

theorem Only.ofStrapRecords (s : Chip) : Only resetParts s (strapRecords s) := by
  unfold strapRecords
  dsimp only
  split
  · exact Only.refl _ _
  · split <;> split
    · exact ((Only.inReset (Only.record s) (by decide)).comp (Only.inReset (Only.record _) (by decide))).comp (Only.inReset (Only.modPower _) (by decide))
    · exact Only.inReset (Only.record s) (by decide)
    · exact (Only.inReset (Only.record s) (by decide)).comp (Only.inReset (Only.modPower _) (by decide))
    · exact Only.refl _ _

theorem Only.decodeLife (s : Chip) : Only resetParts s s.decodeLife := by
  unfold Chip.decodeLife
  exact (Only.inReset (Only.modLife s) (by decide)).comp (Only.foldlReset _ (fun s x => Only.inReset (Only.record s) (by decide)) _ _)

theorem Only.ofAbandonedIntents (s : Chip) : Only resetParts s (abandonedIntents s) := by
  unfold abandonedIntents
  split
  · exact Only.refl _ _
  · refine Only.foldlReset _ (fun s x => ?_) _ _
    split
    · exact Only.inReset (Only.record s) (by decide)
    · exact Only.refl _ _

theorem Only.ofSeedMesh (s : Chip) : Only resetParts s (seedMesh s) := by
  unfold seedMesh
  split
  · exact Only.refl _ _
  · split
    · exact (Only.inReset (Only.modKeys s) (by decide)).comp (Only.inReset (Only.record _) (by decide))
    · exact Only.inReset (Only.modKeys _) (by decide)

theorem Only.ofBareReset (c : Nat) (s : Chip) : Only resetParts (keepAcross c s) (bareReset c s) := by
  unfold bareReset
  dsimp only
  have h1 : Only resetParts (keepAcross c s) (resetRecord s (keepAcross c s)) := Only.inReset (Only.modRecorder _) (by decide)
  refine h1.comp ((Only.ofStrapRecords _).comp ((Only.decodeLife _).comp ((Only.ofAbandonedIntents _).comp ((Only.ofSeedMesh _).comp ?_))))
  generalize seedMesh _ = u
  have h2 : Only resetParts u (rearmAfter c u) := by
    unfold rearmAfter; exact Only.ite (Only.inReset (Only.modKeys _) (by decide)) (Only.refl _ _)
  refine h2.comp ?_
  generalize rearmAfter c u = v
  have h3 : Only resetParts v (debugAcross s.life.state v) := Only.inReset (Only.modLife _) (by decide)
  refine h3.comp ?_
  generalize debugAcross s.life.state v = w
  unfold lifeIslands
  split
  · exact Only.inReset (Only.putIsland _) (by decide)
  · exact Only.inReset (Only.putIsland _) (by decide)
  · exact Only.inReset (Only.putIsland _) (by decide)
  · exact Only.ite (Only.refl _ _) (Only.inReset (Only.putIsland _) (by decide))

/-- The parts a wipe reaches. -/
def wipeParts : List Part := [.keys, .crypto, .pair, .boot, .ci]
theorem Only.inWipe {a b : Chip} {p} (h : Only [p] a b) (k : p ∈ wipeParts) : Only wipeParts a b := h.mono (by intro x hx; simp at hx; subst hx; exact k)
theorem Only.flashErase {a b} (s : Chip) : Only wipeParts s (s.flashErase a b) := Only.inWipe (Only.modBoot s) (by decide)
theorem Only.wipeReset {a b : Chip} (h : Only wipeParts a b) : Only resetParts a b := h.mono (by decide)

theorem Only.zeroise (s : Chip) : Only wipeParts s s.zeroise :=
  ((Only.inWipe (Only.modKeys s) (by decide)).comp (Only.inWipe (Only.modCrypto _) (by decide))).comp (Only.inWipe (Only.modPair _) (by decide))

theorem Only.wipeA (s : Chip) : Only wipeParts s s.wipeA := by
  unfold Chip.wipeA
  exact (((((Only.zeroise s).comp (Only.flashErase _)).comp (Only.flashErase _)).comp (Only.inWipe (Only.modBoot _) (by decide))).comp (Only.inWipe (Only.modKeys _) (by decide))).comp (Only.inWipe (Only.modCi _) (by decide))

theorem Only.wipesOf {t} (s : Chip) : Only wipeParts s (s.wipesOf t) := by
  unfold Chip.wipesOf
  split
  · exact Only.wipeA s
  · exact Only.zeroise s
  · exact Only.refl _ _

theorem Only.programCopies {st t} (s : Chip) : Only resetParts s (s.programCopies st t) := Only.foldlReset _ (fun _ _ => Only.blow _) _ _

theorem Only.ofRepairCopies (s : Chip) : Only resetParts s (repairCopies s) := by
  unfold repairCopies
  dsimp only
  split
  · exact Only.refl _ _
  · refine Only.foldlReset _ (fun s x => ?_) _ _
    split
    · exact Only.refl _ _
    · exact (Only.blow _).comp (Only.inReset (Only.record _) (by decide))

theorem Only.scrappedWipe (s : Chip) : Only resetParts s s.scrappedWipe := by
  unfold Chip.scrappedWipe
  split
  · exact Only.refl _ _
  · exact ((((Only.wipeReset (Only.flashErase s)).comp (Only.inReset (Only.modBoot _) (by decide))).comp (Only.inReset (Only.modKeys _) (by decide))).comp (Only.foldlReset _ (fun _ _ => Only.blow _) _ _)).comp (Only.blow _)

/-- A restart stands after changes of the parts that a chip reset rewrites. -/
theorem Restarted.only {a b c : Chip} (h : Restarted a b) (k : Only resetParts b c) : Restarted a c := by
  obtain ⟨h1, h2, h3, h4, h5, h6, h7, h8, h9⟩ := h
  have hh : c.host = b.host := k .host (by decide)
  have hs : c.seqs = b.seqs := k .seqs (by decide)
  have hd : c.dram = b.dram := k .dram (by decide)
  have hc : c.clk = b.clk := k .clk (by decide)
  have ho : c.out = b.out := k .out (by decide)
  unfold Restarted
  rw [hh, hs, hd, hc, ho]
  exact ⟨h1, h2, h3, h4, h5, h6, h7, h8, h9⟩

theorem keepAcross_restarted (n : Nat) (s : Chip) : Restarted s (keepAcross n s) := ⟨rfl, rfl, rfl, rfl, rfl, rfl, rfl, rfl, rfl⟩

theorem bareReset_restarted (n : Nat) (s : Chip) : Restarted s (bareReset n s) := Restarted.only (keepAcross_restarted n s) (Only.ofBareReset n s)

theorem bareReset_ticks (n : Nat) (s : Chip) : (bareReset n s).clk.ticks = s.clk.ticks := by
  have : (bareReset n s).clk = (keepAcross n s).clk := Only.ofBareReset n s .clk (by decide)
  rw [this]; rfl

theorem chipReset_step (n : Nat) (s : Chip) : ∃ u, Restarted s u ∧ u.clk.ticks = s.clk.ticks ∧ Only resetParts u (chipReset n s) := by
  unfold chipReset
  dsimp only
  generalize hb : bareReset n s = b
  have hr : Restarted s b := hb ▸ bareReset_restarted n s
  have ht : b.clk.ticks = s.clk.ticks := hb ▸ bareReset_ticks n s
  have key : ∃ u, Restarted s u ∧ u.clk.ticks = s.clk.ticks ∧ Only resetParts u (if b.life.state = .locked ∨ b.life.state = .scrapped then b
    else match b.decodePending b.life.state with
      | some t => bareReset 0x200 (((b.wipesOf t).programCopies [] t).record 0x100B 1 (le 1 b.life.state.code ++ le 1 t.code))
      | none => repairCopies b) := by
    split
    · exact ⟨b, hr, ht, Only.refl _ _⟩
    · split
      · rename_i t _
        have hp : Only resetParts b (((b.wipesOf t).programCopies [] t).record 0x100B 1 (le 1 b.life.state.code ++ le 1 t.code)) :=
          ((Only.wipeReset (Only.wipesOf b)).comp (Only.programCopies _)).comp (Only.inReset (Only.record _) (by decide))
        refine ⟨_, ?_, ?_, Only.refl _ _⟩
        · have h2 := bareReset_restarted 0x200 (((b.wipesOf t).programCopies [] t).record 0x100B 1 (le 1 b.life.state.code ++ le 1 t.code))
          have ho := hp .out (by decide)
          have hd := hp .dram (by decide)
          obtain ⟨h1, h2, h3, h4, h5, h6, h7, h8, h9⟩ := h2
          exact ⟨h1, h2, h3, h4, by rw [h5, hd, hr.2.2.2.2.1], h6, h7, h8, by rw [h9, ho]; exact hr.2.2.2.2.2.2.2.2⟩
        · rw [bareReset_ticks]
          have hc : (((b.wipesOf t).programCopies [] t).record 0x100B 1 (le 1 b.life.state.code ++ le 1 t.code)).clk = b.clk := hp .clk (by decide)
          rw [hc]; exact ht
      · exact ⟨b, hr, ht, Only.ofRepairCopies b⟩
  obtain ⟨u, h1, h2, h3⟩ := key
  exact ⟨u, h1, h2, h3.comp (Only.ite (Only.scrappedWipe _) (Only.refl _ _))⟩

theorem chipReset_restarted (n : Nat) (s : Chip) : Restarted s (chipReset n s) := by
  obtain ⟨u, h1, _, h3⟩ := chipReset_step n s
  exact Restarted.only h1 h3

theorem chipReset_ticks (n : Nat) (s : Chip) : (chipReset n s).clk.ticks = s.clk.ticks := by
  obtain ⟨u, _, h2, h3⟩ := chipReset_step n s
  have : (chipReset n s).clk = u.clk := h3 .clk (by decide)
  rw [this, h2]

theorem aoPowerOn_restarted (n : Nat) (s : Chip) : Restarted s (aoPowerOn n s) ∧ (aoPowerOn n s).clk.ticks = 0 := by
  unfold aoPowerOn
  dsimp only
  generalize hu : Chip.modWatchdog _ _ = u
  have hk : ∀ c : Chip, Only resetParts c c.rootKeyCheck := by
    intro c
    unfold Chip.rootKeyCheck
    refine Only.ite (Only.refl _ _) (Only.ite ((Only.inReset (Only.putIsland _) (by decide)).comp (Only.inReset (Only.record _) (by decide))) ?_)
    exact ((((Only.inReset (Only.modPair c) (by decide)).comp (Only.inReset (Only.modKeys _) (by decide))).comp (Only.inReset (Only.putIsland _) (by decide))).comp (Only.inReset (Only.record _) (by decide))).comp (Only.inReset (Only.record _) (by decide))
  have hr := chipReset_restarted n u
  have hout : u.out = s.out := by rw [← hu]; rfl
  have hdram : u.dram = s.dram := by rw [← hu]; rfl
  have htk : u.clk.ticks = 0 := by rw [← hu]; rfl
  constructor
  · refine Restarted.only (b := chipReset n u) ?_ (hk _)
    obtain ⟨h1, h2, h3, h4, h5, h6, h7, h8, h9⟩ := hr
    exact ⟨h1, h2, h3, h4, by rw [h5, hdram], h6, h7, h8, by rw [h9, hout]⟩
  · have : (chipReset n u).rootKeyCheck.clk = (chipReset n u).clk := hk _ .clk (by decide)
    rw [this, chipReset_ticks, htk]

/-- From `a` to `b` the recorder's input only grows at its end. -/
def Grows (a b : Chip) : Prop := ∃ l, b.recorder.queue = a.recorder.queue ++ l
theorem Grows.refl (a) : Grows a a := ⟨[], by simp⟩
theorem Grows.trans {a b c} (h : Grows a b) (k : Grows b c) : Grows a c := by
  obtain ⟨l, h⟩ := h; obtain ⟨m, k⟩ := k; exact ⟨l ++ m, by rw [k, h, List.append_assoc]⟩
theorem Grows.eq {a b : Chip} (h : b.recorder = a.recorder) : Grows a b := ⟨[], by simp [h]⟩
theorem Grows.only {a b : Chip} {ps} (h : Only ps a b) (k : Part.recorder ∉ ps) : Grows a b := Grows.eq (h .recorder k)
theorem Grows.record (s : Chip) (c i d u) (h : c / 0x1000 = 1) : Grows s (s.record c i d u) := by
  refine ⟨[{ code := c, island := i, unit := u, producer := 1, payload := pad 12 d }], ?_⟩
  simp only [Chip.record, Chip.recordBy, h, true_or, if_true, Chip.modRecorder, Recorder.arrive]
theorem Grows.foldl {α : Type _} (f : Chip → α → Chip) (h : ∀ s x, Grows s (f s x)) (l : List α) (s : Chip) : Grows s (l.foldl f s) := by
  induction l generalizing s with
  | nil => exact Grows.refl s
  | cons x l ih => exact (h s x).trans (ih _)

theorem Grows.blow {st w b} (s : Chip) : Grows s (s.blow st w b) := by
  unfold Chip.blow
  dsimp only
  have h0 : ∀ f, Grows s (s.modLife f) := fun f => Grows.eq rfl
  split
  · exact h0 _
  · exact (h0 _).trans (Grows.record _ _ _ _ _ (by decide))

theorem Grows.ofStrapRecords (s : Chip) : Grows s (strapRecords s) := by
  unfold strapRecords
  dsimp only
  split
  · exact Grows.refl _
  · have h1 : ∀ s : Chip, ∀ v, Grows s (s.record 0x1002 1 v) := fun s v => Grows.record _ _ _ _ _ (by decide)
    have h2 : ∀ s : Chip, ∀ v f, Grows s ((s.record 0x1003 1 v).modPower f) := fun s v f => (Grows.record s 0x1003 1 v 0 (by decide)).trans (Grows.eq rfl)
    split <;> split
    · exact (h1 _ _).trans (h2 _ _ _)
    · exact h1 _ _
    · exact h2 _ _ _
    · exact Grows.refl _

theorem Grows.resetRest (n : Nat) (x : LifeCycle) (t : Chip) :
    Grows t (lifeIslands (debugAcross x (rearmAfter n (seedMesh (abandonedIntents t.decodeLife))))) := by
  have h1 : Grows t t.decodeLife := by
    unfold Chip.decodeLife
    dsimp only
    refine Grows.trans (b := t.modLife _) (Grows.eq rfl) (Grows.foldl _ (fun s x => Grows.record _ _ _ _ _ (by decide)) _ _)
  refine h1.trans ?_
  generalize t.decodeLife = t
  have h2 : Grows t (abandonedIntents t) := by
    unfold abandonedIntents
    split
    · exact Grows.refl _
    · refine Grows.foldl _ (fun s x => ?_) _ _
      split
      · exact Grows.record _ _ _ _ _ (by decide)
      · exact Grows.refl _
  refine h2.trans ?_
  generalize abandonedIntents t = t
  have h3 : Grows t (seedMesh t) := by
    unfold seedMesh
    split
    · exact Grows.refl _
    · split
      · exact Grows.record _ _ _ _ _ (by decide)
      · exact Grows.eq rfl
  refine h3.trans ?_
  generalize seedMesh t = t
  have h4 : Grows t (rearmAfter n t) := by
    unfold rearmAfter
    split
    · exact Grows.eq rfl
    · exact Grows.refl _
  refine h4.trans ?_
  generalize rearmAfter n t = t
  refine Grows.eq ?_
  unfold lifeIslands
  split <;> first | rfl | (split <;> rfl)

theorem bareReset_record (n : Nat) (s : Chip) : ∃ x l, (bareReset n s).recorder.queue = s.recorder.queue ++ x :: l ∧ x.code = 0x1001 := by
  have h : Grows (resetRecord s (keepAcross n s)) (bareReset n s) := (Grows.ofStrapRecords _).trans (Grows.resetRest n _ _)
  obtain ⟨l, h⟩ := h
  have hq : ∃ x : RecordIn, (resetRecord s (keepAcross n s)).recorder.queue = s.recorder.queue ++ [x] ∧ x.code = 0x1001 := by
    unfold resetRecord
    dsimp only
    rw [Chip.modRecorder_recorder]
    unfold Recorder.arrive
    rw [if_pos rfl]
    have hk : (keepAcross n s).recorder.queue = s.recorder.queue := rfl
    exact ⟨_, congrArg (· ++ [_]) hk, rfl⟩
  obtain ⟨x, h1, h2⟩ := hq
  exact ⟨x, l, by rw [h, h1]; simp, h2⟩

theorem Grows.wipesOf {t} (s : Chip) : Grows s (s.wipesOf t) := Grows.only (Only.wipesOf s) (by decide)

theorem chipReset_record (n : Nat) (s : Chip) : ∃ x l, (chipReset n s).recorder.queue = s.recorder.queue ++ x :: l ∧ x.code = 0x1001 := by
  obtain ⟨x, l, h, hx⟩ := bareReset_record n s
  have key : Grows (bareReset n s) (chipReset n s) := by
    unfold chipReset
    dsimp only
    generalize bareReset n s = b
    refine Grows.trans (b := if b.life.state = .locked ∨ b.life.state = .scrapped then b
      else match b.decodePending b.life.state with
      | some t => bareReset 0x200 (((b.wipesOf t).programCopies [] t).record 0x100B 1 (le 1 b.life.state.code ++ le 1 t.code))
      | none => repairCopies b) ?_ ?_
    · split
      · exact Grows.refl _
      · split
        · rename_i t _
          have hg := ((Grows.wipesOf (t := t) b).trans (Grows.foldl _ (fun _ _ => Grows.blow _) _ _)).trans (Grows.record ((b.wipesOf t).programCopies [] t) 0x100B 1 (le 1 b.life.state.code ++ le 1 t.code) 0 (by decide))
          refine hg.trans ?_
          obtain ⟨x, l, h, _⟩ := bareReset_record 0x200 (((b.wipesOf t).programCopies [] t).record 0x100B 1 (le 1 b.life.state.code ++ le 1 t.code))
          exact ⟨_, h⟩
        · unfold repairCopies
          dsimp only
          split
          · exact Grows.refl _
          · refine Grows.foldl _ (fun s x => ?_) _ _
            split
            · exact Grows.refl _
            · exact (Grows.blow _).trans (Grows.record _ _ _ _ _ (by decide))
    · generalize (if b.life.state = .locked ∨ b.life.state = .scrapped then b else _ : Chip) = v
      split
      · unfold Chip.scrappedWipe
        split
        · exact Grows.refl _
        · refine Grows.trans ?_ (Grows.blow _)
          refine Grows.trans ?_ (Grows.foldl _ (fun _ _ => Grows.blow _) _ _)
          exact Grows.only (((Only.flashErase v).comp (Only.inWipe (Only.modBoot _) (by decide))).comp (Only.inWipe (Only.modKeys _) (by decide))) (by decide)
      · exact Grows.refl _
  obtain ⟨m, k⟩ := key
  exact ⟨x, l ++ m, by rw [k, h]; simp, hx⟩


end Sys2Proof.Machine
end

