-- ==== Sys2Proof/Laws/SMap.lean ====
section
/-! SUPPORT. The laws of the sparse collections and of the memories: a read after a write, and the canonical
form, which every operation keeps. -/

namespace Sys2Proof.Machine

variable {α : Type}

/-- Every key of a collection lies above `n`. -/
def SMap.above (n : Nat) (m : SMap α) : Prop := ∀ c ∈ m, n < c.1

theorem SMap.sorted_cons {k : Nat} {v : α} {m : SMap α} :
    SMap.sorted ((k, v) :: m) = true ↔ SMap.above k m ∧ SMap.sorted m = true := by
  induction m generalizing k v with
  | nil => simp [SMap.sorted, SMap.above]
  | cons c m ih =>
    obtain ⟨k', v'⟩ := c
    simp only [SMap.sorted, Bool.and_eq_true, decide_eq_true_eq]
    constructor
    · rintro ⟨h, hs⟩
      refine ⟨?_, hs⟩
      intro c hc
      rcases List.mem_cons.mp hc with rfl | hc
      · exact h
      · exact Nat.lt_trans h ((ih.mp hs).1 c hc)
    · rintro ⟨ha, hs⟩
      exact ⟨ha (k', v') (by simp), hs⟩

theorem SMap.mem_put {m : SMap α} {k : Nat} {v : α} {c : Nat × α} (h : c ∈ SMap.put m k v) : c = (k, v) ∨ c ∈ m := by
  induction m with
  | nil => simpa [SMap.put] using h
  | cons e m ih =>
    obtain ⟨k', v'⟩ := e
    simp only [SMap.put] at h
    split at h
    · simpa using h
    · split at h
      · simp only [List.mem_cons] at h ⊢; tauto
      · simp only [List.mem_cons] at h ⊢
        rcases h with h | h
        · tauto
        · rcases ih h with h | h <;> tauto

theorem SMap.mem_erase {m : SMap α} {k : Nat} {c : Nat × α} (h : c ∈ SMap.erase m k) : c ∈ m := by
  induction m with
  | nil => simp [SMap.erase] at h
  | cons e m ih =>
    obtain ⟨k', v'⟩ := e
    simp only [SMap.erase] at h
    split at h
    · exact List.mem_cons_of_mem _ (ih h)
    · simp only [List.mem_cons] at h ⊢
      rcases h with h | h
      · exact .inl h
      · exact .inr (ih h)

/-- Storing a value keeps the keys strictly rising. -/
theorem SMap.sorted_put {m : SMap α} {k : Nat} {v : α} (h : SMap.sorted m = true) : SMap.sorted (SMap.put m k v) = true := by
  induction m with
  | nil => rfl
  | cons e m ih =>
    obtain ⟨k', v'⟩ := e
    have ⟨ha, hs⟩ := SMap.sorted_cons.mp h
    simp only [SMap.put]
    split
    · rename_i hk
      refine SMap.sorted_cons.mpr ⟨?_, h⟩
      intro c hc
      rcases List.mem_cons.mp hc with rfl | hc
      · exact hk
      · exact Nat.lt_trans hk (ha c hc)
    · split
      · rename_i hk; subst hk
        exact SMap.sorted_cons.mpr ⟨ha, hs⟩
      · refine SMap.sorted_cons.mpr ⟨?_, ih hs⟩
        intro c hc
        rcases SMap.mem_put hc with rfl | hc
        · show k' < k
          omega
        · exact ha c hc

/-- Removing a key keeps the keys strictly rising. -/
theorem SMap.sorted_erase {m : SMap α} {k : Nat} (h : SMap.sorted m = true) : SMap.sorted (SMap.erase m k) = true := by
  induction m with
  | nil => rfl
  | cons e m ih =>
    obtain ⟨k', v'⟩ := e
    have ⟨ha, hs⟩ := SMap.sorted_cons.mp h
    simp only [SMap.erase]
    split
    · exact ih hs
    · exact SMap.sorted_cons.mpr ⟨fun c hc => ha c (SMap.mem_erase hc), ih hs⟩

theorem SMap.sorted_set [DecidableEq α] {m : SMap α} {d v : α} {k : Nat} (h : SMap.sorted m = true) :
    SMap.sorted (SMap.set m d k v) = true := by
  unfold SMap.set
  split
  · exact SMap.sorted_erase h
  · exact SMap.sorted_put h

theorem SMap.sorted_upd [DecidableEq α] {m : SMap α} {d : α} {k : Nat} {f : α → α} (h : SMap.sorted m = true) :
    SMap.sorted (SMap.upd m d k f) = true := SMap.sorted_set h

theorem SMap.sorted_filter {m : SMap α} {p : Nat × α → Bool} (h : SMap.sorted m = true) : SMap.sorted (List.filter p m) = true := by
  induction m with
  | nil => rfl
  | cons e m ih =>
    obtain ⟨k', v'⟩ := e
    have ⟨ha, hs⟩ := SMap.sorted_cons.mp h
    rw [List.filter_cons]
    split
    · exact SMap.sorted_cons.mpr ⟨fun c hc => ha c (List.mem_of_mem_filter hc), ih hs⟩
    · exact ih hs

/-- A collection without a key reads the default there. -/
theorem SMap.get_above {m : SMap α} {d : α} {k n : Nat} (h : SMap.above n m) (hk : k ≤ n) : SMap.get m d k = d := by
  induction m with
  | nil => rfl
  | cons e m ih =>
    obtain ⟨k', v'⟩ := e
    have h1 : n < k' := h (k', v') (by simp)
    simp only [SMap.get]
    rw [if_neg (by omega)]
    exact ih fun c hc => h c (by simp [hc])

theorem SMap.get_put (m : SMap α) (d : α) (k : Nat) (v : α) (j : Nat) :
    SMap.get (SMap.put m k v) d j = if j = k then v else SMap.get m d j := by
  induction m with
  | nil => simp [SMap.put, SMap.get]
  | cons e m ih =>
    obtain ⟨k', v'⟩ := e
    simp only [SMap.put]
    split
    · simp only [SMap.get]
    · split
      · rename_i hk; subst hk
        simp only [SMap.get]
        split <;> rfl
      · rename_i h1 h2
        simp only [SMap.get, ih]
        split
        · rename_i h3
          rw [if_neg (by omega)]
        · rfl

theorem SMap.get_erase (m : SMap α) (d : α) (k j : Nat) :
    SMap.get (SMap.erase m k) d j = if j = k then d else SMap.get m d j := by
  induction m with
  | nil => simp [SMap.erase, SMap.get]
  | cons e m ih =>
    obtain ⟨k', v'⟩ := e
    simp only [SMap.erase]
    split
    · rename_i hk
      rw [ih]
      split
      · rfl
      · simp only [SMap.get]
        rw [if_neg (by omega)]
    · rename_i hk
      simp only [SMap.get, ih]
      split
      · rw [if_neg (by omega)]
      · rfl

/-- What a key reads after a value is stored at a key. -/
theorem SMap.find_put (m : SMap α) (k : Nat) (v : α) (j : Nat) :
    SMap.find? (SMap.put m k v) j = if j = k then some v else SMap.find? m j := by
  induction m with
  | nil => simp [SMap.put, SMap.find?]
  | cons e m ih =>
    obtain ⟨k', v'⟩ := e
    simp only [SMap.put]
    split
    · simp [SMap.find?]
    · split
      · next h => subst h; by_cases hj : j = k <;> simp [SMap.find?, hj]
      · next h1 h2 =>
        simp only [SMap.find?, ih]
        by_cases hj : j = k'
        · subst hj; rw [if_pos rfl, if_neg (fun e => h2 e.symm), if_pos rfl]
        · simp [hj]

/-- What a key reads after a key is removed. -/
theorem SMap.find_erase (m : SMap α) (k j : Nat) : SMap.find? (SMap.erase m k) j = if j = k then none else SMap.find? m j := by
  induction m with
  | nil => simp [SMap.erase, SMap.find?]
  | cons e m ih =>
    obtain ⟨k', v'⟩ := e
    simp only [SMap.erase]
    split
    · next h => rw [ih]; subst h; by_cases hj : j = k <;> simp [SMap.find?, hj]
    · next h =>
      simp only [SMap.find?, ih]
      by_cases hj : j = k'
      · subst hj; rw [if_pos rfl, if_neg (fun e => h e.symm), if_pos rfl]
      · simp [hj]

/-- A read after a store: the value at its key, the old value at every other. -/
theorem SMap.get_set [DecidableEq α] (m : SMap α) (d v : α) (k j : Nat) :
    SMap.get (SMap.set m d k v) d j = if j = k then v else SMap.get m d j := by
  unfold SMap.set
  split
  · rename_i hv; subst hv
    exact SMap.get_erase m v k j
  · exact SMap.get_put m d k v j

theorem SMap.get_upd [DecidableEq α] (m : SMap α) (d : α) (k j : Nat) (f : α → α) :
    SMap.get (SMap.upd m d k f) d j = if j = k then f (SMap.get m d k) else SMap.get m d j := SMap.get_set m d _ k j

theorem SMap.sorted_write {d : Byte} {b : Bytes} {m : SMap Byte} {a : Nat} (h : SMap.sorted m = true) :
    SMap.sorted (SMap.write d m a b) = true := by
  induction b generalizing m a with
  | nil => exact h
  | cons x b ih => exact ih (SMap.sorted_set h)

/-- A read of one byte after a write of bytes: the byte written where it lies in them, the old byte elsewhere. -/
theorem SMap.get_write (d : Byte) (b : Bytes) (m : SMap Byte) (a j : Nat) :
    SMap.get (SMap.write d m a b) d j = if a ≤ j ∧ j < a + b.length then b.getD (j - a) d else SMap.get m d j := by
  induction b generalizing m a with
  | nil => simp [SMap.write]
  | cons x b ih =>
    rw [SMap.write, ih, SMap.get_set]
    by_cases h1 : j = a
    · subst h1
      rw [if_neg (by omega), if_pos (by simp)]
      simp
    · by_cases h2 : a + 1 ≤ j ∧ j < a + 1 + b.length
      · rw [if_pos h2, if_pos (by simp only [List.length_cons]; omega)]
        have : j - a = (j - (a + 1)) + 1 := by omega
        rw [this, List.getD_cons_succ]
      · rw [if_neg h2, if_neg h1, if_neg (by simp only [List.length_cons]; omega)]

theorem Memory.wf_set {d v : Byte} {m : SMap Byte} {k : Nat} (h : Memory.wf d m) : Memory.wf d (SMap.set m d k v) := by
  refine ⟨SMap.sorted_set h.1, ?_⟩
  intro c hc
  unfold SMap.set at hc
  split at hc
  · exact h.2 c (SMap.mem_erase hc)
  · rcases SMap.mem_put hc with rfl | hc
    · assumption
    · exact h.2 c hc

/-- Storing bytes keeps the canonical form. -/
theorem Memory.wf_write {d : Byte} {b : Bytes} {m : SMap Byte} {a : Nat} (h : Memory.wf d m) : Memory.wf d (SMap.write d m a b) := by
  induction b generalizing m a with
  | nil => exact h
  | cons x b ih => exact ih (Memory.wf_set h)

/-- Erasing a range keeps the canonical form. -/
theorem Memory.wf_filter {d : Byte} {m : SMap Byte} {p : Nat × Byte → Bool} (h : Memory.wf d m) : Memory.wf d (List.filter p m) :=
  ⟨SMap.sorted_filter h.1, fun c hc => h.2 c (List.mem_of_mem_filter hc)⟩

theorem Memory.wf_nil (d : Byte) : Memory.wf d [] := ⟨rfl, by simp⟩

/-- The three memories of the device after reset: DRAM, user flash and TCSRAM. -/
theorem Memory.wf_reset : Memory.wf 0 State.reset.chip.dram.bytes ∧ Memory.wf 0xFF State.reset.chip.boot.flash ∧
    Memory.wf 0 State.reset.chip.ci.tcsram := ⟨Memory.wf_nil 0, Memory.wf_nil 0xFF, Memory.wf_nil 0⟩

theorem Memory.wf_dramWrite {s : Chip} {off : Nat} {b : Bytes} (h : Memory.wf 0 s.dram.bytes) :
    Memory.wf 0 (s.dramWrite off b).dram.bytes := Memory.wf_write h

theorem Memory.wf_flashWrite {s : Chip} {off : Nat} {b : Bytes} (h : Memory.wf 0xFF s.boot.flash) :
    Memory.wf 0xFF (s.flashWrite off b).boot.flash := Memory.wf_write h

theorem Memory.wf_flashErase {s : Chip} {off n : Nat} (h : Memory.wf 0xFF s.boot.flash) :
    Memory.wf 0xFF (s.flashErase off n).boot.flash := Memory.wf_filter h

end Sys2Proof.Machine
end

