-- ==== Sys2Proof/Laws/Tick.lean ====
section
/-! SUPPORT. What a clock period changes, part by part of what acts of itself. -/

namespace Sys2Proof.Machine

/-- A device that does not wait for its rails is not released from reset. -/
theorem Chip.release_not_waiting (s : Chip) (h : s.power.phase ≠ .railsWait) : s.release = s := if_pos (.inl h)

theorem Only.release {ps} {a b : Chip} (k : Only ps a b) (h : b.power.phase ≠ .railsWait) : Only ps a b.release := by
  rw [Chip.release_not_waiting b h]; exact k

/-- VBAT's reading is the power island's, where the device does not wait for its rails. -/
theorem Chip.vbatTick_only (s : Chip) (h : s.power.phase ≠ .railsWait) : Only [.free, .power] s s.vbatTick := by
  unfold Chip.vbatTick Chip.measureVbat
  refine Only.ite ?_ (Only.refl _ _)
  dsimp only
  unfold Chip.noteCore Chip.putRail
  refine Only.release ?_ h
  exact ((((Only.modFree _).mono (by simp)).comp ((Only.modPower _).mono (by simp))).comp ((Only.modPower _).mono (by simp))).comp
    ((Only.modPower _).mono (by simp))

/-- The measured REFCLK frequency is the clock's. -/
theorem Chip.refTick_only (s : Chip) : Only [.free, .clk] s s.refTick := by
  unfold Chip.refTick Chip.measureRef
  exact Only.ite (((Only.modFree _).mono (by simp)).comp ((Only.modClk _).mono (by simp))) (Only.refl _ _)

/-- The mesh generators step among the keys' state. -/
theorem Chip.meshStep_only (s : Chip) : Only [.keys] s s.meshStep := by
  unfold Chip.meshStep; exact Only.ite (Only.modKeys _) (Only.refl _ _)

/-- The end of an activity's pass is the background's. -/
theorem Chip.activityDone_only (n) (s : Chip) : Only [.background] s (Chip.activityDone n s) := Only.modBackground _

/-- The DRAM sweep moves on in its channels. -/
theorem Chip.dramSweep_only (s : Chip) : Only [.dram, .background] s s.dramSweep := by
  unfold Chip.dramSweep
  refine Only.ite (Only.refl _ _) (Only.foldl _ (fun s c => ?_) _ _)
  exact Only.ite ((Only.modDramCh _).mono (by simp)) (((Only.modDramCh _).mono (by simp)).comp ((Chip.activityDone_only _ _).mono (by simp)))

/-- The SRAM sweeps move on in the background's state. -/
theorem Chip.sramSweep_only (s : Chip) : Only [.background] s s.sramSweep := by
  unfold Chip.sramSweep
  dsimp only
  exact Only.ite (Only.ite (Only.refl _ _) ((Only.modBackground _).comp (Chip.activityDone_only _ _))) (Only.modBackground _)

/-- A step of what is added to the action time is the clock's and the link's. -/
theorem Chip.adjustStep_only (s : Chip) : Only [.clk, .cluster] s s.adjustStep := by
  unfold Chip.adjustStep Chip.slew
  dsimp only
  exact Only.ite (Only.refl _ _) (((Only.modClk _).mono (by simp)).comp ((Only.modCluster _).mono (by simp)))

/-- A frame that leaves is an output, and counts on the link. -/
theorem Only.startTx {t} (s : Chip) : Only [.cluster, .out] s (s.startTx t) :=
  ((Only.emit s).mono (by simp)).comp ((Only.modCluster _).mono (by simp))

/-- A frame for the transmitter leaves, waits, or is dropped: it reaches the link and the outputs only. -/
theorem Only.handFrame {t} (s : Chip) : Only [.cluster, .out] s (s.handFrame t) := by
  unfold Chip.handFrame
  exact Only.ite (Only.refl _ _) (Only.ite (Only.startTx s) ((Only.modCluster _).mono (by simp)))

/-- A heartbeat at a tick reaches the link and the outputs only. -/
theorem Chip.beatStep_only (s : Chip) : Only [.cluster, .out] s s.beatStep := by
  unfold Chip.beatStep
  exact Only.ite (Only.refl _ _) (Only.ite (Only.refl _ _) ((Only.handFrame s).comp ((Only.modCluster _).mono (by simp))))

/-- What a flow sends reaches the link and the outputs only. -/
theorem Only.pumpFlow {d} (n) (s : Chip) : Only [.cluster, .out] s (s.pumpFlow d n) := by
  induction n generalizing s with
  | zero => exact Only.refl _ _
  | succ n ih =>
    unfold Chip.pumpFlow
    dsimp only
    split
    · exact Only.refl _ _
    · exact Only.ite (Only.refl _ _) ((((Only.modCluster _).mono (by simp)).comp (Only.handFrame _)).comp (ih _))

/-- A PAIR-STATE reaches the pair, the link and the outputs only. -/
theorem Only.sendPairState (s : Chip) : Only [.pair, .cluster, .out] s s.sendPairState := by
  unfold Chip.sendPairState Chip.sendPair
  refine Only.ite (Only.refl _ _) ?_
  split
  · exact ((((Only.modCluster _).mono (by simp)).comp ((Only.modCluster _).mono (by simp))).comp ((Only.pumpFlow 4 _).mono (by simp))).comp
      ((Only.modPair _).mono (by simp))
  · exact (Only.modPair _).mono (by simp)

/-- A PAIR-STATE at a tick reaches the pair, the link and the outputs only. -/
theorem Chip.pairStep_only (s : Chip) : Only [.pair, .cluster, .out] s s.pairStep := by
  unfold Chip.pairStep
  exact Only.ite (Only.refl _ _) (Only.sendPairState s)

/-- The transmitter reaches the link and the outputs only. -/
theorem Chip.transmitStep_only (s : Chip) : Only [.cluster, .out] s s.transmitStep := by
  unfold Chip.transmitStep
  refine Only.ite (Only.refl _ _) (Only.ite ((Only.modCluster _).mono (by simp)) (Only.ite (Only.refl _ _) ?_))
  split
  · exact Only.refl _ _
  · exact (Only.startTx _).comp ((Only.modCluster _).mono (by simp))

/-- The flash sweep moves on in the background's state. -/
theorem Chip.flashSweep_only (s : Chip) : Only [.background] s s.flashSweep := by
  unfold Chip.flashSweep
  exact Only.ite (Only.refl _ _) (Only.ite (Only.modBackground _) (Chip.activityDone_only _ _))

/-- The event timers of the TPDOs send, and nothing else. -/
theorem Chip.eventPdos_only (a) (s : Chip) : Only [.host, .out] s (s.eventPdos a) := by
  unfold Chip.eventPdos
  refine Only.ite (Only.foldl _ (fun s n => ?_) _ _) (Only.refl _ _)
  unfold Chip.eventPdo
  dsimp only
  split
  · exact Only.refl _ _
  · split
    · unfold Chip.sendPdo
      exact (((Only.sendCan _).mono (by simp)).comp ((Only.sendCan _).mono (by simp))).comp ((Only.modHost _).mono (by simp))
    · exact Only.refl _ _

/-- Everything a clock period may change in a device that does not wait for its rails. -/
theorem tick_only (a : RecArray) (s : Chip) (h : s.power.phase ≠ .railsWait) : Only [.clk, .power, .free, .keys, .dram, .background, .cluster, .pair, .host, .out] s (tick a s) := by
  unfold tick
  have h0 : Only [.clk] s s.advance := Only.modClk _
  exact (((((((((((h0.mono (by decide)).comp ((Chip.vbatTick_only s.advance h).mono (by decide))).comp ((Chip.refTick_only _).mono (by decide))).comp
    ((Chip.meshStep_only _).mono (by decide))).comp ((Chip.dramSweep_only _).mono (by decide))).comp ((Chip.sramSweep_only _).mono (by decide))).comp
    ((Chip.flashSweep_only _).mono (by decide))).comp ((Chip.adjustStep_only _).mono (by decide))).comp
    ((Chip.beatStep_only _).mono (by decide))).comp ((Chip.pairStep_only _).mono (by decide))).comp ((Chip.transmitStep_only _).mono (by decide))).comp
    ((Chip.eventPdos_only _ _).mono (by decide))

end Sys2Proof.Machine
end

