-- ==== Sys2Proof/Laws/Update.lean ====
section
/-! SUPPORT. Reading a member of a collection after a member was changed, and after another part of the
device was changed. -/

namespace Sys2Proof.Machine

@[simp] theorem Chip.sq_modSq (s : Chip) (k j : Nat) (f : Seq → Seq) :
    (s.modSq k f).sq j = if j = k then f (s.sq k) else s.sq j := SMap.get_upd _ _ k j f

@[simp] theorem Chip.lane_modLane (s : Chip) (k j : Nat) (f : Lane → Lane) :
    (s.modLane k f).lane j = if j = k then f (s.lane k) else s.lane j := SMap.get_upd _ _ k j f

@[simp] theorem Chip.clko_modClko (s : Chip) (k j : Nat) (f : Clko → Clko) :
    (s.modClko k f).clko j = if j = k then f (s.clko k) else s.clko j := SMap.get_upd _ _ k j f

@[simp] theorem Chip.lv_modLv (s : Chip) (k j : Nat) (f : LvCh → LvCh) :
    (s.modLv k f).lv j = if j = k then f (s.lv k) else s.lv j := SMap.get_upd _ _ k j f

@[simp] theorem Chip.unit_modUnit (s : Chip) (k j : Nat) (f : CapUnit → CapUnit) :
    (s.modUnit k f).unit j = if j = k then f (s.unit k) else s.unit j := SMap.get_upd _ _ k j f

@[simp] theorem Chip.siteAq_modSiteAq (s : Chip) (k j : Nat) (f : SiteAq → SiteAq) :
    (s.modSiteAq k f).siteAq j = if j = k then f (s.siteAq k) else s.siteAq j := SMap.get_upd _ _ k j f

@[simp] theorem Chip.seal_modSeal (s : Chip) (k j : Nat) (f : SiteSeal → SiteSeal) :
    (s.modSeal k f).seal j = if j = k then f (s.seal k) else s.seal j := SMap.get_upd _ _ k j f

@[simp] theorem Chip.part_modPart (s : Chip) (k j : Nat) (f : Partition → Partition) :
    (s.modPart k f).part j = if j = k then f (s.part k) else s.part j := SMap.get_upd _ _ k j f

@[simp] theorem Chip.queue_modQueue (s : Chip) (k j : Nat) (f : Queue → Queue) :
    (s.modQueue k f).queue j = if j = k then f (s.queue k) else s.queue j := SMap.get_upd _ _ k j f

/-- A sequencer is unchanged where the sequencers are. -/
theorem Only.sq {a b : Chip} {ps : List Part} (h : Only ps a b) (hp : Part.seqs ∉ ps := by decide) (q : Nat) : b.sq q = a.sq q := by
  have := h .seqs hp; unfold Chip.sq; rw [this]

/-- A lane is unchanged where the lanes are. -/
theorem Only.lane {a b : Chip} {ps : List Part} (h : Only ps a b) (hp : Part.lanes ∉ ps := by decide) (n : Nat) : b.lane n = a.lane n := by
  have := h .lanes hp; unfold Chip.lane; rw [this]

/-- Changing one sequencer is a step of that sequencer only. -/
theorem seqStep_modSq (q : Nat) (f : Seq → Seq) (s : State) : SeqStep q (f (s.chip.sq q)) s { s with chip := s.chip.modSq q f } := by
  refine ⟨by simp, fun j h => by simp [h], Only.modSq _, rfl, rfl⟩

/-- A read that reaches its owner is answered with what the owner answers. -/
theorem hostRead_reaches {p : Path} {tag : Word16} {idx sub : Nat} {s c : Chip} {r : Req} (h : ReadReaches p tag idx sub s r c)
    (act : Req → Chip → Chip × ReadReply) : hostRead p tag idx sub act s = (act r c).1.answerRead r.dest (act r c).2 := by
  obtain ⟨ha, hw, hl, row, hr, h1, h2, h3, h4, h5, h7, h6⟩ := h
  unfold hostRead
  rw [ha]
  dsimp only
  rw [if_neg (by rintro ⟨a, b⟩; rcases hw with hw | hw; exact hw a; rw [hw] at b; cases b), hr]
  dsimp only
  rw [h1, if_neg (by simp), if_neg (by rintro ⟨a, b⟩; rcases h2 with h2 | h2; rw [h2] at a; cases a; rw [h2] at b; cases b), h3,
    if_neg (by simp [h4]), h5, if_neg (by simp), h7, if_neg (by simp), if_neg (by rintro ⟨a, b⟩; rcases h6 with h6 | h6; exact h6 a; rw [h6] at b; cases b), ← hl]

end Sys2Proof.Machine
end

