-- ==== Sys2Proof/Machine/Balls.lean ====
section
/-! DEFINITION. What the device drives at its balls, as functions of its state (R41, R43 to R46, R59, R60). -/

namespace Sys2Proof.Machine

/-- What stands at a ball: a level that is driven, a weak pull alone, high impedance, or the signal of the ball's function. -/
inductive Pin where
  | low | high | pullDown | pullUp | hiZ | signal
  deriving DecidableEq, Repr

/-- A driven level. -/
def Pin.ofBool (b : Bool) : Pin := if b then .high else .low

/-- The columns Scrapped and Locked of Table 2.12. -/
def Chip.shut (s : Chip) : Bool := s.life.state == .scrapped || s.life.state == .locked

/-! ## Levels, lanes and events -/

/-- LVL_k at clock `n` of a frame (R393): high for H clocks from clock 64 k on; low until the LV enters loading, through a re-seat
until the LV runs again, and in Scrapped and Locked (R60, Tables 2.12 and 2.14); a shorted pad is at high impedance (R402). -/
def Chip.lvlBall (s : Chip) (k n : Nat) : Pin :=
  if s.shut ∨ s.levelsRun = false ∨ s.reseating 9 0xFF then .low
  else if (s.lv k).short then .hiZ
  else Pin.ofBool (decide ((n + 1024 - 64 * k % 1024) % 1024 < (s.lv k).h))

/-- LANE_n: the level of its last drive edge, or with the driver off its idle pull. In chip reset, in Scrapped and in Locked it is
pulled down, and while the SQ loads for the first time the driver stays off (R52, Table 2.12); a later reset of the SQ leaves the
lanes at their dust-sheet level or pull (R65, Table 2.14). -/
def Chip.laneBall (s : Chip) (n : Nat) : Pin :=
  let l := s.lane n
  let p := l.pinAt s.nowFine
  if s.shut ∨ (s.power.lanesLive = false ∧ (s.island 5 = .off ∨ s.island 5 = .resetting)) then .pullDown
  else if p.1 && s.power.lanesLive then Pin.ofBool p.2
  else if l.pull = 1 then .pullDown
  else if l.pull = 2 then .pullUp
  else .hiZ

/-- EVO_k: isolated while VDD_AO is absent (R41), low in Scrapped and Locked, else its consumer's level (Tables 2.12 and 16.2). -/
def Chip.evoPin (s : Chip) (k : Nat) : Pin :=
  match s.evoBall k with
  | none => .hiZ
  | some b => Pin.ofBool (b && !s.shut)

/-- FAULT_N is open drain, and isolated while VDD_AO is absent (R41, R43). -/
def Chip.faultBall (s : Chip) : Pin := if s.power.onVbat = false ∧ s.faultN then .low else .hiZ

/-! ## CAN and SPI -/

/-- CAN_x_STB: high while its controller is not running or held off the bus, low on the bus, and low through the recovery from
bus-off (R46, R110). -/
def Chip.canStb (s : Chip) (b : Bus) : Pin := Pin.ofBool ((s.ctl b).status == .heldOff)

/-- CAN_x_TX: recessive unless the controller transmits, as one on the bus may (R46). -/
def Chip.canTx (s : Chip) (b : Bus) (transmitting : Bool) : Pin := if transmitting ∧ s.onBus b then .signal else .high

/-- SPI_IO_k as the device drives it: an output by its role while the port serves, else high impedance (R45, Table 2.12). -/
def Chip.spiIo (s : Chip) (returning : Bool) (k : Nat) : Pin :=
  if s.host.online ∧ spiRole s.host.spi.quad returning k = .output then .signal else .hiZ

/-- SPI_IRQ_N is open drain, and released unless the port serves (R43, R115, Table 2.12). -/
def Chip.spiIrqN (s : Chip) : Pin := if s.host.online ∧ s.host.spi.irq then .low else .hiZ

/-! ## Clocks, link, DRAM, tamper and debug -/

/-- CLKO_k_T and CLKO_k_C: high impedance in Scrapped and Locked, a weak pull-down while the format is off, at rest while held
low; an LVCMOS format drives CLKO_k_T and holds CLKO_k_C low, a differential one drives the complement (R44, R90, R92).
(DEDUCED, log 109.) -/
def Chip.clkoBalls (s : Chip) (k : Nat) : Pin × Pin :=
  let o := s.clko k
  let lvcmos : Bool := o.formatIn == 1 || o.formatIn == 2
  if s.shut then (.hiZ, .hiZ)
  else if o.formatIn = 0 then (.pullDown, .pullDown)
  else if o.status = .running ∨ o.status = .bypass then (.signal, if lvcmos then .low else .signal)
  else (.low, if lvcmos then .low else .high)

/-- NST_TX_T and NST_TX_C: driven while the CL runs, at high impedance in Scrapped, in Locked and through a re-seat
(Tables 2.12 and 2.14). -/
def Chip.nstTx (s : Chip) : Pin := if s.runs 10 ∧ s.shut = false then .signal else .hiZ

/-- The kinds of ball of a DRAM channel (Table 2.2). -/
inductive DramBall where
  | resetN | cke | ckT | ckC | other
  deriving DecidableEq, Repr

/-- A channel's balls hold the state of chip reset: in chip reset, Scrapped and Locked, while the channel is off or re-seated,
and for good once it is retired (Tables 2.12 and 2.14). -/
def Chip.dramHeld (s : Chip) (c : Nat) : Bool :=
  let x := (s.dramCh c).state
  s.shut || s.island 8 == .off || s.island 8 == .resetting || x == .off || x == .reseating || x == .retired

/-- The balls of DA_ (channel 0) and DB_ (channel 1): in chip reset RESET_N, CKE and CK_T are low, CK_C is high and the others
are at high impedance (Table 2.12). -/
def Chip.dramBall (s : Chip) (c : Nat) (x : DramBall) : Pin :=
  if s.dramHeld c = false then .signal
  else match x with
    | .resetN => .low
    | .cke => .low
    | .ckT => .low
    | .ckC => .high
    | .other => .hiZ

/-- TAMP_k_OUT, on either source of the AO rail (R41, R198, Table 2.13). -/
def Chip.tampBall (s : Chip) (k : Nat) : Pin := Pin.ofBool (s.tampOut k)

/-- DBG_DO: high impedance while DBG_EN_N is deasserted, in Locked and in Scrapped (Table 2.13). -/
def Chip.dbgDo (s : Chip) : Pin := if s.life.debugOn ∧ s.shut = false then .signal else .hiZ

/-- The strap input buffers and pull-downs, on until 10 µs after time 0 and off from 14 µs on; between, either (R55, Table 2.9). -/
def Chip.strapBuffers (s : Chip) : Option Bool :=
  let t := s.clk.ticks - s.clk.startTick
  if s.power.phase = .railsWait ∨ t < 4000 then some true else if t < 5600 then none else some false

end Sys2Proof.Machine
end

