-- ==== Sys2Proof/Tests/Slice0.lean ====
section
/-! SUPPORT. Tests: an ill-formed command for each check of WellFormed, and for each row of the table one small step in a
state that meets the hypotheses of its statement in Certificates/Slice0/Obligations.lean; the expected values come from
the rules the statements cite. -/

namespace Sys2Proof.Tests

set_option Elab.async false

open Sys2Proof Sys2Proof.Machine

/-- A running device in state Provisioned, its PLLs locked, with an SPI session 1 of vendor level. -/
def up : Chip :=
  { islands := List.replicate 11 .running
    host := { online := true, nmt := .operational, canA := { status := .errorActive }, canB := { status := .errorActive }
              sessions := [(1, { level := .vendor, isSpi := true, serial := 1 })] }
    power := { phase := .ready }
    clk := { ticks := 4000000000, counting := true, action := 256000000 }
    plls := [{ state := .locked }, { state := .locked }]
    crypto := { entropy := .healthy, drbgUp := true }
    life := { state := .provisioned } }

/-- The device after a command. -/
def after (i : Instr) (c : Chip) : Chip :=
  match exec i { chip := c } with
  | .next t => t.chip
  | _ => {}

/-- A command leaves the device as it is. -/
def still (i : Instr) (c : Chip) : Bool := decide (after i c = c)

/-- The SPI port, session 1. -/
def port : Path := .spi 1

/-- A host write lets its request through the gate, and what follows holds of the request and the device. -/
def through (idx sub : Nat) (b : Bytes) (c : Chip) (k : Req → Chip → Bool) (chk : Req → Chip → Nat := fun _ _ => 0) : Bool :=
  match gate port 7 idx sub b chk c with
  | .go r d => k r d
  | .stop _ => false

/-- The result code of the answer sent last. -/
def code (c : Chip) : Nat :=
  match c.out with
  | .answer _ x _ _ :: _ => x.toNat
  | .readAnswer _ _ _ x _ :: _ => x.toNat
  | .usdoAbort _ _ x :: _ => x.toNat
  | _ => 0xFFFF

/-- The bytes of the answer sent last. -/
def bytesOut (c : Chip) : Bytes :=
  match c.out with
  | .answer _ _ d _ :: _ => d
  | .readAnswer _ _ _ _ d :: _ => d
  | _ => []

/-! ## Well-formed commands, the queue -/

theorem test_wf :
    (Instr.objectWrite (.can .canA 5) 1 0x1017 0 [1, 2]).wf = true ∧ (Instr.sessionClose (.spi 0x20) 1).wf = true ∧ (Instr.pwmFrame).wf = true := by decide

theorem test_illFormed_path :
    (Instr.tagStage (.can .canA 0) 1).wf = false ∧ (Instr.tagStage (.spi 0x21) 1).wf = false ∧ (Instr.consumedHeartbeatReceived ⟨.canA, .classical⟩ 0).wf = false ∧
    (Instr.usdoTimeout .canA ⟨0, 0, false⟩).wf = false ∧ (Instr.chipReset 0).wf = false := by decide

theorem test_illFormed_length :
    (Instr.spiRead [] {}).wf = false ∧ (Instr.spiWrite [] {}).wf = false ∧ (Instr.levelCalibrationPass [0]).wf = false ∧
    (Instr.telemetrySample { temps := [], rails := [], rates := [], peaks := [] }).wf = false ∧
    (Instr.trainingComplete { passed := true, gib := 4, ranks := 3, values := [] } { passed := true, gib := 4, ranks := 1, values := [] }).wf = false ∧
    (Instr.windowDataRead (.spi 1) .main 65537).wf = false := by decide

theorem test_illFormed_payload (b : Bytes) (h : 65536 < b.length) :
    (Instr.objectWrite (.spi 1) 1 0x5000 3 b).wf = false ∧ (Instr.windowDataWrite (.spi 1) 1 .main b).wf = false := by
  simp only [Instr.wf, Bool.and_eq_false_imp, decide_eq_false_iff_not]
  exact ⟨fun _ => by omega, fun _ => by omega⟩

theorem test_illFormed_payload_exists : 65536 < (List.replicate 65537 (0 : Byte)).length := by rw [List.length_replicate]; omega

theorem test_step_takes_the_front :
    (match step { chip := up, pending := [.vddIo33Measure 3210, .pwmFrame] } with
      | .next t => t.chip.levels.mv == 3210 && t.pending == [.pwmFrame]
      | _ => false) = true := by decide +kernel

theorem test_step_ticks :
    (match step { chip := up } with
      | .next t => t.chip.clk.ticks == 4000000001 && t.chip.clk.action == 256000640
      | _ => false) = true := by decide +kernel

theorem test_decode_none : decodeTableWord 16 0x1234 = none ∧ State.reset.withFetchWord 16 0x1234 = State.reset := by constructor <;> rfl

/-- A state whose array satisfies the invariant, with a record that waits and its command in front. -/
def committing (i : Instr) : State := { chip := { up with recorder := { queue := [{ code := 7 }] } }, pending := [i] }

theorem test_recorderInvariant :
    (committing (.recordCommit ⟨false, false⟩)).array.Inv ∧
    (match step (committing (.recordCommit ⟨false, false⟩)) with
      | .next t => t.array.next == 1 && (SMap.find? t.array.slots 0).isSome
      | _ => false) = true := ⟨by constructor <;> decide +kernel, by decide +kernel⟩

/-! ## Steps, the queue and reset -/

theorem test_step_takes_front :
    (match step { chip := up, pending := [.linkUp, .linkDown] } with | .next t => t.pending | _ => []) = [.linkDown] := by decide +kernel

theorem test_step_idles : (match step { chip := up } with | .next t => t.chip.clk.action | _ => 0) = up.clk.action + 640 := by decide +kernel

/-! ## Supplies, resets and start-up -/

theorem test_chipReset : (after (.chipReset 0x40) up).host.sessions = [] ∧ (after (.chipReset 0x40) up).clk.ticks = up.clk.ticks := by decide +kernel

theorem test_aoPowerOnReset : (after .aoPowerOnReset up).clk.ticks = 0 ∧ (after .aoPowerOnReset up).host.online = false := by decide +kernel

theorem test_rstNReset : (after (.rstNReset 1000) up).clk.startTick = up.clk.ticks ∧ still (.rstNReset 499) up = true := by decide +kernel

theorem test_deepSleepWake :
    ({ up with power := { phase := .asleep, wakeSources := 2 } } : Chip).wakes .spiCs = true ∧
    (after (.deepSleepWake .spiCs) { up with power := { phase := .asleep, wakeSources := 2 } }).power.causes = 0x400 ∧
    (after (.deepSleepWake .rstN) { up with power := { phase := .asleep } }).power.causes = 0x404 := by decide +kernel

theorem test_chipResetCommand :
    through 0x2003 8 (le 4 0xA5) up (fun _ _ => true) = true ∧ (after (.chipResetCommand port 7) up).power.causes = 0x100 := by decide +kernel

theorem test_deepSleepCommand :
    through 0x2003 9 [1] up (fun _ c => !c.anyArmed && !c.formed && c.pair.state == .unpaired && c.life.pending.isNone) = true ∧
    (after (.deepSleepCommand port 7) up).power.phase = .asleep ∧ (after (.deepSleepCommand port 7) up).island 0 = .off := by decide +kernel

theorem test_deepSleepCommand_refused :
    through 0x2003 9 [1] { up with cluster := { state := .formed } } (fun _ c => c.formed) = true ∧
    code (after (.deepSleepCommand port 7) { up with cluster := { state := .formed } }) = 5 := by decide +kernel

theorem test_railBrownOut_core :
    (after (.railBrownOut .vddCore 719 2000) up).power.causes = 8 ∧ still (.railBrownOut .vddCore 719 499) up = true := by decide +kernel

theorem test_railBrownOut_ao :
    (after (.railBrownOut .vddAo 1599 2000) up).power.onVbat = true ∧ (after (.railBrownOut .vddAo 1599 2000) up).island 2 = .running := by decide +kernel

theorem test_railBrownOut_sec :
    up.upRunning = true ∧ (after (.railBrownOut .vddSec 719 2000) up).island 3 = .resetting ∧
    (after (.railBrownOut .vddSec 719 2000) up).island 2 = .running := by decide +kernel

theorem test_railGood :
    (after (.railGood .vddqDram) { up with power := { phase := .booting, railsGood := 0xF7 } }).power.railsGood = 0xFF := by decide +kernel

/-- A device at the REFCLK check of a start-up. -/
def starting : Chip := { power := { phase := .refclkCheck } }

theorem test_startupRefclkCheck :
    starting.refBeyond 15 25000000 = false ∧ starting.islands.length = 11 ∧ (after (.startupRefclkCheck 25000000) starting).power.phase = .booting ∧
    (after (.startupRefclkCheck 25000000) starting).island 2 = .loading := by decide +kernel

theorem test_startupRefclkCheck_fails :
    starting.refBeyond 25 24000000 = true ∧ (after (.startupRefclkCheck 24000000) starting).power.refFaultRecorded = true ∧
    (after (.startupRefclkCheck 0) starting).power.phase = .refclkCheck := by decide +kernel

theorem test_bootImageVerified_locked :
    (after .bootImageVerified { starting with power := { phase := .booting }, life := { state := .locked } }).power.phase = .reduced := by decide +kernel

theorem test_dictionaryOnline :
    (after .dictionaryOnline { starting with power := { phase := .booting }, boot := { running := 0 } }).host.online = true ∧
    (after .dictionaryOnline { starting with power := { phase := .booting }, boot := { running := 0 } }).power.phase = .online := by decide +kernel

theorem test_siStart :
    (({ up with islands := up.islands.set 3 .loading } : Chip).reloadKeys.keys.registryOk) = true ∧
    (after (.siStart 0 true) { up with islands := up.islands.set 3 .loading }).island 3 = .running ∧
    (after (.siStart 4 true) { up with islands := up.islands.set 3 .loading }).island 3 = .faulted := by decide +kernel

theorem test_readyToArm : (after .readyToArm { up with power := { phase := .online } }).power.phase = .ready := by decide +kernel

/-! ## PLLs, REFCLK and clock outputs -/

/-- A device whose PLLs relock. -/
def relocking : Chip := { up with plls := [{ state := .locking, relockAt := 1000000 }, { state := .locking, relockAt := 1000000 }] }

theorem test_pllLocked :
    relocking.pllUnpowered = false ∧ ((after (.pllLocked 1) relocking).pll 1).state = .locked ∧
    ((after (.pllLocked 0) { relocking with clk := { ticks := 1400000 } }).pll 0).lastUs = 1000 ∧
    (after (.pllLocked 0) { relocking with clk := { ticks := 1400000 } }).clk.counting = true := by decide +kernel

theorem test_pllFault :
    relocking.passedMs 1000000 2 = true ∧ ((after (.pllFault 1) relocking).pll 1).state = .faulted := by decide +kernel

/-- A device whose staged PLL_1 frequency is 4 GHz. -/
def ready1 : Chip := { up with plls := [{ state := .locked }, { state := .locked, n := 160 }] }

theorem test_pll1Apply :
    through 0x2611 4 [1] ready1 (fun _ c => !c.pll1Used && c.plls.length == 2) (fun _ s => if s.vcoOk (s.pll 1).n (s.pll 1).f then 0 else 2) = true ∧
    code (after (.pll1Apply port 7) ready1) = 0 ∧ ((after (.pll1Apply port 7) ready1).pll 1).state = .locking := by decide +kernel

/-- A device whose sequencer 0 is armed on PLL_1. -/
def onPll1 : Chip := ready1.modSq 0 fun x => { x with state := .armed, sets := [(0, { header := [0x28, 0, 0, 0, 1] })] }

theorem test_pll1_in_use :
    through 0x2611 4 [2] onPll1 (fun _ c => c.pll1Used) = true ∧ code (after (.pll1PowerOff port 7) onPll1) = 3 ∧
    code (after (.pll1Apply port 7) onPll1) = 3 := by decide +kernel

theorem test_pll1PowerOff :
    through 0x2611 4 [2] up (fun _ c => !c.pll1Used && c.outputsOf 1 == []) = true ∧ ((after (.pll1PowerOff port 7) up).pll 1).state = .off := by
  decide +kernel

theorem test_refclkLost :
    up.refWatched = true ∧ up.refBeyond 15 24624999 = true ∧ (after (.refclkLost 24624999) up).clk.refStatus = 2 ∧
    (after (.refclkLost 0) up).clk.refStatus = 1 ∧ up.refBeyond 15 24625000 = false ∧ still (.refclkLost 24625000) up = true := by decide +kernel

theorem test_refclkRestored :
    (after (.refclkRestored 25000000) { up with clk := { refLost := true, stopped := [6] } }).clk.refLost = false ∧
    (after (.refclkRestored 25000000) { up with clk := { refLost := true, stopped := [6] } }).clk.stopped = [] := by decide +kernel

/-- A device with clock output 2 of format 1 staged from PLL_0. -/
def clko2 : Chip := up.modClko 2 fun o => { o with format := 1, divider := 100 }

theorem test_clkoApply :
    through 0x2622 9 [1] clko2 (fun _ c => !(c.clko 2).inTransition && (c.clko 2).formatIn == 0 && c.locked (c.clko 2).source)
      (fun _ s => let o := s.clko 2; if s.outputOk o.format o.source o.divider then 0 else 2) = true ∧
    ((after (.clkoApply port 7 2) clko2).clko 2).formatIn = 1 := by decide +kernel

theorem test_clkoApply_off :
    through 0x2622 9 [1] up (fun _ c => (c.clko 2).format == 0) (fun _ s => let o := s.clko 2; if s.outputOk o.format o.source o.divider then 0 else 2) = true ∧
    ((after (.clkoApply port 7 2) up).clko 2).status = .off := by decide +kernel

theorem test_clkoApply_staged :
    through 0x2622 9 [1] (clko2.modClko 2 fun o => { o with inTransition := true }) (fun _ c => (c.clko 2).inTransition)
      (fun _ s => let o := s.clko 2; if s.outputOk o.format o.source o.divider then 0 else 2) = true ∧
    ((after (.clkoApply port 7 2) (clko2.modClko 2 fun o => { o with inTransition := true })).clko 2).again.isSome = true := by decide +kernel

theorem test_clkoPhaseStep :
    through 0x2622 4 (le 2 0xFFFD) up (fun _ _ => true)
      (fun _ s => let n := (s.clko 2).pendingSteps + (0xFFFD : Word16).toInt; if -32768 ≤ n ∧ n ≤ 32767 then 0 else 2) = true ∧
    ((after (.clkoPhaseStep port 7 2 0xFFFD) up).clko 2).pendingSteps = -3 := by decide +kernel

/-- A device whose clock output 2 runs with steps pending. -/
def stepping (n : Int) : Chip := up.modClko 2 fun o => { o with status := .running, pendingSteps := n }

theorem test_phaseStepApplied :
    ((after (.phaseStepApplied 2) (stepping 1)).clko 2).cumulative = 1 ∧ ((after (.phaseStepApplied 2) (stepping (-1))).clko 2).cumulative = -1 ∧
    still (.phaseStepApplied 2) (stepping 0) = true := by decide +kernel

theorem test_spreadTakesEffect :
    (after (.spreadTakesEffect 3) { up with clk := { spread := [(3, 2)] } }).clk.spreadInForce.get 0 3 = 2 := by decide +kernel

theorem test_balls :
    up.laneBall 0 = .pullDown ∧ up.canStb .canA = .low ∧ up.canTx .canA false = .high ∧ (after (.busOff .canA) up).canTx .canA true = .high ∧
    up.spiIo true 0 = .hiZ ∧ up.spiIo true 1 = .signal ∧ ({ up with life := { state := .locked } } : Chip).nstTx = .hiZ ∧
    ({ up with power := { up.power with onVbat := true } } : Chip).evoPin 0 = .hiZ := by decide +kernel

theorem test_clkoBalls :
    up.clkoBalls 0 = (.pullDown, .pullDown) ∧
    ((up.modClko 0 fun o => { o with formatIn := 1, status := .running }).clkoBalls 0) = (.signal, .low) ∧
    ((up.modClko 0 fun o => { o with formatIn := 3, status := .running }).clkoBalls 0) = (.signal, .signal) ∧
    ((up.modClko 0 fun o => { o with formatIn := 3, status := .heldLow }).clkoBalls 0) = (.low, .high) := by decide +kernel

/-! ## Stored parameters and windows -/

/-- A device that stores its parameters. -/
def saving : Chip := after (.storeParameters port .communication) up

theorem test_storeParameters :
    saving.boot.storing.isSome = true ∧ saving.out = [] := by decide +kernel

/-- A device in the midst of a store of one value. -/
def storing3 : Chip :=
  up.modBoot fun b => { b with storing := some (.communication, [{ index := 0x1015, sub := 0, value := [1, 0] }],
    { dest := { path := port, tag := 0, tagged := false, index := 0x1010, sub := 2, session := 1 } }) }

theorem test_storeParameters_busy :
    storing3.boot.storing.isSome = true ∧ code (after (.storeParameters port .device) storing3) = 1 := by decide +kernel

theorem test_storeComplete :
    (after .storeComplete storing3).boot.storing.isSome = false ∧ (after .storeComplete storing3).boot.store.length = 1 := by decide +kernel

theorem test_restoreDefaults :
    through 0x1011 (rangeSub .device) (le 4 loadWord) up (fun _ c => c.boot.storing.isNone) = true ∧
    (after (.restoreDefaults port .device) up).boot.restoreDev = true ∧ (after (.restoreDefaults port .device) up).boot.restoreComm = false := by
  decide +kernel

theorem test_windowRegionSelect :
    let d := after (.windowRegionSelect port .main 2) (after (.windowOffsetSet port .main 64) up)
    d.sel 1 0x5000 1 = 2 ∧ d.sel 1 0x5000 2 = 0 ∧ code d = 0 := by decide +kernel

theorem test_windowOffsetSet :
    (after (.windowOffsetSet port (.program 3) 8) up).sel 1 0x3203 2 = 8 ∧ (after (.windowOffsetSet port .main 8) up).sel 1 0x5000 2 = 8 ∧
    code (after (.windowOffsetSet port .main 6) up) = 0x19 := by decide +kernel

theorem test_windowOffsetSet_busy :
    let g : Target := { path := port, tag := 0, tagged := false, index := 0x5000, sub := 3, session := 1, serial := 1 }
    let d := { up with dram := { up.dram with stalled := [{ dest := some g }] } }
    d.windowBusy g = true ∧ code (after (.windowRegionSelect port .main 2) d) = 1 := by decide +kernel

/-- Two words in the store of sequencer 3. -/
def stored3 : Chip := after (.windowDataWrite port 7 (.program 3) [1, 2, 3, 4, 5, 6, 7, 8]) up

theorem test_windowDataWrite :
    (stored3.sq 3).word 0 = 0x04030201 ∧ (stored3.sq 3).word 1 = 0x08070605 ∧ bytesOut stored3 = le 8 8 := by decide +kernel

theorem test_windowDataRead :
    bytesOut (after (.windowDataRead port (.program 3) 8) (stored3.setSel 1 0x3203 2 0)) = [1, 2, 3, 4, 5, 6, 7, 8] ∧
    ((after (.windowDataRead port (.program 3) 8) (stored3.setSel 1 0x3203 2 0)).sel 1 0x3203 2) = 8 := by decide +kernel

/-! ## The host's path, sessions and the ledger -/

theorem test_gate_tagged_can :
    let s : Chip := { up with host := { up.host with sessions := [(33, { level := .vendor, client := 5, serial := 1, staged := some 9 })] } }
    s.sessionAt (.can .canA 5) = 33 ∧ (match lookup 0x2003 0xA with | .found row => accessCode row.access .vendor == 0 && row.size.ok 1 | _ => false) = true ∧
    (match gate (.can .canA 5) 0 0x2003 0xA [1] (fun _ _ => 0) s with
      | .go r c => r.dest.tag == 9 && r.dest.tagged && (SMap.get c.host.sessions {} 33).busy | .stop _ => false) = true ∧
    (match gate (.can .canA 5) 0 0x2003 0xA [1] (fun _ _ => 0x12) s with | .go _ _ => 0 | .stop c => code c) = 0x06070010 := by decide +kernel

theorem test_objectWrite :
    isWindowData 0x2003 0xA = false ∧ through 0x2003 0xA [1] up (fun _ _ => true) (writeRule 0 0x2003 0xA [1]).chk = true ∧
    code (after (.objectWrite port 7 0x2003 0xA [1]) up) = 0 := by decide +kernel

theorem test_objectWrite_missing : code (after (.objectWrite port 7 0x2FFF 2 (le 4 7)) up) ≠ 0 := by decide +kernel

/-- Session 1 holds a completed entry of tag 7 for object 0x2003:0A with value 1. -/
def again : Chip := after (.objectWrite port 7 0x2003 0xA [1]) up

theorem test_ledger_replay : (after (.objectWrite port 7 0x2003 0xA [1]) again).host.replays = 1 ∧
    code (after (.objectWrite port 7 0x2003 0xA [1]) again) = 0 := by decide +kernel

theorem test_ledger_conflict : (after (.objectWrite port 7 0x2003 0xA [2]) again).host.conflicts = 1 ∧
    code (after (.objectWrite port 7 0x2003 0xA [2]) again) = 9 := by decide +kernel

theorem test_ledger_busy :
    code (after (.objectWrite port 8 0x2003 0xA [2]) (again.modSession 1 fun x => { x with busy := true })) = 1 := by decide +kernel

theorem test_ledger_copy :
    let d := again.modSession 1 fun x => { x with busy := true, ledger := x.ledger.map fun e => { e with inProgress := true } }
    ((SMap.get (after (.objectWrite port 7 0x2003 0xA [1]) d).host.sessions {} 1).ledger.map fun e => e.copies.length) = [1] := by decide +kernel

theorem test_complete :
    let t : Target := { path := port, session := 1, tag := 7, tagged := true, index := 0x2003, sub := 0xA }
    (again.sessionOf { t with serial := 1 }).isSome = true ∧ again.sessionOf { t with serial := 4 } = none := by decide +kernel

theorem test_complete_can :
    let s : Chip := { up with host := { up.host with sessions := [(33, { level := .vendor, client := 5, serial := 1, busy := true })] } }
    let t : Target := { path := .can .canA 5, session := 33, serial := 1, tag := 7, tagged := true, index := 0x2003, sub := 0xA }
    (s.sessionOf t).isSome = true ∧ s.onBus .canA = true ∧ (s.complete t 0 [] 0).out = [.answer t 0 [] 0] := by decide +kernel

theorem test_tagStage :
    let s : Chip := { up with host := { up.host with sessions := [(33, { level := .vendor, client := 5, serial := 1 })] } }
    (match gate (.can .canA 5) 0 0x2100 1 (le 2 9) (fun _ _ => 0) s with | .go _ _ => true | .stop _ => false) = true ∧
    (SMap.get (after (.tagStage (.can .canA 5) 9) s).host.sessions {} 33).staged = some 9 := by decide +kernel

theorem test_sessionNonceRead :
    up.onBus .canB = true ∧ up.reduced = false ∧ up.drbgGate = 0 ∧
    ((after (.sessionNonceRead (.can .canB 5)) up).host.nonces.map fun e => e.value.length) = [16] := by decide +kernel

theorem test_sessionNonceDiscard :
    (match gate port 0 0x2200 2 (List.replicate 16 0) (fun _ _ => 0) up with | .go _ _ => true | .stop _ => false) = true ∧
    (after (.sessionNonceDiscard port (List.replicate 16 0)) (after (.sessionNonceRead port) up)).host.nonces = [] := by decide +kernel

/-- A request to open an observer session. -/
def openReq : Bytes := 1 :: List.replicate 19 0

theorem test_sessionOpen :
    (match levelOf 1 with | some l => up.proofLen l == some 0 | none => false) = true ∧ up.freeSession true = some 2 ∧
    (match gate port 0 0x2200 0x10 openReq (fun _ s => s.openForm openReq) up with | .go _ _ => true | .stop _ => false) = true ∧
    ((after (.sessionOpen port openReq) up).host.sessions.map Prod.fst) = [1, 2] := by decide +kernel

theorem test_sessionClose : (after (.sessionClose port 1) up).host.sessions = [] ∧ code (after (.sessionClose port 2) up) = 0xC := by decide +kernel

theorem test_sessionIdleTimeout :
    let s : Chip := { up with host := { up.host with idleTimeout := 1 } }
    s.passedMs 0 1000 = true ∧ (after (.sessionIdleTimeout 1) s).host.sessions = [] ∧
    still (.sessionIdleTimeout 1) (s.modSession 1 fun x => { x with lastReq := 4000000000 }) = true := by decide +kernel

/-! ## CAN services -/

theorem test_nmtCommand :
    up.hears .canA = true ∧ (after (.nmtCommand ⟨.canA, .classical⟩ 2 0) up).host.nmt = .stopped ∧ (after (.nmtCommand ⟨.canA, .classical⟩ 0x80 0) up).host.nmt = .preOperational ∧
    (after (.nmtCommand ⟨.canA, .classical⟩ 0x81 0) up).host.online = false ∧
    still (.nmtCommand ⟨.canB, .classical⟩ 2 0) (after (.nmtCommand ⟨.canA, .classical⟩ 2 0) up) = true := by decide +kernel

theorem test_nmtResetCommunication :
    (after (.nmtResetCommunication .canA) up).host.nmt = .preOperational ∧
    ((after (.nmtResetCommunication .canA) up).host.sessions.map Prod.fst) = [1] := by decide +kernel

theorem test_canopenSync : (after (.canopenSync ⟨.canA, .classical⟩) up).host.lastSyncA = some 4000000000 := by decide +kernel

theorem test_timeMessage :
    let s : Chip := { up with host := { up.host with cobTime := 0x80000100, cyclePeriod := 1000 } }
    s.syncBusNow = some .canB ∧ s.hears .canB = true ∧ (after (.timeMessage ⟨.canB, .classical⟩ 77) s).clk.lastTime = 77 := by decide +kernel

theorem test_syncSourceTimeout :
    (after .syncSourceTimeout { up with host := { up.host with cyclePeriod := 1000, lastSyncA := some 5 } }).host.lastSyncA = none := by decide +kernel

theorem test_canHeartbeatSend :
    (after .canHeartbeatSend { up with host := { up.host with heartbeat := 100 } }).out.length = 2 := by decide +kernel

/-- A device that consumes the heartbeat of node 9. -/
def consuming (lost : Bool) : Chip :=
  { up with host := { up.host with consumers := [(2, { entry := 0x00090064, monitored := true, lost := lost })] } }

theorem test_consumedHeartbeatLost :
    (SMap.get (after (.consumedHeartbeatLost 2) (consuming false)).host.consumers {} 2).lost = true ∧
    ((after (.consumedHeartbeatLost 2) (consuming false)).host.conditions.map fun c => c.key) = [6002] := by decide +kernel

theorem test_consumedHeartbeatReceived :
    (SMap.get (after (.consumedHeartbeatReceived ⟨.canB, .classical⟩ 9) (consuming true)).host.consumers {} 2).lost = false ∧
    (SMap.get (after (.consumedHeartbeatReceived ⟨.canB, .classical⟩ 9) (consuming true)).host.consumers {} 2).lastAt = 4000000000 := by decide +kernel

theorem test_busOff : up.onBus .canB = true ∧ ((after (.busOff .canB) up).ctl .canB).status = .busOff := by decide +kernel

theorem test_busOffRecovery :
    ((after (.busOffRecovery .canB) (after (.busOff .canB) up)).ctl .canB).status = .errorActive ∧
    (after (.busOffRecovery .canB) (after (.busOff .canB) up)).host.errors.head? = some 0x000D8140 := by decide +kernel

theorem test_canErrorPassive : (after (.canErrorPassive .canA) up).host.errors.head? = some 0x000D8120 := by decide +kernel

theorem test_canErrorPassiveEnd :
    ((after (.canErrorPassiveEnd .canA) (after (.canErrorPassive .canA) up)).ctl .canA).status = .errorActive ∧
    (after (.canErrorPassiveEnd .canA) (after (.canErrorPassive .canA) up)).host.conditions.length = 0 := by decide +kernel

theorem test_canReceiveOverrun : (after (.canReceiveOverrun .canB) up).host.errors.head? = some 0x000D8110 := by decide +kernel

/-- A device whose CAN_A holds EMCYs back. -/
def inhibiting (l : List EmcyMsg) : Chip := up.modHost fun h => { h with inhibit := 10, canA := { status := .errorActive, inhibited := true, waiting := l } }

theorem test_emcyInhibitExpiry :
    ((after (.emcyInhibitExpiry .canA) (inhibiting [{}])).ctl .canA).waiting = [] ∧ (after (.emcyInhibitExpiry .canA) (inhibiting [{}])).out.length = 1 ∧
    ((after (.emcyInhibitExpiry .canA) (inhibiting [])).ctl .canA).inhibited = false := by decide +kernel

theorem test_errorFieldClear :
    (match gate port 0 0x1003 0 [0] (fun _ _ => 0) up with | .go _ _ => true | .stop _ => false) = true ∧
    (after (.errorFieldClear port) (after (.canReceiveOverrun .canB) up)).host.errors = [] := by decide +kernel

theorem test_usdoTimeout :
    (after (.usdoTimeout .canA ⟨5, 3959999999, false⟩) up).out = [.usdoAbort .canA 5 0x05040000] ∧ still (.usdoTimeout .canA ⟨5, 3960000000, false⟩) up = true ∧
    still (.usdoTimeout .canA ⟨5, 0, true⟩) up = true := by decide +kernel

/-! ## The SPI port -/

/-- An SPI frame with its CRC. -/
def frameOf (b : Bytes) : Bytes := b ++ le 2 (crc16 b)

/-- The frame of a write of 1 to 0x2003:0A with tag 3 (R112). -/
def wrFrame : Bytes := frameOf [0x20, 1, 3, 0, 3, 0x20, 0xA, 1, 0, 1]

/-- The frame of a read of 0x2003:0A. -/
def rdFrame : Bytes := frameOf [0x10, 1, 3, 0, 3, 0x20, 0xA, 0, 0]

theorem test_spiWrite :
    frameSound wrFrame false = true ∧ byteAt wrFrame 0 = 0x20 ∧
    (after (.spiWrite wrFrame {}) up).host.spi.entries.length = 1 := by decide +kernel

theorem test_spiWrite_unsound :
    frameSound wrFrame true = false ∧ (after (.spiWrite wrFrame { broken := true }) up).host.spi.rejects = 1 ∧ (after (.spiRead wrFrame { broken := true }) up).host.spi.rejected = true := by
  decide +kernel

theorem test_spiRead :
    frameSound rdFrame false = true ∧ fieldAt rdFrame 7 2 = 0 ∧ (after (.spiRead rdFrame {}) up).host.spi.entries.length = 1 := by decide +kernel

theorem test_spi_full :
    let s := up.modHost fun h => { h with spi := { h.spi with entries := List.replicate 8 {} } }
    (after (.spiWrite wrFrame {}) s).host.spi.discards = 1 ∧ (after (.spiRead rdFrame {}) s).host.spi.discarded = true := by decide +kernel

theorem test_spiFetch :
    (up.host.spi.entries.all fun e => e.frame.isNone) = true ∧ (after .spiFetch up).out = [.spi false [0]] ∧
    (after .spiFetch (after (.spiRead rdFrame {}) up)).host.spi.entries = [] := by decide +kernel

theorem test_spiStatus :
    (after .spiStatus (up.modHost fun h => { h with spi := { h.spi with rejected := true } })).host.spi.rejected = false := by decide +kernel

theorem test_spiLaneSwitch :
    let d := after .spiLaneSwitch (up.modHost fun h => { h with spi := { h.spi with newQuad := some true } })
    d.host.spi.quad = true ∧ d.host.spi.newQuad = none := by decide +kernel

/-! ## Sequencers -/

/-- Sequencer 2 runs a program, one lane with site 0 in mask 0. -/
def seqOf (l : List SeqOp) (f : Seq → Seq := id) : Chip :=
  ({ up with dram := { mode := .twoChannels, inService := 3, channels := [{ state := .running, gib := 4 }, { state := .running, gib := 4 }] } }
    |>.modLane 0 fun n => { n with mode := 1, owner := 2, site := 0, mask := 0 })
    |>.modSq 2 fun x => f { x with
      state := .running, masks := [1, 0, 0, 0], progLen := l.length, sets := [(0, { header := [0xE8, 3, 0, 0, 0, 1, 0, 0] })]
      store := (List.range l.length).map fun i => (i, encodeOp (l.getD i .nop)) }

/-- Sequencer 2 after a command. -/
def sq2 (i : Instr) (c : Chip) : Seq := (after i c).sq 2

/-- A sequencer that may be armed. -/
def armable : Chip := (seqOf [.halt] fun x => { x with state := .idle, endCause := 1 }).modUnit 2 fun u => { u with buffer := le 8 0 ++ le 8 4096 }

/-- It is armed. -/
def armed2 : Chip := seqOf [.halt] fun x => { x with state := .armed }

theorem test_seqArm :
    armable.armFail 2 = none ∧ (sq2 (.seqArm port 7 2) armable).state = .arming ∧ (sq2 (.armingComplete 2) (after (.seqArm port 7 2) armable)).state = .armed := by
  decide +kernel

theorem test_seqArm_refused :
    (up.armFail 2).isSome = true ∧ code (after (.seqArm port 7 2) up) = 4 ∧ code (after (.seqArm port 7 2) (seqOf [.halt])) = 5 := by decide +kernel

theorem test_seqDisarm :
    (sq2 (.seqDisarm port 7 2) armed2).state = .idle ∧ code (after (.seqDisarm port 7 2) armable) = 5 := by decide +kernel

theorem test_seqStop :
    (sq2 (.seqStop port 7 2) (seqOf [.halt])).state = .arming ∧ (sq2 (.seqStop port 7 2) (seqOf [.halt])).endCause = 2 ∧
    (sq2 (.seqStop port 7 2) (seqOf [.halt] fun x => { x with state := .launchPending, launch := some {} })).state = .armed ∧
    code (after (.seqStop port 7 2) armed2) = 5 := by decide +kernel

/-- The bytes of a stamp in nanoseconds. -/
def stamp (ns : Nat) : Bytes := le 8 ns ++ [0, 0]

theorem test_seqLaunch :
    stampOk (stamp 1002000) = 0 ∧ armed2.clk.action + 512000 = (stampOf (stamp 1002000)).at256 ∧ (sq2 (.seqLaunch port 7 2 (stamp 1002000)) armed2).state = .launchPending := by
  decide +kernel

theorem test_seqLaunch_late :
    code (after (.seqLaunch port 7 2 (stamp 1001999)) armed2) = 6 ∧ code (after (.seqLaunch port 7 2 (stamp 0)) armable) = 5 := by decide +kernel

/-- Sequencer 2 with a pending launch. -/
def pending (x : Stamp) (held : Bool) : Chip := seqOf [.halt] fun y => { y with state := .launchPending, launch := some x, launchHeld := held }

/-- No device of a cluster: its time's quality is none of a cluster's, so a launch with flag 1 is held. -/
def far : Stamp := { ns := 1000000, flags := 1 }

theorem test_launchTakesEffect :
    (pending {} false).permits {} = true ∧ (sq2 (.launchTakesEffect 2) (pending {} false)).state = .running ∧
    (sq2 (.launchTakesEffect 2) (pending {} false)).baseNs256 = 256000000 := by decide +kernel

theorem test_launchTakesEffect_held :
    (pending far false).permits far = false ∧ far.at256 = (pending far false).clk.action ∧ (sq2 (.launchTakesEffect 2) (pending far false)).launchHeld = true ∧
    (sq2 (.heldActionLate 2) (pending far true)).state = .armed ∧ (after (.heldActionLate 2) (pending far true)).clk.late = 1 := by decide +kernel

theorem test_heldLaunchPermitted :
    (sq2 (.heldLaunchPermitted 2) (pending {} true)).state = .running ∧
    (sq2 (.heldLaunchPermitted 2) (pending { ns := 1000001 } true)).launchMissed = true := by decide +kernel

/-- Segment 5 is exchangeable and referenced; segment 6 may take its place. -/
def exchangeable : Chip :=
  (seqOf [.halt] fun x => { x with state := .armed, refs := [5] }).modSegs fun g =>
    { g with descs := [(5, { offset := 1, count := 4, width := 1, flags := 2 }), (6, { offset := 9, count := 4, width := 1, flags := 2 })] }

theorem test_segmentExchangeStage :
    segRange 5 6 = 0 ∧ exchangeCode exchangeable 5 6 = 0 ∧ (after (.segmentExchangeStage port 7 5 6) exchangeable).segs.exchanges = [(5, 6)] ∧
    code (after (.segmentExchangeStage port 7 6 5) exchangeable) = 0x500B := by decide +kernel

theorem test_segmentExchangeApply :
    let d := after (.segmentExchangeApply 5) (after (.segmentExchangeStage port 7 5 6) exchangeable)
    (d.desc 5).offset = 9 ∧ (d.desc 6).offset = 1 ∧ d.segs.exchanges = [] ∧
    still (.segmentExchangeApply 5) (exchangeable.modSq 2 fun x => { x with ring := [{ seg := 5, bytes := 64 }] }) = true := by decide +kernel

/-- Sequencer 2 plays segment 5 from its stream ring. -/
def streaming : Chip :=
  (seqOf [.play 0 5, .halt] fun x => { x with ringSize := 65536 }).modSegs fun g => { g with descs := [(5, { count := 4, width := 1 })] }

theorem test_refillRequest :
    (streaming.sq 2).ringRoom = true ∧ streaming.dramServes = true ∧ (sq2 (.refillRequest 2) streaming).fetching = [(5, 4)] := by decide +kernel

/-! ## The instructions of a program -/

theorem test_nop : (sq2 (.nop 2) (seqOf [.nop, .halt])).pc = 1 := by decide +kernel

theorem test_loop : ((sq2 (.loop 2) (seqOf [.loop 5, .endl, .halt])).loops.map fun l => (l.start, l.left)) = [(0, 5)] := by decide +kernel

theorem test_endl :
    let d (n : Nat) := seqOf [.loop 5, .endl, .halt] fun x => { x with pc := 1, loops := [⟨0, n⟩] }
    (sq2 (.endl 2) (d 0)).pc = 2 ∧ (sq2 (.endl 2) (d 3)).pc = 1 ∧ ((sq2 (.endl 2) (d 3)).loops.map fun l => l.left) = [2] := by decide +kernel

theorem test_call : (sq2 (.call 2) (seqOf [.call 2, .halt, .ret])).pc = 2 := by decide +kernel

theorem test_ret : (sq2 (.ret 2) (seqOf [.call 2, .halt, .ret] fun x => { x with pc := 2, calls := [⟨1, 0⟩] })).pc = 1 := by decide +kernel

theorem test_jmp : (sq2 (.jmp 2) (seqOf [.loop 1, .jmp 3, .endl, .halt] fun x => { x with pc := 1, loops := [⟨0, 1⟩] })).loops.length = 0 := by
  decide +kernel

theorem test_seqEvent :
    let d := seqOf [.halt] |>.modRouter fun r => { r with routes := [(11, 1)] }
    d.routed 11 = true ∧ (sq2 (.seqEvent 2 3) d).latches = 8 ∧ still (.seqEvent 2 3) (after (.seqEvent 2 3) d) = true := by decide +kernel

/-- Sequencer 2 with latch 3 set long before its next boundary. -/
def latched (l : List SeqOp) (f : Seq → Seq := id) : Chip := seqOf l fun x => f { x with latches := 8, eventAt := [(3, 0)], baseNs256 := 256000000 }

theorem test_jev :
    (latched [.jev 3 2, .nop, .halt]).sampled 2 3 = true ∧ (sq2 (.jev 2) (latched [.jev 3 2, .nop, .halt])).pc = 2 ∧
    (sq2 (.jev 2) (latched [.jev 3 2, .nop, .halt])).latches = 0 ∧ (sq2 (.jev 2) (seqOf [.jev 3 2, .nop, .halt])).pc = 1 := by decide +kernel

theorem test_evarm : ((sq2 (.evarm 2) (seqOf [.evarm 1 2, .nop, .halt])).jumps.map fun j => (j.1, j.2.target)) = [(1, 2)] := by decide +kernel

theorem test_evdis : (sq2 (.evdis 2) (seqOf [.evdis 1] fun x => { x with jumps := [(1, { target := 2 })] })).jumps.length = 0 := by decide +kernel

theorem test_evclr : (sq2 (.evclr 2) (latched [.evclr 3, .halt])).latches = 0 := by decide +kernel

theorem test_armedJumpTaken :
    let d := latched [.nop, .nop, .halt] fun x => { x with jumps := [(3, { target := 2 })] }
    d.dueJump 2 = some 3 ∧ (sq2 (.armedJumpTaken 2) d).pc = 2 ∧ still (.armedJumpTaken 2) (latched [.nop]) = true := by decide +kernel

theorem test_wait :
    (sq2 (.wait ⟨2, 5⟩) (seqOf [.wait 4, .halt])).vecIndex = 5 ∧ (sq2 (.wait ⟨2, 5⟩) (seqOf [.wait 4, .halt])).pc = 1 ∧
    (sq2 (.wait ⟨2, 3⟩) (seqOf [.wait 4, .halt])).vecIndex = 3 ∧ (sq2 (.wait ⟨2, 3⟩) (seqOf [.wait 4, .halt])).pc = 0 := by decide +kernel

theorem test_barw :
    let d := (seqOf [.barw 3, .halt]).modSq 9 fun x => { x with state := .armed, progLen := 1, store := [(0, encodeOp (.barw 3))] }
    (d.sq 9).participates 3 = true ∧ (sq2 (.barw 2) d).state = .waiting ∧ (sq2 (.barw 2) d).barrier = some 3 := by decide +kernel

theorem test_sfw : (sq2 (.sfw 2) (seqOf [.sfw 6, .halt])).state = .waiting ∧ (sq2 (.sfw 2) (seqOf [.sfw 6, .halt])).sealedCfg.recipe = 6 := by decide +kernel

theorem test_drop : (sq2 (.drop 2) (seqOf [.drop, .halt])).dropDue = true := by decide +kernel

theorem test_dropTakesEffect :
    let d := seqOf [.drop, .halt] fun x => { x with dropDue := true }
    d.failedMasks 2 = [] ∧ (sq2 (.dropTakesEffect 2) d).pc = 1 ∧ (sq2 (.dropTakesEffect 2) d).state = .running := by decide +kernel

theorem test_halt : (sq2 (.halt 2) (seqOf [.halt])).state = .arming ∧ (sq2 (.halt 2) (seqOf [.halt])).endCause = 1 := by decide +kernel

/-- A level above the threshold on every lane. -/
def high : LaneObs := { levels := 0xFFFFFFFFFFFFFFFF, pulses := [], deviations := [] }

/-- Sequencer 2 plays resident segment 5. -/
def resident (i : SeqOp) : Chip :=
  (seqOf [i, .halt]).modSegs fun g => { g with descs := [(5, { count := 4, width := 1, flags := 1 })] }

theorem test_play :
    (streaming.playNext 2 high).isNone = true ∧ still (.play 2 [high]) streaming = true ∧
    (sq2 (.play 2 [high]) (resident (.play 0 5))).vectors = 1 := by decide +kernel

theorem test_plays : (sq2 (.plays 2 [high]) (resident (.plays 5))).vectors = 1 := by decide +kernel

theorem test_alg :
    ((seqOf [.alg 0, .halt]).algNext 2 0 high).isNone = true ∧ still (.alg 2 [high]) (seqOf [.alg 0, .halt]) = true := by decide +kernel

theorem test_underrun :
    (((seqOf [.plays 5]).sq 2).streamMasks 1) = [0] ∧ (sq2 (.underrun 2 1 false) (seqOf [.plays 5])).parked = 1 ∧
    (sq2 (.invalidRecordPark 2 1 5 0) (seqOf [.plays 5] fun x => { x with floor := 1000000000 })).underruns = 1 ∧
    still (.invalidRecordPark 2 1 5 0) (seqOf [.plays 5]) = true := by decide +kernel

theorem test_fieldFailure :
    let d := (seqOf [.nop]).modSeal 0 fun x => { x with cause := 2 }
    d.seqOfSite 0 = some 2 ∧ (sq2 (.fieldFailure 0) d).sealedCfg.failed = 1 ∧ (sq2 (.fieldFailure 0) d).dropped = 1 := by decide +kernel

theorem test_sealedPlayStart :
    let d := seqOf [.sfw 6, .halt] fun x => { x with state := .waiting, sealedCfg := { x.sealedCfg with field := .buffered, recipe := 6, windowOpen := true } }
    d.sealedReady 2 = true ∧ (sq2 (.sealedPlayStart 2) d).playing = some 6 ∧ (sq2 (.sealedPlayStart 2) d).pc = 1 ∧
    still (.sealedPlayStart 2) (seqOf [.nop]) = true := by decide +kernel

theorem test_alg_pause :
    let d := seqOf [.alg 0, .halt] fun x => { x with gen := { programs := [(0, [0x80000001])] } }
    (d.algAt 2 ((d.sq 2).gen.program 0) 0 0).isSome = true ∧ (sq2 (.alg 2 [high]) d).vecIndex = 1 := by decide +kernel

theorem test_heldActionLate_arming :
    let d := (pending { ns := 999999 } true).modSq 2 fun x => { x with state := .arming, launchMissed := true }
    (sq2 (.heldActionLate 2) d).state = .arming ∧ (sq2 (.heldActionLate 2) d).launch = none ∧ (sq2 (.heldActionLate 2) d).lastAction = some 6 := by
  decide +kernel

/-! ## Images -/

/-- The signed bytes of an image: header, one descriptor and a key block of RSA-3072 with the prime modulus 2^3071 + 2291. -/
def imageHead (recovery : Bool) : Bytes :=
  be 4 0x4A4B494D ++ be 2 1 ++ [1, if recovery then 1 else 0] ++ be 4 4480 ++ be 4 3 ++ [0, 0, 3, 0] ++ be 4 7 ++ be 8 0 ++
    [0, 1] ++ be 2 4 ++ be 4 4096 ++ be 4 0 ++ be 4 0x20001000 ++ be 4 0x10000000 ++ be 4 0 ++ be 2 0 ++ be 2 1 ++ be 4 0 ++ be 4 0 ++ be 4 0 ++
    be 32 0xe3b0c44298fc1c149afbf4c8996fb92427ae41e4649b934ca495991b7852b855 ++ be 2 384 ++ [0x80] ++ List.replicate 381 0 ++ be 2 2291 ++
    List.replicate 3606 0

/-- Their signature, of the exponent's inverse modulo the prime less one. -/
def imageSig : Bool → Bytes
  | false => be 48 0x3e2234b5a9dec97f2a359351a889db2d82128aefbd0556fb78b0769d92a0476da60e5aec02a8c57955fc64127830e0ef ++
    be 48 0xf452633d2994b8fa1a0072c14170ff66e3529ac4aedc87bcd7fb7bd67f4e9cc58d7a321b5071dc31c3b1a419e0c8896b ++
    be 48 0x574b4ab138ec99feae892657ca515608a931aac2f1cf59140d33040d959b4593593eca0c5c5a53de6e8c9fbb5ad3e14 ++
    be 48 0x8c998c1094b3cfdec1912b26bc3da30ae4879f690d8d290af1fd6b24a6cdfa2cad6223a347b789c3d48fd44c3e4cb50f ++
    be 48 0xd0302d867280c7ce7e33557321d171977278c0e3aea0bbdc840b58806758a12e05939386133b4c33a4abd3cba7579962 ++
    be 48 0xbdfcd3da46391621b19d4755722326f71ba08bb0309d7f1fdfad86890fba7412db6c88d4e02b9fcfbf4c16a55698dd99 ++
    be 48 0x93972f4804dac120a701ff69a3410724666d47ba6a18a5c04176f02268b3e0a7e43faebda672b7bba5a3559d7384a197 ++
    be 48 0x8eac79fb2685c240f62868fd6d6d2896dbcf98dc2692504a4a89b006d1ae7a0112993c572a0ece94d7c667124b270ff6
  | true => be 48 0x39eb38168401974df33fb4f1f4bf1c1ceff032ffeb9157cc35e83c59b758a85f36b826926f955bd7e27d789e395d5eda ++
    be 48 0x998765e0bffd0fedd5386d23668097203bc0d9626e5e117d3896796f6f0adea0697eef02e17d8f3a3dd2ce6b6f04748a ++
    be 48 0xcbd493b22e03e02a91739e6a3723a4d562f65f163a0a056de12e08a5129b0f39f8a82f3fa29b09627a2ed813ebd161da ++
    be 48 0xb3da2f03f0f4f4c2c31f8cdd98c6d2ead04356537e7a8abb28289bcb27e659ad039780dde5d8796608ccf1b8d1a7e383 ++
    be 48 0x5130b78fc55df3cab0f58370ec6960de114cc7e9f0dcf97dd1f50a9d001dec54978a74fe300d262503100f96b65be613 ++
    be 48 0x76fe22fcee4058176e6e6b8fc0fb49f3754c4b9f7b67763abc300229f466f9296b14a930ca27bbd251834e3cb6e92987 ++
    be 48 0x17c3044ef52296586fadcba69bfd4f1a5478dcd86d8cf310e3eebd46bfdda7e64544476ab92f83dc979afb7ef4870021 ++
    be 48 0xf30a24972dfc0be6bdb39793874b255ecddfad3bb9637551d00838aef816613c3fbf9cdb31ed5a91ba142615c0cbed5f

/-- The image. -/
def image (recovery : Bool) : Bytes := imageHead recovery ++ imageSig recovery

/-- Bytes from an address, as memory cells where an unlisted one reads as `d`. -/
def cellsAt (d : Byte) : Nat → Bytes → SMap Byte
  | _, [] => []
  | a, x :: xs => if x = d then cellsAt d (a + 1) xs else (a, x) :: cellsAt d (a + 1) xs

theorem cellsAt_get (d : Byte) (b : Bytes) (a k : Nat) : SMap.get (cellsAt d a b) d k = if a ≤ k then b.getD (k - a) d else d := by
  induction b generalizing a with
  | nil => simp [cellsAt, SMap.get]
  | cons x xs ih =>
    by_cases h : k = a
    · subst h
      rw [cellsAt, if_pos (Nat.le_refl k), Nat.sub_self]
      split
      · rename_i hx
        rw [ih, if_neg (by omega), hx]; rfl
      · rw [SMap.get, if_pos rfl]; rfl
    · have : a ≤ k → k - a = k - (a + 1) + 1 := by omega
      by_cases hx : x = d <;> by_cases hk : a ≤ k
      · rw [cellsAt, if_pos hx, ih, if_pos (by omega), if_pos hk, this hk]; simp
      · rw [cellsAt, if_pos hx, ih, if_neg (by omega), if_neg hk]
      · rw [cellsAt, if_neg hx, SMap.get, if_neg h, ih, if_pos (by omega), if_pos hk, this hk]; simp
      · rw [cellsAt, if_neg hx, SMap.get, if_neg h, ih, if_neg (by omega), if_neg hk]

theorem cellsAt_read (d : Byte) (b : Bytes) (a n : Nat) (h : n ≤ b.length) : SMap.read d (cellsAt d a b) a n = b.take n := by
  apply List.ext_getElem
  · simp [SMap.read, h]
  · intro i h1 h2
    simp only [SMap.read, List.getElem_map, List.getElem_range, List.getElem_take, cellsAt_get]
    rw [if_pos (by omega), Nat.add_sub_cancel_left]
    simp only [List.length_take] at h2
    simp [List.getD, show i < b.length by omega]

theorem region_read (s : Chip) (b : Bytes) (n : Nat) (h : n ≤ b.length) (hb : s.regionBase 5 = 872415232) (hm : s.dram.bytes = cellsAt 0 872415232 b) :
    s.regionRead 5 0 n = b.take n := by
  simp only [Chip.regionRead, Chip.dramRead, hb, hm]
  exact cellsAt_read 0 b _ n h

/-- A device with an image in the staging region, its key slot in the fuses, and slot B running. -/
def staging (recovery : Bool) : Chip :=
  { up with
    dram := { mode := .twoChannels, inService := 3, channels := [{ state := .running, gib := 4 }, { state := .running, gib := 4 }]
              bytes := cellsAt 0 872415232 (image recovery) }
    boot := { running := 1, version := 3 }
    life := { state := .provisioned, fuses := [(0x40, 0x810e8406), (0x41, 0xf2f08647), (0x42, 0xc9a8a871), (0x43, 0x3b4c0578), (0x44, 0xffffe65a),
      (0x45, 0xa12543a0), (0x46, 0xfef8616f), (0x47, 0xbecbb775)] } }

theorem image_length : ∀ r, (image r).length = 4480 := by decide +kernel

/-- A read of the staging region, no request waiting. -/
theorem plain_read (s : Chip) (n : Nat) (hs : s.dram.stalled = []) (ht : s.dram.transfers = [])
    (hq : (s.dram.channels.flatMap fun c => c.inFlight ++ c.queue) = []) : s.readBehind (s.stagedReq n) = s.regionRead 5 0 n := by
  have h : ∀ r : DramReq, s.readBehind r = s.dramRead r.addr r.len := by
    intro r
    rw [Chip.readBehind, Chip.bufferedRead, hs, ht, hq]
    rfl
  rw [h, Chip.regionRead, Nat.add_zero]
  rfl

theorem staging_plain (r : Bool) (n : Nat) : (staging r).readBehind ((staging r).stagedReq n) = (staging r).regionRead 5 0 n :=
  plain_read _ n rfl rfl rfl

theorem staging_staged (r : Bool) : (staging r).staged = image r := by
  have h : ∀ n, n ≤ 4480 → (staging r).regionRead 5 0 n = (image r).take n := fun n hn =>
    region_read _ _ n (by rw [image_length]; exact hn) (by cases r <;> decide +kernel) (by simp only [staging])
  have hl : imgLength ((image r).take 32) = 4480 := by cases r <;> decide +kernel
  rw [Chip.staged, staging_plain r 32, h 32 (by decide), hl, show min (4 * mib) (max 32 4480) = 4480 by decide +kernel, staging_plain r 4480, h 4480 (by decide),
    List.take_of_length_le (Nat.le_of_eq (image_length r))]


theorem image_checks (r : Bool) : (staging r).checkImage (image r) r false (areaSize (if r then 2 else 0)) = 0 := by cases r <;> decide +kernel

/-- The device once the staged image has been read. -/
def read (s : Chip) : Chip := s.moveNow (s.stagedReq 4480)

/-- A read moves requests of the DRAM only. -/
theorem read_boot (s : Chip) : (read s).boot = s.boot := by
  have h : ∀ (l : List DramReq) (t : Chip), (l.foldl (fun s p => s.move (s.channelOf p.addr) (s.placed p)) t).boot = t.boot := by
    intro l
    induction l with
    | nil => intro t; rfl
    | cons a l ih => intro t; rw [List.foldl_cons, ih]; rfl
  rw [read, Chip.moveNow, h]
  rfl

theorem staging_read (r : Bool) : (staging r).readStaged = (some (image r), read (staging r)) := by
  have h : (staging r).readBehind ((staging r).stagedReq 4480) = image r := by
    rw [staging_plain, region_read _ (image r) 4480 (Nat.le_of_eq (image_length r).symm) (by cases r <;> decide +kernel) (by simp only [staging]),
      List.take_of_length_le (Nat.le_of_eq (image_length r))]
  have hb : (staging r).dram.badBursts = [] := rfl
  rw [Chip.readStaged, staging_staged, image_length]
  simp only [Chip.serve, hb, List.find?_nil, h, read]

theorem test_imageInstall : (staging false).readStaged = (some (image false), read (staging false)) ∧
    (read (staging false)).checkImage (image false) false false (areaSize 0) = 0 := ⟨staging_read false, by decide +kernel⟩

theorem test_recoveryInstall : (staging true).readStaged = (some (image true), read (staging true)) ∧
    (read (staging true)).checkImage (image true) true false (areaSize 2) = 0 := ⟨staging_read true, by decide +kernel⟩

/-- A device at the boot decision, with the image in slot A. -/
def bootable : Chip := { staging false with
  power := { phase := .booting }, boot := { flash := cellsAt 0xFF (areaBase 0) (image false) } }

theorem bootable_read (n : Nat) (h : n ≤ 4480) : bootable.flashRead (areaBase 0) n = (image false).take n := by
  simp only [Chip.flashRead, bootable]
  exact cellsAt_read 0xFF _ _ n (by rw [image_length]; exact h)

theorem bootable_area : bootable.areaImage 0 = image false := by
  have hl : imgLength ((image false).take 32) = 4480 := by decide +kernel
  rw [Chip.areaImage, bootable_read 32 (by decide), hl, show min (areaSize 0) (max 32 4480) = 4480 by decide +kernel, bootable_read 4480 (by decide),
    List.take_of_length_le (Nat.le_of_eq (image_length _))]

theorem test_bootImageVerified : bootable.areaEmpty 0 = false ∧ bootable.areaStatus 0 = 0 := by
  have he : bootable.areaEmpty 0 = false := by decide +kernel
  have hi := bootable_area
  refine ⟨he, ?_⟩
  have hc : bootable.checkImage (image false) false true (areaSize 0) = 0 := by decide +kernel
  rw [Chip.areaStatus, he, hi]
  simpa using hc

/-- A device in state Locked at the boot decision, a transition pending, with a recovery image. -/
def recoverable : Chip := { staging true with
  power := { phase := .booting }, life := { (staging true).life with state := .locked, pending := some 3 }, boot := { flash := cellsAt 0xFF (areaBase 2) (image true) } }

theorem recoverable_read (n : Nat) (h : n ≤ 4480) : recoverable.flashRead (areaBase 2) n = (image true).take n := by
  simp only [Chip.flashRead, recoverable]
  exact cellsAt_read 0xFF _ _ n (by rw [image_length]; exact h)

theorem recoverable_area : recoverable.areaImage 2 = image true := by
  have hl : imgLength ((image true).take 32) = 4480 := by decide +kernel
  rw [Chip.areaImage, recoverable_read 32 (by decide), hl, show min (areaSize 2) (max 32 4480) = 4480 by decide +kernel, recoverable_read 4480 (by decide),
    List.take_of_length_le (Nat.le_of_eq (image_length _))]

theorem test_bootImageVerified_recovery : recoverable.areaEmpty 2 = false ∧ recoverable.areaStatus 2 = 0 := by
  have he : recoverable.areaEmpty 2 = false := by decide +kernel
  have hi := recoverable_area
  refine ⟨he, ?_⟩
  have hc : recoverable.checkImage (image true) true false (areaSize 2) = 0 := by decide +kernel
  rw [Chip.areaStatus, he, hi]
  simpa using hc

/-- What noting an area leaves: its status. -/
theorem noteArea_status (a b : Nat) (s : Chip) : (s.noteArea a).areaStatus b = s.areaStatus b := by
  have hf : (s.noteArea a).boot.flash = s.boot.flash := by simp only [Chip.noteArea, Chip.modBoot]; split <;> (try split) <;> rfl
  have hl : (s.noteArea a).life = s.life := rfl
  have hr : ∀ x n, (s.noteArea a).flashRead x n = s.flashRead x n := by intro x n; simp only [Chip.flashRead, hf]
  have hi : ∀ x, (s.noteArea a).areaImage x = s.areaImage x := by intro x; simp only [Chip.areaImage, hr]
  have he : ∀ x, (s.noteArea a).areaEmpty x = s.areaEmpty x := by intro x; simp only [Chip.areaEmpty, hf]
  simp only [Chip.areaStatus, hi, he]
  rfl

/-! ## Life cycle and fuses -/

/-- A device in a life-cycle state with transition nonce 0 outstanding. -/
def inState (x : LifeCycle) : Chip := { up with life := { state := x, nonce := some (List.replicate 16 0), nonceAt := 4000000000 } }

/-- The request for a transition to Calibrated. -/
def toCalibrated : Instr := .lifeCycleTransition port 7 1 0 (List.replicate 16 0) [] ⟨[], none⟩

theorem test_lifeCycleTransition :
    through 0x2400 4 ([1, 0] ++ List.replicate 16 0) (inState .wafer)
      (fun r c => transitionCode r .calibrated 0 (List.replicate 16 0) [] c == 0 && c.fuse 0 == 0 && c.fuse 1 == 0) = true ∧
    (after toCalibrated (inState .wafer)).fuse 0 = 0xF ∧ (after toCalibrated (inState .wafer)).fuse 2 = 0xF ∧
    (after toCalibrated (inState .wafer)).power.causes = 0x200 := by decide +kernel

theorem test_lifeCycleTransition_refused :
    code (after toCalibrated (inState .provisioned)) = 0x1001 ∧ (after toCalibrated (inState .provisioned)).life.nonce = none := by decide +kernel

theorem test_transitionNonceRead :
    ((after (.transitionNonceRead port) up).life.nonce.map List.length) = some 16 ∧ (after (.transitionNonceRead port) up).life.nonceAt = 4000000000 := by
  decide +kernel

theorem test_recoveryImageRun :
    (match lifeOf 1 with | some t => t == .calibrated | none => false) = true ∧
    still (.recoveryImageRun []) { up with life := { state := .locked, pending := some 1 } } = true := by decide +kernel

theorem test_fuseProgram :
    (after (.fuseProgram port 7 0x40 6) (inState .provisioned)).fuse 0x40 = 6 ∧ code (after (.fuseProgram port 7 0x10 6) (inState .provisioned)) = 5 ∧
    code (after (.fuseProgram port 7 0x78 6) (inState .provisioned)) = 2 := by decide +kernel

theorem test_fuseSkim :
    let d := { up with clk := { up.clk with ticks := 400 * 86400000000 } }
    (after (.fuseSkim ⟨[3], 0⟩) d).life.marginal = [3] ∧ (after (.fuseSkim ⟨[3], 0⟩) d).life.fault = 3 ∧ still (.fuseSkim ⟨[3], 0⟩) up = true := by decide +kernel

theorem test_imageInstall_running :
    code (after (.imageInstall port 7 false) (up.modBoot fun b => { b with running := 0 })) = 0x2004 ∧
    code (after (.imageInstall port 7 true) (up.modBoot fun b => { b with running := 0 })) = 4 := by decide +kernel

theorem test_recoveryInstall_level :
    code (after (.recoveryInstall port 7) (up.modSession 1 fun x => { x with level := .operator })) = 0xC := by decide +kernel

theorem test_raiseMinimumVersion :
    let d := up.modBoot fun b => { b with version := 3 }
    (after (.raiseMinimumVersion port 7 3) d).minVersion = 3 ∧ code (after (.raiseMinimumVersion port 7 4) d) = 2 := by decide +kernel

theorem test_revokeKeySlot :
    (after (.revokeKeySlot port 7 3) (up.modBoot fun b => { b with running := 0xFF })).revoked 3 = true ∧ code (after (.revokeKeySlot port 7 0) up) = 2 := by
  decide +kernel

/-! ## The debug port -/

/-- A frame of an opcode with its CRC. -/
def frame (op a d : Nat) : DebugFrame :=
  { address := BitVec.ofNat 32 a, data := BitVec.ofNat 32 d, crc := BitVec.ofNat 8 (crc8 (be 1 op ++ be 4 a ++ be 4 d)) }

/-- A device in a debug session that is authorised or not, its conductor cores halted or not. -/
def debugging (auth halted : Bool) : Chip :=
  { up with
    life := { state := .provisioned, debugOn := true, debug := if auth then .authorised else .awaiting, challenge := List.replicate 16 0 }
    ci := { halted := halted, pc := 0x20, regs := (List.range 31).map fun i => BitVec.ofNat 32 i } }

/-- The status and data the port answers, as one number. -/
def answered (i : Instr) (c : Chip) : Nat := beNat ((after i c).life.debugOut.take 5)

theorem test_debug_frames :
    still (.debugHalt (frame 0x10 0 0)) up = true ∧ answered (.debugHalt (frame 0x11 0 0)) (debugging true false) = 0x0300000000 ∧
    answered (.debugHalt (frame 0x10 0 0)) (debugging false false) = 0x0100000000 := by decide +kernel

theorem test_debugEnable :
    (after .debugEnable up).life.debugOn = true ∧ still .debugEnable (debugging true false) = true := by decide +kernel

theorem test_debugDisable : (after .debugDisable (debugging true false)).life.debugOn = false := by decide +kernel

theorem test_debugIdentify : answered (.debugIdentify ⟨1, frame 0x01 0 0⟩) (debugging false false) = 0x00064100 := by decide +kernel

theorem test_debugChallengeWord :
    answered (.debugChallengeWord (frame 0x02 3 0)) (debugging false false) = 0 ∧ answered (.debugChallengeWord (frame 0x02 4 0)) (debugging false false) = 0x0200000000 := by
  decide +kernel

theorem test_debugAuthorisationWord :
    SMap.get (after (.debugAuthorisationWord (frame 0x03 127 9)) (debugging false false)).life.authWords 0 127 = 9 ∧
    answered (.debugAuthorisationWord (frame 0x03 128 9)) (debugging false false) = 0x0200000000 := by decide +kernel

/-- A public key and a signature of the challenge 0 that it verifies. -/
def authProof : Bytes :=
  be 32 0x885783fbb03b44534b2db12d83b5b566fa57fd4900fa770b5a894a24fd8763bb ++
    be 32 0xdc4938f0184b0747bf418431785997bba0a0a8dfc3a8f935578a5b539a464ec9 ++
    be 32 0x9a073cb764feae3cc2e40715eeb8a726c2a00bc43ac030043800be9708c8413c ++
    be 32 0x9340e7966c9fd5c8185c80e2bdd714e4b6c77ecf5ae3d54300dcfd345f4a9ad0

/-- Its words are loaded, and the fuses hold the key's digest. -/
def authorising : Chip :=
  (debugging false false).modLife fun l => { l with
    authWords := (List.range 32).map fun i => (i, BitVec.ofNat 32 (beNat (slice authProof (4 * i) 4)))
    fuses := [(0x70, 0xcc4fbef4), (0x71, 0x7fc96ffe), (0x72, 0xc8778fe9), (0x73, 0x25cef00b), (0x74, 0x490cdc02), (0x75, 0x9ea44c72), (0x76, 0x20f38b93), (0x77, 0x6492d208)] }

theorem test_debugAuthorise : (after (.debugAuthorise (frame 0x04 0 0)) authorising).life.debug = .authorised := by decide +kernel

theorem test_debugAuthorise_refused :
    answered (.debugAuthorise (frame 0x04 0 0)) (debugging false false) = 0x0100000000 ∧
    answered (.debugAuthorise (frame 0x04 0 0)) { debugging false false with islands := [] } = 0x0400000000 := by decide +kernel

theorem test_debugHalt :
    (after (.debugHalt (frame 0x10 0 0)) (debugging true false)).ci.halted = true ∧
    answered (.debugHalt (frame 0x10 0 0)) { debugging true false with islands := [] } = 0x0400000000 := by decide +kernel

theorem test_debugResume : (after (.debugResume (frame 0x11 0 0)) (debugging true true)).ci.halted = false := by decide +kernel

/-- Halted cores at the start of TCSRAM, which holds the words `l`, four bytes each, the lowest first. -/
def coresAt (l : List Nat) : Chip :=
  { debugging true true with
    ci := { halted := true, pc := 0x10000000, regs := (List.range 31).map fun i => BitVec.ofNat 32 i
            tcsram := ((l.flatMap (le 4)).zipIdx.map fun x => (x.2, x.1)).filter fun x => x.2 ≠ 0 } }

/-- The cores' registers 1 to 4 and program counter after one step. -/
def cores (c : Chip) : List Nat :=
  let d := after (.debugSingleStep (frame 0x12 0 0)) c
  [d.xreg 1, d.xreg 2, d.xreg 3, d.xreg 4, d.ci.pc].map BitVec.toNat

/-- addi x1, x4, -1; then c.li x2, -1; bne x1, x2, +16; lui x3, 0x12345; mulh x4, x1, x2. -/
theorem test_debugSingleStep :
    cores (coresAt [0xFFF20093]) = [2, 1, 2, 3, 0x10000004] ∧ cores (coresAt [0x0000517D]) = [0, 0xFFFFFFFF, 2, 3, 0x10000002] ∧
    cores (coresAt [0x00209863]) = [0, 1, 2, 3, 0x10000010] ∧ cores (coresAt [0x123451B7]) = [0, 1, 0x12345000, 3, 0x10000004] ∧
    cores (coresAt [0x02209233]) = [0, 1, 2, 0, 0x10000004] := by decide +kernel

/-- lw x2, 0(x5) with x5 in TCSRAM reads what stands there; sw x2, 0(x5) stores it; a load outside the map is refused and leaves the registers. -/
theorem test_debugSingleStep_memory :
    (let c := { coresAt [0x0002A103] with ci := { (coresAt [0x0002A103]).ci with regs := (coresAt []).ci.regs.set 4 0x10000000 } }
     (after (.debugSingleStep (frame 0x12 0 0)) c).xreg 2 = 0x0002A103) ∧
    (let c := { coresAt [0x0022A023] with ci := { (coresAt [0x0022A023]).ci with regs := (coresAt []).ci.regs.set 4 0x10000010 } }
     SMap.get (after (.debugSingleStep (frame 0x12 0 0)) c).ci.tcsram 0 0x10 = 1) ∧
    (let c := { coresAt [0x0002A103] with ci := { (coresAt [0x0002A103]).ci with regs := (coresAt []).ci.regs.set 4 0x50000000 } }
     (after (.debugSingleStep (frame 0x12 0 0)) c).ci.regs = c.ci.regs) := by decide +kernel

/-- A fetch outside the map, and a step of running cores. -/
theorem test_debugSingleStep_refused :
    (let c := { coresAt [] with ci := { (coresAt []).ci with pc := 0x30000000 } }
     (after (.debugSingleStep (frame 0x12 0 0)) c).ci.regs = c.ci.regs ∧ c.coreForbidden (c.corePart 0x30000000) .execute 0x30000000 2 = some 0x30000000) ∧
    answered (.debugSingleStep (frame 0x12 0 0)) (debugging true false) = 0x0400000000 := by decide +kernel

theorem test_debugReadRegister :
    answered (.debugReadRegister (frame 0x22 31 0)) (debugging true true) = 30 ∧ answered (.debugReadRegister (frame 0x22 32 0)) (debugging true true) = 0x20 ∧
    answered (.debugReadRegister (frame 0x22 33 0)) (debugging true true) = 0x0200000000 ∧
    answered (.debugReadRegister (frame 0x22 1 0)) (debugging true false) = 0x0400000000 := by decide +kernel

theorem test_debugWriteRegister :
    (after (.debugWriteRegister (frame 0x23 1 9)) (debugging true true)).ci.regs.head? = some 9 ∧
    (after (.debugWriteRegister (frame 0x23 32 9)) (debugging true true)).ci.pc = 9 ∧
    (after (.debugWriteRegister (frame 0x23 0 9)) (debugging true true)).ci.regs.head? = some 0 := by decide +kernel

theorem test_debugReadWord :
    answered (.debugReadWord (frame 0x20 0x10000000 0)) ((debugging true true).modCi fun c => { c with tcsram := [(1, 0x22), (3, 0x44)] }) = 0x44002200 ∧
    answered (.debugReadWord (frame 0x20 0x0FFFFFFE 0)) (debugging true true) = 0x0200000000 := by decide +kernel

theorem test_debugWriteWord :
    SMap.get (after (.debugWriteWord (frame 0x21 0x1007FFFC 0x04030201)) (debugging true true)).ci.tcsram 0 0x7FFFF = 4 ∧
    answered (.debugWriteWord (frame 0x21 0x40104000 0)) (debugging true true) = 0x0200000000 := by decide +kernel

theorem test_debugChipReset : (after (.debugChipReset (frame 0x30 0 0)) (debugging true true)).power.causes = 0x800 := by decide +kernel

theorem test_lifeCycleTransition_cut :
    let i : Instr := .lifeCycleTransition port 7 1 0 (List.replicate 16 0) [] ⟨[], some 1⟩
    (after i (inState .wafer)).fuse 2 = 0 ∧ (after i (inState .wafer)).clk.ticks = 0 := by decide +kernel

/-! ## Owners and keys -/

/-- The base point of P-256. -/
def pointG : Bytes := be 32 p256.gx ++ be 32 p256.gy

/-- Twice the base point. -/
def point2G : Bytes :=
  be 32 0x7cf27b188d034f7e8a52380304b51ac3c08969e277f21b35a60b48fc47669978 ++
    be 32 0x7775510db8ed040293d9ac69f7430dbba7dade63ce982299e04b79d227873d1

/-- An exportable AES key of owner 1 that may encrypt, decrypt and derive. -/
def aesKey : Key := { owner := 1, type := 2, flags := 1, usage := 0x0013, limit := 100, material := List.replicate 32 0 }

/-- An exportable AES-128 key of owner 1 that may encrypt. -/
def shortKey : Key := { owner := 1, type := 1, flags := 1, usage := 0x0001, material := List.replicate 16 0 }

/-- A key-encryption key of owner 1. -/
def kek : Key := { owner := 1, type := 2, usage := 0x0100, reserved := 256, material := List.replicate 32 1 }

/-- `shortKey` for slot 5 in an envelope under `kek`. -/
def envelope : Bytes :=
  be 36 0x4557454e0101010100010018000000000000000000050000000000000000000000000000 ++ be 24 0xeff614a3128c150380910ec5ec340d2986cdb0518d9211c5 ++ be 16 0xff5d1df1724beb5b9513c4f46a235751

/-- An operation of code 0x01 with two authorisations. -/
def opImport : AuthOp :=
  { nonce := List.replicate 16 0, owner := 1, rest := be 2 5 ++ be 2 9 ++ envelope
    auths := [1, 1, 0, 0] ++ be 32 0x63c1378e43bf89a785dec271fe3ec27fff6bc612cf4f94c37c69aeb07ff9caf7 ++
        be 32 0x7695bd2f16952de2d74a40d0aa14eb7fe970eaead222666d7ab67dd129745018 ++
      [1, 1, 1, 0] ++ be 32 0xedff5c89854ebc1ee80e4a56920469d48c535ecbe2c21317b4934931171f1e9f ++
        be 32 0xf9ffc98281c4e9604d5a18c78601789c020b1c0d1050700b34024a3d054c786b }

/-- The custodians who signed it. -/
def keysImport : SMap Bytes :=
  [(0, be 32 0x6a43481fbf8fb16ae1e1e6d713950620ae127c7217201739204d9e0ffa4b1a9c ++
      be 32 0xb92f66e2a3ad9dd460ef4d56e79f49ec7bdb8173d6454bc3546cb139b599941b), (1, be 32 0x77fa6a7e7ce88954c9db5b62c58643b45959e0b55784154ce622cf0c2da60630 ++
      be 32 0x5730ea2add2b7dc420f1fa6b3c484ca129a8e6a68972b2a5281a91890d612681)]

/-- An operation of code 0x02 with two authorisations. -/
def opExport : AuthOp :=
  { nonce := List.replicate 16 0, owner := 1, rest := be 2 5 ++ [2] ++ be 2 0xFFFF ++ pointG
    auths := [1, 1, 0, 0] ++ be 32 0x7bb09e71769407bf58cfc40a0af5062ed01a5439340871346381d2a98c0b997f ++
        be 32 0x293adf7b2786ad3fc8454158ae51acba455e1c13115825bc212b46388403ddd5 ++
      [1, 1, 1, 0] ++ be 32 0x927b4e59d94c9c0135cf8de89de42f9c2f326627ec778f88e94a1f684493fcbf ++
        be 32 0x86291a1d9dc43400bc9a84a2df4c0fdea408759c86850f59f456a363c05260b0 }

/-- The custodians who signed it. -/
def keysExport : SMap Bytes :=
  [(0, be 32 0xec4fb324f0ee9db84475f895a7e56de450e51e45324ac31c185b1b72c191a849 ++
      be 32 0x341999f8fc0b101999cf942855a0f51b9e86e29b3e308e8e71fad509a5966c48), (1, be 32 0x1eff4dbb3609b2a03b45c312e071a27d67f48b9da7d69d3967386ac013a2086 ++
      be 32 0x43679dcf13e9fdb1638639922677d759e0c4fbf9caba2528a559a28ed6d68dc1)]

/-- An operation of code 0x03 with two authorisations. -/
def opDestroy : AuthOp :=
  { nonce := List.replicate 16 0, owner := 1, rest := be 2 5
    auths := [1, 1, 0, 0] ++ be 32 0xaf71a584daa66fddcfce99fcbd95fb72750093340a74469a46211017f358cb23 ++
        be 32 0xaf71a584daa66fddcfce99fcbd95fb72750093340a74469a46211017f358cb23 ++
      [1, 1, 1, 0] ++ be 32 0xb2ce42a96db4760418bc1172cb5c0fe045074a623095df5ea05c47fe12c8a1d9 ++
        be 32 0xb2ce42a96db4760418bc1172cb5c0fe045074a623095df5ea05c47fe12c8a1d9 }

/-- The custodians who signed it. -/
def keysDestroy : SMap Bytes :=
  [(0, be 32 0x78421e3e06a3d5a5df3e54cc3080888cc436f4acc697bef7f5511cd8b6fc12da ++
      be 32 0xf1335ea23a098273ec1e2d8a6ae3b07934db1101e9d7002933d359d5fd808913), (1, be 32 0x467306d310070f1fd87068fad6ce6f2d68261bc5ce7fc60f14280cf776784720 ++
      be 32 0xaf343343d5751ba39f23414dbe6a9efbf5b756f7c3607a4968e374d3d66bc3d9)]

/-- An operation of code 0x04 with two authorisations. -/
def opChange : AuthOp :=
  { nonce := List.replicate 16 0, owner := 1, rest := be 2 5 ++ [0] ++ be 2 1 ++ [0] ++ be 4 9 ++ be 4 0
    auths := [1, 1, 0, 0] ++ be 32 0x5fc292323c70213d1734045049f8591bc12d420a20c2d301abf13ed4c792c461 ++
        be 32 0x1feb8610bed00b145d1156c56dfd730940646b58b5964655e3fb14f197db96cb ++
      [1, 1, 1, 0] ++ be 32 0xc063611371848a33645b2bbf1686c15d3daf048e975edbaa0dad51170d3af36 ++
        be 32 0x6031b089b8c24519b22d95df8b4360ae9ed782474baf6dd506d6a88b869d79b }

/-- The custodians who signed it. -/
def keysChange : SMap Bytes :=
  [(0, be 32 0x4e35d1f566e3da89f9a660b0dd1ff4dfb119c6dc26428c634eecd5436a187dca ++
      be 32 0xd16013b1a80cb875cfdd756d0fdc31ae4d0cdf7ad2ffcb22b3974c0c02bb5307), (1, be 32 0xb260d9d6dfedf0b2c44ded8bf108ad3b99db160812fe592f7dc4284b1bb631c7 ++
      be 32 0x4b44b42542b0a185d319b41ed03a2c463d29ff686f445eeeac5473756e598d6d)]

/-- An operation of code 0x10 with two authorisations. -/
def opCreate : AuthOp :=
  { nonce := List.replicate 16 0, owner := 2, rest := be 2 7 ++ be 16 0 ++ [2] ++ pointG ++ point2G
    auths := [1, 0, 0, 0] ++ be 32 0xabf32722adb818f78a4b4cbb5b51029ba28ab261f7afb62026a5f9dbf4a0b421 ++
        be 32 0xd5f99390d6dc0c7c4525a65dada8814dafb8d687cf63aa528d2fe24f7881ecb9 ++
      [1, 0, 1, 0] ++ be 32 0x368d3f699315180c9e497147466ca83e77d0c6e2b2f9bcbeb4f1267db03fa2ad ++
        be 32 0x368d3f699315180c9e497147466ca83e77d0c6e2b2f9bcbeb4f1267db03fa2ad }

/-- The custodians who signed it. -/
def keysCreate : SMap Bytes :=
  [(0, be 32 0xdc106d3e95fe6eb9da7458df12152d675980784b22d4e79b180cafe56f6ca88f ++
      be 32 0x4e92c87b2911f19751c461b69425d893691fa4069df0f62bc389e6e742f47fff), (1, be 32 0x7b9ec293bed32d35773b5c6b6cb367ebb9ead4ea2b7a7b781921534dbcc9380e ++
      be 32 0xf8ac8b2856940014b65d0e477049dd0f3697acf4859dcc281a057433b4ec831a)]

/-- An operation of code 0x11 with two authorisations. -/
def opDelete : AuthOp :=
  { nonce := List.replicate 16 0, owner := 2, rest := []
    auths := [1, 0, 0, 0] ++ be 32 0x703dbb470c016cf1d672e55f5a4da2168cbc6c0759fa0b961172145d07cf5ec ++
        be 32 0x703dbb470c016cf1d672e55f5a4da2168cbc6c0759fa0b961172145d07cf5ec ++
      [1, 0, 1, 0] ++ be 32 0xeadd96ddae3e55da2b1226557585ef23ee01b79b8bb85095636fbabf99cf9d7c ++
        be 32 0xa39f32498f6a1c9e63b0b771d1d74fb68e4d90c310effa5e1d0dd72b876640ef }

/-- The custodians who signed it. -/
def keysDelete : SMap Bytes :=
  [(0, be 32 0xe44924b659d45cc63fe3580e48b583a50a5b5344703d163b0a53e3a5e64c8dd8 ++
      be 32 0x702d43824f4eef0260aa6148ab097fd361baa6678af349cb3caf420a45d4f54a), (1, be 32 0xed3f215811caffe10f956c4b0e70dffa1ee5e6720e401776436d910243accf37 ++
      be 32 0x913dc2fa7cff09aa5704c4459ce76ea61c16c90f5620b016b0a8149e517a3a48)]

/-- An operation of code 0x12 with two authorisations. -/
def opAdd : AuthOp :=
  { nonce := List.replicate 16 0, owner := 1, rest := pointG
    auths := [1, 1, 0, 0] ++ be 32 0x6231f11a5343255b4b7b797bd35b0848089bfa433b8fff0e6242cc2622815614 ++
        be 32 0x6231f11a5343255b4b7b797bd35b0848089bfa433b8fff0e6242cc2622815614 ++
      [1, 1, 1, 0] ++ be 32 0xe908353655baff87a719c5129af3c9bc75b61b510a879b34318ad67e556458f ++
        be 32 0x874841a932add7fcbd38ce2894d79e4dc2212e315be00c1c1b693c1570dcb570 }

/-- The custodians who signed it. -/
def keysAdd : SMap Bytes :=
  [(0, be 32 0x7bb94bcfe966ad7405279db1ddd7471ed42530555942930ae1e24f22db8be31 ++
      be 32 0x7a632dcc9b2caf7b6571fb568441907060a32ad261427756a376a8d91dac820c), (1, be 32 0x8095884faaa9a0bbed69483200b1ba4c2694b6a0aeb2fbe01638091c41dc3363 ++
      be 32 0x1ed11c641f147aebd38670152d43a510c65de77548c33ba82bacdf22c2477b47)]

/-- An operation of code 0x13 with two authorisations. -/
def opRemove : AuthOp :=
  { nonce := List.replicate 16 0, owner := 1, rest := [2]
    auths := [1, 1, 0, 0] ++ be 32 0x9bfbe5f0ba586be949ff592b906579f07e02b717ae0a8168d6eccda23277b45 ++
        be 32 0x9bfbe5f0ba586be949ff592b906579f07e02b717ae0a8168d6eccda23277b45 ++
      [1, 1, 1, 0] ++ be 32 0x221de74ec3f6b7e11d1baf8fa08a7067fb8ff76fe87734921d306cb929c37654 ++
        be 32 0x88779d3b0fdadf84746ebe3e8229c19fee3fddbfa1dcd24874c1b2e4a70dd95 }

/-- The custodians who signed it. -/
def keysRemove : SMap Bytes :=
  [(0, be 32 0x1fc1adb7173279f2765ffceeceed900c0251a9c90a0281e633636b2718c9c924 ++
      be 32 0x7c0532b2a09adde39f1fef615edab9f5496457953f2062b964b6e6bd4d82d6a2), (1, be 32 0xc5dec24e08bdb4e0929f55e740d20d695b7b2a90cb819efa5e305f4c193ff836 ++
      be 32 0xc3fe5d7aefb0083f6ec870c78fff855320820547e19b777a707a5bd6a47643c8)]

/-- An operation of code 0x15 with two authorisations. -/
def opIntrusion : AuthOp :=
  { nonce := List.replicate 16 0, owner := 0, rest := [5, 1, 0, 3]
    auths := [1, 0, 0, 0] ++ be 32 0xe2f00f44925885317c7761ab0ff115e272a6189439a5b7863753e758f9649a8a ++
        be 32 0x717807a2492c4298be3bb0d587f88af139530c4a1cd2dbc31ba9f3ac7cb24d45 ++
      [1, 0, 1, 0] ++ be 32 0x9ac3ffd0fd25d3092fc413a4ade9990284f6d8a8cc0418643ec3ae0f3ed57029 ++
        be 32 0x855a665c9907909bd65a6a5422c851cd32f42934053d777c6e0b0d843e52588f }

/-- The custodians who signed it. -/
def keysIntrusion : SMap Bytes :=
  [(0, be 32 0xbe75b1825fe0a92317b06860a4f8b7c91d0b43df462cf3da4676ebcaa809ac37 ++
      be 32 0xc84b9ed80ae89fe00a888dc2da04d0824babe144c5723b57638950ac5d86f261), (1, be 32 0x30ed8dfcdcb635d1af4fa58df1eb7300356c298ac657feaa9a42c57170d754f6 ++
      be 32 0x5b2c488b23b1ab362eeaed9862c5ab6a552a830547b916b08359c3675eea8bc)]

/-- A device whose owner 1 has these custodians, with a key in slot 5 and a key-encryption key in slot 9. -/
def holding (slot5 : Bool) (keys0 keys1 : SMap Bytes) : Chip :=
  (({ up with boot := { freeBlocks := 100 } }).modSession 1 fun x => { x with opNonce := some (List.replicate 16 0, 4000000000) }).modKeys fun k => { k with
    slots := if slot5 then [(5, aesKey), (9, kek)] else [(9, kek)]
    owners := [(0, { active := true, keys := keys0 }), (1, { active := true, quota := 9, keys := keys1 })] }

/-- The operation reaches its own effect (R185). -/
def granted (code : Nat) (op : AuthOp) (c : Chip) : Bool :=
  through 0x4200 0x10 (authBytes code op) c fun r g =>
    let n := g.takeNonce r.dest op.nonce
    g.pairGate == 0 && (g.queueBusy (0x1F + r.dest.session)).isNone && n.1 && bodyOk code op.owner.toNat op.rest n.2 && op.auths.length == 136 &&
      n.2.checkAuths (authOwner code op.owner.toNat) (opDigest n.2 op.nonce (be 1 code ++ be 1 op.owner.toNat ++ op.rest)) op.auths == 0

theorem test_importKey :
    granted 1 opImport (holding false [] keysImport) = true := by decide +kernel

/-- The wrapping key of the envelope. -/
def wrapKey : Bytes := be 32 0xe3741a8b35036ec945332d461372beaffb5ffbc5096352e0db17356c19a291c

/-- Its MAC key. -/
def macKey : Bytes := be 32 0x44e93fa48668b9b707ae334a0f42387fc4c481695a54e5bc6ab927b896ec43d8

theorem envelope_keys : envKeys kek.material envelope = (wrapKey, macKey) := by decide +kernel

theorem envelope_mac : cmac macKey (envelope.take 60) = envelope.drop 60 := by decide +kernel

theorem envelope_unwrap : kwUnwrap wrapKey (slice envelope 36 24) = some (List.replicate 16 0) := by decide +kernel

theorem test_importKey_envelope (s : Chip) : openEnvelope s 5 1 envelope kek = .inr shortKey := by
  have hb : baseKey (byteAt envelope 5) kek (slice envelope 36 64) = some kek.material := by decide +kernel
  have hm : envM envelope = 0 := by decide +kernel
  have hw : byteAt envelope 11 = 24 := by decide +kernel
  have ht : beNat (slice envelope 16 4) = 0 := by decide +kernel
  have hs : scalarOk (byteAt envelope 6) (List.replicate 16 0) = true := by decide +kernel
  have hu : usageAllowed 5 (byteAt envelope 6) (byteAt envelope 7) (beNat (slice envelope 8 2)) = true := by decide +kernel
  unfold openEnvelope
  simp only [hb, hm, hw, ht, Nat.add_zero, show (36 + 24 : Nat) = 60 from rfl, envelope_keys, envelope_mac, envelope_unwrap, hs, hu]
  simp [shortKey, Chip.expiryOf]
  decide +kernel

theorem test_exportKey :
    granted 2 opExport (holding true [] keysExport) = true ∧ p256.valid pointG = true ∧
    code (after (.exportKey port 7 opExport) (holding false [] keysExport)) = 0x3101 := by decide +kernel

theorem test_destroy :
    ((after (.destroy port 7 opDestroy) (holding true [] keysDestroy)).keys.slots.map Prod.fst) = [9] ∧
    code (after (.destroy port 7 opDestroy) ((holding true [] keysDestroy).modSq 3 fun x => { x with keyRefs := [5] })) = 3 := by decide +kernel

theorem test_changeAttributes :
    granted 4 opChange (holding true [] keysChange) = true ∧
    ((SMap.find? (after (.changeAttributes port 7 opChange) (holding true [] keysChange)).keys.slots 5).map fun k => (k.limit, k.usage)) = some (9, 1) := by
  decide +kernel

theorem test_createOwner :
    granted 0x10 opCreate (holding true keysCreate []) = true ∧
    ((after (.createOwner port 7 opCreate) (holding true keysCreate [])).owner 2).quota = 7 := by decide +kernel

theorem test_createOwner_first :
    ((after (.createOwner port 7 { opCreate with owner := 0, auths := [] }) (holding true [] [])).owner 0).active = true ∨
    code (after (.createOwner port 7 { opCreate with owner := 0, auths := [] }) (holding true [] [])) = 0x310E := by decide +kernel

theorem test_deleteOwner :
    granted 0x11 opDelete (holding true keysDelete []) = true ∧ code (after (.deleteOwner port 7 opDelete) (holding true keysDelete [])) = 0x310E := by decide +kernel

theorem test_addCustodian :
    ((after (.addCustodian port 7 opAdd) (holding true [] keysAdd)).owner 1).keys.length = 3 := by decide +kernel

theorem test_removeCustodian :
    ((after (.removeCustodian port 7 opRemove) (holding true [] (keysRemove ++ [(2, pointG)]))).owner 1).keys.length = 2 := by decide +kernel

theorem test_intrusionConfiguration :
    (after (.intrusionConfiguration port 7 opIntrusion) (holding true keysIntrusion [])).keys.loops = 5 ∧
    (after (.intrusionConfiguration port 7 opIntrusion) (holding true keysIntrusion [])).keys.response = 3 := by decide +kernel

theorem test_authorised_order :
    code (after (.destroy port 7 { opDestroy with auths := [] }) (holding true [] keysDestroy)) = 0xD ∧
    code (after (.destroy port 7 opDestroy) (holding true [] keysImport)) = 0x3109 ∧
    code (after (.destroy port 7 { opDestroy with nonce := List.replicate 16 1 }) (holding true [] keysDestroy)) = 0x310C := by decide +kernel

theorem test_operationNonceRead :
    ((after (.operationNonceRead port) up).host.sessions.map fun x => (x.2.opNonce.map fun n => (n.1.length, n.2))) = [some (16, 4000000000)] := by
  decide +kernel

/-- A key command for slot 6 of owner 1: AES-256, encryption, no expiry; a derivation is from slot 5 with no input. -/
def keyCmd : Bytes := [1, 6, 0, 2, 0, 1, 0, 0, 0, 0, 0, 0, 0, 0, 0, 0, 0]

theorem test_generate :
    commandForm (0x21 :: keyCmd) = 0 ∧ (holding true [] []).slotFree 6 1 false = 0 ∧ usageAllowed 6 2 0 1 = true ∧
    ((SMap.find? (after (.generate port 7 keyCmd) (holding true [] [])).keys.slots 6).map fun k => (k.type, k.owner, k.material.length)) = some (2, 1, 32) := by
  decide +kernel

theorem test_derive :
    commandForm (0x22 :: (keyCmd ++ [5, 0, 0])) = 0 ∧
    ((SMap.find? (after (.derive port 7 (keyCmd ++ [5, 0, 0])) (holding true [] [])).keys.slots 6).map fun k => k.material.length) = some 32 := by
  decide +kernel

/-- A device with a key in slot 5 that has expired, with an action. -/
def expiring (a : Byte) : Chip := (holding true [] []).modKeys fun k => { k with slots := [(5, { aesKey with expiry := some 9999999, action := a })] }

theorem test_keyExpiry :
    (expiring 1).us = 10000000 ∧ still (.keyExpiry 5) (expiring 0) = true ∧ ((after (.keyExpiry 5) (expiring 1)).keys.slots.map fun x => x.2.disabled) = [true] ∧
    (after (.keyExpiry 5) (expiring 2)).keys.slots = [] := by decide +kernel

theorem test_keyExpiry_armed :
    ((after (.keyExpiry 5) ((expiring 2).modSq 3 fun x => { x with keyRefs := [5] })).keys.slots.map fun x => x.2.destroyAtDisarm) = [true] := by decide +kernel

/-! ## Jobs and engines -/

/-- A device with a key for each class of opcode: AES in slot 5, HMAC in 6, signing in 7, agreement in 8. -/
def keyed : Chip := up.modKeys fun k => { k with slots := [
  (5, { owner := 1, type := 2, usage := 0x3F, reserved := 256, material := List.replicate 32 0 }),
  (6, { owner := 1, type := 3, usage := 0xC, reserved := 256, material := List.replicate 32 0 }),
  (7, { owner := 1, type := 5, usage := 0x40, reserved := 256, material := be 32 1 }),
  (8, { owner := 1, type := 7, flags := 1, usage := 0x80, reserved := 256, material := be 32 1 })] }

/-- A job record with inline input. -/
def job (slot : Word16) (params inline : Bytes) (n : Nat := inline.length) : JobReq :=
  { flags := 0, jobId := 3, slot := slot, inputLen := BitVec.ofNat 32 n, inputOffset := 0, outputOffset := 0, reserved := 0, params := params, inline := inline }

/-- The row is answered with success, and its job stands in the session's queue. -/
def queued (i : Instr) : Bool := code (after i keyed) == 0 && ((after i keyed).queue 0x20).entries.length == 1

/-- Sixteen bytes. -/
def z16 : Bytes := List.replicate 16 0

theorem test_aesCbcEncrypt : queued (.aesCbcEncrypt port 7 (job 5 z16 z16)) = true ∧ jobForm 1 (job 5 z16 z16) 2 = 0 ∧ keyed.jobKey 1 5 = 0 := by decide +kernel
theorem test_aesCbcDecrypt : queued (.aesCbcDecrypt port 7 (job 5 z16 z16)) = true := by decide +kernel
theorem test_aesCtr : queued (.aesCtr port 7 (job 5 z16 [1])) = true := by decide +kernel
theorem test_aesGcmEncrypt : queued (.aesGcmEncrypt port 7 (job 5 z16 [1])) = true := by decide +kernel
theorem test_aesGcmDecrypt : queued (.aesGcmDecrypt port 7 (job 5 (z16 ++ z16) [1])) = true := by decide +kernel
theorem test_aesCmacGenerate : queued (.aesCmacGenerate port 7 (job 5 [16] [1])) = true := by decide +kernel
theorem test_aesCmacVerify : queued (.aesCmacVerify port 7 (job 5 (4 :: List.replicate 4 0) [1])) = true := by decide +kernel
theorem test_hmacGenerate : queued (.hmacGenerate port 7 (job 6 [32] [1])) = true := by decide +kernel
theorem test_hmacVerify : queued (.hmacVerify port 7 (job 6 (16 :: z16) [1])) = true := by decide +kernel
theorem test_sha256 : queued (.sha256 port 7 (job 0xFFFF [] [1])) = true := by decide +kernel
theorem test_sha384 : queued (.sha384 port 7 (job 0xFFFF [] [])) = true := by decide +kernel
theorem test_ecdsaSign : queued (.ecdsaSign port 7 (job 7 [0] (z16 ++ z16))) = true := by decide +kernel
theorem test_ecdhP256 : queued (.ecdhP256 port 7 (job 8 (List.replicate 64 0) [])) = true := by decide +kernel
theorem test_randomBytes : queued (.randomBytes port 7 (job 0xFFFF [] [] 104)) = true := by decide +kernel
theorem test_ecdsaVerifyP256 : queued (.ecdsaVerifyP256 port 7 (job 0xFFFF (List.replicate 64 0) (List.replicate 96 0))) = true := by decide +kernel
theorem test_ecdsaVerifyP384 : queued (.ecdsaVerifyP384 port 7 (job 0xFFFF (List.replicate 96 0) (List.replicate 144 0))) = true := by decide +kernel
theorem test_rsaVerify :
    queued (.rsaVerify port 7 (job 0xFFFF (le 2 256 ++ [1, 1, 0, 0] ++ be 4 65537 ++ List.replicate 256 0xFF) (List.replicate 288 0))) = true := by decide +kernel

theorem test_submit_form :
    code (after (.sha256 port 7 (job 5 [] [1])) keyed) = 2 ∧ code (after (.aesCtr port 7 (job 5 [0] [1])) keyed) = 0x12 ∧
    code (after (.randomBytes port 7 (job 0xFFFF [] [] 105)) keyed) = 2 := by decide +kernel

theorem test_submit_key :
    code (after (.aesCtr port 7 (job 9 z16 [1])) keyed) = 0x3101 ∧ code (after (.ecdsaSign port 7 (job 8 [0] (z16 ++ z16))) keyed) = 0x3101 := by decide +kernel

/-- Queue 32 with jobs of AES. -/
def jobs (l : List JobEntry) : Chip := keyed.modCrypto fun c => { c with queues := [(0x20, { entries := l })], nextUid := 9 }

/-- A job of SHA-256 on the string "abc". -/
def shaJob : JobEntry := { uid := 1, id := 3, opcode := 0x0A, input := [0x61, 0x62, 0x63], inLen := 3 }

theorem test_submit_id : code (after (.sha256 port 7 (job 0xFFFF [] [1])) (jobs [shaJob])) = 0x3005 := by decide +kernel

theorem test_submit_full :
    code (after (.sha256 port 7 (job 0xFFFF [] [1])) (jobs ((List.range 8).map fun i => { shaJob with uid := i, id := 16 + i }))) = 1 := by decide +kernel

theorem test_engineDispatch :
    (((jobs [shaJob]).choose 1).map fun x => x.1) = some 0x20 ∧ (after (.engineDispatch (.sha 1)) (jobs [shaJob])).crypto.running = [(5, 1)] ∧
    still (.engineDispatch .drbg) (jobs [shaJob]) = true := by decide +kernel

/-- Engine SHA 0 runs a job. -/
def running (j : JobEntry) (e : Nat) : Chip := (jobs [{ j with phase := .running, startAt := some 4000000000 }]).modCrypto fun c => { c with running := [(e, j.uid)] }

/-- The output in the completion record of the first job. -/
def inlineOut (c : Chip) (n : Nat) : Nat := match (c.queue 0x20).entries with | e :: _ => beNat (slice e.record 24 n) | [] => 0

theorem test_jobComplete_sha256 :
    inlineOut (after (.jobComplete (.sha 0)) (running shaJob 4)) 32 = 0xba7816bf8f01cfea414140de5dae2223b00361a396177a9cb410ff61f20015ad ∧
    still (.jobComplete (.sha 1)) (running shaJob 4) = true := by decide +kernel

theorem test_jobComplete_sha384 :
    inlineOut (after (.jobComplete (.sha 0)) (running { shaJob with opcode := 0x0B } 4)) 48 =
      0xcb00753f45a35e8bb5a03d699ac65007272c32ab0eded1631a8b605a43ff5bed8086072ba1e7cc2358baeca134c825a7 := by decide +kernel

/-- The AES-128 key and the first block of NIST SP 800-38A. -/
def nistKey : Key := { type := 1, material := be 16 0x2b7e151628aed2a6abf7158809cf4f3c }

/-- A job of AES on the first block of NIST SP 800-38A. -/
def aesJob (op : Nat) (p : Bytes) : JobEntry := { uid := 1, id := 3, opcode := op, params := p, key := nistKey, input := be 16 0x6bc1bee22e409f96e93d7e117393172a, inLen := 16 }

theorem test_jobComplete_cbc :
    inlineOut (after (.jobComplete (.aes 0)) (running (aesJob 1 (be 16 0x000102030405060708090a0b0c0d0e0f)) 0)) 16 = 0x7649abac8119b246cee98e9b12e9197d := by
  decide +kernel

theorem test_jobComplete_ctr :
    inlineOut (after (.jobComplete (.aes 0)) (running (aesJob 3 (be 16 0xf0f1f2f3f4f5f6f7f8f9fafbfcfdfeff)) 0)) 16 = 0x874d6191b620e3261bef6864990db6ce := by
  decide +kernel

theorem test_jobComplete_cmac :
    inlineOut (after (.jobComplete (.aes 0)) (running (aesJob 6 [16]) 0)) 16 = 0x070a16b46b4d4144f79bdd9dd04a287c := by decide +kernel

theorem test_completionAcknowledge :
    ((after (.completionAcknowledge port 7 3) (jobs [{ shaJob with phase := .done }])).queue 0x20).entries.length = 0 ∧
    code (after (.completionAcknowledge port 7 3) (jobs [shaJob])) = 5 ∧ code (after (.completionAcknowledge port 7 4) (jobs [shaJob])) = 2 := by decide +kernel

/-- A long AES job runs in queue 33 while one of a higher priority waits. -/
def contending (ctx : List (Nat × Nat)) : Chip := keyed.modCrypto fun c => { c with
  contexts := ctx, running := [(0, 1), (1, 5), (2, 6), (3, 7)]
  queues := [(0x20, { entries := [{ uid := 2, opcode := 1, inLen := 16 }], priority := 7 }), (0x21, { entries := [{ uid := 1, opcode := 1, inLen := 4096, phase := .running }] })] }

theorem test_preemptionBoundary :
    opPreempts 1 = true ∧ (after (.preemptionBoundary (.aes 0) 64) (contending [])).crypto.contexts = [(0, 1)] ∧
    (after (.preemptionBoundary (.aes 0) 64) (contending [])).crypto.preemptions = 1 := by decide +kernel

theorem test_preemptionBoundary_declined :
    (after (.preemptionBoundary (.aes 0) 64) (contending ((List.range 24).map fun i => (i, 20 + i)))).crypto.declined = 1 := by decide +kernel

/-- The VI checks a signature. -/
def checkingSig : Chip := (jobs [{ shaJob with opcode := 0x10, phase := .checking, signature := [1, 2] }]).modCrypto fun c => { c with checking := some 1 }

theorem test_releaseVerdict :
    (after (.releaseVerdict true) checkingSig).crypto.released = 1 ∧ (after (.releaseVerdict true) checkingSig).crypto.sauFault = false ∧
    (after (.releaseVerdict false) checkingSig).crypto.withheld = 1 ∧ (after (.releaseVerdict false) checkingSig).crypto.sauFault = true := by decide +kernel

theorem test_viYieldPoint :
    let d := (running { shaJob with opcode := 0x20 } 8).modCrypto fun c => { c with checkWaits := some (7, 0) }
    (after (.viYieldPoint 100) d).crypto.viSuspended = [1] ∧ (after (.viYieldPoint 100) d).crypto.yields = 1 := by decide +kernel

/-! ## Entropy and intrusion -/

/-- The entropy source has failed, a second ago. -/
def failedSource : Chip := up.modCrypto fun c => { c with entropy := .failed, entropyAt := 3600000000 }

theorem test_entropyTestFailure :
    (after (.entropyTestFailure .startUp) ((up.modCrypto fun c => { c with entropy := .startUp }).putIsland 3 .loading)).crypto.entropy = .failed ∧
    up.crypto.entropy = .healthy ∧ up.island 3 = .running ∧ still (.entropyTestFailure .proportion) failedSource = true := by decide +kernel

theorem test_entropyRetest :
    failedSource.passedUs failedSource.crypto.entropyAt 1000000 = true ∧ (after (.entropyRetest true) failedSource).crypto.entropy = .healthy ∧
    (after (.entropyRetest false) failedSource).crypto.entropyAt = 4000000000 := by decide +kernel

theorem test_drbgReseed :
    (after .drbgReseed (up.modCrypto fun c => { c with drbgRequests := 1024 })).crypto.reseeds = 1 ∧ still .drbgReseed failedSource = true := by decide +kernel

theorem test_nonceReserveFill : (after .nonceReserveFill up).keys.reserve.length = 256 ∧ still .nonceReserveFill failedSource = true := by decide +kernel

theorem test_intrusionDetected :
    keyed.monitorActs = true ∧ keyed.tripping 8 = 8 ∧ (after (.intrusionDetected 8 700) keyed).keys.slots = [] ∧
    (after (.intrusionDetected 8 700) keyed).keys.arm = .deadIntrusion ∧ (after (.intrusionDetected 8 700) keyed).keys.zeroNs = 700 ∧
    (after (.intrusionDetected 4 700) (after (.intrusionDetected 8 700) keyed)).keys.cause = 12 := by decide +kernel

theorem test_intrusionDetected_none : keyed.tripping 0 = 0 ∧ still (.intrusionDetected 0 700) keyed = true := by decide +kernel

theorem test_sensorTripRecorded :
    let d := up.modKeys fun k => { k with response := 0 }
    (after (.sensorTripRecorded .clock) d).keys.cause = 0x40 := by decide +kernel

theorem test_tamperLoopMismatch :
    up.tampOut 2 = false ∧ (after (.tamperLoopMismatch ⟨2, true⟩) up).keys.mismatches = 4 ∧ (after (.tamperLoopMismatch ⟨2, true⟩) up).keys.arm = .armed ∧
    still (.tamperLoopMismatch ⟨2, false⟩) up = true := by decide +kernel

/-- An authorised debug session with a re-arm of nonce 0 in the buffer, no custodian registered. -/
def rearming : Chip := { keyed with
  life := { state := .provisioned, debugOn := true, debug := .authorised }
  keys := { keyed.keys with arm := .awaitingRearm, rearmOpen := true, rearmBuf := z16 ++ [2, 0, 0x14, 0] ++ List.replicate 492 0 } }

theorem test_reArm :
    rearming.rearmCode = 0 ∧ (after .reArm rearming).keys.arm = .armed ∧ (after .reArm rearming).keys.slots = [] ∧
    (after .reArm rearming).keys.rearmResult = 0x80000000 := by decide +kernel

theorem test_reArm_refused :
    (after .reArm (rearming.modKeys fun k => { k with arm := .armed })).keys.rearmResult = 0x80000005 ∧ still .reArm keyed = true := by decide +kernel

theorem test_preemptionBoundary_full :
    let d := contending ((List.range 32).map fun i => (i, 20 + i))
    (after (.preemptionBoundary (.aes 0) 64) d).crypto.declined = 1 ∧ (after (.preemptionBoundary (.aes 0) 64) d).crypto.running = d.crypto.running := by
  decide +kernel

/-! ## Tracking passes and sample ports -/

/-- The session has selected port 1, or unit 1. -/
def select1 (idx : Nat) (c : Chip) : Chip :=
  c.modHost fun h => { h with sessions := [(1, { level := .vendor, isSpi := true, serial := 1, selectors := [(256 * idx + 1, 1)] })] }

theorem test_tracking :
    up.trackDue = true ∧ up.arming = false ∧ (after .trackingPassStart up).segs.tracking = true ∧
    (after .trackingPassComplete (after .trackingPassStart up)).segs.trackDone = some 4000000000 ∧ (after (.tiTemperatureRead 251) up).segs.tiTemp = 251 := by
  decide +kernel

theorem test_samplePortEnable :
    through 0x3600 2 [1] (select1 0x3600 up) (fun r d => d.sel r.dest.session 0x3600 1 == 1 && !d.portLocked 1) = true ∧
    ((after (.samplePortEnable port 7) (select1 0x3600 up)).lane 4).mode = 3 ∧ ((after (.samplePortEnable port 7) (select1 0x3600 up)).port 1).enable = 1 ∧
    code (after (.samplePortEnable port 7) ((select1 0x3600 up).modLane 7 fun l => { l with owner := 3 })) = 5 := by decide +kernel

theorem test_samplePortDisable :
    let d := after (.samplePortDisable port 8) (after (.samplePortEnable port 7) (select1 0x3600 up))
    code d = 0 ∧ (d.port 1).enable = 0 ∧ (d.lane 4).mode = 0 ∧
    code (after (.samplePortDisable port 7) ((select1 0x3600 armed2).modPort 1 fun p => { p with seq := 2 })) = 3 := by decide +kernel

theorem test_ncoApply :
    through 0x3600 0x11 [1] up (fun _ _ => true) = true ∧ through 0x3600 0x11 [5] up (fun _ _ => true) = true ∧
    (((after (.ncoApplyNow port 7) up).port 0).apply.map fun a => a.due) = some (100 * 256000000 + 2560000) ∧
    (((after (.ncoApplyAtMarker port 7 3) up).port 0).apply.map fun a => a.marker) = some (some 3) := by decide +kernel

theorem test_ncoPhaseReset :
    through 0x3600 0x13 [1] up (fun _ _ => true) = true ∧ ((after (.ncoPhaseReset port 7) up).port 0).resets = [100 * 256000000 + 2560000] := by decide +kernel

theorem test_portFrame :
    let d := armed2.modPort 1 fun p => { p with sending := true, seq := 2, source := 1, acc := 0xC0000000, word := 0x40000001 }
    ((after (.portFrame 1 0x2AA) d).port 1).sent = 1 ∧ ((after (.portFrame 1 0x2AA) d).port 1).acc = 1 ∧ ((after (.portFrame 1 0x2AA) d).port 1).out = -511 ∧
    ((after (.portFrame 1 0x2AA) d).port 1).last = 170 ∧ still (.portFrame 0 0) d = true := by decide +kernel

/-! ## Acquisition -/

theorem test_decimation_raises : 8192 * 3 < (List.replicate 6145 ({} : StagedRec)).length * 4 := by
  rw [List.length_replicate]; omega

theorem test_decimation :
    (after .decimationLower (up.modAcq fun a => { a with decimation := 3 })).acq.decimation = 2 ∧ still .decimationRaise up = true ∧ still .decimationLower up = true := by
  decide +kernel

/-- Unit 2 takes triggers from the router. -/
def triggered (st : UnitState) : Chip :=
  ((seqOf [.halt]).modUnit 2 fun u => { u with sources := 1, trigSource := 5, state := st, buffer := le 4 0 ++ le 4 0 ++ le 4 64 ++ le 4 0 }).modRouter fun r => { r with routes := [(0x42, 1)] }

theorem test_aqTriggerIn :
    (triggered .ready).inWindow 2 (triggered .ready).nowFine = true ∧ (triggered .ready).routed 0x42 = true ∧
    ((after (.aqTriggerIn 2) (triggered .ready)).unit 2).state = .capturing ∧ ((after (.aqTriggerIn 2) (triggered .ready)).unit 2).postLeft = 1024 ∧
    ((after (.aqTriggerIn 2) (triggered .complete)).unit 2).missed = 1 ∧ still (.aqTriggerIn 3) (triggered .ready) = true := by decide +kernel

theorem test_readPointerWrite :
    let d := (select1 0x3800 up).modUnit 1 fun u => { u with wptr := 9, rptr := 4 }
    through 0x3800 0x0D (le 8 9) d (fun r d => d.sel r.dest.session 0x3800 1 == 1) = true ∧
    ((after (.readPointerWrite port 7 9) d).unit 1).rptr = 9 ∧ code (after (.readPointerWrite port 7 10) d) = 0x7006 ∧
    code (after (.readPointerWrite port 7 3) d) = 0x7006 := by decide +kernel

/-- The timer of site 0 runs, its limit 10 ns, slow cards rejected. -/
def timed : Chip :=
  ((seqOf [.halt]).modUnit 2 fun u => { u with respCfg := [0, 0, 2, 1, 10, 0, 0, 0] }).modSiteAq 0 fun a => { a with timing := true, verdict := .pending }

theorem test_responseEdge :
    (timed.siteLanes 2 0)[(timed.unit 2).respLane]? = some 0 ∧ ((after (.responseEdge 0 true ⟨1000, 0⟩) timed).siteAq 0).verdict = .inTime ∧
    ((after (.responseEdge 0 true ⟨1000, 0⟩) timed).siteAq 0).respTime = 10 ∧ ((after (.responseEdge 0 true ⟨1001, 0⟩) timed).siteAq 0).verdict = .slow := by
  decide +kernel

theorem test_responseLimitExpiry :
    timed.seqOfSite 0 = some 2 ∧ ((after (.responseLimitExpiry 0) timed).siteAq 0).flag = true ∧ still (.responseLimitExpiry 1) timed = true := by decide +kernel

/-! ## Sealed fields -/

/-- Site 0 waits for its field of recipe 6: an 8-byte value derived for a UID of 4 bytes from slot 9. -/
def fielded (f : SiteSeal → SiteSeal := id) : Chip :=
  { (((seqOf [.sfw 6, .halt] fun x => { x with state := .waiting, sealedCfg := { x.sealedCfg with recipe := 6, windowOpen := true } }).modSeal 0
      fun y => f { y with waiting := true }).modSealed fun x => { x with recipes := [(6, [1, 1, 9, 0, 0, 0, 4, 0, 8])] }) with
    keys := { slots := [(9, { owner := 1, type := 2, usage := 0x0020, reserved := 256, material := List.replicate 32 1 })] } }

theorem test_fieldRequestAccept :
    let d := fielded fun y => { y with uid := some [1, 2, 3, 4] }
    d.masterOk 1 9 = true ∧ (d.countUse 9).2 = 0 ∧ ((after (.fieldRequestAccept 0) d).seal 0).job = some d.crypto.nextUid ∧
    ((after (.fieldRequestAccept 0) d).seal 0).uid = none := by decide +kernel

theorem test_fieldRequestAccept_fails :
    let d := fielded fun y => { y with uid := some [1, 2, 3, 4] }
    ((after (.fieldRequestAccept 0) (fielded fun y => { y with uid := some [1, 2, 3] })).seal 0).cause = 2 ∧
    ((after (.fieldRequestAccept 0) (fielded fun y => { y with uidRefused := true })).seal 0).cause = 3 ∧
    ((after (.fieldRequestAccept 0) { d with keys := {} }).seal 0).cause = 5 ∧
    ((after (.fieldRequestAccept 0) { d with islands := d.islands.set 3 .dead }).seal 0).cause = 6 := by decide +kernel

theorem test_fieldWordsSent : ((after (.fieldWordsSent 0) (fielded fun y => { y with derived := true, value := [1, 2] })).seal 0).sent = true := by decide +kernel

theorem test_fieldWordArrival :
    let d := fielded fun y => { y with sent := true, value := [1, 2] }
    (d.sq 2).sealedCfg.window = 20 ∧ ((after (.fieldWordArrival 0 20000) (d.modSq 2 fun x => { x with sealedCfg := { x.sealedCfg with windowOpen := false } })).seal 0).sent = false := by
  decide +kernel

theorem test_latencyWindowClose :
    (fielded.sq 2).livingSites = [0] ∧ ((after (.latencyWindowClose 2) fielded).seal 0).cause = 1 ∧ still (.latencyWindowClose 3) fielded = true := by decide +kernel

theorem test_sealedBufferClear :
    ((after (.sealedBufferClear 0) (fielded fun y => { y with buffer := [7], pos := 8 })).seal 0).buffer = [] := by decide +kernel

theorem test_responseEdge_filtered :
    let d := timed.modLane 0 fun l => { l with filter := 2 }
    d.passes 0 2999 = false ∧ d.passes 0 6001 = true ∧ still (.responseEdge 0 true ⟨1000, 2999⟩) d = true := by decide +kernel

/-! ## The DRAM controller -/

/-- Both channels serve, 8 GiB. -/
def served : Chip := seqOf [.halt]

/-- The MI awaits its delays. -/
def untrained : Chip := { up with islands := up.islands.set 8 .loading }

theorem test_beginTraining :
    through 0x4800 9 [1] untrained (fun _ d => d.dram.channels.all DramCh.delaysOk) = true ∧ (after (.beginTraining port 7) untrained).dram.mode = .training ∧
    code (after (.beginTraining port 7) served) = 5 ∧
    code (after (.beginTraining port 7) (untrained.modDramCh 1 fun d => { d with caOffset := 128 })) = 2 := by decide +kernel

/-- A training result of the default fixed delays. -/
def trained : TrainResult := { passed := true, gib := 4, ranks := 2, values := [32, 64, 64, 384, 384] }

theorem test_trainingComplete :
    let d := after (.beginTraining port 7) untrained
    (d.dramCh 0).trainOk trained = true ∧ (after (.trainingComplete trained trained) d).dram.mode = .initialising ∧
    (after (.trainingComplete trained { trained with gib := 2 }) d).dram.lastFault = [1, 4] := by decide +kernel

theorem test_dramInitComplete :
    let d := served.modDram fun d => { d with mode := .initialising, bytes := [(5, 7)] }
    (after .dramInitComplete d).dram.mode = .twoChannels ∧ (after .dramInitComplete d).dram.bytes = [] ∧ still .dramInitComplete served = true := by decide +kernel

theorem test_channelFault :
    served.faultHolds 0 .phyLock = true ∧ served.otherServes 0 = true ∧ (after (.channelFault 0 .phyLock) served).dram.retiring = some 0 ∧
    (after (.channelFault 0 .phyLock) served).dram.lastFault = [0, 3] ∧ still (.channelFault 0 .training) served = true := by decide +kernel

theorem test_channelRetire :
    through 0x4800 8 [1] served (fun _ _ => true) = true ∧ (after (.channelRetire port 7 1) served).dram.inService = 1 ∧
    code (after (.channelRetire port 7 1) (served.modDramCh 1 fun d => { d with state := .retired })) = 0x8004 := by decide +kernel

theorem test_admittedShareWrite :
    let d := served.modSq 2 fun x => { x with playback := 20000000 }
    through 0x4900 5 (le 4 200001) served (fun _ d => (d.overBudget 200001 d.dram.ciShare d.dram.rowHammer (d.seqCharges 16)).isSome == false) (fun _ _ => shareOk .secure 200001) = true ∧
    (after (.admittedShareWrite port 7 .secure 200001) served).dram.siShare = 200001 ∧
    (d.overBudget 200001 d.dram.ciShare d.dram.rowHammer (d.seqCharges 16)).isSome = true ∧
    code (after (.admittedShareWrite port 7 .secure 200001) d) = 0x8001 := by decide +kernel

/-- A request of its class. -/
def burst (cls : ReqClass) : DramReq := { cls := cls, owner := 2, seg := 5, addr := 128, len := 64 }

/-- Channel 0 with a queue, and requests on their way. -/
def requests (q f : List DramReq) : Chip := served.modDramCh 0 fun d => { d with queue := q, inFlight := f, ranks := 1 }

theorem test_dramRequestGrant :
    ((after (.dramRequestGrant 0) (requests [burst .playback] [])).dramCh 0).inFlight = [burst .playback] ∧
    still (.dramRequestGrant 0) ((requests [burst .playback] []).modDramCh 0 fun d => { d with state := .off }) = true := by decide +kernel

theorem test_dramRequestGrant_write :
    (after (.dramRequestGrant 0) (requests [{ burst .conductor with write := true, data := List.replicate 64 9 }] [])).dram.bytes.get 0 191 = 9 := by
  decide +kernel

theorem test_dramReadReturn :
    ((after (.dramReadReturn 0 false false 0) (requests [] [burst .playback])).sq 2).ring = [{ seg := 5, bytes := 64 }] ∧
    ((after (.dramReadReturn 0 true false 0) (requests [] [burst .playback])).sq 2).ring = [{ seg := 5, bytes := 64, bad := true }] ∧
    ((after (.dramReadReturn 0 true false 3) (requests [] [burst .playback])).dramCh 0).lastBad = 128 ∧
    still (.dramReadReturn 0 false false 0) served = true := by decide +kernel

theorem test_rowIdleClose :
    (((after (.rowIdleClose 0 0 3) ((requests [] []).modDramCh 0 fun d => d.modBank 0 3 fun b => { b with openRow := some 9 })).dramCh 0).bank 0 3).openRow = none := by
  decide +kernel

theorem test_refresh :
    ((after (.refreshDue 0 0) (requests [] [])).dramCh 0).roundDone.get 0 0 = 1 ∧
    ((after (.refreshPostponeLimit 0 0) ((requests [] []).modDramCh 0 fun d => { d with postponed := [(0, 8)] })).dramCh 0).postponed.get 0 0 = 7 ∧
    ((after (.refreshPostponeLimit 0 0) ((requests [] []).modDramCh 0 fun d => { d with postponed := [(0, 8)] })).dramCh 0).forced = 1 := by decide +kernel

theorem test_mr4Read :
    ((after (.mr4Read 0 0 4 false) (requests [] [])).dramCh 0).multiplier = 4 ∧ ((after (.mr4Read 0 0 4 false) (requests [] [])).dramCh 0).hot = true := by
  decide +kernel

theorem test_activationTableClear :
    (((after .activationTableClear ((requests [] []).modDramCh 0 fun d => d.modBank 0 3 fun b => { b with rows := [⟨4, 9⟩] })).dramCh 0).bank 0 3).rows = [] ∧
    still (.periodicZqCalibration 1) served = true := by decide +kernel

/-! ## Level outputs -/

/-- The session has selected channel 1. -/
def level1 (f : LvCh → LvCh := id) : Chip := (select1 0x3900 up).modLv 1 f

/-- The pin holds a clear. -/
def clearing : Chip := up.modLevels fun l => { l with pinClear := true }

theorem test_levelStagedWrite :
    through 0x3900 2 (le 2 0x1234) (level1 fun c => { c with loadMode := 0 }) (fun _ _ => true) (fun _ _ => if stagedOk .code 0x1234 then 0 else 2) = true ∧
    ((after (.levelStagedWrite port 7 .code 0x1234) (level1 fun c => { c with loadMode := 0 })).lv 1).staged.code = 0x1234 ∧
    ((after (.levelStagedWrite port 7 .code 0x1234) (level1 fun c => { c with loadMode := 0 })).lv 1).loadAt = some 4000000008 ∧
    code (after (.levelStagedWrite port 7 .amplitude 32769) level1) = 2 := by decide +kernel

theorem test_loadStrobes :
    (after (.lvlLoadNFall 200) up).levels.strobe = true ∧ still (.lvlLoadNFall 49) up = true ∧ still (.lvlLoadNFall 200) clearing = true ∧
    (after (.loadStrobeCommand port 7) up).levels.strobe = true ∧ code (after (.loadStrobeCommand port 7) clearing) = 0x9001 := by decide +kernel

theorem test_lvLoadEvent :
    (after .lvLoadEvent (up.modRouter fun r => { r with routes := [(0x58, 1)] })).levels.strobe = true ∧ still .lvLoadEvent up = true := by decide +kernel

theorem test_lvClears :
    (after (.lvlClrNAssert 200) up).levels.pinClear = true ∧ still (.lvlClrNAssert 49) up = true ∧ (after .lvlClrNRelease clearing).levels.pinClear = false ∧
    (after (.lvClearEvent true) (up.modRouter fun r => { r with routes := [(0x59, 1)] })).levels.eventClear = true ∧ still (.lvClearEvent true) up = true ∧ (after (.clearAll port 7) up).levels.clearSeen = true := by decide +kernel

theorem test_pwmFrame :
    ((after .pwmFrame (clearing.modLv 1 fun c => { c with clearCode := 0x40A0, supply := 0 })).lv 1).h = 258 ∧
    ((after .pwmFrame (clearing.modLv 1 fun c => { c with clearCode := 0x40A0, supply := 0 })).lv 1).r = 32 ∧
    still .pwmFrame { up with islands := [] } = true := by decide +kernel

theorem test_shortLatch :
    ((after (.shortLatch 1) up).lv 1).short = true ∧ (after (.shortLatch 1) up).recorder.queue.length = 1 ∧
    ((after (.restoreChannel port 7) (level1 fun c => { c with short := true })).lv 1).restore = true ∧ code (after (.restoreChannel port 7) level1) = 0x9002 := by
  decide +kernel

theorem test_levelCalibration :
    ((after (.levelCalibrationPass [-70, 70, 5]) up).lv 0).calNext = -64 ∧ ((after (.levelCalibrationPass [-70, 70, 5]) up).lv 1).calNext = 63 ∧
    (after (.vddIo33Measure 3210) up).levels.mv = 3210 := by decide +kernel

/-! ## The router -/

theorem test_routeWrite :
    through 0x2700 2 [0x81] (select1 0x2700 up) (fun _ _ => true) = true ∧ (after (.routeWrite port 7 0x81) (select1 0x2700 up)).route 1 = 0x81 ∧
    code (after (.routeWrite port 7 0x81) ((select1 0x2700 up).modSq 0 fun x => { x with state := .armed })) = 3 := by decide +kernel

theorem test_routeTableWrite :
    (after (.routeTableWrite port 7 (List.replicate 96 0x83)) up).route 95 = 0x83 ∧ code (after (.routeTableWrite port 7 (List.replicate 96 0x83)) armed2) = 3 := by
  decide +kernel

theorem test_laneTapWrite :
    (after (.laneTapWrite port 7 1 63) up).router.taps = [0, 63] ∧ code (after (.laneTapWrite port 7 1 64) up) = 2 := by decide +kernel

theorem test_eviOrLaneTapChange :
    (after (.eviOrLaneTapChange (.evi 3) ⟨true, 14000⟩) up).router.evi = 8 ∧ still (.eviOrLaneTapChange (.evi 3) ⟨true, 9999⟩) up = true ∧
    ((after (.eviOrLaneTapChange (.laneTap 0) ⟨true, 0⟩) (up.modLane 0 id)).lane 0).input = true := by decide +kernel

theorem test_softwareEvent :
    (after (.softwareEventHigh port 7 1) up).router.software = 2 ∧ (after (.softwareEventPulse port 7 1) up).router.pulses.find? 1 = some 4000000040 ∧
    (after (.softwarePulseEnd 1) (after (.softwareEventPulse port 7 1) up)).router.software = 0 ∧
    (after (.softwareEventLow port 8 1) (after (.softwareEventPulse port 7 1) up)).router.pulses.find? 1 = none := by decide +kernel

theorem test_counters :
    let d := up.modRouter fun r => { r with routes := [(0x5C, 1)], counters := [(1, 0xFFFFFFFF)] }
    d.routed 0x5C = true ∧ (after (.counterEdge 1) d).router.counters.get 0 1 = 0xFFFFFFFF ∧ still (.counterEdge 2) d = true ∧
    (after (.counterClear port 7 1) d).router.counters.get 0 1 = 0 := by decide +kernel

theorem test_markEdge :
    let d := up.modRouter fun r => { r with routes := [(0x5F, 1)] }
    (after .markEdge d).router.lastMark = some 4000000000 ∧ (after .markEdge (after .markEdge d)).router.suppressed = 1 := by decide +kernel

/-! ## The cluster link -/

/-- A frame's bytes. -/
def ringFrame (type dst seq : Nat) (p : Bytes) (src : Nat := 1) (cluster : Nat := 0) : Bytes :=
  Frame.bytes { type := type, cluster := cluster, src := src, dst := dst, seq := seq, payload := p }

/-- A member of the cluster as its heartbeats describe it. -/
def peer : Member := { serial := 9, node := 4, priority := 0x80, life := 2, heard := true, digest := List.replicate 32 5, state := 4, lastAt := 4000000000 }

/-- A closed ring of two, this device of serial 7 at position 0, the other of serial 9 at position 1. -/
def ring (f : Cluster → Cluster := id) : Chip :=
  { up with
    cluster := f { linkUp := true, state := .formed, size := 2, position := 0, master := 7, adopted := true, lastSync := 4000000000, ring := [{ serial := 7 }, peer] }
    boot := { up.boot with digest := List.replicate 32 5 }
    life := { up.life with fuses := [(9, 7)] } }

/-- This device is a member, the other one the master. -/
def member (f : Cluster → Cluster := id) : Chip := ring fun c => f { c with master := 9 }

/-- A frame is heard and consumed. -/
def takes (b : Bytes) (c : Chip) : Bool :=
  match parseFrame b with
  | some f => c.cluster.linkUp && c.runs 10 && (c.heed f == .mine || c.heed f == .both)
  | none => false

/-- Which frames were sent last: their types and payloads, newest first. -/
def sentFrames (c : Chip) : List (Nat × Bytes) :=
  c.out.filterMap fun o => match o with
    | .nestan b => (parseFrame b).map fun f => (f.type, f.payload)
    | _ => none

/-- Type and payload of each frame that waits in the transmitter. -/
def waitingFrames (c : Chip) : List (Nat × Bytes) := c.cluster.tx.map fun t => (t.frame.type, t.frame.payload)

theorem test_link :
    up.runs 10 = true ∧ (after .linkUp up).cluster.state = .ringOpen ∧ still .linkUp { up with islands := [] } = true ∧
    (after .linkDown ring).cluster.size = 0 ∧ (after .linkDown ring).cluster.state = .formed ∧
    (after .linkDown (ring fun c => { c with state := .closed, flows := [(1, {})] })).cluster.flows = [] := by decide +kernel

theorem test_frames :
    parseFrame (ringFrame 5 0xFF 0 [1, 2]) = some { type := 5, cluster := 0, src := 1, dst := 0xFF, seq := 0, payload := [1, 2] } ∧
    parseFrame (ringFrame 0x0B 0xFF 0 []) = none ∧ (after (.heartbeat [1]) ring).cluster.discarded = 1 ∧
    (after (.ack (ringFrame 9 1 0 [0, 0] 0)) ring).cluster.received = 1 ∧ (after (.ack (ringFrame 9 5 0 [0, 0])) ring).cluster.sent = 1 ∧
    still (.hello (ringFrame 9 0 0 [])) ring = true := by decide +kernel

theorem test_data :
    takes (ringFrame 0x0A 0 0 [8]) ring = true ∧ (after (.data (ringFrame 0x0A 0 0 [8])) ring).cluster.inbox = [[8]] ∧
    sentFrames (after (.data (ringFrame 0x0A 0 0 [8])) ring) = [(9, [0, 0])] ∧ sentFrames (after (.data (ringFrame 0x0A 0 0xFFFC [8])) ring) = [(9, [0xFF, 0xFC])] ∧
    sentFrames (after (.data (ringFrame 0x0A 0 0xFFFB [8])) ring) = [] ∧
    (after (.data (ringFrame 0x0A 0 0 [8])) (ring fun c => { c with inbox := List.replicate 32 [] })).cluster.inbox.length = 32 := by decide +kernel

theorem test_ack :
    let d := ring fun c => { c with flows := [(1, { nextSeq := 4, waiting := [(0, [1]), (1, [2]), (2, [3]), (3, [4])], queued := [[5], [6], [7]] })] }
    takes (ringFrame 9 0 0 [0, 1]) d = true ∧ (((after (.ack (ringFrame 9 0 0 [0, 1])) d).flow 1).waiting.map (·.1)) = [2, 3, 4, 5] ∧
    ((after (.ack (ringFrame 9 0 0 [0, 1])) d).flow 1).queued = [[7]] ∧ ((after (.ack (ringFrame 9 0 0 [0, 7])) d).flow 1).queued.length = 3 := by decide +kernel

theorem test_dataResend :
    let d := ring fun c => { c with flows := [(1, { waiting := [(0, [1]), (1, [2])] })] }
    d.passedMs 0 1 = true ∧ sentFrames (after (.dataResend 1) d) = [(0x0A, [1])] ∧ waitingFrames (after (.dataResend 1) d) = [(0x0A, [2])] ∧ (after (.dataResend 1) d).cluster.resends = 2 ∧
    still (.dataResend 2) d = true := by decide +kernel

theorem test_helloSend :
    sentFrames (after .helloSend ring) = [(1, be 4 7 ++ [0, 0x80, 1] ++ be 4 7 ++ [0x80, 0, 0])] ∧ still .helloSend up = true := by decide +kernel

theorem test_hello_own :
    let h (n : Byte) := ringFrame 1 0xFF 0 (be 4 7 ++ [0, 0x80, n] ++ be 4 7 ++ [0x80, 0, 0]) 0xFE 0xFF
    let d := ring fun c => { c with state := .ringOpen, size := 0, position := 0xFE, ring := [], upstream := [(1, peer)] }
    (after (.hello (h 2)) d).cluster.size = 2 ∧ (after (.hello (h 2)) d).cluster.position = 0 ∧ (after (.hello (h 2)) d).cluster.state = .formed ∧
    (after (.hello (h 9)) d).cluster.state = .refused ∧ (after (.hello (h 9)) d).cluster.cause = 3 ∧
    (after (.hello (h 2)) (ring fun c => { c with master := 9 })).cluster.master = 7 := by decide +kernel

theorem test_hello_pass :
    sentFrames (after (.hello (ringFrame 1 0xFF 0 (be 4 9 ++ [0, 0x90, 1] ++ be 4 9 ++ [0x90, 0, 5]) 0xFE 0xFF)) ring) =
      [(1, be 4 9 ++ [0, 0x90, 2] ++ be 4 7 ++ [0x80, 0, 5])] := by decide +kernel

theorem test_calResult :
    let b := ringFrame 4 0xFF 0 ([2] ++ be 4 9 ++ be 4 100 ++ be 4 7 ++ be 4 200) 9 0xFF
    let d := ring fun c => { c with position := 0xFE, state := .closed }
    takes b d = true ∧ (after (.calResult b) d).cluster.position = 1 ∧ (after (.calResult b) d).cluster.hopNext = some 200 := by decide +kernel

theorem test_clusterLeave :
    through 0x4A00 0x11 [1] ring (fun _ _ => true) = true ∧ (after (.clusterLeave port 7) ring).cluster.state = .left ∧ (after (.clusterLeave port 7) ring).cluster.cause = 4 := by
  decide +kernel

theorem test_clusterRejoin :
    let d := ring fun c => { c with state := .left, clusterStored := 3 }
    code (after (.clusterRejoin port 7) up) = 0xA001 ∧ code (after (.clusterRejoin port 7) ring) = 0 ∧ (after (.clusterRejoin port 7) d).cluster.clusterId = 3 ∧
    (after (.clusterRejoin port 7) (ring fun c => { c with state := .left, clusterStored := 0xFF })).cluster.state = .closed := by decide +kernel

theorem test_calibration :
    ring.calibrator = true ∧ (after .calibrationStart ring).out.length = 1 ∧ ((after .calibrationStart ring).cluster.tx.map (·.due)).take 2 = [4000004000, 4000008000] ∧ still .calibrationStart up = true ∧
    code (after (.calibrateNow port 7) up) = 0xA001 ∧ (after (.calibrateNow port 7) ring).cluster.calibrating = true ∧
    (after (.calibrateNow port 7) (ring fun c => { c with position := 1 })).cluster.calibrating = true := by decide +kernel

theorem test_cal :
    let b := ringFrame 3 0xFF 0 (frameStamp 0 0 ++ [0]) 1 0xFF
    let own := ringFrame 3 0xFF 0 (frameStamp 0 0 ++ [1] ++ be 4 9 ++ be 2 30 ++ be 4 50) 0 0xFF
    sentFrames (after (.cal b 0 77) ring) = [(3, frameStamp 0 0 ++ [1] ++ be 4 7 ++ be 2 0 ++ be 4 77)] ∧
    (after (.cal own 1050 0) (ring fun c => { c with calibrating := true })).cluster.calSums = [1000] ∧
    (after (.cal own 1050 0) (ring fun c => { c with calibrating := true, calSums := List.replicate 255 1000 })).cluster.wire = 1000 ∧
    (after (.cal own 1050 0) ring).cluster.wire = 0 := by decide +kernel

theorem test_nestanSyncSend :
    ring.elected = true ∧ ring.transmits = true ∧ (after .nestanSyncSend ring).cluster.syncSeq = 1 ∧
    sentFrames (after .nestanSyncSend ring) = [(2, frameStamp 256000000 1 ++ be 8 0 ++ [3] ++ be 2 0)] ∧ still .nestanSyncSend member = true := by decide +kernel

/-- The master's SYNC, so many 1/256 ns later than this device's time. -/
def syncAt (t256 : Nat) : Bytes := ringFrame 2 0xFF 0 (frameStamp t256 1 ++ be 8 0 ++ [3] ++ be 2 0)

theorem test_nestanSync :
    (member fun c => { c with state := .forming, ring := c.ring.map fun m => { m with heard := false } }).agreesWithMaster = false ∧
    (ring fun c => { c with state := .holdOver, clusterStored := 5 }).cluster.takeStored.state = .ringOpen ∧ member.agreesWithMaster = true ∧ member.runs 6 = true ∧ member.ofCluster { type := 2, cluster := 0, src := 1, dst := 0xFF, seq := 0, payload := [] } = true ∧
    (after (.nestanSync (syncAt 256256001) 0) member).clk.action = 256256001 ∧ (after (.nestanSync (syncAt 256256001) 0) member).clk.generation = 1 ∧
    (after (.nestanSync (syncAt 256256000) 0) member).cluster.adjust = 256000 ∧ (after (.nestanSync (syncAt 256256000) 0) member).cluster.slewing = true ∧
    (after (.nestanSync (syncAt 256000256) 0) member).cluster.adjust = 256 ∧ (after (.nestanSync (syncAt 256000256) 0) member).clk.action = 256000000 ∧
    ((member fun c => { c with adjust := 2, lastSync := 3999999600 }).adjustStep).clk.action = 256000001 := by
  decide +kernel

theorem test_nestanSync_forward :
    let b := ringFrame 2 0xFF 0 (frameStamp 5 1 ++ be 8 40 ++ [3] ++ be 2 0) 1 9
    sentFrames (after (.nestanSync b 30) (ring fun c => { c with hopDelay := 20 })) = [(2, frameStamp 5 1 ++ be 8 90 ++ [3] ++ be 2 0)] ∧
    (after (.nestanSync (ringFrame 2 0xFF 0 (frameStamp 5 1 ++ be 8 40 ++ [3] ++ be 2 0) 0) 30) ring).out = [] := by decide +kernel

theorem test_holdOver :
    let d := member fun c => { c with lastSync := 0, flows := [(1, {})] }
    (after .syncMissed d).cluster.state = .holdOver ∧ (after .syncMissed d).cluster.flows.length = 1 ∧ still .syncMissed member = true ∧
    (after .holdOverEnd (member fun c => { c with state := .holdOver, holdSince := 0, size := 0 })).cluster.state = .ringOpen ∧ still .holdOverEnd member = true := by
  decide +kernel

theorem test_referenceDisagreement :
    (after (.referenceDisagreement true) ring).quality = 2 ∧ (after (.referenceDisagreement true) ring).recorder.queue.length = 1 := by decide +kernel

/-- The other device's heartbeat. -/
def beat (digest : Byte) (life : Nat) : Bytes :=
  ringFrame 5 0xFF 0 (be 4 9 ++ [4, 0x80, 4] ++ be 1 life ++ [1, 0] ++ be 2 1 ++ be 4 (2 ^ 32 - 3) ++ List.replicate 32 digest ++ List.replicate 32 0 ++ be 2 0)

theorem test_heartbeats :
    ring.heartbeat.length = 82 ∧ (sentFrames (after .nestanHeartbeatSend ring)).map (·.1) = [5] ∧ still .nestanHeartbeatSend up = true ∧
    takes (beat 5 2) ring = true ∧ ((after (.heartbeat (beat 5 2)) ring).cluster.ring.map (·.offset)) = [0, -3] ∧
    ((after (.heartbeat (beat 5 2)) ring).cluster.ring.map (·.barriers)) = [0, 1] := by decide +kernel

theorem test_heartbeat_refuses :
    let d := ring fun c => { c with state := .forming }
    (after (.heartbeat (beat 6 2)) d).cluster.cause = 1 ∧ (after (.heartbeat (beat 5 3)) d).cluster.cause = 2 ∧ (after (.heartbeat (beat 5 2)) d).cluster.state = .formed := by
  decide +kernel

theorem test_memberLost :
    let d := ring fun c => { c with ring := [{ serial := 7 }, { peer with lastAt := 0 }], flows := [(1, {})] }
    ((after (.memberLost 1) d).cluster.ring.map (·.lost)) = [false, true] ∧ (after (.memberLost 1) d).cluster.flows = [] ∧ still (.memberLost 1) ring = true := by
  decide +kernel

theorem test_formationRetry :
    let d := ring fun c => { c with state := .refused, cause := 1 }
    d.standing = true ∧ (after .formationRetry d).cluster.state = .formed ∧ still .formationRetry ring = true := by decide +kernel

/-! ### Cluster barriers -/

/-- Sequencer 2 waits at barrier 19, alone on its device. -/
def barred (f : Cluster → Cluster := id) : Chip :=
  let d := seqOf [.barw 19, .halt] fun x => { x with state := .waiting, barrier := some 19 }
  { ring f with seqs := d.seqs, lanes := d.lanes, dram := d.dram }

/-- An ARRIVE of the other device. -/
def arriveOf (digest : Byte) : Bytes := ringFrame 6 0 0 ([19] ++ be 2 0 ++ [0] ++ List.replicate 32 digest)

theorem test_arrive :
    let d := ring fun c => { c with ring := [{ serial := 7 }, { peer with barriers := 8 }] }
    takes (arriveOf 0) d = true ∧ (after (.arrive (arriveOf 0)) d).out.length = 1 ∧ ((after (.arrive (arriveOf 0)) d).barrier 19).generation = 1 ∧
    (((after (.arrive (arriveOf 0)) (d.modCluster fun c => { c with timeBad := true })).barrier 19).arrivals.map (·.position)) = [1] ∧
    (after (.arrive (arriveOf 0)) (member fun c => c)).out = [] := by decide +kernel

theorem test_arrive_digests :
    let d := barred fun c => { c with ring := [{ serial := 7 }, { peer with barriers := 8 }], barriers := [(19, { arrivals := [{ position := 0, digest := List.replicate 32 3 }] })] }
    d.barrierFull 19 = false ∧ ((after (.arrive (arriveOf 4)) d).barrier 19).held = true ∧
    (((after (.arrive (arriveOf 3)) d).sq 2).state = .running ∧ ((after (.arrive (arriveOf 3)) d).sq 2).barrier = none) := by decide +kernel

theorem test_release :
    let b := ringFrame 7 0xFF 0 ([19] ++ be 2 0 ++ frameStamp 257000000 1)
    takes b barred = true ∧ ((after (.release b) barred).sq 2).state = .running ∧ ((after (.release b) barred).barrier 19).generation = 1 ∧
    ((after (.release b) (barred fun c => { c with state := .left })).sq 2).state = .waiting := by decide +kernel

theorem test_abort :
    let b := ringFrame 8 0xFF 0 ([19] ++ be 2 0 ++ [1])
    takes b barred = true ∧ ((after (.abort b) barred).sq 2).endCause = 2 ∧ ((after (.abort b) barred).sq 2).barrier = none ∧
    ((after (.abort b) (barred fun c => { c with state := .left })).sq 2).state = .waiting := by decide +kernel

theorem test_barrierTimeout :
    let m := barred fun c => { c with barriers := [(19, { arrivals := [{ position := 0 }] })] }
    let d := barred fun c => { c with state := .closed, barriers := [(19, { localArrived := true })] }
    m.isMaster = true ∧ ((after (.barrierTimeout 3) m).sq 2).endCause = 2 ∧ (after (.barrierTimeout 3) m).out.length = 1 ∧
    ((after (.barrierTimeout 3) d).sq 2).endCause = 2 ∧ still (.barrierTimeout 3) (member fun c => c) = true := by decide +kernel

theorem test_channel18 :
    let d := { ring id with islands := up.islands.set 6 .faulted }
    d.formed = true ∧ (d.takeSync 0 3).clk.ch18 = 1 ∧ (((((d.takeSync 0 3).takeSync 0 3).takeSync 0 3).takeSync 0 3).takeSync 0 3).clk.ch18Refused = true := by decide +kernel

/-! ## The conductor, the watchdog and the background activities -/

/-- A partition's descriptor with no code, 4 KiB of SRAM and one KiB of trace, owning these watchdog slots. -/
def descriptor (p : Nat) (slots : Nat) : Bytes :=
  be 1 p ++ [0] ++ be 2 1 ++ be 4 4096 ++ be 4 0 ++ be 4 0x20001000 ++ be 4 0x10000000 ++ be 4 4096 ++ be 2 0 ++ be 2 slots ++ be 4 0 ++ be 4 0 ++ be 4 0 ++
    be 32 0xe3b0c44298fc1c149afbf4c8996fb92427ae41e4649b934ca495991b7852b855

/-- Partitions 1 and 2 run, with slot 3 of partition 1 as given, in the last tick of the period. -/
def conducting (x : Slot := {}) (f : Watchdog → Watchdog := id) : Chip :=
  { up with
    ci := { partitions := [(1, { present := true, running := true, desc := descriptor 1 8 }), (2, { present := true, running := true, desc := descriptor 2 0 })] }
    boot := { up.boot with running := 0 }
    watchdog := f { slots := [(3, x)], number := 7, startAt := 3999999999 - 400000000 } }

theorem test_conductorAccess :
    firstForbidden conducting.mapRights .write 0xFFFF 2 = some 0xFFFF ∧ still (.conductorAccessFault .hi none .read 0xFFFE 2) conducting = true ∧
    (after (.conductorAccessFault .hi none .write 0xFFFF 2) conducting).recorder.queue.length = 1 := by decide +kernel

theorem test_partitionAccess :
    still (.conductorAccessFault .ci (some 1) .write 0x10000FFC 4) conducting = true ∧
    ((after (.conductorAccessFault .ci (some 1) .write 0x10000FFD 4) conducting).part 1).running = false ∧
    (after (.conductorAccessFault .ci (some 1) .write 0x10000FFD 4) conducting).watchdog.stopped = [1] := by decide +kernel

theorem test_watchdogCheckIn :
    ((after (.watchdogCheckIn 1 3 7) (conducting { state := .grace })).watchdog.slots.get {} 3) = { state := .active, good := true } ∧
    ((after (.watchdogCheckIn 1 3 8) (conducting { state := .grace })).watchdog.slots.get {} 3) = { state := .grace, bad := true } ∧
    ((after (.watchdogCheckIn 2 3 7) conducting).part 2).running = false ∧ still (.watchdogCheckIn 0 3 7) conducting = true := by decide +kernel

theorem test_watchdogCheckIn_early :
    let d := conducting { state := .active } fun w => { w with startAt := 4000000000 }
    d.inClosed = true ∧ ((after (.watchdogCheckIn 1 3 7) d).watchdog.slots.get {} 3) = { state := .active, bad := true, early := true } := by decide +kernel

theorem test_watchdogPeriodEnd :
    let d := conducting { state := .active, good := true } fun w => { w with periodStaged := 20, closedStaged := 3 }
    (after .watchdogPeriodEnd d).watchdog.number = 8 ∧ (after .watchdogPeriodEnd d).watchdog.period = 20 ∧ (after .watchdogPeriodEnd d).watchdog.closed = 3 ∧
    still .watchdogPeriodEnd (conducting {} fun w => { w with startAt := 4000000000 - 400000000 }) = true := by decide +kernel

/-- Slot 3 missed its check-in, with strikes as given. -/
def failing (f : Watchdog → Watchdog := id) : Chip := conducting { state := .active } f

theorem test_escalation :
    ((after .watchdogPeriodEnd failing).part 1).restarting = true ∧ (after .watchdogPeriodEnd failing).watchdog.lastEsc = [1, 2, 8, 0] ∧
    ((after .watchdogPeriodEnd (failing fun w => { w with strikes := [(1, 3900000000)] })).reseatRun 2 0xFF).isSome = true ∧
    (failing fun w => { w with strikes := [(1, 3900000000)], islandStrikes := [3900000000] }).strikeHolds 3900000000 = true ∧
    (after .watchdogPeriodEnd (failing fun w => { w with strikes := [(1, 3900000000)], islandStrikes := [3900000000] })).power.chipResets = 2 := by
  decide +kernel

theorem test_partitionRestartComplete :
    let d := conducting.modPart 1 fun x => { x with running := false, restarting := true }
    d.codeOk 1 = true ∧ ((after (.partitionRestartComplete 1) d).part 1).running = true ∧ still (.partitionRestartComplete 2) d = true ∧
    ((after (.partitionRestartComplete 1) (d.modPart 1 fun x => { x with desc := x.desc.take 40 })).part 2).running = false := by decide +kernel

theorem test_lockstepMismatch :
    ((after .lockstepMismatch conducting).part 1).running = false ∧ (after .lockstepMismatch conducting).watchdog.islandStrikes = [4000000000] ∧
    still .lockstepMismatch { conducting with islands := conducting.islands.set 2 .dead } = true := by decide +kernel

theorem test_scrub :
    still (.scrubCorrected (.sram .ci 0) false) up = true ∧ (after (.scrubCorrected (.sram .ci 0) true) up).island 2 = .faulted ∧
    up.runs 2 = true ∧ (after (.scrubCorrected (.flash 0x20001000) true) up).boot.badPages = [1] ∧
    (after (.scrubCorrected (.flash 0x20000000) true) up).recorder.queue.length = 1 ∧ ((after (.scrubCorrected (.dram 1 64) true) served).dramCh 1).lastBad = 64 ∧
    ((after (.scrubCorrected (.dram 1 64) false) served).dramCh 1).corrected = 1 ∧ still (.scrubCorrected (.dram 1 64) false) up = true := by decide +kernel

theorem test_activityBehind :
    up.canBe 0 true = true ∧ ((after (.activityBehind 0 true) up).background.activities.get {} 0).state = .behind ∧ still (.activityBehind 3 true) up = true ∧
    ((after (.activityBehind 0 false) (after (.activityBehind 0 true) up)).background.activities.get {} 0).state = .running := by decide +kernel

theorem test_flashReclaim :
    (after .flashReclaim (up.modBoot fun b => { b with freeBlocks := 15 })).boot.freeBlocks = 16 ∧ still .flashReclaim (up.modBoot fun b => { b with freeBlocks := 16 }) = true := by
  decide +kernel

/-- A sample with these temperatures. -/
def sample (l : List Int) : Telemetry := { temps := l, rails := List.replicate 7 0x1234, rates := [], peaks := [] }

theorem test_telemetrySample :
    (after (.telemetrySample (sample [0, 1000, 0, 0, 0])) up).background.warning = true ∧ (after (.telemetrySample (sample [0, 999, 0, 0, 0])) up).background.warning = false ∧
    (after (.telemetrySample (sample [0, 950, 0, 0, 0])) (after (.telemetrySample (sample [0, 1000, 0, 0, 0])) up)).background.warning = true ∧
    (after (.telemetrySample (sample [0, 949, 0, 0, 0])) (after (.telemetrySample (sample [0, 1000, 0, 0, 0])) up)).background.warning = false := by decide +kernel

/-! ## The recorder and the trace -/

/-- A state with records that wait, and an array. -/
def recording (l : List RecordIn) (a : RecArray := {}) : State := { chip := { up with recorder := { queue := l } }, array := a }

/-- The array after a commit. -/
def committed (i : Instr) (s : State) : RecArray :=
  match exec i s with
  | .next t => t.array
  | _ => {}

theorem test_recordCommit :
    (committed (.recordCommit ⟨false, false⟩) (recording [{ code := 7 }])).slots = [(0, recordBytes 0 10000000 { code := 7 })] ∧ (committed (.recordCommit ⟨true, false⟩) (recording [{ code := 7 }])).voids = [0] ∧
    committed (.recordCommit ⟨false, false⟩) (recording []) = {} := by decide +kernel

theorem test_recordCommit_full :
    (committed (.recordCommit ⟨false, false⟩) (recording [{ code := 7 }] { next := 65472 })).slots = [(65472, recordBytes 65472 10000000 fullRecord)] ∧
    (committed (.recordCommit ⟨false, false⟩) (recording [{ code := 0x1007 }] { next := 65535 })).next = 65536 ∧
    (committed (.recordCommit ⟨false, false⟩) (recording [{ code := 0x1007 }] { next := 65536 })).notWritten = 1 ∧
    (committed (.recordCommit ⟨false, false⟩) (recording [{ code := 7 }] { next := 65500, fullSaid := true })) = { next := 65500, fullSaid := true, notWritten := 1 } := by decide +kernel

theorem test_overloadSummaryDue :
    let d (t : Nat) : Chip := { up with clk := { up.clk with ticks := 400 * (5 + 3600000000) }, recorder := { counters := [(3, 9)], lastSummary := [(3, t)] } }
    (d 5).us = 5 + 3600000000 ∧ (after (.overloadSummaryDue 2) (d 5)).recorder.counters.get 0 3 = 0 ∧ still (.overloadSummaryDue 2) (d 6) = true ∧
    still (.overloadSummaryDue 3) (d 5) = true := by decide +kernel

theorem test_recorderRead :
    let s : State := { chip := up, array := { slots := [(0, [1, 2]), (2, [3])], next := 3, voids := [1] } }
    (match exec (.recorderRead port) s with
      | .next t => bytesOut t.chip == [1, 2, 3] && t.chip.sel 1 0x2900 2 == 3
      | _ => false) = true := by decide +kernel

theorem test_trace :
    let d := conducting.modCi fun c => { c with traceEnable := 0x07 }
    ((after (.traceSoftwareWrite 1 5 0x01020304) d).part 1).written = 2 ∧ still (.traceSoftwareWrite 0 5 0) d = true ∧
    ((after (.tracedExceptionOrBranch 1 .exception 11 0x20001000 9) d).part 1).packets = [tracePacket 3 11 9 0x20001000] ∧
    ((after (.tracedExceptionOrBranch 1 .branch 11 0x20001000 0) (d.modPart 1 fun x => { x with inCycle := 16 })).part 1).dropped = 1 := by decide +kernel

theorem test_traceRead :
    let d := (select1 0x2A00 conducting).modPart 1 fun x => { x with packets := [tracePacket 3 1 2 4, tracePacket 6 1 2 4], written := 5 }
    bytesOut (after (.traceRead port) d) = le 8 3 ++ tracePacket 3 1 2 4 ++ tracePacket 6 1 2 4 ∧ (after (.traceRead port) d).sel 1 0x2A00 5 = 5 := by
  decide +kernel

theorem test_suspended :
    let d := { up with islands := up.islands.set (activityIsland 0) .faulted }
    d.activityState 0 = .suspended ∧ still (.activityBehind 0 true) d = true := by decide +kernel

theorem test_recordCommit_overrun :
    (match exec (.recordCommit ⟨false, true⟩) (recording [{ code := 7 }]) with | .next t => t.chip.island 7 == .faulted | _ => false) = true := by decide +kernel

/-! ## Re-seats and the replacement of a partition -/

theorem test_reseatRequest :
    through 0x2020 1 [9, 0xFF] up (fun _ d => d.reseatPrecondition 9 0xFF == 0 && !d.hostReseating) (fun _ _ => if (reseatLimit 9 0xFF).isSome then 0 else 2) = true ∧
    (after (.reseatRequest port 7 9 0xFF) up).island 9 = .reseatPending ∧ code (after (.reseatRequest port 7 9 0xFF) up) = 0 ∧
    code (after (.reseatRequest port 7 9 0xFF) (after (.reseatRequest port 8 0 0xFF) up)) = 1 ∧ code (after (.reseatRequest port 7 8 1) up) = 0x8005 ∧
    code (after (.reseatRequest port 7 1 0xFF) up) = 2 := by decide +kernel

/-- The LV is being re-seated for the host. -/
def reseating (x : ReseatSt) : Chip :=
  { up with islands := up.islands.set 9 .loading, reseat := { runs := [{ island := 9, unit := 0xFF, host := true, phase := x, resetAt := 3999999999 - 1200000 }] } }

theorem test_reseatDrainEnd :
    (after (.reseatDrainEnd .lv 0xFF) (reseating .draining)).reseat.status = .loading ∧ (after (.reseatDrainEnd .lv 0xFF) (reseating .draining)).island 9 = .loading ∧
    still (.reseatDrainEnd .lv 0xFF) (reseating .loading) = true ∧ still (.reseatDrainEnd .cl 0xFF) (reseating .draining) = true := by decide +kernel

theorem test_reseatComplete :
    (after (.reseatComplete .lv 0xFF) (reseating .loading)).reseat.status = .completed ∧ (after (.reseatComplete .lv 0xFF) (reseating .loading)).island 9 = .running ∧
    (after (.reseatComplete .lv 0xFF) (reseating .loading)).reseat.count = 1 ∧ still (.reseatComplete .lv 0xFF) (reseating .draining) = true := by decide +kernel

theorem test_reseatLimitExpiry :
    (reseating .loading).overMs (3999999999 - 1200000) 3 = true ∧ (after (.reseatLimitExpiry .lv 0xFF) (reseating .loading)).reseat.status = .failed ∧
    (after (.reseatLimitExpiry .lv 0xFF) (reseating .loading)).island 9 = .faulted ∧ still (.reseatLimitExpiry .lv 0xFF) (reseating .draining) = true := by
  decide +kernel

/-- Slot A runs the image that is staged; slot B holds a valid one. -/
def replaceable : Chip := { staging false with
  ci := { partitions := [(0, { present := true, running := true, desc := slice (image false) 32 72 })] }
  boot := { running := 0, version := 3, statusB := 0, flash := cellsAt 0xFF (areaBase 0) (image false) } }

theorem replaceable_staged : replaceable.staged = image false := staging_staged false

theorem replaceable_area : replaceable.areaImage 0 = image false := bootable_area

theorem replaceable_read : replaceable.readStaged = (some (image false), read replaceable) := by
  have h : replaceable.readBehind (replaceable.stagedReq 4480) = image false := by
    have e : replaceable.readBehind (replaceable.stagedReq 4480) = (staging false).readBehind ((staging false).stagedReq 4480) := rfl
    rw [e, staging_plain, region_read _ (image false) 4480 (Nat.le_of_eq (image_length false).symm) (by decide +kernel) (by simp only [staging]),
      List.take_of_length_le (Nat.le_of_eq (image_length false))]
  have hb : replaceable.dram.badBursts = [] := rfl
  rw [Chip.readStaged, replaceable_staged, image_length]
  simp only [Chip.serve, hb, List.find?_nil, h, read]

theorem test_replacePartition : replaceState replaceable = 0 ∧ replaceable.readStaged = (some (image false), read replaceable) ∧
    replaceCode 0 (image false) (read replaceable) = 0 ∧ (replaceable.part 0).present = true := by
  refine ⟨by decide +kernel, replaceable_read, ?_, by decide +kernel⟩
  have hc : (read replaceable).checkImage (image false) false false (areaSize 0) = 0 := by decide +kernel
  have hl : layoutMatches (image false) (image false) 0 = true := by decide +kernel
  have hr : (read replaceable).boot.running.toNat = 0 := by decide +kernel
  have ho : otherStatus (read replaceable) = 0 := by decide +kernel
  have ha : (read replaceable).areaImage 0 = image false := by
    have := replaceable_area
    simp only [Chip.areaImage, Chip.flashRead, read_boot] at this ⊢
    exact this
  simp [replaceCode, hr, hc, ha, hl, ho]

theorem test_replacePartition_refused :
    code (after (.replacePartition port 7 1) { conducting with cluster := { state := .formed } }) = 5 ∧ code (after (.replacePartition port 7 1) conducting) = 4 ∧
    code (after (.replacePartition port 7 3) conducting) = 2 := by decide +kernel

/-- The replacement of partition 0 is under way. -/
def replacing : Chip := replaceable.modReseat fun r => { r with replacing := some 0, image := image false }

theorem get_outside (d : Byte) (m : SMap Byte) (k : Nat) (h : ∀ c ∈ m, c.1 ≠ k) : SMap.get m d k = d := by
  induction m with
  | nil => rfl
  | cons x xs ih =>
    rw [SMap.get, if_neg (fun e => h x (by simp) e.symm)]
    exact ih fun c hc => h c (by simp [hc])

theorem cellsAt_keys (d : Byte) (b : Bytes) (a : Nat) : ∀ c ∈ cellsAt d a b, a ≤ c.1 ∧ c.1 < a + b.length := by
  induction b generalizing a with
  | nil => intro c h; cases h
  | cons x xs ih =>
    intro c h
    rw [cellsAt] at h
    split at h
    · have := ih (a + 1) c h; simp only [List.length_cons]; omega
    · rcases List.mem_cons.mp h with rfl | h
      · simp
      · have := ih (a + 1) c h; simp only [List.length_cons]; omega

theorem noteArea_flash (a : Nat) (s : Chip) : (s.noteArea a).boot.flash = s.boot.flash := by
  simp only [Chip.noteArea, Chip.modBoot]
  repeat' split
  all_goals rfl

theorem writeArea_flash (s : Chip) (img b : Bytes) (hb : s.boot.flash = cellsAt 0xFF 0 b) (hl : b.length ≤ 0x180000) (hi : imgLength img = img.length) :
    (s.writeArea 0 img).boot.flash = SMap.write 0xFF [] 0 img := by
  rw [Chip.writeArea, noteArea_flash, hi, List.take_length]
  show SMap.write 0xFF (s.boot.flash.filter _) 0 img = _
  rw [hb, List.filter_eq_nil_iff.mpr]
  intro c hc
  have := cellsAt_keys _ _ _ c hc
  simp [areaBase, areaSize]
  omega

theorem replacing_flash : (replacing.writeArea 0 (image false)).boot.flash = SMap.write 0xFF [] 0 (image false) :=
  writeArea_flash _ _ (image false) (by simp only [replacing, replaceable, Chip.modReseat]; rfl) (by rw [image_length]; decide)
    (by rw [image_length]; decide +kernel)

theorem written_read (d : Byte) (b : Bytes) (n : Nat) (h : n ≤ b.length) : SMap.read d (SMap.write d [] 0 b) 0 n = b.take n := by
  apply List.ext_getElem
  · simp [SMap.read, h]
  · intro i h1 h2
    simp only [SMap.read, List.length_map, List.length_range] at h1
    simp only [SMap.read, List.getElem_map, List.getElem_range, List.getElem_take, SMap.get_write]
    rw [if_pos (by omega)]
    simp [List.getD, show i < b.length by omega]

theorem replacing_read (n : Nat) (h : n ≤ 4480) : (replacing.writeArea 0 (image false)).flashRead (areaBase 0) n = (image false).take n := by
  rw [Chip.flashRead, replacing_flash]
  exact written_read _ _ _ (by rw [image_length]; exact h)

theorem written_inside (s : Chip) (b : Bytes) (hf : s.boot.flash = SMap.write 0xFF [] 0 b) (hn : 0 < b.length) (h0 : b.getD 0 0xFF ≠ 0xFF) : s.areaEmpty 0 = false := by
  cases h : s.areaEmpty 0 with
  | false => rfl
  | true =>
    rw [Chip.areaEmpty, List.all_eq_true] at h
    have hg := get_outside 0xFF s.boot.flash 0 fun c hc e => by
      have := h c hc
      simp [e, areaBase, areaSize] at this
    rw [hf, SMap.get_write, if_pos (by omega)] at hg
    exact absurd hg h0

theorem test_replacementComplete :
    replacing.boot.running.toNat = 0 ∧ (replacing.writeArea 0 replacing.reseat.image).areaStatus 0 = 0 := by
  refine ⟨by decide +kernel, ?_⟩
  have hi : replacing.reseat.image = image false := rfl
  have hl : imgLength ((image false).take 32) = 4480 := by decide +kernel
  have ha : (replacing.writeArea 0 (image false)).areaImage 0 = image false := by
    rw [Chip.areaImage, replacing_read 32 (by decide), hl, show min (areaSize 0) (max 32 4480) = 4480 by decide +kernel, replacing_read 4480 (by decide),
      List.take_of_length_le (Nat.le_of_eq (image_length _))]
  have he : (replacing.writeArea 0 (image false)).areaEmpty 0 = false :=
    written_inside _ _ replacing_flash (by rw [image_length]; decide) (by decide +kernel)
  have hc : (replacing.writeArea 0 (image false)).checkImage (image false) false true (areaSize 0) = 0 := by decide +kernel
  rw [hi, Chip.areaStatus, he, ha]
  simpa using hc

theorem test_replacementComplete_bad :
    let d := conducting.modReseat fun r => { r with replacing := some 1, image := [] }
    (after .replacementComplete d).reseat.replacement = 0xFFFF ∧ (after .replacementComplete d).reseat.replacing = none ∧ still .replacementComplete conducting = true := by
  decide +kernel

/-! ## Pairs -/

/-- A pair request with role active. -/
def pairActive : PairReq :=
  { nonce := List.replicate 16 0, serial := 9, node := 4, key := pointG
    auths := [1, 0, 0, 0] ++ be 32 0x50c3031728113f9eb5b6bdb7baa8c81606b5ccf70b6b5b0f0c958ad18404e783 ++
        be 32 0x7041010762b06a8a91e79492938d98074134428c3b80fddc001a71dc2acd599c ++
      [1, 0, 1, 0] ++ be 32 0x272aec4de637883f5232783ec8922c5b5ab35b35b9d748655d2f3b5e8b099703 ++
        be 32 0x272aec4de637883f5232783ec8922c5b5ab35b35b9d748655d2f3b5e8b099703 }

/-- The custodians of owner 0 who signed it. -/
def pairKeysActive : SMap Bytes :=
  [(0, be 32 0x19d98c470ae5565dc1ea36c5a8e3b7747bc9546ae75b263669404daf1db2d2d4 ++
      be 32 0xcbb0c9ad018b71b7a847f1af098b4d094adc68348f4d8e43881ece913b56e556), (1, be 32 0x105f6728988c42cbb4e35eac48460ffee604695e006dec852eca4250058ce6a3 ++
      be 32 0x6d101c2ce4fb462aaab5e4ef7e5e71eb183f6c72879036df5eec060e886e3b2a)]

/-- A pair request with role standby. -/
def pairStandby : PairReq :=
  { nonce := List.replicate 16 0, serial := 9, node := 4, key := pointG
    auths := [1, 0, 0, 0] ++ be 32 0x139c03c6a9e648d904262c8db88de58d2575a6a34ba186851c44be387a0b19bc ++
        be 32 0x9ce01e354f3246c82131646dc46f2c692bad351a5d0c3428e225f1c3d058cde ++
      [1, 0, 1, 0] ++ be 32 0x35f701c84950ce5d204dd07f490f340a7a16f1a1a9639d3f0145e5fd3f99ac92 ++
        be 32 0x1afb80e424a8672e9026e83fa4879a053d0b78d0d4b1ce9f80a2f2fe9fccd649 }

/-- The custodians of owner 0 who signed it. -/
def pairKeysStandby : SMap Bytes :=
  [(0, be 32 0xe49a3bfb95d96a420ebcda5a86646fd05af99de20b88ed58fdaa456eda421092 ++
      be 32 0x2ec656de612b0a875e3c7d8f52bc67413c26e39c10ba9999434261cb9d82c518), (1, be 32 0x2641ee8794e97d95075508a7fd3a146358c39c47505fb8da436e1fd31e54eb8d ++
      be 32 0x6d7d073b8f07560ee0535c5c656fa1554573dd5377af45dcf66ad36f3d11eb1d)]

/-- A pair request with role none. -/
def pairNone : PairReq :=
  { nonce := List.replicate 16 0, serial := 9, node := 4, key := pointG
    auths := [1, 0, 0, 0] ++ be 32 0x985f2b16843d3842ca3adca28c5e9128d10d89c202a27d4777291b843e723ac ++
        be 32 0xadd750e522c146820ee139ee0d974db0acf4ef527a1dcc4a1fa20d14bee47a1a ++
      [1, 0, 1, 0] ++ be 32 0xbfedbd5275159d58b018e39746e154d8ce367fc652c783af291a639a50ecd180 ++
        be 32 0xbfedbd5275159d58b018e39746e154d8ce367fc652c783af291a639a50ecd180 }

/-- The custodians of owner 0 who signed it. -/
def pairKeysNone : SMap Bytes :=
  [(0, be 32 0x8f59ac363739509f52c8526c62526a723fa365d8d1bb45f08332534db7d9aa89 ++
      be 32 0xaf6d42d8ce8f79f1d67276d97b1ce06a2e55d750d33e4e40eb801dceb5a23337), (1, be 32 0x21a85af3157abd6bbd4683a999a7ffc539f7f037d3e46831eefe19e54da34599 ++
      be 32 0x9c7269ddc47857de3463300c5bc17270ccf12a662d8942b485d6fb68f57b1a6e)]

/-- A provisioned device on a ring with the partner, which is of another cluster. -/
def pairable (k : SMap Bytes) : Chip :=
  ((ring fun c => { c with ring := [{ serial := 7 }, { peer with cluster := 1 }] }).modSession 1 fun x => { x with opNonce := some (List.replicate 16 0, 4000000000) }).modKeys
    fun x => { x with owners := [(0, { active := true, keys := k }), (1, { active := true })] }

theorem test_newPairKey :
    (after (.newPairKey port 7) up).pair.privateKey.length = 32 ∧ code (after (.newPairKey port 7) (up.modPair fun p => { p with state := .fenced })) = 5 ∧
    code (after (.newPairKey port 7) (up.modCrypto fun c => { c with drbgUp := false })) = 0x3004 := by decide +kernel

theorem test_pairActive :
    let d := after (.pairActive port 7 pairActive) (pairable pairKeysActive)
    d.pair.state = .pairing ∧ d.pair.asActive = true ∧ d.pair.partner = 9 ∧
    code (after (.pairActive port 7 { pairActive with nonce := List.replicate 16 1 }) (pairable pairKeysActive)) = 0x310C ∧
    code (after (.pairActive port 7 { pairActive with key := List.replicate 64 1 }) (pairable pairKeysActive)) = 2 := by decide +kernel

theorem test_pairStandby :
    let d := after (.pairStandby port 7 pairStandby) (pairable pairKeysStandby)
    d.pair.state = .pairing ∧ d.pair.asActive = false ∧ code (after (.pairStandby port 7 { pairStandby with auths := [] }) (pairable pairKeysStandby)) = 0xD ∧
    code (after (.pairStandby port 7 pairStandby) (pairable [])) = 0x310B := by decide +kernel

theorem test_unpair :
    (after (.unpair port 7 pairNone) ((pairable pairKeysNone).modPair fun p => { p with state := .fenced })).pair.state = .unpaired ∧
    code (after (.unpair port 7 pairNone) { pairable pairKeysNone with cluster := {} }) = 0xB002 := by decide +kernel

theorem test_pairRequest_stopped : code (after (.unpair port 7 pairNone) { pairable pairKeysNone with islands := up.islands.set 4 .loading }) = 4 := by decide +kernel

/-- The device pairs, its partner's PAIR-STATE heard. -/
def forming (active : Bool) : Chip :=
  (pairable []).modPair fun p =>
    { p with state := .pairing, asActive := active, request := some pairActive, privateKey := be 32 3, partnerKey := pointG, partner := 9
             partnerState := [if active then 2 else 1, 1] ++ be 4 0 ++ be 8 0 ++ List.replicate 32 5 }

theorem test_pairFormed :
    (forming true).pairMatches = true ∧ (after .pairFormed (forming true)).pair.state = .activeSync ∧ (after .pairFormed (forming true)).pair.generation = 1 ∧
    still .pairFormed (forming true |>.modPair fun p => { p with request := none }) = true := by decide +kernel

theorem test_pairFormed_standby :
    (after .pairFormed (forming false)).pair.state = .standbySync ∧ ((after .pairFormed (forming false)).keys.owners.map Prod.fst) = [0] := by decide +kernel

/-! ## Replication -/

/-- An active device of generation 1 with these entries open. -/
def journaling (e : List Bytes) : Chip :=
  (pairable []).modPair fun p => { p with state := .activePaired, asActive := true, generation := 1, committed := 4, partner := 9, encKey := List.replicate 32 1, macKey := List.replicate 32 2, open_ := { entries := e, keyChange := true } }

theorem test_epochClose :
    ((after .epochClose (journaling [[2, 0, 2, 0, 7]])).pair.awaiting.map fun e => (e.number, e.entries)) = some (5, [[2, 0, 2, 0, 7]]) ∧
    (after .epochClose (journaling [[2, 0, 2, 0, 7]])).out.length = 1 ∧ (after .epochClose (journaling [[2, 0, 2, 0, 7]])).cluster.tx.length = 1 ∧ still .epochClose (journaling []) = true := by decide +kernel

/-- The replication messages that the active device sent or is about to, in order. -/
def sentPair (c : Chip) : List Bytes := (((sentFrames c).reverse ++ waitingFrames c).filter fun f => f.1 == 0x0A).map (·.2)

/-- A standby of the same generation with these messages in CH_17. -/
def standingBy (l : List Bytes) : Chip :=
  (pairable []).modPair (fun p => { p with state := .standbySync, generation := 1, committed := 4, partner := 9, encKey := List.replicate 32 1, macKey := List.replicate 32 2 }) |>.modCluster fun c => { c with inbox := l }

theorem test_entry :
    let b := be 8 5 ++ be 4 0 ++ [1, 2, 3]
    (after (.entry b) (standingBy [[1, 1] ++ b])).pair.receiving = [1, 2, 3] ∧
    (after (.entry (be 8 5 ++ be 4 3 ++ [4])) ((standingBy [[1, 1] ++ be 8 5 ++ be 4 3 ++ [4]]).modPair fun p => { p with receiving := [1, 2, 3], receivingEpoch := 5 })).pair.receiving = [1, 2, 3, 4] ∧
    (after (.entry (be 8 5 ++ be 4 2 ++ [4])) ((standingBy [[1, 1] ++ be 8 5 ++ be 4 2 ++ [4]]).modPair fun p => { p with receiving := [1, 2, 3], receivingEpoch := 5 })).pair.receiving = [1, 2, 3] ∧
    still (.entry b) (standingBy []) = true := by decide +kernel

theorem test_commit :
    let l := sentPair (after .epochClose (journaling [[2, 0, 2, 0, 7]]))
    let d := after (.entry ((l.getD 0 []).drop 2)) (standingBy l)
    let c := (l.getD 1 []).drop 2
    (d.commitStatus c, (d.takeMessage 2 c).1) = (0, true) ∧ (after (.commit c) d).pair.committed = 5 ∧ sentPair (after (.commit c) d) = [[1, 3] ++ be 8 5 ++ [0]] := by
  decide +kernel

theorem test_commit_bad :
    (after (.commit (be 72 0)) (standingBy [[1, 2] ++ be 72 0])).pair.discarded = 1 ∧ (after (.commit (be 72 0)) (standingBy [[1, 2] ++ be 72 0])).pair.committed = 4 := by
  decide +kernel

/-- An active device that waits for the acknowledgement of epoch 5. -/
def awaiting (l : List Bytes) : Chip :=
  ((journaling []).modPair fun p => { p with awaiting := some { number := 5, entries := [[2, 0, 2, 0, 7]] }, lastState := 4000000000 }).modCluster fun c => { c with inbox := l }

theorem test_replicationAck :
    let a (v : Byte) := be 8 5 ++ [v]
    (after (.replicationAck (a 0)) (awaiting [[1, 3] ++ a 0])).pair.committed = 5 ∧ (after (.replicationAck (a 0)) (awaiting [[1, 3] ++ a 0])).pair.epochs = 1 ∧
    (after (.replicationAck (a 2)) (awaiting [[1, 3] ++ a 2])).pair.state = .activeLost ∧ still (.replicationAck (a 0)) (awaiting []) = true := by decide +kernel

theorem test_replicationAck_paired :
    (after (.replicationAck (be 8 5 ++ [0])) ((awaiting [[1, 3] ++ be 8 5 ++ [0]]).modPair fun p => { p with state := .activeSync, syncLeft := 1 })).pair.state = .activePaired := by
  decide +kernel

/-- A PAIR-STATE. -/
def stateOf (role state gen : Nat) : Bytes := be 1 role ++ be 1 state ++ be 4 gen ++ be 8 4 ++ List.replicate 32 5

theorem test_pairState :
    (after .pairStateSend (journaling [])).out.length = 1 ∧ still .pairStateSend up = true ∧
    (after (.pairState (stateOf 1 3 2)) ((journaling []).modCluster fun c => { c with inbox := [[1, 4] ++ stateOf 1 3 2] })).pair.state = .fenced ∧
    (after (.pairState (stateOf 1 3 1)) (standingBy [[1, 4] ++ stateOf 1 3 1])).pair.state = .standbySynced ∧
    still (.pairState (stateOf 1 3 1)) (standingBy []) = true := by decide +kernel

theorem test_ackTimeout :
    (after .ackTimeout (awaiting [])).pair.state = .activeLost ∧ still .ackTimeout ((awaiting []).modPair fun p => { p with awaiting := some { number := 5, sentAt := 4000000000 } }) = true ∧
    still .ackTimeout (journaling []) = true := by decide +kernel

theorem test_pairStateSilence :
    (journaling []).silent = true ∧ (after .pairStateSilence (journaling [])).pair.state = .activeLost ∧ still .pairStateSilence (awaiting []) = true := by decide +kernel

/-- A synchronised standby whose partner's heartbeat is lost. -/
def orphan : Chip :=
  ((standingBy []).modPair fun p => { p with state := .standbySynced, node := 4, privateKey := be 32 3, partnerKey := pointG }).modHost fun h =>
    { h with consumers := [(1, { entry := 0x40064, lost := true })] }

theorem test_automaticTakeover :
    (after .automaticTakeover orphan).pair.state = .activeLost ∧ (after .automaticTakeover orphan).pair.generation = 2 ∧ (after .automaticTakeover orphan).pair.committed = 4 ∧
    still .automaticTakeover (orphan.modHost fun h => { h with consumers := [] }) = true := by decide +kernel

theorem test_takeOver :
    through 0x4B00 0x0E [1] orphan (fun _ _ => true) = true ∧ (after (.takeOver port 7) orphan).pair.asActive = true ∧ code (after (.takeOver port 7) up) = 0xB004 := by
  decide +kernel

theorem test_reset : State.reset.array.Inv := by constructor <;> decide +kernel

end Sys2Proof.Tests
end

section
/-! SUPPORT. The recorder: what a commit does to the record array and to the recorder's input, the summaries of the
rate-limited categories, and the reading of records (R465 to R473). -/

namespace Sys2Proof.Machine

/-! ## What a command's outcome leaves in place -/

/-- A command that answers a device changed within some parts leaves the record array and the queue as they were. -/
theorem Within.ofChip {ps : List Part} {s : State} {c : Chip} (h : Only ps s.chip c) : Within ps s { s with chip := c } :=
  ⟨h, rfl, rfl⟩

/-! ## The record array (R465 to R470) -/

/-- A record takes the next slot below the protected ones, and a protected record any slot that is left (R470). -/
theorem RecArray.accept_of_slot_left {a : RecArray} {x : RecordIn} (torn : Bool) (us : Nat)
    (h : a.next < 65472 ∨ (protectedCode x.code = true ∧ a.next < 65536)) : a.accept torn us x = a.program torn us x := by
  unfold RecArray.accept
  split
  · rfl
  · next hp =>
    obtain ⟨hc, hn⟩ := h.resolve_left hp
    exact (if_pos hc).trans (if_pos hn)

/-- A protected record that finds no slot is counted as not written (R470). -/
theorem RecArray.accept_protected_full {a : RecArray} {x : RecordIn} (torn : Bool) (us : Nat) (hc : protectedCode x.code = true)
    (hn : 65536 ≤ a.next) : a.accept torn us x = { a with notWritten := satAdd 32 a.notWritten 1 } := by
  unfold RecArray.accept
  rw [if_neg (by unfold protectedBase; omega), if_pos hc, if_neg (by unfold arraySlots; omega)]

/-- An unprotected record behind the ordinary slots is counted as not written, once the recorder-full record stands (R470). -/
theorem RecArray.accept_ordinary_said {a : RecArray} {x : RecordIn} (torn : Bool) (us : Nat) (hn : 65472 ≤ a.next)
    (hc : protectedCode x.code = false) (hs : a.fullSaid = true) :
    a.accept torn us x = { a with notWritten := satAdd 32 a.notWritten 1 } := by
  unfold RecArray.accept
  rw [if_neg (by unfold protectedBase; omega), if_neg (by simp [hc])]
  simp only [hs, if_true]

/-- The first unprotected record behind the ordinary slots writes the recorder-full record (R470). -/
theorem RecArray.accept_ordinary_first {a : RecArray} {x : RecordIn} (torn : Bool) (us : Nat) (hn : 65472 ≤ a.next) (hl : a.next < 65536)
    (hc : protectedCode x.code = false) (hs : a.fullSaid = false) :
    a.accept torn us x = { a.program false us fullRecord with fullSaid := true, notWritten := satAdd 32 a.notWritten 1 } := by
  unfold RecArray.accept
  rw [if_neg (by unfold protectedBase; omega), if_neg (by simp [hc])]
  simp only [hs, Bool.false_eq_true, if_false, if_pos (show a.next < arraySlots from hl)]
  rfl

/-- A slot is used up by a whole record and by a torn one alike (R468). -/
@[simp] theorem RecArray.program_next (a : RecArray) (torn : Bool) (us : Nat) (x : RecordIn) : (a.program torn us x).next = a.next + 1 := by
  cases torn <;> rfl

/-- A torn record leaves its slot void (R468). -/
theorem RecArray.program_torn (a : RecArray) (us : Nat) (x : RecordIn) :
    a.program true us x = { a with voids := a.voids ++ [a.next], next := a.next + 1 } := rfl

/-- The slots after a whole record: the next one holds its bytes, the others are as they were (R465). -/
theorem RecArray.find_program (a : RecArray) (us : Nat) (x : RecordIn) (n : Nat) :
    (a.program false us x).slots.find? n = if n = a.next then some (recordBytes a.next us x) else a.slots.find? n :=
  SMap.find_put _ _ _ n

/-! ## The recorder's input (R468, R469) -/

/-- After a take at most one record enters CH_16 from a producer that held it. -/
theorem Recorder.admitHeld_queue (r : Recorder) : ∃ more, r.admitHeld.queue = r.queue ++ more ∧ more.length ≤ 1 := by
  unfold Recorder.admitHeld
  split
  · split
    · exact ⟨_, rfl, le_rfl⟩
    · exact ⟨[], by simp⟩
  · exact ⟨[], by simp⟩

@[simp] theorem Recorder.admitHeld_lost (r : Recorder) : r.admitHeld.lost = r.lost := by
  unfold Recorder.admitHeld
  split
  · split <;> rfl
  · rfl

@[simp] theorem Recorder.arrive_counters (x : RecordIn) (r : Recorder) : (Recorder.arrive x r).counters = r.counters := by
  unfold Recorder.arrive
  dsimp only
  repeat' split
  all_goals rfl

@[simp] theorem Recorder.arrive_lastSummary (x : RecordIn) (r : Recorder) : (Recorder.arrive x r).lastSummary = r.lastSummary := by
  unfold Recorder.arrive
  dsimp only
  repeat' split
  all_goals rfl

/-! ## RECORD_COMMIT (R468 to R470) -/

theorem exec_recordCommit (torn overrun : Bool) (s : State) :
    exec (.recordCommit ⟨torn, overrun⟩) s = .next (recordCommit torn overrun s) := rfl

/-- With nothing waiting there is nothing to commit. -/
theorem commitOldest_nil {s : State} (torn : Bool) (h : s.chip.recorder.queue = []) : commitOldest torn s = s := by
  unfold commitOldest; rw [h]

/-- What taking the oldest record leaves of the recorder's input: the rest with what a producer held, and its lost count added. -/
theorem commitOldest_cons {s : State} {x : RecordIn} {rest : List RecordIn} (torn : Bool) (h : s.chip.recorder.queue = x :: rest) :
    (commitOldest torn s).array = s.array.accept torn s.chip.us x ∧ (commitOldest torn s).pending = s.pending ∧
    Only [.recorder] s.chip (commitOldest torn s).chip ∧
    (∃ more, (commitOldest torn s).chip.recorder.queue = rest ++ more ∧ more.length ≤ 1) ∧
    (commitOldest torn s).chip.recorder.lost = satAdd 32 s.chip.recorder.lost x.lost := by
  unfold commitOldest
  rw [h]
  exact ⟨rfl, rfl, Only.modRecorder _, Recorder.admitHeld_queue _, by simp⟩

/-- A commit reaches the recorder's input, and nothing else of the device. -/
theorem commitOldest_only (torn : Bool) (s : State) : Only [.recorder] s.chip (commitOldest torn s).chip := by
  cases h : s.chip.recorder.queue with
  | nil => rw [commitOldest_nil torn h]; exact Only.refl _ _
  | cons x rest => exact (commitOldest_cons torn h).2.2.1

/-- A full CH_12 means nothing while the AQ does not run. -/
theorem Chip.channelOverrun_stopped {s : Chip} (h : s.runs 7 = false) : s.channelOverrun = s := by
  unfold Chip.channelOverrun; simp [h]

/-- An island that fails reads the failed state, in every device that has the island (R33). -/
theorem Chip.failIsland_islands (s : Chip) (i : Nat) (x : IslandState) : ∀ y, (s.failIsland i x).islands[i]? = some y → y = x := by
  intro y hy
  unfold Chip.failIsland at hy
  split at hy
  · next h =>
    unfold Chip.island at h
    rw [List.getD_eq_getElem?_getD, hy] at h
    exact h
  · rw [(Only.raise _).get .islands, (Only.record _).get .islands] at hy
    simp only [Chip.putIsland, List.getElem?_set] at hy
    split at hy
    · split at hy <;> simp_all
    · simp_all

/-- While the AQ runs, a full CH_12 faults it (R22). -/
theorem Chip.channelOverrun_running {s : Chip} (h : s.runs 7 = true) : ∀ y, s.channelOverrun.islands[7]? = some y → y = .faulted := by
  unfold Chip.channelOverrun
  rw [if_pos h]
  exact Chip.failIsland_islands _ 7 .faulted

/-! ## OVERLOAD_SUMMARY_DUE (R471) and RECORDER_READ (R473) -/

theorem exec_overloadSummaryDue (k : Fin 6) (s : State) : exec (.overloadSummaryDue k) s = next s (summaryDue k s.chip) := rfl

theorem exec_recorderRead (p : Path) (s : State) :
    exec (.recorderRead p) s = next s (hostRead p 0 0x2900 3 (readRecorder s.array) s.chip) := rfl

/-- A summary clears the counter of its category and no other. -/
theorem Chip.summary_counters (s : Chip) (cat count j : Nat) :
    (s.summary cat count).recorder.counters.get 0 j = if j = cat then 0 else s.recorder.counters.get 0 j := by
  unfold Chip.summary Chip.record Chip.recordBy
  simp [SMap.get_set]

/-- A summary notes its time. -/
theorem Chip.summary_lastSummary (s : Chip) (cat count : Nat) : (s.summary cat count).recorder.lastSummary.find? cat = some s.us := by
  unfold Chip.summary
  simp only [Chip.modRecorder_recorder, SMap.find_put, if_true]

/-- The summary of a category is due 3,600 s after the last, with a counter that is not zero. -/
theorem summaryDue_due {k : Fin 6} {s : Chip} {m : Nat} (h : s.recorder.lastSummary.find? (k.val + 1) = some m)
    (hm : m + 3600000000 ≤ s.us) (hc : s.recorder.counters.get 0 (k.val + 1) ≠ 0) :
    summaryDue k s = s.summary (k.val + 1) (s.recorder.counters.get 0 (k.val + 1)) := by
  unfold summaryDue
  simp only [h]
  exact if_pos ⟨hm, hc⟩

theorem summaryDue_never {k : Fin 6} {s : Chip} (h : s.recorder.lastSummary.find? (k.val + 1) = none) : summaryDue k s = s := by
  unfold summaryDue; simp only [h]

theorem summaryDue_zero {k : Fin 6} {s : Chip} (h : s.recorder.counters.get 0 (k.val + 1) = 0) : summaryDue k s = s := by
  unfold summaryDue
  dsimp only
  split
  · exact if_neg fun hn => hn.2 h
  · rfl

theorem summaryDue_early {k : Fin 6} {s : Chip} {m : Nat} (h : s.recorder.lastSummary.find? (k.val + 1) = some m)
    (hm : s.us < m + 3600000000) : summaryDue k s = s := by
  unfold summaryDue
  simp only [h]
  exact if_neg fun hn => absurd hn.1 (Nat.not_le.mpr hm)

/-- The array after a commit, in each case of R470. -/
theorem RecArray.accept_rows (a : RecArray) (torn : Bool) (us : Nat) (x : RecordIn) :
    (a.next < 65472 ∨ (protectedCode x.code = true ∧ a.next < 65536) → (a.accept torn us x).next = a.next + 1 ∧
      (torn = true → (a.accept torn us x).voids = a.voids ++ [a.next] ∧ (a.accept torn us x).slots = a.slots) ∧
      (torn = false → (a.accept torn us x).voids = a.voids ∧ (a.accept torn us x).slots.find? a.next = some (recordBytes a.next us x) ∧
        (∀ n, n ≠ a.next → (a.accept torn us x).slots.find? n = a.slots.find? n))) ∧
    (65472 ≤ a.next → protectedCode x.code = true → 65536 ≤ a.next → a.accept torn us x = { a with notWritten := satAdd 32 a.notWritten 1 }) ∧
    (65472 ≤ a.next → protectedCode x.code = false → a.fullSaid = true → a.accept torn us x = { a with notWritten := satAdd 32 a.notWritten 1 }) ∧
    (65472 ≤ a.next → a.next < 65536 → protectedCode x.code = false → a.fullSaid = false → (a.accept torn us x).fullSaid = true ∧
      (a.accept torn us x).next = a.next + 1 ∧ (a.accept torn us x).slots.find? a.next = some (recordBytes a.next us fullRecord) ∧
      (a.accept torn us x).notWritten = satAdd 32 a.notWritten 1) := by
  refine ⟨fun h => ?_, fun _ hc hn => RecArray.accept_protected_full torn us hc hn, fun hn hc hs => RecArray.accept_ordinary_said torn us hn hc hs,
    fun hn hl hc hs => ?_⟩
  · rw [RecArray.accept_of_slot_left torn us h]
    refine ⟨RecArray.program_next a torn us x, ?_, ?_⟩
    · rintro rfl
      exact ⟨rfl, rfl⟩
    · rintro rfl
      exact ⟨rfl, (RecArray.find_program a us x _).trans (if_pos rfl), fun n hn => (RecArray.find_program a us x n).trans (if_neg hn)⟩
  · rw [RecArray.accept_ordinary_first torn us hn hl hc hs]
    exact ⟨rfl, rfl, (RecArray.find_program a us fullRecord _).trans (if_pos rfl), rfl⟩

/-- Settles O54: a commit takes the oldest record to the array as `RecArray.accept_rows` says, and the other clauses are the equations
of `channelOverrun`, `summaryDue` and `readRecorder`. -/
theorem recorderRows : Obligations.RecorderRows := by
  unfold Obligations.RecorderRows
  refine ⟨fun torn s h => ?_, fun torn s x rest h => ?_, fun torn s => ⟨fun h => ?_, fun h => ?_⟩, fun k s => ⟨fun m hf hm hc => ?_, ?_, fun m hf hm => ?_⟩,
    fun p s r c pos n h hpos hn => ?_⟩
  · exact congrArg Host.Outcome.next (commitOldest_nil torn h)
  · obtain ⟨ha, hp, ho, ⟨more, hq, hm⟩, hl⟩ := commitOldest_cons torn h
    refine ⟨commitOldest torn s, more, rfl, hq, hm, hl, ho, hp, ?_⟩
    rw [ha]
    exact RecArray.accept_rows s.array torn s.chip.us x
  · simp only [exec_recordCommit, recordCommit, Chip.channelOverrun_stopped h]
    rfl
  · refine ⟨_, rfl, fun y hy => Chip.channelOverrun_running h y ?_⟩
    rw [← (commitOldest_only torn { s with chip := s.chip.channelOverrun }).get .islands]
    exact hy
  · refine ⟨_, rfl, ?_⟩
    simp only [summaryDue_due hf hm hc]
    exact ⟨(Chip.summary_counters _ _ _ _).trans (if_pos rfl), Chip.summary_lastSummary _ _ _, fun j hj => (Chip.summary_counters _ _ _ j).trans (if_neg hj),
      Within.ofChip (Only.summary _)⟩
  · rintro (hf | hc)
    · rw [exec_overloadSummaryDue, summaryDue_never hf]; rfl
    · rw [exec_overloadSummaryDue, summaryDue_zero hc]; rfl
  · rw [exec_overloadSummaryDue, summaryDue_early hf hm]; rfl
  · subst hpos hn
    rw [exec_recorderRead, hostRead_reaches h]
    rfl

end Sys2Proof.Machine
end

section
/-! SUPPORT. The steps of a host write up to its owner (R31): what each of them leaves, and what a write that reaches its owner
has passed. -/

namespace Sys2Proof.Machine

/-! ## Sessions after a change of one -/

/-- The value of a key that is present. -/
theorem SMap.get_of_find {α : Type} {m : SMap α} {k : Nat} {v : α} (d : α) (h : SMap.find? m k = some v) : SMap.get m d k = v := by
  induction m with
  | nil => simp [SMap.find?] at h
  | cons e m ih =>
    simp only [SMap.find?, SMap.get] at h ⊢
    split
    · next hk => rw [if_pos hk] at h; exact Option.some.inj h
    · next hk => rw [if_neg hk] at h; exact ih h

/-- An open session after a change of it. -/
theorem Chip.find_modSession {s : Chip} {n : Nat} {x : Session} (f : Session → Session) (h : SMap.find? s.host.sessions n = some x) :
    SMap.find? (s.modSession n f).host.sessions n = some (f x) := by
  unfold Chip.modSession
  simp only [Chip.modHost_host, h, SMap.find_put, if_true]

/-- A session's selectors are those of its entry in the session table. -/
theorem Chip.sel_of_find {s : Chip} {n : Nat} {x : Session} (h : SMap.find? s.host.sessions n = some x) (idx sub : Nat) :
    s.sel n idx sub = x.selectors.get 0 (256 * idx + sub) := by
  unfold Chip.sel; rw [h]

/-- The digest of a write depends on the target's object and the session's selectors only (R127). -/
theorem Chip.digestOf_congr {a b : Chip} {t u : Target} {x y : Session} (payload : Bytes) (hi : u.index = t.index) (hs : u.sub = t.sub)
    (ha : SMap.find? a.host.sessions t.session = some x) (hb : SMap.find? b.host.sessions u.session = some y) (hxy : y.selectors = x.selectors) :
    b.digestOf u payload = a.digestOf t payload := by
  unfold Chip.digestOf
  rw [Chip.sel_of_find ha, Chip.sel_of_find hb, hi, hs, hxy]

/-! ## Step 1: arrival -/

/-- A session after a request of its client on a bus arrived (R118, R121). -/
def Session.touched (now : Nat) (b : Bus) (x : Session) : Session := { x with lastReq := now, bus := b }

/-- The target of a CAN request. -/
def Chip.canTarget (s : Chip) (b : Bus) (client : BitVec 7) (tag : Word16) (idx sub : Nat) : Target :=
  { path := .can b client, index := idx, sub := sub, session := s.sessionAt (.can b client), tag := tag
    serial := (SMap.get s.host.sessions {} (s.sessionAt (.can b client))).serial }

/-- A CAN request arrives where the HI is online and its bus serves (R74, R109, R110). -/
theorem Chip.arrive_can {s : Chip} {b : Bus} {client : BitVec 7} (tag : Word16) (idx sub : Nat) (ho : s.host.online = true) (hb : s.onBus b = true)
    (hn : s.host.nmt ≠ .stopped) : s.arrive (.can b client) tag idx sub =
      (s.modSession (s.sessionAt (.can b client)) (Session.touched s.clk.ticks b), some (s.canTarget b client tag idx sub)) := by
  unfold Chip.arrive
  rw [if_neg (by simp [ho])]
  exact if_neg (by simp [hb, hn])

/-- A request that arrived: only the host island has changed, and its target says where it came from. -/
theorem Chip.arrive_some {s c : Chip} {p : Path} {tag : Word16} {idx sub : Nat} {t : Target} (h : s.arrive p tag idx sub = (c, some t)) :
    Only [.host] s c ∧ s.host.online = true ∧ t.path = p ∧ t.index = idx ∧ t.sub = sub := by
  unfold Chip.arrive at h
  split at h
  · cases h
  · next ho =>
    have ho : s.host.online = true := by simpa using ho
    dsimp only at h
    split at h
    · split at h
      · cases h
      · cases h
        exact ⟨Only.modSession _, ho, rfl, rfl, rfl⟩
    · split at h
      · cases h
      · cases h
        exact ⟨(Only.modSpi _).comp (Only.modSession _), ho, rfl, rfl, rfl⟩

/-! ## Step 4: the tag and the ledger -/

/-- A session after its staged tag was used up (R126). -/
def Session.unstaged (x : Session) : Session := { x with staged := none }

/-- A session with an entry opened for a request in progress (R128, R131). -/
def Session.opened (tag : Word16) (digest : Bytes) (idx sub : Nat) (x : Session) : Session :=
  { x with busy := true, lastTag := tag
           ledger := { tag := tag, digest := digest, index := idx, sub := sub, inProgress := true } :: x.ledger }

/-- A new tag of a session with no request in progress opens an entry (R128). -/
theorem Chip.ledgerLookup_opens {s : Chip} {t : Target} {x : Session} (payload : Bytes) (hl : ∀ e ∈ x.ledger, e.tag ≠ t.tag) (hb : x.busy = false) :
    s.ledgerLookup t x payload = .inr (t, s.modSession t.session (Session.opened t.tag (s.digestOf t payload) t.index t.sub)) := by
  have hf : (x.ledger.find? fun e => e.tag == t.tag) = none := List.find?_eq_none.mpr fun e he => by simpa using hl e he
  unfold Chip.ledgerLookup
  rw [hf]
  exact if_neg (by simp [hb])

/-- A CAN write with a staged tag that its ledger does not hold uses the tag up and opens an entry (R126, R128). -/
theorem Chip.ledgerStep_can {s : Chip} {t : Target} {x : Session} {b : Bus} {client : BitVec 7} {tag : Word16} (payload : Bytes)
    (hp : t.path = .can b client) (hs : x.staged = some tag) (hl : ∀ e ∈ x.ledger, e.tag ≠ tag) (hb : x.busy = false) :
    s.ledgerStep t x payload = .inr ({ t with tag := tag }, (s.modSession t.session Session.unstaged).modSession t.session
      (Session.opened tag ((s.modSession t.session Session.unstaged).digestOf { t with tag := tag } payload) t.index t.sub)) := by
  have hu : s.unstage t = s.modSession t.session Session.unstaged := by unfold Chip.unstage; rw [hp]; rfl
  have ht : t.stagedTag x = some tag := by unfold Target.stagedTag; rw [hp]; exact hs
  unfold Chip.ledgerStep
  rw [ht, hu]
  exact Chip.ledgerLookup_opens (t := { t with tag := tag }) payload hl hb

/-- A ledger step that lets a write through changes only its session, and sets only the target's tag. -/
theorem Chip.ledgerStep_inr {s c : Chip} {t u : Target} {x : Session} {payload : Bytes} (h : s.ledgerStep t x payload = .inr (u, c)) :
    Only [.host] s c ∧ ∃ tag, u = { t with tag := tag } := by
  unfold Chip.ledgerStep at h
  split at h
  · cases h
  · next tag _ =>
    unfold Chip.ledgerLookup at h
    split at h
    · split at h
      · cases h
      · split at h <;> cases h
    · split at h
      · cases h
      · cases h
        exact ⟨(Only.unstage _).comp (Only.modSession _), tag, rfl⟩

/-- Step 4 lets a write through, with a tag or exempt from one, with no change but of its session and of the target's tag. -/
theorem Chip.tagStep_inr {s c : Chip} {t u : Target} {x : Session} {payload : Bytes}
    (h : (if t.tagged then s.ledgerStep t x payload else .inr (t, s)) = .inr (u, c)) : Only [.host] s c ∧ ∃ tag, u = { t with tag := tag } := by
  split at h
  · exact Chip.ledgerStep_inr h
  · cases h; exact ⟨Only.refl _ _, t.tag, rfl⟩

/-! ## Step 6: the owner serves -/

/-- The owner of an object serves a write: none of R74, R136, R164, R390 and R484 turns it away. -/
def Chip.OwnerServes (s : Chip) (idx sub : Nat) (row : ObjRow) : Prop :=
  s.unserved idx sub = false ∧ s.availability (ownerOf idx sub) (sourceOf idx sub row) true (s.unitFaulted (ownerOf idx sub)) = 0 ∧
  s.reseatCode idx sub = 0 ∧ s.partitionStopped idx sub = false ∧ (ownerOf idx sub = 2 → s.ci.halted = false)

/-- A write reaches an owner that serves. -/
theorem Chip.dispatch_serves {s : Chip} {t : Target} {row : ObjRow} (l : Level) (payload : Bytes) (h : s.OwnerServes t.index t.sub row) :
    s.dispatch t l payload row = .go ⟨t, l⟩ s := by
  obtain ⟨hu, ha, hr, hp, hh⟩ := h
  unfold Chip.dispatch
  simp only [hu, ha, hp, hr, Bool.false_eq_true, if_false]
  rw [if_neg (by decide), if_neg (by simp), if_neg (by rintro ⟨h2, hc⟩; rw [hh h2] at hc; cases hc)]

/-- A write that reaches its owner does so unchanged. -/
theorem Chip.dispatch_go {s c : Chip} {t : Target} {l : Level} {payload : Bytes} {row : ObjRow} {r : Req} (h : s.dispatch t l payload row = .go r c) :
    r = ⟨t, l⟩ ∧ c = s := by
  unfold Chip.dispatch at h
  dsimp only at h
  generalize (if s.unserved t.index t.sub = true then _ else _ : Nat) = code at h
  split at h
  · cases h
  · split at h
    · cases h
    · split at h
      · split at h <;> cases h
      · cases h; exact ⟨rfl, rfl⟩


/-! ## The steps together -/

/-- A tagged CAN write that meets every condition of steps 1 to 4, of the size check of step 5 and of its owner at step 6 (R31): its
client holds session `x`, its object the row `row`, and its staged tag is `tag`. -/
structure TaggedCanWrite (s : Chip) (b : Bus) (client : BitVec 7) (idx sub : Nat) (payload : Bytes) (x : Session) (row : ObjRow) (tag : Word16) : Prop where
  online : s.host.online = true
  onBus : s.onBus b = true
  nmt : s.host.nmt ≠ .stopped
  session : s.sessionAt (.can b client) ≠ 0
  found : SMap.find? s.host.sessions (s.sessionAt (.can b client)) = some x
  free : x.busy = false
  staged : x.staged = some tag
  fresh : ∀ e ∈ x.ledger, e.tag ≠ tag
  object : lookup idx sub = .found row
  level : accessCode row.access x.level = 0
  needsTag : tagExempt idx row = false
  size : row.size.ok payload.length = true
  limit : payload.length ≤ 65536
  serves : s.OwnerServes idx sub row

/-- The target of a tagged CAN write at its owner. -/
def Chip.taggedTarget (s : Chip) (b : Bus) (client : BitVec 7) (tag : Word16) (idx sub : Nat) : Target :=
  { s.canTarget b client tag idx sub with tagged := true }

/-- The device once a tagged CAN write has passed step 4: its session's last request is now, its tag is used up, and its entry is open. -/
def Chip.withOpened (s : Chip) (b : Bus) (t : Target) (payload : Bytes) : Chip :=
  ((s.modSession t.session (Session.touched s.clk.ticks b)).modSession t.session Session.unstaged).modSession t.session
    (Session.opened t.tag (s.digestOf t payload) t.index t.sub)

/-- Up to its owner a tagged CAN write changes the host island only. -/
theorem Chip.withOpened_only (s : Chip) (b : Bus) (t : Target) (payload : Bytes) : Only [.host] s (s.withOpened b t payload) :=
  ((Only.modSession _).comp (Only.modSession _)).comp (Only.modSession _)

/-- The session of a tagged CAN write at its owner. -/
theorem Chip.find_withOpened {s : Chip} {b : Bus} {t : Target} {x : Session} (payload : Bytes) (h : SMap.find? s.host.sessions t.session = some x) :
    SMap.find? (s.withOpened b t payload).host.sessions t.session =
      some ((x.touched s.clk.ticks b).unstaged.opened t.tag (s.digestOf t payload) t.index t.sub) :=
  Chip.find_modSession _ (Chip.find_modSession _ (Chip.find_modSession _ h))

/-- The tag of a write is used up and its entry opened whatever its value: the check of step 5 then decides whether it reaches
its owner. -/
theorem gate_taggedCanWrite {s : Chip} {b : Bus} {client : BitVec 7} {idx sub : Nat} {payload : Bytes} {x : Session} {row : ObjRow} {tag : Word16}
    (h : TaggedCanWrite s b client idx sub payload x row tag) (chk : Req → Chip → Nat) :
    gate (.can b client) 0 idx sub payload chk s =
      let t := s.taggedTarget b client tag idx sub
      let c := s.withOpened b t payload
      if chk ⟨t, x.level⟩ c ≠ 0 then .stop (c.refuseOpened t (chk ⟨t, x.level⟩ c) 0) else .go ⟨t, x.level⟩ c := by
  have hx := Chip.find_modSession (Session.touched s.clk.ticks b) h.found
  have hl : (s.modSession (s.sessionAt (.can b client)) (Session.touched s.clk.ticks b)).ledgerStep
      { s.canTarget b client 0 idx sub with tagged := true } (x.touched s.clk.ticks b) payload =
        .inr (s.taggedTarget b client tag idx sub, s.withOpened b (s.taggedTarget b client tag idx sub) payload) := by
    have hd := Chip.digestOf_congr (u := s.taggedTarget b client tag idx sub) payload rfl rfl h.found (Chip.find_modSession Session.unstaged hx) rfl
    refine (Chip.ledgerStep_can (t := { s.canTarget b client 0 idx sub with tagged := true }) (b := b) (client := client) payload rfl h.staged h.fresh h.free).trans ?_
    unfold Chip.withOpened
    rw [← hd]
    rfl
  have hg : SMap.get (s.modSession (s.sessionAt (.can b client)) (Session.touched s.clk.ticks b)).host.sessions {}
      (s.canTarget b client 0 idx sub).session = x.touched s.clk.ticks b := SMap.get_of_find {} hx
  have hn : (s.canTarget b client 0 idx sub).session ≠ 0 := h.session
  have hlev : accessCode row.access (x.touched s.clk.ticks b).level = 0 := h.level
  have hsize : ¬(row.size.ok payload.length = false ∨ pathLimit (.can b client) < payload.length) := by
    rintro (hz | hz)
    · rw [h.size] at hz; cases hz
    · exact absurd h.limit (Nat.not_le.mpr hz)
  have hs := Chip.dispatch_serves (s := s.withOpened b (s.taggedTarget b client tag idx sub) payload)
    (t := s.taggedTarget b client tag idx sub) (x.touched s.clk.ticks b).level payload h.serves
  unfold gate
  rw [Chip.arrive_can 0 idx sub h.online h.onBus h.nmt]
  simp only [hn, false_and, if_false, h.object, hg, hlev, h.needsTag, ne_eq, not_true, Bool.not_false, if_true, hl, if_neg hsize, hs]
  rfl

/-- What a write that reaches its owner has passed (R31, steps 1 to 6). -/
theorem gate_go {p : Path} {tag : Word16} {idx sub : Nat} {payload : Bytes} {chk : Req → Chip → Nat} {s c : Chip} {r : Req}
    (h : gate p tag idx sub payload chk s = .go r c) :
    Only [.host] s c ∧ s.host.online = true ∧ chk r c = 0 ∧ payload.length ≤ pathLimit p ∧
    r.dest.path = p ∧ r.dest.index = idx ∧ r.dest.sub = sub ∧
    (r.dest.session ≠ 0 ∨ (idx = 0x2200 ∧ (sub = 0x02 ∨ sub = 0x10))) ∧
    ∃ row, lookup idx sub = .found row ∧ accessCode row.access r.level = 0 ∧ row.size.ok payload.length = true ∧
      r.dest.tagged = !tagExempt idx row := by
  unfold gate at h
  generalize ha : s.arrive p tag idx sub = a at h
  obtain ⟨a, ot⟩ := a
  cases ot with
  | none => cases h
  | some t =>
    obtain ⟨hoa, hon, hp, hi, hj⟩ := Chip.arrive_some ha
    dsimp only at h
    split at h
    · cases h
    next hses =>
    split at h
    · cases h
    · cases h
    next row hrow =>
    split at h
    · cases h
    next hacc =>
    split at h
    · cases h
    next u d hstep =>
    obtain ⟨hod, tag', rfl⟩ := Chip.tagStep_inr (t := { t with tagged := !tagExempt idx row }) hstep
    split at h
    · rw [if_pos (by decide)] at h; cases h
    next hsize =>
    split at h
    · cases h
    next hchk =>
    obtain ⟨rfl, rfl⟩ := Chip.dispatch_go h
    rw [not_or, Bool.not_eq_false] at hsize
    exact ⟨hoa.comp hod, hon, not_not.mp hchk, Nat.not_lt.mp hsize.2, hp, hi, hj, by tauto, row, hrow, not_not.mp hacc, hsize.1, rfl⟩

/-- Settles O10: with every condition met `gate_taggedCanWrite` says how a tagged write comes to its owner, and `gate_go` what any write
that reaches its owner has passed. -/
theorem gateSteps : Obligations.GateSteps := by
  unfold Obligations.GateSteps
  refine ⟨fun b client idx sub payload chk s x row tag => ?_, fun p tag idx sub payload chk s c r h => gate_go h⟩
  intro n hon hbus hnmt hn hfind hbusy hstaged hfresh hrow hacc hex hsize hlim hun hav hre hpart hci
  have hw : TaggedCanWrite s b client idx sub payload x row tag :=
    ⟨hon, hbus, hnmt, hn, hfind, hbusy, hstaged, hfresh, hrow, hacc, hex, hsize, hlim, hun, hav, hre, hpart, hci⟩
  refine ⟨s.taggedTarget b client tag idx sub, s.withOpened b (s.taggedTarget b client tag idx sub) payload, rfl, rfl, rfl, rfl, rfl, rfl,
    Chip.withOpened_only _ _ _ _, Chip.find_withOpened payload hfind, fun hc => ?_, fun hc => ?_⟩
  · rw [gate_taggedCanWrite hw]; exact if_neg (not_not.mpr hc)
  · rw [gate_taggedCanWrite hw]; exact if_pos hc

end Sys2Proof.Machine
end

section
/-! SUPPORT. What the operations reach that bring a sequencer back to idle: DRAM requests, lanes, barriers, waiting keys and answers. -/

namespace Sys2Proof.Machine

/-! ## What the operations that release a sequencer reach -/

theorem Only.dramPut {r} (s : Chip) : Only [.dram] s (s.dramPut r) := by
  unfold Chip.dramPut Chip.dramAccept
  exact Only.ite (Only.modDram s) (Only.modDramCh s)

theorem Only.dramAdmit (s : Chip) : Only [.dram] s s.dramAdmit := (Only.modDram s).comp (Only.foldl _ (fun s _ => Only.dramPut s) _ _)

/-- Cancelling DRAM requests reaches the DRAM only. -/
theorem Only.dramCancel {f} (s : Chip) : Only [.dram] s (s.dramCancel f) := (Only.modDram s).comp (Only.dramAdmit _)

theorem Only.clearRing {q} (s : Chip) : Only [.dram, .seqs] s (s.clearRing q) :=
  ((Only.dramCancel s).mono (by simp)).comp ((Only.modSq _).mono (by simp))

theorem Only.eachLane {l f} (s : Chip) : Only [.lanes] s (s.eachLane l f) := Only.foldl _ (fun s _ => Only.modLane s) _ _

theorem Only.coverLanes {l} (s : Chip) : Only [.lanes] s (s.coverLanes l) := Only.foldl _ (fun s _ => Only.modLane s) _ _

/-- The hold vectors of a wait reach its sequencer and its lanes only. -/
theorem Only.emitHolds {q n} (s : Chip) : Only [.lanes, .seqs] s (s.emitHolds q n) := by
  unfold Chip.emitHolds
  exact Only.ite (Only.refl s _) (((Only.eachLane s).mono (by simp)).comp ((Only.modSq _).mono (by simp)))

theorem Only.resume {q due} (s : Chip) : Only [.lanes, .seqs] s (s.resume q due) :=
  ((Only.emitHolds s).comp ((Only.modSq _).mono (by simp))).comp ((Only.modSq _).mono (by simp))

theorem Only.releaseBarrier {b due} (s : Chip) : Only [.lanes, .seqs] s (s.releaseBarrier b due) :=
  Only.foldl _ (fun s _ => Only.ite (Only.resume s) (Only.refl s _)) _ _

theorem Only.modBarrier {b f} (s : Chip) : Only [.cluster] s (s.modBarrier b f) := Only.modCluster s

/-- A frame of the device's own reaches the link and the outputs only. -/
theorem Only.sendCluster {t d b} (s : Chip) : Only [.cluster, .out] s (s.sendCluster t d b) := Only.handFrame s

/-- The parts that a barrier reaches: its sequencers with their lanes, the link with its frames, and the recorder's input. -/
def barrierParts : List Part := [.lanes, .seqs, .cluster, .out, .recorder]

theorem Only.completeBarrier {b} (s : Chip) : Only barrierParts s (s.completeBarrier b) := by
  unfold Chip.completeBarrier
  refine Only.ite (Only.refl s _) (Only.ite (Only.ite (Only.refl s _) ?_) (Only.ite ((Only.modBarrier s).mono (by decide)) ?_))
  · exact ((Only.modBarrier s).mono (by decide)).comp ((Only.record _).mono (by decide))
  · exact (((Only.sendCluster s).mono (by decide)).comp ((Only.modBarrier _).mono (by decide))).comp ((Only.releaseBarrier _).mono (by decide))

theorem Only.putArrival {b a} (s : Chip) : Only barrierParts s (s.putArrival b a) :=
  ((Only.modBarrier s).mono (by decide)).comp (Only.completeBarrier _)

theorem Only.sendArrive {b w} (s : Chip) : Only barrierParts s (s.sendArrive b w) := by
  unfold Chip.sendArrive
  dsimp only
  generalize hu : Chip.modBarrier b _ s = u
  have hsu : Only barrierParts s u := hu ▸ (Only.modBarrier s).mono (by decide)
  refine hsu.comp ?_
  refine Only.ite (Only.putArrival _) (Only.ite ((Only.sendCluster _).mono (by decide)) (Only.ite (Only.refl _ _) ?_))
  exact ((Only.modBarrier _).mono (by decide)).comp ((Only.modCluster _).mono (by decide))

theorem Only.evalBarrier {l b} (s : Chip) : Only barrierParts s (s.evalBarrier l b) := by
  unfold Chip.evalBarrier
  dsimp only
  refine Only.ite (Only.ite ((Only.releaseBarrier s).mono (by decide)) (Only.refl s _)) (Only.ite ?_ (Only.ite (Only.sendArrive s) (Only.refl s _)))
  split
  · exact Only.ite (Only.sendArrive s) (Only.refl s _)
  · exact Only.refl s _

theorem Only.leaveBarriers {q} (s : Chip) : Only barrierParts s (s.leaveBarriers q) :=
  ((Only.modSq s).mono (by decide)).comp (Only.foldl _ (fun s _ => Only.evalBarrier s) _ _)

theorem Only.freeBlock (s : Chip) : Only [.free, .boot] s s.freeBlock :=
  ((Only.drawBool s).mono (by simp)).comp ((Only.modBoot _).mono (by simp))

theorem Only.journalEmptied {o k} (s : Chip) : Only [.pair] s (s.journalEmptied o k) := by
  unfold Chip.journalEmptied
  exact Only.ite (Only.refl s _) (Only.journal s)

/-- A destroyed key reaches the key store, a flash block and the replication journal only. -/
theorem Only.destroyKey {k} (s : Chip) : Only [.keys, .free, .boot, .pair] s (s.destroyKey k) :=
  (((Only.modKeys s).mono (by simp)).comp ((Only.freeBlock _).mono (by simp))).comp ((Only.journalEmptied _).mono (by simp))

theorem Only.expire {k} (s : Chip) : Only [.keys, .free, .boot, .pair, .recorder] s (s.expire k) :=
  ((Only.destroyKey s).mono (by simp)).comp ((Only.record _).mono (by simp))

theorem Only.destroyWaiting (s : Chip) : Only [.keys, .free, .boot, .pair, .recorder] s s.destroyWaiting :=
  Only.foldl _ (fun s _ => Only.expire s) _ _

/-- The parts that a sequencer's return to idle reaches: its own, those of its barriers, its answer, and the keys that waited for it. -/
def idleParts : List Part := [.dram, .host, .pair, .keys, .free, .boot] ++ barrierParts

theorem Only.makeIdle {q c} (s : Chip) : Only idleParts s (s.makeIdle q c) :=
  ((((((Only.clearRing s).mono (by decide)).comp ((Only.completeOpt _).mono (by decide))).comp ((Only.modSq _).mono (by decide))).comp
    ((Only.coverLanes _).mono (by decide))).comp ((Only.leaveBarriers _).mono (by decide))).comp ((Only.destroyWaiting _).mono (by decide))

theorem Only.completeRead {t c d} (s : Chip) : Only [.host, .out] s (s.completeRead t c d) := by
  unfold Chip.completeRead
  exact Only.ite (Only.sendRead s) (Only.ite (((Only.modOwn s).mono (by simp)).comp (Only.sendRead _)) ((Only.freeEntry s).mono (by simp)))

end Sys2Proof.Machine
end

section
/-! SUPPORT. The conductor's partitions and their watchdog slots: what a stop and an access fault reach, accesses and check-ins
(R20, R164, R448 to R451), and the begin of a restart (R454). -/

namespace Sys2Proof.Machine

/-! ## Partitions and their slots (R447) -/

/-- A partition is unchanged where the conductor is. -/
theorem Only.part {a b : Chip} {ps : List Part} (h : Only ps a b) (hp : Part.ci ∉ ps := by decide) (p : Nat) : b.part p = a.part p := by
  have := h .ci hp; unfold Chip.part; rw [this]

/-- A watchdog with other slots, the same as before where `keep` holds. -/
def Watchdog.SlotsMoved (keep : Nat → Prop) (a b : Watchdog) : Prop :=
  ∃ m : SMap Slot, b = { a with slots := m } ∧ ∀ i, keep i → m.get {} i = a.slots.get {} i

theorem Watchdog.SlotsMoved.refl (keep : Nat → Prop) (a : Watchdog) : Watchdog.SlotsMoved keep a a := ⟨a.slots, rfl, fun _ _ => rfl⟩

theorem Watchdog.SlotsMoved.trans {keep : Nat → Prop} {a b c : Watchdog} (h : Watchdog.SlotsMoved keep a b) (k : Watchdog.SlotsMoved keep b c) :
    Watchdog.SlotsMoved keep a c := by
  obtain ⟨m, rfl, hm⟩ := h
  obtain ⟨n, rfl, hn⟩ := k
  exact ⟨n, rfl, fun i hi => (hn i hi).trans (hm i hi)⟩

theorem Watchdog.SlotsMoved.mono {keep keep' : Nat → Prop} {a b : Watchdog} (h : Watchdog.SlotsMoved keep a b) (k : ∀ i, keep' i → keep i) :
    Watchdog.SlotsMoved keep' a b := by
  obtain ⟨m, hb, hm⟩ := h
  exact ⟨m, hb, fun i hi => hm i (k i hi)⟩

theorem Only.modSlots {p f} (s : Chip) : Only [.watchdog] s (s.modSlots p f) := Only.foldl _ (fun s _ => Only.modWatchdog s) _ _

/-- Changing the slots of a list leaves every other slot. -/
theorem slotsMoved_foldl (f : Nat → Slot → Slot) (l : List Nat) (s : Chip) :
    Watchdog.SlotsMoved (· ∉ l) s.watchdog
      (l.foldl (fun t i => t.modWatchdog fun w => { w with slots := w.slots.upd {} i (f i) }) s).watchdog := by
  induction l generalizing s with
  | nil => exact Watchdog.SlotsMoved.refl _ _
  | cons j l ih =>
    have h : Watchdog.SlotsMoved (· ∉ j :: l) s.watchdog (s.modWatchdog fun w => { w with slots := w.slots.upd {} j (f j) }).watchdog :=
      ⟨_, rfl, fun i hi => (SMap.get_upd _ _ j i _).trans (if_neg fun e : i = j => hi (e ▸ List.mem_cons_self))⟩
    exact h.trans ((ih _).mono fun i hi hm => hi (List.mem_cons_of_mem _ hm))

/-- A partition's slots are those it owns. -/
theorem Chip.modSlots_slots (s : Chip) (p : Nat) (f : Slot → Slot) :
    Watchdog.SlotsMoved (fun i => s.slotOwner i ≠ some p) s.watchdog (s.modSlots p f).watchdog := by
  refine (slotsMoved_foldl (fun _ x => f { x with owner := BitVec.ofNat 8 p }) (s.slotsOf p) s).mono fun i hi hm => hi ?_
  simpa using (List.mem_filter.mp hm).2

/-- Which partition owns a slot follows from the descriptors of the present partitions (R447). -/
theorem Chip.slotOwner_congr {a b : Chip} (h : ∀ p, (b.part p).present = (a.part p).present ∧ (b.part p).desc = (a.part p).desc) (i : Nat) :
    b.slotOwner i = a.slotOwner i := by
  unfold Chip.slotOwner
  simp only [(h _).1, (h _).2]

/-! ## A partition stops (R164, R454) -/

theorem Only.stopPartition {p} (s : Chip) : Only [.ci, .watchdog] s (s.stopPartition p) :=
  ((Only.modPart s).mono (by simp)).comp ((Only.modSlots _).mono (by simp))

/-- A stopped partition no longer runs, and no other is touched. -/
theorem Chip.part_stopPartition (s : Chip) (p q : Nat) :
    (s.stopPartition p).part q = if q = p then { s.part p with running := false } else s.part q :=
  ((Only.modSlots _).part (p := q)).trans (Chip.part_modPart s p q _)

theorem Chip.stopPartition_tcsram (s : Chip) (p : Nat) : (s.stopPartition p).ci.tcsram = s.ci.tcsram := by
  unfold Chip.stopPartition
  rw [(Only.modSlots _).get .ci]
  rfl

theorem Chip.slotOwner_stopPartition (s : Chip) (p i : Nat) : (s.stopPartition p).slotOwner i = s.slotOwner i := by
  refine Chip.slotOwner_congr (fun q => ?_) i
  rw [Chip.part_stopPartition]
  split
  · next h => subst h; exact ⟨rfl, rfl⟩
  · exact ⟨rfl, rfl⟩

/-- A partition that stops touches its own slots. -/
theorem Chip.stopPartition_slots (s : Chip) (p : Nat) :
    Watchdog.SlotsMoved (fun i => s.slotOwner i ≠ some p) s.watchdog (s.stopPartition p).watchdog := by
  refine (Chip.modSlots_slots (s.modPart p fun x => { x with running := false }) p _).mono fun i hi => ?_
  rwa [Chip.slotOwner_congr (a := s) (fun q => ?_) i]
  rw [Chip.part_modPart]
  split
  · next h => subst h; exact ⟨rfl, rfl⟩
  · exact ⟨rfl, rfl⟩

/-- A running partition stopped by an access fault: the watchdog holds it for the end of the period, and the slots of the others, the
other partitions and the memory stay (R164, R453). -/
structure FaultStopped (p : Nat) (a b : Chip) : Prop where
  stopped : (b.part p).running = false
  noted : p ∈ b.watchdog.stopped
  others : ∀ q, q ≠ p → b.part q = a.part q
  memory : b.ci.tcsram = a.ci.tcsram
  slots : ∀ i, a.slotOwner i ≠ some p → b.watchdog.slots.get {} i = a.watchdog.slots.get {} i
  frame : Only [.ci, .watchdog, .recorder] a b

theorem Chip.accessFault_stops {s : Chip} {p : Nat} (h : (s.part p).running = true) : FaultStopped p s (s.accessFault p) := by
  unfold Chip.accessFault
  rw [if_neg (by simp [h])]
  dsimp only
  have hu : Only [.watchdog] (s.stopPartition p) ((s.stopPartition p).modSlots p fun x => { x with state := .inactive }) := Only.modSlots _
  have hw := (Chip.stopPartition_slots s p).trans
    ((Chip.modSlots_slots (s.stopPartition p) p fun x => { x with state := .inactive }).mono fun i hi => by rwa [Chip.slotOwner_stopPartition])
  generalize (s.stopPartition p).modSlots p _ = u at hu hw
  have hp : ∀ q, u.part q = if q = p then { s.part p with running := false } else s.part q := fun q => by rw [hu.part, Chip.part_stopPartition]
  have hr := Only.record (c := 0x2001) (i := 2) (d := le 1 p ++ le 1 1) (u := p) u
  refine ⟨?_, List.mem_append_right _ (List.mem_singleton_self p), fun q hq => ?_, ?_, fun i hi => ?_, ?_⟩
  · exact congrArg Partition.running ((hp p).trans (if_pos rfl))
  · exact (hp q).trans (if_neg hq)
  · exact (congrArg Conductor.tcsram (hu .ci (by decide))).trans (Chip.stopPartition_tcsram s p)
  · obtain ⟨m, hm, hk⟩ := hw
    exact (congrArg (fun w : Watchdog => w.slots.get {} i) hm).trans (hk i hi)
  · exact ((((Only.stopPartition s).mono (by simp)).comp (hu.mono (by simp))).comp (hr.mono (by simp))).comp ((Only.modWatchdog _).mono (by simp))

/-- A record before the fault changes nothing of what it stops. -/
theorem FaultStopped.after_record {p : Nat} {a u b : Chip} (h : Only [.recorder] a u) (k : FaultStopped p u b) : FaultStopped p a b := by
  refine ⟨k.stopped, k.noted, fun q hq => ?_, ?_, fun i hi => ?_, (h.mono (by simp)).comp k.frame⟩
  · rw [← h.part]; exact k.others q hq
  · rw [← h.get .ci]; exact k.memory
  · rw [← h.get .watchdog]
    exact k.slots i (by rwa [Chip.slotOwner_congr (a := a) fun q => by rw [h.part]; exact ⟨rfl, rfl⟩])

/-! ## CONDUCTOR_ACCESS_FAULT (R20, R164) -/

theorem exec_conductorAccessFault (m : Island) (p : Option (Fin 8)) (k : AccessKind) (a : Word32) (len : Nat) (s : State) :
    exec (.conductorAccessFault m p k a len) s = next s (conductorAccess m p k a.toNat len s.chip) := rfl

/-- A master outside the partitions: an access within the map changes nothing. -/
theorem conductorAccess_map_allowed {m : Island} {k : AccessKind} {a len : Nat} {s : Chip} (h : firstForbidden s.mapRights k a len = none) :
    conductorAccess m none k a len s = s := by
  unfold conductorAccess; simp only [h]

/-- A master outside the partitions: a forbidden access is recorded. -/
theorem conductorAccess_map_refused {m : Island} {k : AccessKind} {a len x : Nat} {s : Chip} (h : firstForbidden s.mapRights k a len = some x) :
    conductorAccess m none k a len s = s.accessRefused (islandNo m) x 0 (kindCode k) := by
  unfold conductorAccess; simp only [h]

/-- A partition's access within its rights changes nothing, and one of a partition that does not run does not occur. -/
theorem conductorAccess_partition_still {m : Island} {p : Fin 8} {k : AccessKind} {a len : Nat} {s : Chip}
    (h : (s.part p.val).running = false ∨ s.runs 2 = false ∨ firstForbidden (s.partitionRights p.val) k a len = none) :
    conductorAccess m (some p) k a len s = s := by
  unfold conductorAccess
  dsimp only
  split
  · rfl
  · next hn =>
    rw [not_or] at hn
    rw [(h.resolve_left hn.1).resolve_left hn.2]

/-- A forbidden access by a running partition stops it (R164). -/
theorem conductorAccess_partition_stops {m : Island} {p : Fin 8} {k : AccessKind} {a len : Nat} {s : Chip} (hr : (s.part p.val).running = true)
    (hi : s.runs 2 = true) (hf : firstForbidden (s.partitionRights p.val) k a len ≠ none) :
    FaultStopped p.val s (conductorAccess m (some p) k a len s) := by
  obtain ⟨x, hx⟩ := Option.ne_none_iff_exists'.mp hf
  unfold conductorAccess
  simp only [hr, hi, hx, Bool.true_eq_false, or_self, if_false]
  exact FaultStopped.after_record (Only.accessRefused s) (Chip.accessFault_stops hr)

/-! ## WATCHDOG_CHECK_IN (R448, R451) -/

theorem exec_watchdogCheckIn (p : Fin 8) (i : Fin 16) (v : Word32) (s : State) :
    exec (.watchdogCheckIn p i v) s = next s (checkIn p.val i.val v s.chip) := rfl

/-- A partition that does not run checks in nowhere. -/
theorem checkIn_still {p i : Nat} {v : Word32} {s : Chip} (h : (s.part p).running = false ∨ s.runs 2 = false) : checkIn p i v s = s := by
  unfold checkIn; exact if_pos h

/-- A check-in at a slot of another owner stops the writer. -/
theorem checkIn_foreign {p i : Nat} {v : Word32} {s : Chip} (hr : (s.part p).running = true) (hi : s.runs 2 = true) (ho : s.slotOwner i ≠ some p) :
    FaultStopped p s (checkIn p i v s) := by
  unfold checkIn
  rw [if_neg (by simp [hr, hi]), if_pos ho]
  exact FaultStopped.after_record (Only.accessRefused s) (Chip.accessFault_stops hr)

theorem Only.tracePut {p t i v c} (s : Chip) : Only [.ci] s (s.tracePut p t i v c) := by
  unfold Chip.tracePut
  exact Only.ite (Only.modPart s) (Only.refl s _)

/-- A check-in of the owner changes its slot as `Slot.checkIn` says, and no other. -/
theorem checkIn_own {p i : Nat} {v : Word32} {s : Chip} (hr : (s.part p).running = true) (hi : s.runs 2 = true) (ho : s.slotOwner i = some p) :
    (∀ j, (checkIn p i v s).watchdog.slots.get {} j =
      if j = i then Slot.checkIn (v.toNat == s.watchdog.number % 65536) s.inClosed (s.watchdog.slots.get {} i) else s.watchdog.slots.get {} j) ∧
    Only [.ci, .watchdog] s (checkIn p i v s) := by
  unfold checkIn
  rw [if_neg (by simp [hr, hi]), if_neg (by simp [ho])]
  dsimp only
  have hu : Only [.ci] s (if s.traceOn 3 then s.tracePut p 0x07 i v.toNat (max (s.part p).lastCycle s.cycles) else s) :=
    Only.ite (Only.tracePut s) (Only.refl s _)
  generalize (if s.traceOn 3 = true then _ else s) = u at hu ⊢
  have hw : u.watchdog = s.watchdog := hu .watchdog (by decide)
  have hc : u.inClosed = s.inClosed := by unfold Chip.inClosed; rw [hw, hu.get .clk]
  refine ⟨fun j => ?_, (hu.mono (by simp)).comp ((Only.modWatchdog u).mono (by simp))⟩
  rw [← hw, ← hc]
  exact SMap.get_upd _ _ i j _

theorem Slot.checkIn_bad (early : Bool) (x : Slot) : Slot.checkIn false early x = { x with bad := true } := rfl

/-- A check-in with the period's number ends grace (R449). -/
theorem Slot.checkIn_state (early : Bool) (x : Slot) : (Slot.checkIn true early x).state = if x.state = .grace then .active else x.state := by
  unfold Slot.checkIn
  cases early <;> by_cases h : x.state = .grace <;> simp [h]

@[simp] theorem Slot.checkIn_owner (valid early : Bool) (x : Slot) : (Slot.checkIn valid early x).owner = x.owner := by
  unfold Slot.checkIn
  cases valid <;> cases early <;> by_cases h : x.state = .grace <;> simp [h]

theorem Slot.checkIn_early (x : Slot) : (Slot.checkIn true true x).bad = true ∧ (Slot.checkIn true true x).early = true ∧
    (Slot.checkIn true true x).good = x.good := by
  unfold Slot.checkIn
  by_cases h : x.state = .grace <;> simp [h]

theorem Slot.checkIn_good (x : Slot) : (Slot.checkIn true false x).good = true ∧ (Slot.checkIn true false x).bad = x.bad ∧
    (Slot.checkIn true false x).early = x.early := by
  unfold Slot.checkIn
  by_cases h : x.state = .grace <;> simp [h]

/-! ## The next period, and restarts (R452 to R454) -/

theorem Only.nextPeriod (s : Chip) : Only [.watchdog] s s.nextPeriod := Only.modWatchdog s

theorem Only.noteEscalation {l p f} (s : Chip) : Only [.watchdog, .recorder] s (s.noteEscalation l p f) :=
  ((Only.record s).mono (by simp)).comp ((Only.modWatchdog _).mono (by simp))

theorem Only.islandStrike (s : Chip) : Only [.watchdog] s s.islandStrike := Only.modWatchdog s

theorem Only.clearRam {p} (s : Chip) : Only [.ci] s (s.clearRam p) := Only.modCi s

theorem Only.beginRestart {p} (s : Chip) : Only [.ci, .watchdog] s (s.beginRestart p) :=
  (((Only.stopPartition s).comp ((Only.clearRam _).mono (by simp))).comp ((Only.modPart _).mono (by simp))).comp ((Only.modWatchdog _).mono (by simp))

/-- The partition that restarts is stopped and marked, and no other is touched. -/
theorem Chip.part_beginRestart (s : Chip) (p q : Nat) : (s.beginRestart p).part q =
    if q = p then { s.part p with running := false, restarting := true, packets := [] } else s.part q := by
  have h : ∀ j, ((s.stopPartition p).clearRam p).part j = if j = p then { s.part p with running := false } else s.part j :=
    fun j => Chip.part_stopPartition s p j
  refine (Chip.part_modPart _ p q _).trans ?_
  rw [h, h, if_pos rfl]
  split <;> rfl

/-- The watchdog after a restart began: slots, this partition's strike and the count of restarts have changed. -/
theorem Chip.beginRestart_watchdog (s : Chip) (p : Nat) :
    ∃ m, (s.beginRestart p).watchdog =
      { s.watchdog with slots := m, strikes := s.watchdog.strikes.put p s.clk.ticks, restarts := satAdd 32 s.watchdog.restarts 1 } := by
  obtain ⟨m, hm, _⟩ := Chip.stopPartition_slots s p
  have hc : (((s.stopPartition p).clearRam p).modPart p fun x => { x with restarting := true, packets := [] }).clk = s.clk :=
    (Only.stopPartition s) .clk (by decide)
  refine ⟨m, ?_⟩
  unfold Chip.beginRestart
  dsimp only
  rw [Chip.modWatchdog_watchdog, hc]
  exact congrArg (fun w : Watchdog => { w with strikes := w.strikes.put p s.clk.ticks, restarts := satAdd 32 w.restarts 1 }) hm

/-- From `a` to `b` the partitions of a list began a restart: each is stopped, marked and has a strike of this time, and no other is
touched (R454). -/
structure BeganRestarts (l : List Nat) (a b : Chip) : Prop where
  frame : Only [.ci, .watchdog] a b
  number : b.watchdog.number = a.watchdog.number
  lastEsc : b.watchdog.lastEsc = a.watchdog.lastEsc
  begun : ∀ p ∈ l, (b.part p).running = false ∧ (b.part p).restarting = true ∧ b.watchdog.strikes.find? p = some a.clk.ticks
  others : ∀ p, p ∉ l → b.part p = a.part p ∧ b.watchdog.strikes.find? p = a.watchdog.strikes.find? p

theorem beganRestarts_foldl (l : List Nat) (s : Chip) : BeganRestarts l s (l.foldl (fun t p => t.beginRestart p) s) := by
  induction l generalizing s with
  | nil => exact ⟨Only.refl _ _, rfl, rfl, by simp, fun _ _ => ⟨rfl, rfl⟩⟩
  | cons x l ih =>
    have hx := Chip.part_beginRestart s x
    have hf := Only.beginRestart (p := x) s
    obtain ⟨m, hw⟩ := Chip.beginRestart_watchdog s x
    obtain ⟨hframe, hnumber, hesc, hbegun, hothers⟩ := ih (s.beginRestart x)
    have hclk : (s.beginRestart x).clk.ticks = s.clk.ticks := congrArg Clocks.ticks (hf .clk (by decide))
    have hstr : ∀ q, (s.beginRestart x).watchdog.strikes.find? q = if q = x then some s.clk.ticks else s.watchdog.strikes.find? q := fun q => by
      rw [hw]; exact SMap.find_put _ _ _ q
    refine ⟨hf.comp hframe, hnumber.trans (by rw [hw]), hesc.trans (by rw [hw]), fun p hp => ?_, fun p hp => ?_⟩
    · by_cases hl : p ∈ l
      · rw [← hclk]; exact hbegun p hl
      · have hpx : p = x := (List.mem_cons.mp hp).resolve_right hl
        subst hpx
        obtain ⟨h1, h2⟩ := hothers p hl
        simp only [List.foldl_cons, h1, h2, hx, hstr, if_true, and_self]
    · rw [List.mem_cons, not_or] at hp
      obtain ⟨h1, h2⟩ := hothers p hp.2
      exact ⟨h1.trans ((hx p).trans (if_neg hp.1)), h2.trans ((hstr p).trans (if_neg hp.1))⟩

end Sys2Proof.Machine
end

section
/-! SUPPORT. The end of a watchdog period and its escalation, the conductor's re-seat and reset, and the end of a restart
(R452 to R456, R484). -/

namespace Sys2Proof.Machine

/-! ## WATCHDOG_PERIOD_END (R452, R453) -/

theorem exec_watchdogPeriodEnd (s : State) : exec .watchdogPeriodEnd s = next s (periodEnd s.chip) := rfl

/-- The partitions that have failed the period that ends: stopped by an access fault, or owner of a failed slot (R453). -/
def Chip.failedParts (s : Chip) : List Nat :=
  (List.range 8).filter fun p => s.watchdog.stopped.contains p || s.failedSlots.any fun i => s.slotOwner i == some p

/-- A partition has a strike that holds (R453). -/
def Chip.struck (s : Chip) (p : Nat) : Bool := (s.watchdog.strikes.find? p).any s.strikeHolds

theorem Chip.struck_iff {s : Chip} {p : Nat} : s.struck p = true ↔ ∃ k, s.watchdog.strikes.find? p = some k ∧ s.strikeHolds k = true := by
  unfold Chip.struck
  cases s.watchdog.strikes.find? p <;> simp

/-- The level of the escalation of failed partitions (R453). -/
def Chip.escalationLevel (s : Chip) (parts : List Nat) : Nat :=
  if parts.any s.struck then (if s.watchdog.islandStrikes.any s.strikeHolds then 3 else 2) else 1

/-- The device once an escalation is recorded (R454). -/
def Chip.escalationNoted (s : Chip) (level : Nat) (parts failed : List Nat) : Chip :=
  (s.modWatchdog fun w => { w with failedLast := BitVec.ofNat 16 (maskOf failed) }).noteEscalation level (maskOf parts) (maskOf failed)

/-- A period that is not over, or not counted, does not end. -/
theorem periodEnd_still {s : Chip} (h : s.watching = false ∨ s.overMs s.watchdog.startAt s.watchdog.period = false) : periodEnd s = s := if_pos h

/-- A period that is over ends with the next one, or with an escalation. -/
theorem periodEnd_over {s : Chip} (hw : s.watching = true) (ho : s.overMs s.watchdog.startAt s.watchdog.period = true) :
    periodEnd s = if s.failedParts = [] then s.nextPeriod else s.escalate s.failedParts s.failedSlots := by
  unfold periodEnd
  exact if_neg (by simp [hw, ho])

/-- One action, at the level of the failed partitions' strikes (R453). -/
theorem Chip.escalate_eq (s : Chip) (parts failed : List Nat) : s.escalate parts failed =
    let u := s.escalationNoted (s.escalationLevel parts) parts failed
    if s.escalationLevel parts = 3 then chipReset 0x40 (u.modWatchdog fun w => { w with chipEsc := satAdd 32 w.chipEsc 1 })
    else if s.escalationLevel parts = 2 then u.nextPeriod.islandStrike.reseatCi
    else parts.foldl (fun t p => t.beginRestart p) u.nextPeriod := by
  have hs : s.struck = fun p => match s.watchdog.strikes.find? p with
      | some t => s.strikeHolds t
      | none => false := by
    funext p
    unfold Chip.struck
    cases s.watchdog.strikes.find? p <;> rfl
  unfold Chip.escalate Chip.escalationLevel
  rw [hs]
  rfl

/-- With no strike that holds, the failed partitions restart. -/
theorem Chip.escalationLevel_one {s : Chip} {parts : List Nat}
    (h : ∀ p ∈ parts, ∀ k, s.watchdog.strikes.find? p = some k → s.strikeHolds k = false) : s.escalationLevel parts = 1 := by
  refine if_neg fun ha => ?_
  obtain ⟨p, hp, hs⟩ := List.any_eq_true.mp ha
  obtain ⟨k, hk, hh⟩ := Chip.struck_iff.mp hs
  rw [h p hp k hk] at hh
  cases hh

/-- With a strike that holds and no island strike that does, the conductor is re-seated. -/
theorem Chip.escalationLevel_two {s : Chip} {parts : List Nat} {p k : Nat} (hp : p ∈ parts) (hk : s.watchdog.strikes.find? p = some k)
    (hh : s.strikeHolds k = true) (hi : s.watchdog.islandStrikes.any s.strikeHolds = false) : s.escalationLevel parts = 2 :=
  (if_pos (List.any_eq_true.mpr ⟨p, hp, Chip.struck_iff.mpr ⟨k, hk, hh⟩⟩)).trans (if_neg (by simp [hi]))

/-- With a strike and an island strike that hold, the chip is reset. -/
theorem Chip.escalationLevel_three {s : Chip} {parts : List Nat} {p k : Nat} (hp : p ∈ parts) (hk : s.watchdog.strikes.find? p = some k)
    (hh : s.strikeHolds k = true) (hi : s.watchdog.islandStrikes.any s.strikeHolds = true) : s.escalationLevel parts = 3 :=
  (if_pos (List.any_eq_true.mpr ⟨p, hp, Chip.struck_iff.mpr ⟨k, hk, hh⟩⟩)).trans (if_pos hi)

/-- Failed partitions without a strike that holds restart in the next period (R453, R454). -/
theorem periodEnd_restarts {s : Chip} (hw : s.watching = true) (ho : s.overMs s.watchdog.startAt s.watchdog.period = true) (hp : s.failedParts ≠ [])
    (h : ∀ p ∈ s.failedParts, ∀ k, s.watchdog.strikes.find? p = some k → s.strikeHolds k = false) :
    periodEnd s = s.failedParts.foldl (fun t p => t.beginRestart p) (s.escalationNoted 1 s.failedParts s.failedSlots).nextPeriod := by
  rw [periodEnd_over hw ho, if_neg hp, Chip.escalate_eq, Chip.escalationLevel_one h]
  exact (if_neg (by decide)).trans (if_neg (by decide))

/-- A strike that holds makes the conductor re-seat, while no island strike holds (R453, R454). -/
theorem periodEnd_reseats {s : Chip} (hw : s.watching = true) (ho : s.overMs s.watchdog.startAt s.watchdog.period = true) {p k : Nat}
    (hp : p ∈ s.failedParts) (hk : s.watchdog.strikes.find? p = some k) (hh : s.strikeHolds k = true)
    (hi : s.watchdog.islandStrikes.any s.strikeHolds = false) :
    periodEnd s = (s.escalationNoted 2 s.failedParts s.failedSlots).nextPeriod.islandStrike.reseatCi := by
  rw [periodEnd_over hw ho, if_neg (List.ne_nil_of_mem hp), Chip.escalate_eq, Chip.escalationLevel_two hp hk hh hi]
  exact (if_neg (by decide)).trans (if_pos rfl)

/-- With an island strike that holds as well the whole chip is reset (R453, R454). -/
theorem periodEnd_resets {s : Chip} (hw : s.watching = true) (ho : s.overMs s.watchdog.startAt s.watchdog.period = true) {p k : Nat}
    (hp : p ∈ s.failedParts) (hk : s.watchdog.strikes.find? p = some k) (hh : s.strikeHolds k = true)
    (hi : s.watchdog.islandStrikes.any s.strikeHolds = true) :
    periodEnd s = chipReset 0x40 ((s.escalationNoted 3 s.failedParts s.failedSlots).modWatchdog fun w => { w with chipEsc := satAdd 32 w.chipEsc 1 }) := by
  rw [periodEnd_over hw ho, if_neg (List.ne_nil_of_mem hp), Chip.escalate_eq, Chip.escalationLevel_three hp hk hh hi]
  exact if_pos rfl

theorem Chip.escalationNoted_only (s : Chip) (level : Nat) (parts failed : List Nat) :
    Only [.watchdog, .recorder] s (s.escalationNoted level parts failed) :=
  ((Only.modWatchdog s).mono (by simp)).comp (Only.noteEscalation _)

/-- An escalation's record stands in 0x2800:0B. -/
theorem Chip.noteEscalation_watchdog (s : Chip) (level parts failed : Nat) : (s.noteEscalation level parts failed).watchdog =
    { s.watchdog with lastEsc := le 1 level ++ le 1 parts ++ le 2 failed } :=
  congrArg (fun w : Watchdog => { w with lastEsc := le 1 level ++ le 1 parts ++ le 2 failed }) ((Only.record s).get .watchdog)

/-- What the record of an escalation leaves in the watchdog. -/
theorem Chip.escalationNoted_watchdog (s : Chip) (level : Nat) (parts failed : List Nat) : (s.escalationNoted level parts failed).watchdog =
    { s.watchdog with
      failedLast := BitVec.ofNat 16 (maskOf failed), lastEsc := le 1 level ++ le 1 (maskOf parts) ++ le 2 (maskOf failed) } := by
  unfold Chip.escalationNoted
  rw [Chip.noteEscalation_watchdog, Chip.modWatchdog_watchdog]

/-- The next period of a watchdog: the number rises by one, the staged period and window come into force, and the strikes that no longer
hold go (R452, R453). -/
theorem Chip.nextPeriod_watchdog (s : Chip) : ∃ m, s.nextPeriod.watchdog = { s.watchdog with
    slots := m, number := (s.watchdog.number + 1) % 2 ^ 32, startAt := s.watchdog.startAt + 400000 * s.watchdog.period
    period := s.watchdog.periodStaged, closed := s.watchdog.closedStaged, stopped := []
    strikes := List.filter (fun e : Nat × Nat => s.strikeHolds e.2) s.watchdog.strikes
    islandStrikes := s.watchdog.islandStrikes.filter s.strikeHolds } := by
  unfold Chip.nextPeriod
  simp only [Chip.modWatchdog_watchdog]
  exact ⟨_, rfl⟩

/-- The next period after a recorded escalation: the number has risen by one, and the escalation stands in 0x2800:0B (R453, R454). -/
theorem Chip.escalatedPeriod (s : Chip) (level : Nat) (parts failed : List Nat) :
    Only [.watchdog, .recorder] s (s.escalationNoted level parts failed).nextPeriod ∧
    (s.escalationNoted level parts failed).nextPeriod.watchdog.number = (s.watchdog.number + 1) % 2 ^ 32 ∧
    (s.escalationNoted level parts failed).nextPeriod.watchdog.lastEsc = le 1 level ++ le 1 (maskOf parts) ++ le 2 (maskOf failed) := by
  have hn := s.escalationNoted_only level parts failed
  have hw := s.escalationNoted_watchdog level parts failed
  generalize s.escalationNoted level parts failed = u at hn hw ⊢
  obtain ⟨m, hm⟩ := u.nextPeriod_watchdog
  refine ⟨hn.comp ((Only.nextPeriod u).mono (by simp)), ?_, ?_⟩
  · rw [hm, hw]
  · rw [hm, hw]

/-- An island strike counts with its time, and leaves the last escalation (R455). -/
theorem Chip.islandStrike_watchdog (s : Chip) : s.clk.ticks ∈ s.islandStrike.watchdog.islandStrikes ∧
    s.islandStrike.watchdog.lastEsc = s.watchdog.lastEsc := ⟨List.mem_append_right _ (List.mem_singleton_self _), rfl⟩

/-- A restart of the whole device is judged by what the DRAM and the outputs were before. -/
theorem Restarted.of_same {a u b : Chip} (h : Restarted u b) (hd : u.dram = a.dram) (ho : u.out = a.out) : Restarted a b := by
  unfold Restarted at h ⊢
  rwa [hd, ho] at h

/-! ## Re-seats of the conductor by the watchdog (R454, R455, R484) -/

/-- A re-seat that begins is under way and drains. -/
theorem Chip.reseatRun_beginReseat (s : Chip) (host : Bool) : (s.beginReseat 2 0xFF host).reseatRun 2 0xFF =
    some { island := 2, unit := 0xFF, host := host, startAt := s.clk.ticks } := by
  have h : (s.beginReseat 2 0xFF host).reseat.runs = (s.reseat.runs.filter fun x => x.island != 2 || x.unit != 0xFF) ++
      [{ island := 2, unit := 0xFF, host := host, startAt := s.clk.ticks }] := rfl
  unfold Chip.reseatRun
  rw [h, List.find?_append, List.find?_eq_none.mpr]
  · rfl
  · intro x hx
    have := (List.mem_filter.mp hx).2
    simp only [Bool.or_eq_true, bne_iff_ne, ne_eq] at this
    simp only [Bool.and_eq_true, beq_iff_eq, Bool.not_eq_true']
    tauto

/-- A re-seat found under way is that of its island and unit. -/
theorem Chip.reseatRun_some {s : Chip} {i u : Nat} {r : ReseatRun} (h : s.reseatRun i u = some r) : r.island = i ∧ r.unit = u := by
  have := List.find?_some h
  simp only [Bool.and_eq_true, beq_iff_eq] at this
  exact this.1

theorem Only.reseatCi (s : Chip) : Only [.reseat, .islands] s s.reseatCi := by
  unfold Chip.reseatCi
  exact Only.ite (Only.refl s _) (((Only.modReseat s).mono (by simp)).comp ((Only.putIsland _).mono (by simp)))

/-- The conductor's re-seat is under way, the one that was pending or a new one that drains. -/
theorem Chip.reseatRun_reseatCi (s : Chip) : ∃ r, s.reseatCi.reseatRun 2 0xFF = some r ∧
    ((∀ y, s.reseatRun 2 0xFF = some y → y.phase = .draining) → r.phase = .draining) := by
  unfold Chip.reseatCi
  split
  · next h =>
    obtain ⟨r, hr⟩ := Option.isSome_iff_exists.mp h
    exact ⟨r, hr, fun hd => hd r hr⟩
  · exact ⟨_, Chip.reseatRun_beginReseat s false, fun _ => rfl⟩

/-! ## The conductor's reset (R23, R456) -/

/-- A mapped collection reads the mapped value, where the default maps to itself. -/
theorem SMap.get_map {α : Type} (f : α → α) {d : α} (hd : f d = d) (m : SMap α) (k : Nat) :
    SMap.get (List.map (fun e : Nat × α => (e.1, f e.2)) m) d k = f (SMap.get m d k) := by
  induction m with
  | nil => exact hd.symm
  | cons e m ih =>
    simp only [List.map_cons, SMap.get]
    split
    · rfl
    · exact ih

theorem Only.suspendSlots (s : Chip) : Only [.watchdog] s s.suspendSlots := Only.foldl _ (fun s _ => Only.modSlots s) _ _

/-- Suspending every slot changes slots only. -/
theorem Chip.suspendSlots_slots (s : Chip) : Watchdog.SlotsMoved (fun _ => False) s.watchdog s.suspendSlots.watchdog := by
  unfold Chip.suspendSlots
  generalize List.range 8 = l
  induction l generalizing s with
  | nil => exact Watchdog.SlotsMoved.refl _ _
  | cons p l ih => exact ((Chip.modSlots_slots s p _).mono fun _ h => h.elim).trans (ih _)

/-- A partition after the conductor's reset. -/
def Partition.reset (p : Partition) : Partition := { p with running := false, restarting := false, replacing := false, packets := [] }

/-- The conductor's reset is the end of its requests, which leave conductor and watchdog alone, and then the stop of every partition. -/
theorem Chip.resetCi_split (s : Chip) : ∃ u : Chip, Only (.reseat :: idleParts) s u ∧
    s.resetCi = ((u.modCi fun c => { c with halted := false, partitions := c.partitions.map fun e => (e.1, e.2.reset) }).suspendSlots).modWatchdog
      fun w => { w with strikes := [], stopped := [] } := by
  unfold Chip.resetCi
  dsimp only
  refine ⟨_, ?_, rfl⟩
  refine Only.comp ?_ ((Only.modReseat _).mono (by decide))
  refine Only.comp ?_ ((Only.dramCancel _).mono (by decide))
  refine Only.comp ?_ ((Only.modBoot _).mono (by decide))
  refine Only.comp ?_ ((Only.completeOpt _).mono (by decide))
  refine Only.comp ?_ (Only.foldl _ (fun t r => Only.ite ((Only.completeRead t).mono (by decide)) ((Only.complete t).mono (by decide))) _ _)
  refine Only.comp ?_ ((Only.modHost _).mono (by decide))
  exact Only.foldl _ (fun t q => (Only.makeIdle t).mono (by decide)) _ _

/-- After the conductor's reset no partition runs, and the island strikes stand. -/
theorem Chip.resetCi_stops (s : Chip) : (∀ q, (s.resetCi.part q).running = false) ∧
    s.resetCi.watchdog.islandStrikes = s.watchdog.islandStrikes := by
  obtain ⟨u, hu, hs⟩ := s.resetCi_split
  rw [hs]
  generalize hv : (u.modCi _ : Chip) = v
  have hvp : ∀ q, (v.part q).running = false := fun q => by
    rw [← hv]
    exact congrArg Partition.running (SMap.get_map Partition.reset rfl u.ci.partitions q)
  have hvw : v.watchdog = s.watchdog := by rw [← hv]; exact hu .watchdog (by decide)
  obtain ⟨m, hm, _⟩ := v.suspendSlots_slots
  refine ⟨fun q => ?_, ?_⟩
  · rw [(Only.modWatchdog _).part, (Only.suspendSlots v).part]
    exact hvp q
  · rw [Chip.modWatchdog_watchdog, hm, hvw]

theorem Only.islandRecord {c i u} (s : Chip) : Only [.recorder] s (s.islandRecord c i u) := Only.modRecorder s

/-- The conductor's loading changes its island state only. -/
theorem Only.islandLoad_ci (s : Chip) : Only [.islands] s (s.islandLoad 2) := by
  unfold Chip.islandLoad
  exact Only.ite (Only.refl s _) (Only.putIsland s)

theorem Only.modRun {i u f} (s : Chip) : Only [.reseat] s (s.modRun i u f) := Only.modReseat s

theorem Only.reseatStatus {r x} (s : Chip) : Only [.reseat] s (s.reseatStatus r x) := by
  unfold Chip.reseatStatus
  exact Only.ite (Only.modReseat s) (Only.refl s _)

/-- A re-seat of the whole conductor resets it: no partition runs, and the island strikes stand. -/
theorem Chip.enterReset_ci {s : Chip} {r : ReseatRun} (hi : r.island = 2) (hu : r.unit = 0xFF) : (∀ q, ((s.enterReset r).part q).running = false) ∧
    (s.enterReset r).watchdog.islandStrikes = s.watchdog.islandStrikes := by
  unfold Chip.enterReset
  rw [hi, hu]
  dsimp only
  rw [if_pos rfl]
  generalize hc : (if r.host = true then 3 else 2 : Nat) = cause
  have hv : Only [.recorder, .islands] s ((s.islandRecord cause 2 0xFF).putIsland 2 .resetting) :=
    ((Only.islandRecord s).mono (by simp)).comp ((Only.putIsland _).mono (by simp))
  have hr : s.islandReset cause 2 = Chip.resetCi ((s.islandRecord cause 2 0xFF).putIsland 2 .resetting) := rfl
  rw [hr]
  generalize (s.islandRecord cause 2 0xFF).putIsland 2 .resetting = v at hv ⊢
  obtain ⟨hp, hs⟩ := v.resetCi_stops
  have hl : ∀ f, Only [.islands, .reseat] v.resetCi (((v.resetCi.islandLoad 2).modRun 2 0xFF f).reseatStatus r .loading) := fun f =>
    (((Only.islandLoad_ci _).mono (by simp)).comp ((Only.modRun _).mono (by simp))).comp ((Only.reseatStatus _).mono (by simp))
  refine ⟨fun q => ?_, ?_⟩
  · rw [(hl _).part]; exact hp q
  · rw [(hl _).get .watchdog, hs, hv.get .watchdog]

/-- The conductor stopped at once: no partition runs, and the island strikes stand (R455). -/
theorem Chip.reseatCiNow_stops {s : Chip} (h : ∀ r, s.reseatRun 2 0xFF = some r → r.phase = .draining) :
    (∀ q, (s.reseatCiNow.part q).running = false) ∧ s.reseatCiNow.watchdog.islandStrikes = s.watchdog.islandStrikes := by
  obtain ⟨r, hr, hd⟩ := s.reseatRun_reseatCi
  obtain ⟨hi, hu⟩ := Chip.reseatRun_some hr
  unfold Chip.reseatCiNow
  simp only [hr, hd h, if_true]
  rw [← (Only.reseatCi s).get .watchdog]
  exact Chip.enterReset_ci hi hu

/-- A re-seat under way is unchanged where the re-seats are. -/
theorem Only.reseatRun {a b : Chip} {ps : List Part} (h : Only ps a b) (hp : Part.reseat ∉ ps := by decide) (i u : Nat) :
    b.reseatRun i u = a.reseatRun i u := by
  have := h .reseat hp; unfold Chip.reseatRun; rw [this]

/-- An escalation to the island level at once (R455): no partition runs, and the strike of this time counts. -/
theorem Chip.strikeNow_stops {s : Chip} (level parts failed : Nat) (h : ∀ r, s.reseatRun 2 0xFF = some r → r.phase = .draining) :
    (∀ q, ((s.noteEscalation level parts failed).islandStrike.reseatCiNow.part q).running = false) ∧
    s.clk.ticks ∈ (s.noteEscalation level parts failed).islandStrike.reseatCiNow.watchdog.islandStrikes := by
  have hn := Only.noteEscalation (l := level) (p := parts) (f := failed) s
  have hi := hn.comp ((Only.islandStrike _).mono (by simp))
  rw [← hi.reseatRun] at h
  obtain ⟨hp, hs⟩ := Chip.reseatCiNow_stops h
  refine ⟨hp, ?_⟩
  rw [hs, ← hn.get .clk]
  exact (Chip.islandStrike_watchdog _).1

/-! ## PARTITION_RESTART_COMPLETE and LOCKSTEP_MISMATCH (R454, R455) -/

theorem exec_partitionRestartComplete (p : Fin 8) (s : State) :
    exec (.partitionRestartComplete p) s = next s (restartComplete p.val s.chip) := rfl

theorem exec_lockstepMismatch (s : State) : exec .lockstepMismatch s = next s (lockstepMismatch s.chip) := rfl

theorem restartComplete_still {p : Nat} {s : Chip} (h : (s.part p).restarting = false ∨ s.runs 2 = false) : restartComplete p s = s := if_pos h

theorem restartComplete_starts {p : Nat} {s : Chip} (hr : (s.part p).restarting = true) (hi : s.runs 2 = true) (hc : s.codeOk p = true)
    (hh : s.reseatRun 2 p = none) : restartComplete p s = s.startPartition p 1 := by
  unfold restartComplete
  rw [if_neg (by simp [hr, hi]), if_neg (by simp [hc]), hh]
  rfl

theorem restartComplete_fails {p : Nat} {s : Chip} (hr : (s.part p).restarting = true) (hi : s.runs 2 = true) (hc : s.codeOk p = false) :
    restartComplete p s = s.digestFails p := by
  unfold restartComplete
  rw [if_neg (by simp [hr, hi]), if_pos hc]

theorem Only.graceSlots {p} (s : Chip) : Only [.watchdog] s (s.graceSlots p) := Only.modSlots s

/-- The first packets of a partition's trace leave what it does. -/
theorem Chip.part_traceStart (s : Chip) (p info q : Nat) : ((s.traceStart p info).part q).running = (s.part q).running ∧
    ((s.traceStart p info).part q).restarting = (s.part q).restarting ∧ (q ≠ p → (s.traceStart p info).part q = s.part q) := by
  unfold Chip.traceStart
  rw [Chip.part_modPart]
  by_cases h : q = p
  · subst h
    rw [if_pos rfl]
    refine ⟨?_, ?_, fun hn => absurd rfl hn⟩ <;> split <;> rfl
  · rw [if_neg h]
    exact ⟨rfl, rfl, fun _ => rfl⟩

theorem Only.startPartition {p i} (s : Chip) : Only [.ci, .watchdog] s (s.startPartition p i) :=
  ((((Only.clearRam s).mono (by simp)).comp ((Only.modPart _).mono (by simp))).comp ((Only.modPart _).mono (by simp))).comp
    ((Only.graceSlots _).mono (by simp))

/-- A partition that starts runs, and no other is touched (R449, R477). -/
theorem Chip.startPartition_runs (s : Chip) (p info : Nat) : ((s.startPartition p info).part p).running = true ∧
    ((s.startPartition p info).part p).restarting = false ∧ ∀ q, q ≠ p → (s.startPartition p info).part q = s.part q := by
  unfold Chip.startPartition
  dsimp only
  generalize hu : ((s.clearRam p).modPart p _ : Chip) = u
  have hup : ∀ q, u.part q = if q = p then { s.part p with running := true, restarting := false, replacing := false, entry := descEntry (s.part p).desc }
      else s.part q := fun q => by rw [← hu, Chip.part_modPart]; rfl
  have ht := u.part_traceStart p info
  have hg : ∀ q, ((u.traceStart p info).graceSlots p).part q = (u.traceStart p info).part q := fun q => (Only.graceSlots _).part (p := q)
  obtain ⟨hr, hs, _⟩ := ht p
  refine ⟨?_, ?_, fun q hq => ?_⟩
  · rw [hg, hr, hup, if_pos rfl]
  · rw [hg, hs, hup, if_pos rfl]
  · rw [hg, (ht q).2.2 hq, hup, if_neg hq]

theorem Only.reseatOutcome {r g} (s : Chip) : Only [.reseat] s (s.reseatOutcome r g) := by
  unfold Chip.reseatOutcome
  exact Only.ite (Only.modReseat s) (Only.refl s _)

/-- The outcome of a re-seat leaves those under way. -/
@[simp] theorem Chip.reseatOutcome_runs (s : Chip) (r : ReseatRun) (good : Bool) : (s.reseatOutcome r good).reseat.runs = s.reseat.runs := by
  unfold Chip.reseatOutcome
  split <;> rfl

/-- Ending the re-seat of another unit leaves that of the whole conductor. -/
theorem Chip.reseatRun_ended (s : Chip) {r : ReseatRun} (hr : r.unit ≠ 0xFF) :
    ((s.modReseat fun y => { y with runs := y.runs.filter (· != r) }).reseatOutcome r false).reseatRun 2 0xFF = s.reseatRun 2 0xFF := by
  unfold Chip.reseatRun
  rw [Chip.reseatOutcome_runs, Chip.modReseat_reseat, List.find?_filter]
  congr 1
  funext x
  by_cases hx : x.unit = 0xFF
  · have : x ≠ r := fun e => hr (e ▸ hx)
    exact Bool.eq_iff_iff.mpr (by simp [this])
  · simp [hx]

/-- A failing code digest is recorded and ends a host's re-seat of the partition, before the island level (R455). -/
theorem Chip.digestFails_split (s : Chip) {p : Nat} (hp : p < 8) : ∃ u, Only [.recorder, .reseat] s u ∧ u.reseatRun 2 0xFF = s.reseatRun 2 0xFF ∧
    s.digestFails p = (u.noteEscalation 2 (2 ^ p) 0).islandStrike.reseatCiNow := by
  have hr : Only [.recorder] s (s.record 0x2001 2 (le 1 p ++ le 1 2) p) := Only.record s
  unfold Chip.digestFails
  dsimp only
  generalize s.record 0x2001 2 (le 1 p ++ le 1 2) p = v at hr ⊢
  cases hv : v.reseatRun 2 p with
  | none => exact ⟨v, hr.mono (by simp), hr.reseatRun .., rfl⟩
  | some r =>
    have hu : r.unit ≠ 0xFF := by rw [(Chip.reseatRun_some hv).2]; omega
    refine ⟨_, ?_, (Chip.reseatRun_ended v hu).trans (hr.reseatRun ..), rfl⟩
    exact ((hr.mono (by simp)).comp ((Only.modReseat _).mono (by simp))).comp ((Only.reseatOutcome _).mono (by simp))

/-- A failing code digest stops every partition (R455). -/
theorem Chip.digestFails_stops {s : Chip} {p : Nat} (hp : p < 8) (h : ∀ r, s.reseatRun 2 0xFF = some r → r.phase = .draining) :
    (∀ q, ((s.digestFails p).part q).running = false) ∧ s.clk.ticks ∈ (s.digestFails p).watchdog.islandStrikes := by
  obtain ⟨u, hu, hrun, he⟩ := s.digestFails_split hp
  rw [he, ← hu.get .clk]
  rw [← hrun] at h
  exact Chip.strikeNow_stops 2 (2 ^ p) 0 h

/-- A lockstep mismatch means nothing while the conductor neither runs nor drains. -/
theorem lockstepMismatch_still {s : Chip} (h : s.runs 2 = false) (hi : s.island 2 ≠ .reseatPending) : lockstepMismatch s = s := if_pos ⟨h, hi⟩

/-- A lockstep mismatch stops every partition (R455). -/
theorem lockstepMismatch_stops {s : Chip} (h : s.runs 2 = true ∨ s.island 2 = .reseatPending)
    (hd : ∀ r, s.reseatRun 2 0xFF = some r → r.phase = .draining) :
    (∀ q, ((lockstepMismatch s).part q).running = false) ∧ s.clk.ticks ∈ (lockstepMismatch s).watchdog.islandStrikes := by
  have hn : ¬(s.runs 2 = false ∧ s.island 2 ≠ .reseatPending) := by
    rintro ⟨hr, hi⟩
    exact h.elim (fun h => by simp [h] at hr) hi
  unfold lockstepMismatch
  rw [if_neg hn]
  dsimp only
  generalize (List.range 8).filter (fun p => (s.part p).running) = l
  have hu : Only [.recorder] s (l.foldl (fun t p => t.record 0x2001 2 (le 1 p ++ le 1 3) p) s) := Only.foldl _ (fun t _ => Only.record t) _ _
  rw [← hu.reseatRun] at hd
  rw [← hu.get .clk]
  exact Chip.strikeNow_stops 2 (maskOf l) 0 hd

/-- Settles O52: the rows are assembled from the equations of each command, `FaultStopped` for what an access fault stops, `checkIn_own` and
`Slot.checkIn` for a check-in, `BeganRestarts` for a restart, and `Chip.strikeNow_stops` for the island level at once. -/
theorem watchdogRows : Obligations.WatchdogRows := by
  unfold Obligations.WatchdogRows
  refine ⟨fun m k a len s => ⟨fun h => ?_, fun x h => ?_⟩, fun m p k a len s => ⟨fun h => ?_, fun hr hi hf => ?_⟩,
    fun p i v s => ⟨fun h => ?_, fun hr hi ho => ?_, fun hr hi ho x hx => ?_⟩,
    fun s parts => ⟨fun h => ?_, fun hw ho hparts => ⟨fun hp => ?_, fun hp hno => ?_, fun p hp k hk hh hi => ?_, fun p hp k hk hh hi => ?_⟩⟩,
    fun p s => ⟨fun h => ?_, fun hr hi hc hh => ?_, fun hr hi hc hd => ?_⟩, fun s => ⟨fun h hi => ?_, fun h hd => ?_⟩⟩
  · rw [exec_conductorAccessFault, conductorAccess_map_allowed h]; rfl
  · rw [exec_conductorAccessFault, conductorAccess_map_refused h]
  · rw [exec_conductorAccessFault, conductorAccess_partition_still h]; rfl
  · obtain ⟨hstop, hnoted, hothers, hmem, _, hframe⟩ := conductorAccess_partition_stops (m := m) hr hi hf
    exact ⟨_, rfl, hstop, hnoted, hothers, hmem, Within.ofChip hframe⟩
  · rw [exec_watchdogCheckIn, checkIn_still h]; rfl
  · obtain ⟨hstop, _, _, _, hslots, hframe⟩ := checkIn_foreign (v := v) hr hi ho
    exact ⟨_, rfl, hstop, hslots i.val ho, Within.ofChip hframe⟩
  · subst hx
    obtain ⟨hslot, hframe⟩ := checkIn_own (v := v) hr hi ho
    refine ⟨_, _, rfl, (hslot i.val).trans (if_pos rfl), Slot.checkIn_owner _ _ _, fun j hj => (hslot j).trans (if_neg hj), fun hv => ?_, fun hv => ?_,
      fun hv hc => ?_, fun hv hc => ?_, Within.ofChip hframe⟩
    · rw [beq_false_of_ne hv]; exact Slot.checkIn_bad _ _
    · rw [beq_iff_eq.mpr hv]; exact Slot.checkIn_state _ _
    · rw [beq_iff_eq.mpr hv, hc]; exact Slot.checkIn_early _
    · rw [beq_iff_eq.mpr hv, hc]; exact Slot.checkIn_good _
  · rw [exec_watchdogPeriodEnd, periodEnd_still h]; rfl
  · obtain rfl : parts = s.chip.failedParts := hparts
    have he : periodEnd s.chip = s.chip.nextPeriod := by rw [periodEnd_over hw ho, if_pos hp]
    obtain ⟨m, hm⟩ := s.chip.nextPeriod_watchdog
    refine ⟨_, congrArg (next s) he, ?_⟩
    dsimp only
    rw [hm]
    exact ⟨rfl, rfl, rfl, rfl, Within.ofChip (Only.nextPeriod _)⟩
  · obtain rfl : parts = s.chip.failedParts := hparts
    obtain ⟨hf, hnumber, hesc⟩ := s.chip.escalatedPeriod 1 s.chip.failedParts s.chip.failedSlots
    obtain ⟨hframe, hnumber', hesc', hbegun, hothers⟩ :=
      beganRestarts_foldl s.chip.failedParts (s.chip.escalationNoted 1 s.chip.failedParts s.chip.failedSlots).nextPeriod
    rw [hf.get .clk] at hbegun
    exact ⟨_, congrArg (next s) (periodEnd_restarts hw ho hp hno), hnumber'.trans hnumber, hesc'.trans hesc, hbegun,
      fun p hp => (hothers p hp).1.trans (hf.part (p := p)), Within.ofChip ((hf.mono (by simp)).comp (hframe.mono (by simp)))⟩
  · obtain rfl : parts = s.chip.failedParts := hparts
    obtain ⟨hf, _, hesc⟩ := s.chip.escalatedPeriod 2 s.chip.failedParts s.chip.failedSlots
    have he := periodEnd_reseats hw ho hp hk hh hi
    generalize (s.chip.escalationNoted 2 s.chip.failedParts s.chip.failedSlots).nextPeriod = u at hf hesc he
    obtain ⟨hstrike, hlast⟩ := u.islandStrike_watchdog
    obtain ⟨r, hr, _⟩ := u.islandStrike.reseatRun_reseatCi
    have hc := Only.reseatCi u.islandStrike
    rw [hf.get .clk, ← hc.get .watchdog] at hstrike
    exact ⟨_, congrArg (next s) he, Option.isSome_of_eq_some hr, hstrike, ((congrArg Watchdog.lastEsc (hc.get .watchdog)).trans hlast).trans hesc,
      Within.ofChip (((hf.mono (by simp)).comp ((Only.islandStrike _).mono (by simp))).comp (hc.mono (by simp)))⟩
  · obtain rfl : parts = s.chip.failedParts := hparts
    have hf := (s.chip.escalationNoted_only 3 s.chip.failedParts s.chip.failedSlots).comp
      ((Only.modWatchdog (f := fun w => { w with chipEsc := satAdd 32 w.chipEsc 1 }) _).mono (by simp))
    have he := periodEnd_resets hw ho hp hk hh hi
    generalize Chip.modWatchdog _ (s.chip.escalationNoted 3 s.chip.failedParts s.chip.failedSlots) = u at hf he
    have hr : Restarted s.chip (chipReset 0x40 u) := (chipReset_restarted 0x40 u).of_same (hf.get .dram) (hf.get .out)
    generalize chipReset 0x40 u = c at he hr
    exact ⟨_, congrArg (next s) he, hr⟩
  · rw [exec_partitionRestartComplete, restartComplete_still h]; rfl
  · obtain ⟨hrun, hres, hothers⟩ := s.chip.startPartition_runs p.val 1
    exact ⟨_, congrArg (next s) (restartComplete_starts hr hi hc hh), hrun, hres, hothers, Within.ofChip (Only.startPartition _)⟩
  · exact ⟨_, congrArg (next s) (restartComplete_fails hr hi hc), Chip.digestFails_stops p.isLt hd⟩
  · rw [exec_lockstepMismatch, lockstepMismatch_still h hi]; rfl
  · exact ⟨_, rfl, lockstepMismatch_stops h hd⟩

end Sys2Proof.Machine
end

section
/-! SUPPORT. What the operations reach that resets and start-up are made of: the rails, the SI's reset, the relock of a PLL, the state
of an island, and what leaves the HI online and the power island as they are. -/

namespace Sys2Proof.Machine

/-! ## The state of an island (R33) -/

/-- With the AO running and every other island in state `x`, each island reads so. -/
theorem island_aoAlone (x : IslandState) {i : Nat} (h : i < 11) :
    ((List.replicate 11 x).set 1 .running).getD i .off = if i = 1 then .running else x := by
  rw [List.getD_eq_getElem?_getD, List.getElem?_set, List.getElem?_replicate, List.length_replicate, if_pos h]
  rcases eq_or_ne i 1 with rfl | hi
  · rfl
  · rw [if_neg hi.symm, if_neg hi]; rfl

/-- An island of the device reads the state it was put in. -/
theorem Chip.island_putIsland {s : Chip} {i : Nat} (h : i < s.islands.length) (x : IslandState) : (s.putIsland i x).island i = x := by
  unfold Chip.island Chip.putIsland
  rw [List.getD_eq_getElem?_getD, List.getElem?_set_self h]
  rfl

/-- The other islands stay. -/
theorem Chip.island_putIsland_ne {s : Chip} {i j : Nat} (h : i ≠ j) (x : IslandState) : (s.putIsland i x).island j = s.island j := by
  unfold Chip.island Chip.putIsland
  rw [List.getD_eq_getElem?_getD, List.getElem?_set_ne h, List.getD_eq_getElem?_getD]

/-- An island is unchanged where the islands are. -/
theorem Only.island {a b : Chip} {ps : List Part} (h : Only ps a b) (hp : Part.islands ∉ ps := by decide) (i : Nat) : b.island i = a.island i := by
  have := h .islands hp; unfold Chip.island; rw [this]

/-- An island that returns to running reads so, in every device that has the island (R33). -/
theorem Chip.runIsland_islands (s : Chip) (i : Nat) : ∀ y, (s.runIsland i).islands[i]? = some y → y = .running := by
  intro y hy
  unfold Chip.runIsland at hy
  rw [(Only.endCondition _).get .islands, (Only.endCondition _).get .islands] at hy
  simp only [Chip.putIsland, List.getElem?_set, if_true] at hy
  split at hy
  · exact (Option.some.inj hy).symm
  · cases hy

/-! ## What rails, resets and relocks reach -/

theorem Chip.record_recorder {a b : Chip} (h : b.recorder = a.recorder) (c i : Nat) (d : Bytes) : (b.record c i d).recorder = (a.record c i d).recorder :=
  congrArg (Recorder.arrive _) h

theorem Only.putRail {r g p} (s : Chip) : Only [.power] s (s.putRail r g p) := Only.modPower s

theorem Only.noteAbsent {r} (s : Chip) : Only [.power] s (s.noteAbsent r) := by
  unfold Chip.noteAbsent
  exact Only.ite (Only.refl s _) (Only.modPower s)

/-- A change of levels is followed by the LV alone (R411). -/
theorem Only.follow {a : Chip} (s : Chip) : Only [.levels] s (Chip.follow a s) := by
  unfold Chip.follow
  exact Only.ite (Only.modLevels s) (Only.refl s _)

theorem Only.dropJob {q u} (s : Chip) : Only [.crypto] s (s.dropJob q u) := Only.modQueue s

theorem Only.freeInjector {q k} (s : Chip) : Only [.crypto] s (s.freeInjector q k) := by
  unfold Chip.freeInjector
  split
  · exact Only.ite (Only.dropJob s) (Only.refl s _)
  · exact Only.refl s _

theorem Only.failField {q k c t} (s : Chip) : Only [.crypto, .sealed_, .seqs] s (s.failField q k c t) :=
  ((Only.ite (Only.refl s _) ((Only.freeInjector s).mono (by simp))).comp ((Only.modSeal _).mono (by simp))).comp ((Only.modSq _).mono (by simp))

/-- The loss of the SI reaches the sealed fields with their queues and sequencers only. -/
theorem Only.siLost {i} (s : Chip) : Only [.crypto, .sealed_, .seqs] s (s.siLost i) := by
  unfold Chip.siLost
  refine Only.comp (Only.foldl _ (fun s k => ?_) _ _) (Only.foldl _ (fun s _ => (Only.modSeal s).mono (by simp)) _ _)
  dsimp only
  split
  · exact Only.ite (Only.failField s) (Only.refl s _)
  · exact Only.refl s _

/-- A partial epoch lost reaches the pair and the answers only. -/
theorem Only.dropEpochs (s : Chip) : Only [.host, .out, .pair] s s.dropEpochs :=
  ((Only.modPair s).mono (by simp)).comp (Only.foldl _ (fun s _ => Only.complete s) _ _)

/-- The parts that a reset of the SI reaches, beside its state and record. -/
def siParts : List Part := [.crypto, .sealed_, .seqs, .host, .out, .dram, .pair, .keys]

theorem Only.resetSi (s : Chip) : Only siParts s s.resetSi :=
  ((((((Only.siLost s).mono (by decide)).comp ((Only.modCrypto _).mono (by decide))).comp ((Only.endCondition _).mono (by decide))).comp
    ((Only.dramCancel _).mono (by decide))).comp ((Only.dropEpochs _).mono (by decide))).comp ((Only.modKeys _).mono (by decide))

theorem Only.markHeld (s : Chip) : Only [.seqs] s s.markHeld := by
  unfold Chip.markHeld
  refine Only.foldl _ (fun s q => ?_) _ _
  split
  · exact Only.ite (Only.refl s _) (Only.modSq s)
  · exact Only.refl s _

theorem Only.transition {k v f c d} (s : Chip) : Only [.clkos] s (s.transition k v f c d) := by
  have hb : Only [.clkos] s (s.beginTransition k v f c d) := by
    unfold Chip.beginTransition
    exact Only.ite (Only.modClko s) (Only.modClko s)
  unfold Chip.transition
  exact Only.ite (hb.comp (Only.modClko _)) hb

/-- A relock reaches its PLL, the outputs, and the launches that it holds. -/
theorem Only.relock {p v} (s : Chip) : Only [.plls, .seqs, .clkos] s (s.relock p v) := by
  unfold Chip.relock
  refine Only.comp (((Only.modPll s).mono (by simp)).comp ((Only.markHeld _).mono (by simp))) (Only.foldl _ (fun s k => ?_) _ _)
  exact Only.ite (Only.refl s _) ((Only.transition s).mono (by simp))

theorem Only.calibrationPass {l} (s : Chip) : Only [.levels, .background] s (calibrationPass l s) := by
  unfold Machine.calibrationPass
  refine Only.ite (Only.refl s _) ?_
  exact Only.comp (Only.foldl _ (fun s k => (Only.modLv s).mono (by simp)) _ _) ((Only.modBackground _).mono (by simp))

theorem Only.firstCalibration (s : Chip) : Only [.free, .levels, .background] s s.firstCalibration :=
  ((Only.drawBytes s).mono (by simp)).comp ((Only.calibrationPass _).mono (by simp))

/-! ## What is up: the HI online, and the power island -/

/-- What start-up has brought up: whether the HI is online, and the state of the power island. -/
def Chip.upState (s : Chip) : Bool × Power := (s.host.online, s.power)

theorem Only.upState {a b : Chip} {ps : List Part} (h : Only ps a b) (hh : Part.host ∉ ps := by decide) (hp : Part.power ∉ ps := by decide) :
    b.upState = a.upState := by
  have host : b.host = a.host := h .host hh
  have power : b.power = a.power := h .power hp
  unfold Chip.upState
  rw [host, power]

theorem ite_upState {a b c : Chip} {q : Prop} [Decidable q] (h : b.upState = a.upState) (k : c.upState = a.upState) :
    (if q then b else c).upState = a.upState := by
  split <;> assumption

theorem foldl_upState {α : Type _} (f : Chip → α → Chip) (h : ∀ s x, (f s x).upState = s.upState) (l : List α) (s : Chip) :
    (l.foldl f s).upState = s.upState := by
  induction l generalizing s with
  | nil => rfl
  | cons x l ih => exact (ih _).trans (h s x)

@[simp] theorem Chip.modCtl_upState (s : Chip) (b : Bus) (f : CanCtl → CanCtl) : (s.modCtl b f).upState = s.upState := by
  cases b <;> rfl

/-- An EMCY leaves what is up. -/
theorem Chip.emcyOnBus_upState (s : Chip) (m : EmcyMsg) (b : Bus) : (s.emcyOnBus m b).upState = s.upState := by
  unfold Chip.emcyOnBus
  refine ite_upState rfl (ite_upState (Chip.modCtl_upState ..) ?_)
  exact (Chip.modCtl_upState ..).trans (Only.sendCan s).upState

@[simp] theorem Chip.emcySend_upState (s : Chip) (m : EmcyMsg) : (s.emcySend m).upState = s.upState :=
  (Chip.emcyOnBus_upState ..).trans (Chip.emcyOnBus_upState ..)

@[simp] theorem Chip.raise_upState (s : Chip) (k c b e i d : Nat) : (s.raise k c b e i d).upState = s.upState := by
  unfold Chip.raise
  exact ite_upState rfl (Chip.emcySend_upState ..)

@[simp] theorem Chip.endCondition_upState (s : Chip) (k : Nat) : (s.endCondition k).upState = s.upState := by
  unfold Chip.endCondition
  exact ite_upState (ite_upState (Chip.emcySend_upState ..) rfl) rfl

@[simp] theorem Chip.runIsland_upState (s : Chip) (i : Nat) : (s.runIsland i).upState = s.upState :=
  (Chip.endCondition_upState ..).trans (Chip.endCondition_upState ..)

theorem Chip.joinBus_upState (s : Chip) (b : Bus) : (s.joinBus b).upState = s.upState := by
  unfold Chip.joinBus
  exact ite_upState (Chip.modCtl_upState ..) (Chip.modCtl_upState ..)

/-- The start of the CAN services leaves what is up. -/
theorem Chip.initCan_upState (s : Chip) : s.initCan.upState = s.upState := by
  unfold Chip.initCan
  dsimp only
  rw [(Only.sendCan _).upState, (Only.sendCan _).upState]
  exact (Chip.joinBus_upState ..).trans (Chip.joinBus_upState ..)

theorem Chip.takeBitCodes_upState (s : Chip) : s.takeBitCodes.upState = s.upState := by
  unfold Chip.takeBitCodes
  exact (Chip.modCtl_upState ..).trans (Chip.modCtl_upState ..)

/-- An island that loads, with what its loading starts, leaves what is up. -/
theorem Chip.islandLoad_upState (s : Chip) (i : Nat) : (s.islandLoad i).upState = s.upState := by
  unfold Chip.islandLoad
  refine ite_upState rfl ?_
  dsimp only
  have hu : (s.putIsland i .loading).upState = s.upState := (Only.putIsland s).upState
  generalize s.putIsland i .loading = u at hu ⊢
  refine Eq.trans ?_ hu
  split
  · have hp : ∀ f, (u.modPlls f).upState = u.upState := fun f => (Only.modPlls u).upState
    exact ite_upState ((Only.relock _).upState.trans (hp _)) (hp _)
  · exact (Only.modLevels u).upState
  · exact ite_upState rfl (Chip.runIsland_upState u 10)
  · rfl

end Sys2Proof.Machine
end

section
/-! SUPPORT. Chip resets, deep sleep and the rails (R42, R64 to R68, R76 to R80): what each source does once its condition is met. -/

namespace Sys2Proof.Machine

/-! ## The state after reset (R68) -/

theorem State.reset_island {i : Nat} (h : i < 11) : State.reset.chip.island i = if i = 1 then .running else .resetting :=
  island_aoAlone .resetting h

theorem RecArray.inv_empty : RecArray.Inv {} := ⟨rfl, Nat.zero_le _, fun _ h => (List.not_mem_nil h).elim, fun _ h => (List.not_mem_nil h).elim⟩

/-- Settles O60: every field stands at its default but the recorder's input, and `RecArray.inv_empty` gives the invariant of the empty array. -/
theorem resetState : Obligations.ResetState := by
  unfold Obligations.ResetState
  refine ⟨rfl, rfl, rfl, rfl, rfl, rfl, rfl, rfl, fun _ => rfl, ?_, State.reset_island (by decide), fun i hi h1 => ?_, RecArray.inv_empty, rfl, rfl⟩
  · have hmi : State.reset.chip.island 8 = .resetting := State.reset_island (by decide)
    simp [Chip.dramServes, Chip.runs, hmi]
  · rw [State.reset_island hi, if_neg h1]

/-! ## The sources of a chip reset (R42, R68, R71, R78, R80) -/

theorem exec_chipReset (causes : BitVec 12) (s : State) : exec (.chipReset causes) s = next s (resetBy causes.toNat s.chip) := rfl

theorem exec_aoPowerOnReset (s : State) : exec .aoPowerOnReset s = next s (resetBy 1 s.chip) := rfl

theorem exec_rstNReset (n : Nat) (s : State) : exec (.rstNReset n) s = next s (rstN n s.chip) := rfl

theorem exec_deepSleepWake (w : WakeSource) (s : State) : exec (.deepSleepWake w) s = next s (deepSleepWake w s.chip) := rfl

/-- Cause 0 makes the reset an AO power-on (Table 3.2). -/
theorem resetBy_cold {n : Nat} (h : n.testBit 0 = true) (s : Chip) : resetBy n s = aoPowerOn n s := by
  have hn : n ≠ 0 := by rintro rfl; simp at h
  exact (if_neg hn).trans (if_pos h)

/-- Without cause 0 the AO core is kept (Table 3.2). -/
theorem resetBy_warm {n : Nat} (hn : n ≠ 0) (h : n.testBit 0 = false) (s : Chip) : resetBy n s = chipReset n s :=
  (if_neg hn).trans (if_neg (by simp [h]))

theorem Chip.filtered_short {lo hi n : Nat} (h : n < lo) (s : Chip) : s.filtered lo hi n = (s, false) := if_pos h

theorem Chip.filtered_long {lo hi n : Nat} (hl : lo ≤ hi) (h : hi ≤ n) (s : Chip) : s.filtered lo hi n = (s, true) :=
  (if_neg (by omega)).trans (if_pos h)

/-- RST_N low for less than 0.5 µs is nothing (R42). -/
theorem rstN_short {n : Nat} (h : n < 500) (s : Chip) : rstN n s = s := by
  unfold rstN
  rw [Chip.filtered_short h]
  exact ite_self _

/-- RST_N low for 1 µs is a chip reset, where VDD_AO is there (R41, R42). -/
theorem rstN_long {n : Nat} {s : Chip} (h : 1000 ≤ n) (hv : s.power.onVbat = false) : ∃ causes, rstN n s = chipReset causes s := by
  unfold rstN
  rw [Chip.filtered_long (by decide) h, if_neg (by simp [hv])]
  exact ⟨_, rfl⟩

theorem Chip.takeWake_good {s : Chip} (hp : s.power.phase = .asleep) (hl : s.power.latchedWake.isSome = true) (hg : s.power.railsGood &&& 0x3F = 0x3F) :
    s.takeWake = chipReset 0x400 s := if_pos ⟨hp, hl, hg⟩

theorem Chip.takeWake_awake {s : Chip} (hp : s.power.phase ≠ .asleep) : s.takeWake = s := if_neg fun h => hp h.1

/-- A wake from deep sleep restarts the device: RST_N at once, another source with every rail good (R78). -/
theorem deepSleepWake_restarted {w : WakeSource} {s : Chip} (hp : s.power.phase = .asleep) (hw : s.wakes w = true)
    (hr : w = .rstN ∨ s.power.railsGood &&& 0x3F = 0x3F) : Restarted s (deepSleepWake w s) := by
  unfold deepSleepWake
  rw [if_neg (by simp [hp, hw])]
  by_cases h : w = .rstN
  · rw [if_pos h]
    exact chipReset_restarted _ s
  · rw [if_neg h, Chip.takeWake_good (by exact hp) rfl (by exact hr.resolve_left h)]
    exact (chipReset_restarted _ _).of_same rfl rfl

/-- A write that reaches its owner and is answered with ok goes on with what follows the answer; another ends with its answer. -/
theorem hostThen_go {p : Path} {tag : Word16} {idx sub : Nat} {payload : Bytes} {chk : Req → Chip → Nat} {act : Req → Chip → Chip × Reply}
    {after : Chip → Chip} {s c : Chip} {r : Req} (h : gate p tag idx sub payload chk s = .go r c) :
    hostThen p tag idx sub payload chk act after s =
      if (act r c).2 = ok then after (Chip.finish r.dest (act r c)) else Chip.finish r.dest (act r c) := by
  unfold hostThen
  rw [h]

/-- A chip reset that its owner accepts follows the answer (R80). -/
theorem exec_chipResetCommand {p : Path} {tag : Word16} {s : State} {r : Req} {c : Chip}
    (h : gate p tag 0x2003 8 (le 4 0xA5) (fun _ _ => 0) s.chip = .go r c) :
    exec (.chipResetCommand p tag) s = next s (chipReset 0x100 (Chip.finish r.dest (c, ok))) :=
  congrArg (next s) ((hostThen_go h).trans (if_pos rfl))

/-! ## Deep sleep (R76, R77) -/

/-- Deep sleep leaves the AO alone running. -/
theorem sleepChip_island (s : Chip) {i : Nat} (h : i < 11) : (sleepChip s).island i = if i = 1 then .running else .off := island_aoAlone .off h

/-- What deep sleep keeps is what stood before the watchdog's slots were suspended (R77, R450). -/
theorem sleepChip_keeps (s : Chip) : (sleepChip s).dram = { generation := s.dram.generation } ∧ (sleepChip s).keys.rootKey = s.keys.rootKey ∧
    (sleepChip s).router = s.router ∧ (sleepChip s).recorder = s.recorder ∧ (sleepChip s).out = s.out := by
  have h := Only.suspendSlots s
  unfold sleepChip
  dsimp only
  generalize s.suspendSlots = u at h ⊢
  have hd : u.dram = s.dram := h.get .dram
  have hk : u.keys = s.keys := h.get .keys
  rw [hd, hk]
  exact ⟨rfl, rfl, h.get .router, h.get .recorder, h.get .out⟩

/-- What refuses deep sleep (R76). -/
def Chip.sleepRefused (s : Chip) : Prop :=
  s.anyArmed = true ∨ s.formed = true ∨ s.cluster.state = .holdOver ∨ s.pair.state ≠ .unpaired ∨ s.life.pending.isSome = true ∨
    s.life.state = .locked ∨ s.life.state = .scrapped

theorem sleepAnswer_refused {s : Chip} (h : s.sleepRefused) (r : Req) : sleepAnswer r s = (s, bad 5) := if_pos h

theorem sleepAnswer_accepted {s : Chip} (h : ¬ s.sleepRefused) (r : Req) : sleepAnswer r s = (s, ok) := if_neg h

/-- Deep sleep refused ends with its answer (R76). -/
theorem exec_deepSleepCommand_refused {p : Path} {tag : Word16} {s : State} {r : Req} {c : Chip}
    (h : gate p tag 0x2003 9 [1] (fun _ _ => 0) s.chip = .go r c) (href : c.sleepRefused) :
    exec (.deepSleepCommand p tag) s = next s (Chip.finish r.dest (c, bad 5)) := by
  refine congrArg (next s) ((hostThen_go h).trans ?_)
  rw [sleepAnswer_refused href]
  exact if_neg (by simp)

/-- Deep sleep accepted is entered after its answer (R76). -/
theorem exec_deepSleepCommand_accepted {p : Path} {tag : Word16} {s : State} {r : Req} {c : Chip}
    (h : gate p tag 0x2003 9 [1] (fun _ _ => 0) s.chip = .go r c) (hacc : ¬ c.sleepRefused) :
    exec (.deepSleepCommand p tag) s = next s (sleepChip (Chip.finish r.dest (c, ok))) := by
  refine congrArg (next s) ((hostThen_go h).trans ?_)
  rw [sleepAnswer_accepted hacc]
  exact if_pos rfl

/-! ## Rails and their monitors (R64, R66) -/

theorem exec_railBrownOut (r : Rail) (mv dip : Nat) (s : State) : exec (.railBrownOut r mv dip) s = next s (railBrownOut r mv dip s.chip) := rfl

theorem exec_railGood (r : Rail) (s : State) : exec (.railGood r) s = next s (railGood r s.chip) := rfl

/-- The absence of the rails is not their state. -/
@[simp] theorem Chip.noteAbsent_railsGood (r : Rail) (s : Chip) : (s.noteAbsent r).power.railsGood = s.power.railsGood := by
  unfold Chip.noteAbsent
  split <;> rfl

theorem railBit_lt (r : Rail) : railBit r < 8 := by cases r <;> decide

/-- A rail's bit of 0x2003:05 reads as it was put. -/
@[simp] theorem Chip.putRail_railsGood (r : Rail) (g p : Bool) (s : Chip) : (s.putRail r g p).power.railsGood.getLsbD (railBit r) = g := by
  have hr := railBit_lt r
  unfold Chip.putRail
  cases g
  · simp [hr]
  · simp [hr]

/-- A dip below 0.5 µs is no brown-out (R64). -/
theorem railBrownOut_short {r : Rail} {mv dip : Nat} (h : dip < 500) (s : Chip) : railBrownOut r mv dip s = s := by
  unfold railBrownOut
  rw [Chip.filtered_short h]
  exact ite_self _

/-- A dip of 2 µs below the threshold of a good rail is a brown-out (R64). -/
theorem railBrownOut_long {r : Rail} {mv dip : Nat} {s : Chip} (h : 2000 ≤ dip) (hm : mv < brownOut r) (hg : s.power.railsGood.getLsbD (railBit r) = true) :
    railBrownOut r mv dip s = ((s.putRail r false (r == .vbat && decide (2200 ≤ mv))).browned r mv).noteAbsent r := by
  unfold railBrownOut
  rw [Chip.filtered_long (by decide) h, if_neg (by simp [hg, hm])]
  rfl

/-- The brown-out of a rail that every island needs is a chip reset, outside deep sleep (Table 3.1). -/
theorem Chip.browned_chip {r : Rail} {mv : Nat} {s : Chip} (hr : r = .vddCore ∨ r = .vddIo18 ∨ r = .vddIo33) (hp : s.power.phase ≠ .asleep) :
    ∃ causes u, s.browned r mv = chipReset causes u ∧ Only [.power] s u := by
  rcases hr with rfl | rfl | rfl <;> exact ⟨_, _, if_neg hp, Only.modPower s⟩

/-- Such a brown-out restarts the device, and the AO clock goes on (R64, R68). -/
theorem railBrownOut_restarted {r : Rail} {mv dip : Nat} {s : Chip} (hr : r = .vddCore ∨ r = .vddIo18 ∨ r = .vddIo33) (h : 2000 ≤ dip)
    (hm : mv < brownOut r) (hg : s.power.railsGood.getLsbD (railBit r) = true) (hp : s.power.phase ≠ .asleep) :
    Restarted s (railBrownOut r mv dip s) ∧ (railBrownOut r mv dip s).clk.ticks = s.clk.ticks := by
  rw [railBrownOut_long h hm hg]
  obtain ⟨causes, u, hb, hu⟩ := Chip.browned_chip (mv := mv) (s := s.putRail r false (r == .vbat && decide (2200 ≤ mv))) hr hp
  have hsu : Only [.power] s u := (Only.putRail s).comp hu
  have hn := Only.noteAbsent (r := r) (chipReset causes u)
  rw [hb]
  refine ⟨((chipReset_restarted causes u).of_same (hsu.get .dram) (hsu.get .out)).only (hn.inReset (by decide)), ?_⟩
  rw [hn.get .clk, chipReset_ticks, hsu.get .clk]

/-- VDD_AO gone, the AO rail is taken from a VBAT that retains it, and nothing is reset (R66, R67). -/
theorem Chip.aoSupply_onVbat {s : Chip} (hg : s.power.railsGood.getLsbD 6 = false) (hv : 1900 ≤ s.power.vbatMv) :
    Only [.power, .levels] s s.aoSupply ∧ s.aoSupply.power = { s.power with onVbat := true } := by
  have hf := Only.follow (a := s) (s.modPower fun p => { p with onVbat := true })
  have hp : (Chip.follow s (s.modPower fun p => { p with onVbat := true })).power = { s.power with onVbat := true } := hf.get .power
  have he : s.aoSupply = Chip.follow s (s.modPower fun p => { p with onVbat := true }) := by
    unfold Chip.aoSupply
    rw [if_neg (Bool.eq_false_iff.mp hg)]
    exact if_neg (by rw [hp]; exact Nat.not_lt.mpr hv)
  rw [he]
  exact ⟨((Only.modPower s).mono (by simp)).comp (hf.mono (by simp)), hp⟩

/-- The absence of the supplies of the AO rail gates nothing (Table 3.2). -/
theorem Chip.noteAbsent_vddAo (s : Chip) : s.noteAbsent .vddAo = s := if_pos (.inl rfl)

/-! ## The reset of the SI by its rail (R23, R65, R327) -/

/-- A running SI whose rail browns out is resetting, and the rails stay as they are noted (R65). -/
theorem Chip.brownIsland_si {s : Chip} (hi : s.island 3 = .running) (hl : s.islands.length = 11) :
    (s.brownIsland 3).island 3 = .resetting ∧ (s.brownIsland 3).power = s.power := by
  unfold Chip.brownIsland
  rw [hi]
  dsimp only
  have hr : Only [.recorder] s (s.islandRecord 1 3 0xFF) := Only.islandRecord s
  have he : s.islandReset 1 3 = ((s.islandRecord 1 3 0xFF).putIsland 3 .resetting).resetSi := rfl
  rw [he]
  generalize s.islandRecord 1 3 0xFF = u at hr ⊢
  have hu : 3 < u.islands.length := by rw [hr.get .islands, hl]; decide
  have hk := Only.resetSi (u.putIsland 3 .resetting)
  constructor
  · rw [(Only.raise _).island, hk.island]
    exact Chip.island_putIsland hu .resetting
  · rw [(Only.raise _).get .power, hk.get .power]
    exact hr.get .power

/-- The brown-out of VDD_SEC resets the SI, once start-up has come to the dictionary (Table 3.1). -/
theorem Chip.browned_vddSec {s : Chip} (mv : Nat) (hup : s.upRunning = true) : s.browned .vddSec mv = s.brownIsland 3 := by
  show (if s.upRunning = false then s else _) = _
  rw [if_neg (by simp [hup])]
  rfl

/-! ## A rail's return (R64 to R66, R78) -/

theorem Chip.loadWaiting_still {s : Chip} (l : List Nat) (h : s.upRunning = false) : s.loadWaiting l = s := if_neg (by simp [h])

/-- VDDQ_DRAM that returns while no island waits for it is noted, and nothing more. -/
theorem railGood_vddqDram {s : Chip} (hg : s.power.railsGood.getLsbD 3 = false) (hup : s.upRunning = false) (hw : s.power.phase ≠ .railsWait)
    (ha : s.power.phase ≠ .asleep) : railGood .vddqDram s = (s.putRail .vddqDram true true).noteCore := by
  have hload : (s.putRail .vddqDram true true).noteCore.loadWaiting [8] = (s.putRail .vddqDram true true).noteCore := Chip.loadWaiting_still _ hup
  have hrel : (s.putRail .vddqDram true true).noteCore.release = (s.putRail .vddqDram true true).noteCore := Chip.release_not_waiting _ hw
  have hwake : (s.putRail .vddqDram true true).noteCore.takeWake = (s.putRail .vddqDram true true).noteCore := Chip.takeWake_awake ha
  calc railGood .vddqDram s = ((s.putRail .vddqDram true true).noteCore.loadWaiting [8]).release.takeWake := if_neg (Bool.eq_false_iff.mp hg)
    _ = (s.putRail .vddqDram true true).noteCore := by rw [hload, hrel, hwake]

/-- Settles O6. The sources of a chip reset rest on `chipReset_restarted` and `aoPowerOn_restarted`, deep sleep on `sleepChip_keeps`, and the
brown-outs on `railBrownOut_long` with the reaction of each rail. -/
theorem resetAndRailRows : Obligations.ResetAndRailRows := by
  unfold Obligations.ResetAndRailRows
  refine ⟨⟨fun causes s hc => ?_, fun s => ?_, fun n s hn hv => ?_, fun n s hn => ?_, fun w s hp hw hr => ?_, fun p tag s r c h => ?_⟩,
    fun p tag s r c h => ⟨fun href => ?_, fun hacc => ?_⟩,
    fun rail mv dip s hd => ?_, fun rail mv dip s hr hd hm hg hp => ?_, fun mv dip s hd hm hg hv => ?_, fun mv dip s hd hm hg hup hi hl => ?_,
    fun s hg hup hw ha => ?_⟩
  · have hn : causes.toNat ≠ 0 := fun h => hc (BitVec.eq_of_toNat_eq h)
    refine ⟨_, exec_chipReset causes s, ?_⟩
    dsimp only
    cases h : causes.getLsbD 0 with
    | true =>
      obtain ⟨hr, ht⟩ := aoPowerOn_restarted causes.toNat s.chip
      rw [resetBy_cold h]
      exact ⟨hr, ht, fun hf => nomatch hf⟩
    | false =>
      rw [resetBy_warm hn h]
      exact ⟨chipReset_restarted _ _, chipReset_ticks _ _, fun _ => chipReset_record _ _⟩
  · refine ⟨_, exec_aoPowerOnReset s, ?_⟩
    dsimp only
    rw [resetBy_cold rfl]
    exact aoPowerOn_restarted 1 s.chip
  · obtain ⟨causes, he⟩ := rstN_long hn hv
    refine ⟨_, exec_rstNReset n s, ?_⟩
    dsimp only
    rw [he]
    exact ⟨chipReset_restarted _ _, chipReset_ticks _ _⟩
  · rw [exec_rstNReset, rstN_short hn]; rfl
  · exact ⟨_, exec_deepSleepWake w s, deepSleepWake_restarted hp hw hr⟩
  · refine ⟨_, exec_chipResetCommand h, ?_⟩
    dsimp only
    exact chipReset_restarted _ _
  · exact exec_deepSleepCommand_refused h href
  · have hf : Only [.host, .out, .pair] c (Chip.finish r.dest (c, ok)) := Only.finish
    obtain ⟨hdram, hroot, hrouter, hrec, hout⟩ := sleepChip_keeps (Chip.finish r.dest (c, ok))
    rw [hf.get .dram] at hdram
    rw [hf.get .keys] at hroot
    refine ⟨_, exec_deepSleepCommand_accepted h hacc, ?_⟩
    dsimp only
    exact ⟨fun i hi => sleepChip_island _ hi, rfl, rfl, hdram, rfl, hroot, hrouter.trans (hf.get .router), hrec.trans (hf.get .recorder), hout⟩
  · rw [exec_railBrownOut, railBrownOut_short hd]; rfl
  · exact ⟨_, exec_railBrownOut rail mv dip s, railBrownOut_restarted hr hd hm hg hp⟩
  · have hg' := Chip.putRail_railsGood .vddAo false false s.chip
    obtain ⟨hk, hpow⟩ := Chip.aoSupply_onVbat (s := s.chip.putRail .vddAo false false) hg' hv
    have he : railBrownOut .vddAo mv dip s.chip = (s.chip.putRail .vddAo false false).aoSupply :=
      (railBrownOut_long hd hm hg).trans (Chip.noteAbsent_vddAo _)
    have hs : Only [.power, .levels] s.chip (s.chip.putRail .vddAo false false).aoSupply := ((Only.putRail s.chip).mono (by simp)).comp hk
    refine ⟨_, congrArg (next s) he, ?_, hs.get .islands, ?_, congrArg HostServices.sessions (hs.get .host)⟩
    · dsimp only; rw [hpow]
    · dsimp only; rw [hpow]; exact hg'
  · have hg' := Chip.putRail_railsGood .vddSec false false s.chip
    obtain ⟨hres, hpow⟩ := Chip.brownIsland_si (s := s.chip.putRail .vddSec false false) hi hl
    have he : railBrownOut .vddSec mv dip s.chip = ((s.chip.putRail .vddSec false false).brownIsland 3).noteAbsent .vddSec :=
      (railBrownOut_long hd hm hg).trans (congrArg (Chip.noteAbsent .vddSec) (Chip.browned_vddSec mv hup))
    refine ⟨_, congrArg (next s) he, ((Only.noteAbsent _).island ..).trans hres, ?_⟩
    dsimp only
    rw [Chip.noteAbsent_railsGood, hpow]
    exact hg'
  · refine ⟨_, congrArg (next s) (railGood_vddqDram hg hup hw ha), Chip.putRail_railsGood .vddqDram true true s.chip, Within.ofChip ?_⟩
    exact (Only.putRail s.chip).comp (Only.modPower _)

end Sys2Proof.Machine
end

section
/-! SUPPORT. The start-up commands (R72 to R75, R81, R107, R163, R228): where each one takes the sequence once its condition is met. -/

namespace Sys2Proof.Machine

/-! ## The REFCLK check (R73, R81) -/

theorem exec_startupRefclkCheck (hz : Nat) (s : State) : exec (.startupRefclkCheck hz) s = next s (refclkCheck hz s.chip) := rfl

/-- What is not beyond a limit is not beyond a wider one. -/
theorem Chip.refBeyond_wider {s : Chip} {m n hz : Nat} (hmn : m ≤ n) (h : s.refBeyond m hz = false) : s.refBeyond n hz = false := by
  unfold Chip.refBeyond at h ⊢
  have hw : s.refNominal * m ≤ s.refNominal * n := Nat.mul_le_mul_left _ hmn
  rw [decide_eq_false_iff_not] at h ⊢
  omega

theorem Chip.refPasses_within {s : Chip} {hz : Nat} (h0 : hz ≠ 0) (hb : s.refBeyond 15 hz = false) : s.refPasses hz = (true, s) := by
  unfold Chip.refPasses
  rw [if_neg (by simp [h0, Chip.refBeyond_wider (by decide : 15 ≤ 25) hb]), if_pos hb]

theorem Chip.refPasses_beyond {s : Chip} {hz : Nat} (h : hz = 0 ∨ s.refBeyond 25 hz = true) : s.refPasses hz = (false, s) := if_pos h

/-- The check that passes starts the CI's boot ROM and the VI (R73). -/
theorem refclkCheck_passes {s : Chip} {hz : Nat} (hp : s.power.phase = .refclkCheck) (h : s.refPasses hz = (true, s)) :
    refclkCheck hz s = (((s.modClk fun c => { c with refHz := hz, refStatus := 0 }).modPower fun p => { p with phase := .booting }).putIsland 2 .loading).putIsland 4
      .running := by
  unfold refclkCheck
  rw [if_neg (not_not.mpr hp), h]
  rfl

/-- The check that fails is recorded once, and the sequence stays where it is (R73). -/
theorem refclkCheck_fails {s : Chip} {hz : Nat} (hp : s.power.phase = .refclkCheck) (h : s.refPasses hz = (false, s)) :
    (refclkCheck hz s).power.phase = .refclkCheck ∧ (refclkCheck hz s).power.refFaultRecorded = true ∧
    (refclkCheck hz s).recorder = (if s.power.refFaultRecorded then s else s.record 0x1004 1 (le 4 hz)).recorder ∧
    Only [.power, .clk, .recorder] s (refclkCheck hz s) := by
  unfold refclkCheck
  rw [if_neg (not_not.mpr hp), h]
  dsimp only
  rw [if_neg Bool.false_ne_true]
  generalize hu : s.modClk _ = u
  have hu : Only [.clk] s u := hu ▸ Only.modClk s
  have hpow : u.power = s.power := hu.get .power
  have hrec : u.recorder = s.recorder := hu.get .recorder
  rw [hpow]
  by_cases hsaid : s.power.refFaultRecorded = true
  · rw [if_pos hsaid, if_pos hsaid, hpow]
    exact ⟨hp, hsaid, hrec, hu.mono (by simp)⟩
  · rw [if_neg hsaid, if_neg hsaid]
    refine ⟨?_, rfl, (Chip.modPower_recorder ..).trans (Chip.record_recorder hrec ..), ?_⟩
    · show u.power.phase = .refclkCheck
      rw [hpow, hp]
    · exact ((hu.mono (by simp)).comp ((Only.record u).mono (by simp))).comp ((Only.modPower _).mono (by simp))

/-! ## The boot ROM (R158, R163) -/

theorem exec_bootImageVerified (s : State) : exec .bootImageVerified s = next s (bootVerified s.chip) := rfl

/-- The device with the status of every image area noted. -/
def Chip.areasNoted (s : Chip) : Chip := ((s.noteArea 0).noteArea 1).noteArea 2

theorem Only.areasNoted (s : Chip) : Only [.boot] s s.areasNoted := ((Only.modBoot s).comp (Only.modBoot _)).comp (Only.modBoot _)

/-- Noting the areas moves their statuses only. -/
theorem Chip.areasNoted_boot (s : Chip) : ∃ a b r, s.areasNoted.boot = { s.boot with statusA := a, statusB := b, statusR := r } := ⟨_, _, _, rfl⟩

/-- An area's status follows from the flash and the fuses. -/
theorem Chip.areaStatus_eq (s : Chip) (n : Nat) : s.areaStatus n = ({ boot := { flash := s.boot.flash }, life := s.life } : Chip).areaStatus n := rfl

theorem Chip.areaStatus_congr {a b : Chip} (hf : b.boot.flash = a.boot.flash) (hl : b.life = a.life) (n : Nat) : b.areaStatus n = a.areaStatus n := by
  rw [Chip.areaStatus_eq b, hf, hl, ← Chip.areaStatus_eq a]

theorem Chip.areaStatus_empty {s : Chip} {n : Nat} (h : s.areaEmpty n = true) : s.areaStatus n = 0xFFFF := if_pos h

/-- The preferred slot runs where its image is good (R163). -/
theorem Chip.bootSlot_preferred {s : Chip} {a : Nat} (ha : a < 2) (hp : s.boot.preferred.toNat = a) (hs : s.areaStatus a = 0) : s.bootSlot = some a := by
  unfold Chip.bootSlot
  dsimp only
  rw [hp, Nat.mod_eq_of_lt ha]
  exact List.find?_cons_of_pos (by simp [hs])

/-- With both slots empty no image runs. -/
theorem Chip.bootSlot_empty {s : Chip} (h0 : s.areaEmpty 0 = true) (h1 : s.areaEmpty 1 = true) : s.bootSlot = none := by
  unfold Chip.bootSlot
  dsimp only
  have hs : ∀ a < 2, (s.areaStatus a == 0) = false := fun a ha => by
    obtain rfl | rfl : a = 0 ∨ a = 1 := by omega
    · rw [Chip.areaStatus_empty h0]; rfl
    · rw [Chip.areaStatus_empty h1]; rfl
  rw [List.find?_cons_of_neg (by rw [hs _ (by omega)]; decide), List.find?_cons_of_neg (by rw [hs _ (by omega)]; decide)]
  rfl

/-- The stored value of the preferred slot, which the ROM takes before the others (R163). -/
def Chip.storedPreference (s : Chip) : Option Stored := s.boot.store.find? fun e => e.index == 0x2500 && e.sub == 2

/-- The device once the stored preference is taken. -/
def Chip.takePreference (s : Chip) : Chip :=
  match s.storedPreference with
  | some e => s.modBoot fun b => { b with preferred := e.value.getD 0 0 }
  | none => s

theorem Only.takePreference (s : Chip) : Only [.boot] s s.takePreference := by
  unfold Chip.takePreference
  split
  · exact Only.modBoot s
  · exact Only.refl s _

/-- The preference taken leaves the flash and the slot that runs. -/
theorem Chip.takePreference_boot (s : Chip) : s.takePreference.boot.flash = s.boot.flash ∧ s.takePreference.boot.running = s.boot.running := by
  unfold Chip.takePreference
  split <;> exact ⟨rfl, rfl⟩

/-- In Locked or Scrapped, with no recovery image to go on to, start-up goes on with the reduced service (R72). -/
theorem bootVerified_shut {s : Chip} (hp : s.power.phase = .booting) (hr : s.boot.running = 0xFF)
    (hl : s.life.state = .scrapped ∨ s.life.state = .locked ∧ s.life.pending = none) :
    bootVerified s = s.areasNoted.modPower fun p => { p with phase := .reduced } := by
  have hlife : s.areasNoted.life = s.life := (Only.areasNoted s).get .life
  unfold bootVerified
  rw [if_neg (by simp [hp, hr])]
  refine (if_neg ?_).trans (if_pos ?_)
  · show ¬(s.areasNoted.life.state = .locked ∧ s.areasNoted.life.pending.isSome = true ∧ _)
    rw [hlife]
    rcases hl with hl | ⟨_, hn⟩
    · simp [hl]
    · simp [hn]
  · show s.areasNoted.life.state = .locked ∨ s.areasNoted.life.state = .scrapped
    rw [hlife]
    exact hl.symm.imp_left And.left

/-- In Locked with an intent pending the ROM goes on to a valid recovery image (R158). -/
theorem bootVerified_recovery {s : Chip} (hp : s.power.phase = .booting) (hr : s.boot.running = 0xFF) (hl : s.life.state = .locked)
    (hi : s.life.pending.isSome = true) (h2 : s.areasNoted.areaStatus 2 = 0) : bootVerified s = s.areasNoted := by
  have hlife : s.areasNoted.life = s.life := (Only.areasNoted s).get .life
  unfold bootVerified
  rw [if_neg (by simp [hp, hr])]
  refine if_pos ?_
  show s.areasNoted.life.state = .locked ∧ s.areasNoted.life.pending.isSome = true ∧ s.areasNoted.areaStatus 2 = 0
  rw [hlife]
  exact ⟨hl, hi, h2⟩

/-- In the other states the first bootable slot decides (R163): without one the reduced service applies, with one the CI runs it. -/
theorem bootVerified_slots {s : Chip} (hp : s.power.phase = .booting) (hr : s.boot.running = 0xFF) (hl : s.life.state ≠ .locked) (hs : s.life.state ≠ .scrapped) :
    (s.areasNoted.takePreference.bootSlot = none → bootVerified s = s.areasNoted.takePreference.modPower fun p => { p with phase := .reduced }) ∧
    (∀ a, s.areasNoted.takePreference.bootSlot = some a → ∃ u : Chip, bootVerified s = u.runCi) := by
  have hlife : s.areasNoted.life = s.life := (Only.areasNoted s).get .life
  have hl' : s.areasNoted.life.state ≠ .locked := hlife ▸ hl
  have hs' : s.areasNoted.life.state ≠ .scrapped := hlife ▸ hs
  unfold bootVerified
  rw [if_neg (by simp [hp, hr])]
  dsimp only
  rw [if_neg (fun h => hl' h.1), if_neg (fun h => h.elim hl' hs')]
  split
  · next h => exact ⟨fun _ => rfl, fun a ha => absurd (h.symm.trans ha) (by simp)⟩
  · next a h => exact ⟨fun hn => absurd (h.symm.trans hn) (by simp), fun _ _ => ⟨_, rfl⟩⟩

/-- From `a` to `b` start-up has come to the reduced service: no image runs (R75). -/
structure ReducedService (a b : Chip) : Prop where
  phase : b.power.phase = .reduced
  running : b.boot.running = 0xFF
  frame : Only [.power, .boot] a b

/-- The reduced service follows on changes of the boot state that start no image. -/
theorem ReducedService.of_boot {s u : Chip} (h : Only [.boot] s u) (hr : u.boot.running = 0xFF) :
    ReducedService s (u.modPower fun p => { p with phase := .reduced }) :=
  ⟨rfl, hr, (h.mono (by simp)).comp ((Only.modPower u).mono (by simp))⟩

/-- Noting the areas leaves the image that runs, the preferred slot, the store and the flash. -/
theorem Chip.areasNoted_keeps (s : Chip) : s.areasNoted.boot.running = s.boot.running ∧ s.areasNoted.boot.preferred = s.boot.preferred ∧
    s.areasNoted.storedPreference = s.storedPreference ∧ s.areasNoted.boot.flash = s.boot.flash := by
  obtain ⟨a, b, r, h⟩ := s.areasNoted_boot
  unfold Chip.storedPreference
  rw [h]
  exact ⟨rfl, rfl, rfl, rfl⟩

theorem bootVerified_shut_reduced {s : Chip} (hp : s.power.phase = .booting) (hr : s.boot.running = 0xFF)
    (hl : s.life.state = .scrapped ∨ s.life.state = .locked ∧ s.life.pending = none) : ReducedService s (bootVerified s) := by
  rw [bootVerified_shut hp hr hl]
  exact ReducedService.of_boot (Only.areasNoted s) (s.areasNoted_keeps.1.trans hr)

/-- With both slots empty and no intent pending the reduced service applies in every state (R75, R163). -/
theorem bootVerified_empty_reduced {s : Chip} (hp : s.power.phase = .booting) (hr : s.boot.running = 0xFF) (hn : s.life.pending = none)
    (h0 : s.areaEmpty 0 = true) (h1 : s.areaEmpty 1 = true) : ReducedService s (bootVerified s) := by
  by_cases hl : s.life.state = .locked
  · exact bootVerified_shut_reduced hp hr (.inr ⟨hl, hn⟩)
  by_cases hs : s.life.state = .scrapped
  · exact bootVerified_shut_reduced hp hr (.inl hs)
  obtain ⟨hrun, _, _, hflash⟩ := s.areasNoted_keeps
  obtain ⟨hflash', hrun'⟩ := s.areasNoted.takePreference_boot
  have he : ∀ n, s.areasNoted.takePreference.areaEmpty n = s.areaEmpty n := fun n => by unfold Chip.areaEmpty; rw [hflash', hflash]
  rw [(bootVerified_slots hp hr hl hs).1 (Chip.bootSlot_empty ((he 0).trans h0) ((he 1).trans h1))]
  exact ReducedService.of_boot ((Only.areasNoted s).comp (Only.takePreference _)) (hrun'.trans (hrun.trans hr))

/-- The slot that the boot state prefers runs, where its image is good and no other preference is stored (R163). -/
theorem bootVerified_preferred {s : Chip} {a : Nat} (ha : a < 2) (hp : s.power.phase = .booting) (hr : s.boot.running = 0xFF)
    (hl : s.life.state ≠ .locked) (hs : s.life.state ≠ .scrapped) (hpref : s.boot.preferred.toNat = a) (hstore : s.storedPreference = none)
    (hok : s.areaStatus a = 0) : ∃ u : Chip, bootVerified s = u.runCi := by
  obtain ⟨_, hpref', hstore', hflash⟩ := s.areasNoted_keeps
  have htake : s.areasNoted.takePreference = s.areasNoted := by
    unfold Chip.takePreference
    rw [hstore', hstore]
  refine (bootVerified_slots hp hr hl hs).2 a ?_
  rw [htake]
  refine Chip.bootSlot_preferred ha (hpref' ▸ hpref) ?_
  rw [Chip.areaStatus_congr hflash ((Only.areasNoted s).get .life), hok]

/-- The start of partitions moves watchdog slots only (R449). -/
theorem Chip.startPartition_slots (s : Chip) (p info : Nat) : Watchdog.SlotsMoved (fun _ => False) s.watchdog (s.startPartition p info).watchdog := by
  unfold Chip.startPartition
  exact (Chip.modSlots_slots (Chip.traceStart p info ((s.clearRam p).modPart p _)) p _).mono fun _ h => h.elim

theorem Chip.startPartitions_slots (l : List Nat) (s : Chip) :
    Watchdog.SlotsMoved (fun _ => False) s.watchdog (l.foldl (fun t p => if (t.part p).present then t.startPartition p 0 else t) s).watchdog := by
  induction l generalizing s with
  | nil => exact Watchdog.SlotsMoved.refl _ _
  | cons p l ih =>
    refine Watchdog.SlotsMoved.trans ?_ (ih _)
    dsimp only
    split
    · exact s.startPartition_slots p 0
    · exact Watchdog.SlotsMoved.refl _ _

/-- The CI that begins to run reads running, and period 0 of the watchdog begins then (R451). -/
theorem Chip.runCi_runs (s : Chip) : s.runCi.watchdog.number = 0 ∧ s.runCi.watchdog.startAt = s.runCi.clk.ticks ∧
    ∀ x, s.runCi.islands[2]? = some x → x = .running := by
  unfold Chip.runCi
  dsimp only
  have hclk : (s.runIsland 2).clk = s.clk := (Only.runIsland s).get .clk
  generalize hu : (s.runIsland 2).modWatchdog _ = u
  obtain ⟨m, hm, _⟩ := Chip.startPartitions_slots (List.range 8) u
  have ho : Only [.ci, .watchdog] u ((List.range 8).foldl (fun t p => if (t.part p).present then t.startPartition p 0 else t) u) :=
    Only.foldl _ (fun t p => Only.ite (Only.startPartition t) (Only.refl t _)) _ _
  rw [hm, ho.get .clk, ho.get .islands, ← hu]
  exact ⟨rfl, congrArg Clocks.ticks hclk.symm, s.runIsland_islands 2⟩

/-! ## The dictionary goes online (R72, R107) -/

theorem exec_dictionaryOnline (s : State) : exec .dictionaryOnline s = next s (dictionaryOnline s.chip) := rfl

theorem Chip.leaveReset_upState (s : Chip) : s.leaveReset.upState = s.upState := by
  unfold Chip.leaveReset
  extract_lets u v
  have hu : u.upState = s.upState := ite_upState (Chip.islandLoad_upState ..) rfl
  have hv : v.upState = u.upState := foldl_upState _ (fun t i => Chip.islandLoad_upState t i) _ _
  calc _ = ((v.islandLoad 9).firstCalibration.putIsland 9 .running).upState := Chip.islandLoad_upState ..
    _ = (v.islandLoad 9).upState := (Only.putIsland _).upState.trans (Only.firstCalibration _).upState
    _ = s.upState := (Chip.islandLoad_upState ..).trans (hv.trans hu)

theorem Chip.findConditions_upState (s : Chip) : s.findConditions.upState = s.upState := by
  unfold Chip.findConditions
  extract_lets islands refclk plls rails vbat
  have hislands : islands.upState = s.upState := foldl_upState _ (fun t i => ite_upState (Chip.raise_upState ..) rfl) _ _
  have hrefclk : refclk.upState = islands.upState := ite_upState (Chip.raise_upState ..) rfl
  have hplls : plls.upState = refclk.upState := foldl_upState _ (fun t p => ite_upState (Chip.raise_upState ..) rfl) _ _
  have hrails : rails.upState = plls.upState :=
    foldl_upState _ (fun t r => ite_upState rfl (foldl_upState _ (fun t i => Chip.raise_upState ..) _ _)) _ _
  have hvbat : vbat.upState = rails.upState := ite_upState rfl (Chip.raise_upState ..)
  have hwarning : (if vbat.background.warning = true then vbat.raiseTemperature else vbat).upState = vbat.upState := ite_upState (Chip.raise_upState ..) rfl
  rw [hwarning, hvbat, hrails, hplls, hrefclk, hislands]

/-- With an image that runs the HI comes online, at the present time of this start-up (R107). -/
theorem dictionaryOnline_booted {s : Chip} (ho : s.host.online = false) (hp : s.power.phase = .booting) (hr : s.boot.running ≠ 0xFF) :
    (dictionaryOnline s).upState = (true, { s.power with onlineUs := s.upUs, phase := .online }) := by
  have hb : (s.power.phase == .booting && s.boot.running != 0xFF) = true := by rw [hp]; exact bne_iff_ne.mpr hr
  unfold dictionaryOnline
  dsimp only
  rw [hb, if_neg (by simp [ho]), if_pos rfl, Chip.findConditions_upState, Chip.leaveReset_upState]
  generalize hu : (s.putIsland 0 .running).modHost _ = u
  have hup : u.takeBitCodes.initCan.upState = (true, s.power) := by
    rw [Chip.initCan_upState, Chip.takeBitCodes_upState, ← hu]
    rfl
  have hus : u.upUs = s.upUs := by rw [← hu]; rfl
  generalize u.takeBitCodes.initCan = v at hup ⊢
  obtain ⟨hon, hpow⟩ := Prod.mk.inj hup
  show (v.host.online, ({ v.power with onlineUs := u.upUs, phase := .online } : Power)) = _
  rw [hon, hpow, hus]

/-! ## The SI's start and ready to arm (R72, R195, R196, R226, R228) -/

theorem exec_siStart (tests : BitVec 9) (ok : Bool) (s : State) : exec (.siStart tests ok) s = next s (siStart tests ok s.chip) := rfl

theorem exec_readyToArm (s : State) : exec .readyToArm s = next s (readyToArm s.chip) := rfl

/-- The entropy source's start-up, passed or failed, leaves the known-answer tests. -/
theorem Chip.entropyStart_selfTest (s : Chip) (ok : Bool) :
    (if ok then (s.modCrypto fun c => { c with entropy := .healthy }).seedDrbg else s.entropyFailed 1).crypto.selfTest = s.crypto.selfTest := by
  cases ok <;> rfl

/-- With every self-test passed and the registry sound the SI runs. -/
theorem siStart_passed {s : Chip} {ok : Bool} (hi : s.island 3 = .loading) (hk : s.reloadKeys.loadRegistry.keys.registryOk = true) :
    ∃ u : Chip, siStart 0 ok s = u.runIsland 3 ∧ u.crypto.selfTest = 0 := by
  unfold siStart
  rw [if_neg (not_not.mpr hi)]
  dsimp only
  rw [if_neg (by simp), if_neg (by simp [hk])]
  exact ⟨_, rfl, Chip.entropyStart_selfTest ..⟩

/-- A self-test that fails makes the SI faulted (R228). -/
theorem siStart_failed {s : Chip} {tests : BitVec 9} {ok : Bool} (hi : s.island 3 = .loading) (ht : tests ≠ 0) :
    ∃ u : Chip, siStart tests ok s = u.failIsland 3 .faulted ∧ u.crypto.selfTest = BitVec.ofNat 16 tests.toNat := by
  unfold siStart
  rw [if_neg (not_not.mpr hi)]
  dsimp only
  rw [if_pos ht]
  exact ⟨_, rfl, rfl⟩

/-- With the MI, the SI and the TI running in the online phase the device is ready to arm (R72). -/
theorem readyToArm_online {s : Chip} (hp : s.power.phase = .online) (hmi : s.island 8 = .running) (hsi : s.island 3 = .running) (hti : s.island 6 = .running) :
    readyToArm s = s.modPower fun p => { p with phase := .ready, readyUs := max 1 s.upUs } :=
  if_pos ⟨hp, hmi, by simp [hsi], hti⟩

/-- Settles O7: each row is the equation of its command under the row's condition, with `Chip.runCi_runs` for the image that runs and
`dictionaryOnline_booted` for the HI. -/
theorem startUpRows : Obligations.StartUpRows := by
  unfold Obligations.StartUpRows
  refine ⟨fun hz s hp h0 hb hl => ?_, fun hz s hp hb => ?_, fun s hp hr hl => ?_, fun s hp hr hl hi h2 => ?_, fun s hp hr hn h0 h1 => ?_,
    fun a s ha hp hr hl hs hpref hstore hok => ?_, fun s ho hp hr => ?_, fun ok s hi hk => ?_, fun tests ok s hi ht => ?_,
    fun s hp hmi hsi hti => ?_⟩
  · refine ⟨_, congrArg (next s) (refclkCheck_passes hp (Chip.refPasses_within h0 hb)), rfl, ?_, Chip.island_putIsland (by simp [Chip.putIsland, hl]) _, rfl, rfl,
      Within.ofChip ?_⟩
    · exact (Chip.island_putIsland_ne (by decide) _).trans (Chip.island_putIsland (by simp [hl]) _)
    · exact ((((Only.modClk _).mono (by simp)).comp ((Only.modPower _).mono (by simp))).comp ((Only.putIsland _).mono (by simp))).comp
        ((Only.putIsland _).mono (by simp))
  · obtain ⟨hphase, hsaid, hrec, hframe⟩ := refclkCheck_fails hp (Chip.refPasses_beyond hb)
    refine ⟨_, exec_startupRefclkCheck hz s, ?_⟩
    dsimp only
    exact ⟨hphase, hsaid, hrec, Within.ofChip hframe⟩
  · obtain ⟨hphase, hrun, hframe⟩ := bootVerified_shut_reduced hp hr hl
    refine ⟨_, exec_bootImageVerified s, ?_⟩
    dsimp only
    exact ⟨hphase, hrun, Within.ofChip hframe⟩
  · refine ⟨_, congrArg (next s) (bootVerified_recovery hp hr hl hi h2), (Only.areasNoted s.chip).get .power, ?_, Within.ofChip (Only.areasNoted s.chip)⟩
    exact s.chip.areasNoted_keeps.1.trans hr
  · obtain ⟨hphase, hrun, hframe⟩ := bootVerified_empty_reduced hp hr hn h0 h1
    refine ⟨_, exec_bootImageVerified s, ?_⟩
    dsimp only
    exact ⟨hphase, hrun, Within.ofChip hframe⟩
  · obtain ⟨u, he⟩ := bootVerified_preferred ha hp hr hl hs hpref hstore hok
    refine ⟨_, congrArg (next s) he, ?_⟩
    dsimp only
    exact u.runCi_runs
  · obtain ⟨hon, hpow⟩ := Prod.mk.inj (dictionaryOnline_booted ho hp hr)
    refine ⟨_, exec_dictionaryOnline s, ?_⟩
    dsimp only
    rw [hon, hpow]
    exact ⟨rfl, rfl, rfl⟩
  · obtain ⟨u, he, ht⟩ := siStart_passed (ok := ok) hi hk
    exact ⟨_, congrArg (next s) he, (congrArg Crypto.selfTest ((Only.runIsland u).get .crypto)).trans ht, u.runIsland_islands 3⟩
  · obtain ⟨u, he, ht'⟩ := siStart_failed (ok := ok) hi ht
    exact ⟨_, congrArg (next s) he, (congrArg Crypto.selfTest ((Only.failIsland u).get .crypto)).trans ht', u.failIsland_islands 3 .faulted⟩
  · exact congrArg (next s) (readyToArm_online hp hmi hsi hti)

end Sys2Proof.Machine
end

section
/-! SUPPORT. What a clock period does to the clocks (R81, R96, R434). -/

namespace Sys2Proof.Machine

/-- A measurement of REFCLK changes its reading alone (R81). -/
theorem Chip.refTick_clk (s : Chip) : ∃ hz, s.refTick.clk = { s.clk with refHz := hz } := by
  unfold Chip.refTick
  split
  · exact ⟨_, rfl⟩
  · exact ⟨s.clk.refHz, rfl⟩

/-- A step of a clock offset changes action time alone (R434). -/
theorem Chip.adjustStep_clk (s : Chip) : ∃ a, s.adjustStep.clk = { s.clk with action := a } := by
  unfold Chip.adjustStep
  dsimp only
  split
  · exact ⟨s.clk.action, rfl⟩
  · exact ⟨_, rfl⟩

/-- With no clock offset to be worked off there is no step. -/
theorem Chip.adjustStep_none {s : Chip} (h : s.cluster.adjust = 0) : s.adjustStep = s := if_pos (.inl h)

/-- Action time after one more period, where no clock offset is worked off (R96). -/
def Clocks.periodLater (c : Clocks) : Nat := if c.counting then (c.action + 640) % 2 ^ 72 else c.action

/-- A period of a device that does not wait for its rails counts in the tap counter and in action time, and changes the REFCLK reading at
most beside. -/
theorem tick_clk (a : RecArray) (s : Chip) (h : s.power.phase ≠ .railsWait) :
    ∃ hz t, (tick a s).clk = { s.clk with ticks := s.clk.ticks + 1, action := t, refHz := hz } ∧
      (s.cluster.adjust = 0 → t = s.clk.periodLater) := by
  have hvbat := Chip.vbatTick_only s.advance h
  obtain ⟨hz, href⟩ := Chip.refTick_clk s.advance.vbatTick
  have hrefOnly := Chip.refTick_only s.advance.vbatTick
  have hswept : Only [.keys, .dram, .background] s.advance.vbatTick.refTick s.advance.vbatTick.refTick.meshStep.dramSweep.sramSweep.flashSweep :=
    ((((Chip.meshStep_only _).mono (by simp)).comp ((Chip.dramSweep_only _).mono (by simp))).comp ((Chip.sramSweep_only _).mono (by simp))).comp
      ((Chip.flashSweep_only _).mono (by simp))
  unfold tick
  generalize s.advance.vbatTick.refTick.meshStep.dramSweep.sramSweep.flashSweep = u at hswept ⊢
  have hclk : u.clk = { s.clk with ticks := s.clk.ticks + 1, action := s.clk.periodLater, refHz := hz } := by
    rw [hswept.get .clk, href, hvbat.get .clk]
    rfl
  have hadjust : u.cluster.adjust = s.cluster.adjust := by
    rw [hswept.get .cluster, hrefOnly.get .cluster, hvbat.get .cluster]
    rfl
  have hsent : Only [.pair, .cluster, .host, .out] u.adjustStep (u.adjustStep.beatStep.pairStep.transmitStep.eventPdos a) :=
    ((((Chip.beatStep_only _).mono (by simp)).comp ((Chip.pairStep_only _).mono (by simp))).comp ((Chip.transmitStep_only _).mono (by simp))).comp
      ((Chip.eventPdos_only a _).mono (by simp))
  rw [hsent.get .clk]
  obtain ⟨t, ht⟩ := u.adjustStep_clk
  refine ⟨hz, t, by rw [ht, hclk], fun h0 => ?_⟩
  rw [Chip.adjustStep_none (hadjust.trans h0), hclk] at ht
  exact (congrArg Clocks.action ht).symm

/-- On an empty queue a step is one clock period (log 2). -/
theorem step_idle (s : State) : step { s with pending := [] } = .next { s with chip := tick s.array s.chip, pending := [] } := rfl

/-- Settles O1: a step runs the front of the queue by its definition, and on an empty queue `tick_clk` and `tick_only` say what the
period changes. -/
theorem stepTakesTheFrontOrIdles : Obligations.StepTakesTheFrontOrIdles := by
  unfold Obligations.StepTakesTheFrontOrIdles
  refine ⟨fun c s => rfl, fun s h =>
    ⟨_, step_idle s, ?_, ?_, Within.ofChip (s := { s with pending := [] }) (tick_only s.array s.chip h)⟩, fun s => ⟨_, step_idle s, rfl⟩⟩
  · obtain ⟨hz, t, hclk, _⟩ := tick_clk s.array s.chip h
    dsimp only
    rw [hclk]
  · intro h0
    obtain ⟨hz, t, hclk, ht⟩ := tick_clk s.array s.chip h
    dsimp only
    rw [hclk]
    exact ht h0

end Sys2Proof.Machine
end

section
/-! SUPPORT. Clock outputs and spread (R84, R92 to R95): what an apply does from each state of its output, and the steps of a phase. -/

namespace Sys2Proof.Machine

/-! ## Host writes that reach their owner (R31) -/

/-- A write that reaches its owner is answered with what the owner answers. -/
theorem hostWrite_go {p : Path} {tag : Word16} {idx sub : Nat} {payload : Bytes} {chk : Req → Chip → Nat} {act : Req → Chip → Chip × Reply}
    {s c : Chip} {r : Req} (h : gate p tag idx sub payload chk s = .go r c) :
    hostWrite p tag idx sub payload chk act s = Chip.finish r.dest (act r c) := by
  unfold hostWrite
  rw [h]

/-! ## CLKO_APPLY (R92, R94) -/

/-- The device whose output `k` has let go of the stored values that waited for its PLL. -/
def Chip.unrestored (k : Nat) (s : Chip) : Chip := s.modClko k fun x => { x with restored := none }

/-- Behind a transition an apply is staged (R94). -/
theorem Chip.applyOutput_staged {s : Chip} {k : Nat} (h : (s.clko k).inTransition = true) (fmt src div : Nat) :
    s.applyOutput k fmt src div = (s.unrestored k).modClko k fun x => { x with again := some (fmt, src, div) } := by
  have ht : ((s.unrestored k).clko k).inTransition = true := by simp [Chip.unrestored, h]
  exact if_pos ht

/-- An output with no transition under way begins one. -/
theorem Chip.applyOutput_begins {s : Chip} {k : Nat} (h : (s.clko k).inTransition = false) (fmt src div : Nat) :
    s.applyOutput k fmt src div =
      (s.unrestored k).transition k ((s.unrestored k).vco ((s.unrestored k).clko k).sourceIn) fmt src div := by
  have ht : ((s.unrestored k).clko k).inTransition ≠ true := by simp [Chip.unrestored, h]
  exact if_neg ht

/-- A transition to format 0 turns the output off at once (R92). -/
theorem Chip.transition_off (s : Chip) (k oldV src div : Nat) :
    s.transition k oldV 0 src div = s.modClko k fun x =>
      { x with formatIn := 0, sourceIn := src, dividerIn := div, status := .off, inTransition := false, fromOff := false, bypass := none, hz := 0 } := by
  unfold Chip.transition Chip.beginTransition
  dsimp only
  rw [if_neg (fun h => h.1 rfl), if_pos rfl]

/-- A transition from off rests low until its source is locked (R92). -/
theorem Chip.beginTransition_fromOff {s : Chip} {k fmt : Nat} (hf : fmt ≠ 0) (ho : (s.clko k).formatIn = 0) (oldV src div : Nat) :
    s.beginTransition k oldV fmt src div = s.modClko k fun x =>
      { x with formatIn := fmt, sourceIn := src, dividerIn := div, inTransition := true, fromOff := true, bypass := none, status := .heldLow } := by
  have hlow : ((s.clko k).formatIn == 0 || ((s.clko k).inTransition && (s.clko k).fromOff)) = true := by rw [ho]; rfl
  unfold Chip.beginTransition
  rw [if_neg hf]
  dsimp only
  rw [hlow]
  rfl

/-- With its source locked a transition comes to step 5 at once (R92). -/
theorem Chip.transition_locked {s : Chip} {k fmt src : Nat} (hf : fmt ≠ 0) (hl : s.locked src = true) (oldV div : Nat) :
    s.transition k oldV fmt src div = (s.beginTransition k oldV fmt src div).stepFive k := by
  have hplls : (s.beginTransition k oldV fmt src div).plls = s.plls := by
    unfold Chip.beginTransition
    rw [if_neg hf]
    rfl
  have hl' : (s.beginTransition k oldV fmt src div).locked src = true := by
    unfold Chip.locked Chip.pll at hl ⊢
    rw [hplls]
    exact hl
  exact if_pos ⟨hf, hl'⟩

/-- From off, with its source locked, an output runs at once (R92). -/
theorem Chip.applyOutput_runs {s : Chip} {k fmt src : Nat} (hi : (s.clko k).inTransition = false) (hf : fmt ≠ 0) (ho : (s.clko k).formatIn = 0)
    (hl : s.locked src = true) (div : Nat) :
    s.applyOutput k fmt src div = ((s.unrestored k).modClko k fun x =>
      { x with formatIn := fmt, sourceIn := src, dividerIn := div, inTransition := true, fromOff := true, bypass := none, status := .heldLow }).stepFive k := by
  have ho' : ((s.unrestored k).clko k).formatIn = 0 := by simp [Chip.unrestored, ho]
  rw [Chip.applyOutput_begins hi, Chip.transition_locked (s := s.unrestored k) hf hl, Chip.beginTransition_fromOff hf ho']

/-- An apply that reaches its output is answered with ok. -/
theorem exec_clkoApply {p : Path} {tag : Word16} {k : Fin 6} {s : State} {r : Req} {c : Chip}
    (h : gate p tag (0x2620 + k.val) 9 [1]
      (fun _ s => let o := s.clko k.val; if s.outputOk o.format o.source o.divider then 0 else 2) s.chip = .go r c) :
    exec (.clkoApply p tag k) s =
      next s (Chip.finish r.dest (c.applyOutput k.val (c.clko k.val).format (c.clko k.val).source (c.clko k.val).divider, ok)) :=
  congrArg (next s) (hostWrite_go h)

/-! ## Phase steps (R95) -/

/-- One step moves from the pending to the cumulative count, in the direction of those that pend. -/
theorem phaseStep_moves {k : Nat} {s : Chip} (hr : (s.clko k).status = .running) (hi : (s.clko k).inTransition = false)
    (hp : (s.clko k).pendingSteps ≠ 0) :
    phaseStep k s = s.modClko k fun o =>
      { o with pendingSteps := o.pendingSteps - (if 0 < (s.clko k).pendingSteps then 1 else -1)
               cumulative := o.cumulative + (if 0 < (s.clko k).pendingSteps then 1 else -1) } :=
  if_neg (by simp [hr, hi, hp])

/-- With no step pending nothing moves. -/
theorem phaseStep_none {k : Nat} {s : Chip} (hp : (s.clko k).pendingSteps = 0) : phaseStep k s = s := if_pos (.inr (.inr hp))

theorem exec_phaseStepApplied (k : Fin 6) (s : State) : exec (.phaseStepApplied k) s = next s (phaseStep k.val s.chip) := rfl

/-- Settles O9: each apply is the equation of `Chip.applyOutput` under its condition, each phase step that of `phaseStep`. -/
theorem clockOutputRows : Obligations.ClockOutputRows := by
  unfold Obligations.ClockOutputRows
  refine ⟨fun p tag k s r c h => ?_, fun p tag k steps s r c h => congrArg (next s) (hostWrite_go h), fun k s hr hi => ⟨fun hp => ?_, fun hp => ?_, fun hp => ?_⟩,
    fun unit s h => ?_⟩
  · refine ⟨fun hi => ?_, fun hi hf => ?_, fun hi hf ho hl => ⟨_, (exec_clkoApply h).trans rfl, ?_, ?_⟩⟩
    · rw [exec_clkoApply h, Chip.applyOutput_staged hi]
      rfl
    · rw [exec_clkoApply h, hf, Chip.applyOutput_begins hi, Chip.transition_off]
      rfl
    · rw [Chip.applyOutput_runs hi hf ho hl]
      have hout : ∀ f, Only [.clkos] c (((c.unrestored k.val).modClko k.val f).stepFive k.val) := fun f =>
        ((Only.modClko c).comp (Only.modClko _)).comp (Only.modClko _)
      exact ((hout _).mono (by simp)).comp (Only.finish.mono (by simp))
    · dsimp only
      rw [Chip.applyOutput_runs hi hf ho hl]
      rfl
  · rw [exec_phaseStepApplied, phaseStep_moves hr hi hp.ne', if_pos hp]
  · rw [exec_phaseStepApplied, phaseStep_moves hr hi hp.ne, if_neg (by omega)]
    rfl
  · rw [exec_phaseStepApplied, phaseStep_none hp]
    rfl
  · exact congrArg (next s) (if_neg (by simp [h]))

end Sys2Proof.Machine
end

section
/-! SUPPORT. Launches (R98 to R103, R260): the acceptance of a request, and what its time does to a pending one. -/

namespace Sys2Proof.Machine

/-! ## What the start of a run reaches (R303, R321, R337, R347 to R355) -/

theorem Only.dramEnqueue {r} (s : Chip) : Only [.dram] s (s.dramEnqueue r) := by
  unfold Chip.dramEnqueue
  exact Only.ite (Only.dramPut s) ((Only.modDram s).comp (Only.foldl _ (fun s _ => Only.dramPut s) _ _))

theorem Only.enterFull {u t} (s : Chip) : Only [.acq] s (s.enterFull u t) := by
  unfold Chip.enterFull
  exact Only.ite (Only.modUnit s) (Only.refl s _)

/-- The parts that a capture record reaches: its unit, the DRAM behind staging, and the recorder's counters. -/
def captureParts : List Part := [.acq, .dram, .recorder]

theorem Only.loseRecord {u k t f} (s : Chip) : Only captureParts s (s.loseRecord u k t f) := by
  unfold Chip.loseRecord
  exact ((Only.ite ((Only.enterFull s).mono (by decide)) (Only.refl s _)).comp ((Only.modUnit _).mono (by decide))).comp
    ((Only.count _).mono (by decide))

theorem Only.putRecord {u b f t} (s : Chip) : Only captureParts s (s.putRecord u b f t) := by
  unfold Chip.putRecord
  refine Only.ite (Only.loseRecord s) (Only.ite (Only.loseRecord s) ?_)
  exact ((((((Only.modUnit s).mono (by decide)).comp ((Only.dramEnqueue _).mono (by decide))).comp ((Only.modUnit _).mono (by decide))).comp
    ((Only.modAcq _).mono (by decide)))).comp ((Only.enterFull _).mono (by decide))

theorem Only.trigger {u t h} (s : Chip) : Only captureParts s (s.trigger u t h) := by
  have hunit : ∀ {f} (c : Chip), Only captureParts c (c.modUnit u f) := fun c => (Only.modUnit c).mono (by decide)
  unfold Chip.trigger
  extract_lets unit served again payload held taken
  have hserved : Only captureParts s served := Only.ite (hunit s) (Only.refl s _)
  have htaken : Only captureParts s (taken.putRecord u (recordShell 6 u 0xFF 0 t payload) 0 t) := (hserved.comp (hunit _)).comp (Only.putRecord taken)
  exact Only.ite (Only.refl s _) (Only.ite (hunit s) (htaken.comp (Only.foldl _ (fun c _ => Only.putRecord c) _ _)))

theorem Only.launchAcq {q} (s : Chip) : Only [.lanes, .acq] s (s.launchAcq q) :=
  (((Only.foldl _ (fun c _ => (Only.modLane c).mono (by simp)) _ s).comp
    (Only.foldl _ (fun c _ => (Only.modSiteAq c).mono (by simp)) _ _)).comp ((Only.modUnit _).mono (by simp))).comp
    ((Only.enterFull _).mono (by simp))

theorem Only.launchSeals {q} (s : Chip) : Only [.crypto, .sealed_] s (s.launchSeals q) :=
  Only.foldl _ (fun c _ => ((Only.freeInjector c).mono (by simp)).comp ((Only.modSeal _).mono (by simp))) _ s

theorem Only.modPort {k f} (s : Chip) : Only [.segs] s (s.modPort k f) := Only.modSegs s

theorem Only.launchPorts {q} (s : Chip) : Only [.segs] s (s.launchPorts q) := Only.foldl _ (fun c _ => Only.modPort c) _ s

theorem Only.uncoverLanes {q} (s : Chip) : Only [.lanes] s (s.uncoverLanes q) := by
  unfold Chip.uncoverLanes
  exact Only.ite (Only.refl s _) (Only.foldl _ (fun c _ => Only.modLane c) _ s)

/-- The parts that the start of a run reaches beside its sequencer: the clocks' counter of launches as soon as possible, lanes, capture,
fields, ports, and the conditions that end. -/
def launchParts : List Part := [.clk, .host, .out, .lanes, .crypto, .sealed_, .segs] ++ captureParts

/-- Sequencer `q` as its run starts at `t`: what `Chip.launchNow` gives it. -/
theorem Chip.launchNow_seq (s : Chip) (q : Nat) (x : Stamp) (held : Bool) :
    ((s.launchNow q x held).sq q).state = .running ∧ ((s.launchNow q x held).sq q).pc = 0 ∧ ((s.launchNow q x held).sq q).vecIndex = 0 ∧
    ((s.launchNow q x held).sq q).launch = none ∧
    ((s.launchNow q x held).sq q).baseNs256 = (if x.asap then s.clk.action else x.at256) ∧ ((s.launchNow q x held).sq q).latches = 0 ∧
    ((s.launchNow q x held).sq q).dropped = 0 := by
  unfold Chip.launchNow
  extract_lets t flags started counted ended played
  have hcounted : Only launchParts started counted := Only.ite ((Only.modClk _).mono (by decide)) (Only.refl _ _)
  have hended : Only launchParts counted ended := Only.foldl _ (fun c _ => (Only.endCondition c).mono (by decide)) _ _
  have hplayed : Only launchParts ended played :=
    ((((Only.uncoverLanes ended).mono (by decide)).comp ((Only.launchAcq _).mono (by decide))).comp ((Only.launchSeals _).mono (by decide))).comp
      ((Only.launchPorts _).mono (by decide))
  have hrun : Only launchParts started (if (played.unit q).trigSource = 0 ∧ played.runs 7 = true then played.trigger q (100 * t) false else played) :=
    ((hcounted.comp hended).comp hplayed).comp (Only.ite ((Only.trigger played).mono (by decide)) (Only.refl _ _))
  rw [hrun.sq (by decide) q]
  simp [started, t]

/-! ## SEQ_LAUNCH (R98, R100, R102, R260) -/

/-- A launch that reaches the sequencer is answered with `launchSeq`. -/
theorem exec_seqLaunch {p : Path} {tag : Word16} {q : Fin 16} {b : Bytes} {s : State} {r : Req} {c : Chip}
    (h : gate p tag (0x3100 + q.val) 3 b (fun _ _ => stampOk b) s.chip = .go r c) :
    exec (.seqLaunch p tag q b) s = next s (Chip.finish r.dest (launchSeq q.val b r c)) := congrArg (next s) (hostWrite_go h)

/-- The TI and the SQ serve a device that is ready: the first condition of a launch. -/
def Chip.launches (s : Chip) : Prop := s.power.phase = .ready ∧ s.runs 5 = true ∧ s.runs 6 = true

theorem Chip.launches.not_refused {s : Chip} (h : s.launches) : ¬ (s.power.phase ≠ .ready ∨ s.runs 5 = false ∨ s.runs 6 = false) := by
  obtain ⟨hp, h5, h6⟩ := h
  simp [hp, h5, h6]

section
variable {q : Nat} {b : Bytes} {c : Chip}

theorem launchSeq_notServed (r : Req) (h : c.power.phase ≠ .ready ∨ c.runs 5 = false ∨ c.runs 6 = false) : launchSeq q b r c = (c, bad 4) := if_pos h

theorem launchSeq_notArmed (r : Req) (h : c.launches) (ha : (c.sq q).state ≠ .armed) : launchSeq q b r c = (c, bad 5) :=
  (if_neg h.not_refused).trans (if_pos ha)

/-- Sequencer `y` with a pending launch at `x`, the `order`-th that was accepted (R260). -/
def Seq.pendingAt (x : Stamp) (held : Bool) (order : Nat) (y : Seq) : Seq :=
  { y with state := .launchPending, launch := some x, launchHeld := held, launchMissed := false, acceptOrder := order }

/-- The place of the next accepted launch. -/
def Chip.nextOrder (s : Chip) : Nat := ((s.seqs.map fun y => y.2.acceptOrder).foldl max 0) + 1

/-- An armed sequencer's launch is judged by the room for it and by its time. -/
theorem launchSeq_armed (r : Req) (h : c.launches) (ha : (c.sq q).state = .armed) :
    launchSeq q b r c =
      if c.pendingLaunches.length ≥ 64 then (c, .busy c.launchDelay)
      else if (stampOf b).asap = false ∧ (stampOf b).at256 < c.clk.action + ns2000 then
        (c.modClk fun k => { k with late := satAdd 32 k.late 1 }, bad 6)
      else (c.modSq q (Seq.pendingAt (stampOf b) (!c.permits (stampOf b)) c.nextOrder), ok) :=
  (if_neg h.not_refused).trans (if_neg (not_not.mpr ha))

theorem Stamp.asap_iff (x : Stamp) : x.asap = true ↔ x.at256 = 0 := beq_iff_eq

theorem Stamp.asap_false_iff (x : Stamp) : x.asap = false ↔ x.at256 ≠ 0 := beq_eq_false_iff_ne

/-! ## LAUNCH_TAKES_EFFECT, HELD_LAUNCH_PERMITTED and HELD_ACTION_LATE (R99, R101, R103) -/

theorem exec_launchTakesEffect (q : Fin 16) (s : State) : exec (.launchTakesEffect q) s = next s (launchEffect q.val s.chip) := rfl

theorem exec_heldLaunchPermitted (q : Fin 16) (s : State) : exec (.heldLaunchPermitted q) s = next s (heldPermitted q.val s.chip) := rfl

theorem exec_heldActionLate (q : Fin 16) (s : State) : exec (.heldActionLate q) s = next s (heldLate q.val s.chip) := rfl

/-- At its time a pending launch starts the run, or is held. -/
theorem launchEffect_due {x : Stamp} (hl : (c.sq q).launch = some x) (hs : (c.sq q).state = .launchPending)
    (ht : x.at256 = 0 ∨ x.at256 ≤ c.clk.action) :
    launchEffect q c = if c.permits x = false ∨ (c.sq q).launchMissed then c.modSq q fun y => { y with launchHeld := true }
      else c.launchNow q x (c.sq q).launchHeld := by
  have hdue : ¬ ((c.sq q).state ≠ .launchPending ∨ (x.asap = false ∧ c.clk.action < x.at256)) := by
    rw [Stamp.asap_false_iff]
    rintro (h | ⟨h0, hlt⟩)
    · exact h hs
    · omega
  unfold launchEffect
  dsimp only
  rw [hl]
  exact if_neg hdue

/-- A held launch that is permitted again starts as soon as possible, or has missed its time when it is less than 2,000 ns ahead. -/
theorem heldPermitted_held {x : Stamp} (hl : (c.sq q).launch = some x) (hh : (c.sq q).launchHeld = true) (hp : c.permits x = true) :
    heldPermitted q c = if x.asap then (if (c.sq q).state = .launchPending then c.launchNow q x true else c)
      else if x.at256 < c.clk.action + ns2000 then c.modSq q fun y => { y with launchMissed := true } else c := by
  unfold heldPermitted
  dsimp only
  rw [hl]
  exact if_neg (by simp [hh, hp])

/-- A launch whose time has passed, and which cannot run, is over with the late code. -/
theorem heldLate_over {x : Stamp} (hl : (c.sq q).launch = some x) (h0 : x.at256 ≠ 0) (ht : x.at256 ≤ c.clk.action)
    (hn : c.permits x = false ∨ (c.sq q).launchMissed = true ∨ (c.sq q).state ≠ .launchPending) :
    heldLate q c = (c.modSq q (Seq.actionOver 6)).modClk fun k => { k with late := satAdd 32 k.late 1 } := by
  have hlate : ¬ (x.asap = true ∨ c.clk.action < x.at256 ∨ (c.permits x = true ∧ (c.sq q).launchMissed = false ∧ (c.sq q).state = .launchPending)) := by
    rw [Stamp.asap_iff]
    rintro (h | h | ⟨hp, hm, hs⟩)
    · exact h0 h
    · omega
    · simp [hp, hm, hs] at hn
  unfold heldLate
  dsimp only
  rw [hl]
  exact if_neg hlate

end

/-- Settles O19: a request is judged by `launchSeq_armed` and the two refusals before it, a pending launch by the equation of its event,
and `Chip.launchNow_seq` says what the start of a run gives the sequencer. -/
theorem launchRows : Obligations.LaunchRows := by
  unfold Obligations.LaunchRows
  refine ⟨fun p tag q b s r c h => ⟨fun hn => ?_, fun hp h5 h6 => ⟨fun ha => ?_, fun ha => ⟨fun hfull => ?_, fun hroom h0 hlate => ?_, fun hroom ht => ?_⟩⟩⟩,
    fun q x s hl hs ht => ⟨fun hperm hmiss => ?_, fun hperm => ?_⟩, fun q x s hl hh hperm => ⟨fun h0 hs => ?_, fun h0 hlt => ?_⟩,
    fun q x s hl h0 ht hn => ?_⟩
  · rw [exec_seqLaunch h, launchSeq_notServed r hn]
    rfl
  · rw [exec_seqLaunch h, launchSeq_notArmed r ⟨hp, h5, h6⟩ ha]
    rfl
  · rw [exec_seqLaunch h, launchSeq_armed r ⟨hp, h5, h6⟩ ha, if_pos hfull]
    rfl
  · rw [exec_seqLaunch h, launchSeq_armed r ⟨hp, h5, h6⟩ ha, if_neg (by omega), if_pos ⟨(Stamp.asap_false_iff _).mpr h0, hlate⟩]
    rfl
  · have hnotLate : ¬ ((stampOf b).asap = false ∧ (stampOf b).at256 < c.clk.action + ns2000) := by
      rw [Stamp.asap_false_iff, ns2000]
      omega
    have hseq : (c.modSq q.val (Seq.pendingAt (stampOf b) (!c.permits (stampOf b)) c.nextOrder)).sq q.val = Seq.pendingAt _ _ _ (c.sq q.val) :=
      (c.sq_modSq ..).trans (if_pos rfl)
    refine ⟨c.modSq q.val (Seq.pendingAt (stampOf b) (!c.permits (stampOf b)) c.nextOrder), ?_, ?_, ?_, ?_, fun j hj => (c.sq_modSq ..).trans (if_neg hj), Only.modSq c⟩
    · rw [exec_seqLaunch h, launchSeq_armed r ⟨hp, h5, h6⟩ ha, if_neg (by omega), if_neg hnotLate]
      rfl
    all_goals rw [hseq]; rfl
  · obtain ⟨hstate, hpc, hvec, hlaunch, hbase, hlatches, hdropped⟩ := s.chip.launchNow_seq q.val x (s.chip.sq q.val).launchHeld
    refine ⟨_, exec_launchTakesEffect q s, ?_⟩
    dsimp only
    rw [launchEffect_due hl hs ht, if_neg (by simp [hperm, hmiss])]
    simp only [Stamp.asap_iff] at hbase
    exact ⟨hstate, hpc, hvec, hlaunch, hbase, hlatches, hdropped⟩
  · refine ⟨_, exec_launchTakesEffect q s, ?_⟩
    rw [launchEffect_due hl hs ht, if_pos (.inl hperm)]
    exact seqStep_modSq q.val (fun y => { y with launchHeld := true }) s
  · rw [exec_heldLaunchPermitted, heldPermitted_held hl hh hperm, if_pos ((Stamp.asap_iff x).mpr h0), if_pos hs]
  · refine ⟨_, exec_heldLaunchPermitted q s, ?_⟩
    rw [heldPermitted_held hl hh hperm, if_neg (by rw [Stamp.asap_iff]; exact h0), if_pos (c := x.at256 < s.chip.clk.action + ns2000) hlt]
    exact seqStep_modSq q.val (fun y => { y with launchMissed := true }) s
  · refine ⟨_, exec_heldActionLate q s, ?_⟩
    rw [heldLate_over hl h0 ht hn]
    have hseq : ((s.chip.modSq q.val (Seq.actionOver 6)).modClk fun k => { k with late := satAdd 32 k.late 1 }).sq q.val =
        Seq.actionOver 6 (s.chip.sq q.val) :=
      ((Only.modClk _).sq (by decide) q.val).trans (by simp)
    dsimp only
    rw [hseq]
    exact ⟨rfl, rfl, rfl, rfl, Within.ofChip (((Only.modSq s.chip).mono (by simp)).comp ((Only.modClk _).mono (by simp)))⟩

end Sys2Proof.Machine
end

section
/-! SUPPORT. What the end of runs and the resets of the islands reach: none of it is a clock but CH_18's count (R23, R261, Table 20.1). -/

namespace Sys2Proof.Machine

/-- The parts of the islands' own work: all but the supplies, the clocks with PLLs and outputs, and the states of the islands. -/
def workParts : List Part :=
  [.host, .lanes, .seqs, .segs, .sealed_, .acq, .dram, .levels, .cluster, .watchdog, .ci, .boot, .keys, .crypto, .recorder, .reseat, .pair, .out, .free]

/-! ## The end of a run (R261, R293, R321, R344 to R355) -/

theorem Only.primerRecord {u b t} (s : Chip) : Only captureParts s (s.primerRecord u b t) := by
  unfold Chip.primerRecord
  exact Only.ite (Only.loseRecord s) ((Only.modUnit s).mono (by decide))

theorem Only.captureDone {u t} (s : Chip) : Only [.acq, .free] s (s.captureDone u t) := by
  have hunit : ∀ {f} (c : Chip), Only [.acq, .free] c (c.modUnit u f) := fun c => (Only.modUnit c).mono (by simp)
  unfold Chip.captureDone
  exact (hunit s).comp (Only.ite (hunit _) (Only.ite (hunit _) (((Only.drawBytes _).mono (by simp)).comp (hunit _))))

theorem Only.captureRecord {u b t} (s : Chip) : Only workParts s (s.captureRecord u b t) := by
  unfold Chip.captureRecord
  refine Only.ite ((Only.primerRecord s).mono (by decide)) (Only.ite ?_ (Only.refl s _))
  exact (((Only.putRecord s).mono (by decide)).comp ((Only.modUnit _).mono (by decide))).comp
    (Only.ite ((Only.captureDone _).mono (by decide)) (Only.refl _ _))

theorem Only.flushSamples {u k} (s : Chip) : Only workParts s (s.flushSamples u k) := by
  unfold Chip.flushSamples
  exact Only.ite (Only.refl s _) (((Only.modUnit s).mono (by decide)).comp (Only.captureRecord _))

theorem Only.responseRecord {u k} (s : Chip) : Only captureParts s (s.responseRecord u k) := by
  unfold Chip.responseRecord
  exact Only.ite (Only.putRecord s) (Only.refl s _)

theorem Only.stopTimer {u k} (s : Chip) : Only captureParts s (s.stopTimer u k) := by
  unfold Chip.stopTimer
  exact Only.ite (((Only.modSiteAq s).mono (by decide)).comp (Only.responseRecord _)) (Only.refl s _)

theorem Only.endAcq {q} (s : Chip) : Only workParts s (s.endAcq q) :=
  ((Only.foldl _ (fun c _ => Only.flushSamples c) _ s).comp (Only.foldl _ (fun c _ => (Only.stopTimer c).mono (by decide)) _ _)).comp
    ((Only.modUnit _).mono (by decide))

theorem Only.closeProof {q k x} (s : Chip) : Only [.sealed_] s (s.closeProof q k x) := by
  unfold Chip.closeProof
  exact Only.ite (Only.modSeal s) (Only.modSeal s)

theorem Only.abandonFields {q} (s : Chip) : Only workParts s (s.abandonFields q) := by
  refine Only.comp (Only.comp (Only.foldl _ (fun c k => ?_) _ s) ((Only.modSq _).mono (by decide)))
    (Only.foldl _ (fun c _ => (Only.modLane c).mono (by decide)) _ _)
  exact (Only.ite (Only.refl c _) ((Only.freeInjector c).mono (by decide))).comp ((Only.modSeal _).mono (by decide))

theorem Only.endSeals {q x} (s : Chip) : Only workParts s (s.endSeals q x) :=
  (Only.abandonFields s).comp
    (Only.foldl _ (fun c _ => ((Only.closeProof c).mono (by decide)).comp ((Only.modSeal _).mono (by decide))) _ _)

theorem Only.endPorts {q} (s : Chip) : Only [.segs] s (s.endPorts q) := Only.foldl _ (fun c _ => Only.modPort c) _ s

theorem Only.endRun {q x} (s : Chip) : Only workParts s (s.endRun q x) := by
  unfold Chip.endRun
  extract_lets released covered ended
  have hreleased : Only workParts s released := ((Only.endAcq s).comp (Only.endSeals _)).comp ((Only.endPorts _).mono (by decide))
  have hcovered : Only workParts released covered :=
    ((Only.ite (c := released.coverAtBoundary q _) ((Only.coverLanes released).mono (by decide)) ((Only.eachLane released).mono (by decide))).comp
      ((Only.eachLane _).mono (by decide))).comp ((Only.clearRing _).mono (by decide))
  have hended : Only workParts s ended := (hreleased.comp hcovered).comp ((Only.modSq _).mono (by decide))
  exact hended.comp (Only.ite (Only.refl _ _) ((Only.leaveBarriers _).mono (by decide)))

/-! ## Sequencers that fault, park or reset (R96, R261, R263) -/

theorem Only.endHeldRun {q n x} (s : Chip) : Only workParts s ((s.emitHolds q n).endRun q x) :=
  ((Only.emitHolds s).mono (by decide)).comp (Only.endRun _)

theorem Only.coverAndLeave {q l f} (s : Chip) : Only workParts s ((((s.coverLanes l).clearRing q).modSq q f).leaveBarriers q) :=
  ((((Only.coverLanes s).mono (by decide)).comp ((Only.clearRing _).mono (by decide))).comp ((Only.modSq _).mono (by decide))).comp
    ((Only.leaveBarriers _).mono (by decide))

theorem Only.makeIdleWork {q c} (s : Chip) : Only workParts s (s.makeIdle q c) := (Only.makeIdle s).mono (by decide)

theorem Only.faultSeq {q} (s : Chip) : Only workParts s (s.faultSeq q) := by
  unfold Chip.faultSeq
  exact Only.ite (Only.refl s _) (Only.ite (Only.endHeldRun s) (Only.ite (Only.makeIdleWork s) (Only.coverAndLeave s)))

theorem Only.faultSeqs {p} (s : Chip) : Only workParts s (s.faultSeqs p) :=
  Only.foldl _ (fun c _ => Only.ite (Only.faultSeq c) (Only.refl c _)) _ s

theorem Only.dropLaunch {q} (s : Chip) : Only [.seqs] s (s.dropLaunch q) := by
  unfold Chip.dropLaunch
  exact Only.ite (Only.modSq s) (Only.refl s _)

theorem Only.parkSeq {k q} (s : Chip) : Only workParts s (s.parkSeq k q) := by
  unfold Chip.parkSeq
  extract_lets u x masks
  have hu : Only workParts s u := Only.ite (Only.refl s _) ((Only.dropLaunch s).mono (by decide))
  have hmasks : ∀ {f} (c : Chip), Only workParts c (c.modSq q f) := fun c => (Only.modSq c).mono (by decide)
  refine hu.comp ?_
  split
  · exact Only.refl u _
  · exact Only.refl u _
  · exact Only.refl u _
  · exact Only.ite (Only.makeIdleWork u) ((Only.endRun u).comp (hmasks _))
  · exact (Only.endHeldRun u).comp (hmasks _)
  · exact (Only.endHeldRun u).comp (hmasks _)
  · exact Only.coverAndLeave u

theorem Only.parkHeld (s : Chip) : Only workParts s s.parkHeld := Only.foldl _ (fun c _ => Only.parkSeq c) _ s

theorem Only.resetSeq {q} (s : Chip) : Only workParts s (s.resetSeq q) :=
  (((Only.ite (Only.endHeldRun s) (Only.refl s _)).comp ((Only.dropLaunch _).mono (by decide))).comp
    (Only.ite (Only.refl _ _) (Only.makeIdleWork _))).comp (Only.foldl _ (fun c _ => (Only.endCondition c).mono (by decide)) _ _)

/-! ## Requests and jobs that fail (R23, R217, R222) -/

theorem Only.endJob {q e c i w g} (s : Chip) : Only [.crypto, .free] s (s.endJob q e c i w g) := by
  unfold Chip.endJob
  refine Only.comp ((Only.modFree s).mono (by simp)) (Only.ite ((Only.dropJob _).mono (by simp)) ?_)
  exact ((Only.modQueue _).mono (by simp)).comp ((Only.modQueue _).mono (by simp))

theorem Only.finishJob {q e y g} (s : Chip) : Only [.crypto, .free, .dram] s (s.finishJob q e y g) := by
  unfold Chip.finishJob
  refine Only.ite ((Only.endJob s).mono (by simp)) (Only.ite ((Only.endJob s).mono (by simp)) ?_)
  exact ((Only.modQueue s).mono (by simp)).comp ((Only.dramEnqueue _).mono (by simp))

theorem Only.failJob {c r} (s : Chip) : Only [.crypto, .free] s (s.failJob c r) := by
  unfold Chip.failJob
  split
  · exact Only.refl s _
  · exact Only.ite (Only.refl s _) (((Only.modCrypto s).mono (by simp)).comp (Only.endJob _))

theorem Only.failRequest {c r} (s : Chip) : Only workParts s (s.failRequest c r) := by
  unfold Chip.failRequest
  split
  · exact Only.ite ((Only.complete s).mono (by decide)) ((Only.completeRead s).mono (by decide))
  · exact Only.ite ((Only.modSq s).mono (by decide)) (Only.ite ((Only.failJob s).mono (by decide)) (Only.refl s _))

theorem Only.failRequests {c} (s : Chip) : Only workParts s (s.failRequests c) :=
  ((Only.modDram s).mono (by decide)).comp (Only.foldl _ (fun c _ => Only.failRequest c) _ _)

theorem Only.loseStaging (s : Chip) : Only captureParts s s.loseStaging :=
  ((Only.modAcq s).mono (by decide)).comp (Only.foldl _ (fun c _ => Only.loseRecord c) _ _)

/-- Everything that waits for the MI fails, and its state changes. -/
theorem Only.failMi {c f} (s : Chip) : Only workParts s ((s.failRequests c).loseStaging.modDram f) :=
  ((Only.failRequests s).comp ((Only.loseStaging _).mono (by decide))).comp ((Only.modDram _).mono (by decide))

/-! ## The resets of the islands (R23, R65, R218, R263, R357) -/

theorem Only.leaveBus {b} (s : Chip) : Only [.host, .out] s (s.leaveBus b) := ((Only.modCtl s).mono (by simp)).comp (Only.endCondition _)

theorem Only.dropController {b} (s : Chip) : Only [.host, .out] s (s.dropController b) := (Only.leaveBus s).comp ((Only.modCtl _).mono (by simp))

theorem Only.journalSession {n e} (s : Chip) : Only [.pair] s (s.journalSession n e) := by
  unfold Chip.journalSession
  split
  · exact Only.ite (Only.refl s _) (Only.journal s)
  · exact Only.refl s _

theorem Only.endSession {n} (s : Chip) : Only [.host, .pair, .crypto] s (s.endSession n) := by
  unfold Chip.endSession
  split
  · exact Only.refl s _
  · refine Only.comp ?_ (Only.foldl _ (fun c _ => (Only.freeEntry c).mono (by simp)) _ _)
    exact (((Only.journalSession s).mono (by simp)).comp ((Only.modQueue _).mono (by simp))).comp ((Only.modHost _).mono (by simp))

theorem Only.endSessions {f} (s : Chip) : Only [.host, .pair, .crypto] s (s.endSessions f) :=
  Only.foldl _ (fun c _ => Only.ite (Only.endSession c) (Only.refl c _)) _ s

theorem Only.resetHi (s : Chip) : Only workParts s s.resetHi := by
  unfold Chip.resetHi
  extract_lets offBus cleared
  have hoffBus : Only workParts s offBus :=
    (((Only.endSessions s).mono (by decide)).comp ((Only.dropController _).mono (by decide))).comp ((Only.dropController _).mono (by decide))
  have hcleared : Only workParts offBus cleared := Only.foldl _ (fun c _ => (Only.endCondition c).mono (by decide)) _ _
  exact ((hoffBus.comp hcleared).comp ((Only.dramCancel _).mono (by decide))).comp ((Only.modHost _).mono (by decide))

theorem Only.resetCi (s : Chip) : Only workParts s s.resetCi := by
  obtain ⟨u, hu, hs⟩ := s.resetCi_split
  rw [hs]
  exact (((hu.mono (by decide)).comp ((Only.modCi u).mono (by decide))).comp ((Only.suspendSlots _).mono (by decide))).comp ((Only.modWatchdog _).mono (by decide))

theorem Only.resetVi (s : Chip) : Only workParts s s.resetVi := by
  refine Only.comp ((Only.modCrypto s).mono (by decide)) (Only.foldl _ (fun c u => ?_) _ _)
  split
  · exact (Only.finishJob c).mono (by decide)
  · exact Only.refl c _

theorem Only.resetSq (s : Chip) : Only workParts s s.resetSq :=
  Only.foldl _ (fun c _ => (Only.resetSeq c).comp ((Only.modSq _).mono (by decide))) _ s

theorem Only.resetAcq (s : Chip) : Only workParts s s.resetAcq :=
  (((Only.foldl _ (fun c _ => ((Only.modSiteAq c).mono (by decide)).comp ((Only.modSeal _).mono (by decide))) _ s).comp
    (Only.foldl _ (fun c _ => (Only.modUnit c).mono (by decide)) _ _)).comp ((Only.dramCancel _).mono (by decide))).comp ((Only.modAcq _).mono (by decide))

theorem Only.openRing {x} (s : Chip) : Only [.cluster] s (s.openRing x) :=
  (Only.modCluster s).comp (Only.ite (Only.refl _ _) (Only.modCluster _))

/-- The PLLs that are not off relock. -/
theorem Only.relockAll (l : List Nat) (s : Chip) :
    Only [.plls, .seqs, .clkos] s (l.foldl (fun t p => if (t.pll p).state = .off then t else t.relock p (t.vco p)) s) :=
  Only.foldl _ (fun c _ => Only.ite (Only.refl c _) (Only.relock c)) _ s

/-- The clocks but for CH_18's count, which a reset of the TI or of the link clears. -/
def Chip.heldClk (s : Chip) : Clocks := { s.clk with ch18 := 0 }

theorem Only.heldClk {a b : Chip} {ps : List Part} (h : Only ps a b) (hp : Part.clk ∉ ps := by decide) : b.heldClk = a.heldClk :=
  congrArg (fun c : Clocks => { c with ch18 := 0 }) (h.get .clk hp)

theorem Chip.heldClk_clearCh18 (s : Chip) : (s.modClk fun c => { c with ch18 := 0 }).heldClk = s.heldClk := rfl

theorem Chip.resetTi_heldClk (s : Chip) : s.resetTi.heldClk = s.heldClk := by
  unfold Chip.resetTi
  extract_lets cleared
  have hcleared : cleared.heldClk = s.heldClk := (Chip.heldClk_clearCh18 _).trans ((Only.modSegs _).heldClk.trans (Only.parkHeld s).heldClk)
  exact (Only.relockAll [0, 1] cleared).heldClk.trans hcleared

/-- What an island's reset does beside its state leaves the clocks. -/
theorem Chip.resetEffects_heldClk (s : Chip) (i : Nat) : (s.resetEffects i).heldClk = s.heldClk := by
  unfold Chip.resetEffects
  split
  · exact (Only.resetHi s).heldClk
  · exact (Only.resetCi s).heldClk
  · exact (Only.resetSi s).heldClk
  · exact (Only.resetVi s).heldClk
  · exact (Only.resetSq s).heldClk
  · exact s.resetTi_heldClk
  · exact (Only.resetAcq s).heldClk
  · exact (Only.failMi s).heldClk
  · exact (Only.modLevels s).heldClk
  · exact (Chip.heldClk_clearCh18 _).trans ((Only.openRing s).comp (Only.modCluster _)).heldClk
  · rfl

theorem Chip.islandReset_heldClk (s : Chip) (c i : Nat) : (s.islandReset c i).heldClk = s.heldClk := by
  have hmarked : Only [.recorder, .islands] s ((s.islandRecord c i 0xFF).putIsland i .resetting) :=
    ((Only.islandRecord s).mono (by simp)).comp ((Only.putIsland _).mono (by simp))
  exact (Chip.resetEffects_heldClk ..).trans hmarked.heldClk

/-- An island that loads reaches no clock but the PLLs with their outputs. -/
theorem Only.islandLoad {i} (s : Chip) : Only [.islands, .plls, .seqs, .clkos, .levels, .host, .out] s (s.islandLoad i) := by
  unfold Chip.islandLoad
  refine Only.ite (Only.refl s _) ?_
  dsimp only
  have hloading : Only [.islands, .plls, .seqs, .clkos, .levels, .host, .out] s (s.putIsland i .loading) := (Only.putIsland s).mono (by simp)
  generalize s.putIsland i .loading = u at hloading ⊢
  refine hloading.comp ?_
  split
  · exact ((Only.modPlls _).mono (by simp)).comp (Only.ite ((Only.relock _).mono (by simp)) (Only.refl _ _))
  · exact (Only.modLevels _).mono (by simp)
  · exact Only.ite (Only.refl _ _) ((Only.runIsland _).mono (by simp))
  · exact Only.refl _ _

theorem Only.loadWaiting {l} (s : Chip) : Only [.islands, .plls, .seqs, .clkos, .levels, .host, .out] s (s.loadWaiting l) := by
  unfold Chip.loadWaiting
  exact Only.ite (Only.foldl _ (fun c _ => Only.ite (Only.islandLoad c) (Only.refl c _)) _ s) (Only.refl s _)

/-- The faulted islands of a list reset and load. -/
theorem Chip.resetFaulted_heldClk (l : List Nat) (s : Chip) :
    (l.foldl (fun t i => if t.island i = .faulted then (t.islandReset 3 i).islandLoad i else t) s).heldClk = s.heldClk := by
  induction l generalizing s with
  | nil => rfl
  | cons i l ih =>
    refine (ih _).trans ?_
    dsimp only
    split
    · exact (Only.islandLoad _).heldClk.trans (s.islandReset_heldClk 3 i)
    · rfl

end Sys2Proof.Machine
end

section
/-! SUPPORT. PLLs and the reference (R81, R82, R86 to R89, R96): relocks, locks and faults, PLL_1's apply and power-off, and the loss and return
of REFCLK. -/

namespace Sys2Proof.Machine

/-! ## A PLL after a change of one -/

theorem Chip.pll_modPll {s : Chip} {p : Nat} (h : p < s.plls.length) (f : Pll → Pll) : (s.modPll p f).pll p = f (s.pll p) := by
  unfold Chip.pll Chip.modPll
  rw [List.getD_eq_getElem?_getD, List.getElem?_set_self h]
  rfl

theorem Chip.pll_modPll_ne (s : Chip) {p j : Nat} (h : j ≠ p) (f : Pll → Pll) : (s.modPll p f).pll j = s.pll j := by
  unfold Chip.pll Chip.modPll
  rw [List.getD_eq_getElem?_getD, List.getElem?_set_ne h.symm, List.getD_eq_getElem?_getD]

/-- A PLL is unchanged where the PLLs are. -/
theorem Only.pll {a b : Chip} {ps : List Part} (h : Only ps a b) (hp : Part.plls ∉ ps := by decide) (p : Nat) : b.pll p = a.pll p := by
  have := h .plls hp; unfold Chip.pll; rw [this]

/-- A PLL whose relock begins at `now`. -/
def Pll.relocked (now : Nat) (refLost : Bool) (l : Pll) : Pll :=
  { l with state := .locking, relockAt := now, relocks := if refLost then l.relocks else satAdd 32 l.relocks 1 }

/-- A relock changes its PLL so, and the sequencers and outputs beside. -/
theorem Chip.relock_after_mod (s : Chip) (p v : Nat) :
    Only [.seqs, .clkos] (s.modPll p (Pll.relocked s.clk.ticks s.clk.refLost)) (s.relock p v) :=
  ((Only.markHeld _).mono (by simp)).comp
    (Only.foldl _ (fun c _ => Only.ite (Only.refl c _) ((Only.transition c).mono (by simp))) _ _)

theorem Chip.pll_relock {s : Chip} {p : Nat} (h : p < s.plls.length) (v : Nat) :
    (s.relock p v).pll p = (s.pll p).relocked s.clk.ticks s.clk.refLost :=
  ((s.relock_after_mod p v).pll (by decide) p).trans (Chip.pll_modPll h _)

theorem Chip.pll_relock_ne (s : Chip) {p j : Nat} (h : j ≠ p) (v : Nat) : (s.relock p v).pll j = s.pll j :=
  ((s.relock_after_mod p v).pll (by decide) j).trans (s.pll_modPll_ne h _)

/-! ## The start-up apply of PLL_1, and the TI that recovers (R88, R89) -/

/-- From `a` to `b` the clocks stay but for the mark of PLL_1's start-up apply, which is not taken back, and so does every PLL for which
that apply is not due. -/
structure PllsKept (a b : Chip) : Prop where
  clk : b.clk = { a.clk with pll1Started := b.clk.pll1Started }
  started : a.clk.pll1Started = true → b.clk.pll1Started = true
  pll : ∀ p, p ≠ 1 ∨ (a.pll p).state ≠ .off ∨ a.clk.pll1Started = true → b.pll p = a.pll p

theorem Only.pllsKept {a b : Chip} {ps : List Part} (h : Only ps a b) (hc : Part.clk ∉ ps := by decide) (hp : Part.plls ∉ ps := by decide) :
    PllsKept a b := by
  have hclk : b.clk = a.clk := h.get .clk hc
  exact ⟨by rw [hclk], by rw [hclk]; exact id, fun p _ => h.pll hp p⟩

theorem PllsKept.trans {a b c : Chip} (h : PllsKept a b) (k : PllsKept b c) : PllsKept a c := by
  refine ⟨by rw [k.clk, h.clk], fun hs => k.started (h.started hs), fun p hp => ?_⟩
  have hb := h.pll p hp
  refine (k.pll p ?_).trans hb
  rw [hb]
  exact hp.imp_right (Or.imp_right h.started)

theorem PllsKept.ite {a b c : Chip} {q : Prop} [Decidable q] (h : PllsKept a b) (k : PllsKept a c) : PllsKept a (if q then b else c) := by
  split <;> assumption

theorem PllsKept.refl (a : Chip) : PllsKept a a := (Only.refl a []).pllsKept

/-- Once only PLL_1 is applied of itself, and only from off. -/
theorem Chip.startPll1_kept (s : Chip) : PllsKept s s.startPll1 := by
  unfold Chip.startPll1
  split
  next => exact PllsKept.refl s
  next hs =>
    extract_lets u l u'
    have hu : PllsKept s u := ⟨rfl, fun _ => rfl, fun _ _ => rfl⟩
    split
    next => exact hu
    next hoff =>
      have hoff : (s.pll 1).state = .off := not_not.mp hoff
      split
      next =>
        have hclk : ((u.modPll 1 fun l => { l with nApplied := l.n, fApplied := l.f }).relock 1 (u.vco 1)).clk = u.clk := (Only.relock _).get .clk
        refine ⟨by rw [hclk]; rfl, fun _ => by rw [hclk]; rfl, fun p hp => ?_⟩
        have h1 : p ≠ 1 := by
          rintro rfl
          simp [hoff, hs] at hp
        rw [Chip.pll_relock_ne _ h1, u.pll_modPll_ne h1]
        rfl
      next =>
        have hrest : Only [.recorder, .clkos] u _ := ((Only.record u).mono (by simp)).comp
          (Only.foldl (fun t k => t.modClko k fun c => { c with restored := c.restored.filter fun x => x.2.1 != 1 })
            (fun c _ => (Only.modClko c).mono (by simp)) (List.range 6) u')
        exact hu.trans hrest.pllsKept

theorem Chip.startIfRuns_kept (s : Chip) : PllsKept s s.startIfRuns := PllsKept.ite s.startPll1_kept (PllsKept.refl s)

theorem Only.characteriseAll (s : Chip) : Only [.lanes] s s.characteriseAll :=
  Only.foldl _ (fun c _ => (Only.modLane c).comp (Only.modLane _)) _ s

theorem Chip.runTimed_kept (s : Chip) : PllsKept s s.runTimed := by
  have hrun : Only [.lanes, .power, .islands, .host, .out] s ([6, 5, 7].foldl (fun s i =>
      if s.island i = .loading ∧ s.reseating i 0xFF = false ∧ ¬ (i = 6 ∧ s.plls.any (·.faultHeld)) then
        (if i = 6 then s.characteriseAll else if i = 5 then s.modPower fun p => { p with lanesLive := true } else s).runIsland i
      else s) s) := by
    refine Only.foldl _ (fun c i => Only.ite ?_ (Only.refl c _)) _ s
    exact (Only.ite ((Only.characteriseAll c).mono (by simp)) (Only.ite ((Only.modPower c).mono (by simp)) (Only.refl c _))).comp
      ((Only.runIsland _).mono (by simp))
  exact hrun.pllsKept.trans (Chip.startIfRuns_kept _)

/-- The TI that recovers keeps the PLLs, but for PLL_1 at its start-up apply. -/
theorem Chip.recoverTi_kept (s : Chip) : PllsKept s s.recoverTi := by
  unfold Chip.recoverTi
  extract_lets timed measured
  have htimed : PllsKept s timed := PllsKept.ite s.runTimed_kept (PllsKept.refl s)
  have hmeasured : PllsKept timed measured := PllsKept.ite (PllsKept.refl _) (Only.characteriseAll _).pllsKept
  have hback : Only (.islands :: workParts) measured ((List.range 16).foldl
      (fun s q => if (s.sq q).state = .faulted ∧ s.reseating 5 q = false then s.recoverSeq q else s) (measured.runIsland 6)) :=
    ((Only.runIsland _).mono (by decide)).comp
      (Only.foldl _ (fun c _ => Only.ite ((Only.makeIdle c).mono (by decide)) (Only.refl c _)) _ _)
  exact PllsKept.ite htimed ((htimed.trans hmeasured).trans (hback.pllsKept.trans (Chip.startIfRuns_kept _)))

/-! ## PLL_LOCKED and PLL_FAULT (R89, R94) -/

theorem Only.applyOutput {k f v d} (s : Chip) : Only [.clkos] s (s.applyOutput k f v d) :=
  (Only.modClko s).comp (Only.ite (Only.modClko _) (Only.transition _))

theorem Only.stagedApply {k} (s : Chip) : Only [.clkos] s (s.stagedApply k) := by
  unfold Chip.stagedApply
  dsimp only
  split
  · exact Only.ite (Only.refl s _) ((Only.modClko s).comp (Only.transition _))
  · exact Only.refl s _

theorem Only.applyRestored {p} (s : Chip) : Only [.clkos, .recorder] s (s.applyRestored p) := by
  refine Only.foldl _ (fun c k => ?_) _ s
  have hclear : ∀ {f}, Only [.clkos, .recorder] c (c.modClko k f) := (Only.modClko c).mono (by simp)
  split
  · exact Only.refl c _
  · refine Only.ite (Only.refl c _) (Only.ite (hclear.comp ((Only.record _).mono (by simp))) (Only.ite hclear ((Only.applyOutput c).mono (by simp))))

theorem exec_pllLocked (p : Fin 2) (s : State) : exec (.pllLocked p) s = next s (pllLocked p.val s.chip) := rfl

theorem exec_pllFault (p : Fin 2) (s : State) : exec (.pllFault p) s = next s (pllFault p.val s.chip) := rfl

/-- A PLL that locks with REFCLK present keeps what the lock makes of it, and PLL_0's first lock starts action time (R89, R96). -/
theorem pllLocked_locks {p : Nat} {s : Chip} (hs : (s.pll p).state = .locking) (hr : s.clk.refLost = false) (hu : s.pllUnpowered = false)
    (hp : p < s.plls.length) :
    (pllLocked p s).pll p = { s.pll p with state := .locked, faultHeld := false, lastUs := (s.clk.ticks - (s.pll p).relockAt) / 400 } ∧
    (p = 0 → (pllLocked p s).clk.counting = true ∧ (s.clk.counting = false → (pllLocked p s).clk.action = 0)) := by
  unfold pllLocked
  rw [if_neg (by simp [hs, hr, hu])]
  extract_lets locked counts outputs
  have hlocked : counts.pll p = { s.pll p with state := .locked, faultHeld := false, lastUs := (s.clk.ticks - (s.pll p).relockAt) / 400 } := by
    have hmod : locked.pll p = _ := Chip.pll_modPll hp _
    rw [← hmod]
    exact (Only.ite (Only.modClk locked) (Only.refl locked _)).pll (by decide) p
  have hcounts : p = 0 → counts.clk.counting = true ∧ (s.clk.counting = false → counts.clk.action = 0) := by
    rintro rfl
    by_cases hc : s.clk.counting = false
    · have : counts = locked.modClk fun c => { c with counting := true, action := 0 } := if_pos ⟨rfl, hc⟩
      rw [this]
      exact ⟨rfl, fun _ => rfl⟩
    · have : counts = locked := if_neg fun h => hc h.2
      rw [this]
      exact ⟨Bool.eq_true_of_not_eq_false hc, fun h => absurd h hc⟩
  have houtputs : Only [.clkos] counts outputs :=
    Only.foldl _ (fun c k => Only.ite ((Only.modClko c).comp (Only.stagedApply _)) (Only.refl c _)) _ _
  have happlied : Only [.clkos, .recorder, .host, .out] counts ((outputs.applyRestored p).endCondition (2001 + p)) :=
    ((houtputs.mono (by simp)).comp ((Only.applyRestored _).mono (by simp))).comp ((Only.endCondition _).mono (by simp))
  have hkept : PllsKept counts ((outputs.applyRestored p).endCondition (2001 + p)).recoverTi.markHeld :=
    (happlied.pllsKept.trans (Chip.recoverTi_kept _)).trans (Only.markHeld _).pllsKept
  refine ⟨(hkept.pll p (.inr (.inl ?_))).trans hlocked, fun h0 => ?_⟩
  · rw [hlocked]; simp
  · rw [hkept.clk]
    exact hcounts h0

/-- A PLL that has not locked 2 ms after its relock began is faulted (R89). -/
theorem pllFault_faults {p : Nat} {s : Chip} (hs : (s.pll p).state = .locking) (hr : s.clk.refLost = false) (hu : s.pllUnpowered = false)
    (hp : p < s.plls.length) (ht : s.overMs (s.pll p).relockAt 2 = true) : ((pllFault p s).pll p).state = .faulted := by
  unfold pllFault
  rw [if_neg (by simp [hs, hr, hu, ht])]
  extract_lets recorded stopped
  have hrecorded : recorded.pll p = { s.pll p with state := .faulted, faultHeld := true } :=
    ((Only.record _).pll (by decide) p).trans (Chip.pll_modPll hp _)
  have hstopped : Only (.islands :: workParts) recorded stopped :=
    (((Only.raise _).mono (by decide)).comp ((Only.failIsland _).mono (by decide))).comp ((Only.faultSeqs _).mono (by decide))
  have houtputs : Only [.clkos] stopped.markHeld ((stopped.outputsOf p).foldl (fun s k =>
      if (s.clko k).inTransition then (s.modClko k fun c => { c with inTransition := false, fromOff := false }).stagedApply k else s) stopped.markHeld) :=
    Only.foldl _ (fun c k => Only.ite ((Only.modClko c).comp (Only.stagedApply _)) (Only.refl c _)) _ _
  rw [houtputs.pll (by decide), (Only.markHeld _).pll (by decide), hstopped.pll (by decide), hrecorded]

/-! ## PLL1_APPLY and PLL1_POWER_OFF (R87, R88) -/

theorem exec_pll1Apply {p : Path} {tag : Word16} {s : State} {r : Req} {c : Chip}
    (h : gate p tag 0x2611 4 [1] (fun _ s => if s.vcoOk (s.pll 1).n (s.pll 1).f then 0 else 2) s.chip = .go r c) :
    exec (.pll1Apply p tag) s = next s (Chip.finish r.dest (pll1Apply r c)) := congrArg (next s) (hostWrite_go h)

theorem exec_pll1PowerOff {p : Path} {tag : Word16} {s : State} {r : Req} {c : Chip} (h : gate p tag 0x2611 4 [2] (fun _ _ => 0) s.chip = .go r c) :
    exec (.pll1PowerOff p tag) s = next s (Chip.finish r.dest (pll1Off r c)) := congrArg (next s) (hostWrite_go h)

theorem pll1Apply_used (r : Req) {c : Chip} (h : c.pll1Used = true) : pll1Apply r c = (c, bad 3) := if_pos h

/-- An accepted apply takes the staged N and F, and PLL_1 relocks. -/
theorem pll1Apply_relocks (r : Req) {c : Chip} (h : c.pll1Used = false) (hl : 1 < c.plls.length) :
    (pll1Apply r c).1.pll 1 = Pll.relocked c.clk.ticks c.clk.refLost { c.pll 1 with nApplied := (c.pll 1).n, fApplied := (c.pll 1).f } := by
  unfold pll1Apply
  rw [if_neg (by simp [h])]
  extract_lets oldV staged
  have hstaged : Only [.clkos] c staged := Only.foldl _ (fun t _ => Only.modClko t) _ _
  have hlen : 1 < staged.plls.length := by rw [hstaged.get .plls]; exact hl
  have hended : Only [.host, .out] (staged.modPll 1 fun l => { l with nApplied := l.n, fApplied := l.f }) _ := Only.endCondition (k := 2002) _
  dsimp only
  rw [Chip.pll_relock (by rw [hended.get .plls]; simpa [Chip.modPll] using hlen), hended.pll (by decide), hended.get .clk, Chip.pll_modPll hlen,
    hstaged.pll (by decide)]
  exact congrArg (fun k : Clocks => Pll.relocked k.ticks k.refLost _) (hstaged.get .clk)

theorem pll1Off_used (r : Req) {c : Chip} (h : c.pll1Used = true ∨ c.outputsOf 1 ≠ []) : pll1Off r c = (c, bad 3) := if_pos h

/-- An accepted power-off leaves PLL_1 off, once its start-up apply has been made. -/
theorem pll1Off_off (r : Req) {c : Chip} (h : c.pll1Used = false) (ho : c.outputsOf 1 = []) (hl : 1 < c.plls.length) (hs : c.clk.pll1Started = true) :
    ((pll1Off r c).1.pll 1).state = .off := by
  unfold pll1Off
  rw [if_neg (by simp [h, ho])]
  generalize hu : c.modPll 1 _ = u
  have hoff : (u.pll 1).state = .off := by rw [← hu, Chip.pll_modPll hl]
  have hstarted : u.clk.pll1Started = true := by rw [← hu]; exact hs
  have hkept : PllsKept u (u.endCondition 2002).recoverTi := (Only.endCondition u).pllsKept.trans (Chip.recoverTi_kept _)
  dsimp only
  rw [hkept.pll 1 (.inr (.inr hstarted))]
  exact hoff

/-! ## REFCLK_LOST and REFCLK_RESTORED (R81, R82) -/

theorem exec_refclkLost (hz : Nat) (s : State) : exec (.refclkLost hz) s = next s (refclkLost hz s.chip) := rfl

theorem exec_refclkRestored (hz : Nat) (s : State) : exec (.refclkRestored hz) s = next s (refclkRestored hz s.chip) := rfl

theorem Only.selfRefresh (s : Chip) : Only workParts s s.selfRefresh := by
  unfold Chip.selfRefresh
  exact Only.ite (Only.failMi s) (Only.refl s _)

/-- The stop of the islands that wait for REFCLK notes them among the clocks' state. -/
theorem Chip.stopTimed_clk (s : Chip) : ∃ l, s.stopTimed.clk = { s.clk with stopped := l } := by
  unfold Chip.stopTimed
  extract_lets l faulted
  have hfaulted : Only workParts s faulted := Only.foldl _ (fun c _ => Only.faultSeq c) _ s
  have hfailed : Only [.islands, .recorder, .host, .out] (faulted.modClk fun c => { c with stopped := l }) _ :=
    Only.foldl (fun t i => t.failIsland i .faulted) (fun c _ => Only.failIsland c) l _
  exact ⟨l, (hfailed.get .clk).trans (congrArg (fun k : Clocks => { k with stopped := l }) (hfaulted.get .clk))⟩

/-- The clocks at a loss of REFCLK: the loss with its time and measure, no spread, and the islands it stopped. -/
theorem refclkLost_clk {hz : Nat} {s : Chip} (hw : s.refWatched = true) (hr : s.clk.refLost = false) (hb : hz = 0 ∨ s.refBeyond 15 hz = true) :
    ∃ l, (refclkLost hz s).clk = { s.clk with
      refLost := true, lostAt := s.clk.ticks, refStatus := if hz = 0 then 1 else 2, refHz := hz, spreadInForce := [], stopped := l } := by
  have hloss : ¬ (s.refWatched = false ∨ s.clk.refLost = true ∨ (hz ≠ 0 ∧ s.refBeyond 15 hz = false)) := by
    rintro (h | h | ⟨h0, hn⟩)
    · simp [hw] at h
    · simp [hr] at h
    · simp [h0, hn] at hb
  unfold refclkLost
  rw [if_neg hloss]
  extract_lets kind noted raised stopped opened relocking
  have hkind : BitVec.ofNat 8 kind = if hz = 0 then 1 else 2 := by
    by_cases h0 : hz = 0 <;> simp [kind, h0]
  have hraised : Only [.recorder, .host, .out] noted ((raised.leaveBus .canA).leaveBus .canB) :=
    ((((Only.record noted).mono (by simp)).comp ((Only.raise _).mono (by simp))).comp ((Only.leaveBus _).mono (by simp))).comp ((Only.leaveBus _).mono (by simp))
  obtain ⟨l, hl⟩ := ((raised.leaveBus .canA).leaveBus .canB).stopTimed_clk
  have hstopped : stopped.clk = { noted.clk with stopped := l } := by
    rw [(Only.selfRefresh _).get .clk, hl, hraised.get .clk]
  have hrest : Only [.cluster, .plls, .clkos, .seqs] stopped
      ((List.range 6).foldl (fun t k => if (t.clko k).formatIn = 0 then t else t.modClko k fun c => { c with status := .heldLow }) relocking).markHeld :=
    (((((Only.openRing stopped).comp (Only.modCluster _)).mono (by simp)).comp ((Only.modPlls _).mono (by simp))).comp
      (Only.foldl _ (fun c _ => Only.ite (Only.refl c _) ((Only.modClko c).mono (by simp))) _ _)).comp ((Only.markHeld _).mono (by simp))
  refine ⟨l, ?_⟩
  rw [hrest.get .clk, hstopped, ← hkind]
  rfl

/-- A frequency within 1.5 % is no loss (R81). -/
theorem refclkLost_within {hz : Nat} {s : Chip} (h0 : hz ≠ 0) (hb : s.refBeyond 15 hz = false) : refclkLost hz s = s := if_pos (.inr (.inr ⟨h0, hb⟩))

theorem Only.joinBus {b} (s : Chip) : Only [.host] s (s.joinBus b) := by
  unfold Chip.joinBus
  exact Only.ite (Only.modCtl s) (Only.modCtl s)

theorem Only.initCan (s : Chip) : Only [.host, .out] s s.initCan :=
  ((((((Only.joinBus s).comp (Only.joinBus _)).comp (Only.modHost _)).mono (by simp)).comp ((Only.sendCan _).mono (by simp)))).comp ((Only.sendCan _).mono (by simp))

theorem Only.wakeDram (s : Chip) : Only [.dram] s s.wakeDram := by
  unfold Chip.wakeDram
  exact Only.ite (Only.modDram s) (Only.refl s _)

theorem Only.keepLaunches {a : Chip} (s : Chip) : Only [.seqs] s (a.keepLaunches s) := Only.foldl _ (fun c _ => Only.modSq c) _ s

/-- The clocks at the return of REFCLK: the loss is over, with no island noted as stopped. -/
theorem refclkRestored_heldClk {hz : Nat} {s : Chip} (hl : s.clk.refLost = true) (h0 : hz ≠ 0) (hb : s.refBeyond 25 hz = false) :
    (refclkRestored hz s).heldClk = { s.clk with refLost := false, refStatus := 0, refHz := hz, stopped := [], ch18 := 0 } := by
  unfold refclkRestored
  rw [if_neg (by simp [hl, h0, hb])]
  extract_lets l us noted woken outputs ti reset relocked restarted
  have houtputs : Only [.recorder, .host, .out, .dram, .clkos] noted outputs :=
    (((((Only.record noted).mono (by simp)).comp ((Only.endCondition _).mono (by simp))).comp ((Only.initCan _).mono (by simp))).comp
      ((Only.wakeDram _).mono (by simp))).comp (Only.foldl _ (fun c _ => (Only.modClko c).mono (by simp)) _ _)
  have hreset : reset.heldClk = outputs.heldClk := (Only.keepLaunches _).heldClk.trans (outputs.resetFaulted_heldClk l)
  have hrelocked : Only [.plls, .seqs, .clkos] reset relocked := Only.ite (Only.refl _ _) (Only.relockAll [0, 1] reset)
  have hrestarted : Only [.clkos] relocked restarted :=
    Only.ite (Only.foldl _ (fun c _ => Only.transition c) _ _) (Only.refl _ _)
  have hrun : Only [.islands, .plls, .seqs, .clkos, .levels, .host, .out] restarted
      ((if restarted.island 10 = .loading ∧ restarted.reseating 10 0xFF = false then restarted.runIsland 10 else restarted).loadWaiting [6, 5, 7, 8, 10]) :=
    (Only.ite ((Only.runIsland _).mono (by simp)) (Only.refl _ _)).comp (Only.loadWaiting _)
  exact hrun.heldClk.trans (hrestarted.heldClk.trans (hrelocked.heldClk.trans (hreset.trans houtputs.heldClk)))

/-- Settles O8: each PLL row is what `PllsKept` and the relock leave of its PLL; the reference rows are the clocks at the loss and at the return. -/
theorem pllAndRefclkRows : Obligations.PllAndRefclkRows := by
  unfold Obligations.PllAndRefclkRows
  refine ⟨⟨fun p s hs hr hu hl => ?_, fun p s hs hr hu hl ht => ?_, fun p tag s r c h => ⟨fun hused => ?_, fun hused hl => ?_⟩,
    fun p tag s r c h => ⟨fun hused => ?_, fun hused ho hl hs => ?_⟩⟩, fun hz s hw hr hb => ?_, fun hz s h0 hb => ?_, fun hz s hl h0 hb => ?_⟩
  · obtain ⟨hpll, hclk⟩ := pllLocked_locks hs hr hu (p.isLt.trans_eq hl.symm)
    refine ⟨_, exec_pllLocked p s, ?_⟩
    dsimp only
    rw [hpll]
    exact ⟨rfl, rfl, fun h0 => (hclk (congrArg Fin.val h0)).1, fun h0 => (hclk (congrArg Fin.val h0)).2⟩
  · exact ⟨_, exec_pllFault p s, pllFault_faults hs hr hu (p.isLt.trans_eq hl.symm) ht⟩
  · rw [exec_pll1Apply h, pll1Apply_used r hused]
  · refine ⟨_, exec_pll1Apply h, ?_⟩
    dsimp only
    rw [Only.finish.pll (by decide), pll1Apply_relocks r hused (by omega)]
    exact ⟨rfl, rfl, rfl, rfl⟩
  · rw [exec_pll1PowerOff h, pll1Off_used r hused]
  · refine ⟨_, exec_pll1PowerOff h, ?_⟩
    dsimp only
    rw [Only.finish.pll (by decide)]
    exact pll1Off_off r hused ho (by omega) hs
  · obtain ⟨l, hclk⟩ := refclkLost_clk hw hr hb
    refine ⟨_, exec_refclkLost hz s, ?_⟩
    dsimp only
    rw [hclk]
    exact ⟨rfl, rfl, rfl, rfl⟩
  · rw [exec_refclkLost, refclkLost_within h0 hb]
    rfl
  · have hclk := refclkRestored_heldClk hl h0 hb
    exact ⟨_, exec_refclkRestored hz s, congrArg Clocks.refLost hclk, congrArg Clocks.refStatus hclk, congrArg Clocks.refHz hclk, congrArg Clocks.stopped hclk⟩

end Sys2Proof.Machine
end

section
/-! SUPPORT. The ledger (R128, R129, R131): what an answer leaves of the host services, the outcomes of a lookup, and what the completion
of a tagged request leaves in its session. -/

namespace Sys2Proof.Machine

/-! ## What an answer leaves: the SPI port alone takes it -/

/-- The host services apart from the SPI port. -/
def HostServices.besidesSpi (h : HostServices) : HostServices := { h with spi := {} }

@[simp] theorem Chip.sendUsdo_host (s : Chip) (b : Bus) (c : BitVec 7) (n : Nat) (o : Output) : (s.sendUsdo b c n o).host = s.host :=
  (Only.sendUsdo s).get .host

@[simp] theorem Chip.freeEntry_besidesSpi (s : Chip) (t : Target) : (s.freeEntry t).host.besidesSpi = s.host.besidesSpi := by
  unfold Chip.freeEntry; split <;> rfl

@[simp] theorem Chip.answerAs_besidesSpi (s : Chip) (n : Nat) (t : Target) (code : Nat) (d : Bytes) (ms : Nat) :
    (s.answerAs n t code d ms).host.besidesSpi = s.host.besidesSpi := by
  unfold Chip.answerAs
  split
  · rw [Chip.sendUsdo_host]
  · rfl

@[simp] theorem Chip.answer_besidesSpi (s : Chip) (t : Target) (code : Nat) (d : Bytes) (ms : Nat) :
    (s.answer t code d ms).host.besidesSpi = s.host.besidesSpi := Chip.answerAs_besidesSpi ..

/-- What each step of a fold keeps, the fold keeps. -/
theorem foldl_keeps {α β : Type _} (g : Chip → β) (f : Chip → α → Chip) (h : ∀ s x, g (f s x) = g s) (l : List α) (s : Chip) : g (l.foldl f s) = g s := by
  induction l generalizing s with
  | nil => rfl
  | cons x l ih => exact (ih _).trans (h s x)

theorem HostServices.sessions_eq {a b : HostServices} (h : b.besidesSpi = a.besidesSpi) : b.sessions = a.sessions := congrArg (·.sessions) h

/-! ## Changes of a session -/

/-- The host services apart from the SPI port and the session table. -/
def HostServices.besidesSessions (h : HostServices) : HostServices := { h with spi := {}, sessions := [] }

theorem HostServices.besidesSessions_eq {a b : HostServices} (h : b.besidesSpi = a.besidesSpi) : b.besidesSessions = a.besidesSessions :=
  congrArg (fun h : HostServices => { h with sessions := [] }) h

@[simp] theorem Chip.modSession_besidesSessions (s : Chip) (n : Nat) (f : Session → Session) :
    (s.modSession n f).host.besidesSessions = s.host.besidesSessions := by
  unfold Chip.modSession Chip.modHost
  dsimp only
  split <;> rfl

@[simp] theorem Chip.modOwn_besidesSessions (s : Chip) (t : Target) (f : Session → Session) :
    (s.modOwn t f).host.besidesSessions = s.host.besidesSessions := by
  unfold Chip.modOwn
  split
  · exact Chip.modSession_besidesSessions ..
  · rfl

@[simp] theorem Chip.answer_besidesSessions (s : Chip) (t : Target) (code : Nat) (d : Bytes) (ms : Nat) :
    (s.answer t code d ms).host.besidesSessions = s.host.besidesSessions := HostServices.besidesSessions_eq (Chip.answer_besidesSpi ..)

/-- What a change keeps of every session, it keeps of the session of a target, whether or not that opening still stands. -/
theorem Chip.find_modOwn {α : Type} (g : Session → α) {f : Session → Session} (hg : ∀ x, g (f x) = g x) {s : Chip} {t : Target} {y : Session}
    (h : SMap.find? s.host.sessions t.session = some y) : ∃ z, SMap.find? (s.modOwn t f).host.sessions t.session = some z ∧ g z = g y := by
  unfold Chip.modOwn
  split
  · exact ⟨f y, Chip.find_modSession f h, hg y⟩
  · exact ⟨y, h, rfl⟩

/-- The session that an answer belongs to is that of its target's number. -/
theorem Chip.find_of_sessionOf {s : Chip} {t : Target} {x : Session} (h : s.sessionOf t = some x) : SMap.find? s.host.sessions t.session = some x := by
  unfold Chip.sessionOf at h
  split at h
  · next y hy =>
    split at h
    · cases h; exact hy
    · cases h
  · cases h

/-- Whether the USDO server of a bus serves depends on the controllers and on NMT only (R109, R110). -/
theorem Chip.usdoServes_congr {a b : Chip} (ha : b.host.canA = a.host.canA) (hb : b.host.canB = a.host.canB) (hn : b.host.nmt = a.host.nmt) (q : Bus) :
    b.usdoServes q = a.usdoServes q := by
  unfold Chip.usdoServes Chip.onBus Chip.ctl
  rw [ha, hb, hn]

@[simp] theorem Chip.modSession_usdoServes (s : Chip) (n : Nat) (f : Session → Session) (b : Bus) : (s.modSession n f).usdoServes b = s.usdoServes b := by
  have h := Chip.modSession_besidesSessions s n f
  exact Chip.usdoServes_congr (congrArg (·.canA) h) (congrArg (·.canB) h) (congrArg (·.nmt) h) b

/-- A server that serves ends a transfer with its answer, or with the abort of the result code (R139). -/
theorem Chip.sendUsdo_out {s : Chip} {b : Bus} (h : s.usdoServes b = true) (client : BitVec 7) (code : Nat) (o : Output) :
    (s.sendUsdo b client code o).out = (if code = 0 then o else .usdoAbort b client.toNat (BitVec.ofNat 32 (abortCode code))) :: s.out := by
  unfold Chip.sendUsdo
  rw [if_neg (by simp [h])]
  rfl

/-! ## The outcomes of a lookup (R128, R131) -/

section
variable {s : Chip} {t : Target} {x : Session} {payload : Bytes}

/-- Behind a request in progress a new tag is busy for 1 ms. -/
theorem Chip.ledgerLookup_busy (hl : ∀ e ∈ x.ledger, e.tag ≠ t.tag) (hb : x.busy = true) :
    s.ledgerLookup t x payload = .inl ((s.refuse t 0x0001 1).count 1) := by
  have hf : (x.ledger.find? fun e => e.tag == t.tag) = none := List.find?_eq_none.mpr fun e he => by simpa using hl e he
  unfold Chip.ledgerLookup
  rw [hf]
  exact if_pos hb

variable {e : LedgerEntry}

/-- A known tag is judged by its digest, and then by whether its request is in progress. -/
theorem Chip.ledgerLookup_known (hf : (x.ledger.find? fun y => y.tag == t.tag) = some e) :
    s.ledgerLookup t x payload =
      if e.digest ≠ s.digestOf t payload then .inl ((s.modHost fun h => { h with conflicts := satAdd 32 h.conflicts 1 }).refuse t 0x0009 0)
      else if e.inProgress then .inl (s.modSession t.session fun y =>
        { y with ledger := y.ledger.map fun e => if e.inProgress then { e with copies := e.copies ++ [t] } else e })
      else .inl (s.replay t e) := by
  unfold Chip.ledgerLookup
  rw [hf]

/-- A replay is counted (R128). -/
theorem Chip.replay_replays (s : Chip) (t : Target) (e : LedgerEntry) : (s.replay t e).host.replays = satAdd 32 s.host.replays 1 := by
  have h : (s.replay t e).host.besidesSessions = (s.modHost fun h => { h with replays := satAdd 32 h.replays 1 }).host.besidesSessions := by
    unfold Chip.replay Chip.setSel
    dsimp only
    rw [Chip.answer_besidesSessions]
    split <;> simp only [Chip.modSession_besidesSessions]
  exact congrArg (·.replays) h

/-- A refusal leaves the counters of the ledger (R129). -/
@[simp] theorem Chip.refuse_besidesSessions (s : Chip) (t : Target) (code ms : Nat) : (s.refuse t code ms).host.besidesSessions = s.host.besidesSessions :=
  (Chip.answer_besidesSessions ..).trans (Chip.modOwn_besidesSessions ..)

/-- A refusal leaves every entry (R129). -/
theorem Chip.refuse_ledger {y : Session} (code ms : Nat) (h : SMap.find? s.host.sessions t.session = some y) :
    ∃ z, SMap.find? (s.refuse t code ms).host.sessions t.session = some z ∧ z.ledger = y.ledger := by
  unfold Chip.refuse
  rw [HostServices.sessions_eq (Chip.answer_besidesSpi ..)]
  exact Chip.find_modOwn (f := fun x => { x with
    lastResult := if t.tagged then BitVec.ofNat 16 code else x.lastResult, retryDelay := if code = 1 then ms else x.retryDelay })
    Session.ledger (fun _ => rfl) h

end

/-! ## The completion of a request (R129, R121) -/

section
variable {s : Chip} {t : Target} {x : Session} (code : Nat) (data : Bytes) (delay : Nat)

/-- The answer to a session that has ended is discarded. -/
theorem Chip.complete_ended (hn : t.session ≠ 0) (hx : s.sessionOf t = none) : s.complete t code data delay = s.freeEntry t := by
  unfold Chip.complete
  rw [if_neg hn, hx]

/-- The device of a completed request before its answers. -/
def Chip.entered (s : Chip) (t : Target) (code : Nat) (data : Bytes) (delay : Nat) : Chip :=
  (s.modSession t.session (Session.complete t code data delay)).journalLedger t

/-- A tagged request completes in its ledger, and is then answered with each duplicate held against it. -/
theorem Chip.complete_tagged (hn : t.session ≠ 0) (ht : t.tagged = true) (hx : s.sessionOf t = some x) :
    s.complete t code data delay =
      x.heldCopies.foldl (fun s c => s.answer c code data delay) ((s.entered t code data delay).answer t code data delay) := by
  unfold Chip.complete
  rw [if_neg hn, hx]
  dsimp only
  rw [ht]
  rfl

/-- The session of a tagged request that has completed. -/
theorem Chip.find_complete (hn : t.session ≠ 0) (ht : t.tagged = true) (hx : s.sessionOf t = some x) :
    SMap.find? (s.complete t code data delay).host.sessions t.session = some (Session.complete t code data delay x) := by
  have hh : (s.complete t code data delay).host.besidesSpi = (s.modSession t.session (Session.complete t code data delay)).host.besidesSpi := by
    rw [Chip.complete_tagged code data delay hn ht hx, foldl_keeps (·.host.besidesSpi) _ (fun _ _ => Chip.answer_besidesSpi ..), Chip.answer_besidesSpi]
    exact congrArg HostServices.besidesSpi ((Only.journalLedger _).get .host)
  rw [HostServices.sessions_eq hh]
  exact Chip.find_modSession _ (Chip.find_of_sessionOf hx)

/-- A completed tagged request with no duplicates over CAN is answered once (R139). -/
theorem Chip.complete_out {b : Bus} {client : BitVec 7} (hn : t.session ≠ 0) (ht : t.tagged = true) (hx : s.sessionOf t = some x)
    (hp : t.path = .can b client) (hs : s.usdoServes b = true) (hc : x.heldCopies = []) :
    (s.complete t code data delay).out = (if code = 0 then .answer t 0 data delay
      else .usdoAbort b client.toNat (BitVec.ofNat 32 (abortCode code))) :: s.out := by
  have hj := Only.journalLedger (t := t) (s.modSession t.session (Session.complete t code data delay))
  have hserves : (s.entered t code data delay).usdoServes b = true := by
    have hh : (s.entered t code data delay).host = (s.modSession t.session (Session.complete t code data delay)).host := hj.get .host
    rw [Chip.usdoServes_congr (congrArg _ hh) (congrArg _ hh) (congrArg _ hh), Chip.modSession_usdoServes, hs]
  have hout : (s.entered t code data delay).out = s.out := hj.get .out
  rw [Chip.complete_tagged code data delay hn ht hx, hc, List.foldl_nil]
  unfold Chip.answer Chip.answerAs
  rw [hp]
  refine (Chip.sendUsdo_out hserves client code _).trans ?_
  rw [hout]
  by_cases h0 : code = 0
  · subst h0; rfl
  · rw [if_neg h0, if_neg h0]

/-- What completion leaves in the ledger of a tagged request's session: nothing in progress, the 64 newest, and of a result that is not
stored nothing at all (R129). -/
theorem Session.complete_ledger (ht : t.tagged = true) (x : Session) :
    (∀ e ∈ (Session.complete t code data delay x).ledger, e.inProgress = false) ∧
    (unstored code = false → (Session.complete t code data delay x).ledger.length ≤ 64) ∧
    (unstored code = true → (Session.complete t code data delay x).ledger = x.ledger.filter fun e => !e.inProgress) := by
  unfold Session.complete
  dsimp only
  rw [if_pos ht]
  cases hu : unstored code
  · refine ⟨fun e he => ?_, fun _ => List.length_take_le _ _, fun h => by cases h⟩
    rw [if_neg (by simp)] at he
    rcases List.mem_append.mp (List.mem_of_mem_take he) with he | he
    · obtain ⟨y, _, rfl⟩ := List.mem_map.mp he
      rfl
    · simpa using (List.mem_filter.mp he).2
  · refine ⟨fun e he => ?_, fun h => (by cases h), fun _ => if_pos rfl⟩
    rw [if_pos rfl] at he
    simpa using (List.mem_filter.mp he).2

end

/-- Settles O11: the lookup's outcomes are the equations of `ledgerLookup`, and a completion is `Session.complete` in the session with one
answer for each path. -/
theorem ledgerRules : Obligations.LedgerRules := by
  unfold Obligations.LedgerRules
  refine ⟨fun t x payload s => ⟨fun hl hb => ?_, fun hl hb => Chip.ledgerLookup_busy hl hb, fun e hf hd hp => ⟨?_, s.replay_replays t e, Only.replay s⟩,
    fun e hf hd hp => ?_, fun e hf hd => ?_⟩, fun t code data delay s hn ht => ⟨Only.complete s, fun hx => Chip.complete_ended _ _ _ hn hx,
    fun x hx => ?_, fun x b client hx hp hs hc => Chip.complete_out _ _ _ hn ht hx hp hs hc⟩⟩
  · exact ⟨_, Chip.ledgerLookup_opens payload hl hb, rfl⟩
  · rw [Chip.ledgerLookup_known hf, if_neg (not_not.mpr hd), if_neg (by simp [hp])]
  · rw [Chip.ledgerLookup_known hf, if_neg (not_not.mpr hd), if_pos hp]
  · rw [Chip.ledgerLookup_known hf, if_pos hd]
    exact ⟨_, rfl, congrArg (·.conflicts) (Chip.refuse_besidesSessions ..), fun y hy => Chip.refuse_ledger _ _ hy,
      ((Only.modHost s).mono (by simp)).comp (Only.refuse _)⟩
  · obtain ⟨hdone, hlen, hnone⟩ := Session.complete_ledger code data delay ht x
    exact ⟨_, Chip.find_complete _ _ _ hn ht hx, if_pos ht, if_pos ht, hdone, hlen, hnone⟩

end Sys2Proof.Machine
end

section
/-! SUPPORT. Sessions (R120, R121, R126, R227): the DRBG's output, and what the session commands do at their owner. -/

namespace Sys2Proof.Machine

/-! ## The length of the DRBG's output (R227) -/

@[simp] theorem quads_length (n : Nat) (l : List Nat) : (quads n l).length = n := by
  induction n generalizing l with
  | zero => rfl
  | succ n ih => exact congrArg (· + 1) (ih _)

theorem keyWords_length (nk n i rcon : Nat) (l : List Quad) : (keyWords nk n i rcon l).length = n + l.length := by
  induction n generalizing i rcon l with
  | zero => simp [keyWords]
  | succ n ih =>
    unfold keyWords
    dsimp only
    split
    · rw [ih, List.length_cons]; omega
    · split <;> rw [ih, List.length_cons] <;> omega

/-- A key of `4 * nk` bytes has `nk + 7` round keys of four words. -/
theorem keySchedule_length (key : Bytes) : (keySchedule key).length = 4 * (key.length / 4 + 7) := by
  unfold keySchedule
  simp only [List.length_reverse, keyWords_length, quads_length]
  omega

theorem addKey_length (ks : List Quad) (r : Nat) (s : List Quad) : (addKey ks r s).length = min s.length (ks.length - 4 * r) := by
  simp [addKey]

theorem fromQuads_length (s : List Quad) : (fromQuads s).length = 4 * s.length := by
  induction s with
  | nil => rfl
  | cons q s ih => simp only [fromQuads, List.flatMap_cons, List.length_append, List.length_cons, List.length_nil] at ih ⊢; omega

/-- A block of cipher text has 16 bytes. -/
theorem aesEnc_length (key b : Bytes) : (aesEnc (keySchedule key) b).length = 16 := by
  unfold aesEnc
  simp only [fromQuads_length, addKey_length, keySchedule_length, shiftRows, List.length_map, List.length_range]
  omega

theorem ctrStream_length (key : Bytes) (w n : Nat) (c : Bytes) : (ctrStream (keySchedule key) w n c).length = 16 * n := by
  induction n generalizing c with
  | zero => rfl
  | succ n ih => rw [ctrStream, List.length_append, aesEnc_length, ih]; omega

/-- A generate request answers as many bytes as it asks. -/
theorem Chip.drbgRequest_length (s : Chip) (n : Nat) : (s.drbgRequest n).1.length = n := by
  have h : n ≤ 16 * ceilDiv n 16 := by unfold ceilDiv; rw [if_neg (by decide)]; omega
  unfold Chip.drbgRequest
  simp only [List.length_take, ctrStream_length, Nat.min_eq_left h]

theorem Only.drbgTake {anew} (s : Chip) : Only [.free, .crypto] s (s.drbgTake anew) :=
  ((Only.drawBytes s).mono (by simp)).comp ((Only.modCrypto _).mono (by simp))

theorem Only.drbgRequest {n} (s : Chip) : Only [.free, .crypto] s (s.drbgRequest n).2 := by
  unfold Chip.drbgRequest
  exact (Only.ite (Only.drbgTake s) (Only.refl s _)).comp ((Only.modCrypto _).mono (by simp))

/-- Up to 1,024 bytes come from one generate request. -/
theorem Chip.drbg_one {n : Nat} (h0 : 0 < n) (h1 : n ≤ 1024) (s : Chip) : s.drbg n = s.drbgRequest n := by
  have hc : ceilDiv n 1024 = 1 := by unfold ceilDiv; rw [if_neg (by decide)]; omega
  unfold Chip.drbg
  rw [hc]
  simp only [List.range_one, List.foldl_cons, List.foldl_nil, Nat.mul_zero, Nat.sub_zero, Nat.min_eq_right h1, List.nil_append]

/-! ## SESSION_NONCE_READ (R120) -/

theorem exec_sessionNonceRead (p : Path) (s : State) :
    exec (.sessionNonceRead p) s = next s (hostRead p 0 0x2200 2 readSessionNonce s.chip) := rfl

/-- The nonce's object in the dictionary, which its client reads and writes (Table 5.13). -/
theorem lookup_sessionNonce : lookup 0x2200 2 = .found ⟨2, 2, .fixed 16, .client, false, false⟩ := by decide

/-- A read of the session nonce over CAN reaches the HI where its bus serves and the HI runs, with a session or without (R74, R120). -/
theorem sessionNonce_reaches {b : Bus} {client : BitVec 7} {s : Chip} (ho : s.host.online = true) (hb : s.onBus b = true) (hn : s.host.nmt ≠ .stopped)
    (hr : s.reduced = false) (hi : s.island 0 = .running) :
    ∃ l, ReadReaches (.can b client) 0 0x2200 2 s ⟨s.canTarget b client 0 0x2200 2, l⟩
      (s.modSession (s.sessionAt (.can b client)) (Session.touched s.clk.ticks b)) := by
  have hunserved : s.unserved 0x2200 2 = false := by unfold Chip.unserved; rw [hr]; rfl
  have havailable : s.availability (ownerOf 0x2200 2) (sourceOf 0x2200 2 ⟨2, 2, .fixed 16, .client, false, false⟩) false
      (s.unitFaulted (ownerOf 0x2200 2)) = 0 := by
    rw [show sourceOf 0x2200 2 ⟨2, 2, .fixed 16, .client, false, false⟩ = none by decide, show ownerOf 0x2200 2 = 0 by decide]
    unfold Chip.availability
    rw [hi]
    rfl
  exact ⟨((s.modSession (s.sessionAt (.can b client)) (Session.touched s.clk.ticks b)).host.sessions.get {} (s.sessionAt (.can b client))).level,
    Chip.arrive_can 0 0x2200 2 ho hb hn, .inr (by decide), rfl, _, lookup_sessionNonce, rfl, .inl (by decide), hunserved, havailable,
    by simp [Chip.partitionStopped, ownerOf], by simp [Chip.retiredObject], .inl (by decide)⟩

/-- The device once client `p` has been given a fresh nonce. -/
def Chip.nonceIssued (s : Chip) (p : Path) : Chip :=
  (s.drbg 16).2.modHost fun h => { h with
    nonces := h.nonces.filter (fun x => x.path != clientPath p) ++ [{ path := clientPath p, value := (s.drbg 16).1, readAt := s.clk.ticks }] }

/-- With the DRBG serving, a read of the nonce is answered with 16 fresh bytes. -/
theorem readSessionNonce_serves {s : Chip} (h : s.drbgGate = 0) (r : Req) :
    readSessionNonce r s = (s.nonceIssued r.dest.path, .data (s.drbg 16).1) := by
  unfold readSessionNonce
  exact if_neg (not_not.mpr h)

/-- Over CAN a fresh nonce goes out on its bus and is kept for its client. -/
theorem exec_sessionNonceRead_can {b : Bus} {client : BitVec 7} {s : State} (ho : s.chip.host.online = true) (hb : s.chip.onBus b = true)
    (hn : s.chip.host.nmt ≠ .stopped) (hr : s.chip.reduced = false) (hi : s.chip.island 0 = .running) (hd : s.chip.drbgGate = 0) :
    ∃ t v, exec (.sessionNonceRead (.can b client)) s = .next t ∧ v.length = 16 ∧
      t.chip.out = .readAnswer (.can b client) 0x2200 2 0 v :: s.chip.out ∧ ∃ e ∈ t.chip.host.nonces, e.value = v ∧ e.readAt = s.chip.clk.ticks := by
  obtain ⟨l, hreach⟩ := sessionNonce_reaches (client := client) ho hb hn hr hi
  generalize hc : s.chip.modSession (s.chip.sessionAt (.can b client)) (Session.touched s.chip.clk.ticks b) = c at hreach
  have hgate : c.drbgGate = 0 := by rw [← hc]; exact hd
  have hticks : c.clk.ticks = s.chip.clk.ticks := by rw [← hc]; rfl
  have hcout : c.out = s.chip.out := by rw [← hc]; rfl
  have hserves : c.usdoServes b = true := by
    rw [← hc, Chip.modSession_usdoServes]
    simp [Chip.usdoServes, hb, hn]
  have hone := Chip.drbg_one (n := 16) (by decide) (by decide) c
  have honly : Only [.free, .crypto] c (c.drbg 16).2 := hone ▸ Only.drbgRequest c
  have hhost : (c.drbg 16).2.host = c.host := honly.get .host
  have hiss : (c.nonceIssued (.can b client)).usdoServes b = true := by
    rw [← hserves]
    exact Chip.usdoServes_congr (congrArg HostServices.canA hhost) (congrArg HostServices.canB hhost) (congrArg HostServices.nmt hhost) b
  refine ⟨_, (c.drbg 16).1, (exec_sessionNonceRead _ s).trans (congrArg (next s) (hostRead_reaches hreach readSessionNonce)), ?_, ?_, ?_⟩
  · rw [hone]; exact Chip.drbgRequest_length c 16
  · rw [readSessionNonce_serves hgate]
    refine (Chip.sendUsdo_out hiss client 0 _).trans ?_
    rw [show (c.nonceIssued (.can b client)).out = s.chip.out from (honly.get .out).trans hcout]
    rfl
  · rw [readSessionNonce_serves hgate]
    refine ⟨{ path := clientPath (.can b client), value := (c.drbg 16).1, readAt := c.clk.ticks }, ?_, rfl, hticks⟩
    have hh : ((c.nonceIssued (.can b client)).answerRead (s.chip.canTarget b client 0 0x2200 2) (.data (c.drbg 16).1)).host =
        (c.nonceIssued (.can b client)).host := Chip.sendUsdo_host ..
    exact hh ▸ List.mem_append_right _ (List.mem_singleton.mpr rfl)

/-! ## SESSION_OPEN (R120) -/

/-- What a refused value leaves besides its refusal does not touch a write that reaches its owner. -/
theorem gate_go_note {p : Path} {tag : Word16} {idx sub : Nat} {payload : Bytes} {chk : Req → Chip → Nat} {s c : Chip} {r : Req}
    (note : Req → Nat → Chip → Chip) (h : gate p tag idx sub payload chk s = .go r c) : gate p tag idx sub payload chk s note = .go r c := by
  unfold gate at h ⊢
  generalize s.arrive p tag idx sub = a at h ⊢
  obtain ⟨a, ot⟩ := a
  cases ot with
  | none => cases h
  | some t =>
    dsimp only at h ⊢
    split at h
    · cases h
    next hses =>
    rw [if_neg hses]
    split at h
    · cases h
    · cases h
    next row hrow =>
    split at h
    · cases h
    next hacc =>
    rw [if_neg hacc]
    split at h
    · cases h
    next u d hstep =>
    split at h
    · cases h
    next hsize =>
    rw [if_neg hsize]
    split at h
    · cases h
    next hcode =>
    rw [if_neg hcode]
    exact h

/-- The session that an open creates. -/
def Chip.newSession (s : Chip) (l : Level) (p : Path) (b : Bytes) : Session :=
  { level := l, serial := s.host.nextSerial, isSpi := pathSpi p, client := clientOf p b
    bus := match p with | .can q _ => q | .spi _ => .canA
    lastReq := s.clk.ticks }

theorem Chip.find_createSession (s : Chip) (n : Nat) (l : Level) (p : Path) (b : Bytes) :
    SMap.find? (s.createSession n l p b).host.sessions n = some (s.newSession l p b) := by
  unfold Chip.createSession
  rw [(Only.journalSession _).get .host]
  exact (SMap.find_put ..).trans (if_pos rfl)

/-- An open that needs no proof creates the session of the lowest free number, and leaves the nonces. -/
theorem openSession_noProof {p : Path} {b : Bytes} {s : Chip} {l : Level} {k : Nat} (hl : levelOf (byteAt b 0) = some l) (hp : s.proofLen l = some 0)
    (hh : (pathSpi p || !(s.host.sessions.any fun e => !e.2.isSpi && e.2.client == clientOf p b)) = true) (hk : s.freeSession (pathSpi p) = some k) :
    openSession p b s = (s.createSession k l p b, .inr k) := by
  have hspend : s.spendNonce p b = s := by
    unfold Chip.spendNonce
    rw [hl, Option.bind_some, hp]
    rfl
  have hfree : (!pathSpi p && (s.host.sessions.any fun e => !e.2.isSpi && e.2.client == clientOf p b)) = false := by
    rw [← Bool.not_eq_true', Bool.not_and, Bool.not_not]; exact hh
  unfold openSession
  rw [hspend]
  simp only [hl, hp, hk, hfree, Bool.false_eq_true, if_false, if_true]

theorem exec_sessionOpen {p : Path} {b : Bytes} {s : State} {r : Req} {c d : Chip} {k : Nat}
    (h : gate p 0 0x2200 0x10 b (fun _ s => s.openForm b) s.chip = .go r c) (ho : openSession p b c = (d, .inr k)) :
    exec (.sessionOpen p b) s = next s (d.answerAs k r.dest 0 [] 0) := by
  refine congrArg (next s) ?_
  unfold sessionOpen
  rw [gate_go_note _ h]
  dsimp only
  rw [ho]

/-! ## The end of a session (R121) -/

/-- Ending session `n` takes it from the table and leaves every other as it was. -/
theorem Chip.find_endSession (s : Chip) (n m : Nat) :
    SMap.find? (s.endSession n).host.sessions m = if m = n then none else SMap.find? s.host.sessions m := by
  unfold Chip.endSession
  split
  · next h =>
    split
    · next hm => rw [hm]; exact h
    · rfl
  · next x h =>
    rw [HostServices.sessions_eq (foldl_keeps (·.host.besidesSpi) _ (fun _ _ => Chip.freeEntry_besidesSpi ..) _ _)]
    have hh : ((s.journalSession n true).endQueue n).host = s.host :=
      ((Only.journalSession s).mono (by simp)).comp ((Only.modQueue _).mono (by simp)) |>.get (ps := [.pair, .crypto]) .host
    rw [Chip.modHost_host, hh]
    exact SMap.find_erase ..

theorem sessionIdle_over {n : Nat} {s : Chip} {x : Session} (h : SMap.find? s.host.sessions n = some x) (hd : s.dormant x = false)
    (ho : s.overMs x.lastReq (1000 * s.host.idleTimeout) = true) : sessionIdle n s = s.endSession n := by
  unfold sessionIdle
  rw [h]
  exact if_pos ⟨hd, ho⟩

theorem sessionIdle_within {n : Nat} {s : Chip} {x : Session} (h : SMap.find? s.host.sessions n = some x)
    (ho : s.overMs x.lastReq (1000 * s.host.idleTimeout) = false) : sessionIdle n s = s := by
  unfold sessionIdle
  rw [h]
  exact if_neg (by simp [ho])

/-- A session that closes itself ends after its answer. -/
theorem exec_sessionClose_own {p : Path} {n : Byte} {s : State} {r : Req} {c : Chip} (h : gate p 0 0x2200 0x12 [n] (fun _ _ => 0) s.chip = .go r c)
    (hn : r.dest.session = n.toNat) : exec (.sessionClose p n) s = next s ((Chip.finish r.dest (c, ok)).endSession n.toNat) := by
  refine congrArg (next s) ((hostThen_go h).trans ?_)
  rw [if_pos hn]
  exact if_pos rfl

/-- A session may not close another. -/
theorem exec_sessionClose_other {p : Path} {n : Byte} {s : State} {r : Req} {c : Chip} (h : gate p 0 0x2200 0x12 [n] (fun _ _ => 0) s.chip = .go r c)
    (hn : r.dest.session ≠ n.toNat) : exec (.sessionClose p n) s = next s (Chip.finish r.dest (c, bad 0x000C)) := by
  refine congrArg (next s) ((hostThen_go h).trans ?_)
  rw [if_neg hn]
  exact if_neg (by simp)

/-! ## OBJECT_WRITE (R31) -/

/-- A write of an object with no path of its own follows the object's rule. -/
theorem objectWrite_rule {used : Nat} {p : Path} {tag : Word16} {idx sub : Nat} {b : Bytes} {s : Chip} (hw : isWindowData idx sub = false)
    (ho : ¬ (idx = 0x2200 ∧ sub = 0x10)) (hl : ¬ (idx = 0x2400 ∧ sub = 4)) :
    objectWrite used p tag idx sub b s =
      hostThen p tag idx sub b (writeRule used idx sub b).chk (writeRule used idx sub b).act (writeRule used idx sub b).after s := by
  unfold objectWrite
  rw [if_neg (by simp [hw]), if_neg ho, if_neg hl]

theorem exec_objectWrite (p : Path) (tag index : Word16) (sub : Byte) (payload : Bytes) (s : State) :
    exec (.objectWrite p tag index sub payload) s = next s (objectWrite s.array.next p tag index.toNat sub.toNat payload s.chip) := rfl

/-- Settles O12: each command's equation at its owner, `exec_sessionNonceRead_can` for the fresh nonce, `openSession_noProof` for the open
and `Chip.find_endSession` for the ends. -/
theorem objectWriteAndSessionRows : Obligations.ObjectWriteAndSessionRows := by
  unfold Obligations.ObjectWriteAndSessionRows
  refine ⟨⟨?_, fun p tag s r c h => ?_, fun b client s ho hb hn hr hi hd => ?_, fun p bytes s r c h => ?_, fun p req s r c l k h hl hp hh hk => ?_,
    fun p n s r c h => ⟨exec_sessionClose_own h, exec_sessionClose_other h⟩, fun n s x hx hd => ⟨fun ho => ?_, fun ho => ?_⟩⟩,
    fun n m s _ => s.find_endSession n m⟩
  · intro p tag index sub payload s r c w hw ho hl h
    have ho' : ¬ (index.toNat = 0x2200 ∧ sub.toNat = 0x10) := fun ⟨hi, hs⟩ => ho ⟨BitVec.eq_of_toNat_eq hi, BitVec.eq_of_toNat_eq hs⟩
    have hl' : ¬ (index.toNat = 0x2400 ∧ sub.toNat = 4) := fun ⟨hi, hs⟩ => hl ⟨BitVec.eq_of_toNat_eq hi, BitVec.eq_of_toNat_eq hs⟩
    rw [exec_objectWrite, objectWrite_rule hw ho' hl']
    exact congrArg (next s) (hostThen_go h)
  · exact congrArg (next s) (hostWrite_go h)
  · exact exec_sessionNonceRead_can ho hb hn hr hi hd
  · exact congrArg (next s) (hostWrite_go h)
  · refine ⟨_, exec_sessionOpen h (openSession_noProof hl hp hh hk), c.newSession l p req, ?_, rfl, rfl, rfl, rfl, rfl, rfl⟩
    dsimp only
    rw [HostServices.sessions_eq (Chip.answerAs_besidesSpi ..)]
    exact Chip.find_createSession c k l p req
  · exact congrArg (next s) (sessionIdle_over hx hd ho)
  · exact congrArg (next s) (sessionIdle_within hx ho)

end Sys2Proof.Machine
end

section
/-! SUPPORT. CAN services (R70, R105 to R110, R140 to R144): what an EMCY leaves of the host services, the commands of NMT, SYNC, TIME and
heartbeats, and the states of the controllers. -/

namespace Sys2Proof.Machine

/-! ## What an EMCY leaves (R142) -/

/-- A controller apart from its EMCYs. -/
def CanCtl.besidesEmcy (c : CanCtl) : CanCtl := { c with waiting := [], inhibited := false }

/-- The host services apart from what sending an EMCY changes: the error register and field, the SPI port, and the EMCYs of the controllers. -/
def HostServices.besidesEmcy (h : HostServices) : HostServices :=
  { h with canA := h.canA.besidesEmcy, canB := h.canB.besidesEmcy, spi := {}, errorReg := 0, eventBits := 0, errors := [] }

theorem Chip.modCtl_besidesEmcy (s : Chip) (b : Bus) {f : CanCtl → CanCtl} (hf : ∀ c, (f c).besidesEmcy = c.besidesEmcy) :
    (s.modCtl b f).host.besidesEmcy = s.host.besidesEmcy := by
  unfold HostServices.besidesEmcy
  cases b <;> simp only [Chip.modCtl, Chip.modHost_host, hf]

@[simp] theorem Chip.sendCan_host (s : Chip) (b : Bus) (n : Nat) (d : Bytes) : (s.sendCan b n d).host = s.host := (Only.sendCan s).get .host

@[simp] theorem Chip.emcyOnBus_besidesEmcy (s : Chip) (m : EmcyMsg) (b : Bus) : (s.emcyOnBus m b).host.besidesEmcy = s.host.besidesEmcy := by
  unfold Chip.emcyOnBus
  split
  · rfl
  · split
    · exact Chip.modCtl_besidesEmcy _ _ fun _ => rfl
    · refine (Chip.modCtl_besidesEmcy _ b ?_).trans (congrArg HostServices.besidesEmcy (Chip.sendCan_host ..))
      exact fun _ => rfl

@[simp] theorem Chip.emcySend_besidesEmcy (s : Chip) (m : EmcyMsg) : (s.emcySend m).host.besidesEmcy = s.host.besidesEmcy := by
  unfold Chip.emcySend
  simp only [Chip.emcyOnBus_besidesEmcy]
  rfl

@[simp] theorem Chip.raiseEvent_besidesEmcy (s : Chip) (c b e i d : Nat) : (s.raiseEvent c b e i d).host.besidesEmcy = s.host.besidesEmcy :=
  Chip.emcySend_besidesEmcy ..

/-- What stands in the host services apart from EMCYs and the lasting conditions. -/
def HostServices.besidesConditions (h : HostServices) : HostServices := { h.besidesEmcy with conditions := [] }

theorem HostServices.besidesConditions_eq {a b : HostServices} (h : b.besidesEmcy = a.besidesEmcy) : b.besidesConditions = a.besidesConditions :=
  congrArg (fun h : HostServices => { h with conditions := [] }) h

@[simp] theorem Chip.raise_besidesConditions (s : Chip) (k c b e i d : Nat) : (s.raise k c b e i d).host.besidesConditions = s.host.besidesConditions := by
  unfold Chip.raise
  split
  · rfl
  · exact (HostServices.besidesConditions_eq (Chip.emcySend_besidesEmcy ..)).trans rfl

@[simp] theorem Chip.endCondition_besidesConditions (s : Chip) (k : Nat) : (s.endCondition k).host.besidesConditions = s.host.besidesConditions := by
  unfold Chip.endCondition
  split
  · dsimp only
    split
    · exact (HostServices.besidesConditions_eq (Chip.emcySend_besidesEmcy ..)).trans rfl
    · rfl
  · rfl

/-- The status of a controller is none of its EMCYs. -/
theorem Chip.ctl_status_eq {a b : Chip} (h : b.host.besidesConditions = a.host.besidesConditions) (q : Bus) : (b.ctl q).status = (a.ctl q).status := by
  cases q
  · exact congrArg (·.canA.status) h
  · exact congrArg (·.canB.status) h

theorem HostServices.conditions_eq {a b : HostServices} (h : b.besidesEmcy = a.besidesEmcy) : b.conditions = a.conditions := congrArg (·.conditions) h

theorem HostServices.nmt_eq {a b : HostServices} (h : b.besidesEmcy = a.besidesEmcy) : b.nmt = a.nmt := congrArg (·.nmt) h

/-- A condition that arises holds (R141). -/
theorem Chip.raise_holds (s : Chip) (k c b e i d : Nat) : ((s.raise k c b e i d).host.conditions.any fun x => x.key == k) = true := by
  unfold Chip.raise
  split
  · next h =>
    simp only [List.any_eq_true, decide_eq_true_eq, beq_iff_eq] at h ⊢
    exact h
  · dsimp only
    rw [HostServices.conditions_eq (Chip.emcySend_besidesEmcy ..)]
    simp

/-- A condition that ends holds no more (R141). -/
theorem Chip.endCondition_ends (s : Chip) (k : Nat) : ((s.endCondition k).host.conditions.any fun x => x.key == k) = false := by
  have hnone : ((s.host.conditions.filter (·.key ≠ k)).any fun x => x.key == k) = false := by
    simp [List.any_filter]
  unfold Chip.endCondition
  split
  · dsimp only
    split
    · rw [HostServices.conditions_eq (Chip.emcySend_besidesEmcy ..)]
      exact hnone
    · exact hnone
  · next h => simpa using h

@[simp] theorem Chip.modCtl_errors (s : Chip) (b : Bus) (f : CanCtl → CanCtl) : (s.modCtl b f).host.errors = s.host.errors := by cases b <;> rfl

/-- An EMCY that goes to a bus leaves the error field, in which it stands already (R142). -/
theorem Chip.emcyOnBus_errors (s : Chip) (m : EmcyMsg) (b : Bus) : (s.emcyOnBus m b).host.errors = s.host.errors := by
  unfold Chip.emcyOnBus
  split
  · rfl
  · split
    · exact Chip.modCtl_errors ..
    · rw [Chip.modCtl_errors, Chip.sendCan_host]

/-- An EMCY is entered in the error field as its code and event (R526). -/
theorem Chip.emcySend_head (s : Chip) (m : EmcyMsg) :
    (s.emcySend m).host.errors.head? = some (BitVec.ofNat 32 (m.code.toNat + 0x10000 * m.event.toNat)) := by
  unfold Chip.emcySend
  simp only [Chip.emcyOnBus_errors]
  rfl

/-- The entry of the error field of an EMCY of a code and an event (R526). -/
def errorEntry (code event : Nat) : Word32 := BitVec.ofNat 32 ((BitVec.ofNat 16 code).toNat + 0x10000 * (BitVec.ofNat 16 event).toNat)

theorem Chip.raiseEvent_head (s : Chip) (c b e i d : Nat) : (s.raiseEvent c b e i d).host.errors.head? = some (errorEntry c e) := Chip.emcySend_head ..

/-- A lasting condition that did not hold is entered in the error field when it arises (R141). -/
theorem Chip.raise_head {s : Chip} {k : Nat} (h : (s.host.conditions.any fun x => x.key == k) = false) (c b e i d : Nat) :
    (s.raise k c b e i d).host.errors.head? = some (errorEntry c e) := by
  unfold Chip.raise
  rw [if_neg (by simpa using h)]
  exact Chip.emcySend_head ..

/-! ## The states of a controller (R110, R141) -/

@[simp] theorem Chip.ctl_modCtl (s : Chip) (b : Bus) (f : CanCtl → CanCtl) : (s.modCtl b f).ctl b = f (s.ctl b) := by cases b <;> rfl

@[simp] theorem Chip.modCtl_conditions (s : Chip) (b : Bus) (f : CanCtl → CanCtl) : (s.modCtl b f).host.conditions = s.host.conditions := by
  cases b <;> rfl

theorem exec_busOff (b : Bus) (s : State) : exec (.busOff b) s = next s (busOff b s.chip) := rfl

theorem exec_busOffRecovery (b : Bus) (s : State) : exec (.busOffRecovery b) s = next s (busOffRecovery b s.chip) := rfl

theorem exec_canErrorPassive (b : Bus) (s : State) : exec (.canErrorPassive b) s = next s (errorPassive b s.chip) := rfl

theorem exec_canErrorPassiveEnd (b : Bus) (s : State) : exec (.canErrorPassiveEnd b) s = next s (errorPassiveEnd b s.chip) := rfl

theorem exec_canReceiveOverrun (b : Bus) (s : State) : exec (.canReceiveOverrun b) s = next s (receiveOverrun b s.chip) := rfl

theorem exec_emcyInhibitExpiry (b : Bus) (s : State) : exec (.emcyInhibitExpiry b) s = next s (inhibitExpiry b s.chip) := rfl

section
variable {b : Bus} {s : Chip}

theorem busOff_leaves (h : s.onBus b = true) : busOff b s = s.modCtl b fun c => { c with status := .busOff } := if_pos h

/-- A controller in bus-off is off its bus. -/
theorem busOff_offBus (h : s.onBus b = true) : ((busOff b s).ctl b).status = .busOff ∧ (busOff b s).onBus b = false := by
  rw [busOff_leaves h]
  unfold Chip.onBus
  rw [Chip.ctl_modCtl]
  exact ⟨rfl, rfl⟩

/-- A recovered controller is error active, with the event in the error field. -/
theorem busOffRecovery_recovers (h : (s.ctl b).status = .busOff) : ((busOffRecovery b s).ctl b).status = .errorActive ∧
    (busOffRecovery b s).host.errors.head? = some 0x000D8140 ∧ Only [.host, .recorder, .out] s (busOffRecovery b s) := by
  unfold busOffRecovery
  rw [if_pos h]
  generalize hu : (s.modCtl b fun c => { c with status := .errorActive }) = u
  have hctl : (u.ctl b).status = .errorActive := by rw [← hu, Chip.ctl_modCtl]
  have hcount : ((u.dropCondition (5000 + busNo b)).count 6).host = (u.dropCondition (5000 + busNo b)).host := (Only.count _).get .host
  refine ⟨?_, (Chip.raiseEvent_head ..).trans (congrArg some (by decide)), ?_⟩
  · refine (Chip.ctl_status_eq (HostServices.besidesConditions_eq (Chip.raiseEvent_besidesEmcy ..)) b).trans (Eq.trans ?_ hctl)
    exact Chip.ctl_status_eq (congrArg HostServices.besidesConditions hcount) b
  · exact ((((hu ▸ Only.modCtl s).mono (by simp)).comp ((Only.dropCondition u).mono (by simp))).comp ((Only.count _).mono (by simp))).comp
      ((Only.raiseEvent _).mono (by simp))

/-- A controller that becomes error passive raises the lasting condition of its bus. -/
theorem errorPassive_raises (h : (s.ctl b).status = .errorActive) (hc : (s.host.conditions.any fun c => c.key == 5000 + busNo b) = false) :
    ((errorPassive b s).ctl b).status = .errorPassive ∧ (errorPassive b s).host.errors.head? = some 0x000D8120 ∧
    ((errorPassive b s).host.conditions.any fun c => c.key == 5000 + busNo b) = true ∧ Only [.host, .recorder, .out] s (errorPassive b s) := by
  unfold errorPassive
  rw [if_pos h]
  generalize hu : (s.modCtl b fun c => { c with status := .errorPassive }) = u
  have hctl : (u.ctl b).status = .errorPassive := by rw [← hu, Chip.ctl_modCtl]
  have hcount : (u.count 6).host = u.host := (Only.count u).get .host
  refine ⟨?_, ?_, Chip.raise_holds .., ?_⟩
  · refine (Chip.ctl_status_eq (Chip.raise_besidesConditions ..) b).trans (Eq.trans ?_ hctl)
    exact Chip.ctl_status_eq (congrArg HostServices.besidesConditions hcount) b
  · refine (Chip.raise_head ?_ 0x8120 0x11 0x000D 0 (busNo b + 0x200)).trans (congrArg some (by decide))
    rw [hcount, ← hu, Chip.modCtl_conditions]
    exact hc
  · exact (((hu ▸ Only.modCtl s).mono (by simp)).comp ((Only.count u).mono (by simp))).comp ((Only.raise _).mono (by simp))

/-- A controller that returns to error active ends the condition of its bus. -/
theorem errorPassiveEnd_ends (h : (s.ctl b).status = .errorPassive) : ((errorPassiveEnd b s).ctl b).status = .errorActive ∧
    ((errorPassiveEnd b s).host.conditions.any fun c => c.key == 5000 + busNo b) = false ∧ Only [.host, .out] s (errorPassiveEnd b s) := by
  unfold errorPassiveEnd
  rw [if_pos h]
  refine ⟨?_, Chip.endCondition_ends .., ((Only.modCtl s).mono (by simp)).comp (Only.endCondition _)⟩
  rw [Chip.ctl_status_eq (Chip.endCondition_besidesConditions ..), Chip.ctl_modCtl]

/-- A receive overrun of a controller that receives is an event in the error field. -/
theorem receiveOverrun_enters (h : s.hears b = true) : (receiveOverrun b s).host.errors.head? = some 0x000D8110 ∧
    Only [.host, .recorder, .out] s (receiveOverrun b s) := by
  unfold receiveOverrun
  rw [if_pos h]
  exact ⟨(Chip.raiseEvent_head ..).trans (congrArg some (by decide)), ((Only.count s).mono (by simp)).comp ((Only.raiseEvent _).mono (by simp))⟩

/-! ## EMCY_INHIBIT_EXPIRY and USDO_TIMEOUT (R110, R140, R142) -/

theorem Chip.sendCan_onBus (h : s.onBus b = true) (n : Nat) (d : Bytes) : s.sendCan b n d = s.emit (.can b .fdBrs n d) := if_pos h

/-- On a bus that serves EMCY the oldest waiting one goes out when the inhibit time ends. -/
theorem inhibitExpiry_sends {m : EmcyMsg} {l : List EmcyMsg} (hi : (s.ctl b).inhibited = true) (hw : (s.ctl b).waiting = m :: l)
    (hb : s.onBus b = true) (hn : s.host.nmt ≠ .stopped) (ht : s.host.inhibit ≠ 0) :
    inhibitExpiry b s = (s.emit (.can b .fdBrs (0x80 + s.nodeId) m.bytes)).modCtl b fun c => { c with waiting := l } := by
  unfold inhibitExpiry
  dsimp only
  rw [if_neg (by simp [hi]), if_neg (by simp [hb, hn]), if_neg ht, hw]
  dsimp only
  rw [Chip.sendCan_onBus hb]

/-- With none waiting the inhibit is over. -/
theorem inhibitExpiry_ends (hi : (s.ctl b).inhibited = true) (hw : (s.ctl b).waiting = []) (hb : s.onBus b = true) (hn : s.host.nmt ≠ .stopped) :
    ((inhibitExpiry b s).ctl b).inhibited = false ∧ Only [.host] s (inhibitExpiry b s) := by
  unfold inhibitExpiry
  dsimp only
  rw [if_neg (by simp [hi]), if_neg (by simp [hb, hn]), hw]
  split
  · exact ⟨congrArg CanCtl.inhibited (Chip.ctl_modCtl ..), Only.modCtl s⟩
  · exact ⟨congrArg CanCtl.inhibited (Chip.ctl_modCtl ..), Only.modCtl s⟩

variable {client : BitVec 7} {lastAt : Nat} {onEdge : Bool}

theorem exec_usdoTimeout (b : Bus) (x : UsdoTransfer) (s : State) :
    exec (.usdoTimeout b x) s = next s (usdoTimeout b x.client x.lastAt x.onEdge s.chip) := rfl

/-- A transfer whose next segment did not come in time is aborted (R140). -/
theorem usdoTimeout_aborts (hb : s.hears b = true) (hn : s.host.nmt ≠ .stopped) (he : onEdge = false) (ho : s.overMs lastAt s.host.usdoTimeout = true) :
    usdoTimeout b client lastAt onEdge s = s.emit (.usdoAbort b client.toNat 0x05040000) := by
  obtain ⟨hon, hbus⟩ := Bool.and_eq_true_iff.mp hb
  have hserves : s.usdoServes b = true := by simp [Chip.usdoServes, hbus, hn]
  unfold usdoTimeout
  rw [if_neg (by simp [hon, he, ho])]
  unfold Chip.sendUsdo
  rw [if_neg (by simp [hserves])]
  rfl

/-- A segment on the edge of expiry is taken, and before expiry nothing happens (R24, R25). -/
theorem usdoTimeout_waits (h : onEdge = true ∨ s.overMs lastAt s.host.usdoTimeout = false) : usdoTimeout b client lastAt onEdge s = s :=
  if_pos (.inr h)

end

/-- Settles O14: each event's equation with what it leaves of the controller, the conditions and the error field. -/
theorem canControllerRows : Obligations.CanControllerRows := by
  unfold Obligations.CanControllerRows
  refine ⟨fun b s h => ?_, fun b s h => ?_, fun b s h hc => ?_, fun b s h => ?_, fun b s h => ?_, fun b s m l hi hw hb hn ht => ?_,
    fun b s hi hw hb hn => ?_, fun p s r c h => congrArg (next s) (hostWrite_go h), fun b client lastAt onEdge s => ⟨fun hb hn he ho => ?_, fun h => ?_⟩⟩
  · obtain ⟨hstatus, hoff⟩ := busOff_offBus h
    exact ⟨_, exec_busOff b s, hstatus, hoff, Within.ofChip (busOff_leaves h ▸ Only.modCtl s.chip)⟩
  · obtain ⟨hstatus, herr, honly⟩ := busOffRecovery_recovers h
    exact ⟨_, exec_busOffRecovery b s, hstatus, herr, Within.ofChip honly⟩
  · obtain ⟨hstatus, herr, hcond, honly⟩ := errorPassive_raises h hc
    exact ⟨_, exec_canErrorPassive b s, hstatus, herr, hcond, Within.ofChip honly⟩
  · obtain ⟨hstatus, hcond, honly⟩ := errorPassiveEnd_ends h
    exact ⟨_, exec_canErrorPassiveEnd b s, hstatus, hcond, Within.ofChip honly⟩
  · obtain ⟨herr, honly⟩ := receiveOverrun_enters h
    exact ⟨_, exec_canReceiveOverrun b s, herr, Within.ofChip honly⟩
  · rw [exec_emcyInhibitExpiry, inhibitExpiry_sends hi hw hb hn ht]
  · obtain ⟨hend, honly⟩ := inhibitExpiry_ends hi hw hb hn
    exact ⟨_, exec_emcyInhibitExpiry b s, hend, Within.ofChip honly⟩
  · rw [exec_usdoTimeout, usdoTimeout_aborts hb hn he ho]
    rfl
  · rw [exec_usdoTimeout, usdoTimeout_waits h]
    rfl

end Sys2Proof.Machine
end

section
/-! SUPPORT. NMT, SYNC, TIME and heartbeats (R70, R107 to R109, R143): what their messages do on a bus that receives them. -/

namespace Sys2Proof.Machine

/-! ## NMT (R70, R109) -/

theorem exec_nmtCommand (b : Bus) (f : CanFormat) (spec node : Byte) (s : State) :
    exec (.nmtCommand ⟨b, f⟩ spec node) s = next s (nmtCommand b f spec node s.chip) := rfl

theorem exec_nmtResetCommunication (b : Bus) (s : State) :
    exec (.nmtResetCommunication b) s = next s (nmtCommand b .classical 0x82 0 s.chip) := rfl

/-- The same command was obeyed from the other bus within 10 ms (R109). -/
def Chip.nmtDuplicate (s : Chip) (b : Bus) (spec node : Byte) : Bool :=
  s.host.lastNmt.any fun x => decide (s.clk.ticks ≤ x.2.2.2 + 4000000) && x.1 != b && x.2.1 == spec && x.2.2.1 == node

/-- The device once an NMT command is noted as obeyed. -/
def Chip.nmtNoted (s : Chip) (b : Bus) (spec node : Byte) : Chip :=
  s.modHost fun h => { h with
    lastNmt := (s.host.lastNmt.filter fun (x : Bus × Byte × Byte × Nat) => decide (s.clk.ticks ≤ x.2.2.2 + 4000000)) ++ [(b, spec, node, s.clk.ticks)] }

/-- What an obeyed command does by its specifier, from the device `s` that was and the device `t` that has noted it. -/
def Chip.nmtObeyed (spec : Nat) (s t : Chip) : Chip :=
  match spec with
  | 0x01 => t.modHost fun h => { h with nmt := .operational }
  | 0x02 => t.modHost fun h => { h with nmt := .stopped }
  | 0x80 => t.modHost fun h => { h with nmt := .preOperational }
  | 0x81 => chipReset 0x80 t
  | 0x82 => nmtReset t
  | _ => s

theorem Chip.nmtObeyed_restart (s t : Chip) : Chip.nmtObeyed 0x81 s t = chipReset 0x80 t := rfl

theorem Chip.nmtObeyed_resetCommunication (s t : Chip) : Chip.nmtObeyed 0x82 s t = nmtReset t := rfl

section
variable {b : Bus} {f : CanFormat} {spec node : Byte} {s : Chip}

theorem Chip.nmtDuplicate_eq : ((s.host.lastNmt.filter fun (x : Bus × Byte × Byte × Nat) => decide (s.clk.ticks ≤ x.2.2.2 + 4000000)).any
    fun (x : Bus × Byte × Byte × Nat) => x.1 != b && x.2.1 == spec && x.2.2.1 == node) = s.nmtDuplicate b spec node := by
  unfold Chip.nmtDuplicate
  simp only [List.any_filter, Bool.and_assoc]

/-- A command for this node or all is obeyed, unless it is the other bus's duplicate. -/
theorem nmtCommand_obeyed (hb : s.hears b = true) (hf : canTaken f = true) (hn : node = 0 ∨ node.toNat = s.nodeId) (hd : s.nmtDuplicate b spec node = false) :
    nmtCommand b f spec node s = Chip.nmtObeyed spec.toNat s (s.nmtNoted b spec node) := by
  unfold nmtCommand
  dsimp only
  rw [Chip.nmtDuplicate_eq, if_neg]
  · rfl
  · rintro (h | h | ⟨h0, h1⟩ | h)
    · simp [hb] at h
    · simp [hf] at h
    · exact hn.elim h0 h1
    · simp [hd] at h

/-- A frame that is not taken, and a duplicate from the other bus, do nothing. -/
theorem nmtCommand_ignored (h : canTaken f = false ∨ s.nmtDuplicate b spec node = true) : nmtCommand b f spec node s = s := by
  unfold nmtCommand
  dsimp only
  rw [Chip.nmtDuplicate_eq]
  exact if_pos (h.elim (fun hf => .inr (.inl hf)) fun hd => .inr (.inr (.inr hd)))

end

/-- The conditions that are sent again leave NMT as it is. -/
theorem Chip.resendConditions_nmt (s : Chip) : s.resendConditions.host.nmt = s.host.nmt := by
  have hsent : s.resendConditions.host.besidesEmcy = s.host.besidesEmcy :=
    foldl_keeps (·.host.besidesEmcy) _ (fun _ _ => Chip.emcySend_besidesEmcy ..) _ _
  rw [HostServices.nmt_eq hsent]

/-- The start of the CAN services makes NMT pre-operational (R107). -/
theorem Chip.initCan_nmt (s : Chip) : s.initCan.host.nmt = .preOperational := by
  unfold Chip.initCan
  dsimp only
  rw [Chip.sendCan_host, Chip.sendCan_host]
  rfl

/-- After a reset of communication NMT is pre-operational. -/
theorem nmtReset_nmt (s : Chip) : (nmtReset s).host.nmt = .preOperational := by
  unfold nmtReset
  dsimp only
  rw [Chip.resendConditions_nmt, Chip.initCan_nmt]

/-! ## SYNC and TIME (R108) -/

theorem exec_canopenSync (b : Bus) (f : CanFormat) (s : State) : exec (.canopenSync ⟨b, f⟩) s = next s (canopenSync s.array b f s.chip) := rfl

theorem exec_timeMessage (b : Bus) (f : CanFormat) (content : BitVec 48) (s : State) :
    exec (.timeMessage ⟨b, f⟩ content) s = next s (timeMessage b f content s.chip) := rfl

theorem exec_syncSourceTimeout (s : State) : exec .syncSourceTimeout s = next s (syncSourceTimeout s.chip) := rfl

theorem Chip.sendPdo_lastSyncA (s : Chip) (n : Nat) (d : Bytes) : (s.sendPdo n d).host.lastSyncA = s.host.lastSyncA := by
  unfold Chip.sendPdo
  simp only [Chip.modHost_host, Chip.sendCan_host]

/-- A synchronous TPDO leaves the time of CAN_A's last SYNC. -/
theorem Chip.syncPdo_lastSyncA (a : RecArray) (s : Chip) (n : Nat) : (s.syncPdo a n).host.lastSyncA = s.host.lastSyncA := by
  unfold Chip.syncPdo
  dsimp only
  split
  · rfl
  · split
    · split
      · rfl
      · exact Chip.sendPdo_lastSyncA ..
    · split
      · exact Chip.sendPdo_lastSyncA ..
      · rfl

/-- A SYNC on CAN_A restarts the time for which CAN_A is the bus in use. -/
theorem canopenSync_canA {a : RecArray} {f : CanFormat} {s : Chip} (hb : s.hears .canA = true) (hf : canTaken f = true) :
    (canopenSync a .canA f s).host.lastSyncA = some s.clk.ticks := by
  unfold canopenSync
  rw [if_neg (by simp [hb, hf]), if_pos rfl]
  dsimp only
  split
  · rw [foldl_keeps (·.host.lastSyncA) _ (Chip.syncPdo_lastSyncA a)]
    rfl
  · rfl

theorem timeMessage_stored {b : Bus} {f : CanFormat} {s : Chip} (content : BitVec 48) (hb : s.hears b = true) (hf : canTaken f = true)
    (hs : s.syncBusNow = some b) (hn : s.host.nmt = .operational) (hc : s.host.cobTime.getLsbD 31 = true) :
    timeMessage b f content s = s.modClk fun c => { c with lastTime := content, timeAt := s.actionNs } := if_pos ⟨hb, hf, hs, hn, hc⟩

theorem syncSourceTimeout_forgets {s : Chip} (h : s.host.cyclePeriod ≠ 0) : syncSourceTimeout s = s.modHost fun h => { h with lastSyncA := none } :=
  if_neg h

/-! ## Heartbeats (R143) -/

theorem exec_canHeartbeatSend (s : State) : exec .canHeartbeatSend s = next s (heartbeatSend s.chip) := rfl

theorem exec_consumedHeartbeatLost (k : Fin 4) (s : State) : exec (.consumedHeartbeatLost k) s = next s (heartbeatLost k.val s.chip) := rfl

theorem exec_consumedHeartbeatReceived (b : Bus) (f : CanFormat) (n : BitVec 7) (s : State) :
    exec (.consumedHeartbeatReceived ⟨b, f⟩ n) s = next s (heartbeatReceived b f n.toNat s.chip) := rfl

/-- At its period the heartbeat goes out on both buses, CAN_A first. -/
theorem heartbeatSend_sends {s : Chip} (ho : s.host.online = true) (hp : s.host.heartbeat ≠ 0)
    (ht : s.passedMs s.host.lastBeat s.host.heartbeat.toNat = true) (ha : s.onBus .canA = true) (hb : s.onBus .canB = true) :
    heartbeatSend s = ((s.emit (.can .canA .fdBrs (0x700 + s.nodeId) [s.host.nmt.byte])).emit
      (.can .canB .fdBrs (0x700 + s.nodeId) [s.host.nmt.byte])).modHost fun h => { h with lastBeat := s.clk.ticks } := by
  unfold heartbeatSend
  rw [if_neg (by rw [ho, ht]; simp only [hp]; decide), Chip.sendCan_onBus ha, Chip.sendCan_onBus (by exact hb)]

/-- Consumer `k` of the device. -/
def Chip.beatConsumer (s : Chip) (k : Nat) : Consumer := SMap.get s.host.consumers {} k

theorem Chip.beatConsumer_eq {a b : Chip} (h : b.host.besidesConditions = a.host.besidesConditions) (k : Nat) : b.beatConsumer k = a.beatConsumer k := by
  have hc : b.host.consumers = a.host.consumers := congrArg (·.consumers) h
  unfold Chip.beatConsumer
  rw [hc]

/-- The device with consumer `k` changed. -/
def Chip.modBeatConsumer (s : Chip) (k : Nat) (f : Consumer → Consumer) : Chip := s.modHost fun h => { h with consumers := h.consumers.upd {} k f }

theorem Chip.beatConsumer_modBeatConsumer (s : Chip) (k j : Nat) (f : Consumer → Consumer) :
    (s.modBeatConsumer k f).beatConsumer j = if j = k then f (s.beatConsumer k) else s.beatConsumer j := SMap.get_upd ..

/-- A consumer whose heartbeat is lost. -/
def Consumer.missed (c : Consumer) : Consumer := { c with lost := true, monitored := false }

/-- The device once the loss of consumer `k`'s heartbeat is marked and recorded. -/
def Chip.beatMissed (s : Chip) (k : Nat) : Chip :=
  (s.modBeatConsumer k Consumer.missed).record 0x0009 0 (le 1 (s.beatConsumer k).node ++ le 1 (busNo (s.beatConsumer k).bus))

/-- A monitored heartbeat whose time is over is lost, with a record and its lasting condition. -/
theorem heartbeatLost_over {k : Nat} {s : Chip} (ho : s.host.online = true) (hm : (s.beatConsumer k).ms ≠ 0) (hmon : (s.beatConsumer k).monitored = true)
    (hl : (s.beatConsumer k).lost = false) (ht : s.overMs (s.beatConsumer k).lastAt (s.beatConsumer k).ms = true) :
    heartbeatLost k s = (s.beatMissed k).raise (6000 + k) 0x8130 0x11 0x0009 0 ((s.beatConsumer k).node + 256 * busNo (s.beatConsumer k).bus) :=
  if_pos ⟨ho, hm, hmon, hl, ht⟩

theorem Only.beatMissed {k} (s : Chip) : Only [.host, .recorder] s (s.beatMissed k) := ((Only.modHost s).mono (by simp)).comp ((Only.record _).mono (by simp))

theorem Chip.beatConsumer_beatMissed (s : Chip) (k : Nat) : (s.beatMissed k).beatConsumer k = (s.beatConsumer k).missed := by
  have hrec : (s.beatMissed k).host = (s.modBeatConsumer k Consumer.missed).host := (Only.record _).get .host
  rw [Chip.beatConsumer_eq (congrArg HostServices.besidesConditions hrec), Chip.beatConsumer_modBeatConsumer, if_pos rfl]

/-- A consumer whose heartbeat has just come on a bus. -/
def Consumer.restarted (now : Nat) (b : Bus) (c : Consumer) : Consumer := { c with lastAt := now, monitored := true, lost := false, bus := b }

/-- A heartbeat restarts the consumer of its node and leaves every other. -/
theorem Chip.beatConsumer_consume (b : Bus) (node : Nat) (s : Chip) (k j : Nat) : (s.consume b node k).beatConsumer j =
    if j = k ∧ (s.beatConsumer k).node = node ∧ (s.beatConsumer k).ms ≠ 0 then (s.beatConsumer j).restarted s.clk.ticks b else s.beatConsumer j := by
  by_cases h : (s.beatConsumer k).node = node ∧ (s.beatConsumer k).ms ≠ 0
  · have hc : s.consume b node k = (s.modBeatConsumer k (Consumer.restarted s.clk.ticks b)).endCondition (6000 + k) := if_pos h
    rw [hc, Chip.beatConsumer_eq (Chip.endCondition_besidesConditions ..), Chip.beatConsumer_modBeatConsumer]
    by_cases hj : j = k
    · subst hj; rw [if_pos rfl, if_pos ⟨rfl, h⟩]
    · rw [if_neg hj, if_neg fun hk => hj hk.1]
  · have hc : s.consume b node k = s := if_neg h
    rw [hc, if_neg fun hk => h hk.2]

theorem Only.consume {b n k} (s : Chip) : Only [.host, .out] s (s.consume b n k) := by
  unfold Chip.consume
  exact Only.ite (((Only.modHost s).mono (by simp)).comp (Only.endCondition _)) (Only.refl s _)

/-- A heartbeat for a list of consumers restarts each of its node in the list. -/
theorem Chip.beatConsumer_consumeAll {b : Bus} {node j : Nat} (l : List Nat) {s : Chip} (hn : (s.beatConsumer j).node = node) (hm : (s.beatConsumer j).ms ≠ 0) :
    (l.foldl (Chip.consume b node) s).beatConsumer j = if j ∈ l then (s.beatConsumer j).restarted s.clk.ticks b else s.beatConsumer j := by
  induction l generalizing s with
  | nil => rfl
  | cons k l ih =>
    have hclk : (s.consume b node k).clk = s.clk := (Only.consume s).get .clk
    by_cases hj : j = k
    · subst hj
      have hc : (s.consume b node j).beatConsumer j = (s.beatConsumer j).restarted s.clk.ticks b := by
        rw [Chip.beatConsumer_consume, if_pos ⟨rfl, hn, hm⟩]
      rw [List.foldl_cons, ih (by rw [hc]; exact hn) (by rw [hc]; exact hm), hc, hclk, if_pos List.mem_cons_self]
      exact ite_self _
    · have hc : (s.consume b node k).beatConsumer j = s.beatConsumer j := by rw [Chip.beatConsumer_consume, if_neg fun hk => hj hk.1]
      rw [List.foldl_cons, ih (by rw [hc]; exact hn) (by rw [hc]; exact hm), hc, hclk]
      simp only [List.mem_cons, hj, false_or]

/-- A heartbeat of a node that a consumer names restarts that consumer. -/
theorem heartbeatReceived_restarts {b : Bus} {f : CanFormat} {node k : Nat} {s : Chip} (hb : s.hears b = true) (hf : canTaken f = true) (hk : k < 4)
    (hn : (s.beatConsumer k).node = node) (hm : (s.beatConsumer k).ms ≠ 0) :
    (heartbeatReceived b f node s).beatConsumer k = (s.beatConsumer k).restarted s.clk.ticks b ∧ Only [.host, .out] s (heartbeatReceived b f node s) := by
  unfold heartbeatReceived
  rw [if_pos ⟨hb, hf⟩]
  exact ⟨(Chip.beatConsumer_consumeAll _ hn hm).trans (if_pos (List.mem_range.mpr hk)), Only.foldl _ (fun _ _ => Only.consume _) _ s⟩

/-- Settles O13: a command is obeyed as `nmtCommand_obeyed` says, a consumer is restarted by `Chip.beatConsumer_consumeAll` and lost by
`heartbeatLost_over`, and the other clauses are the equations of SYNC, TIME and the heartbeat that is sent. -/
theorem nmtSyncAndHeartbeatRows : Obligations.NmtSyncAndHeartbeatRows := by
  unfold Obligations.NmtSyncAndHeartbeatRows
  refine ⟨fun b f spec node s hb hf hn hd => ⟨_, exec_nmtCommand b f spec node s, ?_⟩, fun b f spec node s h => ?_, fun b s hb hd => ?_,
    fun f s hb hf => ⟨_, exec_canopenSync .canA f s, canopenSync_canA hb hf⟩, fun b f content s hb hf hs hn hc => ?_, fun s h => ?_,
    fun s ho hp ht ha hb => ?_, fun k s ho hm hmon hl ht _ => ?_, fun b f n k s hb hf hn hm _ => ?_⟩
  · have hnoted : Only [.host] s.chip (s.chip.nmtNoted b spec node) := Only.modHost _
    dsimp only
    rw [nmtCommand_obeyed hb hf hn hd]
    refine ⟨?_, ?_, ?_, ?_⟩ <;> rintro rfl
    · exact ⟨rfl, Within.ofChip (hnoted.comp (Only.modHost _))⟩
    · exact ⟨rfl, Within.ofChip (hnoted.comp (Only.modHost _))⟩
    · exact ⟨rfl, Within.ofChip (hnoted.comp (Only.modHost _))⟩
    · rw [show (0x81 : Byte).toNat = 0x81 from rfl, Chip.nmtObeyed_restart]
      exact (chipReset_restarted 0x80 _).of_same rfl rfl
  · rw [exec_nmtCommand, nmtCommand_ignored h]
    rfl
  · refine ⟨_, s.chip.nmtNoted b 0x82 0, exec_nmtResetCommunication b s, ?_⟩
    dsimp only
    rw [nmtCommand_obeyed hb rfl (.inl rfl) hd, show (0x82 : Byte).toNat = 0x82 from rfl, Chip.nmtObeyed_resetCommunication]
    exact ⟨rfl, Only.modHost _, rfl, nmtReset_nmt _⟩
  · rw [exec_timeMessage, timeMessage_stored content hb hf hs hn hc]
    rfl
  · rw [exec_syncSourceTimeout, syncSourceTimeout_forgets h]
    rfl
  · rw [exec_canHeartbeatSend, heartbeatSend_sends ho hp ht ha hb]
    rfl
  · refine ⟨_, exec_consumedHeartbeatLost k s, ?_⟩
    dsimp only
    rw [heartbeatLost_over ho hm hmon hl ht]
    refine ⟨congrArg Consumer.lost ((Chip.beatConsumer_eq (Chip.raise_besidesConditions ..) k).trans (Chip.beatConsumer_beatMissed ..)),
      Chip.raise_holds .., Within.ofChip (((Only.beatMissed _).mono (by simp)).comp ((Only.raise _).mono (by simp)))⟩
  · obtain ⟨hc, honly⟩ := heartbeatReceived_restarts hb hf k.isLt hn hm
    exact ⟨_, exec_consumedHeartbeatReceived b f n s, Within.ofChip honly, congrArg Consumer.lost hc, congrArg Consumer.monitored hc, congrArg Consumer.lastAt hc⟩

end Sys2Proof.Machine
end

section
/-! SUPPORT. The SPI port (R45, R111 to R116): what a request frame, a FETCH, a STATUS and a change of width do. -/

namespace Sys2Proof.Machine

theorem exec_spiWrite (f : Bytes) (g : SpiFraming) (s : State) : exec (.spiWrite f g) s = next s (spiRequest s.array f g s.chip) := rfl

theorem exec_spiRead (f : Bytes) (g : SpiFraming) (s : State) : exec (.spiRead f g) s = next s (spiRequest s.array f g s.chip) := rfl

theorem exec_spiFetch (s : State) : exec .spiFetch s = next s (spiFetch s.chip) := rfl

theorem exec_spiStatus (s : State) : exec .spiStatus s = next s (spiStatus s.chip) := rfl

theorem exec_spiLaneSwitch (s : State) : exec .spiLaneSwitch s = next s s.chip.csFallFree := rfl

theorem Only.csFall {k} (s : Chip) : Only [.host] s (s.csFall k) := Only.modSpi s

theorem Only.csFallFree (s : Chip) : Only [.host, .free] s s.csFallFree := ((Only.modFree s).mono (by simp)).comp ((Only.csFall _).mono (by simp))

/-! ## Request frames (R112 to R114) -/

section
variable {a : RecArray} {f : Bytes} {g : SpiFraming} {s : Chip}

/-- A frame at a full port is discarded whole. -/
theorem spiRequest_full (ho : s.host.online = true) (h : 8 ≤ s.host.spi.entries.length) : spiRequest a f g s = (s.csFall g.sckHigh).discardFrame := by
  have hfull : (s.csFall g.sckHigh).host.spi.free = false := decide_eq_false (Nat.not_lt.mpr h)
  unfold spiRequest
  rw [if_neg (by simp [ho])]
  exact if_pos hfull

/-- With an entry free a frame is rejected, or handled as what it spells. -/
theorem spiRequest_room (ho : s.host.online = true) (h : s.host.spi.entries.length < 8) : spiRequest a f g s =
    if frameSound f g.broken = false then (s.csFall g.sckHigh).modSpi SpiPort.reject
    else if byteAt f 0 = 0x20 then
      objectWrite a.next (.spi (f.getD 1 0)) (BitVec.ofNat 16 (fieldAt f 2 2)) (fieldAt f 4 2) (byteAt f 6) (slice f 9 (fieldAt f 7 2)) (s.csFall g.sckHigh)
    else if isWindowData (fieldAt f 4 2) (byteAt f 6) = false ∧ fieldAt f 7 2 ≠ 0 then
      badLengthRead (.spi (f.getD 1 0)) (BitVec.ofNat 16 (fieldAt f 2 2)) (fieldAt f 4 2) (byteAt f 6) (s.csFall g.sckHigh)
    else objectRead a (.spi (f.getD 1 0)) (BitVec.ofNat 16 (fieldAt f 2 2)) (fieldAt f 4 2) (byteAt f 6) (fieldAt f 7 2) (s.csFall g.sckHigh) := by
  have hroom : ¬ (s.csFall g.sckHigh).host.spi.free = false := by
    rw [Bool.not_eq_false]
    exact decide_eq_true h
  unfold spiRequest
  rw [if_neg (by simp [ho])]
  exact if_neg hroom

theorem Only.discardFrame (s : Chip) : Only [.host, .recorder] s s.discardFrame := ((Only.modSpi s).mono (by simp)).comp ((Only.count _).mono (by simp))

/-- The port after a discarded frame. -/
theorem Chip.discardFrame_spi (s : Chip) :
    s.discardFrame.host.spi = { s.host.spi with discarded := true, discards := satAdd 32 s.host.spi.discards 1 } :=
  congrArg HostServices.spi ((Only.count _).get .host)

end

/-! ## FETCH (R114, R115) -/

/-- A port where nothing has completed sends the frame status alone. -/
theorem SpiPort.fetch_none {p : SpiPort} (h : ∀ e ∈ p.entries, e.frame = none) : p.fetch = (p, [0]) := by
  have hnone : p.entries.filter p.mayLeave = [] := List.filter_eq_nil_iff.mpr fun e he => by simp [SpiPort.mayLeave, h e he]
  unfold SpiPort.fetch SpiPort.nextOut
  rw [hnone]
  rfl

/-- The one response of a port leaves it and frees its entry. -/
theorem SpiPort.fetch_one {p : SpiPort} {e : SpiEntry} {d : Bytes} (h : p.entries = [e]) (hf : e.frame = some d) (hq : p.quadEntry = []) :
    p.fetch = ({ p with entries := [], irq := p.emcyPending }, d) := by
  have hnext : p.nextOut = some e := by simp [SpiPort.nextOut, SpiPort.mayLeave, h, hf]
  unfold SpiPort.fetch
  rw [hnext, hq]
  simp [h, hf, SpiPort.setIrq, SpiPort.waits]

section
variable {s : Chip} (ho : s.host.online = true)
include ho

/-- A FETCH takes the port's answer behind the fall of SPI_CS_N. -/
theorem spiFetch_online : spiFetch s = (s.csFallFree.modSpi fun _ => s.csFallFree.host.spi.fetch.1).emit
    (.spi s.csFallFree.host.spi.quad s.csFallFree.host.spi.fetch.2) := by
  unfold spiFetch
  exact if_neg (by simp [ho])

theorem spiStatus_online : spiStatus s = (s.csFallFree.modSpi fun p =>
    SpiPort.setIrq { p with emcyPending := false, rejected := false, discarded := false }).emit
    (.spi s.csFallFree.host.spi.quad [s.csFallFree.host.spi.status]) := by
  unfold spiStatus
  exact if_neg (by simp [ho])

end

/-- Settles O15: a request frame is judged by `spiRequest_full` and `spiRequest_room`, and what a FETCH sends is that of `SpiPort.fetch`. -/
theorem spiPortRows : Obligations.SpiPortRows := by
  unfold Obligations.SpiPortRows
  refine ⟨fun f k s ho hr hs hw => ?_, fun f k s ho hr hs hw hl => ?_, fun f g s ho hr hs => ?_, fun f g s ho hfull => ?_,
    fun e d s ho he hf hq => ?_, fun s ho hnone => ?_, fun s ho => ?_, fun s => ?_⟩
  · rw [exec_spiWrite, spiRequest_room ho hr, if_neg (by simp [hs]), if_pos hw]
  · rw [exec_spiRead, spiRequest_room ho hr, if_neg (by simp [hs]), if_neg (by rw [hw]; decide), if_neg]
    rintro ⟨hwin, hlen⟩
    rcases hl with hl | hl
    · rw [hl] at hwin; cases hwin
    · exact hlen hl
  · refine ⟨_, exec_spiWrite f g s, exec_spiRead f g s, ?_⟩
    dsimp only
    rw [spiRequest_room ho hr, if_pos hs]
    exact ⟨rfl, rfl, rfl, rfl, Within.ofChip ((Only.csFall _).comp (Only.modSpi _))⟩
  · refine ⟨_, exec_spiWrite f g s, exec_spiRead f g s, ?_⟩
    dsimp only
    rw [spiRequest_full ho hfull, Chip.discardFrame_spi]
    exact ⟨rfl, rfl, rfl, Within.ofChip (((Only.csFall _).mono (by simp)).comp (Only.discardFrame _))⟩
  · have hfetch := SpiPort.fetch_one (p := s.chip.csFallFree.host.spi) he hf hq
    refine ⟨_, exec_spiFetch s, ?_⟩
    dsimp only
    rw [spiFetch_online ho, hfetch]
    exact ⟨rfl, rfl, rfl, Within.ofChip ((((Only.csFallFree _).mono (by simp)).comp ((Only.modSpi _).mono (by simp))).comp ((Only.emit _).mono (by simp)))⟩
  · have hfetch := SpiPort.fetch_none (p := s.chip.csFallFree.host.spi) hnone
    rw [exec_spiFetch, spiFetch_online ho, hfetch]
    rfl
  · refine ⟨_, exec_spiStatus s, ?_⟩
    dsimp only
    rw [spiStatus_online ho]
    exact ⟨rfl, rfl, rfl, rfl, rfl, Within.ofChip ((((Only.csFallFree _).mono (by simp)).comp ((Only.modSpi _).mono (by simp))).comp ((Only.emit _).mono (by simp)))⟩
  · exact ⟨_, exec_spiLaneSwitch s, rfl, rfl, rfl, Within.ofChip (Only.csFallFree _)⟩

end Sys2Proof.Machine
end

section
/-! SUPPORT. Stored parameters and windows (R123, R131, R133, R134, R523): what the stores and restores do at their owner, and the region,
the offset and the data of a window. -/

namespace Sys2Proof.Machine

/-! ## STORE_PARAMETERS, STORE_COMPLETE and RESTORE_DEFAULTS (R123, R523) -/

theorem exec_storeParameters {p : Path} {g : StoreRange} {s : State} {r : Req} {c : Chip}
    (h : gate p 0 0x1010 (rangeSub g) (le 4 saveWord) (fun _ _ => 0) s.chip = .go r c) :
    exec (.storeParameters p g) s = next s (Chip.finish r.dest (beginStore g r c)) := congrArg (next s) (hostWrite_go h)

theorem exec_storeComplete (s : State) : exec .storeComplete s = next s (storeComplete s.chip) := rfl

theorem exec_restoreDefaults {p : Path} {g : StoreRange} {s : State} {r : Req} {c : Chip}
    (h : gate p 0 0x1011 (rangeSub g) (le 4 loadWord) (fun _ _ => 0) s.chip = .go r c) :
    exec (.restoreDefaults p g) s = next s (Chip.finish r.dest (markRestore g r c)) := congrArg (next s) (hostWrite_go h)

section
variable {g : StoreRange} {c : Chip} (r : Req)

theorem beginStore_busy (h : c.boot.storing.isSome = true) : beginStore g r c = (c, .busy 250) := if_pos h

/-- Past 96 KiB a store fails. -/
theorem beginStore_full (h : c.boot.storing = none) (hb : 98304 < imageBytes (c.storeAfter g (c.storeImage g))) : beginStore g r c = (c, bad 0x0018) := by
  unfold beginStore
  rw [if_neg (by simp [h])]
  exact if_pos hb

/-- A store inside 96 KiB, with flash free, holds the values of its range for the commit. -/
theorem beginStore_holds (h : c.boot.storing = none) (hb : imageBytes (c.storeAfter g (c.storeImage g)) ≤ 98304) (hf : c.flashFree = true) :
    beginStore g r c = (c.modBoot fun b => { b with storing := some (g, c.storeImage g, { dest := r.dest }) }, .later) := by
  unfold beginStore
  rw [if_neg (by simp [h]), if_neg (Nat.not_lt.mpr hb), if_neg (by simp [hf])]

/-- With no store in progress a restore is marked for the next chip reset. -/
theorem markRestore_marks (h : c.boot.storing = none) : markRestore g r c = (c.modBoot fun b => { b with
    restoreComm := b.restoreComm || inRange g 0x1000, restoreDev := b.restoreDev || inRange g 0x2000 }, ok) := if_neg (by simp [h])

end

theorem Only.useBlock (s : Chip) : Only [.free, .boot] s s.useBlock := ((Only.drawBool s).mono (by simp)).comp ((Only.modBoot _).mono (by simp))

/-- A write to flash takes free blocks, and nothing else of the boot island's state. -/
theorem Chip.useBlock_boot (s : Chip) : ∃ n, s.useBlock.boot = { s.boot with freeBlocks := n } := ⟨_, rfl⟩

/-- The device once the held values of a range are committed, before the answer. -/
def Chip.committed (s : Chip) (g : StoreRange) (l : List Stored) : Chip :=
  (s.modBoot fun b => { b with
    storing := none, store := s.storeAfter g l
    restoreComm := b.restoreComm && !inRange g 0x1000, restoreDev := b.restoreDev && !inRange g 0x2000 }).useBlock

theorem Only.committed {g l} (s : Chip) : Only [.boot, .free] s (s.committed g l) :=
  ((Only.modBoot s).mono (by simp)).comp ((Only.useBlock _).mono (by simp))

theorem Chip.committed_boot (s : Chip) (g : StoreRange) (l : List Stored) :
    (s.committed g l).boot.storing = none ∧ (s.committed g l).boot.store = s.storeAfter g l := by
  unfold Chip.committed
  obtain ⟨n, hn⟩ := Chip.useBlock_boot (s.modBoot fun b => { b with
    storing := none, store := s.storeAfter g l
    restoreComm := b.restoreComm && !inRange g 0x1000, restoreDev := b.restoreDev && !inRange g 0x2000 })
  rw [hn]
  exact ⟨rfl, rfl⟩

/-- A store in progress is committed and then answered. -/
theorem storeComplete_commits {s : Chip} {g : StoreRange} {l : List Stored} {w : Waiter} (h : s.boot.storing = some (g, l, w)) :
    storeComplete s = (s.committed g l).complete w.dest 0 [] 0 := by
  unfold storeComplete
  rw [h]
  rfl

/-- Settles O16: a store is judged by the equations of `beginStore`, and its end is `Chip.committed` and the answer. -/
theorem storeRows : Obligations.StoreRows := by
  unfold Obligations.StoreRows
  refine ⟨fun p g s r c h => ⟨fun hs => ?_, fun hs hb => ?_, fun hs hb hf => ?_⟩, fun g l w s h => ?_, fun p g s r c h hs => ?_⟩
  · rw [exec_storeParameters h, beginStore_busy r hs]
    rfl
  · rw [exec_storeParameters h, beginStore_full r hs hb]
  · rw [exec_storeParameters h, beginStore_holds r hs hb hf]
    rfl
  · refine ⟨_, exec_storeComplete s, ?_⟩
    dsimp only
    rw [storeComplete_commits h]
    have hboot : ((s.chip.committed g l).complete w.dest 0 [] 0).boot = (s.chip.committed g l).boot := (Only.complete _).get .boot
    obtain ⟨hstoring, hstore⟩ := s.chip.committed_boot g l
    rw [hboot]
    exact ⟨hstoring, hstore, Within.ofChip (((Only.committed _).mono (by simp)).comp ((Only.complete _).mono (by simp)))⟩
  · rw [exec_restoreDefaults h, markRestore_marks r hs]
    rfl

/-! ## WINDOW_REGION_SELECT and WINDOW_OFFSET_SET (R131, R133) -/

section
variable {p : Path} {w : Window} {s : State} {r : Req} {c : Chip}

theorem exec_windowRegionSelect {region : Word16}
    (h : gate p 0 (windowIndex w) 1 (le 2 region.toNat) (windowRule (windowIndex w) 1 (le 2 region.toNat)).chk s.chip = .go r c) :
    exec (.windowRegionSelect p w region) s = next s (Chip.finish r.dest ((windowRule (windowIndex w) 1 (le 2 region.toNat)).act r c)) :=
  congrArg (next s) (hostWrite_go h)

theorem exec_windowOffsetSet {off : BitVec 64}
    (h : gate p 0 (windowIndex w) 2 (le 8 off.toNat) (windowRule (windowIndex w) 2 (le 8 off.toNat)).chk s.chip = .go r c) :
    exec (.windowOffsetSet p w off) s = next s (Chip.finish r.dest ((windowRule (windowIndex w) 2 (le 8 off.toNat)).act r c)) :=
  congrArg (next s) (hostWrite_go h)

end

section
variable {r : Req} {c : Chip} (idx : Nat) (b : Bytes)

/-- While its session's data access is in progress a window takes no region. -/
theorem windowRegion_busy (h : c.windowBusy r.dest = true) : (windowRule idx 1 b).act r c = (c.count 1, .busy 1) := if_pos h

/-- A region is selected with its offset at zero. -/
theorem windowRegion_set (h : c.windowBusy r.dest = false) : (windowRule idx 1 b).act r c =
    ((c.setSel r.dest.session idx 1 (leNat b)).setSel r.dest.session idx 2 0, ok) := if_neg (by simp [h])

/-- An offset is set, and in 0x5000 the count of the bytes moved starts again. -/
theorem windowOffset_set (h : c.windowBusy r.dest = false) : (windowRule idx 2 b).act r c =
    (if idx = 0x5000 then (c.setSel r.dest.session idx 2 (leNat b)).setSel r.dest.session 0x5000 6 0 else c.setSel r.dest.session idx 2 (leNat b), ok) :=
  if_neg (by simp [h])

end

/-- A program window is not the main one. -/
theorem programIndex_ne (q : Fin 16) : 0x3200 + q.val ≠ 0x5000 := by omega

/-! ## WINDOW_DATA_WRITE (R133, R134) -/

theorem exec_windowDataWrite {p : Path} {tag : Word16} {w : Window} {data : Bytes} {s : State} {r : Req} {c : Chip}
    (h : gate p tag (windowIndex w) 3 data
      (fun r s => if windowLength data.length then s.windowCode r.dest.session (windowIndex w) data.length r.level true else 0x0012) s.chip
      (fun r code s => s.windowNote r.dest.session (windowIndex w) true code) = .go r c) :
    exec (.windowDataWrite p tag w data) s = next s (Chip.finish r.dest (windowStore (windowIndex w) data r c)) := by
  refine congrArg (next s) ?_
  unfold windowWrite
  dsimp only
  rw [h]

/-- Words go to the program store of an idle sequencer, and the answer is the advanced offset. -/
theorem windowStore_program {q : Fin 16} {c : Chip} (data : Bytes) (r : Req) (h : c.seqLocked q.val = false) :
    windowStore (0x3200 + q.val) data r c =
      ((c.modSq q.val (Seq.storeWrite (c.sel r.dest.session (0x3200 + q.val) 2) data)).advanceOffset r.dest data.length,
        .done 0 (le 8 (((c.modSq q.val (Seq.storeWrite (c.sel r.dest.session (0x3200 + q.val) 2) data)).advanceOffset r.dest data.length).sel
          r.dest.session (0x3200 + q.val) 2))) := by
  unfold windowStore
  dsimp only
  rw [if_neg (programIndex_ne q), Nat.add_sub_cancel_left, if_neg (by simp [h])]

/-- A write to the DRAM, off live segment data, waits for its channel. -/
theorem windowStore_main {c : Chip} {data : Bytes} {r : Req}
    (hl : c.sel r.dest.session 0x5000 1 ≠ 2 ∨ c.overlapsLive (c.sel r.dest.session 0x5000 2) data.length = false) (hg : c.windowGate = 0) :
    windowStore 0x5000 data r c = (c.dramEnqueue
      { cls := .conductor, addr := c.regionBase (c.sel r.dest.session 0x5000 1) + c.sel r.dest.session 0x5000 2, write := true
        len := data.length, dest := some r.dest, data := data }, .later) := by
  unfold windowStore
  dsimp only
  rw [if_pos rfl, if_neg, if_neg (not_not.mpr hg)]
  rintro ⟨hr, ho⟩
  rcases hl with hl | hl
  · exact hl hr
  · rw [hl] at ho; cases ho

/-! ## WINDOW_DATA_READ (R133, R134) -/

theorem exec_windowDataRead (p : Path) (w : Window) (len : Nat) (s : State) :
    exec (.windowDataRead p w len) s = next s (windowRead p 0 (windowIndex w) len s.chip) := rfl

/-- A read of a program window over SPI reaches the conductor as the target `t`, the device then being `c`: its session has no access in
progress, the words lie inside the region at its level, and the conductor serves (R131, R134). -/
structure ProgramReadReaches (b : Byte) (q : Fin 16) (len : Nat) (s c : Chip) (t : Target) : Prop where
  arrives : s.arrive (.spi b) 0 (0x3200 + q.val) 3 = (c, some t)
  session : t.session ≠ 0
  length : windowLength len = true
  limit : len ≤ 4096
  free : (SMap.get c.host.sessions {} t.session).busy = false
  inside : c.windowCode t.session (0x3200 + q.val) len (SMap.get c.host.sessions {} t.session).level false = 0
  served : c.unserved (0x3200 + q.val) 3 = false
  available : c.availability (ownerOf (0x3200 + q.val) 3) none false false = 0
  runs : c.partitionStopped (0x3200 + q.val) 3 = false
  notHalted : c.ci.halted = false

/-- Such a read is answered with the words at the offset, which moves on. -/
theorem windowRead_program {b : Byte} {q : Fin 16} {len : Nat} {s c : Chip} {t : Target} (h : ProgramReadReaches b q len s c t) :
    windowRead (.spi b) 0 (0x3200 + q.val) len s =
      (c.advanceOffset t len).answerRead t (.data ((c.sq q.val).storeRead (c.sel t.session (0x3200 + q.val) 2) len)) := by
  have hcount : ¬ (spiCountBad (.spi b) len = true ∨ (len ≠ 0 ∧ windowLength len = false)) := by
    have hmin := h.length
    have hmax := h.limit
    simp only [windowLength, Bool.and_eq_true, decide_eq_true_eq] at hmin
    rintro (hbad | ⟨-, hlen⟩)
    · simp only [spiCountBad, Bool.or_eq_true, beq_iff_eq, decide_eq_true_eq] at hbad
      omega
    · rw [h.length] at hlen; cases hlen
  unfold windowRead
  rw [h.arrives]
  dsimp only [Chip.windowCount]
  rw [if_neg h.session, if_neg hcount, if_neg (by rw [h.free]; simp), if_neg (not_not.mpr h.inside), h.served, if_neg (programIndex_ne q),
    if_neg (by simp [h.available]), h.runs, if_neg (by simp), if_neg (by simp [h.notHalted])]
  unfold windowFetch
  dsimp only
  rw [if_neg (programIndex_ne q), Nat.add_sub_cancel_left]

/-- Settles O17: regions and offsets follow `windowRule`, data writes the equations of `windowStore`, and a read `windowRead_program`. -/
theorem windowRows : Obligations.WindowRows := by
  unfold Obligations.WindowRows
  refine ⟨fun p w region s r c h => ⟨fun hb => ?_, fun hb => ?_⟩, fun p q off s r c h hb => ?_, fun p off s r c h hb => ?_,
    fun p tag q data s r c h hl => ⟨_, exec_windowDataWrite (w := .program q) h, ?_⟩, fun p tag data s r c h hl hg => ?_,
    fun b q len s c t ha hs hw hm hbusy hc hu hav hp hh => ?_⟩
  · rw [exec_windowRegionSelect h, windowRegion_busy _ _ hb]
    rfl
  · rw [exec_windowRegionSelect h, windowRegion_set _ _ hb]
  · rw [exec_windowOffsetSet (w := .program q) h, windowOffset_set _ _ hb, if_neg (show windowIndex (.program q) ≠ 0x5000 from programIndex_ne q)]
    rfl
  · rw [exec_windowOffsetSet (w := .main) h, windowOffset_set _ _ hb]
    rfl
  · exact congrArg (Chip.finish r.dest) (windowStore_program data r hl)
  · rw [exec_windowDataWrite (w := .main) h]
    exact congrArg (fun x => next s (Chip.finish r.dest x)) (windowStore_main hl hg)
  · rw [exec_windowDataRead]
    exact congrArg (next s) (windowRead_program ⟨ha, hs, hw, hm, hbusy, hc, hu, hav, hp, hh⟩)

end Sys2Proof.Machine
end

section
/-! SUPPORT. Fuse words (R145 to R154, R166, R167): what blowing the bits of a word does to it and leaves, the count of blown bits, and
the nibbles of the intent word and of the revocation word. -/

namespace Sys2Proof.Machine

/-! ## Blowing bits of a word (R145, R146, R154) -/

/-- A fuse word is unchanged where the life-cycle part is. -/
theorem Only.fuse {a b : Chip} {ps : List Part} (h : Only ps a b) (hp : Part.life ∉ ps := by decide) (w : Nat) : b.fuse w = a.fuse w :=
  congrArg (fun l : LifeState => SMap.get l.fuses 0 w) (h .life hp)

/-- The life-cycle part once bits of a word are blown that all verify: the word reads sound again, the intent word once none of its marginal
bits is left. -/
def LifeState.blown (w : Nat) (b : Word32) (l : LifeState) : LifeState :=
  { l with
    fuses := l.fuses.set 0 w (l.fuses.get 0 w ||| b)
    intentMarginal := if w = 3 then l.intentMarginal &&& ~~~ b else l.intentMarginal
    marginal := if w = 3 ∧ l.intentMarginal &&& ~~~ b ≠ 0 then l.marginal else l.marginal.filter (· != w) }

/-- Blowing bits that all verify writes no record. -/
theorem Chip.blow_nil (s : Chip) (w : Nat) (b : Word32) : s.blow [] w b = s.modLife (LifeState.blown w b) := by
  have hb : ∀ x, b &&& ~~~ stuckBits [] w x = b := fun x => by
    rw [show stuckBits [] w x = 0 from rfl, show ~~~(0 : Word32) = BitVec.allOnes 32 from rfl, BitVec.and_allOnes]
  unfold Chip.blow
  dsimp only
  rw [if_pos (show stuckBits [] w _ = 0 from rfl), hb]
  unfold Chip.modLife LifeState.blown
  by_cases hw : w = 3 <;> simp [hw]

theorem Only.blow_nil {w b} (s : Chip) : Only [.life] s (s.blow [] w b) := by
  rw [Chip.blow_nil]
  exact Only.modLife s

/-- The bits blown are added to their word, and no other word changes (R145). -/
@[simp] theorem Chip.fuse_blow (s : Chip) (w : Nat) (b : Word32) (v : Nat) :
    (s.blow [] w b).fuse v = if v = w then s.fuse w ||| b else s.fuse v := by
  rw [Chip.blow_nil]
  exact SMap.get_set _ _ _ _ _

/-- A word besides the intent word reads sound once it is programmed (R146). -/
theorem Chip.sound_blow (s : Chip) {w : Nat} (b : Word32) (h : w ≠ 3) : (s.blow [] w b).sound w = true := by
  rw [Chip.blow_nil]
  simp [Chip.sound, LifeState.blown, h]

/-- Blowing bits leaves the transition nonce, whatever does not verify. -/
@[simp] theorem Chip.blow_nonce (s : Chip) (stuck : List FuseFault) (w : Nat) (b : Word32) : (s.blow stuck w b).life.nonce = s.life.nonce := by
  unfold Chip.blow
  dsimp only
  split <;> rfl

/-- Words that are blown in turn leave every other word. -/
theorem Chip.fuse_blowEach {v : Nat} (f : Chip → Nat → Word32) (l : List Nat) (h : v ∉ l) (s : Chip) :
    (l.foldl (fun c w => c.blow [] w (f c w)) s).fuse v = s.fuse v := by
  induction l generalizing s with
  | nil => rfl
  | cons w l ih =>
    rw [List.mem_cons, not_or] at h
    rw [List.foldl_cons, ih h.2, Chip.fuse_blow, if_neg h.1]

/-- The same bits blown in each of several words. -/
theorem Chip.fuse_blowSame {v : Nat} (b : Word32) (l : List Nat) (h : v ∈ l) (s : Chip) :
    (l.foldl (fun c w => c.blow [] w b) s).fuse v = s.fuse v ||| b := by
  induction l generalizing s with
  | nil => exact absurd h List.not_mem_nil
  | cons w l ih =>
    rw [List.foldl_cons]
    by_cases hl : v ∈ l
    · rw [ih hl, Chip.fuse_blow]
      split
      · next hv => rw [hv, BitVec.or_assoc, BitVec.or_self]
      · rfl
    · rw [Chip.fuse_blowEach (fun _ _ => b) l hl, Chip.fuse_blow, if_pos ((List.mem_cons.mp h).resolve_right hl), (List.mem_cons.mp h).resolve_right hl]

/-! ## Nibbles (R150, R167) -/

/-- A nibble whose four bits are blown reads 15. -/
theorem nibble_blown (x : Word32) {n : Nat} (h : n ≤ 28) : (x ||| BitVec.ofNat 32 (15 * 2 ^ n)).toNat / 2 ^ n % 16 = 15 := by
  have hlt : 15 * 2 ^ n < 2 ^ 32 := by
    have : 2 ^ n ≤ 2 ^ 28 := Nat.pow_le_pow_right (by omega) h
    omega
  rw [BitVec.toNat_or, BitVec.toNat_ofNat, Nat.mod_eq_of_lt hlt, Nat.or_div_two_pow, Nat.mul_div_cancel _ (Nat.two_pow_pos n),
    show 16 = 2 ^ 4 from rfl, Nat.or_mod_two_pow]
  have hy : x.toNat / 2 ^ n % 2 ^ 4 < 2 ^ 4 := Nat.mod_lt _ (by omega)
  generalize x.toNat / 2 ^ n % 2 ^ 4 = y at hy
  interval_cases y <;> rfl

/-! ## The count of blown bits (R166) -/

/-- The blown bits of a word as a set of positions. -/
theorem popCount_eq_card (v : Nat) : popCount v = ((Finset.range 32).filter fun i => v.testBit i = true).card := by
  rw [popCount, ← List.toFinset_card_of_nodup (List.nodup_range.filter _), List.toFinset_filter]
  congr 2

/-- One more blown bit counts one more. -/
theorem popCount_or_bit {v i : Nat} (hi : i < 32) (h : v.testBit i = false) : popCount (v ||| 2 ^ i) = popCount v + 1 := by
  rw [popCount_eq_card, popCount_eq_card, ← Finset.card_insert_of_notMem (a := i) (by simp [h])]
  congr 1
  ext j
  simp only [Finset.mem_filter, Finset.mem_range, Finset.mem_insert, Nat.testBit_or, Nat.testBit_two_pow, Bool.or_eq_true, decide_eq_true_eq]
  constructor
  · rintro ⟨hj, hv | rfl⟩
    · exact .inr ⟨hj, hv⟩
    · exact .inl rfl
  · rintro (rfl | ⟨hj, hv⟩)
    · exact ⟨hi, .inr rfl⟩
    · exact ⟨hj, .inl hv⟩

/-- A word whose 32 bits are all blown counts 32. -/
theorem popCount_full {v : Nat} (h : ∀ i < 32, v.testBit i = true) : popCount v = 32 := by
  rw [popCount_eq_card, Finset.filter_true_of_mem fun i hi => h i (Finset.mem_range.mp hi)]
  rfl

/-- With `acc` chosen among the bits below position `32 - fuel`, all of which it leaves blown, `n` more bits are chosen from there on
where the word has as many left. -/
theorem lowestUnblown_count (fuel n v acc : Nat) (hf : fuel ≤ 32) (hacc : acc < 2 ^ (32 - fuel))
    (hlow : ∀ j < 32 - fuel, (v ||| acc).testBit j = true) (hn : popCount (v ||| acc) + n ≤ 32) :
    popCount (v ||| lowestUnblown fuel n v acc) = popCount (v ||| acc) + n ∧ lowestUnblown fuel n v acc < 2 ^ 32 := by
  induction fuel generalizing n acc with
  | zero =>
    rw [popCount_full hlow] at hn ⊢
    obtain rfl : n = 0 := by omega
    exact ⟨popCount_full hlow, hacc⟩
  | succ fuel ih =>
    cases n with
    | zero => exact ⟨rfl, hacc.trans_le (Nat.pow_le_pow_right (by omega) (by omega))⟩
    | succ n =>
      have hi : 32 - fuel = 32 - (fuel + 1) + 1 := by omega
      rw [hi, Nat.pow_succ] at ih
      unfold lowestUnblown
      dsimp only
      generalize 32 - (fuel + 1) = i at hacc hlow hi ih ⊢
      have hnot : acc.testBit i = false := Nat.testBit_lt_two_pow hacc
      split
      · next hv =>
        refine ih (n + 1) acc (by omega) (by omega) (fun j hj => ?_) hn
        rcases Nat.lt_or_ge j i with h | h
        · exact hlow j h
        · obtain rfl : j = i := by omega
          rw [Nat.testBit_or, hv, Bool.true_or]
      · next hv =>
        have hor : v ||| (acc + 2 ^ i) = (v ||| acc) ||| 2 ^ i := by
          rw [Nat.add_comm, ← Nat.mul_one (2 ^ i), Nat.two_pow_add_eq_or_of_lt hacc 1, Nat.mul_one, Nat.or_assoc, Nat.or_comm acc]
        have hone : popCount (v ||| (acc + 2 ^ i)) = popCount (v ||| acc) + 1 := by
          rw [hor]
          exact popCount_or_bit (by omega) (by rw [Nat.testBit_or, hnot, Bool.or_false]; exact Bool.eq_false_iff.mpr hv)
        have hset : ∀ j < i + 1, (v ||| (acc + 2 ^ i)).testBit j = true := fun j hj => by
          rw [hor, Nat.testBit_or, Nat.testBit_two_pow]
          rcases Nat.lt_or_ge j i with h | h
          · rw [hlow j h, Bool.true_or]
          · rw [decide_eq_true (show i = j by omega), Bool.or_true]
        obtain ⟨hc, hlt⟩ := ih n (acc + 2 ^ i) (by omega) (by omega) hset (by omega)
        exact ⟨by omega, hlt⟩

end Sys2Proof.Machine
end

section
/-! SUPPORT. The life cycle and its fuses (R145 to R158, R165 to R167): the transition with its nonce, the recovery image, the fuse commands, the
skim, and what installs an image. -/

namespace Sys2Proof.Machine

/-! ## The request at its owner -/

/-- A write that reaches its owner under one check of its value does so under every check that passes it there (R31, step 5). -/
theorem gate_otherCheck {p : Path} {tag : Word16} {idx sub : Nat} {payload : Bytes} {chk chk' : Req → Chip → Nat} {s c : Chip} {r : Req}
    (h : gate p tag idx sub payload chk s = .go r c) (hc : chk' r c = 0) : gate p tag idx sub payload chk' s = .go r c := by
  unfold gate at h ⊢
  generalize s.arrive p tag idx sub = a at h ⊢
  obtain ⟨a, ot⟩ := a
  cases ot with
  | none => cases h
  | some t =>
    dsimp only at h ⊢
    split at h
    · cases h
    next hses =>
    rw [if_neg hses]
    split at h
    · cases h
    · cases h
    next row _ =>
    split at h
    · cases h
    next hacc =>
    rw [if_neg hacc]
    split at h
    · cases h
    next u d _ =>
    split at h
    · rw [if_pos (by decide)] at h; cases h
    next hsize =>
    split at h
    · cases h
    obtain ⟨rfl, rfl⟩ := Chip.dispatch_go h
    rw [if_neg hsize, if_neg (not_not.mpr hc)]
    exact h

/-! ## LIFE_CYCLE_TRANSITION (R151 to R154) -/

/-- The device once the nonce of a request is spent: one that was outstanding no longer is (R152). -/
def Chip.nonceSpent (s : Chip) (nonce : Bytes) : Chip := if s.life.nonce = some nonce then s.modLife fun l => { l with nonce := none } else s

theorem Only.nonceSpent {n} (s : Chip) : Only [.life] s (s.nonceSpent n) := Only.ite (Only.modLife s) (Only.refl s _)

theorem Chip.nonceSpent_ne (s : Chip) (nonce : Bytes) : (s.nonceSpent nonce).life.nonce ≠ some nonce := by
  unfold Chip.nonceSpent
  split
  · exact nofun
  · next h => exact h

/-- Spending a nonce leaves the life-cycle state and the fuses. -/
theorem Chip.nonceSpent_keeps (s : Chip) (nonce : Bytes) :
    (s.nonceSpent nonce).life.state = s.life.state ∧ (s.nonceSpent nonce).life.fuses = s.life.fuses := by
  unfold Chip.nonceSpent
  split <;> exact ⟨rfl, rfl⟩

/-- A transition request at its owner: its fields have their lengths, its target is a state that a request can name, and its count is one
of Table 6.4 or is judged by the state. -/
theorem lifeCycleTransition_go {p : Path} {tag : Word16} {target count : Byte} {nonce auths : Bytes} {t : LifeCycle} {s c : Chip} {r : Req}
    (stuck : List FuseFault) (cut : Option Nat) (hn : nonce.length = 16) (ha : auths.length = 68 * count.toNat) (ht : target.toNat < 6)
    (hl : lifeOf target.toNat = some t) (hcount : count = 0 ∨ count = 2 ∨ s.life.state = .service)
    (h : gate p tag 0x2400 4 ([target, count] ++ nonce ++ auths) (fun _ _ => 0) s = .go r c) :
    lifeCycleTransition p tag target count nonce auths stuck cut s =
      if transitionCode r t count.toNat nonce auths c ≠ 0 then
        (c.nonceSpent nonce).complete r.dest (transitionCode r t count.toNat nonce auths c) [] 0
      else match cut with
        | some n => aoPowerOn 1 (tornRun t n (c.nonceSpent nonce))
        | none =>
          if (transitionRun t stuck (c.nonceSpent nonce)).2.2 then
            chipReset 0x200 ((transitionRun t stuck (c.nonceSpent nonce)).1.complete r.dest (transitionRun t stuck (c.nonceSpent nonce)).2.1 [] 0)
          else (transitionRun t stuck (c.nonceSpent nonce)).1.complete r.dest (transitionRun t stuck (c.nonceSpent nonce)).2.1 [] 0 := by
  have hstate : c.life.state = s.life.state := congrArg LifeState.state ((gate_go h).1.get .life)
  have hterms : s.life.state = .service → (transitionTerms c.life.state).2 = true := fun hs => by rw [hstate, hs]; rfl
  unfold lifeCycleTransition
  dsimp only
  rw [gate_otherCheck h, hl]
  · rfl
  · rw [if_neg (by simp [hn, ha]), if_neg]
    rintro (h6 | ⟨h0, h2, hf⟩)
    · omega
    · rcases hcount with h | h | h
      · exact h0 h
      · exact h2 h
      · rw [hterms h] at hf; cases hf

/-- Every intent nibble lies inside its word (R150). -/
theorem intentShift_le (t : LifeCycle) : intentShift t ≤ 28 := by cases t <;> decide

/-- The device once the intent of a transition is blown and recorded and its wipes are done (R153). -/
def Chip.intentBlown (t : LifeCycle) (s : Chip) : Chip :=
  ((s.blow [] 3 (BitVec.ofNat 32 (15 * 2 ^ intentShift t))).record 0x100A 1 (le 1 s.life.state.code ++ le 1 t.code)).wipesOf t

/-- The device once the copies are programmed too. -/
def Chip.copiesBlown (t : LifeCycle) (s : Chip) : Chip :=
  (List.range 3).foldl (fun c k => c.blow [] k (c.transitionWord s.life.state t k)) (s.intentBlown t)

/-- Besides the intent word, blowing an intent leaves the fuses. -/
theorem Chip.fuse_intentBlown (t : LifeCycle) (s : Chip) (w : Nat) : (s.intentBlown t).fuse w =
    if w = 3 then s.fuse 3 ||| BitVec.ofNat 32 (15 * 2 ^ intentShift t) else s.fuse w := by
  unfold Chip.intentBlown
  rw [(Only.wipesOf _).fuse, (Only.record _).fuse, Chip.fuse_blow]

theorem Chip.fuse3_copiesBlown (t : LifeCycle) (s : Chip) :
    (s.copiesBlown t).fuse 3 = s.fuse 3 ||| BitVec.ofNat 32 (15 * 2 ^ intentShift t) := by
  unfold Chip.copiesBlown
  rw [Chip.fuse_blowEach (fun c k => c.transitionWord s.life.state t k) _ (by decide), Chip.fuse_intentBlown, if_pos rfl]

/-- For Calibrated each of the three copies takes the codeword 0xF. -/
theorem Chip.fuse_copiesBlown_calibrated (s : Chip) {k : Nat} (h : k < 3) : (s.copiesBlown .calibrated).fuse k = s.fuse k ||| 0xF := by
  unfold Chip.copiesBlown
  have hw : (fun (c : Chip) k => c.blow [] k (c.transitionWord s.life.state .calibrated k)) = fun c k => c.blow [] k 0xF := by
    funext c k
    unfold Chip.transitionWord
    rw [if_neg (by simp)]
    rfl
  rw [hw, Chip.fuse_blowSame _ _ (List.mem_range.mpr h), Chip.fuse_intentBlown, if_neg (by omega)]

@[simp] theorem Chip.copiesBlown_nonce (t : LifeCycle) (s : Chip) : (s.copiesBlown t).life.nonce = s.life.nonce := by
  unfold Chip.copiesBlown
  rw [foldl_keeps (fun c : Chip => c.life.nonce) _ (fun c k => Chip.blow_nonce c _ _ _)]
  unfold Chip.intentBlown
  rw [(Only.wipesOf _).get .life, (Only.record _).get .life, Chip.blow_nonce]

/-- An accepted transition without programming faults blows its intent and its copies and is followed by the chip reset; its answer is
success where two copies then hold the codeword (R153, R154). -/
theorem transitionRun_nil (t : LifeCycle) (s : Chip) : transitionRun t [] s = (s.copiesBlown t,
    if ((List.range 3).filter fun k => (s.copiesBlown t).transitionWord s.life.state t k &&& ~~~ (s.copiesBlown t).fuse k == 0).length ≥ 2
      then 0 else 0x1004, true) := by
  unfold transitionRun
  dsimp only
  rw [if_neg]
  · rfl
  · unfold Chip.intentNibble
    rw [Chip.fuse_blow, if_pos rfl, nibble_blown _ (intentShift_le t)]
    exact not_not.mpr rfl

/-- For Calibrated all three copies hold the codeword, and the answer is success. -/
theorem transitionRun_calibrated (s : Chip) : (transitionRun .calibrated [] s).2.1 = 0 := by
  rw [transitionRun_nil]
  have hall : ((List.range 3).filter fun k => (s.copiesBlown .calibrated).transitionWord s.life.state .calibrated k &&&
      ~~~ (s.copiesBlown .calibrated).fuse k == 0) = List.range 3 := by
    refine List.filter_eq_self.mpr fun k hk => ?_
    rw [Chip.fuse_copiesBlown_calibrated s (List.mem_range.mp hk)]
    unfold Chip.transitionWord
    rw [if_neg (by simp), beq_iff_eq]
    show (0xF : Word32) &&& ~~~(s.fuse k ||| 0xF) = 0
    rw [BitVec.not_or, BitVec.and_comm (~~~s.fuse k), ← BitVec.and_assoc, BitVec.and_not_self]
    simp
  exact if_pos (by rw [hall]; decide)

/-! ## TRANSITION_NONCE_READ (R152) -/

/-- A live generator answers sixteen bytes, which are then the outstanding nonce. -/
theorem readTransitionNonce_live {c : Chip} (r : Req) (h : c.crypto.entropy ≠ .failed) : readTransitionNonce r c =
    ((c.drawBytes 16).2.modLife fun l => { l with nonce := some (c.drawBytes 16).1, nonceAt := c.clk.ticks }, .data (c.drawBytes 16).1) := if_neg h

/-! ## RECOVERY_IMAGE_RUN (R158) -/

/-- The device once the recovery image has completed a transition, before its chip reset. -/
def Chip.recovered (stuck : List FuseFault) (t : LifeCycle) (s : Chip) : Chip :=
  ((s.record 0x100B 1 (le 1 6 ++ le 1 t.code)).wipesOf t).programCopies stuck t

theorem recoveryImageRun_pending {s : Chip} {n : Byte} {t : LifeCycle} (stuck : List FuseFault) (hp : s.life.pending = some n)
    (ht : lifeOf n.toNat = some t) : recoveryImageRun stuck s =
      if s.life.state = .locked ∧ s.power.phase = .booting ∧ s.areaStatus 2 = 0 then chipReset 0x200 (s.recovered stuck t) else s := by
  unfold recoveryImageRun
  rw [hp, Option.bind_some, ht]
  rfl

/-- The recovery image completes Calibrated with the codeword 0xF in each copy. -/
theorem Chip.fuse_recovered_calibrated (s : Chip) {k : Nat} (h : k < 3) : (s.recovered [] .calibrated).fuse k = s.fuse k ||| 0xF := by
  have hc : s.recovered [] .calibrated = (List.range 3).foldl (fun c k => c.blow [] k 0xF) (s.record 0x100B 1 (le 1 6 ++ le 1 LifeCycle.calibrated.code)) := rfl
  rw [hc, Chip.fuse_blowSame _ _ (List.mem_range.mpr h), (Only.record _).fuse]

/-- Settles O26: a request at its owner is `lifeCycleTransition_go`, a transition without faults `transitionRun_nil`, and the recovery image's
`recoveryImageRun_pending`. -/
theorem lifeCycleRows : Obligations.LifeCycleRows := by
  unfold Obligations.LifeCycleRows
  refine ⟨fun p tag target count nonce auths stuck cut t s r c hn ha ht hl hcount h => ⟨fun hcode => ?_, fun hcode n => ?_, fun hcode hstuck => ?_⟩,
    fun p s r c h he => ?_, fun stuck n t s hp ht => ⟨fun hs hb hr => ?_, fun hno => ?_⟩⟩
  · refine ⟨c.nonceSpent nonce, ?_, c.nonceSpent_ne nonce, (c.nonceSpent_keeps nonce).1, (c.nonceSpent_keeps nonce).2, Only.nonceSpent c⟩
    exact congrArg (next s) ((lifeCycleTransition_go stuck cut hn ha ht hl hcount h).trans (if_pos hcode))
  · refine ⟨c.nonceSpent nonce, ?_, c.nonceSpent_ne nonce, (c.nonceSpent_keeps nonce).2, Only.nonceSpent c⟩
    exact congrArg (next s) ((lifeCycleTransition_go stuck (some n) hn ha ht hl hcount h).trans (if_neg (not_not.mpr hcode)))
  · subst hstuck
    have hrun := transitionRun_nil t (c.nonceSpent nonce)
    refine ⟨(c.nonceSpent nonce).copiesBlown t, (transitionRun t [] (c.nonceSpent nonce)).2.1, ?_, ?_, ?_, ?_, ?_, ?_⟩
    · have hgo := (lifeCycleTransition_go [] none hn ha ht hl hcount h).trans (if_neg (not_not.mpr hcode))
      dsimp only at hgo
      rw [if_pos (by rw [hrun])] at hgo
      rw [show (transitionRun t [] (c.nonceSpent nonce)).1 = (c.nonceSpent nonce).copiesBlown t by rw [hrun]] at hgo
      exact congrArg (next s) hgo
    · rw [hrun]
      dsimp only
      split
      · exact .inl rfl
      · exact .inr rfl
    · rintro rfl
      exact transitionRun_calibrated _
    · rw [Chip.copiesBlown_nonce]
      exact c.nonceSpent_ne nonce
    · unfold Chip.intentNibble
      rw [Chip.fuse3_copiesBlown]
      exact nibble_blown _ (intentShift_le t)
    · rintro rfl k hk
      rw [Chip.fuse_copiesBlown_calibrated _ hk]
      unfold Chip.fuse
      rw [(c.nonceSpent_keeps nonce).2]
  · have hread : exec (.transitionNonceRead p) s = next s (Chip.answerRead r.dest (.data (c.drawBytes 16).1)
        ((c.drawBytes 16).2.modLife fun l => { l with nonce := some (c.drawBytes 16).1, nonceAt := c.clk.ticks })) :=
      congrArg (next s) ((hostRead_reaches h _).trans (by rw [readTransitionNonce_live r he]))
    refine ⟨_, _, hread, ?_, rfl, rfl, rfl, ?_⟩
    · simp [Chip.drawBytes]
    · exact ((Only.drawBytes c).mono (by simp)).comp ((Only.modLife _).mono (by simp))
  · refine ⟨s.chip.recovered stuck t, congrArg (next s) ((recoveryImageRun_pending stuck hp ht).trans (if_pos ⟨hs, hb, hr⟩)), ?_⟩
    rintro rfl rfl k hk
    exact s.chip.fuse_recovered_calibrated hk
  · refine congrArg (next s) ((recoveryImageRun_pending stuck hp ht).trans (if_neg ?_))
    tauto

end Sys2Proof.Machine
end

section
/-! SUPPORT. The fuse commands, the skim and the installing of images (R145, R148, R165 to R167). -/

namespace Sys2Proof.Machine

/-! ## The commands at their owner -/

section
variable {p : Path} {tag : Word16} {s : State} {r : Req} {c : Chip}

theorem exec_fuseProgram {w : Word16} {bits : Word32} (h : gate p tag 0x2400 9 (le 2 w.toNat ++ le 4 bits.toNat) (fun _ _ => 0) s.chip = .go r c) :
    exec (.fuseProgram p tag w bits) s = next s (Chip.finish r.dest (fuseProgram w bits r c)) := congrArg (next s) (hostWrite_go h)

theorem exec_imageInstall {b : Bool} (h : gate p tag 0x2500 0x0B [if b then 1 else 0] (fun _ _ => 0) s.chip = .go r c) :
    exec (.imageInstall p tag b) s = next s (Chip.finish r.dest (installImage (if b then 1 else 0) c)) := congrArg (next s) (hostWrite_go h)

theorem exec_recoveryInstall (h : gate p tag 0x2500 0x0B [2] (fun _ _ => 0) s.chip = .go r c) :
    exec (.recoveryInstall p tag) s = next s (Chip.finish r.dest (installRecovery r c)) := congrArg (next s) (hostWrite_go h)

theorem exec_raiseMinimumVersion {v : Byte} (h : gate p tag 0x2500 8 [v] (fun _ _ => 0) s.chip = .go r c) :
    exec (.raiseMinimumVersion p tag v) s = next s (Chip.finish r.dest (raiseMinimum v r c)) := congrArg (next s) (hostWrite_go h)

theorem exec_revokeKeySlot {k : Byte} (h : gate p tag 0x2500 0x0C [k] (fun _ _ => 0) s.chip = .go r c) :
    exec (.revokeKeySlot p tag k) s = next s (Chip.finish r.dest (revokeSlot k r c)) := congrArg (next s) (hostWrite_go h)

end

/-! ## FUSE_PROGRAM (R145) -/

section
variable {w : Word16} {bits : Word32} {c : Chip} (r : Req)

theorem fuseProgram_unlisted (h : programStates w.toNat = []) : fuseProgram w bits r c = (c, bad 0x0002) := if_pos h

theorem fuseProgram_wrongState (h : programStates w.toNat ≠ []) (hs : (programStates w.toNat).contains c.life.state = false) :
    fuseProgram w bits r c = (c, bad 0x0005) := (if_neg h).trans (if_neg (by rw [hs]; decide))

theorem fuseProgram_blows (hs : (programStates w.toNat).contains c.life.state = true) :
    fuseProgram w bits r c = (c.blow [] w.toNat bits, ok) := by
  refine (if_neg fun h => ?_).trans (if_pos hs)
  rw [h] at hs
  cases hs

end

/-! ## FUSE_SKIM (R148) -/

theorem exec_fuseSkim (m : List Byte) (bits : Word32) (s : State) : exec (.fuseSkim ⟨m, bits⟩) s = next s (fuseSkim m bits s.chip) := rfl

/-- The device once the marginal words of a skim are noted. -/
def Chip.skimmed (m : List Byte) (bits : Word32) (s : Chip) : Chip :=
  s.modLife fun l =>
    { l with
      lastSkim := s.upUs / 1000000, marginal := wordSet m, intentMarginal := if 3 ∈ wordSet m then bits else 0
      marginals := l.marginals + ((wordSet m).filter fun w => !s.life.marginal.contains w).length
      fault := if wordSet m = [] then l.fault else l.fault ||| 3 }

/-- A skim that is due notes the marginal words, records each and counts as done. -/
theorem fuseSkim_due {m : List Byte} {s : Chip} (bits : Word32) (h : 86400 * (s.life.lastSkim / 86400 + 1) ≤ s.upUs / 1000000) :
    fuseSkim m bits s = Chip.activityDone 3 ((wordSet m).foldl (fun c w => c.record 0x1008 1 (le 2 w ++ [1])) (s.skimmed m bits)) := by
  unfold fuseSkim Chip.skimmed
  dsimp only
  rw [if_neg (Nat.not_lt.mpr h)]
  simp only [List.contains_iff_mem]

theorem fuseSkim_early {m : List Byte} {s : Chip} (bits : Word32) (h : s.upUs / 1000000 < 86400 * (s.life.lastSkim / 86400 + 1)) :
    fuseSkim m bits s = s := if_pos h

/-- The records of a skim and its activity's count leave what it noted. -/
theorem Only.skimRecords {l : List Nat} (s : Chip) :
    Only [.recorder, .background] s (Chip.activityDone 3 (l.foldl (fun c w => c.record 0x1008 1 (le 2 w ++ [1])) s)) :=
  ((Only.foldl _ (fun c _ => Only.record c) l s).mono (by simp)).comp ((Chip.activityDone_only 3 _).mono (by simp))

/-! ## IMAGE_INSTALL and RECOVERY_INSTALL (R165) -/

/-- What a checked image is answered with once it is written: the status of its area. -/
theorem finish_status (t : Target) (c : Chip) (code : Nat) : Chip.finish t (c, if code = 0 then ok else bad code) = c.complete t code [] 0 := by
  split
  · next h => rw [h]; rfl
  · rfl

section
variable {a : Nat} {c : Chip}

theorem installImage_running (h : c.boot.running.toNat = a) : installImage a c = (c, bad 0x2004) := if_pos h

theorem installImage_notServed (hn : c.boot.running.toNat ≠ a) (h : c.dramServes = false ∨ c.runs 4 = false) : installImage a c = (c, bad 0x0004) :=
  (if_neg hn).trans (if_pos h)

/-- An area that does not run is installed from what the staging region reads. -/
theorem installImage_served (hn : c.boot.running.toNat ≠ a) (hd : c.dramServes = true) (hv : c.runs 4 = true) :
    installImage a c = c.withStaged (installChecked a) := (if_neg hn).trans (if_neg (by simp [hd, hv]))

theorem Chip.withStaged_none {f : Bytes → Chip → Chip × Reply} {d : Chip} (h : c.readStaged = (none, d)) : c.withStaged f = (d, bad 0x8003) := by
  unfold Chip.withStaged
  rw [h]

theorem Chip.withStaged_some {f : Bytes → Chip → Chip × Reply} {img : Bytes} {d : Chip} (h : c.readStaged = (some img, d)) : c.withStaged f = f img d := by
  unfold Chip.withStaged
  rw [h]

theorem installChecked_fails {img : Bytes} (h : c.checkImage img (a == 2) false (areaSize a) ≠ 0) :
    installChecked a img c = (c, bad (c.checkImage img (a == 2) false (areaSize a))) := if_pos h

theorem installChecked_passes {img : Bytes} (h : c.checkImage img (a == 2) false (areaSize a) = 0) : installChecked a img c =
    (c.writeArea a img, if (c.writeArea a img).areaStatus a = 0 then ok else bad ((c.writeArea a img).areaStatus a)) := if_neg (not_not.mpr h)

end

theorem installRecovery_vendor {r : Req} (c : Chip) (h : r.level = .vendor) : installRecovery r c = installImage 2 c := if_pos h

theorem installRecovery_other {r : Req} (c : Chip) (h : r.level ≠ .vendor) : installRecovery r c = (c, bad 0x000C) := if_neg h

/-- Image slots A and B are not the recovery area. -/
theorem slot_ne_recovery (b : Bool) : ((if b then 1 else 0 : Nat) == 2) = false := by cases b <;> rfl

/-! ## RAISE_MINIMUM_VERSION and REVOKE_KEY_SLOT (R166, R167) -/

theorem raiseMinimum_refused {v : Byte} {c : Chip} (r : Req) (h : v.toNat ≤ c.minVersion ∨ 32 < v.toNat ∨ c.boot.version.toNat < v.toNat) :
    raiseMinimum v r c = (c, bad 0x0002) := if_pos h

/-- The device once the minimum version is raised: the lowest unblown bits of its word are blown, as many as it lacks. -/
def Chip.raised (v : Nat) (c : Chip) : Chip := c.blow [] 0x061 (BitVec.ofNat 32 (lowestUnblown 32 (v - c.minVersion) (c.fuse 0x061).toNat 0))

theorem raiseMinimum_raises {v : Byte} {c : Chip} (r : Req) (h : c.minVersion < v.toNat) (h32 : v.toNat ≤ 32) (hv : v.toNat ≤ c.boot.version.toNat) :
    raiseMinimum v r c = (c.raised v.toNat, ok) := if_neg (by omega)

/-- With a sound word the minimum version becomes the value it is raised to. -/
theorem Chip.minVersion_raised {v : Nat} {c : Chip} (h : c.minVersion < v) (h32 : v ≤ 32) (hs : c.sound 0x061 = true) : (c.raised v).minVersion = v := by
  have hnow : c.minVersion = popCount (c.fuse 0x061).toNat := by
    unfold Chip.minVersion Chip.fuseUsed
    rw [if_pos hs]
  have hcount := lowestUnblown_count 32 (v - c.minVersion) (c.fuse 0x061).toNat 0 le_rfl (by decide) (fun j hj => absurd hj (by omega))
    (by rw [Nat.or_zero, ← hnow]; omega)
  unfold Chip.minVersion Chip.fuseUsed
  unfold Chip.raised
  rw [if_pos (Chip.sound_blow _ _ (by decide)), Chip.fuse_blow, if_pos rfl, BitVec.toNat_or, BitVec.toNat_ofNat, Nat.mod_eq_of_lt hcount.2, hcount.1,
    Nat.or_zero, ← hnow]
  omega

section
variable {k : Byte} {c : Chip} (r : Req)

theorem revokeSlot_unlisted (h : k.toNat = 0 ∨ 3 < k.toNat) : revokeSlot k r c = (c, bad 0x0002) := if_pos h

theorem revokeSlot_running (h1 : 1 ≤ k.toNat) (h3 : k.toNat ≤ 3) (h : c.boot.signer = some k.toNat) : revokeSlot k r c = (c, bad 0x0005) :=
  (if_neg (by omega)).trans (if_pos h)

theorem revokeSlot_revokes (h1 : 1 ≤ k.toNat) (h3 : k.toNat ≤ 3) (h : c.boot.signer ≠ some k.toNat) :
    revokeSlot k r c = (c.blow [] 0x060 (BitVec.ofNat 32 (15 * 16 ^ k.toNat)), ok) := (if_neg (by omega)).trans (if_neg h)

end

/-- A slot whose nibble is blown is revoked. -/
theorem Chip.revoked_blow (c : Chip) {k : Nat} (h : k ≤ 3) : (c.blow [] 0x060 (BitVec.ofNat 32 (15 * 16 ^ k))).revoked k = true := by
  unfold Chip.revoked Chip.fuseUsed
  rw [if_pos (Chip.sound_blow _ _ (by decide)), Chip.fuse_blow, if_pos rfl, show 16 ^ k = 2 ^ (4 * k) by rw [Nat.pow_mul],
    nibble_blown _ (by omega)]
  rfl

/-- Settles O27: each command is the equation of what its owner does; the minimum version is `Chip.minVersion_raised` and the revocation
`Chip.revoked_blow`. -/
theorem fuseAndImageRows : Obligations.FuseAndImageRows := by
  unfold Obligations.FuseAndImageRows
  refine ⟨fun p tag w bits s r c h => ⟨fun hu => ?_, fun hu hs => ?_, fun hs => ?_⟩, fun m bits s => ⟨fun hd => ?_, fun hd => ?_⟩,
    fun p tag b s r c h => ⟨fun hr => ?_, fun hr => ⟨fun hn => ?_, fun d hd hv hx => ?_, fun img d hd hv hx => ⟨fun hc => ?_, fun hc => ?_⟩⟩⟩,
    fun p tag s r c h => ⟨fun hl => ?_, fun img d hl hr hd hv hx hc => ?_⟩, fun p tag v s r c h => ⟨fun hn => ?_, fun hm h32 hv hs => ?_⟩,
    fun p tag k s r c h => ⟨fun hk => ?_, fun h1 h3 hk => ?_, fun h1 h3 hk => ?_⟩⟩
  · rw [exec_fuseProgram h, fuseProgram_unlisted r hu]; rfl
  · rw [exec_fuseProgram h, fuseProgram_wrongState r hu hs]; rfl
  · refine ⟨c.blow [] w.toNat bits, ?_, (Chip.fuse_blow ..).trans (if_pos rfl), fun v hv => (Chip.fuse_blow ..).trans (if_neg hv), Only.blow_nil c⟩
    rw [exec_fuseProgram h, fuseProgram_blows r hs]; rfl
  · refine ⟨_, congrArg (next s) (fuseSkim_due bits hd), ?_⟩
    dsimp only
    rw [(Only.skimRecords _).get .life]
    exact ⟨rfl, rfl, rfl, rfl, rfl, rfl, Within.ofChip (((Only.modLife _).mono (by simp)).comp ((Only.skimRecords _).mono (by simp)))⟩
  · exact congrArg (next s) (fuseSkim_early bits hd)
  · rw [exec_imageInstall h, installImage_running hr]; rfl
  · rw [exec_imageInstall h, installImage_notServed hr hn]; rfl
  · rw [exec_imageInstall h, installImage_served hr hd hv, Chip.withStaged_none hx]; rfl
  · rw [exec_imageInstall h, installImage_served hr hd hv, Chip.withStaged_some hx, installChecked_fails (by rwa [slot_ne_recovery]), slot_ne_recovery]; rfl
  · rw [exec_imageInstall h, installImage_served hr hd hv, Chip.withStaged_some hx, installChecked_passes (by rwa [slot_ne_recovery]), finish_status]
  · rw [exec_recoveryInstall h, installRecovery_other c hl]; rfl
  · rw [exec_recoveryInstall h, installRecovery_vendor c hl, installImage_served hr hd hv, Chip.withStaged_some hx, installChecked_passes hc, finish_status]
  · rw [exec_raiseMinimumVersion h, raiseMinimum_refused r hn]; rfl
  · refine ⟨c.raised v.toNat, ?_, Chip.minVersion_raised hm h32 hs, fun w hw => (Chip.fuse_blow ..).trans (if_neg hw), Only.blow_nil c⟩
    rw [exec_raiseMinimumVersion h, raiseMinimum_raises r hm h32 hv]; rfl
  · rw [exec_revokeKeySlot h, revokeSlot_unlisted r hk]; rfl
  · rw [exec_revokeKeySlot h, revokeSlot_running r h1 h3 hk]; rfl
  · refine ⟨_, ?_, c.revoked_blow h3, fun w hw => (Chip.fuse_blow ..).trans (if_neg hw), Only.blow_nil c⟩
    rw [exec_revokeKeySlot h, revokeSlot_revokes r h1 h3 hk]; rfl

end Sys2Proof.Machine
end

section
/-! SUPPORT. The debug port (R168 to R170): the steps of a frame before its opcode's effect, the session, the cores and the memory. -/

namespace Sys2Proof.Machine

/-! ## Frames (R168, R169) -/

section
variable {op : Nat} {f : DebugFrame} {act : Nat → Nat → Chip → Chip × Nat × Nat} {s : Chip}

/-- Outside a debug session a frame means nothing. -/
theorem debugFrame_inactive (h : s.debugActive = false) : debugFrame op f act s = s := if_pos h

/-- A frame whose CRC-8 does not match is answered with status 0x03 (R168). -/
theorem debugFrame_badCrc (h : s.debugActive = true) (hc : crc8 (frameBytes op f) ≠ f.crc.toNat) : debugFrame op f act s = s.respond 3 0 :=
  (if_neg (by simp [h])).trans (if_pos hc)

/-- An opcode from 0x10 needs an authorised session (R169). -/
theorem debugFrame_unauthorised (h : s.debugActive = true) (hc : crc8 (frameBytes op f) = f.crc.toNat) (hop : 0x10 ≤ op) (ho : s.debugOpen = false) :
    debugFrame op f act s = s.respond 1 0 := (if_neg (by simp [h])).trans ((if_neg (not_not.mpr hc)).trans (if_pos ⟨hop, ho⟩))

/-- A sound frame of an opcode that needs no authorisation, or in an authorised session, has its opcode's effect. -/
theorem debugFrame_acts (h : s.debugActive = true) (hc : crc8 (frameBytes op f) = f.crc.toNat) (ho : op < 0x10 ∨ s.debugOpen = true) :
    debugFrame op f act s = (act f.address.toNat f.data.toNat s).1.respond (act f.address.toNat f.data.toNat s).2.1 (act f.address.toNat f.data.toNat s).2.2 := by
  refine (if_neg (by simp [h])).trans ((if_neg (not_not.mpr hc)).trans (if_neg ?_))
  rintro ⟨hop, hs⟩
  rcases ho with ho | ho
  · omega
  · rw [hs] at ho; cases ho

end

section
variable (f : DebugFrame) (s : State)

theorem exec_debugIdentify : exec (.debugIdentify ⟨0x01, f⟩) s = next s (debugFrame 0x01 f (fun _ _ c => (c, 0, 0x00064100)) s.chip) :=
  congrArg (next s) (if_pos rfl)

theorem exec_debugChallengeWord : exec (.debugChallengeWord f) s = next s (debugFrame 0x02 f challengeWord s.chip) := rfl

theorem exec_debugAuthorisationWord : exec (.debugAuthorisationWord f) s = next s (debugFrame 0x03 f authorisationWord s.chip) := rfl

theorem exec_debugAuthorise : exec (.debugAuthorise f) s = next s (debugFrame 0x04 f debugAuthorise s.chip) := rfl

theorem exec_debugHalt : exec (.debugHalt f) s = next s (debugFrame 0x10 f debugHalt s.chip) := rfl

theorem exec_debugResume : exec (.debugResume f) s = next s (debugFrame 0x11 f (debugResume s.array) s.chip) := rfl

theorem exec_debugSingleStep : exec (.debugSingleStep f) s = next s (debugFrame 0x12 f debugStep s.chip) := rfl

theorem exec_debugReadWord : exec (.debugReadWord f) s = next s (debugFrame 0x20 f debugRead s.chip) := rfl

theorem exec_debugWriteWord : exec (.debugWriteWord f) s = next s (debugFrame 0x21 f debugWrite s.chip) := rfl

theorem exec_debugReadRegister : exec (.debugReadRegister f) s = next s (debugFrame 0x22 f debugReadReg s.chip) := rfl

theorem exec_debugWriteRegister : exec (.debugWriteRegister f) s = next s (debugFrame 0x23 f debugWriteReg s.chip) := rfl

theorem exec_debugChipReset : exec (.debugChipReset f) s = next s (debugReset f s.chip) := rfl

end

/-- A reset request that the steps before its effect turn away resets nothing. -/
theorem debugReset_refused {f : DebugFrame} {s : Chip} (h : ¬(s.debugActive = true ∧ s.debugOpen = true ∧ crc8 (frameBytes 0x30 f) = f.crc.toNat)) :
    debugReset f s = debugFrame 0x30 f (fun _ _ c => (c, 0, 0)) s := if_neg h

/-- The rows of Table 6.10, each with its opcode. -/
def debugRows (f : DebugFrame) : List (Nat × Instr) :=
  [(0x01, .debugIdentify ⟨0x01, f⟩), (0x02, .debugChallengeWord f), (0x03, .debugAuthorisationWord f), (0x04, .debugAuthorise f),
    (0x10, .debugHalt f), (0x11, .debugResume f), (0x12, .debugSingleStep f), (0x20, .debugReadWord f), (0x21, .debugWriteWord f),
    (0x22, .debugReadRegister f), (0x23, .debugWriteRegister f), (0x30, .debugChipReset f)]

/-- Where the steps before an opcode's effect turn a frame away, each row of Table 6.10 is a frame of its opcode. -/
theorem exec_debugRow {f : DebugFrame} {op : Nat} {i : Instr} (h : (op, i) ∈ debugRows f) (s : State)
    (hs : ¬(s.chip.debugActive = true ∧ s.chip.debugOpen = true ∧ crc8 (frameBytes op f) = f.crc.toNat)) :
    ∃ act, exec i s = next s (debugFrame op f act s.chip) := by
  simp only [debugRows, List.mem_cons, List.not_mem_nil, or_false, Prod.mk.injEq] at h
  obtain ⟨rfl, rfl⟩ | ⟨rfl, rfl⟩ | ⟨rfl, rfl⟩ | ⟨rfl, rfl⟩ | ⟨rfl, rfl⟩ | ⟨rfl, rfl⟩ |
    ⟨rfl, rfl⟩ | ⟨rfl, rfl⟩ | ⟨rfl, rfl⟩ | ⟨rfl, rfl⟩ | ⟨rfl, rfl⟩ | ⟨rfl, rfl⟩ := h
  · exact ⟨_, exec_debugIdentify f s⟩
  · exact ⟨_, exec_debugChallengeWord f s⟩
  · exact ⟨_, exec_debugAuthorisationWord f s⟩
  · exact ⟨_, exec_debugAuthorise f s⟩
  · exact ⟨_, exec_debugHalt f s⟩
  · exact ⟨_, exec_debugResume f s⟩
  · exact ⟨_, exec_debugSingleStep f s⟩
  · exact ⟨_, exec_debugReadWord f s⟩
  · exact ⟨_, exec_debugWriteWord f s⟩
  · exact ⟨_, exec_debugReadRegister f s⟩
  · exact ⟨_, exec_debugWriteRegister f s⟩
  · exact ⟨_, (exec_debugChipReset f s).trans (congrArg (next s) (debugReset_refused hs))⟩

/-! ## The debug session (R168, R169) -/

theorem exec_debugEnable (s : State) : exec .debugEnable s = next s (debugEnable s.chip) := rfl

theorem debugEnable_enabled {s : Chip} (h : s.life.debugOn = true) : debugEnable s = s := if_pos h

/-- A session starts with what the state offers and no authorisation word. -/
theorem debugEnable_starts {s : Chip} (h : s.life.debugOn = false) : (debugEnable s).life.debugOn = true ∧
    (debugEnable s).life.debug = debugOffer s.life.state ∧ (debugEnable s).life.authWords = [] := by
  unfold debugEnable
  rw [if_neg (by simp [h])]
  exact ⟨rfl, rfl, rfl⟩

/-! ## Identify, the challenge and the authorisation (R168, R169) -/

/-- In place of identify stands a frame of an opcode that Table 6.10 does not list. -/
theorem exec_debugIdentify_reserved {op : Byte} (f : DebugFrame) (s : State) (h : op ≠ 0x01) :
    exec (.debugIdentify ⟨op, f⟩) s = next s (debugReserved op.toNat f s.chip) := congrArg (next s) (if_neg h)

theorem debugReserved_sound {op : Nat} {f : DebugFrame} {s : Chip} (h : s.debugActive = true) (hc : crc8 (frameBytes op f) = f.crc.toNat) :
    debugReserved op f s = s.respond 5 0 := (if_neg (by simp [h])).trans (if_neg (not_not.mpr hc))

/-- A challenge that has been drawn stands. -/
theorem challengeWord_drawn {s : Chip} (a d : Nat) (h : s.life.challenge ≠ []) :
    challengeWord a d s = (s, if 3 < a then (2, 0) else (0, beNat (slice s.life.challenge (4 * a) 4))) := by
  unfold challengeWord
  simp only [if_neg h]
  split <;> rfl

theorem authorisationWord_stores {s : Chip} {a : Nat} (d : Nat) (h : a ≤ 127) :
    authorisationWord a d s = (s.modLife fun l => { l with authWords := l.authWords.set 0 a (BitVec.ofNat 32 d) }, 0, 0) := if_neg (by omega)

theorem authorisationWord_above {s : Chip} {a : Nat} (d : Nat) (h : 127 < a) : authorisationWord a d s = (s, 2, 0) := if_pos h

section
variable {s : Chip} (a d : Nat) (ho : s.debugOpen = false)
include ho

theorem debugAuthorise_viDown (hv : s.runs 4 = false) : debugAuthorise a d s = (s, 4, 0) := (if_neg (by simp [ho])).trans (if_pos hv)

theorem debugAuthorise_verifies (hv : s.runs 4 = true) (hc : s.life.challenge ≠ []) (hd : s.debugAuth = true) :
    debugAuthorise a d s = (s.modLife fun l => { l with debug := .authorised }, 0, 0) :=
  (if_neg (by simp [ho])).trans ((if_neg (by simp [hv])).trans (if_pos ⟨hc, hd⟩))

theorem debugAuthorise_fails (hv : s.runs 4 = true) (hd : s.debugAuth = false) : debugAuthorise a d s = (s, 1, 0) :=
  (if_neg (by simp [ho])).trans ((if_neg (by simp [hv])).trans (if_neg (by simp [hd])))

end

/-- Settles O28: a frame is judged by the equations of `debugFrame`, and each opcode of the session has the equation of its effect. -/
theorem debugFrameAndSessionRows : Obligations.DebugFrameAndSessionRows := by
  unfold Obligations.DebugFrameAndSessionRows
  refine ⟨fun s h => ?_, fun s h => ?_, fun s => ?_, fun f s h hc => ?_, fun f s h hc hd ha => ?_, fun f s h hc hd ha => ?_, fun f s h hc ha => ?_,
    fun f s h hc ha => ?_, fun f s h hc ho hv hd hq => ?_, fun f s h hc ho => ⟨fun hv => ?_, fun hv hq => ?_⟩, fun op f s hop h hc => ?_,
    fun f s i op hi => ⟨fun h => ?_, fun h hc => ?_, fun h hc hop ho => ?_⟩⟩
  · obtain ⟨hon, hdebug, hwords⟩ := debugEnable_starts h
    exact ⟨_, exec_debugEnable s, hon, hdebug, hwords⟩
  · exact congrArg (next s) (debugEnable_enabled h)
  · exact ⟨_, rfl, rfl, rfl, rfl, rfl, Within.ofChip (((Only.modLife _).mono (by simp)).comp ((Only.modKeys _).mono (by simp)))⟩
  · rw [exec_debugIdentify, debugFrame_acts h hc (.inl (by decide))]
  · rw [exec_debugChallengeWord, debugFrame_acts h hc (.inl (by decide)), challengeWord_drawn _ _ hd, if_neg (by omega)]
  · rw [exec_debugChallengeWord, debugFrame_acts h hc (.inl (by decide)), challengeWord_drawn _ _ hd, if_pos ha]
  · refine ⟨s.chip.modLife fun l => { l with authWords := l.authWords.set 0 f.address.toNat f.data }, ?_, ?_, fun a hne => ?_, Only.modLife _⟩
    · rw [exec_debugAuthorisationWord, debugFrame_acts h hc (.inl (by decide)), authorisationWord_stores _ ha, BitVec.ofNat_toNat, BitVec.setWidth_eq]
    · exact (SMap.get_set _ _ _ _ _).trans (if_pos rfl)
    · exact (SMap.get_set _ _ _ _ _).trans (if_neg hne)
  · rw [exec_debugAuthorisationWord, debugFrame_acts h hc (.inl (by decide)), authorisationWord_above _ ha]
  · rw [exec_debugAuthorise, debugFrame_acts h hc (.inl (by decide)), debugAuthorise_verifies _ _ ho hv hd hq]
    rfl
  · rw [exec_debugAuthorise, debugFrame_acts h hc (.inl (by decide)), debugAuthorise_viDown _ _ ho hv]
  · rw [exec_debugAuthorise, debugFrame_acts h hc (.inl (by decide)), debugAuthorise_fails _ _ ho hv hq]
  · rw [exec_debugIdentify_reserved f s hop, debugReserved_sound h hc]
  · obtain ⟨act, he⟩ := exec_debugRow hi s (by simp [h])
    rw [he, debugFrame_inactive h]
    rfl
  · obtain ⟨act, he⟩ := exec_debugRow hi s (fun hn => hc hn.2.2)
    rw [he, debugFrame_badCrc h hc]
  · obtain ⟨act, he⟩ := exec_debugRow hi s (by simp [ho])
    rw [he, debugFrame_unauthorised h hc hop ho]

end Sys2Proof.Machine
end

section
/-! SUPPORT. The authorised debug session (R20, R68, R168, R170, R450): the cores, their registers, one instruction of them, the memory and the
chip reset. -/

namespace Sys2Proof.Machine

/-! ## Frames of an authorised session (R169) -/

/-- In an authorised session a sound frame has its opcode's effect. -/
theorem debugFrame_authorised {op : Nat} {f : DebugFrame} {act : Nat → Nat → Chip → Chip × Nat × Nat} {s : Chip} (h : s.debugActive = true)
    (ho : s.debugOpen = true) (hc : crc8 (frameBytes op f) = f.crc.toNat) :
    debugFrame op f act s = (act f.address.toNat f.data.toNat s).1.respond (act f.address.toNat f.data.toNat s).2.1 (act f.address.toNat f.data.toNat s).2.2 :=
  debugFrame_acts h hc (.inr ho)

/-- A response reaches the debug port and the outputs only. -/
theorem Only.respond {a b} (s : Chip) : Only [.life, .out] s (s.respond a b) :=
  ((Only.modLife s).mono (by simp)).comp ((Only.emit _).mono (by simp))

/-! ## Halt and resume (R168, R450) -/

/-- The running cores once they halt, before the check-in slots are suspended. -/
def Chip.coresHalted (s : Chip) : Chip := s.wildCores.modCi fun c => { c with halted := true }

theorem debugHalt_halts {s : Chip} (a d : Nat) (hr : s.runs 2 = true) (hh : s.ci.halted = false) : debugHalt a d s =
    (if s.coresHalted.haltSuspends then s.coresHalted.suspendSlots else s.coresHalted, 0, 0) :=
  (if_neg (by simp [hr])).trans (if_neg (by simp [hh]))

theorem debugHalt_stopped {s : Chip} (a d : Nat) (hr : s.runs 2 = false) : debugHalt a d s = (s, 4, 0) := if_pos hr

/-- A halt finds the registers free, and changes nothing else of the cores. -/
theorem Chip.coresHalted_ci (s : Chip) : ∃ rs pc, s.coresHalted.ci = { s.ci with halted := true, regs := rs, pc := pc } ∧ rs.length = 31 :=
  ⟨s.wildCores.ci.regs, s.wildCores.ci.pc, rfl, (List.length_map _).trans List.length_range⟩

theorem Only.coresHalted (s : Chip) : Only [.ci, .free] s s.coresHalted :=
  (((Only.drawBytes s).mono (by simp)).comp ((Only.modCi _).mono (by simp))).comp ((Only.modCi _).mono (by simp))

/-- With no request waiting in CH_01, emptying it ends the ended sessions' selectors only. -/
theorem drainCh01_empty {s : Chip} (a : RecArray) (h : s.host.ch01 = []) : drainCh01 a s = s.modHost fun h => { h with endedSels := [] } := by
  unfold drainCh01
  rw [h]
  dsimp only [List.foldl_nil]
  have hs : (s.modHost fun h => { h with ch01 := [] }) = s := by rw [← h]; rfl
  rw [hs]

/-- Where no slots were suspended, a resume lets the cores go on and empties CH_01. -/
theorem debugResume_resumes {s : Chip} (arr : RecArray) (a d : Nat) (hh : s.ci.halted = true) (hs : s.haltSuspends = false) : debugResume arr a d s =
    (drainCh01 arr (s.modCi fun c => { c with halted := false }), 0, 0) := by
  unfold debugResume
  rw [if_neg (by simp [hh])]
  dsimp only
  rw [if_neg (by simp [hs])]

/-! ## Registers (R168) -/

/-- Register 0 keeps nothing. -/
theorem Chip.setX_zero (s : Chip) (v : Word32) : s.setX 0 v = s := rfl

theorem Chip.setX_general (s : Chip) {i : Nat} (v : Word32) (h : i ≠ 0) : s.setX i v = s.modCi fun c => { c with regs := c.regs.set (i - 1) v } := by
  unfold Chip.setX
  simp only [if_neg h]

section
variable {s : Chip} {a : Nat} (d : Nat)

theorem debugReadReg_above (h : 32 < a) : debugReadReg a d s = (s, 2, 0) := if_pos h

theorem debugReadReg_running (h : a ≤ 32) (hh : s.ci.halted = false) : debugReadReg a d s = (s, 4, 0) := (if_neg (by omega)).trans (if_pos hh)

/-- Register 32 is the program counter, 0 reads as zero, and the others are the general ones. -/
theorem debugReadReg_halted (h : a ≤ 32) (hh : s.ci.halted = true) : debugReadReg a d s =
    (s, 0, if a = 32 then s.ci.pc.toNat else if a = 0 then 0 else (s.ci.regs.getD (a - 1) 0).toNat) := by
  refine (if_neg (by omega)).trans ((if_neg (by simp [hh])).trans ?_)
  split
  · rfl
  · split <;> rfl

/-- A write of a register of halted cores. -/
theorem debugWriteReg_halted (h : a ≤ 32) (hh : s.ci.halted = true) : debugWriteReg a d s =
    (if a = 32 then s.setPc (BitVec.ofNat 32 d) else s.setX a (BitVec.ofNat 32 d), 0, 0) := by
  refine (if_neg (by omega)).trans ((if_neg (by simp [hh])).trans ?_)
  split
  · rfl
  · split
    · next h => rw [h, Chip.setX_zero]
    · next h => rw [Chip.setX_general _ _ h]

end

/-! ## Single step (R168) -/

theorem debugStep_running {s : Chip} (a d : Nat) (h : s.ci.halted = false) : debugStep a d s = (s, 4, 0) := if_pos h

theorem debugStep_runs {s c : Chip} (a d : Nat) (h : s.ci.halted = true) (hs : s.coreStep = some c) : debugStep a d s = (c, 0, 0) := by
  refine (if_neg (by simp [h])).trans ?_
  rw [hs]

/-- A forbidden fetch is a fault of the cores. -/
theorem Chip.coreStep_forbidden {s : Chip} {x : Nat} (h : s.coreForbidden (s.corePart (s.ci.pc &&& ~~~1).toNat) .execute (s.ci.pc &&& ~~~1).toNat 2 = some x) :
    s.coreStep = some (s.coreFault (s.corePart (s.ci.pc &&& ~~~1).toNat) .execute x) := by
  unfold Chip.coreStep
  dsimp only
  rw [h]

/-- A fetch of a 32-bit form runs it. -/
theorem Chip.coreStep_word {s : Chip} (h : s.coreForbidden (s.corePart (s.ci.pc &&& ~~~1).toNat) .execute (s.ci.pc &&& ~~~1).toNat 2 = none)
    (hw : s.coreFetch (s.ci.pc &&& ~~~1).toNat 2 % 4 = 3)
    (h4 : s.coreForbidden (s.corePart (s.ci.pc &&& ~~~1).toNat) .execute (s.ci.pc &&& ~~~1).toNat 4 = none) :
    s.coreStep = s.coreRun (s.corePart (s.ci.pc &&& ~~~1).toNat) 4 (rvDecode (s.coreFetch (s.ci.pc &&& ~~~1).toNat 4)) := by
  unfold Chip.coreStep
  dsimp only
  rw [h]
  dsimp only
  rw [if_neg (not_not.mpr hw), h4]

/-- An operation with an immediate writes its result and goes on past its word. -/
theorem Chip.coreRun_aluImm (s : Chip) (m : Option (Fin 8)) (n k : Nat) (alt : Bool) (rd x : Nat) (v : Word32) :
    s.coreRun m n (.aluImm k alt rd x v) = some ((s.setX rd (rvAlu k alt (s.xreg x) v)).setPc ((s.ci.pc &&& ~~~1) + BitVec.ofNat 32 n)) := rfl

/-- A branch goes on at its target or past its word. -/
theorem Chip.coreRun_branch (s : Chip) (m : Option (Fin 8)) (n k x y : Nat) (off : Word32) : s.coreRun m n (.branch k x y off) =
    some (s.setPc (if rvTaken k (s.xreg x) (s.xreg y) then (s.ci.pc &&& ~~~1) + off else (s.ci.pc &&& ~~~1) + BitVec.ofNat 32 n)) := rfl

theorem Chip.accessFault_regs (s : Chip) (p : Nat) : (s.accessFault p).ci.regs = s.ci.regs := by
  unfold Chip.accessFault
  split
  · rfl
  · dsimp only
    rw [(Only.modWatchdog _).get .ci, (Only.record _).get .ci, (Only.modSlots _).get .ci]
    unfold Chip.stopPartition
    rw [(Only.modSlots _).get .ci]
    rfl

/-- A fault leaves the general registers. -/
theorem Chip.coreFault_regs (s : Chip) (m : Option (Fin 8)) (k : AccessKind) (x : Nat) : (s.coreFault m k x).ci.regs = s.ci.regs := by
  have hr : (s.accessRefused 2 x 0 (kindCode k)).ci = s.ci := (Only.accessRefused s).get .ci
  unfold Chip.coreFault Chip.coreTrap
  cases m with
  | none => exact (congrArg Conductor.regs hr :)
  | some p => exact ((s.accessRefused 2 x 0 (kindCode k)).accessFault_regs p.val).trans (congrArg (·.regs) hr)

/-! ## Memory (R19, R20, R170) -/

theorem debugRead_refused {s : Chip} {a x : Nat} (d : Nat) (h : s.debugForbidden false a = some x) : debugRead a d s = (s.accessRefused 2 x 0 0, 2, 0) := by
  unfold debugRead
  rw [h]

theorem debugWrite_refused {s : Chip} {a x : Nat} (d : Nat) (h : s.debugForbidden true a = some x) : debugWrite a d s = (s.accessRefused 2 x 0 1, 2, 0) := by
  unfold debugWrite
  rw [h]

/-- A word of TCSRAM reads its four bytes. -/
theorem debugRead_tcsram {s : Chip} {a : Nat} (d : Nat) (hlo : 0x10000000 ≤ a) (hhi : a + 4 ≤ 0x10080000) (h : s.debugForbidden false a = none) : debugRead a d s =
    ((s.drawBytes 4).2, 0, leNat ((List.range 4).map fun i => SMap.get s.ci.tcsram 0 (a - 0x10000000 + i))) := by
  have hopen : s.openRearm a = s := if_pos (.inr (.inl (by unfold rearmBase; omega)))
  have hbusy : s.debugBusy a = false := by
    unfold Chip.debugBusy rearmBase
    rw [decide_eq_false (show ¬ 0x80000000 ≤ a by omega), decide_eq_false (show ¬ 0x40108000 + 0x210 < a + 4 by omega)]
    simp
  have hbyte : ∀ i ∈ List.range 4, (s.mapByte (a + i)).getD ((s.drawBytes 4).1.getD i 0) = SMap.get s.ci.tcsram 0 (a - 0x10000000 + i) := fun i hi => by
    have hi := List.mem_range.mp hi
    unfold Chip.mapByte
    rw [if_neg (by omega), if_pos (by omega), Nat.sub_add_comm hlo]
    rfl
  unfold debugRead
  rw [h]
  dsimp only
  rw [hopen, if_neg (by simp [hbusy]), if_neg (by omega), List.map_congr_left hbyte]

/-- A byte written to TCSRAM. -/
theorem Chip.mapWrite_tcsram (s : Chip) {a : Nat} (b : Byte) (hlo : 0x10000000 ≤ a) (hhi : a < 0x10080000) :
    s.mapWrite (a, b) = s.modCi fun c => { c with tcsram := c.tcsram.set 0 (a - 0x10000000) b } := if_pos ⟨hlo, hhi⟩

/-- `n` bytes written to TCSRAM from an address stand there, and every other byte is as it was. -/
theorem Chip.mapWrites_tcsram (s : Chip) {a : Nat} (g : Nat → Byte) (n : Nat) (hlo : 0x10000000 ≤ a) (hhi : a + n ≤ 0x10080000) :
    Only [.ci] s (((List.range n).map fun i => (a + i, g i)).foldl Chip.mapWrite s) ∧
    ∀ j, SMap.get (((List.range n).map fun i => (a + i, g i)).foldl Chip.mapWrite s).ci.tcsram 0 j =
      if a - 0x10000000 ≤ j ∧ j < a - 0x10000000 + n then g (j - (a - 0x10000000)) else SMap.get s.ci.tcsram 0 j := by
  induction n with
  | zero => exact ⟨Only.refl _ _, fun j => (if_neg (by omega)).symm⟩
  | succ n ih =>
    obtain ⟨honly, hget⟩ := ih (by omega)
    rw [List.range_succ, List.map_append, List.foldl_append, List.map_singleton, List.foldl_cons, List.foldl_nil,
      Chip.mapWrite_tcsram _ _ (by omega) (by omega)]
    refine ⟨honly.comp (Only.modCi _), fun j => (SMap.get_set _ _ _ _ _).trans ?_⟩
    rw [hget]
    by_cases hj : j = a + n - 0x10000000
    · rw [if_pos hj, if_pos (by omega), show j - (a - 0x10000000) = n by omega]
    · rw [if_neg hj]
      by_cases hin : a - 0x10000000 ≤ j ∧ j < a - 0x10000000 + n
      · rw [if_pos hin, if_pos (by omega)]
      · rw [if_neg hin, if_neg (by omega)]

theorem debugWrite_tcsram {s : Chip} {a : Nat} (d : Nat) (hlo : 0x10000000 ≤ a) (hhi : a + 4 ≤ 0x10080000) (h : s.debugForbidden true a = none) :
    debugWrite a d s = (((List.range 4).map fun i => (a + i, BitVec.ofNat 8 (d / 256 ^ i))).foldl Chip.mapWrite s, 0, 0) := by
  unfold debugWrite
  rw [h]
  exact (if_neg (by omega)).trans (if_neg (by unfold rearmBase; omega))

/-! ## Chip reset (R68, R80) -/

/-- A reset request that is not turned away resets the chip after its response. -/
theorem debugReset_authorised {f : DebugFrame} {s : Chip} (h : s.debugActive = true) (ho : s.debugOpen = true)
    (hc : crc8 (frameBytes 0x30 f) = f.crc.toNat) : debugReset f s = chipReset 0x800 (s.respond 0 0) :=
  (if_pos ⟨h, ho, hc⟩).trans (congrArg (chipReset 0x800) (debugFrame_authorised h ho hc))

/-- Settles O29: in an authorised session a sound frame has its opcode's effect, and each effect has its equation. -/
theorem debugAccessRows : Obligations.DebugAccessRows := by
  unfold Obligations.DebugAccessRows
  refine ⟨fun f s h ho hc hr hh => ?_, fun f s h ho hc hr => ?_, fun f s h ho hc hh hq hs => ?_, fun f s h ho hc hh => ?_,
    fun f a m s h ho hc hh ha hm => ⟨fun x hx => ?_, fun h2 hw h4 => ⟨fun k alt rd x v hd => ?_, fun k x y off hd => ?_⟩⟩,
    fun f s h ho hc hh => ⟨fun ha => ?_, fun h1 h31 => ?_, fun ha => ?_, fun ha => ?_⟩, fun f s h ho hc hh ha => ?_,
    fun f s h ho hc hh => ⟨fun h1 h31 => ?_, fun ha => ?_, fun ha => ?_⟩, fun f s h ho hc hf hlo hhi => ?_, fun f x s h ho hc hf => ?_,
    fun f s h ho hc hf hlo hhi => ?_, fun f x s h ho hc hf => ?_, fun f s h ho hc => ?_⟩
  · refine ⟨_, congrArg (next s) ((debugFrame_authorised h ho hc).trans (by rw [debugHalt_halts _ _ hr hh])), ?_, ?_⟩
    · obtain ⟨rs, pc, hci, hlen⟩ := s.chip.coresHalted_ci
      refine ⟨rs, pc, ?_, hlen⟩
      dsimp only
      rw [(Only.respond _).get .ci, ← hci]
      split
      · exact (Only.suspendSlots _).get .ci
      · rfl
    · exact Within.ofChip ((((Only.coresHalted s.chip).mono (by simp)).comp (Only.ite ((Only.suspendSlots _).mono (by simp)) (Only.refl _ _))).comp
        ((Only.respond _).mono (by simp)))
  · rw [exec_debugHalt, debugFrame_authorised h ho hc, debugHalt_stopped _ _ hr]
  · rw [exec_debugResume, debugFrame_authorised h ho hc, debugResume_resumes _ _ _ hh hs, drainCh01_empty (s := s.chip.modCi fun c => { c with halted := false }) _ hq]
    rfl
  · rw [exec_debugSingleStep, debugFrame_authorised h ho hc, debugStep_running _ _ hh]
  · subst ha hm
    exact ⟨_, congrArg (next s) ((debugFrame_authorised h ho hc).trans (by rw [debugStep_runs _ _ hh (Chip.coreStep_forbidden hx)])), Chip.coreFault_regs _ _ _ _⟩
  · subst ha hm
    rw [exec_debugSingleStep, debugFrame_authorised h ho hc, debugStep_runs _ _ hh ((Chip.coreStep_word h2 hw h4).trans (by rw [hd, Chip.coreRun_aluImm]))]
    rfl
  · subst ha hm
    rw [exec_debugSingleStep, debugFrame_authorised h ho hc, debugStep_runs _ _ hh ((Chip.coreStep_word h2 hw h4).trans (by rw [hd, Chip.coreRun_branch]))]
    rfl
  · rw [exec_debugReadRegister, debugFrame_authorised h ho hc, debugReadReg_halted _ (by omega) hh, if_neg (by omega), if_pos ha]
  · rw [exec_debugReadRegister, debugFrame_authorised h ho hc, debugReadReg_halted _ (by omega) hh, if_neg (by omega), if_neg (by omega)]
  · rw [exec_debugReadRegister, debugFrame_authorised h ho hc, debugReadReg_halted _ (by omega) hh, if_pos ha]
  · rw [exec_debugReadRegister, debugFrame_authorised h ho hc, debugReadReg_above _ ha]
  · rw [exec_debugReadRegister, debugFrame_authorised h ho hc, debugReadReg_running _ ha hh]
  · rw [exec_debugWriteRegister, debugFrame_authorised h ho hc, debugWriteReg_halted _ (by omega) hh, if_neg (by omega), BitVec.ofNat_toNat, BitVec.setWidth_eq,
      Chip.setX_general _ _ (by omega)]
    rfl
  · rw [exec_debugWriteRegister, debugFrame_authorised h ho hc, debugWriteReg_halted _ (by omega) hh, if_pos ha, BitVec.ofNat_toNat, BitVec.setWidth_eq]
    rfl
  · rw [exec_debugWriteRegister, debugFrame_authorised h ho hc, debugWriteReg_halted _ (by omega) hh, if_neg (by omega), ha, Chip.setX_zero]
  · exact ⟨_, congrArg (next s) ((debugFrame_authorised h ho hc).trans (by rw [debugRead_tcsram _ hlo hhi hf])), Only.drawBytes _⟩
  · rw [exec_debugReadWord, debugFrame_authorised h ho hc, debugRead_refused _ hf]
  · obtain ⟨honly, hget⟩ := s.chip.mapWrites_tcsram (fun i => BitVec.ofNat 8 (f.data.toNat / 256 ^ i)) 4 hlo hhi
    refine ⟨_, congrArg (next s) ((debugFrame_authorised h ho hc).trans (by rw [debugWrite_tcsram _ hlo hhi hf])), fun i hi => ?_, fun j hj => ?_, honly⟩
    · rw [hget, if_pos (by omega), Nat.add_sub_cancel_left]
    · rw [hget, if_neg (by omega)]
  · rw [exec_debugWriteWord, debugFrame_authorised h ho hc, debugWrite_refused _ hf]
  · rw [exec_debugChipReset, debugReset_authorised h ho hc]

end Sys2Proof.Machine
end

section
/-! SUPPORT. Authorised operations (R182 to R185, R213, R496): the answers of `authorised` in the order in which it judges a request, and the
request that reaches its own effect. -/

namespace Sys2Proof.Machine

/-- The nine authorised operations that 0x4200:10 takes by their codes of Table 7.4. -/
def signedRows (p : Path) (tag : Word16) (op : AuthOp) : List (Nat × Instr) :=
  [(0x01, .importKey p tag op), (0x02, .exportKey p tag op), (0x03, .destroy p tag op), (0x04, .changeAttributes p tag op),
    (0x10, .createOwner p tag op), (0x11, .deleteOwner p tag op), (0x12, .addCustodian p tag op), (0x13, .removeCustodian p tag op),
    (0x15, .intrusionConfiguration p tag op)]

/-- Each of them is the one write of its code. -/
theorem exec_signed {p : Path} {tag : Word16} {op : AuthOp} {code : Nat} {i : Instr} (hi : (code, i) ∈ signedRows p tag op) (s : State) :
    exec i s = next s (signedRow code p tag op s.chip) := by
  simp only [signedRows, List.mem_cons, List.not_mem_nil, or_false, Prod.mk.injEq] at hi
  rcases hi with ⟨rfl, rfl⟩ | ⟨rfl, rfl⟩ | ⟨rfl, rfl⟩ | ⟨rfl, rfl⟩ | ⟨rfl, rfl⟩ | ⟨rfl, rfl⟩ | ⟨rfl, rfl⟩ | ⟨rfl, rfl⟩ | ⟨rfl, rfl⟩ <;> rfl

/-- A write whose nonce and authorisations have their lengths is judged by `authorised` (R122). -/
theorem signedRow_go {code : Nat} {p : Path} {tag : Word16} {op : AuthOp} {s c : Chip} {r : Req} (hn : op.nonce.length = 16)
    (ha : op.auths.length % 68 = 0) (h : gate p tag 0x4200 0x10 (authBytes code op) (fun _ _ => 0) s = .go r c) :
    signedRow code p tag op s = Chip.finish r.dest (authorised code op.owner.toNat op.rest op.nonce op.auths r c) :=
  hostWrite_go (gate_otherCheck h (if_neg (by rintro (h | h); exacts [h hn, h ha])))

/-! ## The order of R185 -/

section
variable {code owner : Nat} {b nonce auths : Bytes} {r : Req} {s c : Chip} {own : Bool}

/-- The pair state's refusal comes first (R496). -/
theorem authorised_gated (hn : s.takeNonce r.dest nonce = (own, c)) (hg : c.authGate code ≠ 0) :
    authorised code owner b nonce auths r s = (c, bad (c.authGate code)) := by
  unfold authorised
  rw [hn]
  exact if_pos hg

/-- A full queue is busy before the request is looked at (R213). -/
theorem authorised_busy {ms : Nat} (hn : s.takeNonce r.dest nonce = (own, c)) (hg : c.authGate code = 0)
    (hq : c.queueBusy (0x1F + r.dest.session) = some ms) : authorised code owner b nonce auths r s = (c, .busy ms) := by
  unfold authorised
  rw [hn]
  dsimp only
  rw [if_neg (not_not.mpr hg), hq]

/-- A request past the pair state and the queue is judged by its nonce, its body and its authorisations. -/
theorem authorised_admitted (hn : s.takeNonce r.dest nonce = (own, c)) (hg : c.authGate code = 0)
    (hq : c.queueBusy (0x1F + r.dest.session) = none) : authorised code owner b nonce auths r s =
      if own = false then (c, bad 0x310C)
      else if bodyOk code owner b c = false then (c, bad 0x0002)
      else if c.bootstraps r code owner auths = true then runOp r code owner b c
      else if auths.length ≠ 136 then (c, bad 0x000D)
      else if c.checkAuths (authOwner code owner) (opDigest c nonce (be 1 code ++ be 1 owner ++ b)) auths ≠ 0 then
        (c, bad (c.checkAuths (authOwner code owner) (opDigest c nonce (be 1 code ++ be 1 owner ++ b)) auths))
      else runOp r code owner b c := by
  unfold authorised
  rw [hn]
  dsimp only
  rw [if_neg (not_not.mpr hg), hq]

end

/-- An authorised request has its operation's own effect. -/
theorem exec_authorised {p : Path} {tag : Word16} {op : AuthOp} {code : Nat} {i : Instr} {s : State} {r : Req} {c : Chip}
    (hi : (code, i) ∈ signedRows p tag op) (h : Authorised code p tag op s.chip r c) :
    exec i s = next s (Chip.finish r.dest (runOp r code op.owner.toNat op.rest c)) := by
  obtain ⟨hn, ha, g, hgate, htake, hg, hq, hbody, hauth⟩ := h
  rw [exec_signed hi, signedRow_go hn ha hgate, authorised_admitted htake hg hq, if_neg (by simp), if_neg (by simp [hbody])]
  rcases hauth with hboot | ⟨hlen, hsound⟩
  · rw [if_pos hboot]
  · rw [if_neg (not_not.mpr hlen), if_neg (not_not.mpr hsound), ite_self]

/-- An authorised request whose operation is done at once is answered with its code and data. -/
theorem exec_authorised_done {p : Path} {tag : Word16} {op : AuthOp} {code e : Nat} {data : Bytes} {i : Instr} {s : State} {r : Req} {c c' : Chip}
    (hi : (code, i) ∈ signedRows p tag op) (h : Authorised code p tag op s.chip r c)
    (hrun : runOp r code op.owner.toNat op.rest c = (c', .done e data)) : exec i s = next s (c'.complete r.dest e data 0) := by
  rw [exec_authorised hi h, hrun]
  rfl

/-- Settles O30: an admitted request meets the refusals of `authorised_admitted` in their order, and one that passes them all is
`exec_authorised`. -/
theorem authorisedOperationOrder : Obligations.AuthorisedOperationOrder := by
  unfold Obligations.AuthorisedOperationOrder
  intro p tag op s r c i code hi hlen hauths hgate
  refine ⟨?_, fun c' h => exec_authorised hi h⟩
  rintro ⟨own, n⟩ hn
  dsimp only
  have hexec : exec i s = next s (Chip.finish r.dest (authorised code op.owner.toNat op.rest op.nonce op.auths r c)) :=
    (exec_signed hi s).trans (congrArg (next s) (signedRow_go hlen hauths hgate))
  refine ⟨fun hg => ?_, fun hg ms hq => ?_, fun hg hq => ?_⟩
  · rw [hexec, authorised_gated hn hg]; rfl
  · rw [hexec, authorised_busy hn hg hq]; rfl
  · rw [hexec, authorised_admitted hn hg hq]
    refine ⟨fun hown => ?_, fun hown hbody => ?_, fun hown hbody hboot => ⟨fun hcount => ?_, fun a hcount ha hfails => ?_⟩⟩
    · rw [if_pos hown]; rfl
    · rw [if_neg (by simp [hown]), if_pos hbody]; rfl
    · rw [if_neg (by simp [hown]), if_neg (by simp [hbody]), if_neg (by simp [hboot]), if_pos hcount]; rfl
    · rw [if_neg (by simp [hown]), if_neg (by simp [hbody]), if_neg (by simp [hboot]), if_neg (not_not.mpr hcount), ha, if_pos hfails]; rfl

end Sys2Proof.Machine
end

section
/-! SUPPORT. The key store and the owner table (R180, R187, R193 to R196, R497): what storing and destroying a key and changing an owner do to
them, and what the answers and the journal leave. -/

namespace Sys2Proof.Machine

/-! ## What the journal, the flash blocks and the answers leave -/

theorem Only.journalSlot {n} (s : Chip) : Only [.pair] s (s.journalSlot n) := by
  unfold Chip.journalSlot
  split
  · exact Only.ite (Only.refl s _) (Only.journal s)
  · exact Only.refl s _

theorem Only.journalOwner {n} (s : Chip) : Only [.pair] s (s.journalOwner n) := by
  unfold Chip.journalOwner
  exact Only.ite (Only.refl s _) ((Only.journal s).comp (Only.journal _))

theorem Only.keyReply {r o k d} (s : Chip) : Only [.pair] s (s.keyReply r o k d).1 := by
  unfold Chip.keyReply
  split
  · exact Only.modPair s
  · exact Only.refl s _

/-- The answer to a change of key state waits in the pair at most (R189). -/
theorem Only.changed {b r o k d} (s : Chip) : Only [.pair] s (Chip.changed b r o k d s).1 := by
  unfold Chip.changed
  split
  · exact Only.refl s _
  · exact Only.keyReply s

/-- An exported envelope reaches its session and the journal (R189, R207). -/
theorem Only.exported {t e} (s : Chip) : Only [.host, .pair] s (s.exported t e) := by
  unfold Chip.exported
  refine ((Only.modOwn (t := t) (f := fun x => { x with lastExport := e }) s).mono (by simp)).comp ?_
  dsimp only
  split
  · exact Only.ite (Only.refl _ _) ((Only.journal _).mono (by simp))
  · exact Only.refl _ _

/-- Up to 1,024 bytes of the DRBG reach the DRBG alone. -/
theorem Only.drbg {n : Nat} (h0 : 0 < n) (h1 : n ≤ 1024) (s : Chip) : Only [.free, .crypto] s (s.drbg n).2 := by
  rw [Chip.drbg_one h0 h1]
  exact Only.drbgRequest s

theorem Chip.drbg_length {n : Nat} (h0 : 0 < n) (h1 : n ≤ 1024) (s : Chip) : (s.drbg n).1.length = n := by
  rw [Chip.drbg_one h0 h1]
  exact Chip.drbgRequest_length s n

/-- An owner is unchanged where the keys are. -/
theorem Only.owner {a b : Chip} {ps : List Part} (h : Only ps a b) (hp : Part.keys ∉ ps := by decide) (n : Nat) : b.owner n = a.owner n := by
  have := h .keys hp; unfold Chip.owner; rw [this]

/-! ## Keys (R187, R193) -/

/-- The blob of an occupied slot is written with a generation one higher (R193). -/
theorem Chip.find_writeBlob {s : Chip} {n : Nat} {k : Key} (h : SMap.find? s.keys.slots n = some k) :
    SMap.find? (s.writeBlob n).keys.slots n = some { k with generation := (k.generation + 1) % 2 ^ 32 } := by
  unfold Chip.writeBlob
  rw [h]
  dsimp only
  rw [(Only.useBlock _).get .keys]
  exact (SMap.find_put _ _ _ n).trans (if_pos rfl)

/-- A stored key stands in its slot, but for the generation of its blob. -/
theorem Chip.find_storeKey (s : Chip) (n : Nat) (k : Key) :
    SMap.find? (s.storeKey n k).keys.slots n = some { k with generation := (k.generation + 1) % 2 ^ 32 } := by
  unfold Chip.storeKey
  rw [(Only.journalSlot _).get .keys]
  exact Chip.find_writeBlob ((SMap.find_put _ _ _ n).trans (if_pos rfl))

/-- A destroyed key leaves its slot and its blob, and nothing else of the key store (R187). -/
theorem Chip.destroyKey_keys (s : Chip) (n : Nat) :
    (s.destroyKey n).keys = { s.keys with slots := s.keys.slots.erase n, blobs := s.keys.blobs.erase n } := by
  unfold Chip.destroyKey
  dsimp only
  rw [(Only.journalEmptied _).get .keys, (Only.freeBlock _).get .keys]
  rfl

/-! ## Owners (R196) -/

/-- A changed owner reads as it was changed, and every other as it was. -/
theorem Chip.owner_putOwner (s : Chip) (n : Nat) (o : Owner) (m : Nat) : (s.putOwner n o).owner m = if m = n then o else s.owner m := by
  unfold Chip.putOwner
  rw [(Only.journalOwner _).owner]
  exact SMap.get_set _ _ _ n m

/-- The device once an owner is committed in flash. -/
def Chip.ownerStored (n : Nat) (o : Owner) (s : Chip) : Chip := (s.putOwner n o).useBlock

theorem Chip.owner_ownerStored (s : Chip) (n : Nat) (o : Owner) (m : Nat) : (s.ownerStored n o).owner m = if m = n then o else s.owner m := by
  unfold Chip.ownerStored
  rw [(Only.useBlock _).owner]
  exact Chip.owner_putOwner s n o m

end Sys2Proof.Machine
end

section
/-! SUPPORT. IMPORT, EXPORT, DESTROY and CHANGE_ATTRIBUTES (R178, R187, R190 to R192): the answers of each operation once it is authorised. -/

namespace Sys2Proof.Machine

section
variable {owner : Nat} {b : Bytes} {s : Chip} {k : Key} (r : Req)

/-! ## IMPORT (R192) -/

/-- An envelope that opens under a usable key of the owner is stored in its free slot. -/
theorem opImport_stores {key : Key} (hfree : s.slotFree (beNat (b.take 2)) owner true = 0) (hhead : envHeader (b.drop 4) = true)
    (hown : s.ownSlot (beNat (slice b 2 2)) owner = some k) (huse : s.keyUsable k = 0)
    (hopen : openEnvelope s (beNat (b.take 2)) owner (b.drop 4) k = .inr key) (hflash : s.flashFree = true)
    (hcount : (s.countUse (beNat (slice b 2 2))).2 = 0) :
    opImport r owner b s = Chip.changed s r owner 0 (keyData (beNat (b.take 2)) key)
      ((s.countUse (beNat (slice b 2 2))).1.storeKey (beNat (b.take 2)) key) := by
  unfold opImport
  dsimp only
  rw [if_neg (not_not.mpr hfree), if_neg (by simp [hhead]), hown]
  dsimp only
  rw [if_neg (not_not.mpr huse), hopen]
  dsimp only
  rw [if_neg (by simp [hflash]), if_neg (not_not.mpr hcount)]

/-! ## EXPORT (R190) -/

theorem opExport_missing (h : s.ownSlot (beNat (b.take 2)) owner = none) : opExport r owner b s = (s, bad 0x3101) := by
  unfold opExport
  dsimp only
  rw [h]

theorem opExport_damaged (h : s.ownSlot (beNat (b.take 2)) owner = some k) (hd : k.damaged = true) : opExport r owner b s = (s, bad 0x3111) := by
  unfold opExport
  dsimp only
  rw [h]
  exact if_pos hd

theorem opExport_fixed (h : s.ownSlot (beNat (b.take 2)) owner = some k) (hd : k.damaged = false) (hx : k.flags.getLsbD 0 = false) :
    opExport r owner b s = (s, bad 0x3105) := by
  unfold opExport
  dsimp only
  rw [h]
  dsimp only
  rw [if_neg (by simp [hd]), if_pos hx]

/-- The envelope of a key for another device's public key, by agreement with a fresh ephemeral key (R190). -/
def Chip.agreedEnvelope (s : Chip) (slot : Nat) (k : Key) (other : Bytes) : Bytes :=
  sealEnvelope s slot k 2 (p256.ecdh (scalarFrom p256 (s.drbg 40).1) other) (p256.pub (scalarFrom p256 (s.drbg 40).1))

theorem opExport_agreed (h : s.ownSlot (beNat (b.take 2)) owner = some k) (hd : k.damaged = false) (hx : k.flags.getLsbD 0 = true)
    (hm : byteAt b 2 = 2) (hp : p256.valid (b.drop 5) = true) (hf : s.crypto.sauFault = false) (hg : s.drbgGate = 0) :
    opExport r owner b s = ((s.drbg 40).2.exported r.dest (s.agreedEnvelope (beNat (b.take 2)) k (b.drop 5)),
      .done 0 (exportData (s.agreedEnvelope (beNat (b.take 2)) k (b.drop 5)))) := by
  unfold opExport
  dsimp only
  rw [h]
  dsimp only
  rw [if_neg (by simp [hd]), if_neg (by simp [hx]), if_neg (by simp [hm]), if_neg (by simp [hp]), if_neg (by simp [hf]), if_neg (not_not.mpr hg)]
  rfl

/-- Every envelope begins with its mark (R190). -/
theorem sealEnvelope_mark (s : Chip) (slot : Nat) (k : Key) (mode : Nat) (base eph : Bytes) : (sealEnvelope s slot k mode base eph).take 4 = tagEWEN := by
  unfold sealEnvelope
  simp [tagEWEN]

/-! ## DESTROY (R187) -/

theorem opDestroy_armed (h : s.ownSlot (beNat (b.take 2)) owner = some k) (ha : s.slotArmed (beNat (b.take 2)) = true) :
    opDestroy r owner b s = (s, bad 0x0003) := by
  unfold opDestroy
  dsimp only
  rw [h]
  exact if_pos ha

/-- A key that no armed configuration refers to leaves its slot and its blob. -/
theorem opDestroy_keys (h : s.ownSlot (beNat (b.take 2)) owner = some k) (ha : s.slotArmed (beNat (b.take 2)) = false) :
    (opDestroy r owner b s).1.keys =
      { s.keys with slots := s.keys.slots.erase (beNat (b.take 2)), blobs := s.keys.blobs.erase (beNat (b.take 2)) } := by
  unfold opDestroy
  dsimp only
  rw [h]
  dsimp only
  rw [if_neg (by simp [ha]), (Only.keyReply _).get .keys]
  exact Chip.destroyKey_keys ..

/-! ## CHANGE_ATTRIBUTES (R178) -/

theorem opChange_widens (h : s.ownSlot (beNat (b.take 2)) owner = some k) (ha : s.slotArmed (beNat (b.take 2)) = false) (hd : k.damaged = false)
    (hn : narrowed s k b = none) : opChange r owner b s = (s, bad 0x310D) := by
  unfold opChange
  dsimp only
  rw [h]
  dsimp only
  rw [if_neg (by simp [ha]), if_neg (by simp [hd]), hn]

theorem opChange_narrows {k' : Key} (h : s.ownSlot (beNat (b.take 2)) owner = some k) (ha : s.slotArmed (beNat (b.take 2)) = false)
    (hd : k.damaged = false) (hn : narrowed s k b = some k') (hf : s.flashFree = true) :
    opChange r owner b s = (s.storeKey (beNat (b.take 2)) k').keyReply r owner 0 [] := by
  unfold opChange
  dsimp only
  rw [h]
  dsimp only
  rw [if_neg (by simp [ha]), if_neg (by simp [hd]), hn]
  exact if_pos hf

/-- A narrowed key keeps its owner and its material. -/
theorem narrowed_keeps {k' : Key} (h : narrowed s k b = some k') : k'.owner = k.owner ∧ k'.material = k.material := by
  unfold narrowed at h
  dsimp only at h
  obtain ⟨-, h⟩ := Option.ite_none_left_eq_some.mp h
  cases h
  exact ⟨rfl, rfl⟩

end

/-- Settles O31: each operation at its owner is the equation of its case; a stored key is read back by `Chip.find_storeKey` and a destroyed one
is gone by `Chip.destroyKey_keys`. -/
theorem keySlotOperations : Obligations.KeySlotOperations := by
  unfold Obligations.KeySlotOperations
  refine fun p tag op s r c => ⟨fun h k key hfree hhead hown huse hopen hflash hcount => ?_, fun h => ⟨fun hown => ?_, fun k hown => ⟨fun hd => ?_,
    fun hd hx => ?_, fun hd hx hm hp hf hg => ?_⟩⟩, fun h k hown => ⟨fun ha => ?_, fun ha => ?_⟩, fun h k hown ha hd => ⟨fun hn => ?_, fun k' hn hf => ?_⟩⟩
  · refine ⟨(opImport r op.owner.toNat op.rest c).1, _, (key.generation + 1) % 2 ^ 32, exec_authorised (code := 0x01) (by simp [signedRows]) h, ?_⟩
    rw [opImport_stores r hfree hhead hown huse hopen hflash hcount, (Only.changed _).get .keys]
    exact Chip.find_storeKey ..
  · exact exec_authorised_done (code := 0x02) (by simp [signedRows]) h (opExport_missing r hown)
  · exact exec_authorised_done (code := 0x02) (by simp [signedRows]) h (opExport_damaged r hown hd)
  · exact exec_authorised_done (code := 0x02) (by simp [signedRows]) h (opExport_fixed r hown hd hx)
  · refine ⟨(c.drbg 40).2.exported r.dest (c.agreedEnvelope (beNat (op.rest.take 2)) k (op.rest.drop 5)), _,
      exec_authorised_done (code := 0x02) (by simp [signedRows]) h (opExport_agreed r hown hd hx hm hp hf hg), sealEnvelope_mark .., ?_⟩
    exact ((Only.exported _).get .keys).trans ((Only.drbg (by decide) (by decide) c).get .keys)
  · exact exec_authorised_done (code := 0x03) (by simp [signedRows]) h (opDestroy_armed r hown ha)
  · refine ⟨(opDestroy r op.owner.toNat op.rest c).1, _, exec_authorised (code := 0x03) (by simp [signedRows]) h, ?_⟩
    rw [opDestroy_keys r hown ha]
    exact ⟨(SMap.find_erase ..).trans (if_pos rfl), (SMap.find_erase ..).trans (if_pos rfl), fun n hn => (SMap.find_erase ..).trans (if_neg hn)⟩
  · exact exec_authorised_done (code := 0x04) (by simp [signedRows]) h (opChange_widens r hown ha hd hn)
  · refine ⟨(opChange r op.owner.toNat op.rest c).1, _, (k'.generation + 1) % 2 ^ 32, exec_authorised (code := 0x04) (by simp [signedRows]) h, ?_,
      narrowed_keeps hn⟩
    rw [opChange_narrows r hown ha hd hn hf, (Only.keyReply _).get .keys]
    exact Chip.find_storeKey ..

end Sys2Proof.Machine
end

section
/-! SUPPORT. Owners and custodians (R179, R180, R183 to R185, R198, R199): the answers of each operation once it is authorised, and the
operation nonce. -/

namespace Sys2Proof.Machine

/-- An operation that stores an owner and answers leaves that owner as stored and every other as it was. -/
theorem Chip.owner_of_stored {s : Chip} {n : Nat} {o : Owner} {r : Req} {y : Chip × Reply} (h : y = (s.ownerStored n o).keyReply r n 0 []) :
    y.1.owner n = o ∧ ∀ m, m ≠ n → y.1.owner m = s.owner m := by
  have hread : ∀ m, y.1.owner m = if m = n then o else s.owner m := fun m => by
    rw [h, (Only.keyReply _).owner]
    exact Chip.owner_ownerStored s n o m
  exact ⟨(hread n).trans (if_pos rfl), fun m hm => (hread m).trans (if_neg hm)⟩

section
variable {owner : Nat} {b : Bytes} {s : Chip} (r : Req)

/-! ## CREATE_OWNER and DELETE_OWNER (R180, Table 7.5) -/

/-- The owner that a creation describes: its quota, its name and its custodians in the order of their indices (Table 7.4). -/
def createdOwner (b : Bytes) : Owner :=
  { active := true, name := slice b 2 16, quota := beNat (b.take 2), keys := (keyList (byteAt b 18) (b.drop 19)).mapIdx fun i k => (i, k) }

theorem createdOwner_keys (b : Bytes) : (createdOwner b).keys.map (·.2) = keyList (byteAt b 18) (b.drop 19) :=
  List.ext_getElem (by simp [createdOwner]) fun i _ _ => by simp [createdOwner]

theorem opCreate_stores (hi : (s.owner owner).active = false) (hq : s.quotas + beNat (b.take 2) ≤ 4096) (hf : s.flashFree = true) :
    opCreate r owner b s = (s.ownerStored owner (createdOwner b)).keyReply r owner 0 [] := by
  unfold opCreate
  dsimp only
  rw [if_neg (by simp [hi, hq]), if_neg (by simp [hf])]
  rfl

theorem opDelete_refused (h : owner = 0 ∨ (s.owner owner).active = false ∨ s.slotsUsed owner ≠ 0) : opDelete r owner s = (s, bad 0x310E) := if_pos h

theorem opDelete_clears (h0 : owner ≠ 0) (ha : (s.owner owner).active = true) (hu : s.slotsUsed owner = 0) (hf : s.flashFree = true) :
    opDelete r owner s = (s.ownerStored owner {}).keyReply r owner 0 [] := by
  unfold opDelete
  rw [if_neg (by simp [h0, ha, hu]), if_neg (by simp [hf])]
  rfl

/-! ## ADD_CUSTODIAN and REMOVE_CUSTODIAN (R179) -/

theorem opAdd_full (h : 8 ≤ (s.owner owner).keys.length) : opAdd r owner b s = (s, bad 0x310F) := if_pos h

theorem opAdd_enters {j : Nat} (h : (s.owner owner).keys.length < 8) (hf : s.flashFree = true)
    (hj : ((List.range 8).find? fun i => ((s.owner owner).keys.find? i).isNone) = some j) : opAdd r owner b s =
      (s.ownerStored owner { s.owner owner with keys := (s.owner owner).keys.put j b }).keyReply r owner 0 [] := by
  unfold opAdd
  dsimp only
  rw [if_neg (Nat.not_le.mpr h), if_neg (by simp [hf]), hj]
  rfl

theorem opRemove_tooFew (hk : ((s.owner owner).keys.find? (byteAt b 0)).isSome = true) (h : (s.owner owner).keys.length ≤ 2) :
    opRemove r owner b s = (s, bad 0x310F) := by
  unfold opRemove
  dsimp only
  rw [if_neg (by simpa [Option.isSome_iff_ne_none] using hk), if_pos h]

theorem opRemove_takesOut (hk : ((s.owner owner).keys.find? (byteAt b 0)).isSome = true) (h : 2 < (s.owner owner).keys.length)
    (hf : s.flashFree = true) : opRemove r owner b s =
      (s.ownerStored owner { s.owner owner with keys := (s.owner owner).keys.erase (byteAt b 0) }).keyReply r owner 0 [] := by
  unfold opRemove
  dsimp only
  rw [if_neg (by simpa [Option.isSome_iff_ne_none] using hk), if_neg (Nat.not_le.mpr h), if_neg (by simp [hf])]
  rfl

end

/-! ## OPERATION_NONCE_READ (R184) -/

/-- The device once a fresh operation nonce is bound to a session with the present time. -/
def Chip.opNonceIssued (s : Chip) (n : Nat) : Chip :=
  (s.drbg 16).2.modSession n fun x => { x with opNonce := some ((s.drbg 16).1, s.clk.ticks) }

theorem readOpNonce_serves {s : Chip} (h : s.drbgGate = 0) (r : Req) : readOpNonce r s = (s.opNonceIssued r.dest.session, .data (s.drbg 16).1) :=
  if_neg (not_not.mpr h)

theorem Chip.find_opNonceIssued {s : Chip} {n : Nat} {x : Session} (h : SMap.find? s.host.sessions n = some x) :
    SMap.find? (s.opNonceIssued n).host.sessions n = some { x with opNonce := some ((s.drbg 16).1, s.clk.ticks) } :=
  Chip.find_modSession _ (by rw [(Only.drbg (by decide) (by decide) s).get .host]; exact h)

/-- Settles O32: each operation at its owner is the equation of its case, read back by `Chip.owner_of_stored`. -/
theorem ownerOperations : Obligations.OwnerOperations := by
  unfold Obligations.OwnerOperations
  refine fun p tag op s r c => ⟨fun h hi hq hf => ?_, fun h => ⟨fun hr => ?_, fun h0 ha hu hf => ?_⟩, fun h => ⟨fun hn => ?_, fun j hn hf hj => ?_⟩,
    fun h hk => ⟨fun hn => ?_, fun hn hf => ?_⟩, fun h => ?_, fun h hg => ?_⟩
  · obtain ⟨hown, hrest⟩ := Chip.owner_of_stored (opCreate_stores r hi hq hf)
    refine ⟨(opCreate r op.owner.toNat op.rest c).1, _, exec_authorised (code := 0x10) (by simp [signedRows]) h, ?_⟩
    rw [hown]
    exact ⟨rfl, rfl, rfl, createdOwner_keys _, hrest⟩
  · exact exec_authorised_done (code := 0x11) (by simp [signedRows]) h (opDelete_refused r hr)
  · exact ⟨(opDelete r op.owner.toNat c).1, _, exec_authorised (code := 0x11) (by simp [signedRows]) h,
      Chip.owner_of_stored (opDelete_clears r h0 ha hu hf)⟩
  · exact exec_authorised_done (code := 0x12) (by simp [signedRows]) h (opAdd_full r hn)
  · obtain ⟨hown, hrest⟩ := Chip.owner_of_stored (opAdd_enters (b := op.rest) r hn hf hj)
    refine ⟨(opAdd r op.owner.toNat op.rest c).1, _, exec_authorised (code := 0x12) (by simp [signedRows]) h, ?_⟩
    rw [hown]
    exact ⟨(SMap.find_put ..).trans (if_pos rfl), fun i hne => (SMap.find_put ..).trans (if_neg hne), hrest⟩
  · exact exec_authorised_done (code := 0x13) (by simp [signedRows]) h (opRemove_tooFew r hk hn)
  · obtain ⟨hown, hrest⟩ := Chip.owner_of_stored (opRemove_takesOut r hk hn hf)
    refine ⟨(opRemove r op.owner.toNat op.rest c).1, _, exec_authorised (code := 0x13) (by simp [signedRows]) h, ?_⟩
    rw [hown]
    exact ⟨(SMap.find_erase ..).trans (if_pos rfl), hrest⟩
  · exact exec_authorised_done (code := 0x15) (by simp [signedRows]) h rfl
  · have hread : exec (.operationNonceRead p) s = next s ((c.opNonceIssued r.dest.session).answerRead r.dest (.data (c.drbg 16).1)) :=
      congrArg (next s) ((hostRead_reaches h _).trans (by rw [readOpNonce_serves hg]))
    exact ⟨_, _, hread, Chip.drbg_length (by decide) (by decide) c, fun x hx => Chip.find_opNonceIssued hx,
      ((Only.drbg (by decide) (by decide) c).mono (by simp)).comp ((Only.modSession _).mono (by simp))⟩

end Sys2Proof.Machine
end

section
/-! SUPPORT. Key commands and the expiry of keys (R177, R186, R189, R213): the answers of `keyCommand` in the order in which it judges a request,
and what an expiry does by its action. -/

namespace Sys2Proof.Machine

/-- GENERATE and DERIVE are the one write of their bytes. -/
theorem exec_keyCommand {p : Path} {tag : Word16} {b rest : Bytes} {i : Instr} {s : State} {r : Req} {c : Chip}
    (hi : (b = 0x21 :: rest ∧ i = .generate p tag rest) ∨ (b = 0x22 :: rest ∧ i = .derive p tag rest))
    (h : gate p tag 0x4300 0x10 b (fun _ _ => 0) s.chip = .go r c) : exec i s = next s (Chip.finish r.dest (keyCommand b r c)) := by
  rcases hi with ⟨rfl, rfl⟩ | ⟨rfl, rfl⟩
  · exact congrArg (next s) (hostWrite_go h)
  · exact congrArg (next s) (hostWrite_go h)

/-! ## The order of Table 7.5 -/

section
variable {b : Bytes} {r : Req} {s : Chip}

/-- The pair state's refusal comes first (R496). -/
theorem keyCommand_gated (h : s.pairGate ≠ 0) : keyCommand b r s = (s, bad s.pairGate) := if_pos h

/-- A full queue is busy before the request is looked at (R213). -/
theorem keyCommand_busy {ms : Nat} (hg : s.pairGate = 0) (hq : s.queueBusy (0x1F + r.dest.session) = some ms) : keyCommand b r s = (s, .busy ms) := by
  unfold keyCommand
  dsimp only
  rw [if_neg (not_not.mpr hg), hq]

section
variable (hg : s.pairGate = 0) (hq : s.queueBusy (0x1F + r.dest.session) = none)
include hg hq

theorem keyCommand_malformed (hf : commandForm b ≠ 0) : keyCommand b r s = (s, bad (commandForm b)) := by
  unfold keyCommand
  dsimp only
  rw [if_neg (not_not.mpr hg), hq]
  exact if_pos hf

variable (hf : commandForm b = 0)
include hf

theorem keyCommand_slotRefused (hs : s.slotFree (fieldAt b 2 2) (byteAt b 1) false ≠ 0) :
    keyCommand b r s = (s, bad (s.slotFree (fieldAt b 2 2) (byteAt b 1) false)) := by
  unfold keyCommand
  dsimp only
  rw [if_neg (not_not.mpr hg), hq]
  exact (if_neg (not_not.mpr hf)).trans (if_pos hs)

variable (hs : s.slotFree (fieldAt b 2 2) (byteAt b 1) false = 0)
include hs

theorem keyCommand_usageRefused (hu : usageAllowed (fieldAt b 2 2) (byteAt b 4) (byteAt b 5) (fieldAt b 6 2) = false) :
    keyCommand b r s = (s, bad 0x3104) := by
  unfold keyCommand
  dsimp only
  rw [if_neg (not_not.mpr hg), hq]
  exact ((if_neg (not_not.mpr hf)).trans (if_neg (not_not.mpr hs))).trans (if_pos hu)

variable (hu : usageAllowed (fieldAt b 2 2) (byteAt b 4) (byteAt b 5) (fieldAt b 6 2) = true) (hflash : s.flashFree = true)
include hu hflash

/-- A symmetric key is generated from the DRBG and stored (R186). -/
theorem keyCommand_generates (hc : byteAt b 0 = 0x21) (he : isEc (byteAt b 4) = false) (hd : s.drbgGate = 0) :
    keyCommand b r s = Chip.changed s r (byteAt b 1) 0 (keyData (fieldAt b 2 2) (commandKey s b (s.drbg (keyLen (byteAt b 4))).1))
      ((s.drbg (keyLen (byteAt b 4))).2.storeKey (fieldAt b 2 2) (commandKey s b (s.drbg (keyLen (byteAt b 4))).1)) := by
  unfold keyCommand
  dsimp only
  rw [if_neg (not_not.mpr hg), hq]
  dsimp only
  rw [if_neg (not_not.mpr hf), if_neg (not_not.mpr hs), if_neg (by simp [hu]), if_pos hc, if_neg (by simp [he]), if_neg (not_not.mpr hd),
    if_neg (by simp [hflash]), he]
  rfl

/-- A key is derived from a symmetric parent that may derive, within the parent's usages and no more exportable than it (R186). -/
theorem keyCommand_derives {k : Key} (hc : byteAt b 0 = 0x22) (hp : s.ownSlot (fieldAt b 18 2) (byteAt b 1) = some k) (ht : k.type.toNat ≤ 2)
    (hderive : k.usage.getLsbD 4 = true) (hw : bitsWithin (fieldAt b 6 2) k.usage.toNat = true) (hx : byteAt b 5 ≠ 1 ∨ k.flags.getLsbD 0 = true)
    (hk : s.keyUsable k = 0) (hn : (s.countUse (fieldAt b 18 2)).2 = 0) :
    keyCommand b r s = Chip.changed s r (byteAt b 1) 0 (keyData (fieldAt b 2 2) (commandKey s b (kdf k.material (deriveInput b) (keyLen (byteAt b 4)))))
      ((s.countUse (fieldAt b 18 2)).1.storeKey (fieldAt b 2 2) (commandKey s b (kdf k.material (deriveInput b) (keyLen (byteAt b 4))))) := by
  have hdamaged : k.damaged ≠ true := fun h => by
    unfold Chip.keyUsable at hk
    rw [if_pos h] at hk
    cases hk
  unfold keyCommand
  dsimp only
  rw [if_neg (not_not.mpr hg), hq]
  dsimp only
  rw [if_neg (not_not.mpr hf), if_neg (not_not.mpr hs), if_neg (by simp [hu]), if_neg (by simp [hc]), hp]
  dsimp only
  rw [if_neg hdamaged, if_neg (Nat.not_lt.mpr ht), if_neg (by simp [hderive, hw]), if_neg (by rintro ⟨h1, h0⟩; rw [h1, h0] at hx; simp at hx),
    if_neg (not_not.mpr hk), if_neg (by simp [hflash]), if_neg (not_not.mpr hn)]

end

/-- A command of good form names a type with a key length, which one DRBG request can answer. -/
theorem keyLen_of_commandForm (h : commandForm b = 0) : 0 < keyLen (byteAt b 4) ∧ keyLen (byteAt b 4) ≤ 1024 := by
  constructor
  · refine Nat.pos_of_ne_zero fun h0 => ?_
    unfold commandForm at h
    dsimp only at h
    obtain ⟨-, h⟩ | ⟨-, h⟩ := ite_eq_iff.mp h
    · cases h
    obtain ⟨-, h⟩ | ⟨-, h⟩ := ite_eq_iff.mp h
    · cases h
    rw [if_pos (by simp [h0])] at h
    cases h
  · unfold keyLen
    split <;> decide

end

/-! ## KEY_EXPIRY (R177) -/

/-- A key that expires leaves its slot and its blob. -/
theorem Chip.expire_keys (s : Chip) (n : Nat) :
    (s.expire n).keys = { s.keys with slots := s.keys.slots.erase n, blobs := s.keys.blobs.erase n } := by
  unfold Chip.expire
  rw [(Only.record _).get .keys]
  exact Chip.destroyKey_keys s n

section
variable {n e : Nat} {k : Key} {s : Chip} (hk : SMap.find? s.keys.slots n = some k) (he : k.expiry = some e)
include hk he

/-- Up to its expiry, and on its edge, a key stays (R24, R177). -/
theorem keyExpiry_early (h : s.clk.ticks ≤ 400 * e) : keyExpiry n s = s := by
  unfold keyExpiry
  rw [hk]
  dsimp only
  rw [he]
  exact if_pos (.inl (decide_eq_false (Nat.not_lt.mpr h)))

/-- Once an expiry has passed, the key's action says what becomes of it (R177). -/
theorem keyExpiry_passed (hr : s.runs 3 = true) (h : 400 * e < s.clk.ticks) : keyExpiry n s =
    if k.action = 1 then s.modKeys fun x => { x with slots := x.slots.put n { k with disabled := true } }
    else if k.action = 2 then
      if s.slotArmed n = true then s.modKeys fun x => { x with slots := x.slots.put n { k with disabled := true, destroyAtDisarm := true } }
      else s.expire n
    else s := by
  unfold keyExpiry
  rw [hk]
  dsimp only
  rw [he]
  exact if_neg (by simp [hr, h])

end

/-- Settles O33: a key command is judged by the equations of `keyCommand` in their order, its key is read back by `Chip.find_storeKey`, and an
expiry is `keyExpiry_passed` or `keyExpiry_early`. -/
theorem keyCommandRows : Obligations.KeyCommandRows := by
  unfold Obligations.KeyCommandRows
  refine ⟨fun p tag b rest s r c i hi h => ?_, fun n k e s hk he hr => ⟨fun hlt => ⟨fun ha => ?_, fun ha => ?_, fun ha hs => ?_, fun ha hs => ?_⟩, fun hle => ?_⟩⟩
  · rw [exec_keyCommand hi h]
    refine ⟨fun hg => ?_, fun hg ms hq => ?_, fun hg hq => ⟨fun hf => ?_, fun hf hs => ?_, fun hf hs hu => ?_, fun hf hs hu hflash =>
      ⟨fun hc he hd => ?_, fun k hc hp ht hderive hw hx hk hn => ?_⟩⟩⟩
    · rw [keyCommand_gated hg]; rfl
    · rw [keyCommand_busy hg hq]; rfl
    · rw [keyCommand_malformed hg hq hf]; rfl
    · rw [keyCommand_slotRefused hg hq hf hs]; rfl
    · rw [keyCommand_usageRefused hg hq hf hs hu]; rfl
    · refine ⟨(keyCommand b r c).1, _, (c.drbg (keyLen (byteAt b 4))).1, 1, rfl, ?_, ?_⟩
      · obtain ⟨h0, h1⟩ := keyLen_of_commandForm hf
        exact Chip.drbg_length h0 h1 c
      · rw [keyCommand_generates hg hq hf hs hu hflash hc he hd, (Only.changed _).get .keys]
        exact Chip.find_storeKey ..
    · refine ⟨(keyCommand b r c).1, _, 1, rfl, ?_⟩
      rw [keyCommand_derives hg hq hf hs hu hflash hc hp ht hderive hw hx hk hn, (Only.changed _).get .keys]
      exact Chip.find_storeKey ..
  · exact congrArg (next s) ((keyExpiry_passed hk he hr hlt).trans (by rw [ha]; rfl))
  · refine ⟨_, congrArg (next s) ((keyExpiry_passed hk he hr hlt).trans (if_pos ha)), (SMap.find_put ..).trans (if_pos rfl),
      Within.ofChip (Only.modKeys _)⟩
  · refine ⟨_, congrArg (next s) ((keyExpiry_passed hk he hr hlt).trans (by rw [if_neg (by simp [ha]), if_pos ha, if_pos hs])),
      (SMap.find_put ..).trans (if_pos rfl), Within.ofChip (Only.modKeys _)⟩
  · refine ⟨_, congrArg (next s) ((keyExpiry_passed hk he hr hlt).trans (by rw [if_neg (by simp [ha]), if_pos ha, if_neg (by simp [hs])])), ?_⟩
    rw [Chip.expire_keys]
    exact ⟨(SMap.find_erase ..).trans (if_pos rfl), (SMap.find_erase ..).trans (if_pos rfl), Within.ofChip ((Only.expire _).mono (by simp))⟩
  · exact congrArg (next s) (keyExpiry_early hk he hle)

end Sys2Proof.Machine
end

section
/-! SUPPORT. The intrusion monitor and re-arm (R197 to R205): what a zeroisation, a sensor trip, a loop's mismatch and a re-arm leave of the key
store. -/

namespace Sys2Proof.Machine

/-! ## INTRUSION_DETECTED (R197, R201) -/

theorem Only.emptyQueues (s : Chip) : Only [.crypto] s s.emptyQueues := Only.modCrypto s

/-- The key store after a reset of the SI: its slots, in volatile memory, are empty. -/
theorem Chip.resetSi_keys (s : Chip) : s.resetSi.keys = { s.keys with slots := [] } := by
  unfold Chip.resetSi
  dsimp only
  rw [Chip.modKeys_keys, (Only.dropEpochs _).get .keys, (Only.dramCancel _).get .keys, (Only.endCondition _).get .keys,
    (Only.emptyQueues _).get .keys, (Only.siLost s).get .keys]

/-- A later intrusion only adds its causes (R201). -/
theorem Chip.intrude_again {s : Chip} (cause ns : Nat) (h : s.keys.arm = .deadIntrusion) :
    s.intrude cause ns = s.modKeys fun k => { k with cause := k.cause ||| BitVec.ofNat 16 cause } := by
  refine (if_pos h).trans ?_
  unfold Chip.noteCause Chip.modKeys
  dsimp only
  rw [h, if_neg (by decide)]

/-- The first intrusion zeroises: no slot is occupied, the root key is gone, and one intrusion more is counted (R201). -/
theorem Chip.intrude_keys {s : Chip} (cause ns : Nat) (h : s.keys.arm ≠ .deadIntrusion) : (s.intrude cause ns).keys =
    { (s.noteCause cause).keys with
      arm := .deadIntrusion, rootOk := false, intrusions := satAdd 32 s.keys.intrusions 1, zeroNs := min 0xFFFF ns, slots := []
      rootKey := List.replicate 32 0 } := by
  unfold Chip.intrude
  rw [if_neg h]
  dsimp only
  rw [(Only.failIsland _).get .keys, (Only.record _).get .keys, Chip.resetSi_keys]
  have hlost := (Only.siLost (i := true) ((s.noteCause cause).modKeys fun k =>
    { k with arm := .deadIntrusion, rootOk := false, intrusions := satAdd 32 k.intrusions 1, zeroNs := min 0xFFFF ns })).get .keys
  exact congrArg (fun k : Keys => { k with slots := [], rootKey := List.replicate 32 0 }) hlost

/-- The first intrusion leaves the SI dead, in every device that has the island. -/
theorem Chip.intrude_dead {s : Chip} (cause ns : Nat) (h : s.keys.arm ≠ .deadIntrusion) :
    ∀ x, (s.intrude cause ns).islands[3]? = some x → x = .dead := by
  unfold Chip.intrude
  rw [if_neg h]
  exact Chip.failIsland_islands _ 3 .dead

theorem intrusionDetected_none {cause : Nat} {s : Chip} (ns : Nat) (h : s.tripping cause = 0) : intrusionDetected cause ns s = s := if_pos (.inr h)

/-- Where the monitor acts, a cause that trips is an intrusion. -/
theorem intrusionDetected_trips {cause : Nat} {s : Chip} (ns : Nat) (hm : s.monitorActs = true) (h : s.tripping cause ≠ 0) :
    intrusionDetected cause ns s = s.intrude (s.tripping cause) ns := by
  have hs : s.life.state ≠ .scrapped := fun hs => by
    unfold Chip.monitorActs at hm
    rw [hs] at hm
    cases hm
  unfold intrusionDetected
  dsimp only
  rw [if_neg (by simp [hs, h]), if_pos hm]

/-! ## SENSOR_TRIP_RECORDED (R199) -/

/-- A sensor outside the response mask notes its cause and is recorded. -/
theorem sensorTrip_records {x : Sensor} {s : Chip} (hs : s.life.state ≠ .scrapped) (hm : s.keys.response.getLsbD (sensorBit x) = false)
    (hx : x = .supply → s.runs 3 = true) :
    sensorTrip x s = (s.noteCause (2 ^ (4 + sensorBit x))).record 0x100E 1 (le 2 (2 ^ (4 + sensorBit x)) ++ [0, 0]) := by
  refine if_neg ?_
  rintro (h | ⟨h, h0⟩ | h)
  · exact hs h
  · rw [hx h] at h0; cases h0
  · rw [hm] at h; cases h

/-! ## TAMPER_LOOP_MISMATCH (R198) -/

theorem loopMismatch_same {k : Nat} {s : Chip} : loopMismatch k (s.tampOut k) s = s := if_pos (.inr rfl)

/-- A mismatched bit that no other came before sets its loop's bit and is remembered. -/
theorem loopMismatch_alone {k : Nat} {level : Bool} {s : Chip} (hd : s.loopDriven k = true) (hl : level ≠ s.tampOut k)
    (h : SMap.find? s.keys.lastMismatch k = none) : loopMismatch k level s =
      s.modKeys fun x => { x with mismatches := x.mismatches ||| BitVec.ofNat 8 (2 ^ k), lastMismatch := x.lastMismatch.put k s.us } := by
  unfold loopMismatch
  rw [if_neg (by simp [hd, hl]), h]
  rfl

/-! ## RE_ARM (R204, R205) -/

theorem submitRearm_closed {s : Chip} (h : s.debugOpen = false) : submitRearm s = s := if_pos h

theorem submitRearm_refused {s : Chip} (h : s.debugOpen = true) (hc : s.rearmCode ≠ 0) :
    submitRearm s = s.modKeys fun k => { k with rearmResult := BitVec.ofNat 32 (0x80000000 + s.rearmCode) } := by
  unfold submitRearm
  dsimp only
  rw [if_neg (by simp [h]), if_neg hc]

theorem submitRearm_accepted {s : Chip} (h : s.debugOpen = true) (hc : s.rearmCode = 0) :
    submitRearm s = s.rearm.modKeys fun k => { k with rearmResult := 0x80000000 } := by
  unfold submitRearm
  dsimp only
  rw [if_neg (by simp [h]), if_pos hc, hc]
  rfl

/-- The device of a re-arm with its SI loading and its new root key drawn, its blobs not yet erased. -/
def Chip.rootKeyDrawn (s : Chip) : Chip :=
  let d := ((s.putIsland 3 .loading).modCrypto fun c => { c with entropy := .startUp }).drawBytes 32
  d.2.modKeys fun k => { k with rootKey := d.1, rootOk := true, rootLost := false }

/-- The erasing of the blobs and the record reach free blocks and the recorder besides the key store. -/
theorem Chip.rearm_only (s : Chip) : Only [.free, .boot, .keys, .recorder] s.rootKeyDrawn s.rearm :=
  (((Only.foldl _ (fun c _ => Only.freeBlock c) _ _).mono (by simp)).comp ((Only.modKeys _).mono (by simp))).comp ((Only.record _).mono (by simp))

/-- An accepted re-arm leaves an armed monitor, no key and a new root key (R205). -/
theorem Chip.rearm_keys (s : Chip) : s.rearm.keys =
    { s.rootKeyDrawn.keys with blobs := [], slots := [], arm := .armed, rearms := satAdd 32 s.keys.rearms 1 } := by
  have hfreed := (Only.foldl (fun c (_ : Nat × Bytes) => c.freeBlock) (fun c _ => Only.freeBlock c) s.rootKeyDrawn.keys.blobs s.rootKeyDrawn).get .keys
  unfold Chip.rearm
  dsimp only
  rw [(Only.record _).get .keys]
  exact congrArg (fun k : Keys => { k with blobs := [], slots := [], arm := .armed, rearms := satAdd 32 k.rearms 1 }) hfreed

theorem Chip.rootKeyDrawn_length (s : Chip) : s.rootKeyDrawn.keys.rootKey.length = 32 := by
  simp [Chip.rootKeyDrawn, Chip.drawBytes]

/-- Settles O37: each event is the equation of its case, a zeroisation `Chip.intrude_keys` and an accepted re-arm `Chip.rearm_keys`. -/
theorem intrusionRows : Obligations.IntrusionRows := by
  unfold Obligations.IntrusionRows
  refine ⟨fun cause ns s hm ht ha => ?_, fun cause ns s hm ht ha => ?_, fun cause ns s ht => ?_, fun x s hs hm hx => ?_,
    fun k level s hm hk hl hn => ?_, fun s ho => ⟨fun hc => ?_, fun hc => ?_⟩, fun k s => ?_, fun s ho => ?_⟩
  · refine ⟨_, congrArg (next s) (intrusionDetected_trips ns hm ht), ?_⟩
    dsimp only
    rw [Chip.intrude_keys _ _ ha]
    exact ⟨rfl, rfl, rfl, rfl, rfl, rfl, Chip.intrude_dead _ _ ha⟩
  · exact ⟨_, congrArg (next s) ((intrusionDetected_trips ns hm ht).trans (Chip.intrude_again _ ns ha)), rfl, rfl, Within.ofChip (Only.modKeys _)⟩
  · exact congrArg (next s) (intrusionDetected_none ns ht)
  · refine ⟨_, congrArg (next s) (sensorTrip_records hs hm hx), ?_⟩
    dsimp only
    rw [(Only.record _).get .keys]
    exact ⟨rfl, rfl, fun ha => if_pos ha, Within.ofChip (((Only.modKeys _).mono (by simp)).comp ((Only.record _).mono (by simp)))⟩
  · refine ⟨_, congrArg (next s) (loopMismatch_alone (by simp [Chip.loopDriven, hm, hk]) hl hn), rfl, (SMap.find_put ..).trans (if_pos rfl), rfl,
      Within.ofChip (Only.modKeys _)⟩
  · refine ⟨_, congrArg (next s) (submitRearm_accepted ho hc), ?_⟩
    dsimp only [Chip.modKeys_keys, Chip.modKeys_crypto, Chip.modKeys_islands]
    rw [Chip.rearm_keys, s.chip.rearm_only.get .crypto, s.chip.rearm_only.get .islands]
    refine ⟨rfl, rfl, rfl, Chip.rootKeyDrawn_length _, rfl, rfl, rfl, rfl, fun x hx => ?_⟩
    rw [show s.chip.rootKeyDrawn.islands = s.chip.islands.set 3 .loading from rfl, List.getElem?_set_self'] at hx
    obtain ⟨_, -, rfl⟩ := Option.map_eq_some_iff.mp hx
    rfl
  · exact ⟨_, congrArg (next s) (submitRearm_refused ho hc), rfl, rfl, rfl, Within.ofChip (Only.modKeys _)⟩
  · exact congrArg (next s) loopMismatch_same
  · exact congrArg (next s) (submitRearm_closed ho)

end Sys2Proof.Machine
end

section
/-! SUPPORT. Job rows (R211, R214, R222, R496): the answers of `submitJob` in the order in which it judges a job, and what its acceptance does. -/

namespace Sys2Proof.Machine

/-- The seventeen job rows of 0x4400:10 by their opcodes of Table 8.3. -/
def jobRows (p : Path) (tag : Word16) (j : JobReq) : List (Nat × Instr) :=
  [(0x01, .aesCbcEncrypt p tag j), (0x02, .aesCbcDecrypt p tag j), (0x03, .aesCtr p tag j), (0x04, .aesGcmEncrypt p tag j),
    (0x05, .aesGcmDecrypt p tag j), (0x06, .aesCmacGenerate p tag j), (0x07, .aesCmacVerify p tag j), (0x08, .hmacGenerate p tag j),
    (0x09, .hmacVerify p tag j), (0x0A, .sha256 p tag j), (0x0B, .sha384 p tag j), (0x10, .ecdsaSign p tag j), (0x11, .ecdhP256 p tag j),
    (0x18, .randomBytes p tag j), (0x20, .ecdsaVerifyP256 p tag j), (0x21, .ecdsaVerifyP384 p tag j), (0x22, .rsaVerify p tag j)]

/-- Each of them is the one write of its opcode's record. -/
theorem exec_jobRow {p : Path} {tag : Word16} {j : JobReq} {op : Nat} {i : Instr} (hi : (op, i) ∈ jobRows p tag j) (s : State) :
    exec i s = next s (submit p tag op j s.chip) := by
  simp only [jobRows, List.mem_cons, List.not_mem_nil, or_false, Prod.mk.injEq] at hi
  rcases hi with ⟨rfl, rfl⟩ | ⟨rfl, rfl⟩ | ⟨rfl, rfl⟩ | ⟨rfl, rfl⟩ | ⟨rfl, rfl⟩ | ⟨rfl, rfl⟩ | ⟨rfl, rfl⟩ | ⟨rfl, rfl⟩ | ⟨rfl, rfl⟩ |
    ⟨rfl, rfl⟩ | ⟨rfl, rfl⟩ | ⟨rfl, rfl⟩ | ⟨rfl, rfl⟩ | ⟨rfl, rfl⟩ | ⟨rfl, rfl⟩ | ⟨rfl, rfl⟩ | ⟨rfl, rfl⟩ <;> rfl

/-- A job that reaches its owner is judged by `submitJob`. -/
theorem exec_submitted {p : Path} {tag : Word16} {j : JobReq} {op : Nat} {i : Instr} {s : State} {r : Req} {c : Chip}
    (hi : (op, i) ∈ jobRows p tag j) (h : gate p tag 0x4400 0x10 (jobBytes op j) (fun _ _ => 0) s.chip = .go r c) :
    exec i s = next s (Chip.finish r.dest (submitJob op j r c)) :=
  (exec_jobRow hi s).trans (congrArg (next s) (hostWrite_go h))

/-! ## The use of a key (R176, R194) -/

/-- The parts that the count of a key's use reaches: the key store with its blobs in flash, and the journal. -/
def useParts : List Part := [.keys, .free, .boot, .pair]

theorem Only.writeBlob {n} (s : Chip) : Only [.keys, .free, .boot] s (s.writeBlob n) := by
  unfold Chip.writeBlob
  split
  · exact ((Only.modKeys s).mono (by simp)).comp ((Only.useBlock _).mono (by simp))
  · exact Only.refl s _

theorem Only.reserveUses {n m} (s : Chip) : Only useParts s (s.reserveUses n m).1 := by
  unfold Chip.reserveUses
  split
  · exact (((Only.modKeys s).mono (by decide)).comp ((Only.writeBlob _).mono (by decide))).comp ((Only.journalSlot _).mono (by decide))
  · exact Only.refl s _

theorem Only.keepReserve {n} (s : Chip) : Only useParts s (s.keepReserve n) := by
  unfold Chip.keepReserve
  exact Only.ite (Only.reserveUses s) (Only.refl s _)

theorem Only.countUse {n} (s : Chip) : Only useParts s (s.countUse n).1 := by
  have hcounted : ∀ {u : Chip} (f : Keys → Keys), Only useParts s u → Only useParts s ((u.modKeys f).keepReserve n) := fun f h =>
    (h.comp ((Only.modKeys _).mono (by decide))).comp (Only.keepReserve _)
  unfold Chip.countUse
  dsimp only
  split
  · exact Only.refl s _
  · split
    · split
      · exact Only.reserveUses s
      · exact hcounted _ (Only.reserveUses s)
    · exact hcounted _ (Only.refl s _)

/-! ## The order of R214 -/

/-- The type of the key that a job names, 0 for a slot that is empty or of a type its opcode does not take. -/
abbrev Chip.jobKeyType (s : Chip) (op : Nat) (j : JobReq) : Nat :=
  if opType op (SMap.get s.keys.slots {} j.slot.toNat).type.toNat then (SMap.get s.keys.slots {} j.slot.toNat).type.toNat else 0

/-- The device once the use of a job's key is counted, with the code of the count; a job without a key has none to count. -/
def Chip.jobUse (s : Chip) (op : Nat) (j : JobReq) : Chip × Nat := if (opUsage op).isSome then s.countUse j.slot.toNat else (s, 0)

/-- The epoch whose acknowledgement releases the record of a job, once its use is counted: the one its use opened, 0 for none. -/
def Chip.jobEpoch (s : Chip) (op : Nat) (j : JobReq) : Nat :=
  if (s.jobUse op j).1.pair.state = .activePaired ∧ (s.jobUse op j).1.pair.open_.entries.length ≠ s.pair.open_.entries.length then
    (s.jobUse op j).1.openEpoch else 0

/-- The entry of an accepted job; its acceptance number is given by the queue. -/
def Chip.jobEntry (s : Chip) (op : Nat) (j : JobReq) : JobEntry :=
  { id := j.jobId.toNat, opcode := op, flags := j.flags, slot := j.slot.toNat, inOff := j.inputOffset.toNat, outOff := j.outputOffset.toNat
    params := j.params, input := j.inline, inLen := j.inputLen.toNat, key := SMap.get s.keys.slots {} j.slot.toNat, ackEpoch := s.jobEpoch op j }

/-- A job for which its queue has a free entry enters it, unless its use is refused. -/
def Chip.enterJob (s : Chip) (q op : Nat) (j : JobReq) : Chip × Reply :=
  if (s.jobUse op j).2 ≠ 0 then (s, bad (s.jobUse op j).2) else ((s.jobUse op j).1.addJob q (s.jobEntry op j), ok)

section
variable {op : Nat} {j : JobReq} {r : Req} {s : Chip}

/-- A standby refuses every job (R496). -/
theorem submitJob_standby (h : s.standbyGate ≠ 0) : submitJob op j r s = (s, bad 0xB001) := if_pos h

section
variable (hg : s.standbyGate = 0)
include hg

theorem submitJob_malformed (hf : jobForm op j (s.jobKeyType op j) ≠ 0) : submitJob op j r s = (s, bad (jobForm op j (s.jobKeyType op j))) :=
  (if_neg (not_not.mpr hg)).trans (if_pos hf)

variable (hf : jobForm op j (s.jobKeyType op j) = 0)
include hf

theorem submitJob_idInUse (hid : (s.queue (0x1F + r.dest.session)).entries.any (fun e => e.id == j.jobId.toNat) = true) :
    submitJob op j r s = (s, bad 0x3005) :=
  ((if_neg (not_not.mpr hg)).trans (if_neg (not_not.mpr hf))).trans (if_pos hid)

variable (hid : (s.queue (0x1F + r.dest.session)).entries.any (fun e => e.id == j.jobId.toNat) = false)
include hid

/-- An input range that leaves the crypto region is recorded as a refused read (R20, R211). -/
theorem submitJob_inputRefused {a : Nat} (hb : j.flags.getLsbD 1 = true) (ha : s.cryptoRange j.inputOffset.toNat j.inputLen.toNat = some a) :
    submitJob op j r s = (s.accessRefused 3 (a % 2 ^ 32) 4 0, bad 0x0013) := by
  unfold submitJob
  dsimp only
  rw [if_neg (not_not.mpr hg), if_neg (not_not.mpr hf), if_neg (by simp [hid]), if_pos hb, ha]

/-- An output range that leaves the crypto region is recorded as a refused write (R20, R211). -/
theorem submitJob_outputRefused {a : Nat} (hb : j.flags.getLsbD 1 = false) (hc : j.flags.getLsbD 2 = true)
    (ha : s.cryptoRange j.outputOffset.toNat (opOut op j.params j.inputLen.toNat) = some a) :
    submitJob op j r s = (s.accessRefused 3 (a % 2 ^ 32) 4 1, bad 0x0013) := by
  unfold submitJob
  dsimp only
  rw [if_neg (not_not.mpr hg), if_neg (not_not.mpr hf), if_neg (by simp [hid]), if_neg (Bool.eq_false_iff.mp hb), if_pos hc, ha]

/-- A job in order by itself is judged by the SAU, its key and its queue. -/
theorem submitJob_ordered (hin : j.flags.getLsbD 1 = true → s.cryptoRange j.inputOffset.toNat j.inputLen.toNat = none)
    (hout : j.flags.getLsbD 2 = true → s.cryptoRange j.outputOffset.toNat (opOut op j.params j.inputLen.toNat) = none) :
    submitJob op j r s =
      if opEngine op = 3 ∧ s.crypto.sauFault = true then (s, bad 0x3003)
      else if s.jobKey op j.slot.toNat ≠ 0 then (s, bad (s.jobKey op j.slot.toNat))
      else (s.queueBusy (0x1F + r.dest.session)).elim (s.enterJob (0x1F + r.dest.session) op j) fun ms => (s, .busy ms) := by
  unfold submitJob
  dsimp only
  rw [if_neg (not_not.mpr hg), if_neg (not_not.mpr hf), if_neg (by simp [hid]), ite_eq_right_iff.mpr hin, ite_eq_right_iff.mpr hout]
  cases s.queueBusy (0x1F + r.dest.session) <;> rfl

end

end

/-! ## Acceptance (R214) -/

theorem Only.jobUse {op j} (s : Chip) : Only useParts s (s.jobUse op j).1 := by
  unfold Chip.jobUse
  split
  · exact Only.countUse s
  · exact Only.refl s _

theorem Chip.jobUse_counted {s : Chip} {op : Nat} {j : JobReq} (h : opUsage op = none ∨ (s.countUse j.slot.toNat).2 = 0) : (s.jobUse op j).2 = 0 := by
  unfold Chip.jobUse
  split
  · next hused => exact h.resolve_left (Option.isSome_iff_ne_none.mp hused)
  · rfl

/-- An added job stands last in its queue with the next acceptance number, and every other queue is as it was. -/
theorem Chip.queue_addJob (s : Chip) (q : Nat) (e : JobEntry) (n : Nat) : (s.addJob q e).queue n =
    if n = q then { s.queue q with entries := (s.queue q).entries ++ [{ e with uid := s.crypto.nextUid }] } else s.queue n :=
  Chip.queue_modQueue s q n fun x => { x with entries := x.entries ++ [{ e with uid := s.crypto.nextUid }] }

@[simp] theorem Chip.addJob_nextUid (s : Chip) (q : Nat) (e : JobEntry) : (s.addJob q e).crypto.nextUid = s.crypto.nextUid + 1 := rfl

/-- A queue is unchanged where the engines are. -/
theorem Only.queue {a b : Chip} {ps : List Part} (h : Only ps a b) (hp : Part.crypto ∉ ps := by decide) (n : Nat) : b.queue n = a.queue n := by
  have := h .crypto hp; unfold Chip.queue; rw [this]

/-- Settles O34: a job row is judged by the equations of `submitJob` in their order, and an accepted job is read back by `Chip.queue_addJob`. -/
theorem jobSubmissionRows : Obligations.JobSubmissionRows := by
  unfold Obligations.JobSubmissionRows
  rintro p tag j s r c i op hi h q type rfl rfl
  rw [exec_submitted hi h]
  refine ⟨fun hg => ?_, fun hg hf => ?_, fun hg hf => ⟨fun hid => ?_, fun hid => ⟨fun a hb ha => ?_, fun a hb hc ha => ?_, fun hin hout => ?_⟩⟩⟩
  · rw [submitJob_standby hg]; rfl
  · rw [submitJob_malformed hg hf]; rfl
  · rw [submitJob_idInUse hg hf hid]; rfl
  · rw [submitJob_inputRefused hg hf hid hb ha]; rfl
  · rw [submitJob_outputRefused hg hf hid hb hc ha]; rfl
  · rw [submitJob_ordered hg hf hid hin hout]
    refine ⟨fun he hs => ?_, fun hs hk => ?_, fun hs hk => ?_⟩
    · rw [if_pos ⟨he, hs⟩]; rfl
    · rw [if_neg (by simpa [imp_iff_not_or] using hs), if_pos hk]; rfl
    · rw [if_neg (by simpa [imp_iff_not_or] using hs), if_neg (not_not.mpr hk)]
      refine ⟨fun ms hq => ?_, fun hq hu => ?_⟩
      · rw [hq]; rfl
      · have honly := Only.jobUse (op := op) (j := j) c
        have henters : c.enterJob (0x1F + r.dest.session) op j = ((c.jobUse op j).1.addJob (0x1F + r.dest.session) (c.jobEntry op j), ok) :=
          if_neg (not_not.mpr (Chip.jobUse_counted hu))
        refine ⟨(c.jobUse op j).1.addJob (0x1F + r.dest.session) (c.jobEntry op j), { c.jobEntry op j with uid := c.crypto.nextUid },
          ?_, ?_, rfl, rfl, rfl, rfl, rfl, rfl, ?_, fun n hn => ?_⟩
        · rw [hq]; exact congrArg (fun x => next s (Chip.finish r.dest x)) henters
        · rw [Chip.queue_addJob, if_pos rfl, honly.queue, honly.get .crypto]
        · rw [Chip.addJob_nextUid, honly.get .crypto]
        · rw [Chip.queue_addJob, if_neg hn, honly.queue]

end Sys2Proof.Machine
end

section
/-! SUPPORT. Engines and their jobs (R215, R216, R219, R220, R222, R223): dispatch, completion, acknowledgement, pre-emption, and the release
check with the yields it causes. -/

namespace Sys2Proof.Machine

/-! ## What the operations on jobs leave -/

theorem Only.modJob {q u f} (s : Chip) : Only [.crypto] s (s.modJob q u f) := Only.modQueue s

/-- The end of a job changes the queues alone. -/
theorem Chip.endJob_crypto (s : Chip) (q : Nat) (e : JobEntry) (code : Nat) (inline : Bytes) (wrote signed : Bool) :
    ∃ queues, (s.endJob q e code inline wrote signed).crypto = { s.crypto with queues := queues } := by
  unfold Chip.endJob
  dsimp only
  split
  · exact ⟨_, rfl⟩
  · exact ⟨_, rfl⟩

/-- A release check that takes the VI changes its own state alone. -/
theorem Chip.startCheck_crypto (s : Chip) : ∃ waits checking longest, s.startCheck.crypto =
    { s.crypto with checkWaits := waits, checking := checking, longestWait := longest } := by
  unfold Chip.startCheck
  split
  · split
    · exact ⟨_, _, _, rfl⟩
    · exact ⟨_, _, _, rfl⟩
  · exact ⟨_, _, _, rfl⟩

theorem Only.startCheck (s : Chip) : Only [.crypto] s s.startCheck := by
  unfold Chip.startCheck
  split
  · exact Only.ite (Only.modCrypto s) (Only.refl s _)
  · exact Only.refl s _

/-! ## ENGINE_DISPATCH (R215) -/

theorem engineDispatch_occupied {e : Engine} {s : Chip} (h : (s.crypto.running.find? (engineNo e)).isSome = true) : engineDispatch e s = s :=
  if_pos (.inl h)

section
variable {e : Engine} {s : Chip} (ht : engineType (engineNo e) ≠ 4)
include ht

theorem engineDispatch_idle (h : s.choose (engineType (engineNo e)) = none) : engineDispatch e s = s := by
  unfold engineDispatch
  dsimp only
  rw [if_neg ht, if_neg ht, h]
  exact ite_self _

/-- An idle engine of the SI starts the job that R215 chooses. -/
theorem engineDispatch_starts {q p : Nat} {j : JobEntry} (hf : s.crypto.running.find? (engineNo e) = none) (hr : s.runs 3 = true)
    (h : s.choose (engineType (engineNo e)) = some (q, p, j)) : engineDispatch e s = s.startJob (engineNo e) q p j := by
  unfold engineDispatch
  dsimp only
  rw [if_neg ht, if_neg ht, hf, h, if_neg (by simp [hr])]

end

/-- A job whose input lies in DRAM asks for it when it first starts (R211). -/
def JobEntry.readsInput (e : JobEntry) : Bool := e.flags.getLsbD 1 && e.startAt.isNone

/-- The device once a job that starts has asked for its input. -/
def Chip.inputAsked (s : Chip) (e : JobEntry) : Chip :=
  if e.readsInput then s.dramEnqueue { cls := .secure, addr := s.regionBase 4 + e.inOff, len := e.inLen, owner := e.uid } else s

theorem Only.inputAsked {e} (s : Chip) : Only [.dram] s (s.inputAsked e) := by
  unfold Chip.inputAsked
  exact Only.ite (Only.dramEnqueue s) (Only.refl s _)

section
variable {s : Chip} {eng q p : Nat} {e : JobEntry}

/-- A DRAM that does not serve ends the job that would read from it (R74, R386). -/
theorem Chip.startJob_unserved (hd : e.readsInput = true) (h : s.dramServes = false) :
    s.startJob eng q p e = s.endJob q e 0x0004 [] false false := if_pos ⟨hd, h⟩

section
variable (h : e.readsInput = false ∨ s.dramServes = true)
include h

theorem Chip.startJob_starts : s.startJob eng q p e =
    ((s.inputAsked e).modJob q e.uid fun x => { x with
      phase := if x.hashFirst then .hashing else .running, inputDue := x.inputDue || e.readsInput, resumedAt := x.done
      startAt := some (x.startAt.getD (s.inputAsked e).clk.ticks) }).modCrypto fun c =>
    { c with running := c.running.put eng e.uid, pointers := c.pointers.put p q, contexts := c.contexts.filter fun x => x.2 != e.uid } :=
  if_neg fun hd => by
    rcases h with h | h
    · exact Bool.eq_false_iff.mp h hd.1
    · rw [h] at hd; cases hd.2

/-- A job that starts runs on its engine, and its queue is the one last served at its priority. -/
theorem Chip.startJob_crypto : (s.startJob eng q p e).crypto.running = s.crypto.running.put eng e.uid ∧
    (s.startJob eng q p e).crypto.pointers = s.crypto.pointers.put p q := by
  rw [Chip.startJob_starts h, ← (Only.inputAsked (e := e) s).get .crypto]
  exact ⟨rfl, rfl⟩

theorem Only.startJob : Only [.crypto, .dram] s (s.startJob eng q p e) := by
  rw [Chip.startJob_starts h]
  exact (((Only.inputAsked s).mono (by simp)).comp ((Only.modJob _).mono (by simp))).comp ((Only.modCrypto _).mono (by simp))

end

end

/-! ## JOB_COMPLETE (R216) -/

theorem jobComplete_idle {e : Engine} {s : Chip} (h : s.crypto.running.find? (engineNo e) = none) : jobComplete e s = s := by
  unfold jobComplete
  dsimp only
  rw [h]

/-- The device with an engine freed. -/
def Chip.engineFreed (s : Chip) (n : Nat) : Chip := s.modCrypto fun c => { c with running := c.running.erase n }

section
variable {e : Engine} {u q : Nat} {j : JobEntry} {s : Chip} (hu : s.crypto.running.find? (engineNo e) = some u) (hj : s.job u = some (q, j))
include hu hj

/-- A signature ahead of it in the SAU, or input that has not come, holds a job on its engine (R21, R222). -/
theorem jobComplete_held (h : (engineNo e = 7 ∧ s.sauHeld = true) ∨ j.inputDue = true) : jobComplete e s = s := by
  unfold jobComplete
  dsimp only
  rw [hu]
  refine if_pos (h.imp_right fun h => ?_)
  unfold Chip.inputDue
  rw [hj]
  exact h

/-- A job that has done its work frees its engine. -/
theorem jobComplete_works (hs : engineNo e ≠ 7 ∨ s.sauHeld = false) (hd : j.inputDue = false) :
    jobComplete e s = (s.engineFreed (engineNo e)).workDone q j := by
  have hfree : ¬((engineNo e = 7 ∧ s.sauHeld = true) ∨ s.inputDue u = true) := by
    simpa [Chip.inputDue, hj, hd, imp_iff_not_or] using hs
  have hfreed : (s.engineFreed (engineNo e)).job u = some (q, j) := hj
  unfold Chip.engineFreed at hfreed
  unfold jobComplete
  dsimp only
  rw [hu]
  dsimp only
  rw [if_neg hfree, hfreed]
  rfl

end

/-- A symmetric job ends with what it yields. -/
theorem Chip.workDone_plain {s : Chip} {q : Nat} {j : JobEntry} (h : j.opcode ≤ 0x0B) : s.workDone q j = s.finishJob q j (jobYield j) false := by
  have hfirst : j.hashFirst = false := by
    unfold JobEntry.hashFirst
    rw [show (j.opcode == 0x10) = false from beq_eq_false_iff_ne.mpr (by omega)]
    rfl
  have hengine : opEngine j.opcode ≠ 4 := by
    unfold opEngine
    split_ifs <;> simp
  unfold Chip.workDone
  dsimp only
  rw [if_neg (by simp [hfirst]), if_neg (by omega), if_neg (by omega), if_neg (by omega), if_neg hengine]

/-! ## COMPLETION_ACKNOWLEDGE (R216) -/

section
variable {id : Nat} {r : Req} {s : Chip}

theorem acknowledge_done {e : JobEntry} (h : ((s.queue (0x1F + r.dest.session)).entries.find? fun e => e.id == id && !e.orphan) = some e)
    (hp : e.phase = .done) : acknowledge id r s = (s.dropJob (0x1F + r.dest.session) e.uid, ok) := by
  unfold acknowledge
  dsimp only
  rw [h]
  exact if_pos hp

theorem acknowledge_incomplete {e : JobEntry} (h : ((s.queue (0x1F + r.dest.session)).entries.find? fun e => e.id == id && !e.orphan) = some e)
    (hp : e.phase ≠ .done) : acknowledge id r s = (s, bad 0x0005) := by
  unfold acknowledge
  dsimp only
  rw [h]
  exact if_neg hp

theorem acknowledge_unknown (h : ((s.queue (0x1F + r.dest.session)).entries.find? fun e => e.id == id && !e.orphan) = none)
    (hr : (s.queue (0x1F + r.dest.session)).resets = []) : acknowledge id r s = (s, bad 0x0002) := by
  unfold acknowledge
  dsimp only
  rw [h, hr]
  rfl

end

theorem exec_completionAcknowledge {p : Path} {tag id : Word16} {s : State} {r : Req} {c : Chip}
    (h : gate p tag 0x4400 0x12 (le 2 id.toNat) (fun _ _ => 0) s.chip = .go r c) :
    exec (.completionAcknowledge p tag id) s = next s (Chip.finish r.dest (acknowledge id.toNat r c)) := congrArg (next s) (hostWrite_go h)

/-! ## PREEMPTION_BOUNDARY (R219, R220) -/

/-- The lowest free of the contexts that any pre-emption may take. -/
theorem Chip.freeContext_lowest {s : Chip} {i : Nat} (hi : i < 24) (hfree : s.crypto.contexts.find? i = none)
    (hbelow : ∀ k < i, (s.crypto.contexts.find? k).isSome = true) (prio : Nat) : s.freeContext prio = some i := by
  have hfirst : ((List.range 24).find? fun k => !(s.crypto.contexts.find? k).isSome) = some i :=
    List.find?_range_eq_some.mpr ⟨by simp [hfree], List.mem_range.mpr hi, fun k hk => by simp [hbelow k hk]⟩
  unfold Chip.freeContext
  dsimp only
  rw [hfirst]

theorem Chip.freeContext_none {s : Chip} (h : ∀ i < 32, (s.crypto.contexts.find? i).isSome = true) (prio : Nat) : s.freeContext prio = none := by
  have hlow : ((List.range 24).find? fun k => !(s.crypto.contexts.find? k).isSome) = none :=
    List.find?_eq_none.mpr fun k hk => by simp [h k (by have := List.mem_range.mp hk; omega)]
  have hhigh : (((List.range 8).map (· + 24)).find? fun k => !(s.crypto.contexts.find? k).isSome) = none :=
    List.find?_eq_none.mpr fun k hk => by
      obtain ⟨i, hi, rfl⟩ := List.mem_map.mp hk
      simp [h (i + 24) (by have := List.mem_range.mp hi; omega)]
  unfold Chip.freeContext
  dsimp only
  rw [hlow, hhigh]
  exact ite_self _

/-- A job stands at a boundary at which it must look for waiting jobs: it may be pre-empted, 64 blocks lie behind it and more than 64 before it. -/
structure AtBoundary (e : Engine) (n u q : Nat) (j : JobEntry) (s : Chip) : Prop where
  runs : s.crypto.running.find? (engineNo e) = some u
  found : s.job u = some (q, j)
  type : engineType (engineNo e) ≤ 1
  queue : 16 ≤ q
  preempts : opPreempts j.opcode = true
  opcode : j.opcode ≠ 0x10
  after : j.resumedAt < n
  boundary : (n - j.resumedAt) % 64 = 0
  before : n + 64 < ceilDiv j.inLen (opBlock j.opcode j.key.type.toNat)

/-- The jobs of higher priority that wait for a type of engine. -/
def Chip.waitingAbove (s : Chip) (t prio : Nat) : List (Nat × Nat × JobEntry) := (s.candidates t).filter fun x => decide (prio < x.2.1)

/-- The highest of their priorities. -/
def Chip.highestWaiting (s : Chip) (t prio : Nat) : Nat := ((s.waitingAbove t prio).map (·.2.1)).foldl max 0

/-- The device with the blocks noted that a job has done. -/
def Chip.blocksNoted (s : Chip) (q : Nat) (j : JobEntry) (n : Nat) : Chip := s.modJob q j.uid fun x => { x with done := n }

/-- The device once a pre-emption is declined. -/
def Chip.preemptionDeclined (s : Chip) : Chip := s.modCrypto fun c => { c with declined := satAdd 32 c.declined 1 }

/-- The device once the job of engine `eng` is suspended into context `i`. -/
def Chip.contextSaved (s : Chip) (eng q : Nat) (j : JobEntry) (i : Nat) : Chip :=
  (s.modJob q j.uid fun x => { x with phase := .suspended, preempted := true }).modCrypto fun c =>
    { c with contexts := c.contexts.put i j.uid, running := c.running.erase eng, preemptions := satAdd 32 c.preemptions 1 }

theorem Only.blocksNoted {q j n} (s : Chip) : Only [.crypto] s (s.blocksNoted q j n) := Only.modJob s

theorem Only.preemptionDeclined (s : Chip) : Only [.crypto] s s.preemptionDeclined := Only.modCrypto s

theorem Only.contextSaved {eng q j i} (s : Chip) : Only [.crypto] s (s.contextSaved eng q j i) := (Only.modJob s).comp (Only.modCrypto _)

section
variable {e : Engine} {n u q : Nat} {j : JobEntry} {s : Chip} (hb : AtBoundary e n u q j s)
  (hw : ((s.candidates (engineType (engineNo e))).any fun x => decide (s.queuePriority q < x.2.1)) = true)
  (hi : ((enginesOf (engineType (engineNo e))).any fun x => (s.crypto.running.find? x).isNone) = false)
include hb hw hi

/-- A job that must give way is suspended into the context that is free to the waiting job, and goes on where there is none. -/
theorem preemptionBoundary_waiting : preemptionBoundary e n s =
    ((s.blocksNoted q j n).freeContext (s.highestWaiting (engineType (engineNo e)) (s.queuePriority q))).elim
      (s.blocksNoted q j n).preemptionDeclined ((s.blocksNoted q j n).contextSaved (engineNo e) q j) := by
  obtain ⟨hruns, hfound, htype, hqueue, hpre, hop, hafter, hbound, hbefore⟩ := hb
  have hwaiting : s.waitingAbove (engineType (engineNo e)) (s.queuePriority q) ≠ [] := fun hnone => by
    obtain ⟨x, hx, hp⟩ := List.any_eq_true.mp hw
    exact List.filter_eq_nil_iff.mp hnone x hx hp
  unfold preemptionBoundary
  dsimp only
  rw [hruns, Option.bind_some, hfound]
  dsimp only
  rw [if_neg (by simp only [hpre, hop]; simp; omega), if_neg (by rw [hi]; rintro (h | h); exacts [hwaiting h, by cases h])]
  unfold Chip.highestWaiting Chip.waitingAbove Chip.blocksNoted
  cases Chip.freeContext _ _ <;> rfl

end

/-! ## RELEASE_VERDICT and VI_YIELD_POINT (R222, R223) -/

/-- The device once a release check has ended, with its verdict not yet taken. -/
def Chip.checkEnded (s : Chip) : Chip := s.modCrypto fun c => { c with checking := none, checks := satAdd 32 c.checks 1 }

/-- The device once the check of a signature has ended and its release is counted. -/
def Chip.releaseCounted (s : Chip) : Chip := s.checkEnded.modCrypto fun c => { c with released := satAdd 32 c.released 1 }

/-- The device once the check of a signature has ended and it is counted as withheld, the SAU faulted. -/
def Chip.withheldCounted (s : Chip) : Chip := s.checkEnded.modCrypto fun c => { c with withheld := satAdd 32 c.withheld 1, sauFault := true }

section
variable {u q : Nat} {j : JobEntry} {s : Chip} (hc : s.crypto.checking = some u) (hj : s.job u = some (q, j))
include hc hj

/-- A verified signature is its job's output. -/
theorem releaseVerdict_valid : releaseVerdict true s = (s.releaseCounted.endJob q j 0 j.signature false true).startCheck := by
  have hended : s.checkEnded.job u = some (q, j) := hj
  unfold Chip.checkEnded at hended
  unfold releaseVerdict
  rw [hc]
  dsimp only
  rw [hended]
  rfl

/-- The job of a signature that does not verify ends without output, with its record and its EMCY. -/
theorem releaseVerdict_invalid : releaseVerdict false s =
    (((s.withheldCounted.endJob q j 0x3002 [] false false).record 0x3003 3 (le 2 j.slot ++ le 1 q ++ le 2 j.id)).raise
      7200 0xFF00 0x81 0x3003 3 j.slot).startCheck := by
  have hended : s.checkEnded.job u = some (q, j) := hj
  unfold Chip.checkEnded at hended
  unfold releaseVerdict
  rw [hc]
  dsimp only
  rw [hended]
  rfl

end

/-- The device once the job on the VI is suspended with the time that it estimates to need yet. -/
def Chip.viYielded (s : Chip) (q : Nat) (j : JobEntry) (us : Nat) : Chip :=
  (s.modJob q j.uid fun x => { x with phase := .suspended, remaining := us }).modCrypto fun c =>
    { c with running := c.running.erase 8, viSuspended := c.viSuspended ++ [j.uid], yields := satAdd 32 c.yields 1 }

/-- A waiting release check takes the VI from the job that runs there, while a suspension area is free. -/
theorem viYieldPoint_yields {u q : Nat} {j : JobEntry} {s : Chip} (hu : s.crypto.running.find? 8 = some u) (hj : s.job u = some (q, j))
    (hw : s.crypto.checkWaits.isSome = true) (hl : s.crypto.viSuspended.length < 4) (us : Nat) :
    viYieldPoint us s = (s.viYielded q j us).startCheck := by
  unfold viYieldPoint
  rw [hu, Option.bind_some, hj]
  exact if_pos ⟨.inl hw, hl⟩

/-- Settles O35: each event is the equation of its case, read back by what the end, the start and the suspension of a job leave of the engines. -/
theorem engineRows : Obligations.EngineRows := by
  unfold Obligations.EngineRows
  refine ⟨fun e s h => ?_, fun e q p j s ht hf hr hchosen => ⟨fun hd => ?_, fun hd hn hs => ?_⟩, fun e s ht h => ?_, fun e s h => ?_,
    fun e u q j s hu hj hop => ⟨fun h => ?_, fun hs hd => ?_⟩, fun p tag id s r c h => ⟨fun e he => ⟨fun hp => ?_, fun hp => ?_⟩, fun he hn => ?_⟩,
    fun e n u q j s hu hj ht hq hp hop ha hm hb hw hi => ?_, fun u q j s hc hj => ⟨?_, ?_⟩, fun us u q j s hu hj hw hl => ?_⟩
  · exact congrArg (next s) (engineDispatch_occupied h)
  · refine ⟨_, congrArg (next s) (engineDispatch_starts ht hf hr hchosen), ?_⟩
    have hserved : j.readsInput = false ∨ s.chip.dramServes = true := by
      rcases hd with hd | hd | hd
      · exact .inl (by unfold JobEntry.readsInput; rw [hd]; rfl)
      · exact .inl (by unfold JobEntry.readsInput; rw [Option.isNone_eq_false_iff.mpr hd]; exact Bool.and_false _)
      · exact .inr hd
    obtain ⟨hrunning, hpointers⟩ := Chip.startJob_crypto (eng := engineNo e) (q := q) (p := p) hserved
    dsimp only
    rw [hrunning, hpointers]
    exact ⟨(SMap.find_put ..).trans (if_pos rfl), (SMap.get_put ..).trans (if_pos rfl), Within.ofChip (Only.startJob hserved)⟩
  · have hreads : j.readsInput = true := by unfold JobEntry.readsInput; rw [hd, hn]; rfl
    obtain ⟨queues, hended⟩ := s.chip.endJob_crypto q j 0x0004 [] false false
    refine ⟨_, congrArg (next s) ((engineDispatch_starts ht hf hr hchosen).trans (Chip.startJob_unserved hreads hs)), ?_,
      Within.ofChip ((Only.endJob _).mono (by simp))⟩
    dsimp only
    rw [hended]
  · exact congrArg (next s) (engineDispatch_idle ht h)
  · exact congrArg (next s) (jobComplete_idle h)
  · exact congrArg (next s) (jobComplete_held hu hj h)
  · exact congrArg (next s) ((jobComplete_works hu hj hs hd).trans (Chip.workDone_plain hop))
  · rw [exec_completionAcknowledge h, acknowledge_done he hp]; rfl
  · rw [exec_completionAcknowledge h, acknowledge_incomplete he hp]; rfl
  · rw [exec_completionAcknowledge h, acknowledge_unknown he hn]; rfl
  · have hgives := preemptionBoundary_waiting ⟨hu, hj, ht, hq, hp, hop, ha, hm, hb⟩ hw hi
    have hnoted := Only.blocksNoted (q := q) (j := j) (n := n) s.chip
    refine ⟨fun i hlt hfree hbelow => ?_, fun hfull => ?_⟩
    · rw [Chip.freeContext_lowest (s := s.chip.blocksNoted q j n) hlt hfree hbelow, Option.elim_some] at hgives
      exact ⟨_, congrArg (next s) hgives, (SMap.find_erase ..).trans (if_pos rfl), (SMap.find_put ..).trans (if_pos rfl),
        fun k hk => (SMap.find_put ..).trans (if_neg hk), rfl, rfl, Within.ofChip (hnoted.comp (Only.contextSaved _))⟩
    · rw [Chip.freeContext_none (s := s.chip.blocksNoted q j n) hfull, Option.elim_none] at hgives
      exact ⟨_, congrArg (next s) hgives, rfl, rfl, rfl, Within.ofChip (hnoted.comp (Only.preemptionDeclined _))⟩
  · refine ⟨_, congrArg (next s) (releaseVerdict_valid hc hj), ?_⟩
    obtain ⟨queues, hended⟩ := s.chip.releaseCounted.endJob_crypto q j 0 j.signature false true
    obtain ⟨waits, checking, longest, hchecks⟩ := (s.chip.releaseCounted.endJob q j 0 j.signature false true).startCheck_crypto
    dsimp only
    rw [hchecks, hended]
    exact ⟨rfl, rfl, rfl⟩
  · refine ⟨_, congrArg (next s) (releaseVerdict_invalid hc hj), ?_⟩
    obtain ⟨queues, hended⟩ := s.chip.withheldCounted.endJob_crypto q j 0x3002 [] false false
    obtain ⟨waits, checking, longest, hchecks⟩ := (((s.chip.withheldCounted.endJob q j 0x3002 [] false false).record 0x3003 3
      (le 2 j.slot ++ le 1 q ++ le 2 j.id)).raise 7200 0xFF00 0x81 0x3003 3 j.slot).startCheck_crypto
    dsimp only
    rw [hchecks, (Only.raise _).get .crypto, (Only.record _).get .crypto, hended]
    exact ⟨rfl, rfl, rfl, rfl⟩
  · obtain ⟨waits, checking, longest, hchecks⟩ := (s.chip.viYielded q j us).startCheck_crypto
    refine ⟨_, congrArg (next s) (viYieldPoint_yields hu hj hw hl us), ?_⟩
    dsimp only
    rw [hchecks]
    exact ⟨(SMap.find_erase ..).trans (if_pos rfl), rfl, rfl,
      Within.ofChip (((Only.modJob _).comp (Only.modCrypto _)).comp (Only.startCheck _))⟩

end Sys2Proof.Machine
end

section
/-! SUPPORT. Entropy, the DRBG and the nonce reserve (R203, R226, R227): what each event does from each state of the source and of the
generator. -/

namespace Sys2Proof.Machine

/-! ## ENTROPY_TEST_FAILURE (R226) -/

/-- A source that fails is recorded. -/
theorem Only.entropyFailed {n} (s : Chip) : Only [.crypto, .recorder] s (s.entropyFailed n) :=
  ((Only.modCrypto s).mono (by simp)).comp ((Only.record _).mono (by simp))

theorem Chip.entropyFailed_crypto (s : Chip) (n : Nat) :
    (s.entropyFailed n).crypto = { s.crypto with entropy := .failed, entropyAt := s.clk.ticks, badBlocks := 0 } := by
  unfold Chip.entropyFailed
  rw [(Only.record _).get .crypto]
  rfl

theorem entropyTestFailure_failed {s : Chip} (h : s.crypto.entropy = .failed) (x : EntropyTest) : entropyTestFailure x s = s := if_pos (.inl h)

/-- The start-up test, made while the SI loads, fails the source at its first failing block. -/
theorem entropyTestFailure_startUp {s : Chip} (h : s.crypto.entropy = .startUp) (hi : s.island 3 = .loading) :
    entropyTestFailure .startUp s = s.entropyFailed 1 := by
  unfold entropyTestFailure
  rw [if_neg (by simp [h, hi])]
  exact if_pos h

/-- The device once a failing block of the repetition test is counted, and whether a passing block stood since the last failing one is chosen. -/
def Chip.repetitionCounted (s : Chip) : Chip :=
  (s.modCrypto fun c => { c with repetition := satAdd 32 c.repetition 1 }).drawBool.2

/-- Failing blocks that follow one another, the present one included. -/
def Chip.failingBlocks (s : Chip) : Nat := if (s.drawBool).1 then 1 else s.crypto.badBlocks + 1

/-- A failing block of a running source counts, and the third in a row fails the source. -/
theorem entropyTestFailure_repetition {s : Chip} (h : s.crypto.entropy = .healthy) (hi : s.island 3 = .running) :
    entropyTestFailure .repetition s =
      if 3 ≤ s.failingBlocks then s.repetitionCounted.entropyFailed 2
      else s.repetitionCounted.modCrypto fun c => { c with badBlocks := s.failingBlocks } := by
  unfold entropyTestFailure
  rw [if_neg (by simp [h, hi])]
  rfl

theorem Only.repetitionCounted (s : Chip) : Only [.crypto, .free] s s.repetitionCounted :=
  ((Only.modCrypto s).mono (by simp)).comp ((Only.drawBool _).mono (by simp))

theorem Chip.failingBlocks_cases (s : Chip) : s.failingBlocks = 1 ∨ s.failingBlocks = s.crypto.badBlocks + 1 := by
  unfold Chip.failingBlocks
  split
  · exact .inl rfl
  · exact .inr rfl

/-! ## ENTROPY_RETEST and DRBG_RESEED (R226, R227) -/

/-- The seeding of the DRBG starts a new count of requests, and leaves the source and its counters. -/
theorem Chip.drbgTake_crypto (s : Chip) (anew : Bool) : ∃ key v, (s.drbgTake anew).crypto =
    { s.crypto with drbgKey := key, drbgV := v, drbgUp := true, drbgRequests := 0, drbgAt := s.clk.ticks,
                    reseeds := if anew then s.crypto.reseeds else satAdd 32 s.crypto.reseeds 1 } := ⟨_, _, rfl⟩

section
variable {s : Chip} (h : s.crypto.entropy = .failed) (hp : s.passedUs s.crypto.entropyAt 1000000 = true)
include h hp

/-- A retest that passes makes the source healthy and instantiates the DRBG. -/
theorem entropyRetest_passes : entropyRetest true s =
    (s.modCrypto fun c => { c with entropy := .healthy, entropyAt := s.clk.ticks }).drbgTake true := by
  unfold entropyRetest
  rw [if_neg (by simp [h, hp])]
  rfl

theorem entropyRetest_fails : entropyRetest false s = s.modCrypto fun c => { c with entropyAt := s.clk.ticks } := by
  unfold entropyRetest
  rw [if_neg (by simp [h, hp])]
  rfl

end

theorem drbgReseed_due {s : Chip} (hu : s.crypto.drbgUp = true) (h : s.crypto.entropy ≠ .failed) (hn : 1024 ≤ s.crypto.drbgRequests) :
    drbgReseed s = s.drbgTake false := if_pos ⟨hu, h, .inl hn⟩

theorem drbgReseed_failed {s : Chip} (h : s.crypto.entropy = .failed) : drbgReseed s = s := if_neg fun hd => hd.2.1 h

/-! ## NONCE_RESERVE_FILL (R203) -/

theorem Only.foldl_snd {α β : Type _} {ps : List Part} (f : β × Chip → α → β × Chip) (h : ∀ d x, Only ps d.2 (f d x).2) (l : List α)
    (d : β × Chip) : Only ps d.2 (l.foldl f d).2 := by
  induction l generalizing d with
  | nil => exact Only.refl _ _
  | cons x l ih => exact (h d x).comp (ih (f d x))

/-- The DRBG's output, of any length, reaches the DRBG alone. -/
theorem Only.drbgOutput {n : Nat} (s : Chip) : Only [.free, .crypto] s (s.drbg n).2 := by
  unfold Chip.drbg
  refine Only.foldl_snd _ (fun d i => ?_) _ ([], s)
  exact Only.drbgRequest d.2

theorem reserveFill_gated {s : Chip} (h : s.drbgGate ≠ 0) : reserveFill s = s := if_pos h

/-- The reserve filled up from DRBG output. -/
def Chip.filledReserve (s : Chip) : List Bytes :=
  (s.keys.reserve ++ (List.range (256 - s.keys.reserve.length)).map fun i => slice (s.drbg (16 * (256 - s.keys.reserve.length))).1 (16 * i) 16).take 256

theorem Chip.filledReserve_length (s : Chip) : s.filledReserve.length = 256 := by
  simp only [Chip.filledReserve, List.length_take, List.length_append, List.length_map, List.length_range]
  omega

/-- With the generator working, the reserve is filled and the rest of the key store is as it was. -/
theorem reserveFill_keys {s : Chip} (h : s.drbgGate = 0) : (reserveFill s).keys = { s.keys with reserve := s.filledReserve } := by
  unfold reserveFill
  dsimp only
  rw [if_neg (not_not.mpr h), Chip.modKeys_keys, (Only.drbgOutput s).get .keys]
  rfl

theorem Only.reserveFill (s : Chip) : Only [.keys, .crypto, .free] s (reserveFill s) := by
  unfold Machine.reserveFill
  exact Only.ite (Only.refl s _) (((Only.drbgOutput s).mono (by simp)).comp ((Only.modKeys _).mono (by simp)))

/-- Settles O36: each event is the equation of its case, and a failing block of a running source ends as `entropyTestFailure_repetition` counts it. -/
theorem entropyRows : Obligations.EntropyRows := by
  unfold Obligations.EntropyRows
  refine ⟨fun x s h => ?_, fun s h hi => ?_, fun s h hi => ?_, fun s h hp => ⟨?_, ?_⟩, fun s hu h hn => ?_, fun s h => ?_, fun s h => ?_, fun s h => ?_⟩
  · exact congrArg (next s) (entropyTestFailure_failed h x)
  · refine ⟨_, congrArg (next s) (entropyTestFailure_startUp h hi), ?_⟩
    dsimp only
    rw [Chip.entropyFailed_crypto]
    exact ⟨rfl, rfl, Within.ofChip (Only.entropyFailed _)⟩
  · refine ⟨_, congrArg (next s) (entropyTestFailure_repetition h hi), ?_⟩
    have hcounted : Only [.crypto, .recorder, .free] s.chip s.chip.repetitionCounted := (Only.repetitionCounted _).mono (by simp)
    dsimp only
    split
    · next hthird =>
      rw [Chip.entropyFailed_crypto]
      refine ⟨rfl, fun hb => ?_, .inl rfl, Within.ofChip (hcounted.comp ((Only.entropyFailed _).mono (by simp)))⟩
      have := s.chip.failingBlocks_cases
      omega
    · exact ⟨rfl, fun _ => h, .inr s.chip.failingBlocks_cases, Within.ofChip (hcounted.comp ((Only.modCrypto _).mono (by simp)))⟩
  · refine ⟨_, congrArg (next s) (entropyRetest_passes h hp), ?_⟩
    obtain ⟨key, v, hseeded⟩ := Chip.drbgTake_crypto (s.chip.modCrypto fun c => { c with entropy := .healthy, entropyAt := s.chip.clk.ticks }) true
    dsimp only
    rw [hseeded]
    exact ⟨rfl, rfl, rfl, Within.ofChip (((Only.modCrypto _).mono (by simp)).comp ((Only.drbgTake _).mono (by simp)))⟩
  · exact ⟨_, congrArg (next s) (entropyRetest_fails h hp), h, rfl, Within.ofChip (Only.modCrypto _)⟩
  · refine ⟨_, congrArg (next s) (drbgReseed_due hu h hn), ?_⟩
    obtain ⟨key, v, hseeded⟩ := s.chip.drbgTake_crypto false
    dsimp only
    rw [hseeded]
    exact ⟨rfl, rfl, rfl, Within.ofChip ((Only.drbgTake _).mono (by simp))⟩
  · exact congrArg (next s) (drbgReseed_failed h)
  · refine ⟨{ s with chip := reserveFill s.chip }, rfl, ?_⟩
    dsimp only
    rw [reserveFill_keys h]
    exact ⟨s.chip.filledReserve_length, rfl, Within.ofChip (Only.reserveFill _)⟩
  · exact congrArg (next s) (reserveFill_gated h)

end Sys2Proof.Machine
end

section
/-! SUPPORT. The words of the sequencer instructions (R247, Table 9.3). -/

namespace Sys2Proof.Machine

/-- The opcode of an instruction (Table 9.3). -/
def SeqOp.opcode : SeqOp → Nat
  | .nop => 0 | .play _ _ => 1 | .plays _ => 2 | .loop _ => 3 | .endl => 4 | .call _ => 5 | .ret => 6 | .jmp _ => 7 | .jev _ _ => 8
  | .evarm _ _ => 9 | .evdis _ => 10 | .wait _ => 11 | .barw _ => 13 | .sfw _ => 14 | .drop => 15 | .alg _ => 16 | .halt => 17
  | .evclr _ => 18

/-- Bits 31:26 of an instruction's word hold its opcode. -/
theorem opcode_encodeOp (i : SeqOp) : ((encodeOp i).extractLsb' 26 6).toNat = i.opcode := by
  cases i <;> simp only [encodeOp, SeqOp.opcode, BitVec.extractLsb'_append_eq_of_le, Nat.reduceLeDiff, Nat.reduceSub] <;> rfl

/-- The fields of an instruction's word are its operands, each where Table 9.3 places it. -/
theorem fieldsOp_encodeOp (i : SeqOp) : fieldsOp (encodeOp i) = some i := by
  unfold fieldsOp
  rw [opcode_encodeOp]
  cases i <;> simp only [SeqOp.opcode, encodeOp, BitVec.extractLsb'_append_eq_of_le, Nat.reduceLeDiff, Nat.reduceSub,
    BitVec.extractLsb'_append_eq_right]

theorem decodeOp_encodeOp (i : SeqOp) : decodeOp (encodeOp i) = some i := by
  unfold decodeOp
  rw [fieldsOp_encodeOp]
  exact if_pos rfl

theorem encodeOp_of_decodeOp {w : Word32} {i : SeqOp} (h : decodeOp w = some i) : encodeOp i = w := by
  unfold decodeOp at h
  split at h
  next j _ =>
    split at h
    next hw => rw [← Option.some.inj h, hw]
    next => cases h
  next => cases h

/-- Settles O21: an instruction's word has its opcode and its operands where Table 9.3 places them (`fieldsOp_encodeOp`), and a word is read
only as the instruction that it is the word of. -/
theorem sequencerWordRoundTrip : Obligations.SequencerWordRoundTrip := by
  unfold Obligations.SequencerWordRoundTrip
  refine ⟨decodeOp_encodeOp, fun w i => ⟨fun h => (encodeOp_of_decodeOp h).symm, ?_⟩⟩
  rintro rfl
  exact decodeOp_encodeOp i

end Sys2Proof.Machine
end

section
/-! SUPPORT. An SFW over an injector's job that has ended (R213, R322). -/

namespace Sys2Proof.Machine

/-- A device whose sequencer 0 stands at SFW 0 and plays its mask of site 0, while the injector's job of an earlier request of that site has
ended in the key queue (R213). -/
def Chip.sfwOverEndedJob : Chip :=
  { seqs := [(0, { state := .running, progLen := 1, masks := [1, 0, 0, 0], store := [(0, encodeOp (.sfw 0))] })]
    sealed_ := { sites := [(0, { job := some 1 })] }
    crypto := { queues := [(0, { entries := [{ uid := 1, phase := .done }] })] } }

theorem sfwOverEndedJob_atOp : Chip.sfwOverEndedJob.atOp 0 (.sfw 0) := ⟨rfl, by decide, rfl, by decide⟩

/-- The SFW frees the injector's entry. -/
theorem opSfw_frees_ended_job : ((opSfw 0 Chip.sfwOverEndedJob).queue 0).entries = [] := by decide

theorem sfwOverEndedJob_entries : (Chip.sfwOverEndedJob.queue 0).entries ≠ [] := by decide

/-- Refutes O24: an SFW frees the injector's entry of a job that has ended (`Chip.freeInjector`, R213), so that it changes a key queue
beside the sequencers and the sealed sites, which the statement's frame of SFW forbids. -/
theorem not_waitingInstructions : ¬ Obligations.WaitingInstructions := by
  unfold Obligations.WaitingInstructions
  rintro ⟨-, -, hsfw, -⟩
  obtain ⟨t, ht, -, -, -, -, -, honly, -, -⟩ := hsfw 0 0 { chip := Chip.sfwOverEndedJob } sfwOverEndedJob_atOp
  obtain rfl : { chip := opSfw 0 Chip.sfwOverEndedJob } = t := Host.Outcome.next.inj ht
  have hkept : (opSfw 0 Chip.sfwOverEndedJob).crypto = Chip.sfwOverEndedJob.crypto := honly.get .crypto
  have hentries := opSfw_frees_ended_job
  unfold Chip.queue at hentries
  rw [hkept] at hentries
  exact sfwOverEndedJob_entries hentries

end Sys2Proof.Machine
end

section
/-! SUPPORT. The instruction at a running sequencer's program counter (R247), and the control instructions: program counter and stacks (R248). -/

namespace Sys2Proof.Machine

/-! ## One instruction (R247) -/

/-- Where instruction `i` stands, the command that runs it does what `f` gives for it. -/
theorem Chip.runOp_at {s : Chip} {q : Nat} {i : SeqOp} {f : Seq → SeqOp → Option (Chip → Chip)} {g : Chip → Chip} (h : s.atOp q i)
    (hf : f (s.sq q) i = some g) : s.runOp q f = g s := by
  obtain ⟨hrun, hpc, hdrop, hop⟩ := h
  unfold Chip.runOp
  dsimp only
  rw [if_neg (by simp [hrun, hpc, hdrop]), hop]
  dsimp only
  rw [hf]

/-- An instruction that changes its sequencer alone is a step of that sequencer. -/
theorem seqStep_of_op {c : Instr} {s : State} {q : Nat} {i : SeqOp} {f : Seq → SeqOp → Option (Chip → Chip)} {g : Seq → Seq}
    (hc : exec c s = next s (s.chip.runOp q f)) (h : s.chip.atOp q i) (hf : f (s.chip.sq q) i = some fun s => s.modSq q g) :
    ∃ t, exec c s = .next t ∧ SeqStep q (g (s.chip.sq q)) s t :=
  ⟨_, hc.trans (congrArg (next s) (Chip.runOp_at h hf)), seqStep_modSq q g s⟩

/-! ## The stacks (R248) -/

/-- Sequencer `x` in the body of the loop at its program counter, with `n` passes left behind the first. -/
def Seq.looped (n : Nat) (x : Seq) : Seq := { x.nextOp with loops := ⟨x.pc, n⟩ :: x.loops }

/-- Sequencer `x` in the subroutine at `t`. -/
def Seq.called (t : Nat) (x : Seq) : Seq := { x.goto t with calls := ⟨x.pc + 1, x.loops.length⟩ :: x.calls }

theorem Seq.endLoop_last {x : Seq} {l : LoopFrame} {ls : List LoopFrame} (hl : x.loops = l :: ls) (h0 : l.left = 0) :
    x.endLoop = { x.goto (x.pc + 1) with loops := ls } := by
  unfold Seq.endLoop
  rw [hl]
  exact if_pos h0

theorem Seq.endLoop_again {x : Seq} {l : LoopFrame} {ls : List LoopFrame} (hl : x.loops = l :: ls) (h0 : 0 < l.left) :
    x.endLoop = { x.goto (l.start + 1) with loops := { l with left := l.left - 1 } :: ls } := by
  unfold Seq.endLoop
  rw [hl]
  exact if_neg h0.ne'

theorem Seq.return_cons {x : Seq} {c : CallFrame} {cs : List CallFrame} (hc : x.calls = c :: cs) :
    x.return = { x.goto c.ret with calls := cs, loops := x.loops.drop (x.loops.length - c.loops) } := by
  unfold Seq.return
  rw [hc]

/-- Settles O22: each instruction changes its sequencer alone (`seqStep_of_op`); ENDL and RET by the equation of the stack's top. -/
theorem controlInstructions : Obligations.ControlInstructions := by
  unfold Obligations.ControlInstructions
  intro q s
  refine ⟨fun h => seqStep_of_op (g := Seq.nextOp) rfl h rfl, fun n h => seqStep_of_op (g := Seq.looped n.toNat) rfl h rfl, fun l ls h hl => ⟨fun h0 => ?_, fun h0 => ?_⟩,
    fun a h => seqStep_of_op (g := Seq.called a.toNat) rfl h rfl, fun c cs h hc => ?_, fun a h => seqStep_of_op (g := Seq.jump a.toNat) rfl h rfl⟩
  · rw [← Seq.endLoop_last hl h0]
    exact seqStep_of_op (g := Seq.endLoop) rfl h rfl
  · rw [← Seq.endLoop_again hl h0]
    exact seqStep_of_op (g := Seq.endLoop) rfl h rfl
  · rw [← Seq.return_cons hc]
    exact seqStep_of_op (g := Seq.return) rfl h rfl

end Sys2Proof.Machine
end

section
/-! SUPPORT. A sequencer after the operations that its events share: hold vectors (R254), the ring (R244), barriers (R255) and abandoned
fields (R329). -/

namespace Sys2Proof.Machine

/-! ## Hold vectors (R254) -/

/-- Sequencer `x` after `n` hold vectors. -/
def Seq.holds (n : Nat) (x : Seq) : Seq :=
  { x with tb := x.tb + n * x.periodUnits x.lastSet, vecIndex := x.vecIndex + n, vectors := (x.vectors + n) % 2 ^ 64, markers := 0, lastHold := true }

/-- From `x` to `y` only hold vectors have gone out: the run's place in time and the markers have changed. -/
def Seq.HeldTo (x y : Seq) : Prop :=
  y = { x with tb := y.tb, vecIndex := y.vecIndex, vectors := y.vectors, markers := y.markers, lastHold := y.lastHold, held := y.held }

theorem Seq.HeldTo.refl (x : Seq) : x.HeldTo x := rfl

/-- What hold vectors do not reach. -/
theorem Seq.HeldTo.field {α : Type _} {x y : Seq} (h : x.HeldTo y) (f : Seq → α) :
    f y = f { x with tb := y.tb, vecIndex := y.vecIndex, vectors := y.vectors, markers := y.markers, lastHold := y.lastHold, held := y.held } :=
  congrArg f h

theorem Chip.sq_fixLanes (s : Chip) (q n j : Nat) : (s.fixLanes q n).sq j = s.sq j := (Only.eachLane s).sq (by decide) j

theorem Chip.sq_emitHolds {s : Chip} {q n : Nat} (hn : n ≠ 0) : (s.emitHolds q n).sq q = (s.sq q).holds n := by
  unfold Chip.emitHolds
  rw [if_neg hn, Chip.sq_modSq, if_pos rfl, Chip.sq_fixLanes]
  rfl

theorem Chip.sq_emitHolds_ne (s : Chip) {q j : Nat} (n : Nat) (hj : j ≠ q) : (s.emitHolds q n).sq j = s.sq j := by
  unfold Chip.emitHolds
  split
  · rfl
  · rw [Chip.sq_modSq, if_neg hj, Chip.sq_fixLanes]

theorem Chip.emitHolds_heldTo (s : Chip) (q n : Nat) : (s.sq q).HeldTo ((s.emitHolds q n).sq q) := by
  by_cases hn : n = 0
  · subst hn
    exact Seq.HeldTo.refl _
  · rw [Chip.sq_emitHolds hn]
    rfl

theorem Chip.sq_emitWaits_ne (s : Chip) {q j : Nat} (n : Nat) (hj : j ≠ q) : (s.emitWaits q n).sq j = s.sq j := by
  unfold Chip.emitWaits
  rw [Chip.sq_modSq, if_neg hj, s.sq_emitHolds_ne n hj]

theorem Chip.emitWaits_heldTo (s : Chip) (q n : Nat) : (s.sq q).HeldTo ((s.emitWaits q n).sq q) := by
  have hholds := s.emitHolds_heldTo q n
  unfold Chip.emitWaits
  rw [Chip.sq_modSq, if_pos rfl]
  generalize (s.emitHolds q n).sq q = y at hholds
  unfold Seq.HeldTo at hholds
  rw [hholds]
  rfl

theorem Only.emitWaits {q n} (s : Chip) : Only [.lanes, .seqs] s (s.emitWaits q n) := (Only.emitHolds s).comp ((Only.modSq _).mono (by simp))

/-- Before a jump only hold vectors go out. -/
theorem Chip.holdForJump_heldTo (s : Chip) (q : Nat) : (s.sq q).HeldTo ((s.holdForJump q).sq q) := by
  unfold Chip.holdForJump
  dsimp only
  split
  · exact Seq.HeldTo.refl _
  · split
    · exact s.emitWaits_heldTo q _
    · split
      · split
        · exact s.emitHolds_heldTo q _
        · exact Seq.HeldTo.refl _
      · exact Seq.HeldTo.refl _

/-- A sequencer that neither waits nor is within a WAIT emits no hold vectors of itself before a jump. -/
theorem Chip.holdForJump_none {s : Chip} {q : Nat} (hrun : (s.sq q).state = .running) (hdrop : (s.sq q).dropDue = false)
    (hop : ∀ n, (s.sq q).op (s.sq q).pc ≠ some (.wait n)) : s.holdForJump q = s := by
  unfold Chip.holdForJump
  dsimp only
  split
  · rfl
  · rw [if_neg (by simp [hrun, hdrop])]
    split
    next n hw => exact absurd hw (hop n)
    next => rfl

/-! ## The ring (R244) -/

/-- Sequencer `x` with its ring empty. -/
def Seq.ringless (x : Seq) : Seq := { x with ring := [], fetching := [], fetch := {} }

theorem Chip.sq_clearRing (s : Chip) (q j : Nat) : (s.clearRing q).sq j = if j = q then (s.sq q).ringless else s.sq j := by
  unfold Chip.clearRing
  have hcancel := fun j => (Only.dramCancel (f := fun r => r.cls == .playback && r.owner == q) s).sq (by decide) j
  rw [Chip.sq_modSq, hcancel, hcancel]
  rfl

/-- Sequencer `x` with its ring empty, fetching from its program counter. -/
def Seq.refetched (x : Seq) : Seq :=
  { x with ring := [], fetching := [], fetch := { pc := x.pc, loops := x.loops, calls := x.calls, time := x.tb - x.held, set := x.lastSet } }

theorem Chip.sq_refetch (s : Chip) (q j : Nat) : (s.refetch q).sq j = if j = q then (s.sq q).refetched else s.sq j := by
  unfold Chip.refetch
  rw [Chip.sq_modSq, Chip.sq_clearRing, Chip.sq_clearRing, if_pos rfl]
  split <;> rfl

theorem Only.refetch {q} (s : Chip) : Only [.dram, .seqs] s (s.refetch q) := (Only.clearRing s).comp ((Only.modSq _).mono (by simp))

/-! ## Barriers (R255, R438 to R441) -/

/-- A fold whose every step leaves sequencer `q` as `x` leaves it so. -/
theorem Chip.sq_foldl {α : Type _} {q : Nat} {x : Seq} {f : Chip → α → Chip} (h : ∀ s n, s.sq q = x → (f s n).sq q = x) (l : List α)
    {s : Chip} (hs : s.sq q = x) : (l.foldl f s).sq q = x := by
  induction l generalizing s with
  | nil => exact hs
  | cons n l ih => exact ih (h s n hs)

theorem Chip.sq_resume_ne (s : Chip) {q j : Nat} (due : Nat) (hj : j ≠ q) : (s.resume q due).sq j = s.sq j := by
  unfold Chip.resume
  rw [Chip.sq_modSq, if_neg hj, s.sq_emitWaits_ne _ hj]

section
variable {s : Chip} {q b : Nat}

/-- A barrier's release leaves a sequencer that does not wait at it. -/
theorem Chip.sq_releaseBarrier (due : Nat) (h : (s.sq q).barrier ≠ some b) : (s.releaseBarrier b due).sq q = s.sq q := by
  refine Chip.sq_foldl (fun t k ht => ?_) _ rfl
  split
  next hk =>
    have hqk : q ≠ k := by
      rintro rfl
      exact h (ht ▸ hk)
    rw [t.sq_resume_ne due hqk, ht]
  next => exact ht

theorem Chip.sq_completeBarrier (h : (s.sq q).barrier ≠ some b) : (s.completeBarrier b).sq q = s.sq q := by
  unfold Chip.completeBarrier
  dsimp only
  split
  · rfl
  · split
    · split
      · rfl
      · exact (Only.record _).sq (by decide) q
    · split
      · rfl
      · have hsent : ∀ {t d x f}, ((s.sendCluster t d x).modBarrier b f).sq q = s.sq q := fun {_ _ _ _} =>
          ((Only.modBarrier _).sq (by decide) q).trans ((Only.sendCluster s).sq (by decide) q)
        rw [Chip.sq_releaseBarrier _ (by rw [hsent]; exact h), hsent]

theorem Chip.sq_sendArrive (w : Bool) (h : (s.sq q).barrier ≠ some b) : (s.sendArrive b w).sq q = s.sq q := by
  have hmod : ∀ {c : Chip} {f}, (c.modBarrier b f).sq q = c.sq q := fun {c _} => (Only.modBarrier c).sq (by decide) q
  unfold Chip.sendArrive Chip.putArrival
  dsimp only
  split
  · rw [Chip.sq_completeBarrier (by rw [hmod, hmod]; exact h), hmod, hmod]
  · split
    · rw [(Only.sendCluster _).sq (by decide) q, hmod]
    · split
      · exact hmod
      · rw [(Only.modCluster _).sq (by decide) q, hmod, hmod]

/-- Judging a barrier leaves a sequencer that does not wait at it. -/
theorem Chip.sq_evalBarrier (leaver : Option Nat) (h : (s.sq q).barrier ≠ some b) : (s.evalBarrier leaver b).sq q = s.sq q := by
  unfold Chip.evalBarrier
  dsimp only
  split
  · split
    · exact Chip.sq_releaseBarrier _ h
    · rfl
  · split
    · split
      · split
        · exact Chip.sq_sendArrive _ h
        · rfl
      · rfl
    · split
      · exact Chip.sq_sendArrive _ h
      · rfl

end

/-- A sequencer that leaves its barriers is otherwise unchanged. -/
theorem Chip.sq_leaveBarriers (s : Chip) (q : Nat) : (s.leaveBarriers q).sq q = { s.sq q with barrier := none } := by
  unfold Chip.leaveBarriers
  refine Chip.sq_foldl (fun t b ht => ?_) _ (by simp)
  rw [Chip.sq_evalBarrier _ (by rw [ht]; simp), ht]

/-! ## Abandoned fields (R325, R329) -/

theorem Only.unsealLanes {q} (s : Chip) : Only [.lanes] s (s.unsealLanes q) := Only.foldl _ (fun c _ => Only.modLane c) _ s

/-- Sequencer `x` with its wait for fields, or its sealed play, abandoned. -/
def Seq.fieldless (x : Seq) : Seq :=
  { x with playing := none, resumeAt := 0, sealedCfg := { x.sealedCfg with field := .none, windowOpen := false } }

theorem Chip.sq_abandonFields (s : Chip) (q : Nat) : (s.abandonFields q).sq q = (s.sq q).fieldless := by
  unfold Chip.abandonFields
  dsimp only
  rw [(Only.unsealLanes _).sq (by decide) q, Chip.sq_modSq, if_pos rfl]
  have hsites : ∀ (c : Chip) (k : Nat), Only [.crypto, .sealed_] c ((if (c.seal k).sent then c else c.freeInjector q k).modSeal k fun x =>
      { x with waiting := false, job := if x.sent then x.job else none, derived := false, value := [], ackEpoch := none, buffer := [], pos := 0, cause := 0 }) :=
    fun c k => (Only.ite (Only.refl c _) ((Only.freeInjector c).mono (by simp))).comp ((Only.modSeal _).mono (by simp))
  rw [(Only.foldl _ hsites _ s).sq (by decide) q]
  rfl

end Sys2Proof.Machine
end

section
/-! SUPPORT. The event latches of a sequencer, JEV, and the armed jump (R250 to R252). -/

namespace Sys2Proof.Machine

/-! ## Latches (R250) -/

theorem Seq.latch_clearLatch (x : Seq) (j i : Nat) : (x.clearLatch j).latches.getLsbD i = (x.latches.getLsbD i && decide (i ≠ j)) := by
  unfold Seq.clearLatch
  by_cases hi : i < 4
  · simp [hi, eq_comm]
  · rw [BitVec.getLsbD_of_ge _ _ (by omega), BitVec.getLsbD_of_ge x.latches _ (by omega), Bool.false_and]

theorem exec_seqEvent {q : Fin 16} {j : Fin 4} {s : State} (h : s.chip.routed (4 * q.val + j.val) = true) :
    exec (.seqEvent q j) s = next s (s.chip.seqEvent q.val j.val) := congrArg (next s) (if_pos h)

/-- Sequencer `x` with latch `j` set by an event at `t`. -/
def Seq.latched (j t : Nat) (x : Seq) : Seq := { x with latches := x.latches ||| BitVec.twoPow 4 j, eventAt := x.eventAt.put j t }

theorem Chip.seqEvent_clear {s : Chip} {q j : Nat} (hrun : s.runs 5 = true) (h : (s.sq q).latches.getLsbD j = false) :
    s.seqEvent q j = s.modSq q (Seq.latched j s.clk.action) := if_neg (by simp [hrun, h])

theorem Chip.seqEvent_set {s : Chip} {q j : Nat} (h : (s.sq q).latches.getLsbD j = true) : s.seqEvent q j = s := if_pos (.inr h)

/-! ## JEV (R251) -/

/-- What JEV of input `j` to `t` does in sequencer `q`. -/
def Chip.jev (q : Nat) (j : BitVec 2) (t : BitVec 12) (s : Chip) : Chip :=
  if s.sampled q j.toNat then (s.modSq q fun x => (x.jump t.toNat).clearLatch j.toNat).refetch q else s.modSq q Seq.nextOp

theorem exec_jev {q : Fin 16} {j : BitVec 2} {a : BitVec 12} {s : State} (h : s.chip.atOp q.val (.jev j a)) :
    exec (.jev q) s = next s (s.chip.jev q.val j a) := congrArg (next s) (Chip.runOp_at h rfl)

/-! ## The armed jump (R252) -/

/-- Sequencer `x` at the target of the jump `a` of input `j`. -/
def Seq.jumped (j : Nat) (a : ArmedJump) (x : Seq) : Seq :=
  { (x.cutPlays.goto a.target).clearLatch j with
    state := .running, loops := a.loops, calls := a.calls, jumps := x.jumps.erase j, barrier := none, dropDue := false
    gen := if x.gen.state = .running then { x.gen with state := .abandoned } else x.gen }

/-- A taken jump leaves its latch clear (R252). -/
theorem Seq.latch_jumped (x : Seq) (j : Nat) (a : ArmedJump) : (x.jumped j a).latches.getLsbD j = false := by
  have hclear := x.latch_clearLatch j j
  rw [decide_eq_false (not_not.mpr rfl), Bool.and_false] at hclear
  exact hclear

theorem Seq.vecIndex_jumped (x : Seq) (j : Nat) (a : ArmedJump) : (x.fieldless.jumped j a).refetched.vecIndex = x.vecIndex := rfl

theorem exec_armedJumpTaken (q : Fin 16) (s : State) : exec (.armedJumpTaken q) s = next s (jumpTaken q.val s.chip) := rfl

theorem jumpTaken_none {s : Chip} {q : Nat} (hh : s.holdForJump q = s) (hd : s.dueJump q = none) : jumpTaken q s = s := by
  unfold jumpTaken
  rw [hh]
  dsimp only
  rw [hd]
  split <;> rfl

/-- A jump that is due continues at its target, its fields abandoned, the ring fetched anew. -/
theorem jumpTaken_sq {s : Chip} {q j : Nat} {a : ArmedJump} (hrun : (s.sq q).state.inRun = true) (hd : (s.holdForJump q).dueJump q = some j)
    (ha : (s.sq q).jumps.find? j = some a) : (jumpTaken q s).sq q = (((s.holdForJump q).sq q).fieldless.jumped j a).refetched := by
  have hheld := s.holdForJump_heldTo q
  have hstate : ((s.holdForJump q).sq q).state = (s.sq q).state := hheld.field Seq.state
  have hjumps : ((s.holdForJump q).sq q).jumps = (s.sq q).jumps := hheld.field Seq.jumps
  unfold jumpTaken
  dsimp only
  rw [if_neg (by simp [hstate, hrun]), hd]
  dsimp only
  rw [hjumps, ha]
  generalize hc : Chip.refetch q _ = c
  have hfetch : c.sq q = (((s.holdForJump q).sq q).fieldless.jumped j a).refetched := by
    rw [← hc, Chip.sq_refetch, if_pos rfl, Chip.sq_modSq, if_pos rfl, Chip.sq_abandonFields]
    rfl
  split
  · exact (Chip.sq_evalBarrier none (by rw [hfetch]; nofun)).trans hfetch
  · exact hfetch

/-- Sequencer `x` with the jump of input `j` armed, to return to the present stacks. -/
def Seq.jumpArmed (j t : Nat) (x : Seq) : Seq :=
  { x.nextOp with jumps := x.jumps.put j { target := t, loops := cutLoops x.pairs x.pc t x.loops, calls := x.calls } }

/-- Sequencer `x` with the jump of input `j` disarmed. -/
def Seq.jumpDisarmed (j : Nat) (x : Seq) : Seq := { x.nextOp with jumps := x.jumps.erase j }

/-- Settles O23: an instruction's case by its equation, the armed jump by `jumpTaken_sq`: only hold vectors go out before it, and no barrier
that it leaves reaches its sequencer again. -/
theorem eventInstructions : Obligations.EventInstructions := by
  unfold Obligations.EventInstructions
  refine ⟨fun q j s hr h5 => ⟨fun hl => ?_, fun hl => ?_⟩, fun q j a s h => ⟨fun hl => ?_, fun hl => ?_⟩,
    fun q j a s h => seqStep_of_op (g := Seq.jumpArmed j.toNat a.toNat) rfl h rfl,
    fun q j s h => seqStep_of_op (g := Seq.jumpDisarmed j.toNat) rfl h rfl,
    fun q j s h => ?_, fun q j a s hrun hd ha => ?_, fun q s hrun hdrop hop hd => ?_⟩
  · refine ⟨_, (exec_seqEvent hr).trans (congrArg (next s) (Chip.seqEvent_clear h5 hl)), ?_⟩
    dsimp only
    rw [Chip.sq_modSq, if_pos rfl]
    refine ⟨?_, ?_, rfl, Within.ofChip (Only.modSq _)⟩
    · simp [Seq.latched]
    · simp [Seq.latched, SMap.get_put]
  · rw [exec_seqEvent hr, Chip.seqEvent_set hl]
    rfl
  · refine ⟨_, exec_jev h, ?_⟩
    dsimp only
    unfold Chip.jev
    rw [if_pos hl, Chip.sq_refetch, if_pos rfl, Chip.sq_modSq, if_pos rfl]
    refine ⟨rfl, ?_, rfl, h.1, fun i hi => ?_, Within.ofChip (((Only.modSq _).mono (by simp)).comp ((Only.refetch _).mono (by simp)))⟩
    · exact (Seq.latch_clearLatch _ _ _).trans (by simp)
    · rw [Chip.sq_refetch, if_neg hi, Chip.sq_modSq, if_neg hi]
  · refine ⟨_, exec_jev h, ?_⟩
    unfold Chip.jev
    rw [if_neg (by simp [hl])]
    exact seqStep_modSq q.val Seq.nextOp s
  · obtain ⟨t, ht, hsq, -, hw⟩ := seqStep_of_op (c := .evclr q) (g := fun x => x.nextOp.clearLatch j.toNat) rfl h rfl
    refine ⟨t, ht, ?_⟩
    rw [hsq, Seq.latch_clearLatch]
    refine ⟨by simp, rfl, fun i hi => ?_, hw⟩
    rw [Seq.latch_clearLatch]
    exact (Bool.and_eq_left_iff_imp.mpr fun _ => decide_eq_true hi)
  · refine ⟨_, exec_armedJumpTaken q s, ?_⟩
    dsimp only
    rw [jumpTaken_sq hrun hd ha]
    exact ⟨rfl, rfl, rfl, Seq.latch_jumped _ j a, rfl, rfl, Seq.vecIndex_jumped _ j a⟩
  · rw [exec_armedJumpTaken, jumpTaken_none (Chip.holdForJump_none hrun hdrop hop) hd]
    rfl

end Sys2Proof.Machine
end

section
/-! SUPPORT. Exchanges of segments and refills of the ring (R242, R244), and a sequencer's arm, disarm and stop (R246, R258, R262, R263). -/

namespace Sys2Proof.Machine

/-! ## The exchange (R242) -/

theorem exec_segmentExchangeStage {p : Path} {tag a b : Word16} {s : State} {r : Req} {c : Chip}
    (h : gate p tag 0x3300 5 (le 2 a.toNat ++ le 2 b.toNat) (fun _ _ => segRange a.toNat b.toNat) s.chip = .go r c) :
    exec (.segmentExchangeStage p tag a b) s = next s (Chip.finish r.dest (stageExchange a.toNat b.toNat r c)) := congrArg (next s) (hostWrite_go h)

theorem exec_segmentExchangeApply (a : BitVec 14) (s : State) : exec (.segmentExchangeApply a) s = next s (exchangeApply a.toNat s.chip) := rfl

theorem exchangeApply_active {s : Chip} {a : Nat} (h : s.segActive a = true) : exchangeApply a s = s := by
  unfold exchangeApply
  split
  · exact if_pos h
  · rfl

theorem exchangeApply_pending {s : Chip} {a b : Nat} (hp : s.segs.exchanges = [(a, b)]) (h : s.segActive a = false) :
    exchangeApply a s = s.swapSegs a b := by
  unfold exchangeApply
  rw [hp, List.find?_cons_of_pos (by simp)]
  exact if_neg (by simp [h])

theorem Chip.desc_swapSegs (s : Chip) (a b g : Nat) : (s.swapSegs a b).desc g =
    if g = b then { s.desc b with offset := (s.desc a).offset } else if g = a then { s.desc a with offset := (s.desc b).offset } else s.desc g := by
  refine (SMap.get_set _ _ _ _ _).trans ?_
  rw [SMap.get_set]
  rfl

theorem Only.swapSegs {a b} (s : Chip) : Only [.segs] s (s.swapSegs a b) := Only.modSegs s

theorem Only.exchangeApply {a} (s : Chip) : Only [.segs] s (exchangeApply a s) := by
  unfold Machine.exchangeApply
  split
  · exact Only.ite (Only.refl s _) (Only.swapSegs s)
  · exact Only.refl s _

/-! ## Refills (R244) -/

theorem exec_refillRequest (q : Fin 16) (s : State) : exec (.refillRequest q) s = next s (refillRequest q.val s.chip) := rfl

/-- Sequencer `x` with burst `b` on its way and the path followed up to `f`. -/
def Seq.asked (b : PathBurst) (f : FetchPos) (x : Seq) : Seq := { x with fetch := f, fetching := x.fetching ++ [(b.seg, b.stream)] }

theorem refillRequest_asks {s : Chip} {q : Nat} {b : PathBurst} {f : FetchPos} (hrun : (s.sq q).state = .running) (hroom : (s.sq q).ringRoom = true)
    (hway : (s.sq q).fetching.length < 16) (hfull : s.channelFull .playback = false) (hserves : s.dramServes = true)
    (hnext : s.nextBurst q pathSteps (s.sq q).fetch = (some b, f)) :
    refillRequest q s = (s.modSq q (Seq.asked b f)).dramEnqueue (s.refill q b) := by
  have hasks : ¬ ((s.sq q).ringRoom = false ∨ (s.sq q).fetching.length ≥ 16 ∨ s.channelFull .playback = true ∨ s.dramServes = false ∨
      ((s.sq q).state ≠ .armed ∧ (s.sq q).state ≠ .launchPending ∧ (s.sq q).state ≠ .running ∧ (s.sq q).state ≠ .waiting)) := by
    simp [hrun, hroom, hfull, hserves, hway]
  unfold refillRequest
  dsimp only
  rw [if_neg hasks, hnext]
  rfl

/-- Settles O20: the exchange by `Chip.desc_swapSegs`, the refill by `refillRequest_asks`. -/
theorem exchangeAndRefillRows : Obligations.ExchangeAndRefillRows := by
  unfold Obligations.ExchangeAndRefillRows
  refine ⟨fun p tag a b s r c h => ⟨fun hc => ?_, fun hc => ?_⟩, fun a b s hp ha hab => ?_, fun a s ha => ?_,
    fun q b f s hrun hroom hway hfull hserves hnext => ?_⟩
  · rw [exec_segmentExchangeStage h, show stageExchange _ _ r c = (c, bad (exchangeCode c a.toNat b.toNat)) from if_pos hc]
    rfl
  · rw [exec_segmentExchangeStage h, show stageExchange _ _ r c = (c.modSegs _, ok) from if_neg (not_not.mpr hc)]
    rfl
  · refine ⟨_, exec_segmentExchangeApply a s, ?_⟩
    dsimp only
    rw [exchangeApply_pending hp ha]
    refine ⟨?_, ?_, ?_, fun g hga hgb => ?_, Within.ofChip (Only.swapSegs _)⟩
    · rw [Chip.desc_swapSegs, if_neg hab.symm, if_pos rfl]
    · rw [Chip.desc_swapSegs, if_pos rfl]
    · exact (congrArg (List.filter _) hp).trans (by simp)
    · rw [Chip.desc_swapSegs, if_neg hgb, if_neg hga]
  · rw [exec_segmentExchangeApply, exchangeApply_active ha]
    rfl
  · refine ⟨_, exec_refillRequest q s, ?_⟩
    dsimp only
    rw [refillRequest_asks hrun hroom hway hfull hserves hnext, (Only.dramEnqueue _).sq (by decide), Chip.sq_modSq, if_pos rfl]
    exact ⟨rfl, Within.ofChip (((Only.modSq _).mono (by simp)).comp ((Only.dramEnqueue _).mono (by simp)))⟩

end Sys2Proof.Machine
end

section
/-! SUPPORT. A sequencer's arm, the end of arming, disarm and stop (R246, R258, R262, R263). -/

namespace Sys2Proof.Machine

/-! ## Idle (R263) -/

/-- Sequencer `x` at idle: nothing referenced, nothing reserved, no arm awaited. -/
def Seq.idled (x : Seq) : Seq :=
  { x.ringless with
    state := .idle, refs := [], keyRefs := [], masterRefs := [], armWaiter := none, playback := 0, capture := 0, resident := 0, ringSize := 0, barrier := none }

theorem Chip.sq_makeIdle (s : Chip) (q code : Nat) : (s.makeIdle q code).sq q = (s.sq q).idled := by
  unfold Chip.makeIdle
  dsimp only
  rw [(Only.destroyWaiting _).sq (by decide), Chip.sq_leaveBarriers, (Only.coverLanes _).sq (by decide), Chip.sq_modSq, if_pos rfl,
    (Only.completeOpt _).sq (by decide), Chip.sq_clearRing, if_pos rfl]
  rfl

/-! ## Arm (R246, R258) -/

section
variable {p : Path} {tag : Word16} {q : Fin 16} {s : State} {r : Req} {c : Chip}

theorem exec_seqArm (h : gate p tag (0x3100 + q.val) 2 [1] (fun _ _ => 0) s.chip = .go r c) :
    exec (.seqArm p tag q) s = next s (Chip.finish r.dest (armSeq q.val r c)) := congrArg (next s) (hostWrite_go h)

theorem exec_seqDisarm (h : gate p tag (0x3100 + q.val) 2 [0] (fun _ _ => 0) s.chip = .go r c) :
    exec (.seqDisarm p tag q) s = next s (Chip.finish r.dest (disarmSeq q.val r c)) := congrArg (next s) (hostWrite_go h)

theorem exec_seqStop (h : gate p tag (0x3100 + q.val) 4 [1] (fun _ _ => 0) s.chip = .go r c) :
    exec (.seqStop p tag q) s = next s (Chip.finish r.dest (stopSeq q.val r c)) := congrArg (next s) (hostWrite_go h)

end

section
variable {q : Nat} {s : Chip}

/-- A sequencer that may be armed. -/
def SeqState.armable (x : SeqState) : Prop := x = .idle ∨ x = .armed ∨ x = .parked

theorem armSeq_refused (r : Req) (h : ¬ (s.sq q).state.armable) : armSeq q r s = (s, bad 5) := by
  unfold SeqState.armable at h
  exact if_pos (by tauto)

/-- The device at the checks of an arm: behind the tracking pass that its checks up to step 6 lead to (Table 18.3). -/
def Chip.armChecked (q : Nat) (s : Chip) : Chip := if s.armEarly q = none then s.armPass else s

/-- The refusals that admission counts. -/
def Chip.countRefusal (code : Nat) (s : Chip) : Chip := if code = 0x8001 then s.modDram fun d => { d with refusals := satAdd 32 d.refusals 1 } else s

/-- Sequencer `x` with the code and the detail of a failed arm. -/
def Seq.refused (f : ArmFail) (x : Seq) : Seq := { x with refusal := BitVec.ofNat 32 (f.code + 65536 * f.detail) }

/-- An arm whose check fails leaves the sequencer idle. -/
theorem armSeq_fails (r : Req) {f : ArmFail} (h : (s.sq q).state.armable) (hf : (s.armChecked q).armFail q = some f) :
    armSeq q r s = ((((s.armChecked q).countRefusal f.code).makeIdle q 0).modSq q (Seq.refused f), bad f.code) := by
  have hnot : ¬ ((s.sq q).state ≠ .idle ∧ (s.sq q).state ≠ .armed ∧ (s.sq q).state ≠ .parked) := by
    unfold SeqState.armable at h
    tauto
  unfold Chip.armChecked at hf
  unfold armSeq
  dsimp only
  rw [if_neg hnot, hf]
  rfl

/-- An arm whose checks pass loads: the request waits for its end. -/
theorem armSeq_loads (r : Req) (h : (s.sq q).state.armable) (hf : (s.armChecked q).armFail q = none) :
    (armSeq q r s).2 = .later ∧ ((armSeq q r s).1.sq q).state = .arming ∧ ((armSeq q r s).1.sq q).armWaiter = some { dest := r.dest } ∧
    ((armSeq q r s).1.sq q).parked = 0 ∧ ((armSeq q r s).1.sq q).vectors = 0 := by
  have hnot : ¬ ((s.sq q).state ≠ .idle ∧ (s.sq q).state ≠ .armed ∧ (s.sq q).state ≠ .parked) := by
    unfold SeqState.armable at h
    tauto
  unfold Chip.armChecked at hf
  unfold armSeq
  dsimp only
  rw [if_neg hnot, hf]
  dsimp only
  have hkeys : ∀ (l : List Nat) (c : Chip), (l.foldl (fun s k => s.keepReserve k) c).sq q = c.sq q := fun l c =>
    (Only.foldl _ (fun c _ => Only.keepReserve c) l c).sq (by decide) q
  rw [hkeys, Chip.sq_modSq, if_pos rfl]
  exact ⟨rfl, rfl, rfl, rfl, rfl⟩

/-! ## The end of arming (R244, R246) -/

theorem Only.moveNow {r} (s : Chip) : Only [.dram] s (s.moveNow r) :=
  (Only.modDram s).comp (Only.foldl _ (fun c _ => (Only.modDramCh c).comp (Only.modDram _)) _ _)

theorem Only.countBad {c o k} (s : Chip) : Only [.dram, .recorder] s (s.countBad c o k) :=
  (((Only.modDram s).mono (by simp)).comp ((Only.modDramCh _).mono (by simp))).comp ((Only.record _).mono (by simp))

theorem Only.serve {r} (s : Chip) : Only [.dram, .recorder] s (s.serve r).2 := by
  unfold Chip.serve
  dsimp only
  split
  · exact ((Only.moveNow s).mono (by simp)).comp (Only.countBad _)
  · exact (Only.moveNow s).mono (by simp)

/-- Filling the ring reaches the DRAM, its error records and the sequencer's ring with its place on the path. -/
theorem Chip.prefill_frame (q n : Nat) (s : Chip) : Only [.seqs, .dram, .recorder] s (s.prefill q n) ∧ ((s.prefill q n).sq q).launch = (s.sq q).launch := by
  induction n generalizing s with
  | zero => exact ⟨Only.refl s _, rfl⟩
  | succ n ih =>
    unfold Chip.prefill
    dsimp only
    split
    · exact ⟨Only.refl s _, rfl⟩
    · split
      · obtain ⟨honly, hlaunch⟩ := ih (((s.serve (s.refill q _)).2).modSq q _)
        refine ⟨((((Only.serve s).mono (by simp)).comp ((Only.modSq _).mono (by simp)))).comp honly, hlaunch.trans ?_⟩
        rw [Chip.sq_modSq, if_pos rfl]
        dsimp only
        rw [(Only.serve s).sq (by decide)]
      · refine ⟨(Only.modSq s).mono (by simp), ?_⟩
        rw [Chip.sq_modSq, if_pos rfl]

theorem exec_armingComplete (q : Fin 16) (s : State) : exec (.armingComplete q) s = next s (armingComplete q.val s.chip) := rfl

/-- Sequencer `x` at the end of its arm: a launch from before a fault is pending again (R103). -/
def Seq.armEnded (x : Seq) : Seq := { x with state := if x.launch.isSome then .launchPending else .armed, armWaiter := none }

/-- The device with the exchanges of a sequencer's segments applied and its ring filled. -/
def Chip.filled (q : Nat) (s : Chip) : Chip :=
  ((s.sq q).refs.foldl (fun s g => exchangeApply g s) (s.clearRing q)).prefill q ((s.sq q).ringSize / 64 + 1)

theorem armingComplete_arming (h : (s.sq q).state = .arming) :
    armingComplete q s = ((s.filled q).modSq q Seq.armEnded).completeOpt (s.sq q).armWaiter 0 [] := if_neg (not_not.mpr h)

theorem armingComplete_else (h : (s.sq q).state ≠ .arming) : armingComplete q s = s := if_pos h

theorem Chip.filled_frame (q : Nat) (s : Chip) :
    Only [.seqs, .segs, .dram, .recorder] s (s.filled q) ∧ ((s.filled q).sq q).launch = (s.sq q).launch := by
  have hexchanged : ∀ (l : List Nat) (c : Chip), Only [.segs] c (l.foldl (fun s g => exchangeApply g s) c) := fun l c =>
    Only.foldl _ (fun c _ => Only.exchangeApply c) l c
  obtain ⟨honly, hlaunch⟩ := Chip.prefill_frame q ((s.sq q).ringSize / 64 + 1) ((s.sq q).refs.foldl (fun s g => exchangeApply g s) (s.clearRing q))
  refine ⟨(((Only.clearRing s).mono (by simp)).comp ((hexchanged _ _).mono (by simp))).comp (honly.mono (by simp)), hlaunch.trans ?_⟩
  rw [(hexchanged _ _).sq (by decide), Chip.sq_clearRing, if_pos rfl]
  rfl

/-! ## Disarm and stop (R262, R263) -/

theorem disarmSeq_idles (r : Req) (h : (s.sq q).state = .armed ∨ (s.sq q).state = .parked ∨ (s.sq q).state = .faulted) :
    disarmSeq q r s = (s.makeIdle q 0, ok) := if_neg (by tauto)

theorem disarmSeq_refused (r : Req) (ha : (s.sq q).state ≠ .armed) (hp : (s.sq q).state ≠ .parked) (hf : (s.sq q).state ≠ .faulted) :
    disarmSeq q r s = (s, bad 5) := if_pos ⟨ha, hp, hf⟩

/-- Sequencer `x` with its pending launch cancelled. -/
def Seq.launchCancelled (x : Seq) : Seq := { x with state := .armed, launch := none, launchHeld := false, launchMissed := false }

theorem stopSeq_pending (r : Req) (h : (s.sq q).state = .launchPending) : stopSeq q r s = (s.modSq q Seq.launchCancelled, ok) := by
  unfold stopSeq
  rw [h]
  rfl

theorem stopSeq_inRun (r : Req) (h : (s.sq q).state = .running ∨ (s.sq q).state = .waiting) : stopSeq q r s = (s.stopRun q, ok) := by
  unfold stopSeq
  rcases h with h | h <;> rw [h]

theorem stopSeq_refused (r : Req) (hp : (s.sq q).state ≠ .launchPending) (hr : (s.sq q).state ≠ .running) (hw : (s.sq q).state ≠ .waiting) :
    stopSeq q r s = (s, bad 5) := by
  unfold stopSeq
  split
  · contradiction
  · contradiction
  · contradiction
  · rfl

/-! ## The end of a run (R261) -/

theorem Only.coverAtBoundary {q l} (s : Chip) : Only [.lanes] s (s.coverAtBoundary q l) := Only.eachLane s

/-- Sequencer `x` behind the end of its run with a cause. -/
def Seq.ended (cause : Nat) (x : Seq) : Seq :=
  { x.ringless with
    state := endState cause, endCause := BitVec.ofNat 8 cause, jumps := [], loops := [], calls := [], markers := 0
    done := 0, playNo := 0, recNo := 0, recAt := 0, dropDue := false, playing := none, samplePlays := [], barrier := none
    gen := if x.gen.state = .running then { x.gen with state := .abandoned } else x.gen }

theorem Chip.sq_endSeals (s : Chip) (q cause : Nat) : (s.endSeals q cause).sq q = (s.sq q).fieldless := by
  have hsites : ∀ (c : Chip) (k : Nat), Only [.sealed_] c ((c.closeProof q k cause).modSeal k fun x => { x with uid := none, uidRefused := false }) :=
    fun c k => (Only.closeProof c).comp (Only.modSeal _)
  exact ((Only.foldl _ hsites _ _).sq (by decide) q).trans (s.sq_abandonFields q)

end

/-- The parts that capture records reach, the ends of captures among them. -/
def captureEndParts : List Part := .free :: captureParts

theorem Chip.captureRecord_reaches {u b t} (s : Chip) : Only captureEndParts s (s.captureRecord u b t) := by
  unfold Chip.captureRecord
  refine Only.ite ((Only.primerRecord s).mono (by decide)) (Only.ite ?_ (Only.refl s _))
  exact (((Only.putRecord s).mono (by decide)).comp ((Only.modUnit _).mono (by decide))).comp
    (Only.ite ((Only.captureDone _).mono (by decide)) (Only.refl _ _))

theorem Chip.endAcq_reaches (s : Chip) (q : Nat) : Only captureEndParts s (s.endAcq q) := by
  have hflush : ∀ (c : Chip) (k : Nat), Only captureEndParts c (c.flushSamples q k) := fun c k => by
    unfold Chip.flushSamples
    exact Only.ite (Only.refl c _) (((Only.modUnit c).mono (by decide)).comp (Chip.captureRecord_reaches _))
  exact ((Only.foldl _ hflush _ s).comp (Only.foldl _ (fun c _ => (Only.stopTimer c).mono (by decide)) _ _)).comp ((Only.modUnit _).mono (by decide))

/-- What the end of a run leaves of its sequencer. -/
theorem Chip.sq_endRun (s : Chip) (q cause : Nat) : (s.endRun q cause).sq q = (s.sq q).fieldless.ended cause := by
  unfold Chip.endRun
  extract_lets released covered stopped
  have hreleased : released.sq q = (s.sq q).fieldless := by
    rw [(Only.endPorts _).sq (by decide), Chip.sq_endSeals, (s.endAcq_reaches q).sq (by decide)]
  have hcovered : covered.sq q = (s.sq q).fieldless.ringless := by
    rw [Chip.sq_clearRing, if_pos rfl, (Only.eachLane _).sq (by decide)]
    refine congrArg Seq.ringless (Eq.trans ?_ hreleased)
    exact (Only.ite (c := released.coverAtBoundary q _) (Only.coverLanes released) (Only.coverAtBoundary released)).sq (by decide) q
  have hstopped : stopped.sq q = (s.sq q).fieldless.ended cause := by
    rw [Chip.sq_modSq, if_pos rfl, hcovered]
    rfl
  split
  · exact hstopped
  · rw [Chip.sq_leaveBarriers, hstopped]
    rfl

/-- Settles O18: each command by the equation of the sequencer's state; what an arm that fails and a disarm leave is `Chip.sq_makeIdle`, what
a stop leaves is `Chip.sq_endRun`. -/
theorem sequencerArmRows : Obligations.SequencerArmRows := by
  unfold Obligations.SequencerArmRows
  refine ⟨fun p tag q s r c h => ⟨fun hi ha hp => ?_, fun ha => ⟨fun f hf => ?_, fun hf => ?_⟩⟩, fun q s ha => ?_, fun q s ha => ?_,
    fun p tag q s r c h => ⟨fun hs => ?_, fun ha hp hf => ?_⟩, fun p tag q s r c h => ⟨fun hs => ?_, fun hs => ?_, fun hp hr hw => ?_⟩⟩
  · rw [exec_seqArm h, armSeq_refused r (by unfold SeqState.armable; tauto)]
    rfl
  · refine ⟨_, _, (exec_seqArm h).trans (congrArg (fun x => next s (Chip.finish r.dest x)) (armSeq_fails r ha hf)), ?_, ?_, rfl, ?_, ?_⟩
    all_goals
      rw [Chip.sq_modSq, if_pos rfl, Chip.sq_makeIdle]
      rfl
  · obtain ⟨hlater, hstate, hwaiter, hparked, hvectors⟩ := armSeq_loads r ha hf
    refine ⟨_, exec_seqArm h, ?_⟩
    have hfinish : Chip.finish r.dest (armSeq q.val r c) = (armSeq q.val r c).1 := by
      unfold Chip.finish
      rw [hlater]
    dsimp only
    rw [hfinish]
    exact ⟨hstate, hwaiter, hparked, hvectors⟩
  · obtain ⟨honly, hlaunch⟩ := Chip.filled_frame q.val s.chip
    refine ⟨_, exec_armingComplete q s, ?_⟩
    dsimp only
    rw [armingComplete_arming ha, (Only.completeOpt _).sq (by decide), Chip.sq_modSq, if_pos rfl, ← hlaunch]
    exact ⟨rfl, rfl, Within.ofChip (((honly.mono (by simp)).comp ((Only.modSq _).mono (by simp))).comp ((Only.completeOpt _).mono (by simp)))⟩
  · rw [exec_armingComplete, armingComplete_else ha]
    rfl
  · refine ⟨_, (exec_seqDisarm h).trans (congrArg (fun x => next s (Chip.finish r.dest x)) (disarmSeq_idles r hs)), ?_, ?_, ?_⟩
    all_goals
      rw [Chip.sq_makeIdle]
      rfl
  · rw [exec_seqDisarm h, disarmSeq_refused r ha hp hf]
    rfl
  · refine ⟨_, (exec_seqStop h).trans (congrArg (fun x => next s (Chip.finish r.dest x)) (stopSeq_pending r hs)), ?_, ?_, Only.modSq c⟩
    all_goals
      rw [Chip.sq_modSq, if_pos rfl]
      rfl
  · refine ⟨_, (exec_seqStop h).trans (congrArg (fun x => next s (Chip.finish r.dest x)) (stopSeq_inRun r hs)), ?_, ?_⟩
    all_goals
      unfold Chip.stopRun
      rw [Chip.sq_endRun]
      rfl
  · rw [exec_seqStop h, stopSeq_refused r hp hr hw]
    rfl

end Sys2Proof.Machine
end

section
/-! SUPPORT. One vector of a sequencer: what its emission reaches (R237, R253, R264, R277, R310, R330 to R351). -/

namespace Sys2Proof.Machine

/-! ## What one vector reaches beside its sequencer and its lanes -/

/-- The parts that a vector reaches beside its sequencer and its lanes: capture with its records, fields with their proofs, and ports. -/
def besideParts : List Part := [.acq, .sealed_, .segs, .dram, .free, .recorder]

/-- The parts that a vector reaches. -/
def vectorParts : List Part := [.seqs, .lanes, .acq, .sealed_, .segs, .dram, .free, .recorder]

/-- From `x` to `y` only the place of the generator has changed. -/
def Seq.GenTo (x y : Seq) : Prop := y = { x with gen := { x.gen with position := y.gen.position, opsDone := y.gen.opsDone } }

theorem Seq.GenTo.trans {x y z : Seq} (h : x.GenTo y) (k : y.GenTo z) : x.GenTo z := by
  unfold Seq.GenTo at *
  rw [k, h]

/-- From `a` to `b` the vector of sequencer `q` has done its work: no other sequencer has changed, and no lane has another owner. -/
structure VectorWork (q : Nat) (a b : Chip) : Prop where
  only : Only vectorParts a b
  others : ∀ j, j ≠ q → b.sq j = a.sq j
  owner : ∀ n, (b.lane n).owner = (a.lane n).owner
  seq : (a.sq q).GenTo (b.sq q)

section
variable {q : Nat} {a b c : Chip}

theorem VectorWork.trans (h : VectorWork q a b) (k : VectorWork q b c) : VectorWork q a c :=
  ⟨h.only.comp k.only, fun j hj => (k.others j hj).trans (h.others j hj), fun n => (k.owner n).trans (h.owner n), h.seq.trans k.seq⟩

/-- Work beside the sequencers and the lanes. -/
theorem VectorWork.beside (h : Only besideParts a b) : VectorWork q a b :=
  ⟨h.mono (by decide), fun j _ => h.sq (by decide) j, fun n => congrArg Lane.owner (h.lane (by decide) n), by rw [h.sq (by decide) q]; rfl⟩

theorem VectorWork.refl (a : Chip) : VectorWork q a a := VectorWork.beside (Only.refl a _)

theorem VectorWork.ite {p : Prop} [Decidable p] (h : VectorWork q a b) (k : VectorWork q a c) : VectorWork q a (if p then b else c) := by
  split <;> assumption

theorem VectorWork.foldl {α : Type _} (f : Chip → α → Chip) (h : ∀ s x, VectorWork q s (f s x)) (l : List α) (s : Chip) : VectorWork q s (l.foldl f s) := by
  induction l generalizing s with
  | nil => exact VectorWork.refl s
  | cons x l ih => exact (h s x).trans (ih (f s x))

/-- A lane changes and keeps its owner. -/
theorem VectorWork.modLane (s : Chip) (n : Nat) {f : Lane → Lane} (hf : ∀ l, (f l).owner = l.owner) : VectorWork q s (s.modLane n f) := by
  have h : Only [.lanes] s (s.modLane n f) := Only.modLane s
  refine ⟨h.mono (by decide), fun j _ => h.sq (by decide) j, fun m => ?_, by rw [h.sq (by decide) q]; rfl⟩
  rw [Chip.lane_modLane]
  split
  next hm => rw [hf, hm]
  next => rfl

end

/-! ## Drive (R238, R274, R275, R285, R315) -/

theorem Lane.owner_drive (t : TimingSet) (n sym tb : Nat) (l : Lane) : (l.drive t n sym tb).owner = l.owner := by
  unfold Lane.drive
  split <;> rfl

/-- A lane without its codes. -/
def Lane.codeless (l : Lane) : Lane := { l with codes := {}, target := {}, fresh := [] }

/-- Fixing the codes of vectors reaches a lane's codes only (R285). -/
theorem Lane.fix_codeless (missed : Nat → Nat) (n : Nat) (l : Lane) : (l.fix missed n).codeless = l.codeless := by
  have hfold : ∀ (es : List (Nat × EdgeCodes)) (a : Lane × Nat), (es.foldl
      (fun a e => (({ a.1.nearer (missed e.1 - a.2) with target := e.2 } : Lane), max a.2 (missed e.1))) a).1.codeless = a.1.codeless := by
    intro es
    induction es with
    | nil => exact fun a => rfl
    | cons e es ih => exact fun a => ih _
  exact hfold (l.fresh.filter fun e => decide (missed e.1 < n)) (l, 0)

theorem Lane.owner_fix (missed : Nat → Nat) (n : Nat) (l : Lane) : (l.fix missed n).owner = l.owner := by
  have howner := congrArg Lane.owner (l.fix_codeless missed n)
  exact howner

theorem Chip.fixLanes_work (s : Chip) (q n : Nat) : VectorWork q s (s.fixLanes q n) :=
  VectorWork.foldl _ (fun c m => VectorWork.modLane c m fun l => Lane.owner_fix _ n l) _ s

theorem Chip.takeBits_reaches (q : Nat) (l : List (Nat × Nat × Nat)) (s : Chip) : Only [.sealed_] s (Chip.takeBits q l s).2 := by
  induction l generalizing s with
  | nil => exact Only.refl s _
  | cons e l ih =>
    unfold Chip.takeBits
    split
    · exact (Only.modSeal s).comp (ih _)
    · exact ih s

theorem Chip.driveLanes_work (s : Chip) (q : Nat) (t : TimingSet) (l : List (Nat × Nat × Nat)) : VectorWork q s (s.driveLanes q t l) :=
  VectorWork.ite (VectorWork.refl s) (VectorWork.foldl _ (fun c (e : Nat × Nat × Nat) => VectorWork.modLane c e.1 fun l => l.owner_drive _ _ _ _) _ s)

/-! ## Markers, compares and records (R253, R304, R337 to R351) -/

theorem Only.startTimer {u t k} (s : Chip) : Only captureParts s (s.startTimer u t k) := by
  unfold Chip.startTimer
  exact Only.ite (Only.refl s _) ((Only.ite (Only.responseRecord s) (Only.refl s _)).comp ((Only.modSiteAq _).mono (by decide)))

theorem Only.markerApplies {q m t} (s : Chip) : Only [.segs, .free] s (s.markerApplies q m t) := by
  refine Only.foldl _ (fun c k => ?_) _ s
  split
  · exact Only.ite (((Only.drawBytes c).mono (by simp)).comp ((Only.modPort _).mono (by simp))) (Only.refl c _)
  · exact Only.refl c _

theorem Only.assertMarkers {q t r} (s : Chip) : Only besideParts s (s.assertMarkers q t r) := by
  refine Only.foldl _ (fun c m => ?_) _ s
  exact (Only.ite (Only.foldl _ (fun c _ => (Only.startTimer c).mono (by decide)) _ c) (Only.refl c _)).comp ((Only.markerApplies _).mono (by decide))

theorem Chip.countResults_work (s : Chip) (q : Nat) (t : TimingSet) (o : Judged) (v : Nat) (l : List (Nat × Nat × Nat)) :
    VectorWork q s (s.countResults t o v l) := by
  refine VectorWork.foldl _ (fun c e => ?_) _ s
  have hlane : VectorWork q c (c.modLane e.1 (Lane.result v (failsOn t o e.1 e.2.1))) := VectorWork.modLane c e.1 fun _ => rfl
  exact hlane.trans (VectorWork.ite (VectorWork.beside ((Only.modSiteAq _).mono (by decide))) (VectorWork.refl _))

theorem Only.vectorTriggers {q t o r f} (s : Chip) : Only captureParts s (s.vectorTriggers q t o r f) := Only.ite (Only.trigger s) (Only.refl s _)

theorem Only.failRecord {q k b t} (s : Chip) : Only captureEndParts s (s.failRecord q k b t) :=
  Only.ite (((Only.modSiteAq s).mono (by decide)).comp (Chip.captureRecord_reaches _)) ((Only.modUnit s).mono (by decide))

theorem Only.failRecords {q t v l} (s : Chip) : Only captureEndParts s (s.failRecords q t v l) :=
  Only.ite (Only.foldl _ (fun c _ => Only.failRecord c) _ s) (Only.refl s _)

theorem Only.captureVector {q t v o l} (s : Chip) : Only captureEndParts s (s.captureVector q t v o l) := by
  have hstep : Only captureEndParts s (s.streamStep q 0).2 := (Only.modUnit s).mono (by decide)
  exact Only.ite (Only.ite (hstep.comp (Chip.captureRecord_reaches _)) hstep) (Only.refl s _)

theorem Only.uidBits {u k t b} (s : Chip) : Only besideParts s (s.uidBits u k t b) := by
  unfold Chip.uidBits
  refine Only.ite (Only.refl s _) (Only.ite ((Only.modSiteAq s).mono (by decide)) ?_)
  have hoffered : ∀ {f x}, Only besideParts s ((s.modSiteAq k f).offerUid k x) := fun {_ _} =>
    ((Only.modSiteAq s).mono (by decide)).comp ((Only.modSeal _).mono (by decide))
  exact Only.ite (hoffered.comp ((Only.putRecord _).mono (by decide))) hoffered

theorem Only.uidVector {q t o l} (s : Chip) : Only besideParts s (s.uidVector q t o l) := by
  refine Only.ite (Only.refl s _) (Only.foldl _ (fun c k => ?_) _ s)
  split
  · exact Only.refl c _
  · exact Only.ite (Only.uidBits c) (Only.refl c _)

theorem Only.proofVector {q t l} (s : Chip) : Only [.sealed_] s (s.proofVector q t l) := by
  refine Only.foldl _ (fun c k => ?_) _ s
  dsimp only
  split
  · exact Only.refl c _
  · exact Only.ite (Only.modSeal c) (Only.refl c _)

theorem Only.algRecord {q k a} (s : Chip) : Only captureEndParts s (s.algRecord q k a) := Only.ite (Only.failRecord s) (Only.refl s _)

/-- Sequencer `q` changes in its generator's place alone. -/
theorem VectorWork.modGen (s : Chip) (q : Nat) {f : Seq → Seq} (hf : ∀ x, Seq.GenTo x (f x)) : VectorWork q s (s.modSq q f) := by
  have h : Only [.seqs] s (s.modSq q f) := Only.modSq s
  refine ⟨h.mono (by decide), fun j hj => (s.sq_modSq ..).trans (if_neg hj), fun n => congrArg Lane.owner (h.lane (by decide) n), ?_⟩
  rw [Chip.sq_modSq, if_pos rfl]
  exact hf _

theorem Chip.algVector_work (s : Chip) (q t : Nat) (a : AlgVec) (o : Judged) (l fails : List Nat) : VectorWork q s (s.algVector q t a o l fails) := by
  unfold Chip.algVector
  extract_lets ks collected recorded
  have hcollected : Only besideParts s collected := Only.ite (Only.refl s _) (Only.foldl _ (fun c _ => (Only.modSiteAq c).mono (by decide)) _ s)
  have hrecorded : Only besideParts collected recorded :=
    Only.ite (Only.foldl _ (fun c _ => (Only.algRecord c).mono (by decide)) _ collected) (Only.refl collected _)
  exact (VectorWork.beside (hcollected.comp hrecorded)).trans (VectorWork.modGen recorded q fun _ => rfl)

/-! ## The vector -/

/-- Sequencer `x` behind a vector of timing set `set`, its latest C_CLOSE at `close`. -/
def Seq.vectorOut (set markers close : Nat) (x : Seq) : Seq :=
  { x with
    tb := x.tb + x.periodUnits set, vecIndex := x.vecIndex + 1, vectors := (x.vectors + 1) % 2 ^ 64, markers := BitVec.ofNat 4 markers, lastSet := set
    lastHold := false, lastClose := max x.lastClose close }

/-- A vector does its work, and its sequencer goes on to the next boundary. -/
theorem Chip.emitVector_work (s : Chip) (q : Nat) (v : Vec) (obs : LaneObs) :
    ∃ w close, VectorWork q s w ∧ s.emitVector q v obs = w.modSq q (Seq.vectorOut v.set v.markers close) := by
  unfold Chip.emitVector
  extract_lets fixed o x t time rising b lanes driven counted fails judged failing cps triggered captured recorded uids proved observed
  have hfixed : VectorWork q s fixed := s.fixLanes_work q 1
  have htaken : VectorWork q fixed b.2 := VectorWork.beside ((Chip.takeBits_reaches q v.lanes fixed).mono (by decide))
  have hdriven : VectorWork q b.2 driven := (b.2.driveLanes_work q t lanes).trans (VectorWork.beside (Only.assertMarkers _))
  have hjudged : VectorWork q driven judged := driven.countResults_work q t o x.vecIndex counted
  have hfailing : VectorWork q judged failing := VectorWork.ite (VectorWork.refl _) (VectorWork.beside ((Only.modUnit _).mono (by decide)))
  have htriggered : VectorWork q failing triggered := VectorWork.ite (VectorWork.beside ((Only.vectorTriggers _).mono (by decide))) (VectorWork.refl _)
  have hcaptured : VectorWork q triggered captured := VectorWork.ite (VectorWork.beside ((Only.captureVector _).mono (by decide))) (VectorWork.refl _)
  have hrecorded : VectorWork q captured recorded := by
    unfold recorded
    split
    · exact captured.algVector_work ..
    · exact VectorWork.beside ((Only.failRecords _).mono (by decide))
  have huids : VectorWork q recorded uids := VectorWork.ite (VectorWork.beside (Only.uidVector _)) (VectorWork.refl _)
  have hproved : VectorWork q uids proved := VectorWork.beside ((Only.proofVector _).mono (by decide))
  have hobserved : VectorWork q proved observed := VectorWork.foldl _ (fun c n => VectorWork.modLane c n fun l => by split <;> rfl) _ proved
  exact ⟨observed, _, (((((((((hfixed.trans htaken).trans hdriven).trans hjudged).trans hfailing).trans htriggered).trans hcaptured).trans
    hrecorded).trans huids).trans hproved).trans hobserved, rfl⟩

end Sys2Proof.Machine
end

section
/-! SUPPORT. PLAY, PLAYS and ALG one vector at a time, and the start of a sealed play (R237, R264, R299, R310, R324). -/

namespace Sys2Proof.Machine

/-! ## The place in a play (R264) -/

theorem Only.completeFields {q} (s : Chip) : Only [.seqs, .sealed_, .lanes] s (s.completeFields q) := by
  have hsites : ∀ l : List Nat, Only [.seqs, .sealed_, .lanes] s (l.foldl (fun s k => s.modSeal k fun x => { x with run := { x.run with completed := x.run.completed + 1 } }) s) :=
    fun l => Only.foldl _ (fun c _ => (Only.modSeal c).mono (by simp)) l s
  exact ((hsites _).comp ((Only.modSq _).mono (by simp))).comp ((Only.unsealLanes _).mono (by simp))

/-- Sequencer `x` with its sealed play completed. -/
def Seq.fieldsCompleted (n : Nat) (x : Seq) : Seq :=
  { x with playing := none, sealedCfg := { x.sealedCfg with field := .none, completed := satAdd 32 x.sealedCfg.completed n } }

theorem Chip.sq_completeFields (s : Chip) (q j : Nat) :
    (s.completeFields q).sq j = if j = q then (s.sq q).fieldsCompleted (s.sq q).livingSites.length else s.sq j := by
  have hsites : ∀ (l : List Nat) i, (l.foldl (fun s k => s.modSeal k fun x => { x with run := { x.run with completed := x.run.completed + 1 } }) s).sq i = s.sq i :=
    fun l i => (Only.foldl _ (fun c _ => Only.modSeal c) l s).sq (by decide) i
  unfold Chip.completeFields
  dsimp only
  rw [(Only.unsealLanes _).sq (by decide), Chip.sq_modSq, hsites, hsites]
  rfl

/-- Sequencer `x` behind one vector of a record. -/
def Seq.repeated (x : Seq) : Seq := { x with done := x.done + 1, recAt := x.recAt + 1 }

/-- Sequencer `x` behind the last repeat of a record, whose data leaves the ring. -/
def Seq.recordOut (ring : List RingBurst → List RingBurst) (x : Seq) : Seq := { x.repeated with recNo := x.recNo + 1, recAt := 0, ring := ring x.ring }

/-- Sequencer `x` behind the last record of a play. -/
def Seq.playOut (ring : List RingBurst → List RingBurst) (x : Seq) : Seq := { x.recordOut ring with playNo := x.playNo + 1, recNo := 0 }

/-- What the end of a record takes out of the ring. -/
def Chip.takeStreams (s : Chip) (streams : List Stream) (ring : List RingBurst) : List RingBurst :=
  streams.foldl (fun r e => if (s.desc e.seg).resident then r else takeRing e.seg e.mask (s.desc e.seg).recBytes r) ring

/-- Sequencer `x` behind one vector of a play: its place moves by a repeat, a record, a play or an instruction, and a sealed play that has
played to its end is completed. -/
def Seq.stepped (reps count repeats fields : Nat) (ring : List RingBurst → List RingBurst) (x : Seq) : Seq :=
  if x.recAt + 1 < reps then x.repeated
  else if x.recNo + 1 < count then x.recordOut ring
  else if x.playNo + 1 < repeats then x.playOut ring
  else if x.playing.isSome then (x.playOut ring).nextOp.fieldsCompleted fields
  else (x.playOut ring).nextOp

theorem Chip.sq_stepRecord (s : Chip) (q reps count repeats : Nat) (streams : List Stream) :
    ∃ fields ring, (s.stepRecord q reps count repeats streams).sq q = (s.sq q).stepped reps count repeats fields ring := by
  unfold Chip.stepRecord
  extract_lets vector record play next
  have hvector : vector.sq q = (s.sq q).repeated := (s.sq_modSq ..).trans (if_pos rfl)
  have hrecord : record.sq q = (s.sq q).recordOut (vector.takeStreams streams) := by
    rw [Chip.sq_modSq, if_pos rfl, hvector]
    rfl
  have hplay : play.sq q = (s.sq q).playOut (vector.takeStreams streams) := by
    rw [Chip.sq_modSq, if_pos rfl, hrecord]
    rfl
  have hnext : next.sq q = ((s.sq q).playOut (vector.takeStreams streams)).nextOp := by
    rw [Chip.sq_modSq, if_pos rfl, hplay]
  refine ⟨(next.sq q).livingSites.length, vector.takeStreams streams, ?_⟩
  have hcompleted : (if (next.sq q).playing.isSome then next.completeFields q else next).sq q =
      if (s.sq q).playing.isSome then (next.sq q).fieldsCompleted (next.sq q).livingSites.length else next.sq q := by
    rw [show (s.sq q).playing = (next.sq q).playing by rw [hnext]; rfl]
    split
    · exact (next.sq_completeFields ..).trans (if_pos rfl)
    · rfl
  unfold Seq.stepped
  rw [show (vector.sq q).recAt = (s.sq q).recAt + 1 by rw [hvector]; rfl]
  split
  · exact hvector
  · rw [show (record.sq q).recNo = (s.sq q).recNo + 1 by rw [hrecord]; rfl]
    split
    · exact hrecord
    · rw [show (play.sq q).playNo = (s.sq q).playNo + 1 by rw [hplay]; rfl]
      split
      · exact hplay
      · rw [hcompleted, hnext]

theorem Chip.stepRecord_frame (s : Chip) (q reps count repeats : Nat) (streams : List Stream) :
    Only [.seqs, .sealed_, .lanes] s (s.stepRecord q reps count repeats streams) ∧
      ∀ j, j ≠ q → (s.stepRecord q reps count repeats streams).sq j = s.sq j := by
  have hmod : ∀ {f} (c : Chip), Only [.seqs, .sealed_, .lanes] c (c.modSq q f) := fun c => (Only.modSq c).mono (by simp)
  unfold Chip.stepRecord
  extract_lets vector record play next
  refine ⟨(hmod s).comp (Only.ite (Only.refl _ _) ((hmod vector).comp (Only.ite (Only.refl _ _) ((hmod record).comp
    (Only.ite (Only.refl _ _) ((hmod play).comp (Only.ite (Only.completeFields next) (Only.refl _ _)))))))), fun j hj => ?_⟩
  have hvector : vector.sq j = s.sq j := (s.sq_modSq ..).trans (if_neg hj)
  have hrecord : record.sq j = s.sq j := ((vector.sq_modSq ..).trans (if_neg hj)).trans hvector
  have hplay : play.sq j = s.sq j := ((record.sq_modSq ..).trans (if_neg hj)).trans hrecord
  have hnext : next.sq j = s.sq j := ((play.sq_modSq ..).trans (if_neg hj)).trans hplay
  split
  · exact hvector
  · split
    · exact hrecord
    · split
      · exact hplay
      · split
        · rw [Chip.sq_completeFields, if_neg hj, hnext]
        · exact hnext

/-- Sequencer `x` has become `w` by the emission of one vector, whose place in the play is not yet counted. -/
structure Seq.VectorOut (set markers : Nat) (x w : Seq) : Prop where
  tb : w.tb = x.tb + x.periodUnits set
  vecIndex : w.vecIndex = x.vecIndex + 1
  vectors : w.vectors = (x.vectors + 1) % 2 ^ 64
  lastSet : w.lastSet = set
  markers : w.markers = BitVec.ofNat 4 markers
  state : w.state = x.state
  loops : w.loops = x.loops
  calls : w.calls = x.calls
  pc : w.pc = x.pc
  playNo : w.playNo = x.playNo
  recNo : w.recNo = x.recNo
  recAt : w.recAt = x.recAt
  ring : w.ring = x.ring

/-- Counting the place of a vector leaves time, counts, markers and stacks. -/
theorem Seq.stepped_keeps (reps count repeats fields : Nat) (ring : List RingBurst → List RingBurst) (w : Seq) :
    let y := w.stepped reps count repeats fields ring
    y.tb = w.tb ∧ y.vecIndex = w.vecIndex ∧ y.vectors = w.vectors ∧ y.lastSet = w.lastSet ∧ y.markers = w.markers ∧ y.state = w.state ∧
      y.loops = w.loops ∧ y.calls = w.calls := by
  intro y
  unfold y Seq.stepped
  split
  · exact ⟨rfl, rfl, rfl, rfl, rfl, rfl, rfl, rfl⟩
  · split
    · simp only [Seq.recordOut, Seq.repeated, and_self]
    · split
      · simp only [Seq.playOut, Seq.recordOut, Seq.repeated, and_self]
      · split
        · simp only [Seq.fieldsCompleted, Seq.nextOp, Seq.playOut, Seq.recordOut, Seq.repeated, and_self]
        · simp only [Seq.nextOp, Seq.playOut, Seq.recordOut, Seq.repeated, and_self]

/-- The place of a vector within its instruction, counted. -/
theorem Seq.stepped_place (reps count repeats fields : Nat) (ring : List RingBurst → List RingBurst) (w : Seq) :
    let y := w.stepped reps count repeats fields ring
    (w.recAt + 1 < reps → y.pc = w.pc ∧ y.playNo = w.playNo ∧ y.recNo = w.recNo ∧ y.recAt = w.recAt + 1 ∧ y.ring = w.ring) ∧
      (reps ≤ w.recAt + 1 → w.recNo + 1 < count → y.pc = w.pc ∧ y.playNo = w.playNo ∧ y.recNo = w.recNo + 1 ∧ y.recAt = 0) ∧
      (reps ≤ w.recAt + 1 → count ≤ w.recNo + 1 → w.playNo + 1 < repeats → y.pc = w.pc ∧ y.playNo = w.playNo + 1 ∧ y.recNo = 0 ∧ y.recAt = 0) ∧
      (reps ≤ w.recAt + 1 → count ≤ w.recNo + 1 → repeats ≤ w.playNo + 1 →
        y.pc = w.pc + 1 ∧ y.done = 0 ∧ y.playNo = 0 ∧ y.recNo = 0 ∧ y.recAt = 0) := by
  intro y
  unfold y Seq.stepped
  refine ⟨fun h => ?_, fun h hc => ?_, fun h hc hp => ?_, fun h hc hp => ?_⟩
  · rw [if_pos h]
    exact ⟨rfl, rfl, rfl, rfl, rfl⟩
  · rw [if_neg (Nat.not_lt.mpr h), if_pos hc]
    exact ⟨rfl, rfl, rfl, rfl⟩
  · rw [if_neg (Nat.not_lt.mpr h), if_neg (Nat.not_lt.mpr hc), if_pos hp]
    exact ⟨rfl, rfl, rfl, rfl⟩
  · rw [if_neg (Nat.not_lt.mpr h), if_neg (Nat.not_lt.mpr hc), if_neg (Nat.not_lt.mpr hp)]
    split <;> exact ⟨rfl, rfl, rfl, rfl, rfl⟩

/-- The vector whose place is counted is one vector of the play. -/
theorem Seq.VectorOut.playsOne {set markers reps count repeats fields : Nat} {x w : Seq} {ring : List RingBurst → List RingBurst}
    (h : Seq.VectorOut set markers x w) : Seq.PlaysOne x (w.stepped reps count repeats fields ring) set reps markers count repeats := by
  obtain ⟨htb, hvec, hvectors, hset, hmarkers, hstate, hloops, hcalls, hpc, hplay, hrec, hat, hring⟩ := h
  obtain ⟨ktb, kvec, kvectors, kset, kmarkers, kstate, kloops, kcalls⟩ := w.stepped_keeps reps count repeats fields ring
  have hplace := w.stepped_place reps count repeats fields ring
  rw [hat, hrec, hplay, hpc, hring] at hplace
  exact ⟨ktb.trans htb, kvec.trans hvec, kvectors.trans hvectors, kset.trans hset, kmarkers.trans hmarkers, kstate.trans hstate,
    kloops.trans hloops, kcalls.trans hcalls, hplace⟩

/-! ## One vector of a PLAY or PLAYS (R233, R237, R264, R299) -/

/-- The records of a segment are what the descriptors and the DRAM hold. -/
theorem Chip.vecRec_eq (s : Chip) (g i : Nat) : s.vecRec g i = ({ segs := s.segs, dram := s.dram } : Chip).vecRec g i := rfl

theorem Chip.beginPlay_frame (s : Chip) (q : Nat) (streams : List Stream) :
    Only [.seqs, .acq] s (s.beginPlay q streams) ∧ (∀ j, j ≠ q → (s.beginPlay q streams).sq j = s.sq j) ∧
      (s.beginPlay q streams).sq q = { s.sq q with samplePlays := ((s.beginPlay q streams).sq q).samplePlays } := by
  unfold Chip.beginPlay
  extract_lets x g d fresh
  have hfresh : Only [.acq] s fresh := Only.ite (Only.foldl _ (fun c _ => Only.modSiteAq c) _ s) (Only.refl s _)
  have hsq : ∀ j, fresh.sq j = s.sq j := fun j => hfresh.sq (by decide) j
  split
  · exact ⟨Only.refl s _, fun _ _ => rfl, rfl⟩
  · split
    · refine ⟨(hfresh.mono (by simp)).comp ((Only.modSq _).mono (by simp)), fun j hj => ?_, ?_⟩
      · rw [Chip.sq_modSq, if_neg hj, hsq]
      · rw [Chip.sq_modSq, if_pos rfl, hsq]
    · exact ⟨hfresh.mono (by simp), fun j _ => hsq j, by rw [hsq]⟩

/-- Sequencer `x` as its hold vectors of a sample segment find it. -/
def Seq.setZero (x : Seq) : Seq := { x with lastSet := 0 }

/-- One vector of a record of the streams of instruction `i`: a hold vector of set 0 for each sample, and otherwise the record's. -/
def Chip.playOne (q : Nat) (i : SeqOp) (o : LaneObs) (s : Chip) : Chip :=
  let streams := s.streams q i
  let d := s.desc (leadSeg streams)
  let u := s.beginPlay q streams
  if d.sample then ((u.modSq q Seq.setZero).emitHolds q 1).stepRecord q 1 d.count i.repeats streams
  else (u.emitVector q (u.playVec q (s.sq q).recNo streams).1 o).stepRecord q (u.playVec q (s.sq q).recNo streams).2 d.count i.repeats streams

theorem Chip.playNext_some {s : Chip} {q : Nat} {i : SeqOp} (h : s.atOp q i) (o : LaneObs) (hs : s.streams q i ≠ [])
    (hp : ∀ e ∈ s.streams q i, s.playable q e.seg e.mask (s.sq q).recNo = true) : s.playNext q o = some (s.playOne q i o) := by
  obtain ⟨hrun, -, -, hop⟩ := h
  have hall : ¬ ((s.sq q).state ≠ .running ∨ s.streams q i = [] ∨ (s.streams q i).any (fun e => !s.playable q e.seg e.mask (s.sq q).recNo) = true) := by
    simp only [hrun, hs, List.any_eq_true, Bool.not_eq_true']
    rintro (h | h | ⟨e, he, hn⟩)
    · exact h rfl
    · exact h
    · simp [hp e he] at hn
  unfold Chip.playNext Chip.playOne
  dsimp only
  rw [hop]
  dsimp only
  rw [if_neg hall]
  split <;> rfl

theorem Chip.playNext_none {s : Chip} {q : Nat} {i : SeqOp} (h : s.atOp q i) (o : LaneObs) {e : Stream} (he : e ∈ s.streams q i)
    (hp : s.playable q e.seg e.mask (s.sq q).recNo = false) : s.playNext q o = none := by
  obtain ⟨-, -, -, hop⟩ := h
  unfold Chip.playNext
  dsimp only
  rw [hop]
  dsimp only
  exact if_pos (.inr (.inr (List.any_eq_true.mpr ⟨e, he, by rw [hp]; rfl⟩)))

theorem Chip.playObs_one {s t : Chip} {q : Nat} {o : LaneObs} (h : s.playNext q o = some t) : s.playObs q (s.sq q).pc [o] = t := by
  unfold Chip.playObs
  rw [if_neg (not_not.mpr rfl), h]
  rfl

theorem Chip.playObs_none {s : Chip} {q : Nat} {o : LaneObs} (h : s.playNext q o = none) : s.playObs q (s.sq q).pc [o] = s := by
  unfold Chip.playObs
  rw [if_neg (not_not.mpr rfl), h]

/-- One vector of a record, as the sequencer shows it; no other sequencer changes. -/
theorem Chip.playOne_plays (s : Chip) (q : Nat) (i : SeqOp) (o : LaneObs) :
    let d := s.desc (leadSeg (s.streams q i))
    let h := s.vecRec (leadSeg (s.streams q i)) (s.sq q).recNo
    Seq.PlaysOne (s.sq q) ((s.playOne q i o).sq q) (if d.sample then 0 else h.set) (if d.sample then 1 else h.reps) (if d.sample then 0 else h.markers)
        d.count i.repeats ∧
      (∀ j, j ≠ q → (s.playOne q i o).sq j = s.sq j) ∧ Only vectorParts s (s.playOne q i o) := by
  intro d h
  obtain ⟨honly, hothers, hseq⟩ := s.beginPlay_frame q (s.streams q i)
  generalize hu : s.beginPlay q (s.streams q i) = u at honly hothers hseq
  have hbegun : Only vectorParts s u := honly.mono (by decide)
  unfold Chip.playOne
  dsimp only
  rw [hu]
  split
  next hsample =>
    have hd : d.sample = true := hsample
    generalize hv : (u.modSq q Seq.setZero).emitHolds q 1 = v
    have hheld : Only vectorParts u v := by
      rw [← hv]
      exact ((Only.modSq u).mono (by decide)).comp ((Only.emitHolds _).mono (by decide))
    have hvq : v.sq q = ((u.modSq q Seq.setZero).emitHolds q 1).sq q := by rw [hv]
    rw [Chip.sq_emitHolds one_ne_zero, Chip.sq_modSq, if_pos rfl, hseq] at hvq
    have hvj : ∀ j, j ≠ q → v.sq j = s.sq j := fun j hj => by
      rw [← hv, Chip.sq_emitHolds_ne _ _ hj, Chip.sq_modSq, if_neg hj, hothers j hj]
    obtain ⟨hstep, hothers'⟩ := v.stepRecord_frame q 1 d.count i.repeats (s.streams q i)
    obtain ⟨fields, ring, hsq⟩ := v.sq_stepRecord q 1 d.count i.repeats (s.streams q i)
    refine ⟨?_, fun j hj => (hothers' j hj).trans (hvj j hj), (hbegun.comp hheld).comp (hstep.mono (by decide))⟩
    rw [show (v.stepRecord q 1 (s.desc (leadSeg (s.streams q i))).count i.repeats (s.streams q i)).sq q = _ from hsq, hvq]
    refine Seq.VectorOut.playsOne ⟨?_, rfl, rfl, rfl, rfl, rfl, rfl, rfl, rfl, rfl, rfl, rfl, rfl⟩
    exact congrArg ((s.sq q).tb + ·) (one_mul _)
  next hsample =>
    have hd : ¬ d.sample = true := hsample
    have hlead : u.vecRec (leadSeg (s.streams q i)) (s.sq q).recNo = h := by
      rw [Chip.vecRec_eq, show u.segs = s.segs from honly.get (p := .segs) (by decide), show u.dram = s.dram from honly.get (p := .dram) (by decide)]
      rfl
    obtain ⟨w, close, hwork, hemit⟩ := u.emitVector_work q (u.playVec q (s.sq q).recNo (s.streams q i)).1 o
    have hset : (u.playVec q (s.sq q).recNo (s.streams q i)).1.set = h.set := hlead ▸ rfl
    have hmarkers : (u.playVec q (s.sq q).recNo (s.streams q i)).1.markers = h.markers := hlead ▸ rfl
    have hreps : (u.playVec q (s.sq q).recNo (s.streams q i)).2 = h.reps := hlead ▸ rfl
    rw [hemit, hset, hmarkers, hreps]
    generalize hv : w.modSq q (Seq.vectorOut h.set h.markers close) = v
    have hvq : v.sq q = Seq.vectorOut h.set h.markers close (w.sq q) := by rw [← hv, Chip.sq_modSq, if_pos rfl]
    have hvj : ∀ j, j ≠ q → v.sq j = s.sq j := fun j hj => by
      rw [← hv, Chip.sq_modSq, if_neg hj, hwork.others j hj, hothers j hj]
    have hworked : Only vectorParts u v := by
      rw [← hv]
      exact hwork.only.comp ((Only.modSq w).mono (by decide))
    obtain ⟨hstep, hothers'⟩ := v.stepRecord_frame q h.reps d.count i.repeats (s.streams q i)
    obtain ⟨fields, ring, hsq⟩ := v.sq_stepRecord q h.reps d.count i.repeats (s.streams q i)
    refine ⟨?_, fun j hj => (hothers' j hj).trans (hvj j hj), (hbegun.comp hworked).comp (hstep.mono (by decide))⟩
    rw [show (v.stepRecord q h.reps (s.desc (leadSeg (s.streams q i))).count i.repeats (s.streams q i)).sq q = _ from hsq, hvq]
    have hgen : w.sq q = _ := hwork.seq
    rw [hgen, hseq]
    exact Seq.VectorOut.playsOne ⟨rfl, rfl, rfl, rfl, rfl, rfl, rfl, rfl, rfl, rfl, rfl, rfl, rfl⟩

end Sys2Proof.Machine
end

section
/-! SUPPORT. PLAY and PLAYS as commands (R233, R237, R264). -/

namespace Sys2Proof.Machine

/-- What one observation of a play does: where every stream holds its next record, one vector of it; where one does not, nothing. -/
theorem playObs_step {c : Instr} {s : State} {q : Nat} {i : SeqOp} {o : LaneObs} (h : s.chip.atOp q i)
    (hc : exec c s = next s (s.chip.playObs q (s.chip.sq q).pc [o])) :
    let x := s.chip.sq q
    let g := leadSeg (s.chip.streams q i)
    let r := s.chip.vecRec g x.recNo
    let d := s.chip.desc g
    (s.chip.streams q i ≠ [] → (∀ e ∈ s.chip.streams q i, s.chip.playable q e.seg e.mask x.recNo = true) → ∃ t, exec c s = .next t ∧
      Seq.PlaysOne x (t.chip.sq q) (if d.sample then 0 else r.set) (if d.sample then 1 else r.reps) (if d.sample then 0 else r.markers) d.count i.repeats ∧
      (∀ j, j ≠ q → t.chip.sq j = s.chip.sq j) ∧ Within vectorParts s t) ∧
    (∀ e ∈ s.chip.streams q i, s.chip.playable q e.seg e.mask x.recNo = false → exec c s = .next s) := by
  refine ⟨fun hs hp => ?_, fun e he hp => ?_⟩
  · obtain ⟨hplays, hothers, honly⟩ := s.chip.playOne_plays q i o
    exact ⟨{ s with chip := s.chip.playOne q i o }, hc.trans (congrArg (next s) (Chip.playObs_one (Chip.playNext_some h o hs hp))),
      hplays, hothers, Within.ofChip honly⟩
  · exact hc.trans (congrArg (next s) (Chip.playObs_none (Chip.playNext_none h o he hp)))

theorem exec_play {s : State} {q : Fin 16} {r : BitVec 12} {g : BitVec 14} (h : s.chip.atOp q.val (.play r g)) (l : List LaneObs) :
    exec (.play q l) s = next s (s.chip.playObs q.val (s.chip.sq q.val).pc l) :=
  congrArg (next s) (Chip.runOp_at h rfl)

theorem exec_plays {s : State} {q : Fin 16} {b : BitVec 14} (h : s.chip.atOp q.val (.plays b)) (l : List LaneObs) :
    exec (.plays q l) s = next s (s.chip.playObs q.val (s.chip.sq q.val).pc l) :=
  congrArg (next s) (Chip.runOp_at h rfl)

/-- The streams of a PLAYS play their masks. -/
theorem Chip.mem_streams_plays {s : Chip} {q : Nat} {b : BitVec 14} {e : Stream} : e ∈ s.streams q (.plays b) ↔
    ∃ m ∈ (s.sq q).masksUsed.filter (s.sq q).plays, (⟨b.toNat + m, m, s.maskLanes q m⟩ : Stream) = e := List.mem_map

/-- The first stream of a PLAYS is that of its lowest mask. -/
theorem Chip.leadSeg_plays {s : Chip} {q : Nat} {b : BitVec 14} (h : (s.sq q).masksUsed.filter (s.sq q).plays ≠ []) :
    leadSeg (s.streams q (.plays b)) = b.toNat + ((s.sq q).masksUsed.filter (s.sq q).plays).headD 0 := by
  unfold leadSeg Chip.streams
  dsimp only
  generalize (s.sq q).masksUsed.filter (s.sq q).plays = l at h
  cases l with
  | nil => exact absurd rfl h
  | cons m l => rfl

end Sys2Proof.Machine
end

section
/-! SUPPORT. ALG one vector at a time: its place in the march program (R308 to R310, R314). -/

namespace Sys2Proof.Machine

/-! ## What the place in a march program depends on (R306 to R309) -/

/-- A generator without its place and state. -/
def Generator.placeless (g : Generator) : Generator := { g with opsDone := 0, position := 0, state := .idle }

/-- From `a` to `b` the march programs of sequencer `q`, their templates and its lanes have not changed. -/
structure AlgKept (q : Nat) (a b : Chip) : Prop where
  lanes : b.lanesOf q = a.lanesOf q
  store : (b.sq q).store = (a.sq q).store
  gen : (b.sq q).gen.placeless = (a.sq q).gen.placeless

section
variable {q : Nat} {a b c : Chip}

theorem Chip.lanesOf_eq (h : ∀ n, (b.lane n).owner = (a.lane n).owner) : b.lanesOf q = a.lanesOf q := by
  unfold Chip.lanesOf
  exact List.filter_congr fun n _ => by rw [h n]

/-- What of the generator is not its place or state has not changed. -/
theorem AlgKept.field {α : Type _} (h : AlgKept q a b) (f : Generator → α) (hf : ∀ g : Generator, f g.placeless = f g) :
    f (b.sq q).gen = f (a.sq q).gen := by
  rw [← hf, h.gen, hf]

theorem AlgKept.template (h : AlgKept q a b) (write : Bool) : (b.sq q).gen.template write = (a.sq q).gen.template write := by
  have hread : (b.sq q).gen.readTemplate = (a.sq q).gen.readTemplate := h.field Generator.readTemplate fun _ => rfl
  have hwrite : (b.sq q).gen.writeTemplate = (a.sq q).gen.writeTemplate := h.field Generator.writeTemplate fun _ => rfl
  unfold Generator.template
  rw [hread, hwrite]

theorem AlgKept.templateRec (h : AlgKept q a b) (write : Bool) (i : Nat) : b.templateRec q write i = a.templateRec q write i := by
  unfold Chip.templateRec Chip.templateWords Seq.word
  dsimp only
  rw [h.lanes, h.store, h.template]

theorem AlgKept.templateVectors (h : AlgKept q a b) (write : Bool) : b.templateVectors q write = a.templateVectors q write := by
  unfold Chip.templateVectors
  simp only [h.template, h.templateRec]

theorem AlgKept.elementVectors (h : AlgKept q a b) (e : Word32) : b.elementVectors q e = a.elementVectors q e := by
  have hx : (b.sq q).gen.xCount = (a.sq q).gen.xCount := h.field Generator.xCount fun _ => rfl
  have hy : (b.sq q).gen.yCount = (a.sq q).gen.yCount := h.field Generator.yCount fun _ => rfl
  unfold Chip.elementVectors Chip.visitVectors
  simp only [h.templateVectors, hx, hy]

theorem AlgKept.algVectors (h : AlgKept q a b) (p : Nat) : b.algVectors q p = a.algVectors q p := by
  have hp : (b.sq q).gen.programs = (a.sq q).gen.programs := h.field Generator.programs fun _ => rfl
  unfold Chip.algVectors Generator.program
  rw [hp]
  exact congrArg List.sum (List.map_congr_left fun e _ => h.elementVectors e)

/-- The timing set of a vector of a march program is that of its template record. -/
theorem AlgKept.algVec_set (h : AlgKept q a b) (p : Nat) (v : AlgPos) : (b.algVec q p v).set = (a.algVec q p v).set := by
  have hset : ∀ c : Chip, (c.algVec q p v).set = (c.templateRec q (opWrites v.code)
      (recIndexAt ((List.range ((c.sq q).gen.template (opWrites v.code)).2).map fun i => (c.templateRec q (opWrites v.code) i).reps) 0 v.at_)).set :=
    fun _ => rfl
  rw [hset, hset, h.template]
  simp only [h.templateRec]

end

/-! ## One vector of an ALG (R310, R314) -/

/-- Sequencer `x` with its generator running. -/
def Seq.generating (x : Seq) : Seq := { x with gen := { x.gen with state := .running } }

/-- Sequencer `x` behind one more vector of its instruction. -/
def Seq.oneDone (x : Seq) : Seq := { x with done := x.done + 1 }

/-- Sequencer `x` behind the last vector of an ALG. -/
def Seq.algDone (x : Seq) : Seq := { x.nextOp with gen := { x.gen with state := .completed } }

/-- One vector of ALG `p` at place `a`, not yet counted. -/
def Chip.algOut (q p : Nat) (a : AlgPos) (o : LaneObs) (s : Chip) : Chip :=
  let s := s.modSq q Seq.generating
  if a.code = 0 then s.pausePlace q p a else s.emitVector q (s.algVec q p a) o

theorem Chip.algNext_some {s : Chip} {q : Nat} {p : BitVec 4} {a : AlgPos} (h : s.atOp q (.alg p))
    (ha : s.algAt q ((s.sq q).gen.program p.toNat) 0 (s.sq q).done = some a) (o : LaneObs) :
    let c := (s.algOut q p.toNat a o).modSq q Seq.oneDone
    s.algNext q p.toNat o = some (if (c.sq q).done < c.algVectors q p.toNat then c else c.modSq q Seq.algDone) := by
  obtain ⟨hrun, -, -, hop⟩ := h
  intro c
  have hrun' : ¬ ((s.sq q).state ≠ .running ∨ (s.sq q).op (s.sq q).pc ≠ some (.alg (BitVec.ofNat 4 p.toNat))) := by
    simp [hrun, hop]
  unfold Chip.algNext
  dsimp only
  rw [if_neg hrun', ha, apply_ite some]
  rfl

theorem Chip.algNext_none {s : Chip} {q : Nat} {p : BitVec 4} (ha : s.algAt q ((s.sq q).gen.program p.toNat) 0 (s.sq q).done = none) (o : LaneObs) :
    s.algNext q p.toNat o = none := by
  unfold Chip.algNext
  dsimp only
  rw [ha]
  exact ite_self _

/-- Sequencer `x` has become `y` by one vector of an ALG that is not yet counted. -/
structure Seq.AlgOut (set : Nat) (x y : Seq) : Prop where
  vecIndex : y.vecIndex = x.vecIndex + 1
  vectors : y.vectors = (x.vectors + 1) % 2 ^ 64
  tb : y.tb = x.tb + x.periodUnits set
  pc : y.pc = x.pc
  done : y.done = x.done
  store : y.store = x.store
  gen : y.gen.placeless = x.gen.placeless
  running : y.gen.state = .running

theorem Chip.algOut_vector (s : Chip) (q p : Nat) (a : AlgPos) (o : LaneObs) :
    Seq.AlgOut (if a.code = 0 then (s.sq q).lastSet else (s.algVec q p a).set) (s.sq q) ((s.algOut q p a o).sq q) ∧
      (∀ j, j ≠ q → (s.algOut q p a o).sq j = s.sq j) ∧ Only vectorParts s (s.algOut q p a o) ∧ (s.algOut q p a o).lanesOf q = s.lanesOf q := by
  unfold Chip.algOut
  dsimp only
  generalize hc : s.modSq q Seq.generating = c
  have hcq : c.sq q = (s.sq q).generating := by rw [← hc, Chip.sq_modSq, if_pos rfl]
  have hcj : ∀ j, j ≠ q → c.sq j = s.sq j := fun j hj => by rw [← hc, Chip.sq_modSq, if_neg hj]
  have honly : Only [.seqs] s c := hc ▸ Only.modSq s
  have hlanes : c.lanesOf q = s.lanesOf q := Chip.lanesOf_eq fun n => congrArg Lane.owner (honly.lane (by decide) n)
  have hmod : ∀ {f} (d : Chip), Only [.seqs] d (d.modSq q f) := fun d => Only.modSq d
  have howner : ∀ {f} (d : Chip), (d.modSq q f).lanesOf q = d.lanesOf q := fun d =>
    Chip.lanesOf_eq fun n => congrArg Lane.owner ((hmod d).lane (by decide) n)
  split
  next hpause =>
    have hwork := c.fixLanes_work q 1
    have hholds : c.emitHolds q 1 = (c.fixLanes q 1).modSq q _ := if_neg one_ne_zero
    unfold Chip.pausePlace
    refine ⟨?_, fun j hj => ?_, (honly.mono (by decide)).comp ?_, ?_⟩
    · rw [Chip.sq_modSq, if_pos rfl, Chip.sq_emitHolds one_ne_zero, hcq]
      exact ⟨rfl, rfl, congrArg ((s.sq q).tb + ·) (one_mul _), rfl, rfl, rfl, rfl, rfl⟩
    · rw [Chip.sq_modSq, if_neg hj, Chip.sq_emitHolds_ne _ _ hj, hcj j hj]
    · exact ((Only.emitHolds c).mono (by decide)).comp ((hmod _).mono (by decide))
    · rw [howner, hholds, howner, Chip.lanesOf_eq hwork.owner, hlanes]
  next hrecord =>
    have hkept : AlgKept q s c := ⟨hlanes, by rw [hcq]; rfl, by rw [hcq]; rfl⟩
    obtain ⟨w, close, hwork, hemit⟩ := c.emitVector_work q (c.algVec q p a) o
    rw [hemit, hkept.algVec_set]
    refine ⟨?_, fun j hj => ?_, ((honly.mono (by decide)).comp hwork.only).comp ((hmod w).mono (by decide)), ?_⟩
    · have hgen : w.sq q = _ := hwork.seq
      rw [Chip.sq_modSq, if_pos rfl, hgen, hcq]
      exact ⟨rfl, rfl, rfl, rfl, rfl, rfl, rfl, rfl⟩
    · rw [Chip.sq_modSq, if_neg hj, hwork.others j hj, hcj j hj]
    · rw [howner, Chip.lanesOf_eq hwork.owner, hlanes]

end Sys2Proof.Machine
end

section
/-! SUPPORT. ALG as a command (R310), and the start of a sealed play (R324, R334). -/

namespace Sys2Proof.Machine

theorem exec_alg {s : State} {q : Fin 16} {p : BitVec 4} (h : s.chip.atOp q.val (.alg p)) (l : List LaneObs) :
    exec (.alg q l) s = next s (s.chip.algObs q.val p.toNat (s.chip.sq q.val).pc l) :=
  congrArg (next s) (Chip.runOp_at h rfl)

theorem Chip.algObs_one {s t : Chip} {q p : Nat} {o : LaneObs} (h : s.algNext q p o = some t) : s.algObs q p (s.sq q).pc [o] = t := by
  unfold Chip.algObs
  rw [if_neg (not_not.mpr rfl), h]
  rfl

theorem Chip.algObs_none {s : Chip} {q p : Nat} {o : LaneObs} (h : s.algNext q p o = none) : s.algObs q p (s.sq q).pc [o] = s := by
  unfold Chip.algObs
  rw [if_neg (not_not.mpr rfl), h]

/-- One observation of an ALG with a position left gives one vector, and behind its last the next instruction. -/
theorem alg_step {s : State} {q : Fin 16} {p : BitVec 4} {a : AlgPos} (h : s.chip.atOp q.val (.alg p))
    (ha : s.chip.algAt q.val ((s.chip.sq q.val).gen.program p.toNat) 0 (s.chip.sq q.val).done = some a) (o : LaneObs) :
    let x := s.chip.sq q.val
    ∃ t, exec (.alg q [o]) s = .next t ∧
      (t.chip.sq q.val).vecIndex = x.vecIndex + 1 ∧ (t.chip.sq q.val).vectors = (x.vectors + 1) % 2 ^ 64 ∧
      (t.chip.sq q.val).tb = x.tb + x.periodUnits (if a.code = 0 then x.lastSet else (s.chip.algVec q.val p.toNat a).set) ∧
      (x.done + 1 < s.chip.algVectors q.val p.toNat → (t.chip.sq q.val).pc = x.pc ∧ (t.chip.sq q.val).done = x.done + 1 ∧ (t.chip.sq q.val).gen.state = .running) ∧
      (s.chip.algVectors q.val p.toNat ≤ x.done + 1 → (t.chip.sq q.val).pc = x.pc + 1 ∧ (t.chip.sq q.val).done = 0 ∧ (t.chip.sq q.val).gen.state = .completed) ∧
      (∀ j, j ≠ q.val → t.chip.sq j = s.chip.sq j) ∧ Within vectorParts s t := by
  intro x
  obtain ⟨hout, hothers, honly, hlanes⟩ := s.chip.algOut_vector q.val p.toNat a o
  have hnext := Chip.algNext_some h ha o
  dsimp only at hnext
  generalize s.chip.algOut q.val p.toNat a o = v at hout hothers honly hlanes hnext
  obtain ⟨hvec, hvectors, htb, hpc, hdone, hstore, hgen, hrunning⟩ := hout
  generalize hc : v.modSq q.val Seq.oneDone = c at hnext
  have hcq : c.sq q.val = (v.sq q.val).oneDone := by rw [← hc, Chip.sq_modSq, if_pos rfl]
  have hcj : ∀ j, j ≠ q.val → c.sq j = s.chip.sq j := fun j hj => by rw [← hc, Chip.sq_modSq, if_neg hj, hothers j hj]
  have hconly : Only [.seqs] v c := hc ▸ Only.modSq v
  have hkept : AlgKept q.val s.chip c :=
    ⟨(Chip.lanesOf_eq fun n => congrArg Lane.owner (hconly.lane (by decide) n)).trans hlanes, by rw [hcq]; exact hstore, by rw [hcq]; exact hgen⟩
  have hcdone : (c.sq q.val).done = x.done + 1 := by
    rw [hcq]
    exact congrArg (· + 1) hdone
  have hwork : Only vectorParts s.chip c := honly.comp (hconly.mono (by decide))
  rw [hkept.algVectors, hcdone] at hnext
  refine ⟨_, (exec_alg h [o]).trans (congrArg (next s) (Chip.algObs_one hnext)), ?_⟩
  dsimp only
  split
  next hmore =>
    rw [hcq]
    refine ⟨hvec, hvectors, htb, fun _ => ⟨hpc, by rw [← hcq]; exact hcdone, hrunning⟩, fun hlast => absurd hmore (Nat.not_lt.mpr hlast), hcj, Within.ofChip hwork⟩
  next hlast =>
    rw [Chip.sq_modSq, if_pos rfl, hcq]
    refine ⟨hvec, hvectors, htb, fun hmore => absurd hmore hlast, fun _ => ⟨congrArg (· + 1) hpc, rfl, rfl⟩, fun j hj => ?_,
      Within.ofChip (hwork.comp ((Only.modSq c).mono (by decide)))⟩
    rw [Chip.sq_modSq, if_neg hj, hcj j hj]

theorem alg_done {s : State} {q : Fin 16} {p : BitVec 4} (h : s.chip.atOp q.val (.alg p))
    (ha : s.chip.algAt q.val ((s.chip.sq q.val).gen.program p.toNat) 0 (s.chip.sq q.val).done = none) (o : LaneObs) :
    exec (.alg q [o]) s = .next s :=
  (exec_alg h [o]).trans (congrArg (next s) (Chip.algObs_none (Chip.algNext_none ha o)))

end Sys2Proof.Machine
end

section
/-! SUPPORT. The start of a sealed play (R324, R334). -/

namespace Sys2Proof.Machine

/-- What of a lane is not its codes. -/
theorem Lane.codeless_field {α : Type _} {a b : Lane} (h : a.codeless = b.codeless) (f : Lane → α) (hf : ∀ l : Lane, f l.codeless = f l) : f a = f b := by
  rw [← hf, h, hf]

/-- Hold vectors reach a lane's codes only. -/
theorem Chip.emitHolds_codeless (s : Chip) (q n m : Nat) : ((s.emitHolds q n).lane m).codeless = (s.lane m).codeless := by
  have hfold : ∀ (l : List Nat) (c : Chip), ((c.eachLane l fun _ => Lane.fix (fun t => s.holdsUntil q (t + ns40)) n).lane m).codeless = (c.lane m).codeless := by
    intro l
    induction l with
    | nil => exact fun c => rfl
    | cons k l ih =>
      intro c
      refine (ih _).trans ?_
      rw [Chip.lane_modLane]
      split
      next hm => rw [Lane.fix_codeless, hm]
      next => rfl
  unfold Chip.emitHolds
  split
  · rfl
  · rw [(Only.modSq _).lane (by decide)]
    exact hfold _ s

theorem Chip.emitWaits_codeless (s : Chip) (q n m : Nat) : ((s.emitWaits q n).lane m).codeless = (s.lane m).codeless := by
  unfold Chip.emitWaits
  rw [(Only.modSq _).lane (by decide)]
  exact s.emitHolds_codeless q n m

/-- The lanes of the sites `ks` are no longer observed. -/
def Chip.sealLanes (ks l : List Nat) (s : Chip) : Chip :=
  l.foldl (fun s n => if ks.contains (s.lane n).site.toNat then s.modLane n fun l => { l with sealedIn := true } else s) s

theorem Only.sealLanes {ks l} (s : Chip) : Only [.lanes] s (s.sealLanes ks l) :=
  Only.foldl _ (fun c _ => Only.ite (Only.modLane c) (Only.refl c _)) l s

theorem Chip.site_sealLane (ks : List Nat) (k n : Nat) (s : Chip) :
    ((if ks.contains (s.lane k).site.toNat then s.modLane k fun l => { l with sealedIn := true } else s).lane n).site = (s.lane n).site := by
  split
  · rw [Chip.lane_modLane]
    split
    next hn => rw [hn]
    next => rfl
  · rfl

/-- A lane that is not observed stays so. -/
theorem Chip.sealLanes_keeps {ks : List Nat} {n : Nat} (l : List Nat) (s : Chip) (h : (s.lane n).sealedIn = true) :
    ((s.sealLanes ks l).lane n).sealedIn = true := by
  induction l generalizing s with
  | nil => exact h
  | cons k l ih =>
    refine ih _ ?_
    dsimp only
    split
    · rw [Chip.lane_modLane]
      split
      · rfl
      · exact h
    · exact h

theorem Chip.sealedIn_sealLanes {ks : List Nat} {n : Nat} {l : List Nat} {s : Chip} (hn : n ∈ l) (h : ks.contains (s.lane n).site.toNat = true) :
    ((s.sealLanes ks l).lane n).sealedIn = true := by
  induction l generalizing s with
  | nil => exact absurd hn List.not_mem_nil
  | cons k l ih =>
    rcases List.mem_cons.mp hn with rfl | hn
    · refine Chip.sealLanes_keeps l _ ?_
      dsimp only
      rw [if_pos h, Chip.lane_modLane, if_pos rfl]
    · refine ih hn ?_
      rw [Chip.site_sealLane]
      exact h

/-- Sequencer `x` in a sealed play of recipe `r`. -/
def Seq.sealedPlaying (r : Nat) (x : Seq) : Seq :=
  { x.nextOp with state := .running, playing := some r, sealedCfg := { x.sealedCfg with field := .playing, windowOpen := false } }

theorem sealedPlay_starts {q : Fin 16} {s : State} (h : s.chip.sealedReady q.val = true) : ∃ t, exec (.sealedPlayStart q) s = .next t ∧
    (t.chip.sq q.val).state = .running ∧ (t.chip.sq q.val).pc = (s.chip.sq q.val).pc + 1 ∧
    (t.chip.sq q.val).playing = some (s.chip.sq q.val).sealedCfg.recipe ∧ (t.chip.sq q.val).sealedCfg.windowOpen = false ∧
    (t.chip.sq q.val).sealedCfg.field = .playing ∧
    (∀ n ∈ s.chip.lanesOf q.val, (s.chip.sq q.val).livingSites.contains (s.chip.lane n).site.toNat = true → (t.chip.lane n).sealedIn = true) ∧
    (∀ j, j ≠ q.val → t.chip.sq j = s.chip.sq j) ∧ Within [.seqs, .lanes] s t := by
  have hheld := s.chip.emitWaits_heldTo q.val (s.chip.holdsUntil q.val (s.chip.sq q.val).resumeAt)
  have hlane := s.chip.emitWaits_codeless q.val (s.chip.holdsUntil q.val (s.chip.sq q.val).resumeAt)
  have hothers := fun j (hj : j ≠ q.val) => s.chip.sq_emitWaits_ne (s.chip.holdsUntil q.val (s.chip.sq q.val).resumeAt) hj
  have honly := Only.emitWaits (q := q.val) (n := s.chip.holdsUntil q.val (s.chip.sq q.val).resumeAt) s.chip
  have hstep : sealedStart q.val s.chip = ((s.chip.emitWaits q.val (s.chip.holdsUntil q.val (s.chip.sq q.val).resumeAt)).modSq q.val
      (Seq.sealedPlaying (s.chip.sq q.val).sealedCfg.recipe)).sealLanes
        ((s.chip.emitWaits q.val (s.chip.holdsUntil q.val (s.chip.sq q.val).resumeAt)).sq q.val).livingSites
        (((s.chip.emitWaits q.val (s.chip.holdsUntil q.val (s.chip.sq q.val).resumeAt)).modSq q.val
          (Seq.sealedPlaying (s.chip.sq q.val).sealedCfg.recipe)).lanesOf q.val) := by
    unfold sealedStart
    rw [if_neg (by rw [h]; decide)]
    rfl
  generalize s.chip.emitWaits q.val (s.chip.holdsUntil q.val (s.chip.sq q.val).resumeAt) = w at hheld hlane hothers honly hstep
  have hplaying := fun j => w.sq_modSq q.val j (Seq.sealedPlaying (s.chip.sq q.val).sealedCfg.recipe)
  have hmod : Only [.seqs] w (w.modSq q.val (Seq.sealedPlaying (s.chip.sq q.val).sealedCfg.recipe)) := Only.modSq w
  generalize w.modSq q.val (Seq.sealedPlaying (s.chip.sq q.val).sealedCfg.recipe) = p at hplaying hmod hstep
  have hsite : ∀ n, (p.lane n).site = (s.chip.lane n).site := fun n => by
    rw [hmod.lane (by decide)]
    exact Lane.codeless_field (hlane n) Lane.site fun _ => rfl
  have howned : p.lanesOf q.val = s.chip.lanesOf q.val := Chip.lanesOf_eq fun n => by
    rw [hmod.lane (by decide)]
    exact Lane.codeless_field (hlane n) Lane.owner fun _ => rfl
  have hliving : (w.sq q.val).livingSites = (s.chip.sq q.val).livingSites := hheld.field Seq.livingSites
  have hsealed : Only [.lanes] p (p.sealLanes (s.chip.sq q.val).livingSites (s.chip.lanesOf q.val)) := Only.sealLanes p
  have hq : p.sq q.val = (w.sq q.val).sealedPlaying (s.chip.sq q.val).sealedCfg.recipe := (hplaying q.val).trans (if_pos rfl)
  rw [howned, hliving] at hstep
  refine ⟨_, congrArg (next s) hstep, ?_⟩
  dsimp only
  rw [hsealed.sq (by decide), hq]
  refine ⟨rfl, congrArg (· + 1) (hheld.field Seq.pc), rfl, rfl, rfl, fun n hn hk => Chip.sealedIn_sealLanes hn (by rw [hsite]; exact hk), fun j hj => ?_,
    Within.ofChip ((honly.comp (hmod.mono (by decide))).mono (by decide) |>.comp (hsealed.mono (by decide)))⟩
  rw [hsealed.sq (by decide), hplaying, if_neg hj, hothers j hj]

theorem sealedPlay_waits {q : Fin 16} {s : State} (h : s.chip.sealedReady q.val = false) : exec (.sealedPlayStart q) s = .next s := by
  have hstep : sealedStart q.val s.chip = s.chip := if_pos h
  exact congrArg (next s) hstep

end Sys2Proof.Machine
end

section
/-! SUPPORT. What the ends of masks and of runs leave in place: lanes at the dust sheet, records in CH_16, lasting conditions, and fields
that have not failed (R141, R234, R261, R265, R327, R469). -/

namespace Sys2Proof.Machine

/-! ## Records (R469, R471) -/

/-- From `a` to `b` the recorder has taken records of the AO alone: the room in CH_16 and what the islands hold are as they were. -/
structure RoomKept (a b : Chip) : Prop where
  held : b.recorder.held = a.recorder.held
  queue : ∃ l : List RecordIn, (∀ r ∈ l, r.producer = 1) ∧ b.recorder.queue = a.recorder.queue ++ l

section
variable {a b c : Chip}

theorem RoomKept.eq (h : b.recorder = a.recorder) : RoomKept a b := ⟨by rw [h], [], by simp, by rw [h, List.append_nil]⟩

theorem RoomKept.refl (a : Chip) : RoomKept a a := RoomKept.eq rfl

theorem RoomKept.only {ps : List Part} (h : Only ps a b) (hp : Part.recorder ∉ ps) : RoomKept a b := RoomKept.eq (h .recorder hp)

theorem RoomKept.trans (h : RoomKept a b) (k : RoomKept b c) : RoomKept a c := by
  obtain ⟨hheld, l, hl, hq⟩ := h
  obtain ⟨kheld, m, hm, kq⟩ := k
  refine ⟨kheld.trans hheld, l ++ m, fun r hr => ?_, by rw [kq, hq, List.append_assoc]⟩
  exact (List.mem_append.mp hr).elim (hl r) (hm r)

theorem RoomKept.ite {p : Prop} [Decidable p] (h : RoomKept a b) (k : RoomKept a c) : RoomKept a (if p then b else c) := by
  split <;> assumption

theorem RoomKept.foldl {α : Type _} (f : Chip → α → Chip) (h : ∀ s x, RoomKept s (f s x)) (l : List α) (s : Chip) : RoomKept s (l.foldl f s) := by
  induction l generalizing s with
  | nil => exact RoomKept.refl s
  | cons x l ih => exact (h s x).trans (ih (f s x))

theorem RoomKept.grows (h : RoomKept a b) : Grows a b := by
  obtain ⟨l, -, hq⟩ := h.queue
  exact ⟨l, hq⟩

theorem RoomKept.inChannel (h : RoomKept a b) : b.recorder.inChannel = a.recorder.inChannel := by
  obtain ⟨l, hl, hq⟩ := h.queue
  have hnone : (l.filter fun x => x.producer != 1) = [] := List.filter_eq_nil_iff.mpr fun r hr => by simp [hl r hr]
  unfold Recorder.inChannel
  rw [hq, List.filter_append, hnone, List.append_nil]

end

theorem RoomKept.count (s : Chip) (cat : Nat) : RoomKept s (s.count cat) := by
  have hcounters : ∀ f : Recorder → SMap Nat, RoomKept s (s.modRecorder fun r => { r with counters := f r }) := fun f =>
    ⟨rfl, [], by simp, (List.append_nil _).symm⟩
  unfold Chip.count
  refine RoomKept.ite (hcounters _) (RoomKept.ite ⟨rfl, [_], ?_, rfl⟩ (hcounters _))
  intro r hr
  rw [List.mem_singleton.mp hr]
  rfl

theorem RoomKept.loseRecord (s : Chip) (u k t : Nat) (f : Bool) : RoomKept s (s.loseRecord u k t f) := by
  unfold Chip.loseRecord
  exact (RoomKept.only ((Only.ite (Only.enterFull s) (Only.refl s _)).comp (Only.modUnit _)) (by decide)).trans (RoomKept.count _ _)

theorem RoomKept.putRecord (s : Chip) (u : Nat) (b : Bytes) (f t : Nat) : RoomKept s (s.putRecord u b f t) := by
  unfold Chip.putRecord
  refine RoomKept.ite (RoomKept.loseRecord ..) (RoomKept.ite (RoomKept.loseRecord ..) ?_)
  have hwritten : ∀ {d : Chip} {g h}, Only [.acq] d (((d.modUnit u g).modAcq h).enterFull u t) := fun {d _ _} =>
    ((Only.modUnit d).comp (Only.modAcq _)).comp (Only.enterFull _)
  exact (RoomKept.only (Only.modUnit s) (by decide)).trans ((RoomKept.only (Only.dramEnqueue _) (by decide)).trans (RoomKept.only hwritten (by decide)))

theorem RoomKept.captureRecord (s : Chip) (u : Nat) (b : Bytes) (t : Nat) : RoomKept s (s.captureRecord u b t) := by
  unfold Chip.captureRecord
  refine RoomKept.ite ?_ (RoomKept.ite ?_ (RoomKept.refl s))
  · unfold Chip.primerRecord
    exact RoomKept.ite (RoomKept.loseRecord ..) (RoomKept.only (Only.modUnit s) (by decide))
  · exact ((RoomKept.putRecord ..).trans (RoomKept.only (Only.modUnit _) (by decide))).trans
      (RoomKept.ite (RoomKept.only (Only.captureDone _) (by decide)) (RoomKept.refl _))

theorem RoomKept.stopTimer (s : Chip) (u k : Nat) : RoomKept s (s.stopTimer u k) := by
  unfold Chip.stopTimer Chip.responseRecord
  exact RoomKept.ite ((RoomKept.only (Only.modSiteAq s) (by decide)).trans (RoomKept.ite (RoomKept.putRecord ..) (RoomKept.refl _))) (RoomKept.refl s)

theorem RoomKept.stopMaskTimers (s : Chip) (q m : Nat) : RoomKept s (s.stopMaskTimers q m) := RoomKept.foldl _ (fun c k => RoomKept.stopTimer c q k) _ s

theorem RoomKept.endAcq (s : Chip) (q : Nat) : RoomKept s (s.endAcq q) := by
  have hflush : ∀ (c : Chip) (k : Nat), RoomKept c (c.flushSamples q k) := fun c k => by
    unfold Chip.flushSamples
    exact RoomKept.ite (RoomKept.refl c) ((RoomKept.only (Only.modUnit c) (by decide)).trans (RoomKept.captureRecord ..))
  exact ((RoomKept.foldl _ hflush _ s).trans (RoomKept.foldl _ (fun c k => RoomKept.stopTimer c q k) _ _)).trans (RoomKept.only (Only.modUnit _) (by decide))

/-- A record arrives behind those that stand in the queue, or not at all. -/
theorem Recorder.queue_arrive (x : RecordIn) (r : Recorder) : ∃ l, (r.arrive x).queue = r.queue ++ l := by
  unfold Recorder.arrive
  dsimp only
  split
  · exact ⟨_, rfl⟩
  · split
    · exact ⟨_, rfl⟩
    · split
      · exact ⟨[], (List.append_nil _).symm⟩
      · exact ⟨[], (List.append_nil _).symm⟩

/-- A record of an island arrives where CH_16 has room and the island holds none back. -/
theorem Recorder.arrive_room {x : RecordIn} {r : Recorder} (hp : x.producer ≠ 1) (hroom : r.inChannel < 32) (hheld : SMap.get r.held [] x.producer = []) :
    { x with lost := min 0xFFFF (r.lostRun.get 0 x.producer) } ∈ (r.arrive x).queue := by
  unfold Recorder.arrive
  dsimp only
  rw [if_neg hp, if_pos ⟨hroom, hheld⟩]
  exact List.mem_append_right _ (List.mem_singleton_self _)

theorem Grows.recordBy (s : Chip) (producer code island unit : Nat) (detail : Bytes) : Grows s (s.recordBy producer code island unit detail) :=
  Recorder.queue_arrive _ _

/-- A record of the SQ where CH_16 has room and the SQ holds none back. -/
theorem Chip.record_room {s : Chip} {code : Nat} (detail : Bytes) (unit : Nat) (hc : code / 0x1000 = 5) (hroom : s.recorder.inChannel < 32)
    (hheld : SMap.get s.recorder.held [] 5 = []) :
    ∃ r ∈ (s.record code 5 detail unit).recorder.queue, r.code = code ∧ r.unit = unit ∧ r.payload = pad 12 detail := by
  have hproducer : ¬ (code / 0x1000 = 1 ∨ code = 0x0003 ∨ code = 0x0005) := by omega
  unfold Chip.record
  rw [if_neg hproducer]
  exact ⟨_, Recorder.arrive_room (show (5 : Nat) ≠ 1 by decide) hroom hheld, rfl, rfl, rfl⟩

end Sys2Proof.Machine
end

section
/-! SUPPORT. What the ends of masks and of runs leave in place, in one relation (R141, R234, R261, R265, R327). -/

namespace Sys2Proof.Machine

/-! ## Lanes at the dust sheet (R234, R275, R285) -/

/-- From lane `a` to lane `b` owner, site and mode have not changed, and a lane at the dust sheet has stayed there. -/
structure Lane.DustKept (a b : Lane) : Prop where
  owner : b.owner = a.owner
  site : b.site = a.site
  mode : b.mode = a.mode
  dust : a.atDust = true → b.atDust = true

theorem Lane.DustKept.refl (a : Lane) : a.DustKept a := ⟨rfl, rfl, rfl, id⟩

theorem Lane.DustKept.trans {a b c : Lane} (h : a.DustKept b) (k : b.DustKept c) : a.DustKept c :=
  ⟨k.owner.trans h.owner, k.site.trans h.site, k.mode.trans h.mode, fun hd => k.dust (h.dust hd)⟩

theorem Lane.dustKept_of_codeless {a b : Lane} (h : b.codeless = a.codeless) : a.DustKept b :=
  ⟨Lane.codeless_field h Lane.owner fun _ => rfl, Lane.codeless_field h Lane.site fun _ => rfl, Lane.codeless_field h Lane.mode fun _ => rfl,
    fun hd => (Lane.codeless_field h Lane.atDust fun _ => rfl).trans hd⟩

theorem Lane.dustKept_cover (l : Lane) : l.DustKept l.cover := by
  unfold Lane.cover
  split
  · exact Lane.DustKept.refl l
  · exact ⟨rfl, rfl, rfl, fun _ => rfl⟩

theorem Lane.atDust_cover {l : Lane} (h : l.mode ≠ 3) : l.cover.atDust = true := by
  unfold Lane.cover
  rw [if_neg h]

theorem Lane.dustKept_coverAt (tb : Nat) (l : Lane) : l.DustKept (l.coverAt tb) := by
  unfold Lane.coverAt
  split
  · exact Lane.DustKept.refl l
  · exact ⟨l.dustKept_cover.owner, l.dustKept_cover.site, l.dustKept_cover.mode, l.dustKept_cover.dust⟩

theorem Lane.dustKept_settle (l : Lane) : l.DustKept l.settle := ⟨rfl, rfl, rfl, id⟩

theorem Lane.atDust_coverAt (tb : Nat) {l : Lane} (h : l.mode ≠ 3) : (l.coverAt tb).atDust = true := by
  unfold Lane.coverAt
  split
  next hd => exact hd.resolve_left h
  next => exact Lane.atDust_cover h

/-- A site's field is unchanged where the fields are. -/
theorem Only.seal {a b : Chip} {ps : List Part} (h : Only ps a b) (hp : Part.sealed_ ∉ ps := by decide) (k : Nat) : b.seal k = a.seal k := by
  have hsealed : b.sealed_ = a.sealed_ := h .sealed_ hp
  unfold Chip.seal
  rw [hsealed]

/-! ## The relation -/

/-- From `a` to `b` lanes at the dust sheet have stayed there, records in the queue and lasting conditions have not gone, and no field has
failed. -/
structure EndKept (a b : Chip) : Prop where
  lanes : ∀ n, (a.lane n).DustKept (b.lane n)
  queue : Grows a b
  conditions : ∀ k, (a.host.conditions.any fun c => c.key == k) = true → (b.host.conditions.any fun c => c.key == k) = true
  causes : ∀ k, (a.seal k).cause = 0 → (b.seal k).cause = 0

section
variable {a b c : Chip}

theorem EndKept.trans (h : EndKept a b) (k : EndKept b c) : EndKept a c :=
  ⟨fun n => (h.lanes n).trans (k.lanes n), h.queue.trans k.queue, fun j hj => k.conditions j (h.conditions j hj), fun j hj => k.causes j (h.causes j hj)⟩

/-- Where conditions and fields are not reached, lanes and the queue decide. -/
theorem EndKept.beside {ps : List Part} (h : Only ps a b) (hl : ∀ n, (a.lane n).DustKept (b.lane n)) (hq : Grows a b) (hh : Part.host ∉ ps := by decide)
    (hs : Part.sealed_ ∉ ps := by decide) : EndKept a b := by
  have hhost : b.host = a.host := h .host hh
  exact ⟨hl, hq, fun k hk => by rw [hhost]; exact hk, fun k hk => by rw [h.seal hs]; exact hk⟩

theorem Lane.dustKept_only {ps : List Part} (h : Only ps a b) (hl : Part.lanes ∉ ps := by decide) (n : Nat) : (a.lane n).DustKept (b.lane n) := by
  rw [h.lane hl]
  exact Lane.DustKept.refl _

theorem EndKept.only {ps : List Part} (h : Only ps a b) (hl : Part.lanes ∉ ps := by decide) (hh : Part.host ∉ ps := by decide)
    (hs : Part.sealed_ ∉ ps := by decide) (hr : Part.recorder ∉ ps := by decide) : EndKept a b :=
  EndKept.beside h (Lane.dustKept_only h hl) (Grows.only h hr) hh hs

theorem EndKept.refl (a : Chip) : EndKept a a := EndKept.only (Only.refl a [])

theorem EndKept.ite {p : Prop} [Decidable p] (h : EndKept a b) (k : EndKept a c) : EndKept a (if p then b else c) := by
  split <;> assumption

theorem EndKept.foldl {α : Type _} (f : Chip → α → Chip) (h : ∀ s x, EndKept s (f s x)) (l : List α) (s : Chip) : EndKept s (l.foldl f s) := by
  induction l generalizing s with
  | nil => exact EndKept.refl s
  | cons x l ih => exact (h s x).trans (ih (f s x))

end

theorem EndKept.modLane (s : Chip) (n : Nat) {f : Lane → Lane} (hf : ∀ l, Lane.DustKept l (f l)) : EndKept s (s.modLane n f) := by
  have h : Only [.lanes] s (s.modLane n f) := Only.modLane s
  refine EndKept.beside h (fun m => ?_) (Grows.only h (by decide))
  rw [Chip.lane_modLane]
  split
  next hm =>
    rw [hm]
    exact hf _
  next => exact Lane.DustKept.refl _

theorem EndKept.eachLane (s : Chip) (l : List Nat) {f : Nat → Lane → Lane} (hf : ∀ n l, Lane.DustKept l (f n l)) : EndKept s (s.eachLane l f) :=
  EndKept.foldl _ (fun c n => EndKept.modLane c n (hf n)) l s

theorem EndKept.modSeal (s : Chip) (k : Nat) {f : SiteSeal → SiteSeal} (hf : ∀ z, z.cause = 0 → (f z).cause = 0) : EndKept s (s.modSeal k f) := by
  have h : Only [.sealed_] s (s.modSeal k f) := Only.modSeal s
  have hhost : (s.modSeal k f).host = s.host := h .host (by decide)
  refine ⟨Lane.dustKept_only h, Grows.only h (by decide), fun j hj => by rw [hhost]; exact hj, fun j hj => ?_⟩
  rw [Chip.seal_modSeal]
  split
  next hk => exact hf _ (hk ▸ hj)
  next => exact hj

theorem EndKept.coverLanes (s : Chip) (l : List Nat) : EndKept s (s.coverLanes l) :=
  EndKept.foldl _ (fun c n => EndKept.modLane c n Lane.dustKept_cover) l s

theorem EndKept.coverAtBoundary (s : Chip) (q : Nat) (l : List Nat) : EndKept s (s.coverAtBoundary q l) :=
  EndKept.eachLane s l fun _ => Lane.dustKept_coverAt _

theorem EndKept.emitWaits (s : Chip) (q n : Nat) : EndKept s (s.emitWaits q n) :=
  EndKept.beside (Only.emitWaits s) (fun m => Lane.dustKept_of_codeless (s.emitWaits_codeless q n m)) (Grows.only (Only.emitWaits s) (by decide))

theorem EndKept.raise (s : Chip) (key code bits event island detail : Nat) : EndKept s (s.raise key code bits event island detail) := by
  have h : Only [.host, .out] s (s.raise key code bits event island detail) := Only.raise s
  refine ⟨Lane.dustKept_only h, Grows.only h (by decide), fun k hk => ?_, fun k hk => by rw [h.seal]; exact hk⟩
  unfold Chip.raise
  split
  · exact hk
  · dsimp only
    rw [HostServices.conditions_eq (Chip.emcySend_besidesEmcy ..)]
    unfold Chip.modHost
    dsimp only
    rw [List.any_append, hk, Bool.true_or]

/-! ## The end of a run (R261) -/

theorem EndKept.recordBy (s : Chip) (producer code island unit : Nat) (detail : Bytes) : EndKept s (s.recordBy producer code island unit detail) :=
  EndKept.beside (Only.recordBy s) (Lane.dustKept_only (Only.recordBy s)) (Grows.recordBy ..)

/-- A record and its EMCY. -/
theorem EndKept.report (s : Chip) (key code bits event detail unit : Nat) (payload : Bytes) :
    EndKept s ((s.record event 5 payload unit).raise key code bits event 5 detail) :=
  EndKept.trans (EndKept.recordBy ..) (EndKept.raise ..)

theorem Chip.sq_report (s : Chip) (key code bits event detail unit : Nat) (payload : Bytes) (q : Nat) :
    ((s.record event 5 payload unit).raise key code bits event 5 detail).sq q = s.sq q :=
  ((Only.raise _).sq (by decide) q).trans ((Only.record s).sq (by decide) q)

/-- The record of an event of the SQ that raises its EMCY. -/
theorem Chip.report_recorded {s : Chip} {event : Nat} (key code bits detail unit : Nat) (payload : Bytes) (hc : event / 0x1000 = 5)
    (hroom : s.recorder.inChannel < 32) (hheld : SMap.get s.recorder.held [] 5 = []) :
    ∃ r ∈ ((s.record event 5 payload unit).raise key code bits event 5 detail).recorder.queue, r.code = event ∧ r.unit = unit ∧ r.payload = pad 12 payload := by
  have hraised : Only [.host, .out] (s.record event 5 payload unit) ((s.record event 5 payload unit).raise key code bits event 5 detail) := Only.raise _
  rw [show ((s.record event 5 payload unit).raise key code bits event 5 detail).recorder = _ from hraised .recorder (by decide)]
  exact Chip.record_room payload unit hc hroom hheld

/-- A record in the queue stays there. -/
theorem Grows.mem {a b : Chip} (h : Grows a b) {r : RecordIn} (hr : r ∈ a.recorder.queue) : r ∈ b.recorder.queue := by
  obtain ⟨l, hl⟩ := h
  rw [hl]
  exact List.mem_append_left _ hr

theorem EndKept.resume (s : Chip) (q due : Nat) : EndKept s (s.resume q due) := (EndKept.emitWaits s q _).trans (EndKept.only (Only.modSq _))

theorem EndKept.releaseBarrier (s : Chip) (b due : Nat) : EndKept s (s.releaseBarrier b due) :=
  EndKept.foldl _ (fun c q => EndKept.ite (EndKept.resume c q due) (EndKept.refl c)) _ s

theorem EndKept.completeBarrier (s : Chip) (b : Nat) : EndKept s (s.completeBarrier b) := by
  have hmod : ∀ (c : Chip) {f}, EndKept c (c.modBarrier b f) := fun c _ => EndKept.only (Only.modBarrier c)
  unfold Chip.completeBarrier
  refine EndKept.ite (EndKept.refl s) (EndKept.ite (EndKept.ite (EndKept.refl s) ?_) (EndKept.ite (hmod s) ?_))
  · exact (hmod s).trans (EndKept.recordBy ..)
  · exact ((EndKept.only (Only.sendCluster s)).trans (hmod _)).trans (EndKept.releaseBarrier ..)

theorem EndKept.sendArrive (s : Chip) (b : Nat) (w : Bool) : EndKept s (s.sendArrive b w) := by
  have hmod : ∀ (c : Chip) {f}, EndKept c (c.modBarrier b f) := fun c _ => EndKept.only (Only.modBarrier c)
  unfold Chip.sendArrive Chip.putArrival
  dsimp only
  refine EndKept.trans (hmod s) (EndKept.ite ((hmod _).trans (EndKept.completeBarrier ..)) (EndKept.ite ?_ (EndKept.ite ?_ ?_)))
  · exact EndKept.only (Only.sendCluster _)
  · exact EndKept.refl _
  · exact (hmod _).trans (EndKept.only (Only.modCluster _))

theorem EndKept.evalBarrier (s : Chip) (leaver : Option Nat) (b : Nat) : EndKept s (s.evalBarrier leaver b) := by
  unfold Chip.evalBarrier
  dsimp only
  refine EndKept.ite (EndKept.ite (EndKept.releaseBarrier ..) (EndKept.refl s)) (EndKept.ite ?_ (EndKept.ite (EndKept.sendArrive ..) (EndKept.refl s)))
  split
  · exact EndKept.ite (EndKept.sendArrive ..) (EndKept.refl s)
  · exact EndKept.refl s

theorem EndKept.leaveBarriers (s : Chip) (q : Nat) : EndKept s (s.leaveBarriers q) :=
  (EndKept.only (Only.modSq s)).trans (EndKept.foldl _ (fun c b => EndKept.evalBarrier c (some q) b) _ _)

theorem EndKept.unsealLanes (s : Chip) (q : Nat) : EndKept s (s.unsealLanes q) := by
  refine EndKept.foldl _ (fun c n => ?_) _ s
  exact EndKept.modLane c n fun _ => ⟨rfl, rfl, rfl, id⟩

theorem EndKept.abandonFields (s : Chip) (q : Nat) : EndKept s (s.abandonFields q) := by
  unfold Chip.abandonFields
  dsimp only
  refine EndKept.trans (EndKept.trans (EndKept.foldl _ (fun c k => ?_) _ s) (EndKept.only (Only.modSq _)))
    (EndKept.unsealLanes _ q)
  exact (EndKept.ite (EndKept.refl c) (EndKept.only (Only.freeInjector c))).trans (EndKept.modSeal _ k fun _ _ => rfl)

theorem EndKept.endSeals (s : Chip) (q cause : Nat) : EndKept s (s.endSeals q cause) := by
  refine (EndKept.abandonFields s q).trans (EndKept.foldl _ (fun c k => ?_) _ _)
  refine EndKept.trans ?_ (EndKept.modSeal _ k fun _ hz => hz)
  unfold Chip.closeProof
  exact EndKept.ite (EndKept.modSeal c k fun _ hz => hz) (EndKept.modSeal c k fun _ hz => hz)

theorem EndKept.endAcq (s : Chip) (q : Nat) : EndKept s (s.endAcq q) :=
  EndKept.beside (s.endAcq_reaches q) (Lane.dustKept_only (s.endAcq_reaches q)) (RoomKept.endAcq s q).grows

theorem EndKept.endRun (s : Chip) (q cause : Nat) : EndKept s (s.endRun q cause) := by
  unfold Chip.endRun
  extract_lets released covered stopped
  have hreleased : EndKept s released := ((EndKept.endAcq s q).trans (EndKept.endSeals _ q cause)).trans (EndKept.only (Only.endPorts _))
  have hlanes : EndKept released (if cause = 6 then released.coverLanes (released.lanesOf q) else released.coverAtBoundary q (released.lanesOf q)) :=
    EndKept.ite (EndKept.coverLanes released _) (EndKept.coverAtBoundary released q _)
  have hcovered : EndKept released covered :=
    (hlanes.trans (EndKept.eachLane _ _ fun _ => Lane.dustKept_settle)).trans (EndKept.only (Only.clearRing _))
  have hstopped : EndKept s stopped := (hreleased.trans hcovered).trans (EndKept.only (Only.modSq covered))
  exact EndKept.ite hstopped (hstopped.trans (EndKept.leaveBarriers stopped q))

theorem EndKept.endIfEmpty (s : Chip) (q : Nat) : EndKept s (s.endIfEmpty q) := EndKept.ite (EndKept.refl s) (EndKept.endRun s q _)

/-! ## A mask that stops (R234, R265) -/

theorem EndKept.earlySites (s : Chip) (q m : Nat) : EndKept s (s.earlySites q m) := by
  refine EndKept.foldl _ (fun c k => ?_) _ s
  exact EndKept.modSeal c k fun _ hz => hz

theorem EndKept.stopMask (s : Chip) (q m : Nat) : EndKept s (s.stopMask q m) := by
  unfold Chip.stopMask
  extract_lets covered cancelled
  have hcovered : EndKept s covered := EndKept.coverAtBoundary s q _
  have hcancelled : EndKept covered cancelled := (EndKept.only (Only.dramCancel covered)).trans (EndKept.only (Only.modSq _))
  have htimers : Only captureParts cancelled (cancelled.stopMaskTimers q m) := Only.foldl _ (fun c _ => Only.stopTimer c) _ _
  have hstopped : EndKept cancelled (cancelled.stopMaskTimers q m) :=
    EndKept.beside htimers (Lane.dustKept_only htimers) (RoomKept.stopMaskTimers cancelled q m).grows
  exact ((hcovered.trans hcancelled).trans hstopped).trans (EndKept.earlySites _ q m)

end Sys2Proof.Machine
end

section
/-! SUPPORT. Masks that park (R239, R264, R265). -/

namespace Sys2Proof.Machine

/-! ## A mask that stops -/

/-- From `x` to `y` only bursts have left the ring. -/
def Seq.RingTo (x y : Seq) : Prop := y = { x with ring := y.ring, fetching := y.fetching }

theorem Seq.RingTo.trans {x y z : Seq} (h : x.RingTo y) (k : y.RingTo z) : x.RingTo z := by
  unfold Seq.RingTo at *
  rw [k, h]

/-- What bursts that leave the ring do not reach. -/
theorem Seq.RingTo.field {α : Type _} {x y : Seq} (h : x.RingTo y) (f : Seq → α) : f y = f { x with ring := y.ring, fetching := y.fetching } :=
  congrArg f h

theorem Chip.sq_stopMask (s : Chip) (q m : Nat) : (s.sq q).RingTo ((s.stopMask q m).sq q) := by
  unfold Chip.stopMask
  extract_lets covered cancelled
  have hearly : ∀ c : Chip, Only [.sealed_] c (c.earlySites q m) := fun c => Only.foldl _ (fun c _ => Only.modSeal c) _ c
  have htimers : Only captureParts cancelled (cancelled.stopMaskTimers q m) := Only.foldl _ (fun c _ => Only.stopTimer c) _ _
  rw [(hearly _).sq (by decide), htimers.sq (by decide), Chip.sq_modSq, if_pos rfl, (Only.dramCancel covered).sq (by decide),
    (Only.coverAtBoundary s).sq (by decide)]
  rfl

theorem RoomKept.stopMask (s : Chip) (q m : Nat) : RoomKept s (s.stopMask q m) := by
  unfold Chip.stopMask
  extract_lets covered cancelled
  have hearly : ∀ c : Chip, Only [.sealed_] c (c.earlySites q m) := fun c => Only.foldl _ (fun c _ => Only.modSeal c) _ c
  have hcancelled : Only [.lanes, .dram, .seqs] s cancelled :=
    ((Only.coverAtBoundary s).mono (by simp)).comp (((Only.dramCancel covered).mono (by simp)).comp ((Only.modSq _).mono (by simp)))
  exact ((RoomKept.only hcancelled (by decide)).trans (RoomKept.stopMaskTimers cancelled q m)).trans (RoomKept.only (hearly _) (by decide))

/-- A lane that its sequencer covers at the boundary stands at the dust sheet. -/
theorem Chip.atDust_coverAtBoundary {s : Chip} {q n : Nat} {l : List Nat} (hn : n ∈ l) (hm : (s.lane n).mode ≠ 3) :
    ((s.coverAtBoundary q l).lane n).atDust = true := by
  have hkept : ∀ (l : List Nat) (t : Nat) (c : Chip), EndKept c (c.eachLane l fun _ => Lane.coverAt t) := fun l t c =>
    EndKept.eachLane c l fun _ => Lane.dustKept_coverAt _
  unfold Chip.coverAtBoundary
  generalize s.fine q (s.sq q).tb = t
  induction l generalizing s with
  | nil => exact absurd hn List.not_mem_nil
  | cons k l ih =>
    rcases List.mem_cons.mp hn with rfl | hn
    · refine ((hkept l t _).lanes n).dust ?_
      rw [Chip.lane_modLane, if_pos rfl]
      exact Lane.atDust_coverAt t hm
    · refine ih hn ?_
      have hk : EndKept s (s.modLane k (Lane.coverAt t)) := EndKept.modLane s k (Lane.dustKept_coverAt t)
      rw [(hk.lanes n).mode]
      exact hm

theorem Chip.atDust_stopMask {s : Chip} {q m n : Nat} (hn : n ∈ s.maskLanes q m) (hm : (s.lane n).mode ≠ 3) :
    ((s.stopMask q m).lane n).atDust = true := by
  unfold Chip.stopMask
  extract_lets covered cancelled
  have hcovered : (covered.lane n).atDust = true := Chip.atDust_coverAtBoundary hn hm
  have hearly : ∀ c : Chip, Only [.sealed_] c (c.earlySites q m) := fun c => Only.foldl _ (fun c _ => Only.modSeal c) _ c
  have htimers : Only captureParts cancelled (cancelled.stopMaskTimers q m) := Only.foldl _ (fun c _ => Only.stopTimer c) _ _
  have hcancelled : Only [.dram, .seqs] covered cancelled := ((Only.dramCancel covered).mono (by simp)).comp ((Only.modSq _).mono (by simp))
  rw [(hearly _).lane (by decide), htimers.lane (by decide), hcancelled.lane (by decide)]
  exact hcovered

/-- The lanes of a mask are those of its sites. -/
theorem Chip.maskLanes_eq {a b : Chip} {q : Nat} (h : ∀ n, (a.lane n).DustKept (b.lane n)) (hm : (b.sq q).masks = (a.sq q).masks) (m : Nat) :
    b.maskLanes q m = a.maskLanes q m := by
  unfold Chip.maskLanes Seq.inMask
  rw [Chip.lanesOf_eq fun n => (h n).owner, hm]
  exact List.filter_congr fun n _ => by rw [(h n).site]

/-! ## Masks that stop together -/

/-- From `a` to `b` the masks `l` of sequencer `q` have stopped. -/
structure MasksStopped (q : Nat) (l : List Nat) (a b : Chip) : Prop where
  seq : (a.sq q).RingTo (b.sq q)
  kept : EndKept a b
  room : RoomKept a b
  dust : ∀ m ∈ l, ∀ n ∈ a.maskLanes q m, (a.lane n).mode ≠ 3 → (b.lane n).atDust = true

theorem Chip.stopMasks (q : Nat) (l : List Nat) (s : Chip) : MasksStopped q l s (l.foldl (fun s m => s.stopMask q m) s) := by
  induction l generalizing s with
  | nil => exact ⟨rfl, EndKept.refl s, RoomKept.refl s, fun m hm => absurd hm List.not_mem_nil⟩
  | cons k l ih =>
    obtain ⟨hseq, hkept, hroom, hdust⟩ := ih (s.stopMask q k)
    have hfirst := EndKept.stopMask s q k
    refine ⟨(s.sq_stopMask q k).trans hseq, hfirst.trans hkept, (RoomKept.stopMask s q k).trans hroom, fun m hm n hn hmode => ?_⟩
    rcases List.mem_cons.mp hm with rfl | hm
    · exact (hkept.lanes n).dust (Chip.atDust_stopMask hn hmode)
    · refine hdust m hm n ?_ (by rw [(hfirst.lanes n).mode]; exact hmode)
      rw [Chip.maskLanes_eq hfirst.lanes ((s.sq_stopMask q k).field Seq.masks)]
      exact hn

/-! ## Parks (R265) -/

/-- Masks that are named have bits. -/
theorem maskBits_ne_zero {l : List Nat} (hl : l.Sublist (List.range 4)) (hne : l ≠ []) : maskBits l ≠ 0 := by
  have hall : ∀ l ∈ (List.range 4).sublists, l ≠ [] → maskBits l ≠ 0 := by decide
  exact hall l (List.mem_sublists.mpr hl) hne

/-- Sequencer `x` with masks parked. -/
def Seq.parks (bits : BitVec 4) (x : Seq) : Seq := { x with parked := x.parked ||| bits, underruns := satAdd 32 x.underruns 1 }

/-- The end of a run whose masks have all stopped, as the sequencer shows it. -/
theorem Chip.sq_endIfEmpty (s : Chip) (q : Nat) : (s.endIfEmpty q).sq q =
    if (s.sq q).masksUsed.any (s.sq q).plays then s.sq q else (s.sq q).fieldless.ended (if (s.sq q).parked = 0 then 3 else 4) := by
  unfold Chip.endIfEmpty
  dsimp only
  split
  · rfl
  · exact s.sq_endRun q _

/-- The end of a run whose masks have parked: that of the sequencer `x`, from whose ring bursts have left. -/
theorem Seq.parks_ends {x c t : Seq} {bits : BitVec 4} (hc : x.RingTo c) (hbits : bits ≠ 0)
    (ht : t = if (c.parks bits).masksUsed.any (c.parks bits).plays then c.parks bits
      else (c.parks bits).fieldless.ended (if (c.parks bits).parked = 0 then 3 else 4)) :
    t.parked = x.parked ||| bits ∧ t.underruns = satAdd 32 x.underruns 1 ∧
      (if ({ x with parked := x.parked ||| bits } : Seq).masksUsed.any ({ x with parked := x.parked ||| bits } : Seq).plays
        then t.state = x.state ∧ t.pc = x.pc else t.state = .parked ∧ t.endCause = 4) := by
  have hgen : c = _ := hc
  rw [hgen] at ht
  have hparked : ¬ ({ x with ring := c.ring, fetching := c.fetching }.parks bits).parked = 0 := fun h => hbits (BitVec.or_eq_zero_iff.mp h).2
  have hplays : ({ x with ring := c.ring, fetching := c.fetching }.parks bits).masksUsed.any ({ x with ring := c.ring, fetching := c.fetching }.parks bits).plays =
    ({ x with parked := x.parked ||| bits } : Seq).masksUsed.any ({ x with parked := x.parked ||| bits } : Seq).plays := rfl
  rw [if_neg hparked, hplays] at ht
  rw [ht]
  split <;> exact ⟨rfl, rfl, rfl, rfl⟩

theorem Chip.parkMasks_parked {s : Chip} {q : Nat} {l : List Nat} (hl : l.Sublist (List.range 4)) (hne : l ≠ []) {code : Nat} (hc : code / 0x1000 = 5)
    (detail : Bytes) : Parked q l code detail s (s.parkMasks q l code detail) := by
  obtain ⟨hseq, hkept, hroom, hdust⟩ := s.stopMasks q l
  unfold Chip.parkMasks
  extract_lets bits stopped parked
  have hparks : Only [.seqs] stopped parked := Only.modSq stopped
  have hpq : parked.sq q = (stopped.sq q).parks bits := (stopped.sq_modSq ..).trans (if_pos rfl)
  have hproom : RoomKept s parked := hroom.trans (RoomKept.only hparks (by decide))
  have hrecord := fun h1 h2 => Chip.report_recorded (s := parked) (7000 + 4 * q + l.headD 0) 0xFF00 0x81 (q + 256 * bits.toNat) q
    (le 1 q ++ le 1 bits.toNat ++ detail) hc h1 h2
  have hholds := (parked.record code 5 (le 1 q ++ le 1 bits.toNat ++ detail) q).raise_holds (7000 + 4 * q + l.headD 0) 0xFF00 0x81 code 5 (q + 256 * bits.toNat)
  have hreported := EndKept.report parked (7000 + 4 * q + l.headD 0) 0xFF00 0x81 code (q + 256 * bits.toNat) q (le 1 q ++ le 1 bits.toNat ++ detail)
  have huq := parked.sq_report (7000 + 4 * q + l.headD 0) 0xFF00 0x81 code (q + 256 * bits.toNat) q (le 1 q ++ le 1 bits.toNat ++ detail) q
  generalize (parked.record code 5 (le 1 q ++ le 1 bits.toNat ++ detail) q).raise (7000 + 4 * q + l.headD 0) 0xFF00 0x81 code 5 (q + 256 * bits.toNat) = u
    at hrecord hholds hreported huq
  have hend := EndKept.endIfEmpty u q
  have hseqEnd := u.sq_endIfEmpty q
  rw [huq, hpq] at hseqEnd
  obtain ⟨hbits, hcount, hstate⟩ := Seq.parks_ends hseq (maskBits_ne_zero hl hne) hseqEnd
  refine ⟨hbits, hcount, hend.conditions _ hholds, fun hin hheld => ?_, fun m hm n hn hmode => ?_, hstate⟩
  · obtain ⟨r, hr, hfields⟩ := hrecord (by rw [hproom.inChannel]; exact hin) (by rw [hproom.held]; exact hheld)
    exact ⟨r, hend.queue.mem hr, hfields⟩
  · have hafter : EndKept stopped (u.endIfEmpty q) := (EndKept.only hparks).trans (hreported.trans hend)
    exact (hafter.lanes n).dust (hdust m hm n hn hmode)

end Sys2Proof.Machine
end

section
/-! SUPPORT. UNDERRUN and INVALID_RECORD_PARK (R239, R264, R265), and fields that fail (R324, R327). -/

namespace Sys2Proof.Machine

/-! ## UNDERRUN and INVALID_RECORD_PARK -/

theorem Seq.streamMasks_sublist (x : Seq) (ms : BitVec 4) : (x.streamMasks ms).Sublist (List.range 4) := by
  unfold Seq.streamMasks Seq.living
  split
  · split
    · exact List.nil_sublist _
    · exact List.filter_sublist
  · exact List.filter_sublist

theorem underrun_parks {q : Fin 16} {ms : BitVec 4} {s : State} (e : Bool) (hr : (s.chip.sq q.val).state = .running)
    (hl : (s.chip.sq q.val).streamMasks ms ≠ []) : ∃ t, exec (.underrun q ms e) s = .next t ∧
      Parked q.val ((s.chip.sq q.val).streamMasks ms) 0x5001 (le 1 (if e then 1 else 0) ++ [0] ++ le 4 (s.chip.sq q.val).vectors) s.chip t.chip := by
  have hstep : underrun q.val ms e s.chip = s.chip.parkMasks q.val ((s.chip.sq q.val).streamMasks ms) 0x5001
      (le 1 (if e then 1 else 0) ++ [0] ++ le 4 (s.chip.sq q.val).vectors) := if_neg (by simp [hr, hl])
  have hparked := Chip.parkMasks_parked (s := s.chip) (q := q.val) (Seq.streamMasks_sublist _ ms) hl (code := 0x5001) (by decide)
    (le 1 (if e then 1 else 0) ++ [0] ++ le 4 (s.chip.sq q.val).vectors)
  rw [← hstep] at hparked
  exact ⟨{ s with chip := underrun q.val ms e s.chip }, rfl, hparked⟩

section
variable {q : Fin 16} {ms : BitVec 4} {g : Word16} {i : Word32} {s : State}

theorem invalidRecord_parks (hr : (s.chip.sq q.val).state = .running)
    (hl : (((s.chip.sq q.val).streamMasks ms).filter fun m => s.chip.invalidNext q.val [m] g.toNat i.toNat) ≠ []) :
    ∃ t, exec (.invalidRecordPark q ms g i) s = .next t ∧
      Parked q.val (((s.chip.sq q.val).streamMasks ms).filter fun m => s.chip.invalidNext q.val [m] g.toNat i.toNat) 0x5002
        (le 2 g.toNat ++ le 4 i.toNat) s.chip t.chip := by
  have hstep : invalidRecord q.val ms g.toNat i.toNat s.chip = s.chip.parkMasks q.val
      (((s.chip.sq q.val).streamMasks ms).filter fun m => s.chip.invalidNext q.val [m] g.toNat i.toNat) 0x5002 (le 2 g.toNat ++ le 4 i.toNat) := by
    refine if_neg ?_
    rintro (h | h)
    · exact h hr
    · exact hl h
  have hparked := Chip.parkMasks_parked (s := s.chip) (q := q.val) (List.filter_sublist.trans (Seq.streamMasks_sublist _ ms)) hl (code := 0x5002) (by decide)
    (le 2 g.toNat ++ le 4 i.toNat)
  rw [← hstep] at hparked
  exact ⟨{ s with chip := invalidRecord q.val ms g.toNat i.toNat s.chip }, rfl, hparked⟩

theorem invalidRecord_none (hl : (((s.chip.sq q.val).streamMasks ms).filter fun m => s.chip.invalidNext q.val [m] g.toNat i.toNat) = []) :
    exec (.invalidRecordPark q ms g i) s = .next s := by
  have hstep : invalidRecord q.val ms g.toNat i.toNat s.chip = s.chip := if_pos (.inr hl)
  exact congrArg (next s) hstep

end

/-! ## One failed field (R327) -/

/-- From `x` to `y` only failures have been counted and masks dropped. -/
def Seq.FailTo (x y : Seq) : Prop :=
  y = { x with
    ring := y.ring, fetching := y.fetching, dropped := y.dropped
    sealedCfg := { x.sealedCfg with failed := y.sealedCfg.failed, lastFailure := y.sealedCfg.lastFailure } }

theorem Seq.FailTo.trans {x y z : Seq} (h : x.FailTo y) (k : y.FailTo z) : x.FailTo z := by
  unfold Seq.FailTo at *
  rw [k, h]

/-- What failures do not reach. -/
theorem Seq.FailTo.field {α : Type _} {x y : Seq} (h : x.FailTo y) (f : Seq → α) :
    f y = f { x with
      ring := y.ring, fetching := y.fetching, dropped := y.dropped
      sealedCfg := { x.sealedCfg with failed := y.sealedCfg.failed, lastFailure := y.sealedCfg.lastFailure } } := congrArg f h

/-- What 0x3700:0B reads after the failure of site `k` with a cause. -/
def Seq.failureOf (k : Nat) (cause : Byte) (x : Seq) : Bytes := le 1 k ++ [cause] ++ le 1 x.sealedCfg.recipe ++ [0]

/-- Sequencer `x` with the failure of site `k` counted. -/
def Seq.countFailure (k : Nat) (cause : Byte) (x : Seq) : Seq :=
  { x with sealedCfg := { x.sealedCfg with failed := satAdd 32 x.sealedCfg.failed 1, lastFailure := x.failureOf k cause } }

/-- Sequencer `x` with mask `m` dropped. -/
def Seq.dropMask (m : Nat) (x : Seq) : Seq := { x with dropped := x.dropped ||| maskBits [m] }

/-- The device with the failed field of site `k` counted, recorded and reported, its mask not yet dropped. -/
def Chip.noteFailure (q k : Nat) (s : Chip) : Chip :=
  let cause := (s.seal k).cause
  ((((s.modSq q (Seq.countFailure k cause)).modSeal k fun z => { z with cause := 0, run := { z.run with failed := z.run.failed + 1 } }).record 0x5003 5
    (le 1 k ++ [cause] ++ le 1 q ++ le 1 (s.sq q).sealedCfg.recipe) q).raise (7100 + k) 0xFF00 0x81 0x5003 5 (k + 256 * cause.toNat))

/-- The device with a failed field's mask dropped. -/
def Chip.dropFailed (q m : Nat) (s : Chip) : Chip := (s.stopMask q m).modSq q (Seq.dropMask m)

theorem Chip.reportField_eq (s : Chip) (q k : Nat) : s.reportField q k =
    if (s.sq q).plays ((s.sq q).maskOf k) then (s.noteFailure q k).dropFailed q ((s.sq q).maskOf k) else s.noteFailure q k := rfl

section
variable (s : Chip) (q k : Nat)

theorem Chip.sq_noteFailure : (s.noteFailure q k).sq q = (s.sq q).countFailure k (s.seal k).cause := by
  unfold Chip.noteFailure
  dsimp only
  rw [Chip.sq_report, (Only.modSeal _).sq (by decide), Chip.sq_modSq, if_pos rfl]

theorem EndKept.noteFailure : EndKept s (s.noteFailure q k) :=
  ((EndKept.only (Only.modSq s)).trans (EndKept.modSeal _ k fun _ _ => rfl)).trans (EndKept.report ..)

theorem Chip.noteFailure_clears : ((s.noteFailure q k).seal k).cause = 0 := by
  refine (EndKept.report ..).causes k ?_
  rw [Chip.seal_modSeal, if_pos rfl]

theorem Chip.noteFailure_raises : ((s.noteFailure q k).host.conditions.any fun c => c.key == 7100 + k) = true := Chip.raise_holds ..

theorem Chip.noteFailure_records (hroom : s.recorder.inChannel < 32) (hheld : SMap.get s.recorder.held [] 5 = []) :
    ∃ r ∈ (s.noteFailure q k).recorder.queue, r.code = 0x5003 ∧ r.unit = q ∧
      r.payload = pad 12 (le 1 k ++ [(s.seal k).cause] ++ le 1 q ++ le 1 (s.sq q).sealedCfg.recipe) :=
  Chip.report_recorded _ _ _ _ _ _ (by decide) hroom hheld

end

theorem Chip.sq_dropFailed (s : Chip) (q m : Nat) : ((s.sq q).dropMask m).RingTo ((s.dropFailed q m).sq q) := by
  have hring : (s.stopMask q m).sq q = _ := s.sq_stopMask q m
  unfold Chip.dropFailed
  rw [Chip.sq_modSq, if_pos rfl, hring]
  rfl

theorem EndKept.dropFailed (s : Chip) (q m : Nat) : EndKept s (s.dropFailed q m) := (EndKept.stopMask s q m).trans (EndKept.only (Only.modSq _))

theorem Chip.atDust_dropFailed {s : Chip} {q m n : Nat} (hn : n ∈ s.maskLanes q m) (hm : (s.lane n).mode ≠ 3) :
    ((s.dropFailed q m).lane n).atDust = true := by
  unfold Chip.dropFailed
  rw [(Only.modSq _).lane (by decide)]
  exact Chip.atDust_stopMask hn hm

/-- From `a` to `b` the failed field of site `k` of sequencer `q` has been reported. -/
structure FieldReported (q k : Nat) (a b : Chip) : Prop where
  seq : (a.sq q).FailTo (b.sq q)
  kept : EndKept a b
  failed : (b.sq q).sealedCfg.failed = satAdd 32 (a.sq q).sealedCfg.failed 1
  last : (b.sq q).sealedCfg.lastFailure = (a.sq q).failureOf k (a.seal k).cause
  dropped : (b.sq q).dropped = if (a.sq q).plays ((a.sq q).maskOf k) then (a.sq q).dropped ||| maskBits [(a.sq q).maskOf k] else (a.sq q).dropped
  cleared : (b.seal k).cause = 0
  raised : (b.host.conditions.any fun c => c.key == 7100 + k) = true
  dust : (a.sq q).plays ((a.sq q).maskOf k) = true → ∀ n ∈ a.maskLanes q ((a.sq q).maskOf k), (a.lane n).mode ≠ 3 → (b.lane n).atDust = true
  recorded : a.recorder.inChannel < 32 → SMap.get a.recorder.held [] 5 = [] → ∃ r ∈ b.recorder.queue, r.code = 0x5003 ∧ r.unit = q ∧
    r.payload = pad 12 (le 1 k ++ [(a.seal k).cause] ++ le 1 q ++ le 1 (a.sq q).sealedCfg.recipe)

theorem Chip.reportField_reported (s : Chip) (q k : Nat) : FieldReported q k s (s.reportField q k) := by
  have hsq := s.sq_noteFailure q k
  have hnoted := EndKept.noteFailure s q k
  have hcleared := s.noteFailure_clears q k
  have hraised := s.noteFailure_raises q k
  have hrecorded := s.noteFailure_records q k
  rw [Chip.reportField_eq]
  generalize s.noteFailure q k = c at hsq hnoted hcleared hraised hrecorded
  split
  next hplays =>
    have hdropped := EndKept.dropFailed c q ((s.sq q).maskOf k)
    have hring : (c.dropFailed q ((s.sq q).maskOf k)).sq q = _ := c.sq_dropFailed q ((s.sq q).maskOf k)
    rw [hsq] at hring
    refine ⟨?_, hnoted.trans hdropped, ?_, ?_, ?_, hdropped.causes k hcleared, hdropped.conditions _ hraised, fun _ n hn hmode => ?_, fun h1 h2 => ?_⟩
    · rw [hring]
      rfl
    · rw [hring]
      rfl
    · rw [hring]
      rfl
    · rw [hring]
      exact (if_pos hplays).symm
    · refine Chip.atDust_dropFailed ?_ (by rw [(hnoted.lanes n).mode]; exact hmode)
      rw [Chip.maskLanes_eq hnoted.lanes (by rw [hsq]; rfl)]
      exact hn
    · obtain ⟨r, hr, hfields⟩ := hrecorded h1 h2
      exact ⟨r, hdropped.queue.mem hr, hfields⟩
  next hplays =>
    refine ⟨?_, hnoted, ?_, ?_, ?_, hcleared, hraised, fun h => absurd h hplays, hrecorded⟩
    · rw [hsq]
      rfl
    · rw [hsq]
      rfl
    · rw [hsq]
      rfl
    · rw [hsq]
      exact (if_neg hplays).symm

end Sys2Proof.Machine
end

section
/-! SUPPORT. The fields of a sequencer that fail together, and the end of its run (R324, R327). -/

namespace Sys2Proof.Machine

/-! ## Masks as bits -/

/-- The bit of one mask. -/
theorem maskBits_one_getLsbD (m : Nat) {i : Nat} (hi : i < 4) : (maskBits [m]).getLsbD i = (m == i) := by
  unfold maskBits
  rw [BitVec.getLsbD_ofNat, List.map_singleton, List.sum_singleton, Nat.testBit_two_pow, decide_eq_true hi, Bool.true_and, beq_eq_decide]

/-- The bits of masks that are named in order. -/
theorem maskBits_getLsbD {l : List Nat} (hl : l.Sublist (List.range 4)) {i : Nat} (hi : i < 4) : (maskBits l).getLsbD i = l.contains i := by
  have hall : ∀ l ∈ (List.range 4).sublists, ∀ i < 4, (maskBits l).getLsbD i = l.contains i := by decide
  exact hall l (List.mem_sublists.mpr hl) i hi

/-- The masks of a sequencer that play and hold a site of a list. -/
def Seq.masksOf (x : Seq) (ks : List Nat) : List Nat := (List.range 4).filter fun m => x.plays m && ks.any fun j => x.maskOf j == m

theorem Seq.mem_masksOf {x : Seq} {ks : List Nat} {m : Nat} : m ∈ x.masksOf ks ↔ m < 4 ∧ x.plays m = true ∧ (ks.any fun j => x.maskOf j == m) = true := by
  unfold Seq.masksOf
  rw [List.mem_filter, List.mem_range, Bool.and_eq_true]

/-- The bits of `Seq.masksOf`. -/
theorem Seq.masksOf_getLsbD (x : Seq) (ks : List Nat) {i : Nat} (hi : i < 4) :
    (maskBits (x.masksOf ks)).getLsbD i = (x.plays i && ks.any fun j => x.maskOf j == i) := by
  rw [maskBits_getLsbD (l := x.masksOf ks) List.filter_sublist hi, Bool.eq_iff_iff, List.contains_iff_mem, Seq.mem_masksOf, Bool.and_eq_true]
  exact and_iff_right hi

/-! ## Fields that fail together -/

/-- From `a` to `b` the failed fields of the sites `ks` of sequencer `q` have been reported. -/
structure FieldsReported (q : Nat) (ks : List Nat) (a b : Chip) : Prop where
  seq : (a.sq q).FailTo (b.sq q)
  kept : EndKept a b
  failed : ks ≠ [] → (b.sq q).sealedCfg.failed = satAdd 32 (a.sq q).sealedCfg.failed ks.length
  dropped : ∀ i < 4, (b.sq q).dropped.getLsbD i = ((a.sq q).dropped.getLsbD i || ((a.sq q).plays i && ks.any fun j => (a.sq q).maskOf j == i))
  cleared : ∀ j ∈ ks, (b.seal j).cause = 0
  raised : ∀ j ∈ ks, (b.host.conditions.any fun c => c.key == 7100 + j) = true
  dust : ∀ m ∈ (a.sq q).masksOf ks, ∀ n ∈ a.maskLanes q m, (a.lane n).mode ≠ 3 → (b.lane n).atDust = true

theorem satAdd_one_add (a n : Nat) : satAdd 32 (satAdd 32 a 1) n = satAdd 32 a (n + 1) := by
  unfold satAdd
  omega

section
variable {q k : Nat} {a b : Chip}

theorem FieldReported.dropped_getLsbD (h : FieldReported q k a b) {i : Nat} (hi : i < 4) :
    (b.sq q).dropped.getLsbD i = ((a.sq q).dropped.getLsbD i || ((a.sq q).plays i && (a.sq q).maskOf k == i)) := by
  rw [h.dropped]
  by_cases hm : (a.sq q).maskOf k = i
  · split
    next hp => rw [BitVec.getLsbD_or, maskBits_one_getLsbD _ hi, ← hm, hp, Bool.true_and]
    next hp => rw [hm, Bool.not_eq_true] at hp; rw [hp, Bool.false_and, Bool.or_false]
  · have hne : ((a.sq q).maskOf k == i) = false := beq_false_of_ne hm
    rw [hne, Bool.and_false, Bool.or_false]
    split
    · rw [BitVec.getLsbD_or, maskBits_one_getLsbD _ hi, hne, Bool.or_false]
    · rfl

/-- A mask that plays is dropped by no failure of another mask's field. -/
theorem FieldReported.plays (h : FieldReported q k a b) {i : Nat} (hi : i < 4) :
    (b.sq q).plays i = ((a.sq q).plays i && !((a.sq q).plays i && (a.sq q).maskOf k == i)) := by
  have hmasks : (b.sq q).masks = (a.sq q).masks := h.seq.field Seq.masks
  have hparked : (b.sq q).parked = (a.sq q).parked := h.seq.field Seq.parked
  have hplays : (b.sq q).plays i = ((a.sq q).masks.getD i 0 != 0 && !(a.sq q).parked.getLsbD i && !(b.sq q).dropped.getLsbD i) := by
    unfold Seq.plays
    rw [hmasks, hparked]
  rw [hplays, h.dropped_getLsbD hi, Bool.not_or, ← Bool.and_assoc]
  rfl

theorem FieldReported.maskOf (h : FieldReported q k a b) (j : Nat) : (b.sq q).maskOf j = (a.sq q).maskOf j := h.seq.field (Seq.maskOf · j)

end

theorem Chip.reportFields_reported (q : Nat) (ks : List Nat) (s : Chip) : FieldsReported q ks s (ks.foldl (fun s k => s.reportField q k) s) := by
  induction ks generalizing s with
  | nil =>
    refine ⟨rfl, EndKept.refl s, fun h => absurd rfl h, fun i _ => ?_, fun j hj => absurd hj List.not_mem_nil, fun j hj => absurd hj List.not_mem_nil, fun m hm => ?_⟩
    · simp
    · simp [Seq.masksOf] at hm
  | cons k ks ih =>
    have hone := s.reportField_reported q k
    have hrest := ih (s.reportField q k)
    rw [List.foldl_cons]
    generalize s.reportField q k = c at hone hrest
    refine ⟨hone.seq.trans hrest.seq, hone.kept.trans hrest.kept, fun _ => ?_, fun i hi => ?_, fun j hj => ?_, fun j hj => ?_, fun m hm n hn hmode => ?_⟩
    · by_cases hks : ks = []
      · subst hks
        exact hone.failed
      · rw [hrest.failed hks, hone.failed]
        exact satAdd_one_add _ _
    · rw [hrest.dropped i hi, hone.dropped_getLsbD hi, hone.plays hi, List.any_cons]
      simp only [hone.maskOf]
      cases (s.sq q).dropped.getLsbD i <;> cases (s.sq q).plays i <;> cases (s.sq q).maskOf k == i <;> rfl
    · rcases List.mem_cons.mp hj with rfl | hj
      · exact hrest.kept.causes j hone.cleared
      · exact hrest.cleared j hj
    · rcases List.mem_cons.mp hj with rfl | hj
      · exact hrest.kept.conditions _ hone.raised
      · exact hrest.raised j hj
    · obtain ⟨hm4, hplays, hany⟩ := Seq.mem_masksOf.mp hm
      by_cases hk : (s.sq q).maskOf k = m
      · subst hk
        exact (hrest.kept.lanes n).dust (hone.dust hplays n hn hmode)
      · have hne : ((s.sq q).maskOf k == m) = false := beq_false_of_ne hk
        rw [List.any_cons, hne, Bool.false_or] at hany
        refine hrest.dust m (Seq.mem_masksOf.mpr ⟨hm4, ?_, ?_⟩) n ?_ (by rw [(hone.kept.lanes n).mode]; exact hmode)
        · rw [hone.plays hm4, hplays, hne]
          rfl
        · simp only [hone.maskOf]
          exact hany
        · rw [Chip.maskLanes_eq hone.kept.lanes (hone.seq.field Seq.masks)]
          exact hn

/-- Fields that fail together drop the masks that play and hold their sites. -/
theorem FieldsReported.dropped_eq {q : Nat} {ks : List Nat} {a b : Chip} (h : FieldsReported q ks a b) :
    (b.sq q).dropped = (a.sq q).dropped ||| maskBits ((a.sq q).masksOf ks) := by
  refine BitVec.eq_of_getLsbD_eq fun i hi => ?_
  rw [h.dropped i hi, BitVec.getLsbD_or, Seq.masksOf_getLsbD _ _ hi]

end Sys2Proof.Machine
end

section
/-! Vectors, sealed plays, missing vectors and failed fields (R237, R264, R265, R310, R324, R327). -/

namespace Sys2Proof.Machine

/-! ## FIELD_FAILURE -/

/-- The device at the failure point of a field: behind the hold vectors of a sequencer that waits. -/
def Chip.failureReached (q k : Nat) (s : Chip) : Chip :=
  if (s.sq q).state = .waiting then s.emitWaits q (s.holdsUntil q (s.seal k).failAt) else s

theorem fieldFailure_due {s : Chip} {q k : Nat} (hq : s.seqOfSite k = some q) (hc : (s.seal k).cause ≠ 0) (hr : (s.sq q).state.inRun = true) :
    fieldFailure k s = (((s.failureReached q k).failuresDue q).foldl (fun s k => s.reportField q k) (s.failureReached q k)).endIfEmpty q := by
  have hdue : ¬ ((s.seal k).cause = 0 ∨ (s.sq q).state.inRun = false) := fun h => h.elim hc fun hn => Bool.noConfusion (hr.symm.trans hn)
  unfold fieldFailure
  rw [hq]
  exact if_neg hdue

/-- Up to the failure point only hold vectors have gone out. -/
theorem Chip.failureReached_frame (s : Chip) (q k : Nat) :
    (s.sq q).HeldTo ((s.failureReached q k).sq q) ∧ EndKept s (s.failureReached q k) ∧ Only [.lanes, .seqs] s (s.failureReached q k) := by
  unfold Chip.failureReached
  split
  · exact ⟨s.emitWaits_heldTo q _, EndKept.emitWaits s q _, Only.emitWaits s⟩
  · exact ⟨Seq.HeldTo.refl _, EndKept.refl s, Only.refl s _⟩

/-- Sequencer `x` after hold vectors that lead to `y`, with failures counted and masks dropped as in `z`. -/
theorem Seq.failed_eq {x y z : Seq} (hy : x.HeldTo y) (hz : y.FailTo z) : z = { x with
    tb := y.tb, vecIndex := y.vecIndex, vectors := y.vectors, markers := y.markers, lastHold := y.lastHold, held := y.held
    ring := z.ring, fetching := z.fetching, dropped := z.dropped
    sealedCfg := { x.sealedCfg with failed := z.sealedCfg.failed, lastFailure := z.sealedCfg.lastFailure } } := by
  unfold Seq.HeldTo at hy
  unfold Seq.FailTo at hz
  rw [hz, hy]

/-- The end of a run where no mask plays on after the failures that lead from `x` to `z`, as the sequencer shows it. -/
theorem Seq.failed_ends {x y z t : Seq} (hy : x.HeldTo y) (hz : y.FailTo z)
    (ht : t = if z.masksUsed.any z.plays then z else z.fieldless.ended (if z.parked = 0 then 3 else 4)) :
    t.dropped = z.dropped ∧ t.sealedCfg.failed = z.sealedCfg.failed ∧ t.sealedCfg.lastFailure = z.sealedCfg.lastFailure ∧
      (if ({ x with dropped := z.dropped } : Seq).masksUsed.any ({ x with dropped := z.dropped } : Seq).plays then t.state = x.state ∧ t.pc = x.pc
        else t.state = if x.parked = 0 then .arming else .parked) := by
  have hgen := Seq.failed_eq hy hz
  have hplays : z.masksUsed.any z.plays = ({ x with dropped := z.dropped } : Seq).masksUsed.any ({ x with dropped := z.dropped } : Seq).plays := by
    rw [hgen]
    rfl
  have hparked : z.parked = x.parked := by rw [hgen]
  rw [ht, ← hplays]
  split
  next => exact ⟨rfl, rfl, rfl, by rw [hgen], by rw [hgen]⟩
  next =>
    refine ⟨rfl, rfl, rfl, ?_⟩
    rw [hparked]
    split <;> rfl

theorem fieldFailure_reports {q k : Fin 16} {s : State} (hq : s.chip.seqOfSite k.val = some q.val) (hc : (s.chip.seal k.val).cause ≠ 0)
    (hr : (s.chip.sq q.val).state.inRun = true) :
    let x := s.chip.sq q.val
    let ks := (s.chip.failureReached q.val k.val).failuresDue q.val
    let l := x.masksOf ks
    let y : Seq := { x with dropped := x.dropped ||| maskBits l }
    k.val ∈ ks → ∃ t, exec (.fieldFailure k) s = .next t ∧
      (∀ j ∈ ks, (t.chip.seal j).cause = 0 ∧ (t.chip.host.conditions.any fun c => c.key == 7100 + j) = true) ∧
      (t.chip.sq q.val).sealedCfg.failed = satAdd 32 x.sealedCfg.failed ks.length ∧ (t.chip.sq q.val).dropped = y.dropped ∧
      (∀ m ∈ l, ∀ n ∈ s.chip.maskLanes q.val m, (s.chip.lane n).mode ≠ 3 → (t.chip.lane n).atDust = true) ∧
      (ks = [k.val] → (t.chip.sq q.val).sealedCfg.lastFailure = le 1 k.val ++ [(s.chip.seal k.val).cause] ++ le 1 x.sealedCfg.recipe ++ [0] ∧
        (s.chip.recorder.inChannel < 32 → SMap.get s.chip.recorder.held [] 5 = [] → ∃ r ∈ t.chip.recorder.queue, r.code = 0x5003 ∧ r.unit = q.val ∧
          r.payload = pad 12 (le 1 k.val ++ [(s.chip.seal k.val).cause] ++ le 1 q.val ++ le 1 x.sealedCfg.recipe))) ∧
      (if y.masksUsed.any y.plays then (t.chip.sq q.val).state = x.state ∧ (t.chip.sq q.val).pc = x.pc
        else (t.chip.sq q.val).state = if x.parked = 0 then .arming else .parked) := by
  intro x ks l y hk
  obtain ⟨hheld, hreached, honly⟩ := s.chip.failureReached_frame q.val k.val
  have hstep : fieldFailure k.val s.chip = (ks.foldl (fun s k => s.reportField q.val k) (s.chip.failureReached q.val k.val)).endIfEmpty q.val :=
    fieldFailure_due hq hc hr
  have hreported := Chip.reportFields_reported q.val ks (s.chip.failureReached q.val k.val)
  have hsingle : ks = [k.val] → FieldReported q.val k.val (s.chip.failureReached q.val k.val)
      (ks.foldl (fun s k => s.reportField q.val k) (s.chip.failureReached q.val k.val)) := fun h => by
    rw [h]
    exact Chip.reportField_reported ..
  generalize s.chip.failureReached q.val k.val = d at hheld hreached honly hreported hsingle hstep
  generalize ks.foldl (fun s k => s.reportField q.val k) d = c at hreported hsingle hstep
  have hmasks : (d.sq q.val).masksOf ks = l := hheld.field (Seq.masksOf · ks)
  have hdropped : (c.sq q.val).dropped = y.dropped := by
    rw [hreported.dropped_eq, hmasks, hheld.field Seq.dropped]
  have hend := EndKept.endIfEmpty c q.val
  obtain ⟨tdropped, tfailed, tlast, tstate⟩ := Seq.failed_ends hheld hreported.seq (c.sq_endIfEmpty q.val)
  refine ⟨_, congrArg (next s) hstep, fun j hj => ⟨hend.causes j (hreported.cleared j hj), hend.conditions _ (hreported.raised j hj)⟩, ?_,
    tdropped.trans hdropped, fun m hm n hn hmode => ?_, fun hks => ⟨?_, fun hin hroom => ?_⟩, ?_⟩
  · refine tfailed.trans ((hreported.failed (List.ne_nil_of_mem hk)).trans ?_)
    rw [hheld.field fun z => z.sealedCfg.failed]
  · refine (hend.lanes n).dust (hreported.dust m (by rw [hmasks]; exact hm) n ?_ (by rw [(hreached.lanes n).mode]; exact hmode))
    rw [Chip.maskLanes_eq hreached.lanes (hheld.field Seq.masks)]
    exact hn
  · rw [tlast, (hsingle hks).last, honly.seal]
    exact hheld.field (Seq.failureOf k.val (s.chip.seal k.val).cause)
  · have hrecorder : d.recorder = s.chip.recorder := honly .recorder (by decide)
    obtain ⟨r, hr, hcode, hunit, hpayload⟩ := (hsingle hks).recorded (by rw [hrecorder]; exact hin) (by rw [hrecorder]; exact hroom)
    refine ⟨r, hend.queue.mem hr, hcode, hunit, ?_⟩
    rw [hpayload, honly.seal, hheld.field fun z => z.sealedCfg.recipe]
  · rw [hdropped] at tstate
    exact tstate

/-- Settles O25: PLAY and PLAYS by `playObs_step`, ALG by `alg_step`, the start of a sealed play by `sealedPlay_starts`, masks that park by
`Chip.parkMasks_parked`, and failed fields by `fieldFailure_reports`. -/
theorem vectorInstructions : Obligations.VectorInstructions := by
  unfold Obligations.VectorInstructions
  refine ⟨fun q r g o s h => ?_, fun q b o s h => ?_, fun q p o s h => ⟨fun a ha => alg_step h ha o, fun ha => alg_done h ha o⟩,
    fun q s h => sealedPlay_starts h, fun q s h => sealedPlay_waits h,
    fun q ms e g i s hr hl => ⟨underrun_parks e hr hl, fun hi => invalidRecord_parks hr hi, fun hi => invalidRecord_none hi⟩,
    fun q k s hq hc hr => fieldFailure_reports hq hc hr⟩
  · obtain ⟨hplays, hnone⟩ := playObs_step h (exec_play h [o])
    refine ⟨fun hp => hplays (List.cons_ne_nil _ _) fun e he => ?_, fun hp => hnone ⟨g.toNat, 4, s.chip.lanesOf q.val⟩ (List.mem_singleton_self _) hp⟩
    rw [List.mem_singleton.mp he]
    exact hp
  · obtain ⟨hplays, hnone⟩ := playObs_step h (exec_plays h [o])
    refine ⟨fun hne hp => ?_, fun m hm hp => hnone _ (Chip.mem_streams_plays.mpr ⟨m, hm, rfl⟩) hp⟩
    rw [Chip.leadSeg_plays hne] at hplays
    refine hplays (fun hnil => hne (List.map_eq_nil_iff.mp hnil)) fun e he => ?_
    obtain ⟨m, hm, rfl⟩ := Chip.mem_streams_plays.mp he
    exact hp m hm

end Sys2Proof.Machine
end

section
/-! SUPPORT. Tracking passes (R284, R285), and sample ports with their NCOs and frames (R291, R292, R296 to R304). -/

namespace Sys2Proof.Machine

/-! ## Tracking passes (R284, R285) -/

theorem exec_trackingPassStart (s : State) : exec .trackingPassStart s = next s (trackingStart s.chip) := rfl

theorem exec_trackingPassComplete (s : State) : exec .trackingPassComplete s = next s (trackingComplete s.chip) := rfl

/-- The tracking of the groups `x` with a pass under way that began at tick `now`. -/
def Segs.passStarted (now : Nat) (x : Segs) : Segs := { x with tracking := true, trackAt := now, trackTemp := x.tiTemp }

/-- The tracking of the groups `x` with its pass complete at tick `now`, each group's replica line read. -/
def Segs.passDone (now : Nat) (x : Segs) : Segs :=
  { x with tracking := false, trackDone := some now, trackDoneTemp := x.trackTemp, replicas := (List.range 8).map (Config.replica now) }

theorem Only.trackingStart (s : Chip) : Only [.segs, .background] s (trackingStart s) :=
  Only.ite (Only.refl s _) (((Only.modSegs s).mono (by simp)).comp ((Only.modBackground _).mono (by simp)))

theorem Only.trackingComplete (s : Chip) : Only [.segs, .background, .lanes] s (trackingComplete s) :=
  Only.ite (Only.refl s _)
    ((((Only.modSegs s).mono (by simp)).comp ((Only.eachLane _).mono (by simp))).comp ((Only.modBackground _).mono (by simp)))

theorem trackingStart_running {s : Chip} (h : s.segs.tracking = true) : trackingStart s = s := if_pos (.inl h)

theorem trackingStart_due {s : Chip} (hidle : s.segs.tracking = false) (harm : s.arming = false) (hdue : s.trackDue = true)
    (hti : s.runs 6 = true) : (trackingStart s).segs = s.segs.passStarted s.clk.ticks := by
  unfold trackingStart
  rw [if_neg (by simp [hidle, harm, hdue, hti])]
  rfl

theorem trackingComplete_stopped {s : Chip} (h : s.runs 6 = false) : trackingComplete s = s := if_pos (.inr h)

/-- The codes of the lanes follow from the lines read, and leave them as they are. -/
theorem trackingComplete_reads {s : Chip} (hrun : s.segs.tracking = true) (hti : s.runs 6 = true) :
    (trackingComplete s).segs = s.segs.passDone s.clk.ticks := by
  unfold trackingComplete
  rw [if_neg (by simp [hrun, hti])]
  extract_lets read
  have hcodes : Only [.lanes] read (read.eachLane (List.range 64) fun n => Lane.ready (read.laneRuns n) read.nowFine (read.laneCodes n)) :=
    Only.eachLane read
  have hsegs := hcodes .segs (by decide)
  exact hsegs

/-! ## Ports -/

@[simp] theorem Chip.port_modPort (s : Chip) (k j : Nat) (f : Port → Port) :
    (s.modPort k f).port j = if j = k then f (s.port k) else s.port j := SMap.get_upd _ _ k j f

/-- A port is unchanged where the segments' part, which holds the ports, is. -/
theorem Only.port {a b : Chip} {ps : List Part} (h : Only ps a b) (hp : Part.segs ∉ ps := by decide) (k : Nat) : b.port k = a.port k := by
  have hsegs : b.segs = a.segs := h .segs hp
  unfold Chip.port
  rw [hsegs]

/-! ## Enable and disable (R291, R292) -/

theorem Only.portLanes {k mode} (s : Chip) : Only [.lanes] s (s.portLanes k mode) := Only.foldl _ (fun c _ => Only.modLane c) _ s

theorem Chip.lane_modPort (s : Chip) (k n : Nat) (f : Port → Port) : (s.modPort k f).lane n = s.lane n := (Only.modPort s).lane (by decide) n

/-- The four lanes of a port have the mode that they are given. -/
theorem Chip.mode_portLanes (s : Chip) (k : Nat) (mode : Byte) {i : Nat} (hi : i < 4) : ((s.portLanes k mode).lane (4 * k + i)).mode = mode := by
  have hrange : List.range 4 = [0, 1, 2, 3] := rfl
  unfold Chip.portLanes
  rw [hrange]
  simp only [List.foldl_cons, List.foldl_nil, Chip.lane_modLane]
  obtain rfl | rfl | rfl | rfl : i = 0 ∨ i = 1 ∨ i = 2 ∨ i = 3 := by omega
  all_goals simp

/-- A lane of port `k` has a mode or an owner (R291). -/
def Chip.portUsed (s : Chip) (k : Nat) : Bool := (List.range 4).any fun i => (s.lane (4 * k + i)).mode != 0 || (s.lane (4 * k + i)).owner != 0xFF

theorem Chip.portUsed_of_owner {s : Chip} {k : Nat} (h : ∃ i < 4, (s.lane (4 * k + i)).owner ≠ 0xFF) : s.portUsed k = true := by
  obtain ⟨i, hi, howner⟩ := h
  refine List.any_eq_true.mpr ⟨i, List.mem_range.mpr hi, ?_⟩
  rw [bne_iff_ne.mpr howner, Bool.or_true]

theorem Chip.portUsed_of_free {s : Chip} {k : Nat} (h : ∀ i < 4, (s.lane (4 * k + i)).mode = 0 ∧ (s.lane (4 * k + i)).owner = 0xFF) :
    s.portUsed k = false := by
  refine List.any_eq_false.mpr fun i hi => ?_
  obtain ⟨hmode, howner⟩ := h i (List.mem_range.mp hi)
  simp [hmode, howner]

section
variable {r : Req} {c : Chip}

theorem setPort_locked {on : Bool} (h : c.portLocked (c.sel r.dest.session 0x3600 1) = true) : setPort on r c = (c, bad 3) := if_pos h

/-- A port with a lane that has a mode or an owner is not enabled. -/
theorem setPort_used (h : c.portLocked (c.sel r.dest.session 0x3600 1) = false) (hu : c.portUsed (c.sel r.dest.session 0x3600 1) = true) :
    setPort true r c = (c, bad 5) := (if_neg (by simp [h])).trans (if_pos ⟨rfl, hu⟩)

/-- A port whose lanes are free is enabled, and its lanes take their roles. -/
theorem setPort_enables (h : c.portLocked (c.sel r.dest.session 0x3600 1) = false)
    (hf : ∀ i < 4, (c.lane (4 * c.sel r.dest.session 0x3600 1 + i)).mode = 0 ∧ (c.lane (4 * c.sel r.dest.session 0x3600 1 + i)).owner = 0xFF) :
    setPort true r c = ((c.portLanes (c.sel r.dest.session 0x3600 1) 3).modPort (c.sel r.dest.session 0x3600 1) fun p => { p with enable := 1 }, ok) :=
  (if_neg (by simp [h])).trans ((if_neg fun hu => Bool.noConfusion ((Chip.portUsed_of_free hf).symm.trans hu.2)).trans (if_pos rfl))

theorem setPort_disables (h : c.portLocked (c.sel r.dest.session 0x3600 1) = false) :
    setPort false r c = ((if (c.port (c.sel r.dest.session 0x3600 1)).enable = 1 then c.portLanes (c.sel r.dest.session 0x3600 1) 0 else c).modPort
      (c.sel r.dest.session 0x3600 1) fun p => { p with enable := 0, sending := false }, ok) :=
  (if_neg (by simp [h])).trans ((if_neg fun hu => Bool.noConfusion hu.1).trans (if_neg Bool.false_ne_true))

end

section
variable {p : Path} {tag : Word16} {s : State} {r : Req} {c : Chip}

theorem exec_samplePortEnable (h : gate p tag 0x3600 2 [1] (fun _ _ => 0) s.chip = .go r c) :
    exec (.samplePortEnable p tag) s = next s (Chip.finish r.dest (setPort true r c)) := congrArg (next s) (hostWrite_go h)

theorem exec_samplePortDisable (h : gate p tag 0x3600 2 [0] (fun _ _ => 0) s.chip = .go r c) :
    exec (.samplePortDisable p tag) s = next s (Chip.finish r.dest (setPort false r c)) := congrArg (next s) (hostWrite_go h)

/-! ## NCO applies and phase resets (R304) -/

theorem exec_ncoApplyNow (h : gate p tag 0x3600 0x11 [1] (fun _ _ => 0) s.chip = .go r c) :
    exec (.ncoApplyNow p tag) s = next s (Chip.finish r.dest (ncoApply none r c)) := congrArg (next s) (hostWrite_go h)

theorem exec_ncoApplyAtMarker {m : Fin 4} (h : gate p tag 0x3600 0x11 (le 1 (m.val + 2)) (fun _ _ => 0) s.chip = .go r c) :
    exec (.ncoApplyAtMarker p tag m) s = next s (Chip.finish r.dest (ncoApply (some m.val) r c)) := congrArg (next s) (hostWrite_go h)

theorem exec_ncoPhaseReset (h : gate p tag 0x3600 0x13 [1] (fun _ _ => 0) s.chip = .go r c) :
    exec (.ncoPhaseReset p tag) s = next s (Chip.finish r.dest (ncoReset r c)) := congrArg (next s) (hostWrite_go h)

end

theorem Only.ncoApply {m r} (s : Chip) : Only [.segs] s (ncoApply m r s).1 := Only.modPort s

theorem Only.ncoReset {r} (s : Chip) : Only [.segs] s (ncoReset r s).1 := Only.modPort s

theorem ncoApply_port (m : Option Nat) (r : Req) (c : Chip) : ((ncoApply m r c).1.port (c.sel r.dest.session 0x3600 1)).apply =
    some { word := (c.port (c.sel r.dest.session 0x3600 1)).staged, marker := m, due := c.nowFine + ns100 } := by
  unfold ncoApply
  rw [Chip.port_modPort, if_pos rfl]

theorem ncoReset_port (r : Req) (c : Chip) : ((ncoReset r c).1.port (c.sel r.dest.session 0x3600 1)).resets =
    (c.port (c.sel r.dest.session 0x3600 1)).resets ++ [c.nowFine + ns100] := by
  unfold ncoReset
  rw [Chip.port_modPort, if_pos rfl]

/-! ## Frames (R296 to R303) -/

theorem exec_portFrame (k : Fin 16) (b : BitVec 10) (s : State) : exec (.portFrame k b) s = next s (portFrame k.val b.toNat s.chip) := rfl

theorem Only.sendLanes {k j} (s : Chip) : Only [.lanes] s (s.sendLanes k j) :=
  ((Only.modLane s).comp (Only.modLane _)).comp (Only.modLane _)

theorem Chip.flushSamples_reaches {u k} (s : Chip) : Only captureEndParts s (s.flushSamples u k) := by
  unfold Chip.flushSamples
  exact Only.ite (Only.refl s _) (((Only.modUnit s).mono (by decide)).comp (Chip.captureRecord_reaches _))

/-- Beside the port's last in-sample, one reaches capture only (R346, R350). -/
theorem Chip.inSample_reaches (s : Chip) (q k t : Nat) (v : Int) :
    Only captureEndParts (s.modPort k fun p => { p with last := v }) (s.inSample q k t v) := by
  unfold Chip.inSample
  extract_lets unit prev noted thr crosses triggered flushed step kept
  have hflush : ∀ c : Chip, Only captureEndParts c (c.flushSamples q k) := fun c => c.flushSamples_reaches
  have hunit : ∀ {f} (c : Chip), Only captureEndParts c (c.modUnit q f) := fun c => (Only.modUnit c).mono (by decide)
  have htriggered : Only captureEndParts noted triggered := Only.ite ((Only.trigger noted).mono (by decide)) (Only.refl noted _)
  have hflushed : Only captureEndParts noted flushed := htriggered.comp (Only.ite (hflush triggered) (Only.refl triggered _))
  have hstep : Only captureEndParts noted step.2 := hflushed.comp (hunit flushed)
  have hkept : Only captureEndParts noted kept := hstep.comp (hunit step.2)
  exact Only.ite (Only.refl noted _) (Only.ite (Only.ite (hkept.comp (Only.ite (hflush kept) (Only.refl kept _))) hstep) hflushed)

theorem Chip.port_inSample (s : Chip) (q k t : Nat) (v : Int) : (s.inSample q k t v).port k = { s.port k with last := v } := by
  rw [(s.inSample_reaches q k t v).port, Chip.port_modPort, if_pos rfl]

/-- The in-sample that port `p` takes from ten bits received (R297). -/
def Port.sampled (b : Nat) (p : Port) : Int := signed 10 (if p.format = 0 then (b % 1024) ^^^ 512 else b % 1024)

/-- Port `p` after a frame with the value `y` sent and the in-sample `v` (R296, R302). -/
def Port.framed (y v : Int) (p : Port) : Port :=
  { p with out := y, acc := (p.acc + p.word.toNat) % 2 ^ 32, sent := (p.sent + 1) % 2 ^ 64, last := v }

/-- A port with no apply and no phase reset pending keeps its word and its phase at a frame's beginning (R304). -/
theorem Port.settle_unscheduled {p : Port} (ha : p.apply = none) (hr : p.resets = []) (t : Nat) :
    (p.settle t).word = p.word ∧ (p.settle t).acc = p.acc ∧ (p.settle t).sent = p.sent := by
  simp [Port.settle, ha, hr]

theorem portFrame_stopped {s : Chip} {k : Nat} (h : (s.port k).sending = false) (b : Nat) : portFrame k b s = s := if_pos (.inl h)

/-- A frame of a sending port: what falls due by its beginning takes effect, then the frame goes out. -/
theorem portFrame_sends {s : Chip} {k : Nat} (hs : (s.port k).sending = true) (hq : (s.port k).seq.toNat < 16) (b : Nat) :
    ∃ t y, (portFrame k b s).port k = ((s.port k).settle t).framed y (((s.port k).settle t).sampled b) := by
  unfold portFrame
  extract_lets p q x j t settled now y sent
  have hframe : ¬ (p.sending = false ∨ q ≥ 16) := by
    rintro (h | h)
    · exact Bool.noConfusion (hs.symm.trans h)
    · exact absurd hq (Nat.not_lt.mpr h)
  rw [if_neg hframe]
  have hnow : now = (s.port k).settle t := (s.port_modPort k k _).trans (if_pos rfl)
  have hsent : sent.port k = { now with out := y, acc := (now.acc + now.word.toNat) % 2 ^ 32, sent := (now.sent + 1) % 2 ^ 64 } :=
    ((Only.sendLanes _).port (by decide) k).trans ((settled.port_modPort k k _).trans (if_pos rfl))
  refine ⟨t, y, (sent.port_inSample q k t _).trans ?_⟩
  rw [hsent, hnow]
  rfl

theorem portFrame_counts {s : Chip} {k : Nat} (hs : (s.port k).sending = true) (hq : (s.port k).seq.toNat < 16) (ha : (s.port k).apply = none)
    (hr : (s.port k).resets = []) (b : Nat) : ((portFrame k b s).port k).sent = ((s.port k).sent + 1) % 2 ^ 64 ∧
      ((portFrame k b s).port k).acc = ((s.port k).acc + (s.port k).word.toNat) % 2 ^ 32 := by
  obtain ⟨t, y, hport⟩ := portFrame_sends hs hq b
  obtain ⟨hword, hacc, hsent⟩ := Port.settle_unscheduled ha hr t
  rw [hport]
  unfold Port.framed
  rw [hword, hacc, hsent]
  exact ⟨rfl, rfl⟩

/-- Settles O38: the passes by `trackingStart_due` and `trackingComplete_reads`, enable and disable by the answers of `setPort`, the NCO by
`ncoApply_port` and `ncoReset_port`, and frames by `portFrame_counts`. -/
theorem timingAndPortRows : Obligations.TimingAndPortRows := by
  unfold Obligations.TimingAndPortRows
  refine ⟨fun t s => rfl, fun s hidle harm hdue hti => ?_, fun s hrun => ⟨?_, fun hti => ?_, fun hti => ?_⟩,
    fun p tag s r c h => ⟨fun hl => ?_, fun hl => ⟨fun ht => ?_, fun hf => ?_⟩⟩, fun p tag s r c h hl => ?_,
    fun p tag m s r c => ⟨fun h => ?_, fun h => ?_, fun h => ?_⟩,
    fun k b s hs hq ha hr => ⟨_, exec_portFrame k b s, portFrame_counts hs hq ha hr b.toNat⟩, fun k b s hs => ?_⟩
  · have hsegs := trackingStart_due hidle harm hdue hti
    exact ⟨_, exec_trackingPassStart s, congrArg Segs.tracking hsegs, congrArg Segs.trackAt hsegs, congrArg Segs.trackTemp hsegs,
      Within.ofChip (Only.trackingStart s.chip)⟩
  · exact congrArg (next s) (trackingStart_running hrun)
  · exact congrArg (next s) (trackingComplete_stopped hti)
  · have hsegs := trackingComplete_reads hrun hti
    have honly := Only.trackingComplete s.chip
    exact ⟨_, exec_trackingPassComplete s, congrArg Segs.tracking hsegs, congrArg Segs.trackDone hsegs, congrArg Segs.trackDoneTemp hsegs,
      congrArg Segs.replicas hsegs, honly .seqs (by decide), Within.ofChip honly⟩
  · rw [exec_samplePortEnable h, setPort_locked hl]; rfl
  · rw [exec_samplePortEnable h, setPort_used hl (Chip.portUsed_of_owner ht)]; rfl
  · rw [exec_samplePortEnable h, setPort_enables hl hf]
    refine ⟨_, rfl, ?_, fun i hi => ?_, ((Only.portLanes c).mono (by simp)).comp ((Only.modPort _).mono (by simp))⟩
    · rw [Chip.port_modPort, if_pos rfl]
    · rw [Chip.lane_modPort, Chip.mode_portLanes _ _ _ hi]
  · rw [exec_samplePortDisable h, setPort_disables hl]
    refine ⟨_, rfl, ?_, ?_, (Only.ite ((Only.portLanes c).mono (by simp)) (Only.refl c _)).comp ((Only.modPort _).mono (by simp))⟩ <;>
      rw [Chip.port_modPort, if_pos rfl]
  · exact ⟨_, exec_ncoApplyNow h, ncoApply_port none r c, Only.ncoApply c⟩
  · exact ⟨_, exec_ncoApplyAtMarker h, congrArg (Option.map fun a => (a.word, a.marker)) (ncoApply_port (some m.val) r c), Only.ncoApply c⟩
  · exact ⟨_, exec_ncoPhaseReset h, ncoReset_port r c, Only.ncoReset c⟩
  · exact congrArg (next s) (portFrame_stopped hs b.toNat)

end Sys2Proof.Machine
end

section
/-! SUPPORT. A site's sealed field, from its request to its place in the buffer (R318, R321 to R327). -/

namespace Sys2Proof.Machine

theorem exec_fieldRequestAccept (k : Fin 16) (s : State) : exec (.fieldRequestAccept k) s = next s (fieldRequest k.val s.chip) := rfl

theorem exec_fieldWordsSent (k : Fin 16) (s : State) : exec (.fieldWordsSent k) s = next s (fieldWordsSent k.val s.chip) := rfl

theorem exec_fieldWordArrival (k : Fin 16) (ns : Nat) (s : State) : exec (.fieldWordArrival k ns) s = next s (fieldArrival k.val ns s.chip) := rfl

theorem exec_latencyWindowClose (q : Fin 16) (s : State) : exec (.latencyWindowClose q) s = next s (windowClose q.val s.chip) := rfl

theorem exec_sealedBufferClear (k : Fin 16) (s : State) : exec (.sealedBufferClear k) s = next s (bufferClear k.val s.chip) := rfl

/-! ## A failed field (R327) -/

/-- The field `x` of a site, failed for a cause with its failure point at `t`. -/
def SiteSeal.failed (cause t : Nat) (x : SiteSeal) : SiteSeal :=
  { x with waiting := false, cause := BitVec.ofNat 8 cause, failAt := t, derived := false, value := [], ackEpoch := none, buffer := [] }

/-- Words on their way hold their entry of the injector's queue, and a failure frees it otherwise: it reaches the queue alone (R213). -/
theorem Only.freeUnsent {q k} (s : Chip) : Only [.crypto] s (if (s.seal k).sent then s else s.freeInjector q k) :=
  Only.ite (Only.refl s _) (Only.freeInjector s)

/-- A failure marks the field of its site, and no other. -/
theorem Chip.seal_failField (s : Chip) (q k cause t j : Nat) :
    (s.failField q k cause t).seal j = if j = k then (s.seal k).failed cause t else s.seal j := by
  unfold Chip.failField
  rw [(Only.modSq _).seal, Chip.seal_modSeal, (Only.freeUnsent s).seal, (Only.freeUnsent s).seal]
  rfl

/-- A failure moves the start of the sealed play, and leaves the window with its counters. -/
theorem Chip.sealedCfg_failField (s : Chip) (q k cause t : Nat) : ((s.failField q k cause t).sq q).sealedCfg = (s.sq q).sealedCfg := by
  unfold Chip.failField
  rw [Chip.sq_modSq, if_pos rfl, (Only.modSeal _).sq, (Only.freeUnsent s).sq]

theorem Chip.freeInjector_jobless {s : Chip} {k : Nat} (h : (s.seal k).job = none) (q : Nat) : s.freeInjector q k = s := by
  unfold Chip.freeInjector
  rw [h]

/-- A site without a job holds no entry of the injector's queue that its failure could free. -/
theorem Only.failField_jobless {s : Chip} {q k cause t : Nat} (h : (s.seal k).job = none) : Only [.sealed_, .seqs] s (s.failField q k cause t) := by
  unfold Chip.failField
  rw [Chip.freeInjector_jobless h, ite_self]
  exact ((Only.modSeal s).mono (by simp)).comp ((Only.modSq _).mono (by simp))

/-! ## FIELD_REQUEST_ACCEPT (R318, R321, R322) -/

/-- The recipe that a sequencer's field follows. -/
abbrev Chip.fieldRecipe (s : Chip) (q : Nat) : Bytes := s.recipe (s.sq q).sealedCfg.recipe

/-- Site `k` of sequencer `q` waits for its field without a job, and the injector's queue has a place free. -/
structure FieldAsked (q k : Nat) (s : Chip) : Prop where
  site : s.seqOfSite k = some q
  waits : (s.seal k).waiting = true
  jobless : (s.seal k).job = none
  room : (s.queue q).entries.length < 8

/-- The device once the site's UID has been taken off CH_08 for its field. -/
def Chip.uidTaken (k : Nat) (uid : Bytes) (s : Chip) : Chip := s.modSeal k fun x => { x with uid := none, run := { x.run with uid := uid } }

/-- The job of a field is entered in the injector's queue, one use of its master key counted. -/
def Chip.enterField (q k : Nat) (uid : Bytes) (s : Chip) : Chip :=
  let slot := recSlot (s.fieldRecipe q)
  let c := ((s.uidTaken k uid).countUse slot).1
  (c.modSeal k fun x => { x with job := some c.crypto.nextUid }).addJob q
    { opcode := if recKind (s.fieldRecipe q) = 1 then 0xF0 else 0xF1, slot := slot, key := SMap.get c.keys.slots {} slot
      params := fieldInput (s.fieldRecipe q) uid, inLen := recLen (s.fieldRecipe q), site := k }

/-- The use limit of a key is reached. -/
abbrev Chip.limitReached (s : Chip) (slot : Nat) : Prop :=
  (SMap.get s.keys.slots {} slot).limit ≠ 0 ∧ (SMap.get s.keys.slots {} slot).limit ≤ (SMap.get s.keys.slots {} slot).uses

/-- A key whose use limit is reached counts no further use. -/
theorem Chip.countUse_limitReached {s : Chip} {slot : Nat} (h : s.limitReached slot) : (s.countUse slot).2 = 0x3107 := by
  unfold Chip.countUse
  exact congrArg Prod.snd (if_pos h)

section
variable {q k : Nat} {s : Chip} {uid : Bytes} (h : FieldAsked q k s)
include h

/-- With the SI not running the field fails with cause 0x06. -/
theorem fieldRequest_siStopped (hsi : s.runs 3 = false) : fieldRequest k s = s.failField q k 6 (s.nowFine + ns60) := by
  unfold fieldRequest
  rw [h.site]
  dsimp only
  rw [if_neg (by simp [h.waits, h.jobless, h.room]), if_pos hsi]

/-- A UID refused on CH_08 fails the field with cause 0x03, and is discarded. -/
theorem fieldRequest_uidRefused (hsi : s.runs 3 = true) (href : (s.seal k).uidRefused = true) :
    fieldRequest k s = (s.modSeal k fun x => { x with uid := none, uidRefused := false }).failField q k 3 (s.nowFine + ns60) := by
  unfold fieldRequest
  rw [h.site]
  dsimp only
  rw [if_neg (by simp [h.waits, h.jobless, h.room]), if_neg (by simp [hsi]), if_pos href]

/-- A UID that is present is judged by its length, the master key, and the key's reservation, in this order. -/
theorem fieldRequest_judged (hsi : s.runs 3 = true) (href : (s.seal k).uidRefused = false) (hu : (s.seal k).uid = some uid) :
    fieldRequest k s =
      if uid.length ≠ recU (s.fieldRecipe q) then (s.uidTaken k uid).failField q k 2 (s.nowFine + ns60)
      else if s.masterOk (recOwner (s.fieldRecipe q)) (recSlot (s.fieldRecipe q)) = false ∨ s.limitReached (recSlot (s.fieldRecipe q)) then
        (s.uidTaken k uid).failField q k 5 (s.nowFine + ns60)
      else (s.reserveWait k (recSlot (s.fieldRecipe q))).getD (s.enterField q k uid) := by
  unfold fieldRequest
  rw [h.site]
  dsimp only
  rw [if_neg (by simp [h.waits, h.jobless, h.room]), if_neg (by simp [hsi]), if_neg (by simp [href]), hu]
  dsimp only
  cases s.reserveWait k (recSlot (s.fieldRecipe q)) <;> rfl

end

/-- A request that is refused fails its field, and reaches the injector and the sequencer only. -/
theorem fieldRequest_fails {q cause t : Nat} {k : Fin 16} {s : State} {c : Chip} (hstep : fieldRequest k.val s.chip = c.failField q k.val cause t)
    (honly : Only [.sealed_] s.chip c) (hjob : (c.seal k.val).job = none) :
    ∃ t, exec (.fieldRequestAccept k) s = .next t ∧ (t.chip.seal k.val).waiting = false ∧ (t.chip.seal k.val).cause = BitVec.ofNat 8 cause ∧
      (t.chip.seal k.val).uid = (c.seal k.val).uid ∧ Within [.sealed_, .seqs] s t := by
  have hseal : (c.failField q k.val cause t).seal k.val = (c.seal k.val).failed cause t := (c.seal_failField q k.val cause t k.val).trans (if_pos rfl)
  refine ⟨_, congrArg (next s) hstep, ?_, ?_, ?_, Within.ofChip ((honly.mono (by simp)).comp (Only.failField_jobless hjob))⟩
  all_goals rw [hseal]; rfl

theorem Chip.job_uidTaken (s : Chip) (k : Nat) (uid : Bytes) : ((s.uidTaken k uid).seal k).job = (s.seal k).job := by
  unfold Chip.uidTaken
  rw [Chip.seal_modSeal, if_pos rfl]

/-- The site of an entered job waits on under the job's acceptance number, its UID consumed. -/
theorem Chip.seal_enterField (s : Chip) (q k : Nat) (uid : Bytes) : (s.enterField q k uid).seal k =
    { s.seal k with uid := none, run := { (s.seal k).run with uid := uid }, job := some s.crypto.nextUid } := by
  have htaken : (s.uidTaken k uid).seal k = { s.seal k with uid := none, run := { (s.seal k).run with uid := uid } } :=
    (s.seal_modSeal k k _).trans (if_pos rfl)
  unfold Chip.enterField Chip.addJob
  dsimp only
  rw [(Only.modCrypto _).seal, (Only.modQueue _).seal, Chip.seal_modSeal, if_pos rfl, (Only.countUse _).seal, htaken, (Only.countUse _).get .crypto]
  rfl

theorem Chip.nextUid_enterField (s : Chip) (q k : Nat) (uid : Bytes) : (s.enterField q k uid).crypto.nextUid = s.crypto.nextUid + 1 := by
  unfold Chip.enterField
  dsimp only
  rw [Chip.addJob_nextUid, (Only.modSeal _).get .crypto, (Only.countUse _).get .crypto]
  rfl

theorem Only.enterField {q k uid} (s : Chip) : Only [.sealed_, .keys, .boot, .free, .pair, .crypto] s (s.enterField q k uid) :=
  (((((Only.modSeal s).mono (by simp)).comp ((Only.countUse (s.uidTaken k uid)).mono (by decide))).comp ((Only.modSeal _).mono (by simp))).comp
    ((Only.modQueue _).mono (by simp))).comp ((Only.modCrypto _).mono (by simp))

/-! ## FIELD_WORD_ARRIVAL (R323) -/

/-- Words outside the window are discarded, and the site waits on. -/
theorem fieldArrival_late {q k ns : Nat} {s : Chip} (hq : s.seqOfSite k = some q) (hs : (s.seal k).sent = true) (hw : (s.seal k).waiting = true)
    (hlate : (s.sq q).sealedCfg.windowOpen = false ∨ 1000 * (s.sq q).sealedCfg.window < ns) :
    fieldArrival k ns s = (s.freeInjector q k).modSeal k fun x => { x with sent := false, value := [] } := by
  unfold fieldArrival
  rw [hq]
  dsimp only
  rw [if_neg (by simp [hs]), if_neg (by simp [hw]), if_pos hlate, if_pos hs]

/-- Words in time stand in the buffer, and the wait of their site has ended. -/
theorem fieldArrival_inTime {q k ns : Nat} {s : Chip} (hq : s.seqOfSite k = some q) (hs : (s.seal k).sent = true) (hw : (s.seal k).waiting = true)
    (hopen : (s.sq q).sealedCfg.windowOpen = true) (hns : ns ≤ 1000 * (s.sq q).sealedCfg.window) :
    (fieldArrival k ns s).seal k = { s.seal k with waiting := false, sent := false, value := [], buffer := (s.seal k).value, pos := 0 } ∧
      Only [.sealed_, .seqs, .free, .crypto] s (fieldArrival k ns s) := by
  have hfreed : Only [.free, .crypto] s ((s.freeInjector q k).drawBytes 2).2 :=
    ((Only.freeInjector s).mono (by simp)).comp ((Only.drawBytes _).mono (by simp))
  unfold fieldArrival
  rw [hq]
  dsimp only
  rw [if_neg (by simp [hs]), if_neg (by simp [hw]), if_neg (by simp [hopen, hns]), if_pos hs]
  refine ⟨?_, (((hfreed.mono (by simp)).comp ((Only.modSeal _).mono (by simp))).comp ((Only.modSq _).mono (by simp))).comp
    ((Only.modSq _).mono (by simp))⟩
  rw [(Only.modSq _).seal, (Only.modSq _).seal, Chip.seal_modSeal, if_pos rfl, hfreed.seal]

/-! ## LATENCY_WINDOW_CLOSE (R322, R327) -/

/-- The field of a site still waiting at the close of the window fails, its cause by what has not come. -/
def Chip.closeField (q t : Nat) (s : Chip) (k : Nat) : Chip :=
  let y := s.seal k
  s.failField q k (if y.job.isSome then 4 else if y.uidRefused then 3 else if y.uid.isNone then 1 else 4) t

/-- The device with the latency window of a sequencer shut. -/
def Chip.shutWindow (q : Nat) (s : Chip) : Chip := s.modSq q fun x => { x with sealedCfg := { x.sealedCfg with windowOpen := false } }

/-- No UID has come to the site, accepted or refused, and it has no job. -/
structure SiteSeal.Uidless (x : SiteSeal) : Prop where
  job : x.job = none
  uid : x.uid = none
  refused : x.uidRefused = false

theorem Chip.seal_closeField (s : Chip) (q t : Nat) {k : Nat} (h : (s.seal k).Uidless) (j : Nat) :
    (s.closeField q t j).seal k = if j = k then (s.seal k).failed 1 t else s.seal k := by
  unfold Chip.closeField
  dsimp only
  rw [Chip.seal_failField]
  by_cases hj : j = k
  · subst hj
    rw [if_pos rfl, if_pos rfl, h.job, h.refused, h.uid]
    rfl
  · rw [if_neg (Ne.symm hj), if_neg hj]

/-- Of the sites that fail at the close, each without a UID fails with cause 0x01. -/
theorem Chip.seal_closeFields (q t : Nat) {k : Nat} (l : List Nat) (s : Chip) (h : (s.seal k).Uidless) :
    (l.foldl (Chip.closeField q t) s).seal k = if k ∈ l then (s.seal k).failed 1 t else s.seal k := by
  induction l generalizing s with
  | nil => rfl
  | cons j l ih =>
    have hone := s.seal_closeField q t h j
    have hkept : ((s.closeField q t j).seal k).Uidless := by
      rw [hone]
      split
      · exact ⟨h.job, h.uid, h.refused⟩
      · exact h
    rw [List.foldl_cons, ih _ hkept, hone]
    by_cases hj : j = k
    · subst hj
      rw [if_pos rfl, if_pos (List.mem_cons_self ..)]
      split <;> rfl
    · rw [if_neg hj]
      simp only [List.mem_cons, Ne.symm hj, false_or]

theorem Only.closeField {q t k} (s : Chip) : Only [.sealed_, .seqs, .crypto] s (s.closeField q t k) := (Only.failField s).mono (by simp)

theorem windowClose_early {q : Nat} {s : Chip} (h : (s.sq q).sealedCfg.windowOpen = false ∨ s.nowFine ≤ (s.sq q).sealedCfg.closeAt) :
    windowClose q s = s := if_pos h

section
variable {q : Nat} {s : Chip} (hopen : (s.sq q).sealedCfg.windowOpen = true) (hpast : (s.sq q).sealedCfg.closeAt < s.nowFine)
include hopen hpast

/-- Past its closing edge an open window shuts, and the fields of the living sites that still wait fail. -/
theorem windowClose_due : windowClose q s =
    ((s.sq q).livingSites.filter fun k => (s.seal k).waiting).foldl (Chip.closeField q (s.sq q).sealedCfg.closeAt) (s.shutWindow q) := by
  have hsites : ((s.shutWindow q).sq q).livingSites = (s.sq q).livingSites := by
    unfold Chip.shutWindow
    rw [Chip.sq_modSq, if_pos rfl]
    rfl
  rw [← hsites]
  exact if_neg (by simp [hopen, hpast])

theorem windowClose_shuts : ((windowClose q s).sq q).sealedCfg.windowOpen = false := by
  have hshut : ((s.shutWindow q).sq q).sealedCfg.windowOpen = false := by
    unfold Chip.shutWindow
    rw [Chip.sq_modSq, if_pos rfl]
  rw [windowClose_due hopen hpast]
  exact (congrArg SealedCfg.windowOpen (foldl_keeps (fun c => (c.sq q).sealedCfg) _ (fun c k => c.sealedCfg_failField q k _ _) _ _)).trans hshut

/-- A site that waits without a UID fails with cause 0x01 at the close. -/
theorem windowClose_uidless {k : Nat} (hk : k ∈ (s.sq q).livingSites) (hw : (s.seal k).waiting = true) (h : (s.seal k).Uidless) :
    (windowClose q s).seal k = (s.seal k).failed 1 (s.sq q).sealedCfg.closeAt := by
  have hshut : (s.shutWindow q).seal k = s.seal k := (Only.modSq s).seal (by decide) k
  rw [windowClose_due hopen hpast, Chip.seal_closeFields _ _ _ _ (by rw [hshut]; exact h), if_pos (List.mem_filter.mpr ⟨hk, hw⟩), hshut]

end

theorem Only.windowClose (q : Nat) (s : Chip) : Only [.sealed_, .seqs, .crypto] s (windowClose q s) := by
  unfold Machine.windowClose
  exact Only.ite (Only.refl s _) (((Only.modSq s).mono (by simp)).comp (Only.foldl _ (fun c k => Only.closeField c) _ _))

/-! ## The statement -/

/-- Settles O40: a refused request by `fieldRequest_fails`, an accepted one by the lemmas of `Chip.enterField`, words by `fieldArrival_inTime` and
`fieldArrival_late`, and the window's close by `windowClose_uidless`. -/
theorem sealedFieldRows : Obligations.SealedFieldRows := by
  unfold Obligations.SealedFieldRows
  refine ⟨fun k q s hq hw hj hroom => ?_, fun k s hd => ?_, fun k q ns s hq hs hw => ⟨fun hopen hns => ?_, fun hshut => ?_⟩,
    fun q k s hopen hpast hk hw hj hu href => ?_, fun q s h => congrArg (next s) (windowClose_early h), fun k s hp => ?_⟩
  · have hasked : FieldAsked q.val k.val s.chip := ⟨hq, hw, hj, hroom⟩
    have hseal : ∀ f : SiteSeal → SiteSeal, (s.chip.modSeal k.val f).seal k.val = f (s.chip.seal k.val) := fun f =>
      (Chip.seal_modSeal ..).trans (if_pos rfl)
    refine ⟨fun hsi => ?_, fun hsi href => ?_, fun uid hsi href hu => ?_⟩
    · obtain ⟨t, hstep, hends, hcause, _, hwithin⟩ := fieldRequest_fails (fieldRequest_siStopped hasked hsi) (Only.refl _ _) hj
      exact ⟨t, hstep, hends, hcause, hwithin⟩
    · obtain ⟨t, hstep, hends, hcause, hgone, hwithin⟩ :=
        fieldRequest_fails (fieldRequest_uidRefused hasked hsi href) (Only.modSeal _) (by rw [hseal]; exact hj)
      exact ⟨t, hstep, hends, hcause, hgone.trans (by rw [hseal]), hwithin⟩
    · have hjudged := fieldRequest_judged hasked hsi href hu
      have htaken : ((s.chip.uidTaken k.val uid).seal k.val).job = none := (Chip.job_uidTaken ..).trans hj
      refine ⟨fun hlen => ?_, fun hlen hkey => ?_, fun hlen hkey => ?_⟩
      · rw [if_pos hlen] at hjudged
        obtain ⟨t, hstep, hends, hcause, _, hwithin⟩ := fieldRequest_fails hjudged (Only.modSeal _) htaken
        exact ⟨t, hstep, hends, hcause, hwithin⟩
      · rw [if_neg (not_not.mpr hlen), if_pos (.inl hkey)] at hjudged
        obtain ⟨t, hstep, hends, hcause, _, hwithin⟩ := fieldRequest_fails hjudged (Only.modSeal _) htaken
        exact ⟨t, hstep, hends, hcause, hwithin⟩
      · have hkept : (s.chip.countUse (recSlot (s.chip.fieldRecipe q.val))).2 ≠ 0x3107 → fieldRequest k.val s.chip =
            (s.chip.reserveWait k.val (recSlot (s.chip.fieldRecipe q.val))).getD (s.chip.enterField q.val k.val uid) := fun hlimit =>
          (hjudged.trans (if_neg (not_not.mpr hlen))).trans
            (if_neg (not_or.mpr ⟨by simp [hkey], fun hreached => hlimit (Chip.countUse_limitReached hreached)⟩))
        refine ⟨fun c hwait hlimit => ?_, fun hnone huse => ?_⟩
        · rw [exec_fieldRequestAccept, hkept hlimit, hwait]
          rfl
        · have hstep := hkept (by rw [huse]; decide)
          rw [hnone] at hstep
          have hentered := s.chip.seal_enterField q.val k.val uid
          exact ⟨_, congrArg (next s) hstep, (congrArg SiteSeal.waiting hentered).trans hw, congrArg SiteSeal.uid hentered,
            congrArg SiteSeal.job hentered, Chip.nextUid_enterField .., Within.ofChip (Only.enterField s.chip)⟩
  · refine ⟨_, exec_fieldWordsSent k s, ?_, ?_, ?_, Within.ofChip (Only.modSeal s.chip)⟩
    all_goals
      unfold fieldWordsSent
      rw [Chip.seal_modSeal, if_pos rfl, if_pos hd]
  · obtain ⟨hseal, honly⟩ := fieldArrival_inTime hq hs hw hopen hns
    exact ⟨_, exec_fieldWordArrival k ns s, congrArg SiteSeal.waiting hseal, congrArg SiteSeal.buffer hseal, congrArg SiteSeal.pos hseal,
      Within.ofChip honly⟩
  · have hfreed : Only [.crypto] s.chip (s.chip.freeInjector q.val k.val) := Only.freeInjector _
    refine ⟨_, congrArg (next s) (fieldArrival_late hq hs hw (.inl hshut)), ?_, ?_, ?_,
      Within.ofChip ((hfreed.mono (by simp)).comp ((Only.modSeal _).mono (by simp)))⟩
    all_goals rw [Chip.seal_modSeal, if_pos rfl]
    rw [hfreed.seal]
    exact hw
  · have hseal := windowClose_uidless hopen hpast hk hw ⟨hj, hu, href⟩
    exact ⟨_, exec_latencyWindowClose q s, windowClose_shuts hopen hpast, congrArg SiteSeal.waiting hseal, congrArg SiteSeal.cause hseal,
      Within.ofChip (Only.windowClose q.val s.chip)⟩
  · refine ⟨_, exec_sealedBufferClear k s, ?_, ?_, Within.ofChip (Only.modSeal s.chip)⟩
    all_goals
      unfold bufferClear
      rw [Chip.seal_modSeal, if_pos rfl, if_pos hp]

end Sys2Proof.Machine
end

section
/-! SUPPORT. Acquisition (R344, R345, R348, R350, R351, R353): decimation, triggers, the read pointer and the response timer. -/

namespace Sys2Proof.Machine

/-! ## What the records of a capture leave (R347 to R355) -/

/-- The unit `x` with the state, the losses, the dead time and the sequence number of its records that `y` has. -/
def CapUnit.withRecords (x y : CapUnit) : CapUnit :=
  { x with
    state := y.state, lost := y.lost, failLost := y.failLost, dead := y.dead, deadMark := y.deadMark, deadFrom := y.deadFrom
    deadBusy := y.deadBusy, deadLoss := y.deadLoss, gap := y.gap, recSeq := y.recSeq }

/-- From `x` to `y` a unit's records have been written or lost: the unit is as it was but for what `CapUnit.withRecords` names. -/
def CapUnit.RecordsOnly (x y : CapUnit) : Prop := y = x.withRecords y

section
variable {x y z : CapUnit}

theorem CapUnit.RecordsOnly.refl (x : CapUnit) : x.RecordsOnly x := rfl

theorem CapUnit.RecordsOnly.trans (h : x.RecordsOnly y) (k : y.RecordsOnly z) : x.RecordsOnly z :=
  Eq.trans k (congrArg (·.withRecords z) h)

theorem CapUnit.RecordsOnly.ite {p : Prop} [Decidable p] (h : x.RecordsOnly y) (k : x.RecordsOnly z) :
    x.RecordsOnly (if p then y else z) := by
  split <;> assumption

theorem CapUnit.RecordsOnly.deadStart {t : Nat} (h : x.RecordsOnly y) : x.RecordsOnly (y.deadStart t) := by
  unfold CapUnit.deadStart
  exact .ite h (h.trans rfl)

theorem CapUnit.RecordsOnly.deadEnd {t : Nat} (h : x.RecordsOnly y) : x.RecordsOnly (y.deadEnd t) := by
  unfold CapUnit.deadEnd
  split
  · exact .ite h (h.trans rfl)
  · exact h

end

/-- From `a` to `b` records have been written or lost: the sites' timers are as they were, and the units but for their records. -/
structure RecordsOnly (a b : Chip) : Prop where
  sites : b.acq.sites = a.acq.sites
  units : ∀ u, (a.unit u).RecordsOnly (b.unit u)

section
variable {a b c : Chip}

theorem RecordsOnly.acq (h : b.acq = a.acq) : RecordsOnly a b :=
  ⟨congrArg Acq.sites h, fun u => by unfold Chip.unit; rw [h]; exact .refl _⟩

theorem RecordsOnly.refl (a : Chip) : RecordsOnly a a := .acq rfl

theorem RecordsOnly.only {ps : List Part} (h : Only ps a b) (hp : Part.acq ∉ ps := by decide) : RecordsOnly a b := .acq (h .acq hp)

theorem RecordsOnly.trans (h : RecordsOnly a b) (k : RecordsOnly b c) : RecordsOnly a c :=
  ⟨k.sites.trans h.sites, fun u => (h.units u).trans (k.units u)⟩

theorem RecordsOnly.ite {p : Prop} [Decidable p] (h : RecordsOnly a b) (k : RecordsOnly a c) : RecordsOnly a (if p then b else c) := by
  split <;> assumption

theorem RecordsOnly.foldl {α : Type _} (f : Chip → α → Chip) (h : ∀ s x, RecordsOnly s (f s x)) (l : List α) (s : Chip) :
    RecordsOnly s (l.foldl f s) := by
  induction l generalizing s with
  | nil => exact .refl s
  | cons x l ih => exact (h s x).trans (ih (f s x))

theorem RecordsOnly.siteAq (h : RecordsOnly a b) (k : Nat) : b.siteAq k = a.siteAq k := congrArg (fun m : SMap SiteAq => m.get {} k) h.sites

end

theorem RecordsOnly.modUnit {f : CapUnit → CapUnit} (h : ∀ x : CapUnit, x.RecordsOnly (f x)) (u : Nat) (s : Chip) :
    RecordsOnly s (s.modUnit u f) := by
  refine ⟨rfl, fun j => ?_⟩
  rw [Chip.unit_modUnit]
  split
  next hj => rw [hj]; exact h _
  next => exact .refl _

theorem RecordsOnly.enterFull (u t : Nat) (s : Chip) : RecordsOnly s (s.enterFull u t) := by
  unfold Chip.enterFull
  refine .ite (.modUnit (fun x => ?_) u s) (.refl s)
  have hdead : x.RecordsOnly (if (s.unit u).state = .ready then { x with deadBusy := true }.deadStart t else x) :=
    .ite (.deadStart rfl) (.refl x)
  exact hdead.trans rfl

theorem RecordsOnly.loseRecord (u kind t : Nat) (full : Bool) (s : Chip) : RecordsOnly s (s.loseRecord u kind t full) := by
  unfold Chip.loseRecord
  refine ((RecordsOnly.ite (.enterFull u t s) (.refl s)).trans (.modUnit (fun x => ?_) u _)).trans (.only (Only.count _))
  have hdead : x.RecordsOnly (if (s.sq u).state.inRun = true then { x with deadLoss := true }.deadStart t else x) :=
    .ite (.deadStart rfl) (.refl x)
  exact hdead.trans (.ite rfl rfl)

/-- A record written ends the dead time that its predecessor's loss began. -/
theorem CapUnit.RecordsOnly.written (t : Nat) (x : CapUnit) : x.RecordsOnly ({ x with deadLoss := false }.deadEnd t) :=
  .deadEnd rfl

theorem RecordsOnly.putRecord (u : Nat) (shell : Bytes) (flags t : Nat) (s : Chip) : RecordsOnly s (s.putRecord u shell flags t) := by
  unfold Chip.putRecord
  extract_lets kind served unit bytes place queued
  have hqueued : RecordsOnly s queued := (RecordsOnly.modUnit (.written t) u s).trans (.only (Only.dramEnqueue _))
  have hstaged : ∀ (c : Chip) (g : Acq → List StagedRec), RecordsOnly c (c.modAcq fun a => { a with staging := g a }) :=
    fun c g => ⟨rfl, fun j => .refl _⟩
  refine .ite (.loseRecord ..) (.ite (.loseRecord ..) (((hqueued.trans (.modUnit (fun x => ?_) u _)).trans (hstaged _ _)).trans (.enterFull ..)))
  rfl

theorem RecordsOnly.responseRecord (u k : Nat) (s : Chip) : RecordsOnly s (s.responseRecord u k) := by
  unfold Chip.responseRecord
  exact .ite (.putRecord ..) (.refl s)

/-! ## Decimation (R353) -/

theorem exec_decimationRaise (s : State) : exec .decimationRaise s = next s (decimationRaise s.chip) := rfl

theorem exec_decimationLower (s : State) : exec .decimationLower s = next s (decimationLower s.chip) := rfl

/-- The acquisition `a` with its exponent changed to `d`. -/
def Acq.decimated (d : Nat) (a : Acq) : Acq := { a with decimation := d, decChanges := satAdd 32 a.decChanges 1 }

/-- The overload that is counted where d leaves 0 does not reach the acquisition. -/
theorem decimationRaise_raises {s : Chip} (hfill : 8192 * 3 < s.acq.held * 4) (hd : s.acq.decimation < 8) :
    (decimationRaise s).acq = s.acq.decimated (s.acq.decimation + 1) ∧ Only [.acq, .recorder] s (decimationRaise s) := by
  have hcounted : Only [.recorder] s (if s.acq.decimation = 0 then s.count 4 else s) := Only.ite (Only.count s) (Only.refl s _)
  unfold decimationRaise
  rw [if_pos ⟨hfill, hd⟩]
  refine ⟨?_, (hcounted.mono (by simp)).comp ((Only.modAcq _).mono (by simp))⟩
  rw [Chip.modAcq_acq, hcounted.get .acq]
  rfl

theorem decimationRaise_within {s : Chip} (h : s.acq.held * 4 ≤ 8192 * 3) : decimationRaise s = s :=
  if_neg fun hfill => Nat.not_lt.mpr h hfill.1

theorem decimationLower_lowers {s : Chip} (hfill : s.acq.held * 4 < 8192) (hd : 0 < s.acq.decimation) :
    decimationLower s = s.modAcq fun a => a.decimated (a.decimation - 1) := if_pos ⟨hfill, hd⟩

theorem decimationLower_within {s : Chip} (h : 8192 ≤ s.acq.held * 4) : decimationLower s = s :=
  if_neg fun hfill => Nat.not_lt.mpr h hfill.1

/-! ## Triggers (R350, R351) -/

theorem exec_aqTriggerIn (u : Fin 16) (s : State) : exec (.aqTriggerIn u) s = next s (aqTriggerIn u.val s.chip) := rfl

theorem aqTriggerIn_asserts {u : Nat} {s : Chip} (haq : s.runs 7 = true) (hrouted : s.routed (0x40 + u) = true)
    (hsource : (s.unit u).trigSource = 5) (hrun : (s.sq u).state.inRun = true) :
    aqTriggerIn u s = s.trigger u s.nowFine (s.inHold u s.nowFine) := if_pos ⟨haq, hrouted, hsource, hrun⟩

theorem aqTriggerIn_unheard {u : Nat} {s : Chip} (h : (s.unit u).trigSource ≠ 5 ∨ (s.sq u).state.inRun = false) : aqTriggerIn u s = s := by
  refine if_neg fun ⟨_, _, hsource, hrun⟩ => ?_
  rcases h with hother | hstill
  · exact hother hsource
  · exact Bool.noConfusion (hstill.symm.trans hrun)

/-- The unit `x` with a trigger taken, whose record and primer are still to be written. -/
def CapUnit.triggered (x : CapUnit) : CapUnit :=
  { x with state := .capturing, triggers := x.triggers + 1, missed := 0, deadMark := x.dead, primer := [], postLeft := x.post }

/-- The trigger record and the records of the primer change nothing of what the trigger gave the unit. -/
theorem Chip.trigger_taken {s : Chip} {u t : Nat} (hready : (s.unit u).state = .ready) (hleft : (s.unit u).triggers < (s.unit u).trigCount)
    (hwindow : s.inWindow u t = true) : (s.unit u).triggered.RecordsOnly ((s.trigger u t false).unit u) := by
  unfold Chip.trigger
  extract_lets unit served again payload held taken
  rw [if_neg (by simp [unit, hready]), if_neg (by simp [unit, hready, hleft, hwindow])]
  have hserved : RecordsOnly s served := .ite (.modUnit (.written t) u s) (.refl s)
  have htaken : (s.unit u).triggered.RecordsOnly (taken.unit u) := by
    rw [Chip.unit_modUnit, if_pos rfl]
    exact congrArg CapUnit.triggered (hserved.units u)
  have hrecords : RecordsOnly taken (held.foldl (fun c b => c.putRecord u b 1 t) (taken.putRecord u (recordShell 6 u 0xFF 0 t payload) 0 t)) :=
    (RecordsOnly.putRecord ..).trans (.foldl _ (fun c b => .putRecord u b 1 t c) _ _)
  exact htaken.trans (hrecords.units u)

theorem Chip.trigger_missed {s : Chip} {u : Nat} {hold : Bool} (h : (s.unit u).state ≠ .ready ∨ hold = true) (hidle : (s.unit u).state ≠ .idle)
    (t : Nat) : s.trigger u t hold = s.modUnit u fun x => { x with missed := x.missed + 1 } :=
  (if_neg hidle).trans (if_pos (h.elim (fun hbusy => .inr (.inl hbusy)) .inl))

/-! ## The read pointer (R348, R352) -/

theorem exec_readPointerWrite {p : Path} {tag : Word16} {v : BitVec 64} {s : State} {r : Req} {c : Chip}
    (h : gate p tag 0x3800 0x0D (le 8 v.toNat) (fun _ _ => 0) s.chip = .go r c) :
    exec (.readPointerWrite p tag v) s = next s (Chip.finish r.dest (writeReadPointer v.toNat r c)) := congrArg (next s) (hostWrite_go h)

/-- The unit `x` at time `now`, which goes on where its ring is no longer full and has held it. -/
def CapUnit.resumed (full : Bool) (now : Nat) (x : CapUnit) : CapUnit :=
  if x.state ≠ .bufferFull ∨ full = true then x
  else if x.postLeft ≠ 0 then { x with state := .capturing }
  else if x.triggers ≥ x.trigCount then { x with state := .complete }
  else { x with state := .ready, deadBusy := false }.deadEnd now

theorem CapUnit.RecordsOnly.resumed (full : Bool) (now : Nat) (x : CapUnit) : x.RecordsOnly (x.resumed full now) := by
  unfold CapUnit.resumed
  exact .ite (.refl x) (.ite rfl (.ite rfl (.deadEnd rfl)))

section
variable {v : Nat} {r : Req} {c : Chip}

theorem writeReadPointer_outside (h : (c.unit (c.sel r.dest.session 0x3800 1)).wptr < v ∨ v < (c.unit (c.sel r.dest.session 0x3800 1)).rptr) :
    writeReadPointer v r c = (c, bad 0x7006) := if_pos h

/-- Within the records stored the pointer moves; that a unit held by its full ring then goes on does not change either pointer. -/
theorem writeReadPointer_moves (hw : v ≤ (c.unit (c.sel r.dest.session 0x3800 1)).wptr)
    (hr : (c.unit (c.sel r.dest.session 0x3800 1)).rptr ≤ v) : ∃ c' : Chip, writeReadPointer v r c = (c', ok) ∧
      (c'.unit (c.sel r.dest.session 0x3800 1)).rptr = v ∧
      (c'.unit (c.sel r.dest.session 0x3800 1)).wptr = (c.unit (c.sel r.dest.session 0x3800 1)).wptr ∧ Only [.acq] c c' := by
  unfold writeReadPointer
  extract_lets u unit moved
  rw [if_neg (not_or.mpr ⟨Nat.not_lt.mpr hw, Nat.not_lt.mpr hr⟩)]
  have hmoved : moved.unit u = { c.unit u with rptr := v } := (Chip.unit_modUnit ..).trans (if_pos rfl)
  have hresumed := (RecordsOnly.modUnit (.resumed (moved.ringFull u) moved.nowFine) u moved).units u
  rw [hmoved] at hresumed
  have hrptr := congrArg CapUnit.rptr hresumed
  have hwptr := congrArg CapUnit.wptr hresumed
  exact ⟨_, rfl, hrptr, hwptr, (Only.modUnit c).comp (Only.modUnit _)⟩

end

/-! ## The response timer (R344, R345) -/

theorem exec_responseEdge (n : Fin 64) (up : Bool) (ten width : Nat) (s : State) :
    exec (.responseEdge n up ⟨ten, width⟩) s = next s (responseEdge n.val up ten width s.chip) := rfl

theorem exec_responseLimitExpiry (k : Fin 16) (s : State) : exec (.responseLimitExpiry k) s = next s (responseLimit k.val s.chip) := rfl

/-- A rising edge on lane `n` is a response for the timer of site `k`, whose sequencer `q` takes edges of both polarities. -/
structure Chip.HearsRise (s : Chip) (n width q k : Nat) : Prop where
  serves : s.runs 7 = true
  passes : s.passes n width = true
  owner : (s.lane n).owner.toNat = q
  seq : q < 16
  site : (s.lane n).site.toNat = k
  siteNumber : k < 16
  marker : (s.unit q).marker ≠ 0xFF
  timing : (s.siteAq k).timing = true
  unsealed : (s.lane n).sealedIn = false
  lane : (s.siteLanes q k)[(s.unit q).respLane]? = some n
  polarity : byteAt (s.unit q).respCfg 2 = 2
  running : (s.sq q).state = .running

/-- The pending timer `x` of a site, ended by a response after `ten` units of 10 ps against a limit (R344). -/
def SiteAq.answered (ten limit : Nat) (reject : Bool) (x : SiteAq) : SiteAq :=
  { x with
    respTime := (ten + 50) / 100, timing := false, verdict := if 256 * ten ≤ limit then .inTime else .slow
    flag := x.flag || (!decide (256 * ten ≤ limit) && reject), responded := true, slowSeen := x.slowSeen || !decide (256 * ten ≤ limit) }

theorem responseEdge_hears {s : Chip} {n width q k : Nat} (h : s.HearsRise n width q k) (hpending : (s.siteAq k).verdict = .pending) (ten : Nat) :
    responseEdge n true ten width s =
      (s.modSiteAq k (SiteAq.answered ten (s.unit q).limit (s.unit q).rejectSlow)).responseRecord q k := by
  obtain ⟨hserves, hpasses, rfl, hq, rfl, hk, hmarker, htiming, hsealed, hlane, hpol, hrun⟩ := h
  unfold responseEdge
  extract_lets q k unit pol inTime late answered
  have hstarted : ¬ (s.runs 7 = false ∨ s.passes n width = false) := by simp [hserves, hpasses]
  have hheard : ¬ (q ≥ 16 ∨ k ≥ 16 ∨ unit.marker = 0xFF ∨ (s.siteAq k).timing = false ∨ (s.lane n).sealedIn ∨
      (s.siteLanes q k)[unit.respLane]? ≠ some n ∨ (pol = 0 ∧ true) ∨ (pol = 1 ∧ true = false) ∨
      ((s.sq q).state ≠ .running ∧ (s.sq q).state ≠ .waiting)) := by
    simp [q, k, unit, pol, hq, hk, hmarker, htiming, hsealed, hlane, hpol, hrun]
  rw [if_neg hstarted, if_neg hheard]
  have hin : inTime = decide (256 * ten ≤ unit.limit) := by simp [inTime, k, hpending]
  have hlate : late = !decide (256 * ten ≤ unit.limit) := by simp [late, hin, k, hpending]
  simp only [answered, hin, hlate, decide_eq_true_eq]
  rfl

/-- The record of a response leaves the site's timer as the response ended it. -/
theorem responseEdge_ends {s : Chip} {n width q k : Nat} (h : s.HearsRise n width q k) (hpending : (s.siteAq k).verdict = .pending) (ten : Nat) :
    (responseEdge n true ten width s).siteAq k = (s.siteAq k).answered ten (s.unit q).limit (s.unit q).rejectSlow ∧
      Only captureParts s (responseEdge n true ten width s) := by
  rw [responseEdge_hears h hpending ten]
  refine ⟨?_, ((Only.modSiteAq s).mono (by decide)).comp (Only.responseRecord _)⟩
  rw [(RecordsOnly.responseRecord ..).siteAq, Chip.siteAq_modSiteAq, if_pos rfl]

theorem responseEdge_filtered {s : Chip} {n width : Nat} (h : s.passes n width = false) (up : Bool) (ten : Nat) :
    responseEdge n up ten width s = s := if_pos (.inr h)

theorem responseLimit_passes {s : Chip} {k q : Nat} (hpending : (s.siteAq k).verdict = .pending) (hq : s.seqOfSite k = some q)
    (hpast : (s.siteAq k).startAt + (s.unit q).limit < s.nowFine) :
    responseLimit k s = s.modSiteAq k fun x => { x with verdict := .slow, flag := x.flag || (s.unit q).rejectSlow, slowSeen := true } := by
  have hpassed : s.limitPassed k = true := by
    unfold Chip.limitPassed
    rw [hq]
    exact decide_eq_true hpast
  unfold responseLimit
  rw [if_pos ⟨hpending, hpassed⟩, hq]

theorem responseLimit_within {s : Chip} {k : Nat} (h : (s.siteAq k).verdict ≠ .pending ∨ s.limitPassed k = false) : responseLimit k s = s := by
  refine if_neg fun ⟨hpending, hpassed⟩ => ?_
  rcases h with hended | hleft
  · exact hended hpending
  · exact Bool.noConfusion (hleft.symm.trans hpassed)

/-- Settles O39: decimation by `decimationRaise_raises` and `decimationLower_lowers`, triggers by `Chip.trigger_taken` and
`Chip.trigger_missed`, the read pointer by `writeReadPointer_moves`, and the timer by `responseEdge_ends` and `responseLimit_passes`. -/
theorem acquisitionRows : Obligations.AcquisitionRows := by
  unfold Obligations.AcquisitionRows
  refine ⟨fun s => ⟨fun hfill hd => ?_, fun hfill => ?_, fun hfill hd => ?_, fun hfill => ?_⟩,
    fun u s haq hrouted hsource hrun => ⟨fun hready hleft hwindow hhold => ?_, fun hmiss hidle => ?_⟩, fun u s h => ?_,
    fun p tag v s r c h => ⟨fun hout => ?_, fun hw hr => ?_⟩,
    fun n ten width q k s haq hpass howner hq hsite hk hmarker htiming hpending hsealed hlane hpol hrun => ?_, fun n up ten width s h => ?_,
    fun k q s hpending hq hpast => ?_, fun k s h => ?_⟩
  · obtain ⟨hacq, honly⟩ := decimationRaise_raises hfill hd
    exact ⟨_, exec_decimationRaise s, congrArg Acq.decimation hacq, congrArg Acq.decChanges hacq, Within.ofChip honly⟩
  · exact congrArg (next s) (decimationRaise_within hfill)
  · exact ⟨_, congrArg (next s) (decimationLower_lowers hfill hd), rfl, rfl, Within.ofChip (Only.modAcq s.chip)⟩
  · exact congrArg (next s) (decimationLower_within hfill)
  · have hstep := aqTriggerIn_asserts haq hrouted hsource hrun
    rw [hhold] at hstep
    have htaken := Chip.trigger_taken hready hleft hwindow
    exact ⟨_, congrArg (next s) hstep, congrArg CapUnit.triggers htaken, congrArg CapUnit.missed htaken, congrArg CapUnit.postLeft htaken,
      congrArg CapUnit.primer htaken, Within.ofChip (Only.trigger s.chip)⟩
  · have hstep := (aqTriggerIn_asserts haq hrouted hsource hrun).trans (Chip.trigger_missed hmiss hidle _)
    exact ⟨_, congrArg (next s) hstep, (Chip.unit_modUnit ..).trans (if_pos rfl), Within.ofChip (Only.modUnit s.chip)⟩
  · exact congrArg (next s) (aqTriggerIn_unheard h)
  · rw [exec_readPointerWrite h, writeReadPointer_outside hout]
    rfl
  · obtain ⟨c', hmoves, hrptr, hwptr, honly⟩ := writeReadPointer_moves hw hr
    exact ⟨c', by rw [exec_readPointerWrite h, hmoves]; rfl, hrptr, hwptr, honly⟩
  · obtain ⟨hsiteAq, honly⟩ :=
      responseEdge_ends ⟨haq, hpass, howner, hq, hsite, hk, hmarker, htiming, hsealed, hlane, hpol, hrun⟩ hpending ten
    exact ⟨_, exec_responseEdge n true ten width s, congrArg SiteAq.timing hsiteAq, congrArg SiteAq.respTime hsiteAq,
      congrArg SiteAq.responded hsiteAq, congrArg SiteAq.verdict hsiteAq, Within.ofChip honly⟩
  · exact congrArg (next s) (responseEdge_filtered h up ten)
  · have hsiteAq := (s.chip.siteAq_modSiteAq k.val k.val
      fun x => { x with verdict := .slow, flag := x.flag || (s.chip.unit q.val).rejectSlow, slowSeen := true }).trans (if_pos rfl)
    exact ⟨_, congrArg (next s) (responseLimit_passes hpending hq hpast), congrArg SiteAq.verdict hsiteAq, congrArg SiteAq.slowSeen hsiteAq,
      congrArg SiteAq.flag hsiteAq, Within.ofChip (Only.modSiteAq s.chip)⟩
  · exact congrArg (next s) (responseLimit_within h)

end Sys2Proof.Machine
end

section
/-! SUPPORT. Numbers and their bytes (R7, R8): lengths, and the round trips of both orders. -/

namespace Sys2Proof.Machine

@[simp] theorem le_length (n v : Nat) : (le n v).length = n := by
  induction n generalizing v with
  | zero => rfl
  | succ n ih => simp [le, ih]

@[simp] theorem be_length (n v : Nat) : (be n v).length = n := by simp [be]

@[simp] theorem pad_length (n : Nat) (b : Bytes) : (pad n b).length = n := by
  simp only [pad, List.length_append, List.length_take, List.length_replicate]
  omega

/-- The number that `n` bytes of a number hold is the number's rest by `256 ^ n`. -/
theorem leNat_le (n v : Nat) : leNat (le n v) = v % 256 ^ n := by
  induction n generalizing v with
  | zero => simp [le, leNat, Nat.mod_one]
  | succ n ih => 
    rw [le, leNat, ih, BitVec.toNat_ofNat, show 256 ^ (n + 1) = 256 * 256 ^ n from Nat.pow_succ', Nat.mod_mul]

theorem leNat_le_of_lt {n v : Nat} (h : v < 256 ^ n) : leNat (le n v) = v := (leNat_le n v).trans (Nat.mod_eq_of_lt h)

theorem beNat_be_of_lt {n v : Nat} (h : v < 256 ^ n) : beNat (be n v) = v := by
  rw [beNat, be, List.reverse_reverse, leNat_le_of_lt h]

/-- The bytes of the number that bytes hold are those bytes. -/
theorem le_leNat (b : Bytes) : le b.length (leNat b) = b := by
  induction b with
  | nil => rfl
  | cons x b ih =>
    have hx := x.isLt
    rw [List.length_cons, leNat, le, show (x.toNat + 256 * leNat b) / 256 = leNat b by omega, ih]
    congr 1
    apply BitVec.eq_of_toNat_eq
    rw [BitVec.toNat_ofNat]
    omega

theorem be_beNat (b : Bytes) : be b.length (beNat b) = b := by
  have h := le_leNat b.reverse
  rw [List.length_reverse] at h
  rw [be, beNat, h, List.reverse_reverse]

end Sys2Proof.Machine
end

section
/-! SUPPORT. What reaches the recorder's array: RECORD_COMMIT alone, and a commit by taking the next slot (R465, R466, R468). -/

namespace Sys2Proof.Machine

/-! ## Every command but RECORD_COMMIT leaves the array (R465, R468) -/

/-- A command other than RECORD_COMMIT answers a device, with the record array and the queue as they were. -/
theorem exec_chip (c : Instr) (s : State) (h : ∀ torn overrun, c ≠ .recordCommit ⟨torn, overrun⟩) : ∃ d, exec c s = next s d := by
  cases c with
  | recordCommit run => exact absurd rfl (h run.torn run.overrun)
  | _ => exact ⟨_, rfl⟩

theorem commitOldest_pending (torn : Bool) (s : State) : (commitOldest torn s).pending = s.pending := by
  cases h : s.chip.recorder.queue with
  | nil => rw [commitOldest_nil torn h]
  | cons x rest => exact (commitOldest_cons torn h).2.1

theorem recordCommit_pending (torn overrun : Bool) (s : State) : (recordCommit torn overrun s).pending = s.pending := by
  refine (commitOldest_pending ..).trans ?_
  split <;> rfl

/-- A commit leaves the array, or gives it a record. -/
theorem recordCommit_array (torn overrun : Bool) (s : State) :
    (recordCommit torn overrun s).array = s.array ∨ ∃ us x, (recordCommit torn overrun s).array = s.array.accept torn us x := by
  have hu : (if overrun then { s with chip := s.chip.channelOverrun } else s : State).array = s.array := by split <;> rfl
  unfold recordCommit
  generalize (if overrun then { s with chip := s.chip.channelOverrun } else s : State) = u at hu
  cases h : u.chip.recorder.queue with
  | nil => exact .inl (by rw [commitOldest_nil torn h, hu])
  | cons x rest => exact .inr ⟨_, x, by rw [(commitOldest_cons torn h).1, hu]⟩

/-- Settles O2: RECORD_COMMIT answers the state of its commit, and every other command the state with a device of its own. -/
theorem everyCommandAnswersNext : Obligations.EveryCommandAnswersNext := by
  unfold Obligations.EveryCommandAnswersNext
  intro c s
  by_cases h : ∃ torn overrun, c = .recordCommit ⟨torn, overrun⟩
  · obtain ⟨torn, overrun, rfl⟩ := h
    exact ⟨_, exec_recordCommit torn overrun s, recordCommit_pending torn overrun s⟩
  · obtain ⟨d, hd⟩ := exec_chip c s fun torn overrun he => h ⟨torn, overrun, he⟩
    exact ⟨_, hd, rfl⟩

/-- Settles O3: a command other than RECORD_COMMIT changes the device alone. -/
theorem onlyCommitChangesArray : Obligations.OnlyCommitChangesArray := by
  unfold Obligations.OnlyCommitChangesArray
  intro c s t ht h
  obtain ⟨d, hd⟩ := exec_chip c s h
  cases hd.symm.trans ht
  rfl

/-! ## A record takes the next slot, or none (R466, R468, R470) -/

/-- Array `b` holds what `a` holds. -/
def RecArray.SameSlots (a b : RecArray) : Prop := b.slots = a.slots ∧ b.voids = a.voids ∧ b.next = a.next

/-- A record leaves the slots as they are, or takes the next one where the array has one left. -/
theorem RecArray.accept_cases (a : RecArray) (torn : Bool) (us : Nat) (x : RecordIn) :
    a.SameSlots (a.accept torn us x) ∨
      a.next < 65536 ∧ ∃ torn' y, (a.program torn' us y).SameSlots (a.accept torn us x) := by
  by_cases hleft : a.next < 65472 ∨ (protectedCode x.code = true ∧ a.next < 65536)
  · exact .inr ⟨by omega, torn, x, by rw [RecArray.accept_of_slot_left torn us hleft]; exact ⟨rfl, rfl, rfl⟩⟩
  · obtain ⟨hbase, hprot⟩ := not_or.mp hleft
    have hn : 65472 ≤ a.next := Nat.le_of_not_lt hbase
    cases hc : protectedCode x.code with
    | true =>
      have hfull : 65536 ≤ a.next := Nat.le_of_not_lt fun h => hprot ⟨hc, h⟩
      exact .inl (by rw [RecArray.accept_protected_full torn us hc hfull]; exact ⟨rfl, rfl, rfl⟩)
    | false =>
      cases hs : a.fullSaid with
      | true => exact .inl (by rw [RecArray.accept_ordinary_said torn us hn hc hs]; exact ⟨rfl, rfl, rfl⟩)
      | false =>
        by_cases hl : a.next < 65536
        · exact .inr ⟨hl, false, fullRecord, by rw [RecArray.accept_ordinary_first torn us hn hl hc hs]; exact ⟨rfl, rfl, rfl⟩⟩
        · refine .inl ?_
          have h : a.accept torn us x = { a with fullSaid := true, notWritten := satAdd 32 a.notWritten 1 } := by
            unfold RecArray.accept
            rw [if_neg (show ¬ a.next < protectedBase from hbase), if_neg (by simp [hc])]
            simp only [hs, Bool.false_eq_true, if_false, if_neg (show ¬ a.next < arraySlots from hl)]
          rw [h]
          exact ⟨rfl, rfl, rfl⟩

theorem step_nil {s : State} (h : s.pending = []) : step s = next s (tick s.array s.chip) := by
  unfold step
  split
  · next hc => exact absurd (h.symm.trans hc) (List.cons_ne_nil _ _).symm
  · rfl

theorem step_cons {s : State} {c : Instr} {rest : List Instr} (h : s.pending = c :: rest) : step s = exec c { s with pending := rest } := by
  unfold step
  rw [h]

/-- A step leaves the array's slots as they are, or takes the next one. -/
theorem step_slots {s t : State} (h : step s = .next t) :
    s.array.SameSlots t.array ∨ s.array.next < 65536 ∧ ∃ torn us y, (s.array.program torn us y).SameSlots t.array := by
  have hexec : ∀ (c : Instr) (u : State), exec c u = .next t →
      u.array.SameSlots t.array ∨ u.array.next < 65536 ∧ ∃ torn us y, (u.array.program torn us y).SameSlots t.array := by
    intro c u hc
    by_cases hcommit : ∃ torn overrun, c = .recordCommit ⟨torn, overrun⟩
    · obtain ⟨torn, overrun, rfl⟩ := hcommit
      cases (exec_recordCommit torn overrun u).symm.trans hc
      rcases recordCommit_array torn overrun u with ha | ⟨us, x, ha⟩
      · exact .inl (by rw [ha]; exact ⟨rfl, rfl, rfl⟩)
      · rw [ha]
        rcases u.array.accept_cases torn us x with hsame | ⟨hn, torn', y, hprog⟩
        · exact .inl hsame
        · exact .inr ⟨hn, torn', us, y, hprog⟩
    · have ha := onlyCommitChangesArray c u t hc fun torn overrun he => hcommit ⟨torn, overrun, he⟩
      exact .inl (by rw [ha]; exact ⟨rfl, rfl, rfl⟩)
  cases hp : s.pending with
  | nil =>
    have ht := Host.Outcome.next.inj ((step_nil hp).symm.trans h)
    exact .inl (by rw [← ht]; exact ⟨rfl, rfl, rfl⟩)
  | cons c rest => exact hexec c { s with pending := rest } ((step_cons hp).symm.trans h)

/-! ## The invariant (R465, R466, R468) -/

/-- A present key's value stands in the collection. -/
theorem SMap.mem_of_find {α : Type} {m : SMap α} {k : Nat} {v : α} (h : SMap.find? m k = some v) : (k, v) ∈ m := by
  induction m with
  | nil => cases h
  | cons e m ih =>
    obtain ⟨k', v'⟩ := e
    unfold SMap.find? at h
    split at h
    · next hk =>
      cases h
      rw [hk]
      exact List.mem_cons_self ..
    · exact List.mem_cons_of_mem _ (ih h)

/-- The first 30 bytes of a record: all but its CRC (R466). -/
def recordBody (n us : Nat) (x : RecordIn) : Bytes :=
  le 4 n ++ (le 2 x.code ++ le 1 (x.island + 16 * x.unit) ++
    le 1 ((if x.lost = 0 then 0 else 1) + (if x.code = 0x0005 then 2 else 0) + (if n ≥ protectedBase then 4 else 0)) ++
    le 8 us ++ le 2 x.lost ++ pad 12 x.payload)

theorem recordBody_length (n us : Nat) (x : RecordIn) : (recordBody n us x).length = 30 := by
  simp [recordBody]

theorem recordBytes_eq (n us : Nat) (x : RecordIn) : recordBytes n us x = recordBody n us x ++ le 2 (crc16 (recordBody n us x)) := by
  simp [recordBytes, recordBody, List.append_assoc]

/-- A record has 32 bytes, begins with its slot's number and ends with the CRC of the rest (R466). -/
theorem recordBytes_wf (n us : Nat) (x : RecordIn) : (recordBytes n us x).length = 32 ∧ (recordBytes n us x).take 4 = le 4 n ∧
    (recordBytes n us x).drop 30 = le 2 (crc16 ((recordBytes n us x).take 30)) := by
  have hl := recordBody_length n us x
  rw [recordBytes_eq]
  refine ⟨by simp [hl], ?_, ?_⟩
  · rw [List.take_append_of_le_length (by omega), recordBody]
    exact List.take_left' (le_length 4 n)
  · rw [List.drop_left' hl, List.take_left' hl]

theorem RecArray.Inv.of_same {a b : RecArray} (h : a.Inv) (k : a.SameSlots b) : b.Inv := by
  obtain ⟨hslots, hvoids, hnext⟩ := k
  unfold RecArray.Inv
  rw [hslots, hvoids, hnext]
  exact h

/-- No record stands at or behind the next slot. -/
theorem RecArray.Inv.find_lt {a : RecArray} (h : a.Inv) {n : Nat} {b : Bytes} (hf : SMap.find? a.slots n = some b) : n < a.next :=
  (h.2.2.1 _ (SMap.mem_of_find hf)).1

theorem RecArray.Inv.find_next {a : RecArray} (h : a.Inv) : SMap.find? a.slots a.next = none := by
  cases hf : SMap.find? a.slots a.next with
  | none => rfl
  | some b => exact absurd (h.find_lt hf) (Nat.lt_irrefl _)

/-- Taking the next slot keeps the invariant. -/
theorem RecArray.Inv.program {a : RecArray} (h : a.Inv) (hn : a.next < 65536) (torn : Bool) (us : Nat) (x : RecordIn) : (a.program torn us x).Inv := by
  have hnone := h.find_next
  obtain ⟨hsorted, -, hrec, hvoid⟩ := h
  cases torn with
  | true =>
    rw [RecArray.program_torn]
    refine ⟨hsorted, hn, fun c hc => ⟨Nat.lt_succ_of_lt (hrec c hc).1, (hrec c hc).2⟩, fun n hm => ?_⟩
    rcases List.mem_append.mp hm with hold | hnew
    · exact ⟨Nat.lt_succ_of_lt (hvoid n hold).1, (hvoid n hold).2⟩
    · rw [List.mem_singleton.mp hnew]
      exact ⟨Nat.lt_succ_self _, hnone⟩
  | false =>
    refine ⟨SMap.sorted_put hsorted, hn, fun c hc => ?_, fun n hm => ?_⟩
    · rcases SMap.mem_put hc with rfl | hold
      · exact ⟨Nat.lt_succ_self _, recordBytes_wf a.next us x⟩
      · exact ⟨Nat.lt_succ_of_lt (hrec c hold).1, (hrec c hold).2⟩
    · obtain ⟨hlt, hno⟩ := hvoid n hm
      exact ⟨Nat.lt_succ_of_lt hlt, by rw [RecArray.find_program, if_neg (Nat.ne_of_lt hlt), hno]⟩

/-- Settles O4: a step leaves the slots as they are or takes the next one, and either keeps the invariant. -/
theorem recorderInvariantKept : Obligations.RecorderInvariantKept := by
  unfold Obligations.RecorderInvariantKept
  intro s t hinv hstep
  rcases step_slots hstep with hsame | ⟨hn, torn, us, y, hprog⟩
  · exact hinv.of_same hsame
  · exact (hinv.program hn torn us y).of_same hprog

/-! ## R465, whole -/

/-- Taking the next slot leaves what every other slot holds. -/
theorem RecArray.find_program_ne {a : RecArray} {n : Nat} (h : n ≠ a.next) (torn : Bool) (us : Nat) (x : RecordIn) :
    SMap.find? (a.program torn us x).slots n = SMap.find? a.slots n := by
  cases torn with
  | true => rfl
  | false => exact (RecArray.find_program a us x n).trans (if_neg h)

theorem RecArray.mem_program_voids {a : RecArray} {n : Nat} (h : n ∈ a.voids) (torn : Bool) (us : Nat) (x : RecordIn) :
    n ∈ (a.program torn us x).voids := by
  cases torn with
  | true => exact List.mem_append_left _ h
  | false => exact h

/-- Under the invariant a record's number is its slot (R466). -/
theorem RecArray.Inv.record {a : RecArray} (h : a.Inv) {n : Nat} {b : Bytes} (hf : SMap.find? a.slots n = some b) :
    n < 65536 ∧ b.length = 32 ∧ fieldAt b 0 4 = n := by
  obtain ⟨hlt, hlen, hseq, -⟩ := h.2.2.1 _ (SMap.mem_of_find hf)
  have hn : n < 65536 := Nat.lt_of_lt_of_le hlt h.2.1
  refine ⟨hn, hlen, ?_⟩
  calc fieldAt b 0 4 = leNat (b.take 4) := rfl
    _ = leNat (le 4 n) := by rw [hseq]
    _ = n := leNat_le_of_lt (by omega)

/-- Settles O5: a step that takes the next slot leaves the slots before it, and the invariant says what the records are. -/
theorem recorderSlotsAreNeverRewritten : Obligations.RecorderSlotsAreNeverRewritten := by
  unfold Obligations.RecorderSlotsAreNeverRewritten
  intro s t hinv hstep
  have hinv' : t.array.Inv := recorderInvariantKept s t hinv hstep
  have hrecord : ∀ n b, SMap.find? t.array.slots n = some b → n < 65536 ∧ b.length = 32 ∧ fieldAt b 0 4 = n := fun n b hf => hinv'.record hf
  obtain ⟨-, -, -, hvoid⟩ := id hinv
  rcases step_slots hstep with ⟨hslots, hvoids, hnext⟩ | ⟨hn, torn, us, y, hslots, hvoids, hnext⟩
  · rw [hslots] at hrecord ⊢
    rw [hvoids, hnext]
    exact ⟨fun _ _ hf => hf, fun n hm => ⟨hm, (hvoid n hm).2⟩, le_rfl, hinv.2.1, hrecord⟩
  · refine ⟨fun n b hf => ?_, fun n hm => ⟨?_, ?_⟩, ?_, ?_, hrecord⟩
    · rw [hslots, RecArray.find_program_ne (Nat.ne_of_lt (hinv.find_lt hf)), hf]
    · rw [hvoids]
      exact RecArray.mem_program_voids hm torn us y
    · rw [hslots, RecArray.find_program_ne (Nat.ne_of_lt (hvoid n hm).1), (hvoid n hm).2]
    · rw [hnext, RecArray.program_next]
      exact Nat.le_succ _
    · rw [hnext, RecArray.program_next]
      exact hn

end Sys2Proof.Machine
end

section
/-! SUPPORT. The frames of the Nestan link: a frame that is sent is read back as it was, and bytes that are read as a frame are its
bytes (R423). -/

namespace Sys2Proof.Machine

/-! ## The CRC fits its four bytes -/

theorem crc32Bit_lt {c : Nat} (h : c < 2 ^ 32) : crc32Bit c < 2 ^ 32 := by
  unfold crc32Bit
  split
  · exact Nat.xor_lt_two_pow (by omega) (by decide)
  · omega

theorem crc32Byte_lt {c : Nat} (h : c < 2 ^ 32) (b : Byte) : crc32Byte c b < 2 ^ 32 := by
  have hb : b.toNat < 2 ^ 32 := Nat.lt_of_lt_of_le b.isLt (by decide)
  unfold crc32Byte
  iterate 8 refine crc32Bit_lt ?_
  exact Nat.xor_lt_two_pow h hb

theorem crc32_lt (b : Bytes) : crc32 b < 2 ^ 32 := by
  unfold crc32
  refine Nat.xor_lt_two_pow ?_ (by decide)
  have h : ∀ (l : Bytes) (c : Nat), c < 2 ^ 32 → l.foldl crc32Byte c < 2 ^ 32 := by
    intro l
    induction l with
    | nil => exact fun c hc => hc
    | cons x l ih => exact fun c hc => ih _ (crc32Byte_lt hc x)
  exact h b _ (by decide)

/-! ## The parts of a frame's bytes (R423) -/

/-- The header of a frame: type, cluster, source, destination, length of the payload, sequence number. -/
def Frame.header (f : Frame) : Bytes :=
  be 1 f.type ++ be 1 f.cluster ++ be 1 f.src ++ be 1 f.dst ++ be 2 f.payload.length ++ be 2 f.seq

/-- A frame's bytes without its CRC. -/
def Frame.body (f : Frame) : Bytes := f.header ++ f.payload

theorem Frame.bytes_eq (f : Frame) : f.bytes = f.body ++ le 4 (crc32 f.body) := rfl

theorem Frame.header_length (f : Frame) : f.header.length = 8 := by simp [Frame.header]

theorem Frame.body_length (f : Frame) : f.body.length = f.payload.length + 8 := by
  rw [Frame.body, List.length_append, Frame.header_length, Nat.add_comm]

theorem Frame.bytes_length (f : Frame) : f.bytes.length = f.payload.length + 12 := by
  rw [Frame.bytes_eq, List.length_append, Frame.body_length, le_length]

theorem be_one (v : Nat) : be 1 v = [BitVec.ofNat 8 v] := rfl

/-- The field behind `a`. -/
theorem slice_behind {a b c : Bytes} {i n : Nat} (ha : a.length = i) (hb : b.length = n) : slice (a ++ (b ++ c)) i n = b := by
  rw [slice, List.drop_left' ha, List.take_left' hb]

/-- What the header's fields read, in whatever follows the header. -/
theorem Frame.header_reads {f : Frame} (ht : f.type < 256) (hc : f.cluster < 256) (hs : f.src < 256) (hd : f.dst < 256) (hq : f.seq < 65536)
    (hp : f.payload.length < 65536) (rest : Bytes) :
    byteAt (f.header ++ rest) 0 = f.type ∧ byteAt (f.header ++ rest) 1 = f.cluster ∧ byteAt (f.header ++ rest) 2 = f.src ∧
    byteAt (f.header ++ rest) 3 = f.dst ∧ beNat (slice (f.header ++ rest) 4 2) = f.payload.length ∧ beNat (slice (f.header ++ rest) 6 2) = f.seq := by
  have hbyte : ∀ v, v < 256 → (BitVec.ofNat 8 v).toNat = v := fun v hv => by rw [BitVec.toNat_ofNat]; omega
  refine ⟨hbyte _ ht, hbyte _ hc, hbyte _ hs, hbyte _ hd, ?_, ?_⟩
  · exact beNat_be_of_lt (n := 2) hp
  · exact beNat_be_of_lt (n := 2) hq

/-! ## Reading a frame (R423) -/

/-- What the bytes of a frame must meet. -/
structure FrameOk (b : Bytes) : Prop where
  long : 12 ≤ b.length
  short : b.length - 12 ≤ 256
  length : beNat (slice b 4 2) = b.length - 12
  type_pos : byteAt b 0 ≠ 0
  type_le : byteAt b 0 ≤ 0x0A
  crc : leNat (b.drop (b.length - 4)) = crc32 (b.take (b.length - 4))

/-- The frame that bytes hold. -/
def frameOf (b : Bytes) : Frame :=
  { type := byteAt b 0, cluster := byteAt b 1, src := byteAt b 2, dst := byteAt b 3, seq := beNat (slice b 6 2), payload := slice b 8 (b.length - 12) }

theorem parseFrame_eq_some_iff {b : Bytes} {f : Frame} : parseFrame b = some f ↔ FrameOk b ∧ f = frameOf b := by
  unfold parseFrame
  dsimp only
  constructor
  · intro h
    split at h
    · cases h
    · next hok =>
      simp only [not_or, Nat.not_lt, ne_eq, not_not, gt_iff_lt] at hok
      obtain ⟨hlong, hshort, hlen, hpos, hle, hcrc⟩ := hok
      exact ⟨⟨hlong, hshort, hlen, hpos, hle, hcrc⟩, (Option.some.inj h).symm⟩
  · rintro ⟨h, rfl⟩
    rw [if_neg]
    · rfl
    · simp only [not_or, Nat.not_lt, ne_eq, not_not, gt_iff_lt]
      exact ⟨h.long, h.short, h.length, h.type_pos, h.type_le, h.crc⟩

/-- A frame that is sent is read back. -/
theorem parseFrame_bytes {f : Frame} (h1 : 1 ≤ f.type) (ht : f.type ≤ 0x0A) (hc : f.cluster < 256) (hs : f.src < 256) (hd : f.dst < 256)
    (hq : f.seq < 65536) (hp : f.payload.length ≤ 256) : parseFrame f.bytes = some f := by
  have hlen : f.bytes.length = f.payload.length + 12 := f.bytes_length
  have hbody : f.bytes.length - 4 = f.body.length := by rw [hlen, Frame.body_length]; omega
  have hsplit : f.bytes = f.header ++ (f.payload ++ le 4 (crc32 f.body)) := by rw [Frame.bytes_eq, Frame.body, List.append_assoc]
  obtain ⟨htype, hcluster, hsrc, hdst, hlength, hseq⟩ :=
    Frame.header_reads (f := f) (by omega) hc hs hd hq (by omega) (f.payload ++ le 4 (crc32 f.body))
  rw [← hsplit] at htype hcluster hsrc hdst hlength hseq
  have hpayload : slice f.bytes 8 (f.bytes.length - 12) = f.payload := by
    rw [hsplit]
    exact slice_behind f.header_length (by rw [← hsplit, hlen]; omega)
  refine parseFrame_eq_some_iff.mpr ⟨⟨by omega, by omega, by omega, by omega, by omega, ?_⟩, ?_⟩
  · rw [hbody, Frame.bytes_eq, List.drop_left' rfl, List.take_left' rfl]
    exact leNat_le_of_lt (crc32_lt f.body)
  · rw [frameOf, htype, hcluster, hsrc, hdst, hseq, hpayload]

/-- The fields that are read from a header's bytes give those bytes again. -/
theorem header_of_bytes {b : Bytes} (h : 8 ≤ b.length) :
    be 1 (byteAt b 0) ++ be 1 (byteAt b 1) ++ be 1 (byteAt b 2) ++ be 1 (byteAt b 3) ++ be 2 (beNat (slice b 4 2)) ++ be 2 (beNat (slice b 6 2)) = b.take 8 := by
  have hbyte : ∀ i, i < b.length → be 1 (byteAt b i) = slice b i 1 := by
    intro i hi
    rw [be_one, byteAt, BitVec.ofNat_toNat, BitVec.setWidth_eq, slice, List.drop_eq_getElem_cons hi, List.getD_eq_getElem _ _ hi]
    rfl
  have hpair : ∀ i, i + 2 ≤ b.length → be 2 (beNat (slice b i 2)) = slice b i 2 := by
    intro i hi
    have hl : (slice b i 2).length = 2 := by rw [slice, List.length_take, List.length_drop]; omega
    have hb := be_beNat (slice b i 2)
    rwa [hl] at hb
  have hjoin : ∀ m n, b.take m ++ slice b m n = b.take (m + n) := fun m n => List.take_add.symm
  rw [hbyte 0 (by omega), hbyte 1 (by omega), hbyte 2 (by omega), hbyte 3 (by omega), hpair 4 (by omega), hpair 6 (by omega)]
  calc slice b 0 1 ++ slice b 1 1 ++ slice b 2 1 ++ slice b 3 1 ++ slice b 4 2 ++ slice b 6 2
      = b.take 1 ++ slice b 1 1 ++ slice b 2 1 ++ slice b 3 1 ++ slice b 4 2 ++ slice b 6 2 := rfl
    _ = b.take 8 := by rw [hjoin, hjoin, hjoin, hjoin, hjoin]

/-- Bytes that are read as a frame are the bytes of that frame. -/
theorem bytes_frameOf {b : Bytes} (h : FrameOk b) : (frameOf b).bytes = b := by
  obtain ⟨hlong, -, hlength, -, -, hcrc⟩ := h
  have hpayload : (frameOf b).payload.length = b.length - 12 := by
    show (slice b 8 (b.length - 12)).length = _
    rw [slice, List.length_take, List.length_drop]
    omega
  have hbody : (frameOf b).body = b.take (b.length - 4) := by
    rw [Frame.body, Frame.header, hpayload, ← hlength]
    show be 1 (byteAt b 0) ++ be 1 (byteAt b 1) ++ be 1 (byteAt b 2) ++ be 1 (byteAt b 3) ++ be 2 (beNat (slice b 4 2)) ++
      be 2 (beNat (slice b 6 2)) ++ slice b 8 (b.length - 12) = _
    rw [header_of_bytes (by omega), slice, ← List.take_add]
    congr 1
    omega
  have htail : (b.drop (b.length - 4)).length = 4 := by rw [List.length_drop]; omega
  calc (frameOf b).bytes = b.take (b.length - 4) ++ le 4 (crc32 (b.take (b.length - 4))) := by rw [Frame.bytes_eq, hbody]
    _ = b.take (b.length - 4) ++ le (b.drop (b.length - 4)).length (leNat (b.drop (b.length - 4))) := by rw [← hcrc, htail]
    _ = b := by rw [le_leNat, List.take_append_drop]

/-- Settles O45: `parseFrame_bytes` one way, `bytes_frameOf` the other. -/
theorem frameRoundTrip : Obligations.FrameRoundTrip := by
  unfold Obligations.FrameRoundTrip
  refine ⟨fun f h1 ht hc hs hd hq hp => parseFrame_bytes h1 ht hc hs hd hq hp, fun b f h => ?_⟩
  obtain ⟨hok, rfl⟩ := parseFrame_eq_some_iff.mp h
  refine ⟨bytes_frameOf hok, Nat.one_le_iff_ne_zero.mpr hok.type_pos, hok.type_le, ?_⟩
  show (slice b 8 (b.length - 12)).length ≤ 256
  exact (List.length_take_le ..).trans hok.short

end Sys2Proof.Machine
end

section
/-! SUPPORT. The open entry of a tagged write at its owner (R128), and the code of a ring that is down (R445). -/

namespace Sys2Proof.Machine

/-! ## The session of a request that reached its owner (R118, R121, R128) -/

/-- A key that stands in a collection is found there. -/
theorem SMap.find_of_mem {α : Type} {m : SMap α} {e : Nat × α} (h : e ∈ m) : ∃ v, SMap.find? m e.1 = some v := by
  induction m with
  | nil => cases h
  | cons x m ih =>
    obtain ⟨k, v⟩ := x
    unfold SMap.find?
    split
    · exact ⟨v, rfl⟩
    · next hk =>
      rcases List.mem_cons.mp h with rfl | hm
      · exact absurd rfl hk
      · exact ih hm

/-- The session that a path's client holds stands in the session table. -/
theorem Chip.find_sessionAt {s : Chip} {p : Path} (h : s.sessionAt p ≠ 0) : ∃ x, SMap.find? s.host.sessions (s.sessionAt p) = some x := by
  cases p with
  | can b client =>
    unfold Chip.sessionAt at h ⊢
    dsimp only at h ⊢
    split at h
    · next e he => exact SMap.find_of_mem (List.mem_of_find?_eq_some he)
    · exact absurd rfl h
  | spi n =>
    unfold Chip.sessionAt at h ⊢
    dsimp only at h ⊢
    split at h
    · next x hx =>
      split at h
      · next hspi => exact ⟨x, by rw [if_pos hspi]; exact hx⟩
      · exact absurd rfl h
    · exact absurd rfl h

/-- A request of a session arrives at the opening that stands (R121). -/
theorem Chip.sessionOf_arrive {s c : Chip} {p : Path} {tag : Word16} {idx sub : Nat} {t : Target} (h : s.arrive p tag idx sub = (c, some t))
    (hn : t.session ≠ 0) : ∃ x, SMap.find? c.host.sessions t.session = some x ∧ x.serial = t.serial := by
  unfold Chip.arrive at h
  split at h
  · cases h
  · dsimp only at h
    split at h
    · split at h
      · cases h
      · cases h
        dsimp only at hn
        obtain ⟨x, hx⟩ := Chip.find_sessionAt hn
        exact ⟨_, Chip.find_modSession _ hx, show x.serial = _ from congrArg Session.serial (SMap.get_of_find {} hx).symm⟩
    · split at h
      · cases h
      · cases h
        dsimp only at hn
        obtain ⟨x, hx⟩ := Chip.find_sessionAt hn
        exact ⟨_, Chip.find_modSession _ hx, show x.serial = _ from congrArg Session.serial (SMap.get_of_find {} hx).symm⟩

/-- A ledger step that lets a write through leaves its entry open, at the head of its session's ledger (R128). -/
theorem Chip.ledgerStep_entry {s c : Chip} {t u : Target} {x y : Session} {payload : Bytes} (h : s.ledgerStep t x payload = .inr (u, c))
    (hy : SMap.find? s.host.sessions t.session = some y) :
    ∃ (z : Session) (e : LedgerEntry) (l : List LedgerEntry), SMap.find? c.host.sessions u.session = some z ∧ z.serial = y.serial ∧
      z.ledger = e :: l ∧ e.tag = u.tag ∧ e.inProgress = true := by
  have hu : ∃ z, SMap.find? (s.unstage t).host.sessions t.session = some z ∧ z.serial = y.serial := by
    unfold Chip.unstage
    split
    · exact ⟨_, Chip.find_modSession _ hy, rfl⟩
    · exact ⟨y, hy, rfl⟩
  obtain ⟨z, hz, hserial⟩ := hu
  unfold Chip.ledgerStep at h
  split at h
  · cases h
  · unfold Chip.ledgerLookup at h
    split at h
    · split at h
      · cases h
      · split at h <;> cases h
    · split at h
      · cases h
      · cases h
        exact ⟨_, _, _, Chip.find_modSession _ hz, hserial, rfl, rfl, rfl⟩

/-- A tagged write of a session reaches its owner with its entry open, and its session standing (R121, R128). -/
theorem gate_go_entry {p : Path} {tag : Word16} {idx sub : Nat} {payload : Bytes} {chk : Req → Chip → Nat} {s c : Chip} {r : Req}
    (h : gate p tag idx sub payload chk s = .go r c) (htag : r.dest.tagged = true) (hn : r.dest.session ≠ 0) :
    ∃ (x : Session) (e : LedgerEntry) (l : List LedgerEntry), c.sessionOf r.dest = some x ∧ x.ledger = e :: l ∧ e.tag = r.dest.tag ∧
      e.inProgress = true := by
  unfold gate at h
  generalize ha : s.arrive p tag idx sub = a at h
  obtain ⟨a, ot⟩ := a
  cases ot with
  | none => cases h
  | some t =>
    dsimp only at h
    split at h
    · cases h
    split at h
    · cases h
    · cases h
    next row hrow =>
    split at h
    · cases h
    split at h
    · cases h
    next u d hstep =>
    obtain ⟨-, tag', rfl⟩ := Chip.tagStep_inr (t := { t with tagged := !tagExempt idx row }) hstep
    split at h
    · rw [if_pos (by decide)] at h; cases h
    split at h
    · cases h
    obtain ⟨rfl, rfl⟩ := Chip.dispatch_go h
    obtain ⟨y, hy, hys⟩ := Chip.sessionOf_arrive ha hn
    rw [if_pos htag] at hstep
    obtain ⟨z, e, l, hz, hzs, hledger, hetag, hprog⟩ := Chip.ledgerStep_entry hstep hy
    refine ⟨z, e, l, ?_, hledger, hetag, hprog⟩
    unfold Chip.sessionOf
    rw [hz]
    exact if_pos (hzs.trans hys)

/-- A completed request whose entry was open stands in its session's ledger with its result, where that result is stored (R129). -/
theorem Chip.complete_stores {s : Chip} {t : Target} {x : Session} {e : LedgerEntry} {l : List LedgerEntry} {code : Nat} (data : Bytes) (delay : Nat)
    (hn : t.session ≠ 0) (ht : t.tagged = true) (hx : s.sessionOf t = some x) (hl : x.ledger = e :: l) (he : e.inProgress = true)
    (hc : unstored code = false) :
    ∃ y, SMap.find? (s.complete t code data delay).host.sessions t.session = some y ∧
      ∃ f ∈ y.ledger, f.tag = e.tag ∧ f.result = BitVec.ofNat 16 code ∧ f.inProgress = false := by
  refine ⟨_, Chip.find_complete code data delay hn ht hx, { e with result := BitVec.ofNat 16 code, data := data.take 16, inProgress := false, copies := [] }, ?_, rfl, rfl, rfl⟩
  unfold Session.complete
  dsimp only
  rw [if_pos ht, hc, hl, List.filter_cons_of_pos he]
  exact List.mem_cons_self ..

/-! ## CALIBRATE_NOW and CLUSTER_REJOIN while the ring is not closed (R445) -/

theorem exec_calibrateNow {p : Path} {tag : Word16} {s : State} {r : Req} {c : Chip} (h : gate p tag 0x4A00 0x10 [1] (fun _ _ => 0) s.chip = .go r c) :
    exec (.calibrateNow p tag) s = next s (Chip.finish r.dest (calibrateNow r c)) := congrArg (next s) (hostWrite_go h)

theorem exec_clusterRejoin {p : Path} {tag : Word16} {s : State} {r : Req} {c : Chip} (h : gate p tag 0x4A00 0x11 [2] (fun _ _ => 0) s.chip = .go r c) :
    exec (.clusterRejoin p tag) s = next s (Chip.finish r.dest (clusterRejoin r c)) := congrArg (next s) (hostWrite_go h)

theorem calibrateNow_ringDown (r : Req) {c : Chip} (h : c.cluster.size = 0) : calibrateNow r c = (c, bad 0xA001) := if_pos h

theorem clusterRejoin_ringDown (r : Req) {c : Chip} (h : c.cluster.size = 0) : clusterRejoin r c = (c, bad 0xA001) := if_pos h

/-- The two objects need a tag and are written by a session. -/
theorem clusterCommand_tagged {sub : Nat} (h : sub = 0x10 ∨ sub = 0x11) {row : ObjRow} (hrow : lookup 0x4A00 sub = .found row) : tagExempt 0x4A00 row = false := by
  rcases h with rfl | rfl <;> cases hrow <;> rfl

/-- Settles O47: the owner answers 0xA001, and the entry that the gate left open completes with it. -/
theorem ringDownCode : Obligations.RingDownCode := by
  unfold Obligations.RingDownCode
  intro p tag s r c sub v i hi hgate hsize
  have hsub : (sub = 0x10 ∨ sub = 0x11) ∧ exec i s = next s (c.complete r.dest 0xA001 [] 0) := by
    simp only [List.mem_cons, Prod.mk.injEq, List.not_mem_nil, or_false] at hi
    rcases hi with ⟨rfl, rfl, rfl⟩ | ⟨rfl, rfl, rfl⟩
    · exact ⟨.inl rfl, by rw [exec_calibrateNow hgate, calibrateNow_ringDown r hsize]; rfl⟩
    · exact ⟨.inr rfl, by rw [exec_clusterRejoin hgate, clusterRejoin_ringDown r hsize]; rfl⟩
  obtain ⟨hsub, hexec⟩ := hsub
  obtain ⟨-, -, -, -, -, -, -, hses, row, hrow, -, -, htagged⟩ := gate_go hgate
  have hn : r.dest.session ≠ 0 := hses.resolve_right (by simp)
  have ht : r.dest.tagged = true := by rw [htagged, clusterCommand_tagged hsub hrow]; rfl
  obtain ⟨x, e, l, hx, hl, hetag, hprog⟩ := gate_go_entry hgate ht hn
  obtain ⟨y, hy, f, hf, hftag, hresult, hdone⟩ := Chip.complete_stores (code := 0xA001) [] 0 hn ht hx hl hprog rfl
  exact ⟨hexec, y, hy, f, hf, hftag.trans hetag, hresult, hdone⟩

end Sys2Proof.Machine
end

section
/-! SUPPORT. The level outputs: what a strobe, a clear, a frame and a short do to each channel (chapter 15). -/

namespace Sys2Proof.Machine

/-! ## Every member of a collection changed -/

/-- A collection with its first `n` members changed. -/
theorem SMap.get_foldl_upd {α : Type} [DecidableEq α] (d : α) (f : Nat → α → α) (n : Nat) (m : SMap α) (j : Nat) :
    SMap.get ((List.range n).foldl (fun m k => m.upd d k (f k)) m) d j = if j < n then f j (SMap.get m d j) else SMap.get m d j := by
  induction n with
  | zero => rfl
  | succ n ih =>
    rw [List.range_succ, List.foldl_append, List.foldl_cons, List.foldl_nil, SMap.get_upd]
    split
    · next h => subst h; rw [ih, if_neg (Nat.lt_irrefl j), if_pos (Nat.lt_succ_self j)]
    · next h =>
      rw [ih]
      exact if_congr (by omega) rfl rfl

/-- A collection with its first `n` members stored. -/
theorem SMap.get_foldl_set {α : Type} [DecidableEq α] (d : α) (v : Nat → α) (n : Nat) (m : SMap α) (j : Nat) :
    SMap.get ((List.range n).foldl (fun m k => m.set d k (v k)) m) d j = if j < n then v j else SMap.get m d j :=
  SMap.get_foldl_upd d (fun k _ => v k) n m j

/-- The first `n` level channels changed. -/
theorem Chip.lv_eachLv (f : Nat → LvCh → LvCh) (n : Nat) (s : Chip) (j : Nat) :
    ((List.range n).foldl (fun s k => s.modLv k (f k)) s).lv j = if j < n then f j (s.lv j) else s.lv j := by
  induction n with
  | zero => rfl
  | succ n ih =>
    rw [List.range_succ, List.foldl_append, List.foldl_cons, List.foldl_nil, Chip.lv_modLv]
    split
    · next h => subst h; rw [ih, if_neg (Nat.lt_irrefl j), if_pos (Nat.lt_succ_self j)]
    · next h =>
      rw [ih]
      exact if_congr (by omega) rfl rfl

/-- A level channel is unchanged where the levels are. -/
theorem Only.lv {a b : Chip} {ps : List Part} (h : Only ps a b) (hp : Part.levels ∉ ps := by decide) (k : Nat) : b.lv k = a.lv k := by
  have hlevels : b.levels = a.levels := h .levels hp
  unfold Chip.lv
  rw [hlevels]

/-- An island runs as before where the islands, their re-seats and their clocks are unchanged. -/
theorem Only.runs {a b : Chip} {ps : List Part} (h : Only ps a b) (hi : Part.islands ∉ ps := by decide) (hr : Part.reseat ∉ ps := by decide)
    (hc : Part.clk ∉ ps := by decide) (hp : Part.plls ∉ ps := by decide) (i : Nat) : b.runs i = a.runs i := by
  have hislands : b.islands = a.islands := h .islands hi
  have hreseat : b.reseat = a.reseat := h .reseat hr
  have hclk : b.clk = a.clk := h .clk hc
  have hplls : b.plls = a.plls := h .plls hp
  unfold Chip.runs Chip.unitFaulted Chip.island
  rw [hislands, hreseat, hclk, hplls]

/-! ## Strobes (R395, R396) -/

theorem Chip.recognised_short {ns : Nat} (h : ns < 50) (s : Chip) : s.recognised ns = (false, s) := if_pos h

theorem Chip.recognised_long {ns : Nat} (h : 200 ≤ ns) (s : Chip) : s.recognised ns = (true, s) := (if_neg (by omega)).trans (if_pos h)

theorem lvlLoadFall_short {ns : Nat} (h : ns < 50) (s : Chip) : lvlLoadFall ns s = s := by
  unfold lvlLoadFall
  rw [Chip.recognised_short h]
  exact if_neg Bool.false_ne_true

theorem lvlLoadFall_long {ns : Nat} (h : 200 ≤ ns) (s : Chip) : lvlLoadFall ns s = s.loadStrobe := by
  unfold lvlLoadFall
  rw [Chip.recognised_long h]
  exact if_pos rfl

/-- A strobe is noted by an LV that runs, outside a clear. -/
theorem Chip.loadStrobe_noted {s : Chip} (hr : s.runs 9 = true) (hc : s.clearing = false) :
    s.loadStrobe = { s with levels := { s.levels with strobe := true } } := if_neg (by simp [hr, hc])

theorem Chip.loadStrobe_ignored {s : Chip} (h : s.runs 9 = false ∨ s.clearing = true) : s.loadStrobe = s := if_pos h

theorem strobeCommand_clearing {c : Chip} (r : Req) (h : c.clearing = true) : strobeCommand r c = (c, bad 0x9001) := if_pos h

theorem strobeCommand_noted {c : Chip} (r : Req) (hr : c.runs 9 = true) (hc : c.clearing = false) :
    strobeCommand r c = ({ c with levels := { c.levels with strobe := true } }, ok) :=
  (if_neg (by simp [hc])).trans (by rw [Chip.loadStrobe_noted hr hc])

/-! ## Clears (R399, R400) -/

theorem Only.noteClear (s : Chip) : Only [.levels] s s.noteClear := Only.modLevels s

/-- A clear takes every load that is owed away. -/
theorem Chip.lv_noteClear (s : Chip) (k : Nat) : s.noteClear.lv k = if k < 16 then (s.lv k).dropLoads else s.lv k := by
  unfold Chip.noteClear Chip.lv Chip.modLevels
  dsimp only
  have hget := SMap.get_foldl_upd {} (fun _ => LvCh.dropLoads) 16 s.levels.chs k
  rw [hget]

theorem Chip.noteClear_loads (s : Chip) {k : Nat} (h : k < 16) : (s.noteClear.lv k).loadAt = none ∧ (s.noteClear.lv k).loadNext = none := by
  rw [Chip.lv_noteClear, if_pos h]
  exact ⟨rfl, rfl⟩

/-- A clear leaves a channel's output as it is until the next boundary. -/
theorem Chip.noteClear_output (s : Chip) (k : Nat) : (s.noteClear.lv k).short = (s.lv k).short ∧ (s.noteClear.lv k).active = (s.lv k).active := by
  rw [Chip.lv_noteClear]
  split <;> exact ⟨rfl, rfl⟩

/-- A clear by its pin. -/
def Chip.pinCleared (s : Chip) : Chip := s.modLevels fun l => { l with pinClear := true }

theorem lvlClear_short {ns : Nat} (h : ns < 50) (s : Chip) : lvlClear ns s = s := by
  unfold lvlClear
  rw [Chip.recognised_short h]
  exact if_neg Bool.false_ne_true

theorem lvlClear_runs {ns : Nat} (h : 200 ≤ ns) {s : Chip} (hr : s.runs 9 = true) : lvlClear ns s = s.pinCleared.noteClear := by
  unfold lvlClear
  rw [Chip.recognised_long h]
  exact (if_pos rfl).trans (if_pos hr)

theorem lvlClear_stopped {ns : Nat} (h : 200 ≤ ns) {s : Chip} (hr : s.runs 9 = false) : lvlClear ns s = s.pinCleared := by
  unfold lvlClear
  rw [Chip.recognised_long h]
  exact (if_pos rfl).trans (if_neg (by rw [(Only.modLevels s).runs, hr]; exact Bool.false_ne_true))

/-- A clear by the pin of an LV that runs is in force. -/
theorem Chip.clearing_pinCleared {s : Chip} (hr : s.runs 9 = true) : s.pinCleared.noteClear.clearing = true := by
  unfold Chip.clearing
  rw [((Only.modLevels s).comp (Only.noteClear s.pinCleared)).runs, hr]
  rfl

/-- A clear by "LV clear", which a pulse holds until the event of its end. -/
def Chip.eventCleared (s : Chip) : Chip := s.noteClear.modLevels fun l => { l with eventClear := !s.consumer 0x59 }

/-- What is changed among the levels outside the channels leaves the channels. -/
theorem Chip.lv_modLevels {s : Chip} {f : Levels → Levels} (h : ∀ l, (f l).chs = l.chs) (k : Nat) : (s.modLevels f).lv k = s.lv k := by
  unfold Chip.lv Chip.modLevels
  dsimp only
  rw [h]

theorem Chip.eventCleared_loads (s : Chip) {k : Nat} (h : k < 16) : (s.eventCleared.lv k).loadAt = none ∧ (s.eventCleared.lv k).loadNext = none := by
  unfold Chip.eventCleared
  rw [Chip.lv_modLevels (by exact fun _ => rfl)]
  exact s.noteClear_loads h

theorem lvClearEvent_seen {s : Chip} (hr : s.runs 9 = true) (h : s.consumer 0x59 = true ∨ s.edgeAt 0x59 = true) :
    lvClearEvent true s = s.eventCleared := by
  refine (if_neg (by simp)).trans (if_neg ?_)
  rintro (hn | ⟨h1, h2⟩)
  · rw [hr] at hn; cases hn
  · rw [h1, h2] at h; simp at h

theorem lvClearEvent_ignored {s : Chip} (h : s.runs 9 = false ∨ (s.consumer 0x59 = false ∧ s.edgeAt 0x59 = false)) :
    lvClearEvent true s = s := (if_neg (by simp)).trans (if_pos h)

theorem lvClearEvent_end (s : Chip) : lvClearEvent false s = { s with levels := { s.levels with eventClear := false } } := if_pos rfl

/-- A clear of CLEAR_ALL, which lasts two frames from its acceptance. -/
def Chip.clearedAll (s : Chip) : Chip := s.noteClear.modLevels fun l => { l with clearFrames := 2 }

theorem Only.clearedAll (c : Chip) : Only [.levels] c c.clearedAll := (Only.noteClear c).comp (Only.modLevels _)

/-- CLEAR_ALL at an LV that runs is in force. -/
theorem Chip.clearing_clearedAll {c : Chip} (hr : c.runs 9 = true) : c.clearedAll.clearing = true := by
  unfold Chip.clearing
  rw [(Only.clearedAll c).runs, hr]
  exact Bool.or_true _

theorem clearAll_runs {c : Chip} (r : Req) (h : c.runs 9 = true) : clearAll r c = (c.clearedAll, ok) :=
  congrArg (·, ok) (if_pos h)

theorem clearAll_stopped {c : Chip} (r : Req) (h : c.runs 9 = false) : clearAll r c = (c, ok) :=
  congrArg (·, ok) (if_neg (by simp [h]))

/-! ## The frame (R393, R397, R399) -/

/-- A clear is in force at a boundary, where the frame of CLEAR_ALL ends if it was its last. -/
def Chip.clearsAtBoundary (s : Chip) : Bool :=
  (s.modLevels fun l => { l with clearFrames := if l.clearFrames = 1 then 0 else l.clearFrames }).clearing

/-- What a boundary makes of a channel: its clear code, its load, or itself. -/
def Chip.atBoundary (s : Chip) (k : Nat) : LvCh :=
  let c := if s.clearsAtBoundary then (s.lv k).takeClear.dropLoads else if s.levels.clearSeen then (s.lv k).takeClear else s.lv k
  if !s.clearsAtBoundary && c.loads s.levels.strobe s.clk.ticks then c.load s.clk.ticks else c

/-- A frame of an LV that makes frames. -/
theorem pwmFrame_runs {s : Chip} (h : s.levelsRun = true) :
    (pwmFrame s).levels.strobe = false ∧ (pwmFrame s).levels.clearSeen = false ∧ (pwmFrame s).levels.mvNow = s.levels.mv ∧
      (pwmFrame s).levels.clearFrames = s.levels.clearFrames - 1 ∧ (∀ k < 16, (pwmFrame s).lv k = (s.atBoundary k).frame s.levels.mv) ∧
      Only [.levels] s (pwmFrame s) := by
  unfold pwmFrame
  rw [if_neg (by simp [h])]
  refine ⟨rfl, rfl, rfl, rfl, fun k hk => ?_, Only.modLevels s⟩
  exact (SMap.get_foldl_set {} (fun k => (s.atBoundary k).frame s.levels.mv) 16 s.levels.chs k).trans (if_pos hk)

theorem pwmFrame_stopped {s : Chip} (h : s.levelsRun = false) : pwmFrame s = s := if_pos h

/-- A clear in force that does not end at the boundary is in force there. -/
theorem Chip.clearsAtBoundary_of_clearing {s : Chip} (h : s.clearing = true) (hn : s.levels.clearFrames ≠ 1) : s.clearsAtBoundary = true := by
  unfold Chip.clearsAtBoundary Chip.modLevels
  dsimp only
  rw [if_neg hn]
  exact h

/-- A channel in a clear outputs its clear code. -/
theorem Chip.atBoundary_clear {s : Chip} (h : s.clearsAtBoundary = true) (k : Nat) : s.atBoundary k = (s.lv k).takeClear.dropLoads := by
  unfold Chip.atBoundary
  rw [h]
  rfl

theorem LvCh.frame_clear (c : LvCh) (mv : Nat) : (c.takeClear.dropLoads.frame mv).code = c.clearCode ∧ (c.takeClear.dropLoads.frame mv).atClear = true :=
  ⟨BitVec.ofNat_toNat .., rfl⟩

/-- A boundary leaves the remainder of the dither as it is. -/
theorem Chip.atBoundary_r (s : Chip) (k : Nat) : (s.atBoundary k).r = (s.lv k).r := by
  unfold Chip.atBoundary
  dsimp only
  repeat' split
  all_goals rfl

/-- A frame is at most 1024 clocks high. -/
theorem LvCh.frame_h_le (c : LvCh) (mv : Nat) : (c.frame mv).h ≤ 1024 := by
  unfold LvCh.frame
  dsimp only
  split <;> omega

/-- The remainder of the dither stays below 64. -/
theorem LvCh.frame_r_lt {c : LvCh} (mv : Nat) (h : c.r < 64) : (c.frame mv).r < 64 := by
  unfold LvCh.frame
  dsimp only
  split <;> omega

/-! ## Shorts and calibration (R402 to R404) -/

/-- The session's channel with a code staged, which an immediate channel is owed at the first boundary 20 ns later. -/
def LvCh.stageCode (v : Nat) (owed : Bool) (t : Nat) (c : LvCh) : LvCh :=
  let c := { c with staged := c.staged.put .code v, stagedNew := true }
  if c.loadMode = 0 ∧ owed then c.owe t else c

theorem stageLevel_code (v : Nat) (r : Req) (c : Chip) :
    stageLevel .code v r c =
      (c.modLv (c.sel r.dest.session 0x3900 1) (LvCh.stageCode v (c.runs 9 && !c.clearing) (c.clk.ticks + 8)), ok) := by
  unfold stageLevel LvCh.stageCode
  simp

/-- Staging a code leaves the active set. -/
theorem LvCh.stageCode_sets (v : Nat) (owed : Bool) (t : Nat) (c : LvCh) :
    (c.stageCode v owed t).staged.code = BitVec.ofNat 16 v ∧ (c.stageCode v owed t).active = c.active := by
  unfold LvCh.stageCode LvCh.owe
  dsimp only
  repeat' split
  all_goals exact ⟨rfl, rfl⟩

/-- An immediate channel with no load owed is owed one. -/
theorem LvCh.stageCode_loadAt (v t : Nat) {c : LvCh} (hm : c.loadMode = 0) (hl : c.loadAt = none) : (c.stageCode v true t).loadAt = some t := by
  unfold LvCh.stageCode LvCh.owe
  rw [if_pos ⟨hm, rfl⟩, if_pos (by rw [hl]; rfl)]

/-- A channel whose pad is off for a short, with the record that names it. -/
def Chip.shorted (s : Chip) (k : Nat) : Chip := (s.modLv k fun c => { c with short := true, restore := false }).record 0x9001 9 (le 1 k)

theorem Only.shorted (s : Chip) (k : Nat) : Only [.levels, .recorder] s (s.shorted k) :=
  ((Only.modLv s).mono (by simp)).comp ((Only.record _).mono (by simp))

theorem Chip.lv_shorted (s : Chip) (k n : Nat) : (s.shorted k).lv n = if n = k then { s.lv k with short := true, restore := false } else s.lv n :=
  Chip.lv_modLv s k n _

theorem shortLatch_latches {k : Nat} {s : Chip} (hr : s.levelsRun = true) (h : (s.lv k).short = false) :
    shortLatch k s = Chip.follow s (s.shorted k) := if_neg (by simp [hr, h])

/-- Following a level at "LV clear" leaves every channel's output as it is. -/
theorem Chip.follow_output (a s : Chip) (k : Nat) : ((Chip.follow a s).lv k).short = (s.lv k).short ∧ ((Chip.follow a s).lv k).active = (s.lv k).active := by
  unfold Chip.follow
  split
  · exact Chip.noteClear_output s k
  · exact ⟨rfl, rfl⟩

theorem restoreChannel_intact {r : Req} {c : Chip} (h : (c.lv (c.sel r.dest.session 0x3900 1)).short = false) : restoreChannel r c = (c, bad 0x9002) :=
  if_neg (by simp [h])

theorem restoreChannel_shorted {r : Req} {c : Chip} (h : (c.lv (c.sel r.dest.session 0x3900 1)).short = true) :
    restoreChannel r c = (c.modLv (c.sel r.dest.session 0x3900 1) fun x => { x with restore := true }, ok) := if_pos h

/-- A pass stores the correction of each channel that it measured. -/
theorem calibrationPass_stores {l : List Int} {s : Chip} (h : s.levelsRun = true) :
    (∀ k < 16, ((calibrationPass l s).lv k).calNext = max (-64) (min 63 (l.getD k (s.lv k).calNext))) ∧
      Only [.levels, .background] s (calibrationPass l s) := by
  unfold calibrationPass
  rw [if_neg (by simp [h])]
  refine ⟨fun k hk => ?_, ((Only.foldl _ (fun s _ => Only.modLv s) _ s).mono (by simp)).comp ((Only.modBackground _).mono (by simp))⟩
  rw [Only.lv (Only.modBackground _), Chip.lv_eachLv (fun k c => { c with calNext := max (-64) (min 63 (l.getD k c.calNext)) }), if_pos hk]

/-! ## O43 -/

theorem exec_levelStagedCode {p : Path} {tag : Word16} {v : Word32} {s : State} {r : Req} {c : Chip}
    (h : gate p tag 0x3900 2 (le 2 v.toNat) (fun _ _ => if stagedOk .code (v.toNat % 65536) then 0 else 2) s.chip = .go r c) :
    exec (.levelStagedWrite p tag .code v) s = next s (Chip.finish r.dest (stageLevel .code (v.toNat % 65536) r c)) := congrArg (next s) (hostWrite_go h)

theorem exec_loadStrobeCommand {p : Path} {tag : Word16} {s : State} {r : Req} {c : Chip} (h : gate p tag 0x3900 0x10 [1] (fun _ _ => 0) s.chip = .go r c) :
    exec (.loadStrobeCommand p tag) s = next s (Chip.finish r.dest (strobeCommand r c)) := congrArg (next s) (hostWrite_go h)

theorem exec_clearAll {p : Path} {tag : Word16} {s : State} {r : Req} {c : Chip} (h : gate p tag 0x3900 0x11 [1] (fun _ _ => 0) s.chip = .go r c) :
    exec (.clearAll p tag) s = next s (Chip.finish r.dest (clearAll r c)) := congrArg (next s) (hostWrite_go h)

theorem exec_restoreChannel {p : Path} {tag : Word16} {s : State} {r : Req} {c : Chip} (h : gate p tag 0x3900 0x0E [1] (fun _ _ => 0) s.chip = .go r c) :
    exec (.restoreChannel p tag) s = next s (Chip.finish r.dest (restoreChannel r c)) := congrArg (next s) (hostWrite_go h)

theorem exec_lvlLoadNFall (ns : Nat) (s : State) : exec (.lvlLoadNFall ns) s = next s (lvlLoadFall ns s.chip) := rfl
theorem exec_lvLoadEvent (s : State) : exec .lvLoadEvent s = next s (if s.chip.edgeAt 0x58 then s.chip.loadStrobe else s.chip) := rfl
theorem exec_lvlClrNAssert (ns : Nat) (s : State) : exec (.lvlClrNAssert ns) s = next s (lvlClear ns s.chip) := rfl
theorem exec_lvClearEvent (b : Bool) (s : State) : exec (.lvClearEvent b) s = next s (lvClearEvent b s.chip) := rfl
theorem exec_pwmFrame (s : State) : exec .pwmFrame s = next s (pwmFrame s.chip) := rfl
theorem exec_levelCalibrationPass (l : List Int) (s : State) : exec (.levelCalibrationPass l) s = next s (calibrationPass l s.chip) := rfl

/-- Settles O43, command by command. -/
theorem levelRows : Obligations.LevelRows := by
  unfold Obligations.LevelRows
  refine ⟨fun p tag v s r c h => ?_, fun ns s => ⟨fun h => ?_, fun h hr hc => ?_, fun h hi => ?_⟩, fun s => ⟨fun he hr hc => ?_, fun h => ?_⟩,
    fun p tag s r c h => ⟨fun hc => ?_, fun hr hc => ?_⟩, fun ns s => ⟨fun h => ?_, fun hr h => ?_, fun hr h => ?_⟩, fun _ => rfl,
    fun s => ⟨fun hr h => ?_, fun h => ?_, ?_⟩, fun p tag s r c h => ⟨fun hr => ?_, fun hr => ?_⟩, fun s h => ?_, fun s h => ?_, fun k s hr h => ?_,
    fun p tag s r c h => ⟨fun hs => ?_, fun hs => ?_⟩, fun l s h => ?_, fun _ _ => rfl⟩
  · obtain ⟨hcode, hactive⟩ := LvCh.stageCode_sets (v.toNat % 65536) (c.runs 9 && !c.clearing) (c.clk.ticks + 8) (c.lv (c.sel r.dest.session 0x3900 1))
    refine ⟨_, by rw [exec_levelStagedCode h, stageLevel_code]; rfl, ?_, ?_, fun hm hr hc hl => ?_, fun n hn => ?_, Only.modLv c⟩
    · rw [Chip.lv_modLv, if_pos rfl]; exact hcode
    · rw [Chip.lv_modLv, if_pos rfl]; exact hactive
    · rw [Chip.lv_modLv, if_pos rfl, hr, hc]; exact LvCh.stageCode_loadAt _ _ hm hl
    · rw [Chip.lv_modLv, if_neg hn]
  · rw [exec_lvlLoadNFall, lvlLoadFall_short h]; rfl
  · rw [exec_lvlLoadNFall, lvlLoadFall_long h, Chip.loadStrobe_noted hr hc]
  · rw [exec_lvlLoadNFall, lvlLoadFall_long h, Chip.loadStrobe_ignored hi]; rfl
  · rw [exec_lvLoadEvent, if_pos he, Chip.loadStrobe_noted hr hc]
  · rw [exec_lvLoadEvent]
    split
    · next he => rw [Chip.loadStrobe_ignored (h.resolve_left (by simp [he]))]; rfl
    · rfl
  · rw [exec_loadStrobeCommand h, strobeCommand_clearing r hc]; rfl
  · rw [exec_loadStrobeCommand h, strobeCommand_noted r hr hc]; rfl
  · rw [exec_lvlClrNAssert, lvlClear_short h]; rfl
  · exact congrArg (next s) (lvlClear_stopped h hr)
  · exact ⟨_, congrArg (next s) (lvlClear_runs h hr), rfl, rfl, rfl, Chip.clearing_pinCleared hr, fun k hk => s.chip.pinCleared.noteClear_loads hk,
      Within.ofChip ((Only.modLevels s.chip).comp (Only.noteClear _))⟩
  · exact ⟨_, congrArg (next s) (lvClearEvent_seen hr h), rfl, rfl, rfl, fun k hk => s.chip.eventCleared_loads hk,
      Within.ofChip ((Only.noteClear s.chip).comp (Only.modLevels _))⟩
  · rw [exec_lvClearEvent, lvClearEvent_ignored h]; rfl
  · rw [exec_lvClearEvent, lvClearEvent_end]
  · exact ⟨c.clearedAll, (exec_clearAll h).trans (congrArg (fun x => next s (Chip.finish r.dest x)) (clearAll_runs r hr)), rfl, rfl, rfl,
      Chip.clearing_clearedAll hr, Only.clearedAll c⟩
  · rw [exec_clearAll h, clearAll_stopped r hr]; rfl
  · obtain ⟨hstrobe, hseen, hmv, hframes, hlv, honly⟩ := pwmFrame_runs h
    refine ⟨_, exec_pwmFrame s, hstrobe, hseen, hmv, hframes, fun hc hn k hk => ?_, fun k hk => ⟨?_, fun hr => ?_⟩, Within.ofChip honly⟩
    · rw [show _ = _ from hlv k hk, Chip.atBoundary_clear (Chip.clearsAtBoundary_of_clearing hc hn)]
      exact LvCh.frame_clear _ _
    · rw [show _ = _ from hlv k hk]
      exact LvCh.frame_h_le _ _
    · rw [show _ = _ from hlv k hk]
      exact LvCh.frame_r_lt _ ((Chip.atBoundary_r s.chip k).symm ▸ hr)
  · rw [exec_pwmFrame, pwmFrame_stopped h]; rfl
  · refine ⟨_, congrArg (next s) (shortLatch_latches hr h), ?_, fun n hn => ?_,
      Within.ofChip ((Only.shorted s.chip k.val).comp ((Only.follow _).mono (by simp)))⟩
    · rw [(Chip.follow_output _ _ _).1, Chip.lv_shorted, if_pos rfl]
    · obtain ⟨h1, h2⟩ := Chip.follow_output s.chip (s.chip.shorted k.val) n
      rw [h1, h2, Chip.lv_shorted, if_neg hn]
      exact ⟨rfl, rfl⟩
  · rw [exec_restoreChannel h, restoreChannel_intact hs]; rfl
  · refine ⟨_, (exec_restoreChannel h).trans (congrArg (fun x => next s (Chip.finish r.dest x)) (restoreChannel_shorted hs)), ?_, ?_, Only.modLv c⟩
    · rw [Chip.lv_modLv, if_pos rfl]
    · rw [Chip.lv_modLv, if_pos rfl]; exact hs
  · obtain ⟨hcal, honly⟩ := calibrationPass_stores (l := l) h
    refine ⟨_, exec_levelCalibrationPass l s, fun k hk hl => ?_, Within.ofChip honly⟩
    refine (hcal k hk).trans ?_
    rw [List.getD_eq_getElem _ _ hl, List.getD_eq_getElem _ _ hl]

end Sys2Proof.Machine
end

section
/-! SUPPORT. The event router: routes, lane taps, software events, counters and marks (chapter 16). -/

namespace Sys2Proof.Machine

/-! ## What follows a change of level (R411) -/

/-- Where no level changed, nothing follows. -/
theorem Chip.follow_self (s : Chip) : Chip.follow s s = s := if_neg (by simp)

theorem Chip.follow_router (a s : Chip) : (Chip.follow a s).router = s.router := (Only.follow s).get .router

/-- A route is unchanged where the router is. -/
theorem Only.route {a b : Chip} {ps : List Part} (h : Only ps a b) (hp : Part.router ∉ ps := by decide) (n : Nat) : b.route n = a.route n := by
  have hrouter : b.router = a.router := h .router hp
  unfold Chip.route
  rw [hrouter]

/-! ## Routes (R416) -/

theorem Only.setRoute {n : Nat} {b : Byte} (s : Chip) : Only [.router] s (s.setRoute n b) := by
  unfold Chip.setRoute
  exact Only.ite (Only.refl s _) (Only.modRouter s)

/-- A route that is set holds its byte, and the others hold theirs. -/
theorem Chip.route_setRoute (s : Chip) (n : Nat) (b : Byte) (k : Nat) : (s.setRoute n b).route k = if k = n then b else s.route k := by
  unfold Chip.setRoute
  split
  · next h =>
    split
    · next hk => rw [hk, h]
    · rfl
  · exact SMap.get_set s.router.routes 0 b n k

theorem Only.setRoutes (n : Nat) (l : Bytes) (s : Chip) : Only [.router] s (s.setRoutes n l) := by
  induction l generalizing n s with
  | nil => exact Only.refl s _
  | cons b l ih => exact (Only.setRoute s).comp (ih (n + 1) (s.setRoute n b))

/-- A list of routes stands from its first consumer on. -/
theorem Chip.route_setRoutes (n : Nat) (l : Bytes) (s : Chip) (k : Nat) :
    (s.setRoutes n l).route k = if n ≤ k ∧ k < n + l.length then l.getD (k - n) 0 else s.route k := by
  induction l generalizing n s with
  | nil => exact (if_neg (by simp)).symm
  | cons b l ih =>
    unfold Chip.setRoutes
    rw [ih, Chip.route_setRoute, List.length_cons]
    by_cases hk : k = n
    · subst hk
      rw [if_neg (by omega), if_pos rfl, if_pos (by omega), Nat.sub_self]
      rfl
    · rw [if_neg hk]
      by_cases hin : n + 1 ≤ k ∧ k < n + 1 + l.length
      · rw [if_pos hin, if_pos (by omega), show k - n = k - (n + 1) + 1 by omega]
        rfl
      · rw [if_neg hin, if_neg (by omega)]

section
variable {r : Req} {c : Chip}

theorem writeRoute_locked {b : Byte} (h : c.routeLocked (c.sel r.dest.session 0x2700 1) = true) (hb : c.route (c.sel r.dest.session 0x2700 1) ≠ b) :
    writeRoute b r c = (c, bad 3) := if_pos ⟨h, hb⟩

theorem writeRoute_sets {b : Byte} (h : c.routeLocked (c.sel r.dest.session 0x2700 1) = false) :
    writeRoute b r c = (Chip.follow c (c.setRoute (c.sel r.dest.session 0x2700 1) b), ok) := if_neg (by simp [h])

/-- A consumer that no sequencer locks is free. -/
theorem Chip.routeLocked_high {n : Nat} (h : 80 ≤ n) : c.routeLocked n = false := by
  unfold Chip.routeLocked lockingSeq
  rw [if_neg (by omega), if_neg (by omega)]

theorem writeRoutes_sets {b : Bytes} (h : ∀ n < 80, c.routeLocked n = false) (hb : b.length = 96) :
    writeRoutes b r c = (Chip.follow c (c.setRoutes 0 b), ok) := by
  have hfree : ∀ n, c.routeLocked n = false := fun n => (Nat.lt_or_ge n 80).elim (h n) Chip.routeLocked_high
  unfold writeRoutes
  rw [if_neg (by simp [hfree]), List.take_of_length_le (by omega)]

/-! ## Lane taps (R417) -/

/-- A lane tap that follows a lane. -/
def Chip.tapped (t : Nat) (b : Byte) (s : Chip) : Chip := Chip.follow s (s.modRouter fun x => { x with taps := x.taps.set t b })

theorem writeTap_sets {t : Nat} {b : Byte} (h : ∀ n < 80, c.routeLocked n = false) : writeTap t b r c = (c.tapped t b, ok) := by
  refine if_neg fun hused => ?_
  obtain ⟨n, hn, hlock⟩ := List.any_eq_true.mp hused.1
  rw [h n (List.mem_range.mp hn)] at hlock
  cases hlock

end

theorem Chip.tapped_taps {t : Nat} (b : Byte) {s : Chip} (h : t < s.router.taps.length) : (s.tapped t b).router.taps.getD t 0 = b := by
  unfold Chip.tapped
  rw [Chip.follow_router]
  exact (List.getD_eq_getElem _ _ (by simpa [Chip.modRouter] using h)).trans (List.getElem_set_self ..)

theorem Only.tapped {t b} (s : Chip) : Only [.router, .levels] s (s.tapped t b) :=
  ((Only.modRouter s).mono (by simp)).comp ((Only.follow _).mono (by simp))

/-! ## Levels at balls and lanes (R409, R334) -/

theorem tapChange_filtered {k : Fin 8} {w : Nat} {s : Chip} (v : Bool) (h : s.eviPasses k.val w = false) : tapChange (.evi k) v w s = s := by
  refine Eq.trans ?_ s.follow_self
  exact congrArg (Chip.follow s) (if_pos h)

/-- A ball that keeps its level for long enough stands at it. -/
def Chip.eviAt (k : Nat) (v : Bool) (s : Chip) : Chip :=
  s.modRouter fun r => { r with evi := if v then r.evi ||| BitVec.twoPow 8 k else r.evi &&& ~~~(BitVec.twoPow 8 k) }

theorem tapChange_evi {k : Fin 8} {w : Nat} {s : Chip} (v : Bool) (h : s.eviPasses k.val w = true) :
    tapChange (.evi k) v w s = Chip.follow s (s.eviAt k.val v) := congrArg (Chip.follow s) (if_neg (by simp [h]))

/-- A bit of a word put at a level. -/
theorem getLsbD_put {w : Nat} (x : BitVec w) (v : Bool) {k n : Nat} (hk : k < w) :
    (if v then x ||| BitVec.twoPow w k else x &&& ~~~(BitVec.twoPow w k)).getLsbD n = if n = k then v else x.getLsbD n := by
  by_cases h : n = k
  · subst h
    cases v <;> simp [hk]
  · have hkn : k ≠ n := fun hk => h hk.symm
    cases v <;> simp only [if_neg h, if_true, Bool.false_eq_true, if_false, BitVec.getLsbD_or, BitVec.getLsbD_and, BitVec.getLsbD_not,
      BitVec.getLsbD_twoPow, decide_eq_false hkn, Bool.and_false, Bool.or_false, Bool.not_false, Bool.and_true]
    by_cases hn : n < w
    · simp [hn]
    · simp [hn, BitVec.getLsbD_of_ge x n (by omega)]

theorem Chip.eviAt_levels (s : Chip) {k : Nat} (hk : k < 8) (v : Bool) (n : Nat) :
    (s.eviAt k v).router.evi.getLsbD n = if n = k then v else s.router.evi.getLsbD n := getLsbD_put s.router.evi v hk

/-- A lane's input after a change at its tap. -/
def Lane.tapInput (passes v : Bool) (l : Lane) : Lane := if l.sealedIn ∨ passes = false then l else { l with input := v }

theorem tapChange_lane (k : Fin 2) (v : Bool) (w : Nat) (s : Chip) :
    tapChange (.laneTap k) v w s = Chip.follow s (s.modLane (s.router.taps.getD k.val 0).toNat
      (Lane.tapInput (s.passes (s.router.taps.getD k.val 0).toNat w) v)) := rfl

theorem Only.tapLane {a : Chip} {n f} (s : Chip) : Only [.lanes, .levels] s (Chip.follow a (s.modLane n f)) :=
  ((Only.modLane s).mono (by simp)).comp ((Only.follow _).mono (by simp))

/-! ## Software events (R418) -/

theorem Only.setEvent {e v} (s : Chip) : Only [.router, .levels] s (s.setEvent e v) :=
  ((Only.modRouter s).mono (by simp)).comp ((Only.follow _).mono (by simp))

/-- A software event stands at its level, with no pulse under way. -/
theorem Chip.setEvent_router (s : Chip) {e : Nat} (he : e < 2) (v : Bool) :
    (s.setEvent e v).router.software.getLsbD e = v ∧ (s.setEvent e v).router.pulses.find? e = none := by
  unfold Chip.setEvent
  rw [Chip.follow_router]
  exact ⟨(getLsbD_put s.router.software v he).trans (if_pos rfl), (SMap.find_erase ..).trans (if_pos rfl)⟩

/-- A pulse of 100 ns begins. -/
def Chip.pulsed (e : Nat) (s : Chip) : Chip := (s.setEvent e true).modRouter fun r => { r with pulses := r.pulses.put e (s.clk.ticks + 40) }

theorem Chip.pulseEvent_low {e : Nat} {s : Chip} (h : s.router.software.getLsbD e = false) : s.pulseEvent e = s.pulsed e := if_neg (by simp [h])

theorem Chip.pulseEvent_high {e : Nat} {s : Chip} (h : s.router.software.getLsbD e = true) : s.pulseEvent e = s := if_pos h

theorem Chip.pulsed_router (s : Chip) {e : Nat} (he : e < 2) :
    (s.pulsed e).router.software.getLsbD e = true ∧ (s.pulsed e).router.pulses.find? e = some (s.clk.ticks + 40) :=
  ⟨(s.setEvent_router he true).1, (SMap.find_put ..).trans (if_pos rfl)⟩

/-! ## Counters and marks (R418) -/

/-- A counter of edges, which stays at its greatest value. -/
def Chip.edgeCounted (k : Nat) (s : Chip) : Chip := s.modRouter fun r => { r with counters := r.counters.upd 0 k (satAdd 32 · 1) }

/-- A mark's record, with what was suppressed since the last. -/
def Chip.marked (s : Chip) : Chip :=
  (s.record 0x1012 1 (le 4 s.router.suppressed)).modRouter fun r => { r with suppressed := 0, lastMark := some s.clk.ticks }

theorem markEdge_none {s : Chip} (h : s.runs 1 = false ∨ s.edgeAt 0x5F = false) : markEdge s = s := if_pos h

theorem markEdge_first {s : Chip} (hr : s.runs 1 = true) (he : s.edgeAt 0x5F = true) (hm : s.router.lastMark = none) : markEdge s = s.marked := by
  unfold markEdge
  rw [hm]
  exact (if_neg (by simp [hr, he])).trans (if_neg (by simp))

theorem markEdge_soon {s : Chip} {m : Nat} (hr : s.runs 1 = true) (he : s.edgeAt 0x5F = true) (hm : s.router.lastMark = some m) (hp : s.passedMs m 1 = false) :
    markEdge s = s.modRouter fun r => { r with suppressed := satAdd 32 r.suppressed 1 } := by
  unfold markEdge
  rw [hm]
  exact (if_neg (by simp [hr, he])).trans (if_pos (by simp [hp]))

/-! ## O44 -/

section
variable {p : Path} {tag : Word16} {s : State} {r : Req} {c : Chip}

theorem exec_routeWrite {b : Byte} (h : gate p tag 0x2700 2 [b] (fun _ _ => 0) s.chip = .go r c) :
    exec (.routeWrite p tag b) s = next s (Chip.finish r.dest (writeRoute b r c)) := congrArg (next s) (hostWrite_go h)

theorem exec_routeTableWrite {b : Bytes} (h : gate p tag 0x2700 3 b (fun _ _ => 0) s.chip = .go r c) :
    exec (.routeTableWrite p tag b) s = next s (Chip.finish r.dest (writeRoutes b r c)) := congrArg (next s) (hostWrite_go h)

theorem exec_laneTapWrite {t : Fin 2} {b : Byte} (h : gate p tag 0x2700 (8 + t.val) [b] (fun _ _ => if b.toNat < 64 then 0 else 2) s.chip = .go r c) :
    exec (.laneTapWrite p tag t b) s = next s (Chip.finish r.dest (writeTap t.val b r c)) := congrArg (next s) (hostWrite_go h)

theorem exec_softwareEventLow {e : Fin 2} (h : gate p tag 0x2700 (6 + e.val) [0] (fun _ _ => 0) s.chip = .go r c) :
    exec (.softwareEventLow p tag e) s = next s ((c.setEvent e.val false).complete r.dest 0 [] 0) := congrArg (next s) (hostWrite_go h)

theorem exec_softwareEventHigh {e : Fin 2} (h : gate p tag 0x2700 (6 + e.val) [1] (fun _ _ => 0) s.chip = .go r c) :
    exec (.softwareEventHigh p tag e) s = next s ((c.setEvent e.val true).complete r.dest 0 [] 0) := congrArg (next s) (hostWrite_go h)

theorem exec_softwareEventPulse {e : Fin 2} (h : gate p tag 0x2700 (6 + e.val) [2] (fun _ _ => 0) s.chip = .go r c) :
    exec (.softwareEventPulse p tag e) s = next s ((c.pulseEvent e.val).complete r.dest 0 [] 0) := congrArg (next s) (hostWrite_go h)

theorem exec_counterClear {k : Fin 4} (h : gate p tag 0x2700 (0x0A + k.val) (le 4 0) (fun _ _ => 0) s.chip = .go r c) :
    exec (.counterClear p tag k) s = next s (Chip.complete r.dest 0 [] 0 (c.modRouter fun x => { x with counters := x.counters.set 0 k.val 0 })) :=
  congrArg (next s) (hostWrite_go h)

end

theorem exec_eviOrLaneTapChange (x : EventSource) (v : Bool) (w : Nat) (s : State) :
    exec (.eviOrLaneTapChange x ⟨v, w⟩) s = next s (tapChange x v w s.chip) := rfl

theorem exec_markEdge (s : State) : exec .markEdge s = next s (markEdge s.chip) := rfl

theorem exec_softwarePulseEnd {e : Fin 2} {s : State} (h : (s.chip.router.pulses.find? e.val).isSome = true) :
    exec (.softwarePulseEnd e) s = next s (s.chip.setEvent e.val false) := congrArg (next s) (if_pos h)

theorem exec_counterEdge {k : Fin 4} {s : State} (hr : s.chip.runs 1 = true) (he : s.chip.edgeAt (0x5B + k.val) = true) :
    exec (.counterEdge k) s = next s (s.chip.edgeCounted k.val) := congrArg (next s) (if_pos ⟨hr, he⟩)

theorem exec_counterEdge_none {k : Fin 4} {s : State} (h : s.chip.runs 1 = false ∨ s.chip.edgeAt (0x5B + k.val) = false) :
    exec (.counterEdge k) s = .next s := congrArg (next s) (if_neg (by rintro ⟨h1, h2⟩; simp [h1, h2] at h))

/-- Settles O44, command by command. -/
theorem routerRows : Obligations.RouterRows := by
  unfold Obligations.RouterRows
  refine ⟨fun p tag b s r c h => ⟨fun hl hb => ?_, fun hl => ?_⟩, fun p tag b s r c h hb hl => ?_, fun p tag t b s r c h hl hn => ?_,
    fun k v w s h => ?_, fun k v w s h => ?_, fun k v w s h => ?_, fun k v w s hs h => ?_, fun p tag e s r c => ⟨fun h => ?_, fun h => ?_, fun h hs => ?_, fun h hs => ?_⟩,
    fun e s h => ?_, fun k s => ⟨fun hr he => ?_, fun h => exec_counterEdge_none h⟩, fun p tag k s r c h => ?_, fun s h => ?_,
    fun s hr he => ⟨fun hm => ?_, fun m hm hp => ?_⟩⟩
  · exact (exec_routeWrite h).trans (congrArg (fun x => next s (Chip.finish r.dest x)) (writeRoute_locked hl hb))
  · refine ⟨_, (exec_routeWrite h).trans (congrArg (fun x => next s (Chip.finish r.dest x)) (writeRoute_sets hl)), ?_, fun n hn => ?_,
      ((Only.setRoute c).mono (by simp)).comp ((Only.follow _).mono (by simp))⟩
    · rw [(Only.follow _).route, Chip.route_setRoute, if_pos rfl]
    · rw [(Only.follow _).route, Chip.route_setRoute, if_neg hn]
  · refine ⟨_, (exec_routeTableWrite h).trans (congrArg (fun x => next s (Chip.finish r.dest x)) (writeRoutes_sets hl hb)), fun n hn => ?_,
      ((Only.setRoutes 0 b c).mono (by simp)).comp ((Only.follow _).mono (by simp))⟩
    rw [(Only.follow _).route, Chip.route_setRoutes, if_pos (by omega)]
    rfl
  · exact ⟨_, (exec_laneTapWrite h).trans (congrArg (fun x => next s (Chip.finish r.dest x)) (writeTap_sets hl)), Chip.tapped_taps b (by omega), Only.tapped c⟩
  · exact (exec_eviOrLaneTapChange _ v w s).trans (congrArg (next s) (tapChange_filtered v h))
  · refine ⟨_, (exec_eviOrLaneTapChange _ v w s).trans (congrArg (next s) (tapChange_evi v h)), ?_, fun n _ hn => ?_,
      Within.ofChip (((Only.modRouter s.chip).mono (by simp)).comp ((Only.follow _).mono (by simp)))⟩
    · rw [Chip.follow_router, Chip.eviAt_levels _ k.isLt, if_pos rfl]
    · rw [Chip.follow_router, Chip.eviAt_levels _ k.isLt, if_neg hn]
  · refine ⟨_, (exec_eviOrLaneTapChange _ v w s).trans (congrArg (next s) (tapChange_lane k v w s.chip)), fun n => ?_, Within.ofChip (Only.tapLane s.chip)⟩
    rw [(Only.follow _).lane, Chip.lane_modLane]
    split
    · next hn => rw [hn]; exact congrArg Lane.input (if_pos (.inr h))
    · rfl
  · refine ⟨_, (exec_eviOrLaneTapChange _ v w s).trans (congrArg (next s) (tapChange_lane k v w s.chip)), ?_, Within.ofChip (Only.tapLane s.chip)⟩
    rw [(Only.follow _).lane, Chip.lane_modLane, if_pos rfl]
    exact congrArg Lane.input (if_neg (by rw [hs, h]; decide))
  · exact ⟨_, exec_softwareEventLow h, (c.setEvent_router e.isLt false).1, (c.setEvent_router e.isLt false).2, Only.setEvent c⟩
  · exact ⟨_, exec_softwareEventHigh h, (c.setEvent_router e.isLt true).1, (c.setEvent_router e.isLt true).2, Only.setEvent c⟩
  · exact ⟨_, (exec_softwareEventPulse h).trans (congrArg (fun x => next s (Chip.complete r.dest 0 [] 0 x)) (Chip.pulseEvent_low hs)),
      (c.pulsed_router e.isLt).1, (c.pulsed_router e.isLt).2, (Only.setEvent c).comp ((Only.modRouter _).mono (by simp))⟩
  · exact (exec_softwareEventPulse h).trans (congrArg (fun x => next s (Chip.complete r.dest 0 [] 0 x)) (Chip.pulseEvent_high hs))
  · exact ⟨_, exec_softwarePulseEnd h, (s.chip.setEvent_router e.isLt false).1, (s.chip.setEvent_router e.isLt false).2, Within.ofChip (Only.setEvent s.chip)⟩
  · exact ⟨_, exec_counterEdge hr he, (SMap.get_upd s.chip.router.counters 0 k.val k.val (satAdd 32 · 1)).trans (if_pos rfl), Within.ofChip (Only.modRouter s.chip)⟩
  · exact ⟨_, exec_counterClear h, (SMap.get_set c.router.counters 0 0 k.val k.val).trans (if_pos rfl), fun n hn => (SMap.get_set c.router.counters 0 0 k.val n).trans (if_neg hn), Only.modRouter c⟩
  · exact (exec_markEdge s).trans (congrArg (next s) (markEdge_none h))
  · exact ⟨_, (exec_markEdge s).trans (congrArg (next s) (markEdge_first hr he hm)), rfl, rfl,
      Within.ofChip (((Only.record s.chip).mono (by simp)).comp ((Only.modRouter _).mono (by simp)))⟩
  · exact ⟨_, (exec_markEdge s).trans (congrArg (next s) (markEdge_soon hr he hm hp)), rfl, Within.ofChip (Only.modRouter s.chip)⟩

end Sys2Proof.Machine
end

section
/-! SUPPORT. The Nestan link: what the transmitter does with a frame, and which frames a device hears (R423, R425, R426). -/

namespace Sys2Proof.Machine

/-! ## The transmitter (R425) -/

/-- A line is driven as before where what drives it is unchanged. -/
theorem Only.transmits {a b : Chip} {ps : List Part} (h : Only ps a b) (hi : Part.islands ∉ ps := by decide) (hr : Part.reseat ∉ ps := by decide)
    (hc : Part.clk ∉ ps := by decide) (hp : Part.plls ∉ ps := by decide) (hl : Part.life ∉ ps := by decide) : b.transmits = a.transmits := by
  have hclk : b.clk = a.clk := h .clk hc
  have hlife : b.life = a.life := h .life hl
  unfold Chip.transmits
  rw [h.runs hi hr hc hp, hclk, hlife]

/-- The transmitter is idle as before where its frames and the time are unchanged. -/
theorem Chip.txIdle_congr {a b : Chip} (htx : b.cluster.tx = a.cluster.tx) (hu : b.cluster.txUntil = a.cluster.txUntil) (hc : b.clk = a.clk) :
    b.txIdle = a.txIdle := by
  unfold Chip.txIdle Chip.txNext
  rw [htx, hu, hc]

theorem Chip.handFrame_dark {t : TxFrame} {s : Chip} (h : s.transmits = false) : s.handFrame t = s := if_pos h

theorem Chip.handFrame_idle {t : TxFrame} {s : Chip} (h : s.transmits = true) (hi : s.txIdle = true) (hd : t.due ≤ s.clk.ticks) :
    s.handFrame t = s.startTx t := (if_neg (by simp [h])).trans (if_pos ⟨hi, hd⟩)

theorem Chip.handFrame_waits {t : TxFrame} {s : Chip} (h : s.transmits = true) (hi : ¬ (s.txIdle = true ∧ t.due ≤ s.clk.ticks)) :
    s.handFrame t = s.modCluster fun c => { c with tx := c.tx ++ [t] } := (if_neg (by simp [h])).trans (if_neg hi)

/-- A frame for the transmitter changes what the transmitter keeps, and nothing else of the link. -/
theorem Chip.cluster_handFrame (t : TxFrame) (s : Chip) :
    (s.handFrame t).cluster = { s.cluster with
      sent := (s.handFrame t).cluster.sent, tx := (s.handFrame t).cluster.tx, txUntil := (s.handFrame t).cluster.txUntil } := by
  unfold Chip.handFrame
  split
  · rfl
  · split <;> rfl

/-- Frames of the device's own but SYNC and CAL leave as they are. -/
theorem Frame.stamped_other {f : Frame} (h2 : f.type ≠ 2) (h3 : f.type ≠ 3) (action : Nat) : f.stamped action = f := if_neg (by simp [h2, h3])

/-- A frame that is given to the transmitter has come to it. -/
theorem handed_handFrame {f : Frame} {w : Bool} {s : Chip} (h : w = true ∨ f.stamped s.clk.action = f) :
    Handed f w s (s.handFrame { frame := f, forwarded := w }) := by
  refine ⟨fun ht => ?_, fun ht hi => ?_, fun ht hi => ?_⟩
  · rw [Chip.handFrame_dark ht]
    exact ⟨rfl, rfl⟩
  · rw [Chip.handFrame_idle ht hi (Nat.zero_le _)]
    have hsent : (if w = true then f else f.stamped s.clk.action) = f := by
      rcases h with rfl | h
      · exact if_pos rfl
      · rw [h, ite_self]
    exact ⟨congrArg (fun g : Frame => Output.nestan g.bytes :: s.out) hsent, rfl⟩
  · rw [Chip.handFrame_waits ht (by simp [hi])]
    exact ⟨rfl, rfl⟩

theorem handed_forwardFrame (f : Frame) (s : Chip) : Handed f true s (s.forwardFrame f) := handed_handFrame (.inl rfl)

theorem handed_sendFrame {f : Frame} (h2 : f.type ≠ 2) (h3 : f.type ≠ 3) (s : Chip) : Handed f false s (s.sendFrame f) :=
  handed_handFrame (.inr (Frame.stamped_other h2 h3 _))

theorem handed_sendTo {type : Nat} (h2 : type ≠ 2) (h3 : type ≠ 3) (dst seq : Nat) (payload : Bytes) (s : Chip) :
    Handed { type := type, cluster := s.cluster.clusterId.toNat, src := s.cluster.position, dst := dst, seq := seq, payload := payload } false s
      (s.sendTo type dst seq payload) := handed_sendFrame h2 h3 s

/-- What a device changed before it gave the frame, outside the transmitter. -/
theorem Handed.before {f : Frame} {w : Bool} {a a' b : Chip} {ps : List Part} (h : Handed f w a b) (ho : Only ps a' a)
    (htx : a.cluster.tx = a'.cluster.tx) (hu : a.cluster.txUntil = a'.cluster.txUntil) (hout : Part.out ∉ ps := by decide) (hi : Part.islands ∉ ps := by decide)
    (hr : Part.reseat ∉ ps := by decide) (hc : Part.clk ∉ ps := by decide) (hp : Part.plls ∉ ps := by decide) (hl : Part.life ∉ ps := by decide) :
    Handed f w a' b := by
  have hout : a.out = a'.out := ho .out hout
  have hidle : a.txIdle = a'.txIdle := Chip.txIdle_congr htx hu (ho .clk hc)
  unfold Handed at h ⊢
  rw [ho.transmits hi hr hc hp hl, hidle, hout, htx] at h
  exact h

/-- What a device changes after it gave the frame, outside the transmitter. -/
theorem Handed.after {f : Frame} {w : Bool} {a b b' : Chip} (h : Handed f w a b) (hout : b'.out = b.out) (htx : b'.cluster.tx = b.cluster.tx) :
    Handed f w a b' := by
  unfold Handed at h ⊢
  rw [hout, htx]
  exact h

/-- A frame takes its time on the line. -/
theorem Frame.ticks_pos (f : Frame) : 0 < f.ticks := by
  unfold Frame.ticks ceilDiv
  exact Nat.div_pos (by omega) (by decide)

/-- A transmitter with a frame in progress is not idle. -/
theorem Chip.txIdle_startTx (t : TxFrame) (s : Chip) : (s.startTx t).txIdle = false := by
  refine Bool.and_eq_false_iff.mpr (.inl (decide_eq_false ?_))
  have hpos := (if t.forwarded then t.frame else t.frame.stamped s.clk.action).ticks_pos
  show ¬ s.clk.ticks + (if t.forwarded then t.frame else t.frame.stamped s.clk.action).ticks ≤ s.clk.ticks
  omega

/-- A transmitter with a frame that may go is not idle. -/
theorem Chip.txIdle_waiting {s : Chip} {t : TxFrame} (hm : t ∈ s.cluster.tx) (hd : t.due ≤ s.clk.ticks) : s.txIdle = false := by
  refine Bool.and_eq_false_iff.mpr (.inr (Option.isNone_eq_false_iff.mpr ?_))
  have hmay : t ∈ s.cluster.tx.filter fun t => decide (t.due ≤ s.clk.ticks) := List.mem_filter.mpr ⟨hm, decide_eq_true hd⟩
  unfold Chip.txNext
  generalize s.cluster.tx.filter (fun t => decide (t.due ≤ s.clk.ticks)) = may at hmay ⊢
  cases may with
  | nil => cases hmay
  | cons x may => simp

/-! ## Which frames a device hears (R423, R425) -/

theorem Chip.hear_deaf {type : Nat} {b : Bytes} {s : Chip} (h : s.cluster.linkUp = false ∨ s.runs 10 = false) : s.hear type b = (s, none) := if_pos h

section
variable {type : Nat} {b : Bytes} {s : Chip} (hl : s.cluster.linkUp = true) (hr : s.runs 10 = true)
include hl hr

theorem Chip.hear_bad (h : parseFrame b = none) :
    s.hear type b = ({ s with cluster := { s.cluster with discarded := satAdd 32 s.cluster.discarded 1 } }, none) := by
  unfold Chip.hear
  rw [if_neg (by simp [hl, hr]), h]
  rfl

theorem Chip.hear_other {f : Frame} (h : parseFrame b = some f) (ht : f.type ≠ type) : s.hear type b = (s, none) := by
  unfold Chip.hear
  rw [if_neg (by simp [hl, hr]), h]
  exact if_pos ht

end

theorem Chip.hear_heard {type : Nat} {b : Bytes} {s : Chip} {f : Frame} (h : Hears type b s f) : s.hear type b = (s.countedFrame, some f) := by
  obtain ⟨hl, hr, hp, ht⟩ := h
  unfold Chip.hear
  rw [if_neg (by simp [hl, hr]), hp]
  exact if_neg (not_not.mpr ht)

theorem Chip.heed_countedFrame (s : Chip) (f : Frame) : s.countedFrame.heed f = s.heed f := rfl

/-- A frame that the device does not hear leaves what the hearing left. -/
theorem Chip.onFrame_unheard {type : Nat} {b : Bytes} {s c : Chip} (consume : Frame → Chip → Chip) (h : s.hear type b = (c, none)) :
    s.onFrame type b consume = c := by
  unfold Chip.onFrame
  rw [h]

section
variable {type : Nat} {b : Bytes} {s : Chip} {f : Frame} (consume : Frame → Chip → Chip)

theorem Chip.onFrame_own (h : Hears type b s f) (ho : s.heed f = .own) : s.onFrame type b consume = s.countedFrame := by
  unfold Chip.onFrame
  rw [Chip.hear_heard h]
  dsimp only
  rw [Chip.heed_countedFrame, ho]

theorem Chip.onFrame_pass (h : Hears type b s f) (ho : s.heed f = .pass) : s.onFrame type b consume = s.countedFrame.forwardFrame f := by
  unfold Chip.onFrame
  rw [Chip.hear_heard h]
  dsimp only
  rw [Chip.heed_countedFrame, ho]

/-- A frame that the device consumes is consumed, after it was forwarded where every device is to have it. -/
theorem Chip.onFrame_takes (h : Takes type b s f) : s.onFrame type b consume = consume f (s.taken f) := by
  obtain ⟨hh, hm⟩ := h
  unfold Chip.onFrame Chip.taken
  rw [Chip.hear_heard hh]
  dsimp only
  rw [Chip.heed_countedFrame]
  rcases hm with hm | hm <;> rw [hm]
  · rfl
  · rfl

end

theorem Only.countedFrame (s : Chip) : Only [.cluster] s s.countedFrame := Only.modCluster s

theorem Only.forwardFrame {f} (s : Chip) : Only [.cluster, .out] s (s.forwardFrame f) := Only.handFrame s

theorem Only.sendFrame {f} (s : Chip) : Only [.cluster, .out] s (s.sendFrame f) := Only.handFrame s

theorem Only.taken {f} (s : Chip) : Only [.cluster, .out] s (s.taken f) := by
  unfold Chip.taken
  exact Only.ite (((Only.countedFrame s).mono (by simp)).comp (Only.forwardFrame _)) ((Only.countedFrame s).mono (by simp))

/-- What a consumed frame has changed of the link: its count, and what the transmitter keeps. -/
theorem Chip.cluster_taken (s : Chip) (f : Frame) :
    (s.taken f).cluster = { s.cluster with
      received := satAdd 32 s.cluster.received 1, sent := (s.taken f).cluster.sent
      tx := (s.taken f).cluster.tx, txUntil := (s.taken f).cluster.txUntil } := by
  unfold Chip.taken
  split
  · exact Chip.cluster_handFrame _ s.countedFrame
  · rfl

/-! ## Flows (R426) -/

theorem Chip.flow_modFlow (s : Chip) (p k : Nat) (g : Flow → Flow) : (s.modFlow p g).flow k = if k = p then g (s.flow p) else s.flow k :=
  SMap.get_upd s.cluster.flows {} p k g

theorem Chip.flow_handFrame (s : Chip) (t : TxFrame) (p : Nat) : (s.handFrame t).flow p = s.flow p :=
  (congrArg (fun c : Cluster => c.flows.get {} p) (Chip.cluster_handFrame t s)).trans rfl

theorem Chip.inbox_handFrame (s : Chip) (t : TxFrame) : (s.handFrame t).cluster.inbox = s.cluster.inbox :=
  (congrArg Cluster.inbox (Chip.cluster_handFrame t s)).trans rfl

/-- What sending from a flow makes of it: queued contents become frames that wait, in order, at most four. -/
structure Pumped (p : Nat) (a b : Chip) : Prop where
  sent : ∃ fresh : List (Nat × Bytes), (b.flow p).waiting = (a.flow p).waiting ++ fresh ∧ fresh.map (·.2) ++ (b.flow p).queued = (a.flow p).queued ∧
    (fresh ≠ [] → (b.flow p).waiting.length ≤ 4)
  expect : (b.flow p).expect = (a.flow p).expect
  inbox : b.cluster.inbox = a.cluster.inbox

theorem Pumped.refl (p : Nat) (a : Chip) : Pumped p a a := ⟨⟨[], (List.append_nil _).symm, rfl, fun h => absurd rfl h⟩, rfl, rfl⟩

/-- A flow's next content as the frame that carries it. -/
def Flow.sendNext (now : Nat) (d : Bytes) (ds : List Bytes) (x : Flow) : Flow :=
  { x with nextSeq := (x.nextSeq + 1) % 65536, waiting := x.waiting ++ [(x.nextSeq, d)], queued := ds, sentAt := now }

/-- One content that goes out of a flow with a place. -/
def Chip.sendNext (s : Chip) (p : Nat) (d : Bytes) (ds : List Bytes) : Chip :=
  (s.modFlow p (Flow.sendNext s.clk.ticks d ds)).sendTo 0x0A p (s.flow p).nextSeq d

theorem Chip.flow_sendNext (s : Chip) (p : Nat) (d : Bytes) (ds : List Bytes) : (s.sendNext p d ds).flow p = (s.flow p).sendNext s.clk.ticks d ds := by
  unfold Chip.sendNext Chip.sendTo Chip.sendFrame
  rw [Chip.flow_handFrame, Chip.flow_modFlow, if_pos rfl]

theorem Chip.inbox_sendNext (s : Chip) (p : Nat) (d : Bytes) (ds : List Bytes) : (s.sendNext p d ds).cluster.inbox = s.cluster.inbox :=
  Chip.inbox_handFrame _ _

theorem Chip.pumpFlow_empty {s : Chip} {p : Nat} (n : Nat) (h : (s.flow p).queued = []) : s.pumpFlow p (n + 1) = s := by
  unfold Chip.pumpFlow
  dsimp only
  rw [h]

theorem Chip.pumpFlow_full {s : Chip} {p : Nat} {d : Bytes} {ds : List Bytes} (n : Nat) (h : (s.flow p).queued = d :: ds)
    (hw : 4 ≤ (s.flow p).waiting.length ∨ s.cluster.state = .holdOver ∨ s.cluster.size = 0) : s.pumpFlow p (n + 1) = s := by
  unfold Chip.pumpFlow
  dsimp only
  rw [h]
  exact if_pos hw

theorem Chip.pumpFlow_sends {s : Chip} {p : Nat} {d : Bytes} {ds : List Bytes} (n : Nat) (h : (s.flow p).queued = d :: ds)
    (hw : ¬ (4 ≤ (s.flow p).waiting.length ∨ s.cluster.state = .holdOver ∨ s.cluster.size = 0)) : s.pumpFlow p (n + 1) = (s.sendNext p d ds).pumpFlow p n := by
  conv_lhs => unfold Chip.pumpFlow
  dsimp only
  rw [h]
  exact if_neg hw

/-- Sending from a flow, as long as it may. -/
theorem Chip.pumpFlow_pumped (p n : Nat) (s : Chip) : Pumped p s (s.pumpFlow p n) := by
  induction n generalizing s with
  | zero => exact Pumped.refl p s
  | succ n ih =>
    cases hq : (s.flow p).queued with
    | nil => rw [Chip.pumpFlow_empty n hq]; exact Pumped.refl p s
    | cons d ds =>
      by_cases hw : 4 ≤ (s.flow p).waiting.length ∨ s.cluster.state = .holdOver ∨ s.cluster.size = 0
      · rw [Chip.pumpFlow_full n hq hw]; exact Pumped.refl p s
      · rw [Chip.pumpFlow_sends n hq hw]
        obtain ⟨⟨fresh, hwait, hqueued, hfour⟩, hexpect, hinbox⟩ := ih (s.sendNext p d ds)
        rw [Chip.flow_sendNext] at hwait hqueued hexpect
        have hwait : (((s.sendNext p d ds).pumpFlow p n).flow p).waiting = (s.flow p).waiting ++ (((s.flow p).nextSeq, d) :: fresh) :=
          hwait.trans (List.append_assoc ..)
        refine ⟨⟨((s.flow p).nextSeq, d) :: fresh, hwait, ?_, fun _ => ?_⟩, hexpect, hinbox.trans (Chip.inbox_sendNext ..)⟩
        · rw [hq, List.map_cons, List.cons_append, hqueued]
          rfl
        · cases fresh with
          | nil =>
            rw [hwait, List.length_append, List.length_singleton]
            omega
          | cons x fresh => exact hfour (List.cons_ne_nil _ _)

/-! ## DATA and ACK -/

section
variable {f : Frame} {c : Chip}

/-- A flow that expects the next number. -/
def Flow.expectNext (x : Flow) : Flow := { x with expect := (x.expect + 1) % 65536 }

/-- A content enters CH_17, and its flow expects the next number. -/
def Chip.received (c : Chip) (f : Frame) : Chip :=
  (c.modFlow f.src Flow.expectNext).modCluster fun d => { d with inbox := d.inbox ++ [f.payload] }

theorem Only.received (c : Chip) (f : Frame) : Only [.cluster] c (c.received f) := (Only.modCluster c).comp (Only.modCluster _)

theorem Chip.flow_received (c : Chip) (f : Frame) (p : Nat) :
    (c.received f).flow p = if p = f.src then (c.flow f.src).expectNext else c.flow p :=
  Chip.flow_modFlow c f.src p Flow.expectNext

/-- The acknowledgement of a content that entered CH_17. -/
theorem Chip.handed_received (c : Chip) (f : Frame) :
    Handed { type := 9, cluster := c.cluster.clusterId.toNat, src := c.cluster.position, dst := f.src, seq := 0, payload := be 2 f.seq } false c
      ((c.received f).sendTo 9 f.src 0 (be 2 f.seq)) :=
  (handed_sendTo (by decide) (by decide) f.src 0 (be 2 f.seq) (c.received f)).before (Only.received c f) rfl rfl

theorem Chip.takeData_expected (hd : f.dst = c.cluster.position) (h : f.seq = (c.flow f.src).expect) (hi : c.cluster.inbox.length < 32) :
    c.takeData f = (c.received f).sendTo 9 f.src 0 (be 2 f.seq) := by
  unfold Chip.takeData
  dsimp only
  rw [if_neg (not_not.mpr hd), if_pos h, if_neg (Nat.not_le.mpr hi)]
  rfl

theorem Chip.takeData_full (hd : f.dst = c.cluster.position) (h : f.seq = (c.flow f.src).expect) (hi : 32 ≤ c.cluster.inbox.length) : c.takeData f = c :=
  (if_neg (not_not.mpr hd)).trans ((if_pos h).trans (if_pos hi))

theorem Chip.takeData_again (hd : f.dst = c.cluster.position) (h : f.seq ≠ (c.flow f.src).expect) (hs : ((c.flow f.src).expect + 65536 - f.seq) % 65536 ≤ 4) :
    c.takeData f = c.sendTo 9 f.src 0 (be 2 f.seq) := (if_neg (not_not.mpr hd)).trans ((if_neg h).trans (if_pos hs))

theorem Chip.takeData_other (hd : f.dst = c.cluster.position) (h : f.seq ≠ (c.flow f.src).expect) (hs : 4 < ((c.flow f.src).expect + 65536 - f.seq) % 65536) :
    c.takeData f = c := (if_neg (not_not.mpr hd)).trans ((if_neg h).trans (if_neg (Nat.not_le.mpr hs)))

/-- A flow whose frames up to a number are acknowledged. -/
def Flow.acked (n now : Nat) (x : Flow) : Flow := { x with waiting := (x.waiting.dropWhile fun e => e.1 != n).drop 1, sentAt := now }

theorem Chip.takeAck_waiting (hd : f.dst = c.cluster.position) (hp : f.payload.length = 2) (h : (c.flow f.src).waiting.any (·.1 == beNat f.payload) = true) :
    c.takeAck f = (c.modFlow f.src (Flow.acked (beNat f.payload) c.clk.ticks)).pumpFlow f.src 4 :=
  (if_neg (by simp [hd, hp])).trans (if_pos h)

theorem Chip.takeAck_unknown (hd : f.dst = c.cluster.position) (hp : f.payload.length = 2) (h : (c.flow f.src).waiting.any (·.1 == beNat f.payload) = false) :
    c.takeAck f = c := (if_neg (by simp [hd, hp])).trans (if_neg (by simp [h]))

end

/-! ## Sending again (R426) -/

/-- The DATA frame of a flow to a position. -/
def Chip.dataFrame (s : Chip) (dst : Nat) (e : Nat × Bytes) : Frame :=
  { type := 0x0A, cluster := s.cluster.clusterId.toNat, src := s.cluster.position, dst := dst, seq := e.1, payload := e.2 }

theorem Chip.dataFrame_handFrame (s : Chip) (t : TxFrame) (dst : Nat) : (s.handFrame t).dataFrame dst = s.dataFrame dst := by
  unfold Chip.dataFrame
  rw [Chip.cluster_handFrame]

/-- Frames given to the transmitter one after another. -/
def Chip.sendAll (l : List Frame) (s : Chip) : Chip := l.foldl (fun s f => s.sendFrame f) s

theorem Only.sendAll (l : List Frame) (s : Chip) : Only [.cluster, .out] s (s.sendAll l) := Only.foldl _ (fun s _ => Only.sendFrame s) l s

theorem Chip.sendAll_data (dst : Nat) (l : List (Nat × Bytes)) (s : Chip) :
    l.foldl (fun s e => s.sendTo 0x0A dst e.1 e.2) s = s.sendAll (l.map (s.dataFrame dst)) := by
  induction l generalizing s with
  | nil => rfl
  | cons e l ih =>
    have hfirst : s.sendTo 0x0A dst e.1 e.2 = s.sendFrame (s.dataFrame dst e) := rfl
    have hsame : (s.sendFrame (s.dataFrame dst e)).dataFrame dst = s.dataFrame dst := Chip.dataFrame_handFrame ..
    rw [List.foldl_cons, ih, hfirst, hsame]
    rfl

theorem Chip.cluster_sendAll (l : List Frame) (s : Chip) :
    (s.sendAll l).cluster = { s.cluster with sent := (s.sendAll l).cluster.sent, tx := (s.sendAll l).cluster.tx, txUntil := (s.sendAll l).cluster.txUntil } := by
  induction l generalizing s with
  | nil => rfl
  | cons f l ih =>
    have hsend : s.sendAll (f :: l) = (s.sendFrame f).sendAll l := rfl
    have hone : (s.sendFrame f).cluster = _ := Chip.cluster_handFrame _ s
    rw [hsend, ih, hone]

/-- Frames given to a transmitter that is not idle wait. -/
theorem Chip.sendAll_busy {s : Chip} (l : List Frame) (h : s.transmits = true) (hi : s.txIdle = false) :
    (s.sendAll l).out = s.out ∧ (s.sendAll l).cluster.tx = s.cluster.tx ++ l.map (fun f => { frame := f }) := by
  induction l generalizing s with
  | nil => exact ⟨rfl, (List.append_nil _).symm⟩
  | cons f l ih =>
    have hwaits : s.sendFrame f = s.modCluster fun c => { c with tx := c.tx ++ [{ frame := f }] } := Chip.handFrame_waits h (by simp [hi])
    have hbusy : (s.sendFrame f).txIdle = false := by
      rw [hwaits]
      exact Chip.txIdle_waiting (t := { frame := f }) (List.mem_append_right _ (List.mem_singleton_self _)) (Nat.zero_le _)
    obtain ⟨hout, htx⟩ := ih ((Only.sendFrame s).transmits.trans h) hbusy
    have hsend : s.sendAll (f :: l) = (s.sendFrame f).sendAll l := rfl
    rw [hsend, hout, htx, hwaits]
    exact ⟨rfl, List.append_assoc ..⟩

/-- Given to an idle one, the first leaves and the others wait. -/
theorem Chip.sendAll_idle {s : Chip} (l : List Frame) (hl : ∀ f ∈ l, f.type ≠ 2 ∧ f.type ≠ 3) (h : s.transmits = true) (hi : s.txIdle = true) :
    (s.sendAll l).out = (l.take 1).map (fun f => Output.nestan f.bytes) ++ s.out ∧
      (s.sendAll l).cluster.tx = s.cluster.tx ++ (l.drop 1).map (fun f => { frame := f }) := by
  cases l with
  | nil => exact ⟨rfl, (List.append_nil _).symm⟩
  | cons f l =>
    obtain ⟨h2, h3⟩ := hl f (List.mem_cons_self ..)
    have hstart : s.sendFrame f = s.startTx { frame := f } := Chip.handFrame_idle h hi (Nat.zero_le _)
    have hbusy : (s.sendFrame f).txIdle = false := by
      rw [hstart]
      exact Chip.txIdle_startTx _ s
    obtain ⟨hout, htx⟩ := Chip.sendAll_busy l ((Only.sendFrame s).transmits.trans h) hbusy
    obtain ⟨-, hhanded, -⟩ := handed_sendFrame h2 h3 s
    have hsend : s.sendAll (f :: l) = (s.sendFrame f).sendAll l := rfl
    rw [hsend, hout, htx, (hhanded h hi).1, (hhanded h hi).2]
    exact ⟨rfl, rfl⟩

/-- The frames of a flow go out again, and are counted. -/
def Chip.resent (s : Chip) (p : Nat) : Chip :=
  ((s.sendAll ((s.flow p).waiting.map (s.dataFrame p))).modFlow p fun y => { y with sentAt := s.clk.ticks }).modCluster fun c =>
    { c with resends := satAdd 32 c.resends (s.flow p).waiting.length }

theorem Only.resent (s : Chip) (p : Nat) : Only [.cluster, .out] s (s.resent p) :=
  ((Only.sendAll _ s).comp ((Only.modCluster _).mono (by simp))).comp ((Only.modCluster _).mono (by simp))

theorem dataResend_due {s : Chip} {p : Nat} (hw : (s.flow p).waiting ≠ []) (ho : s.overMs (s.flow p).sentAt 1 = true) (hs : s.cluster.state ≠ .holdOver)
    (hz : s.cluster.size ≠ 0) : dataResend p s = s.resent p := by
  unfold dataResend Chip.resent
  rw [if_neg (by simp [hw, ho, hs, hz])]
  dsimp only
  rw [Chip.sendAll_data, ((Only.sendAll _ s).get .clk : (Chip.sendAll _ s).clk = s.clk)]

theorem dataResend_rests {s : Chip} {p : Nat}
    (h : (s.flow p).waiting = [] ∨ s.overMs (s.flow p).sentAt 1 = false ∨ s.cluster.state = .holdOver ∨ s.cluster.size = 0) : dataResend p s = s := if_pos h

theorem Chip.flow_resent (s : Chip) (p : Nat) : (s.resent p).flow p = { s.flow p with sentAt := s.clk.ticks } := by
  have hflow : (s.sendAll ((s.flow p).waiting.map (s.dataFrame p))).flow p = s.flow p :=
    (congrArg (fun c : Cluster => c.flows.get {} p) (Chip.cluster_sendAll _ s)).trans rfl
  refine ((Chip.flow_modFlow (s.sendAll ((s.flow p).waiting.map (s.dataFrame p))) p p fun y => { y with sentAt := s.clk.ticks }).trans (if_pos rfl)).trans ?_
  rw [hflow]

theorem Chip.resends_resent (s : Chip) (p : Nat) : (s.resent p).cluster.resends = satAdd 32 s.cluster.resends (s.flow p).waiting.length :=
  (congrArg (fun c : Cluster => satAdd 32 c.resends (s.flow p).waiting.length) (Chip.cluster_sendAll ((s.flow p).waiting.map (s.dataFrame p)) s)).trans rfl

/-- What is sent again leaves, first of all where the transmitter is idle, or waits. -/
theorem Chip.resent_idle {s : Chip} (p : Nat) (ht : s.transmits = true) (hi : s.txIdle = true) :
    (s.resent p).out = (((s.flow p).waiting.map (s.dataFrame p)).take 1).map (fun f => Output.nestan f.bytes) ++ s.out ∧
      (s.resent p).cluster.tx = s.cluster.tx ++ (((s.flow p).waiting.map (s.dataFrame p)).drop 1).map fun f => { frame := f } := by
  refine Chip.sendAll_idle _ (fun f hf => ?_) ht hi
  obtain ⟨e, -, rfl⟩ := List.mem_map.mp hf
  unfold Chip.dataFrame
  exact ⟨by simp, by simp⟩

theorem Chip.resent_busy {s : Chip} (p : Nat) (ht : s.transmits = true) (hi : s.txIdle = false) :
    (s.resent p).out = s.out ∧ (s.resent p).cluster.tx = s.cluster.tx ++ ((s.flow p).waiting.map (s.dataFrame p)).map fun f => { frame := f } :=
  Chip.sendAll_busy _ ht hi

/-! ## O46 -/

section
variable {b : Bytes} {l256 r256 type : Nat} {i : Instr}
  (hi : (type, i) ∈ [(0x01, Instr.hello b), (0x02, .nestanSync b r256), (0x03, .cal b l256 r256), (0x04, .calResult b), (0x05, .heartbeat b), (0x06, .arrive b),
    (0x07, .release b), (0x08, .abort b), (0x09, .ack b), (0x0A, .data b)])
include hi

/-- A frame of the seven types that travel unchanged is consumed or forwarded. -/
theorem frameRow_onFrame (ht : 4 ≤ type) (s : State) : ∃ consume, exec i s = next s (s.chip.onFrame type b consume) := by
  simp only [List.mem_cons, Prod.mk.injEq, List.not_mem_nil, or_false] at hi
  rcases hi with ⟨rfl, rfl⟩ | ⟨rfl, rfl⟩ | ⟨rfl, rfl⟩ | ⟨rfl, rfl⟩ | ⟨rfl, rfl⟩ | ⟨rfl, rfl⟩ | ⟨rfl, rfl⟩ | ⟨rfl, rfl⟩ | ⟨rfl, rfl⟩ | ⟨rfl, rfl⟩
  · omega
  · omega
  · omega
  all_goals exact ⟨_, rfl⟩

/-- A frame that the device does not hear leaves what the hearing left. -/
theorem frameRow_unheard {s : State} {c : Chip} (h : s.chip.hear type b = (c, none)) : exec i s = next s c := by
  simp only [List.mem_cons, Prod.mk.injEq, List.not_mem_nil, or_false] at hi
  rcases hi with ⟨rfl, rfl⟩ | ⟨rfl, rfl⟩ | ⟨rfl, rfl⟩ | ⟨rfl, rfl⟩ | ⟨rfl, rfl⟩ | ⟨rfl, rfl⟩ | ⟨rfl, rfl⟩ | ⟨rfl, rfl⟩ | ⟨rfl, rfl⟩ | ⟨rfl, rfl⟩
  · refine congrArg (next s) (?_ : hello b s.chip = c)
    unfold hello
    rw [h]
  · refine congrArg (next s) (?_ : nestanSync b r256 s.chip = c)
    unfold nestanSync
    rw [h]
  · refine congrArg (next s) (?_ : calFrame b l256 r256 s.chip = c)
    unfold calFrame
    rw [h]
  all_goals exact congrArg (next s) (Chip.onFrame_unheard _ h)

end

theorem exec_dataResend (p : Byte) (s : State) : exec (.dataResend p) s = next s (dataResend p.toNat s.chip) := rfl

theorem exec_data_takes {b : Bytes} {f : Frame} {s : State} (h : Takes 0x0A b s.chip f) : exec (.data b) s = next s ((s.chip.taken f).takeData f) :=
  congrArg (next s) (Chip.onFrame_takes Chip.takeData h)

theorem exec_ack_takes {b : Bytes} {f : Frame} {s : State} (h : Takes 9 b s.chip f) : exec (.ack b) s = next s ((s.chip.taken f).takeAck f) :=
  congrArg (next s) (Chip.onFrame_takes Chip.takeAck h)

/-- Settles O46: the ten rows hear alike, and DATA, ACK and DATA_RESEND work on the flow of their position. -/
theorem frameAndFlowRows : Obligations.FrameAndFlowRows := by
  unfold Obligations.FrameAndFlowRows
  refine ⟨fun b l256 r256 s type i hi => ⟨fun h => ?_, fun hl hr h => ?_, fun f h hl hr ht => ?_, fun f h ht ho => ?_, fun f h ht ho => ?_⟩,
    fun b f s c x h hc hd hx => ⟨fun he hn => ?_, fun he hn => ?_, fun he hn => ?_, fun he hn => ?_⟩,
    fun b f s c x h hc hd hx hp => ⟨fun hn => ?_, fun hn => ?_⟩, fun p s x hx => ⟨fun hw ho hs hz => ?_, fun h => ?_⟩⟩
  · exact frameRow_unheard hi (Chip.hear_deaf h)
  · exact frameRow_unheard hi (Chip.hear_bad hl hr h)
  · exact frameRow_unheard hi (Chip.hear_other hl hr h ht)
  · obtain ⟨consume, hexec⟩ := frameRow_onFrame hi ht s
    rw [hexec, Chip.onFrame_own consume h ho]
  · obtain ⟨consume, hexec⟩ := frameRow_onFrame hi ht s
    rw [hexec, Chip.onFrame_pass consume h ho]
    exact ⟨rfl, handed_forwardFrame f _⟩
  · subst hc hx
    have hexec := (exec_data_takes h).trans (congrArg (next s) (Chip.takeData_expected hd he hn))
    refine ⟨_, hexec, Chip.inbox_handFrame .., ?_, fun p hp => ?_, ?_, ((Only.received _ f).mono (by simp)).comp (Only.sendFrame _)⟩
    · exact (Chip.flow_handFrame ..).trans ((Chip.flow_received ..).trans (if_pos rfl))
    · exact (Chip.flow_handFrame ..).trans ((Chip.flow_received ..).trans (if_neg hp))
    · exact Chip.handed_received (s.chip.taken f) f
  · subst hc hx
    exact (exec_data_takes h).trans (congrArg (next s) (Chip.takeData_full hd he hn))
  · subst hc hx
    exact (exec_data_takes h).trans (congrArg (next s) (Chip.takeData_again hd he hn))
  · subst hc hx
    exact (exec_data_takes h).trans (congrArg (next s) (Chip.takeData_other hd he hn))
  · subst hc hx
    exact (exec_ack_takes h).trans (congrArg (next s) (Chip.takeAck_unknown hd hp hn))
  · subst hc hx
    obtain ⟨⟨fresh, hwait, hqueued, hfour⟩, hexpect, hinbox⟩ :=
      Chip.pumpFlow_pumped f.src 4 ((s.chip.taken f).modFlow f.src (Flow.acked (beNat f.payload) (s.chip.taken f).clk.ticks))
    rw [Chip.flow_modFlow, if_pos rfl] at hwait hqueued hexpect
    exact ⟨_, fresh, (exec_ack_takes h).trans (congrArg (next s) (Chip.takeAck_waiting hd hp hn)), hwait, hqueued, hfour, hexpect, hinbox,
      ((Only.modCluster _).mono (by simp)).comp (Only.pumpFlow 4 _)⟩
  · subst hx
    refine ⟨_, (exec_dataResend p s).trans (congrArg (next s) (dataResend_due hw ho hs hz)), s.chip.flow_resent p.toNat, s.chip.resends_resent p.toNat,
      fun frames hf ht => ⟨fun hi => ?_, fun hi => ?_⟩, Within.ofChip (Only.resent s.chip p.toNat)⟩
    · subst hf
      exact Chip.resent_idle p.toNat ht hi
    · subst hf
      exact Chip.resent_busy p.toNat ht hi
  · subst hx
    exact (exec_dataResend p s).trans (congrArg (next s) (dataResend_rests h))

end Sys2Proof.Machine
end

section
/-! SUPPORT. Cluster barriers: ARRIVE, RELEASE, ABORT and the timeout (R438 to R441). -/

namespace Sys2Proof.Machine

/-! ## Sequencers that resume (R255) -/

/-- A sequencer's vector times are as before where the sequencer and its clocks are. -/
theorem Chip.holdsUntil_congr {a b : Chip} {q : Nat} (hq : b.sq q = a.sq q) (hc : b.power = a.power) (hp : b.plls = a.plls) (due : Nat) :
    b.holdsUntil q due = a.holdsUntil q due := by
  have hunits : b.unitsFine = a.unitsFine := by
    funext src n
    unfold Chip.unitsFine Chip.vco1 Chip.pll Chip.refNominal
    rw [hp, hc]
  have hfine : b.fine q = a.fine q := by
    funext n
    unfold Chip.fine
    rw [hq, hunits]
  unfold Chip.holdsUntil
  rw [hq, hfine, hunits]

/-- What a sequencer is once it resumes follows from the sequencer and its clocks. -/
theorem Chip.sq_resume_congr {a b : Chip} {q : Nat} (hq : b.sq q = a.sq q) (hc : b.power = a.power) (hp : b.plls = a.plls) (due : Nat) :
    (b.resume q due).sq q = (a.resume q due).sq q := by
  have hholds : ∀ n, (b.emitHolds q n).sq q = (a.emitHolds q n).sq q := fun n => by
    by_cases hn : n = 0
    · subst hn
      exact hq
    · rw [Chip.sq_emitHolds hn, Chip.sq_emitHolds hn, hq]
  unfold Chip.resume Chip.emitWaits
  simp only [Chip.sq_modSq, if_true, Chip.holdsUntil_congr hq hc hp, hholds]

theorem Chip.sq_resume_runs (s : Chip) (q due : Nat) : ((s.resume q due).sq q).state = .running ∧ ((s.resume q due).sq q).barrier = none := by
  unfold Chip.resume
  rw [Chip.sq_modSq, if_pos rfl]
  exact ⟨rfl, rfl⟩

/-- Every sequencer of a list that waits at a barrier resumes, as it would alone. -/
theorem Chip.sq_resumeEach {b due q : Nat} (l : List Nat) {s : Chip} (hq : q ∈ l) (hb : (s.sq q).barrier = some b) :
    (l.foldl (fun t k => if (t.sq k).barrier = some b then t.resume k due else t) s).sq q = (s.resume q due).sq q := by
  induction l generalizing s with
  | nil => cases hq
  | cons k l ih =>
    rw [List.foldl_cons]
    by_cases hk : q = k
    · subst hk
      rw [if_pos hb]
      refine Chip.sq_foldl (fun t j ht => ?_) l rfl
      have hnone : (t.sq q).barrier = none := ht ▸ (s.sq_resume_runs q due).2
      split
      next hj =>
        have hqj : q ≠ j := by
          rintro rfl
          rw [hnone] at hj
          cases hj
        rw [t.sq_resume_ne due hqj, ht]
      next => exact ht
    · have hmem : q ∈ l := (List.mem_cons.mp hq).resolve_left hk
      have hsq : (if (s.sq k).barrier = some b then s.resume k due else s).sq q = s.sq q := by
        split
        · exact s.sq_resume_ne due hk
        · rfl
      have honly : Only [.lanes, .seqs] s (if (s.sq k).barrier = some b then s.resume k due else s) := Only.ite (Only.resume s) (Only.refl s _)
      rw [ih hmem (hsq ▸ hb)]
      exact Chip.sq_resume_congr hsq (honly .power (by decide)) (honly .plls (by decide)) due

theorem Chip.sq_releaseBarrier_waiting {s : Chip} {b q : Nat} (due : Nat) (hq : q < 16) (hb : (s.sq q).barrier = some b) :
    (s.releaseBarrier b due).sq q = (s.resume q due).sq q := Chip.sq_resumeEach _ (List.mem_range.mpr hq) hb

/-! ## Barriers of the link (R438) -/

theorem Chip.barrier_modBarrier (s : Chip) (b k : Nat) (f : Barrier → Barrier) : (s.modBarrier b f).barrier k = if k = b then f (s.barrier b) else s.barrier k :=
  SMap.get_upd s.cluster.barriers {} b k f

/-- A barrier is unchanged where the link is. -/
theorem Only.barrier {a b : Chip} {ps : List Part} (h : Only ps a b) (hp : Part.cluster ∉ ps := by decide) (n : Nat) : b.barrier n = a.barrier n := by
  have hcluster : b.cluster = a.cluster := h .cluster hp
  unfold Chip.barrier
  rw [hcluster]

theorem Chip.barrier_handFrame (s : Chip) (t : TxFrame) (b : Nat) : (s.handFrame t).barrier b = s.barrier b :=
  (congrArg (fun c : Cluster => c.barriers.get {} b) (Chip.cluster_handFrame t s)).trans rfl

theorem Chip.taken_formed (s : Chip) (f : Frame) : (s.taken f).formed = s.formed :=
  (congrArg (fun c : Cluster => c.state == .formed) (Chip.cluster_taken s f)).trans rfl

theorem Chip.taken_ofCluster (s : Chip) (f g : Frame) : (s.taken f).ofCluster g = s.ofCluster g :=
  (congrArg (fun c : Cluster => g.cluster == c.clusterId.toNat && c.clusterId != 0xFF) (Chip.cluster_taken s f)).trans rfl

/-! ## ARRIVE (R438, R439) -/

/-- An ARRIVE among those of its barrier. -/
def Barrier.arrived (ticks action : Nat) (a : Arrival) (x : Barrier) : Barrier :=
  { x with
    arrivals := x.arrivals.filter (·.position != a.position) ++ [a], firstAt := if x.arrivals = [] then ticks else x.firstAt, lastAt := action }

/-- The arrival that an ARRIVE tells of. -/
def arrivalOf (f : Frame) : Arrival := { position := f.src, digest := slice f.payload 4 32, withdrawn := byteAt f.payload 3 % 2 = 1 }

/-- A device that has counted an ARRIVE. -/
def Chip.arrivedAt (c : Chip) (n : Nat) (f : Frame) : Chip := c.modBarrier n (Barrier.arrived c.clk.ticks c.clk.action (arrivalOf f))

theorem Chip.takeArrive_ignored {c : Chip} {f : Frame} (h : c.ofCluster f = false ∨ c.isMaster = false ∨ f.payload.length ≠ 36 ∨ byteAt f.payload 0 < 16 ∨
    31 < byteAt f.payload 0 ∨ beNat (slice f.payload 1 2) ≠ (c.barrier (byteAt f.payload 0)).generation) : c.takeArrive f = c := if_pos h

theorem Chip.takeArrive_counts {c : Chip} {f : Frame} (hc : c.ofCluster f = true) (hm : c.isMaster = true) (hl : f.payload.length = 36)
    (h16 : 16 ≤ byteAt f.payload 0) (h31 : byteAt f.payload 0 ≤ 31) (hg : beNat (slice f.payload 1 2) = (c.barrier (byteAt f.payload 0)).generation) :
    c.takeArrive f = (c.arrivedAt (byteAt f.payload 0) f).completeBarrier (byteAt f.payload 0) := by
  refine if_neg ?_
  simp only [hc, hm, hl, hg, Bool.true_eq_false, ne_eq, not_true, false_or, not_or, not_lt, or_false]
  exact ⟨h16, h31⟩

section
variable {u : Chip} {n : Nat}

theorem Chip.completeBarrier_early (h : u.cluster.size = 0 ∨ u.barrierFull n = false) : u.completeBarrier n = u := if_pos (.inr h)

variable (hm : u.isMaster = true) (hs : u.cluster.size ≠ 0) (hf : u.barrierFull n = true)
include hm hs hf

/-- A full barrier is held while digests differ. -/
theorem Chip.completeBarrier_held (h : digestsAgree (u.barrier n).arrivals = false ∨ u.cluster.digestBad = true) :
    ((u.completeBarrier n).barrier n).held = true ∧ ((u.completeBarrier n).barrier n).generation = (u.barrier n).generation ∧
      Only [.cluster, .recorder] u (u.completeBarrier n) := by
  unfold Chip.completeBarrier
  dsimp only
  rw [if_neg (by simp [hm, hs, hf]), if_pos h]
  split
  next hheld => exact ⟨hheld, rfl, Only.refl u _⟩
  next =>
    refine ⟨?_, ?_, ((Only.modBarrier u).mono (by simp)).comp ((Only.record _).mono (by simp))⟩
    · rw [(Only.record _).barrier, Chip.barrier_modBarrier, if_pos rfl]
    · rw [(Only.record _).barrier, Chip.barrier_modBarrier, if_pos rfl]

/-- A full barrier waits while the time is not good. -/
theorem Chip.completeBarrier_waits (hd : digestsAgree (u.barrier n).arrivals = true) (hb : u.cluster.digestBad = false) (ht : u.cluster.timeBad = true) :
    u.completeBarrier n = u.modBarrier n fun x => { x with waited := true } := by
  unfold Chip.completeBarrier
  dsimp only
  rw [if_neg (by simp [hm, hs, hf]), if_neg (by simp [hd, hb]), if_pos ht]

/-- A full barrier is released by a frame, and its next generation begins. -/
def Chip.releasedAt (u : Chip) (n r : Nat) : Chip :=
  ((u.sendCluster 7 0xFF (be 1 n ++ be 2 (u.barrier n).generation ++ frameStamp r 1)).modBarrier n Barrier.renew).releaseBarrier n (100 * r)

theorem Chip.completeBarrier_releases (hd : digestsAgree (u.barrier n).arrivals = true) (hb : u.cluster.digestBad = false) (ht : u.cluster.timeBad = false)
    (hl : (u.barrier n).lastAt = u.clk.action) : u.completeBarrier n = u.releasedAt n (u.clk.action + 256000 * u.cluster.releaseLead) := by
  unfold Chip.completeBarrier Chip.releasedAt
  dsimp only
  rw [if_neg (by simp [hm, hs, hf]), if_neg (by simp [hd, hb]), if_neg (by simp [ht]), hl, ite_self]

end

section
variable (u : Chip) (n r : Nat)

/-- The device between its RELEASE and the sequencers that resume. -/
theorem Only.renewed : Only [.cluster, .out] u ((u.sendCluster 7 0xFF (be 1 n ++ be 2 (u.barrier n).generation ++ frameStamp r 1)).modBarrier n Barrier.renew) :=
  (Only.sendCluster u).comp ((Only.modBarrier _).mono (by simp))

theorem Only.releasedAt : Only [.cluster, .out, .seqs, .lanes] u (u.releasedAt n r) :=
  ((Only.renewed u n r).mono (by simp)).comp ((Only.releaseBarrier _).mono (by simp))

theorem Chip.barrier_releasedAt : (u.releasedAt n r).barrier n = { generation := ((u.barrier n).generation + 1) % 65536 } := by
  unfold Chip.releasedAt
  rw [(Only.releaseBarrier _).barrier, Chip.barrier_modBarrier, if_pos rfl]
  exact congrArg Barrier.renew (Chip.barrier_handFrame u _ n)

/-- The RELEASE has come to the transmitter. -/
theorem Chip.handed_releasedAt :
    Handed { type := 7, cluster := u.cluster.clusterId.toNat, src := u.cluster.position, dst := 0xFF, seq := 0, payload := be 1 n ++ be 2 (u.barrier n).generation ++ frameStamp r 1 } false u
      (u.releasedAt n r) := by
  have hreleased : Only [.lanes, .seqs] _ (u.releasedAt n r) := Only.releaseBarrier _
  have hcluster : (u.releasedAt n r).cluster = _ := hreleased .cluster (by decide)
  refine Handed.after (handed_sendFrame (by exact (by decide : (7 : Nat) ≠ 2)) (by exact (by decide : (7 : Nat) ≠ 3)) u) (hreleased .out (by decide)) ?_
  rw [hcluster]
  rfl

variable {u n r} {q : Nat}

theorem Chip.sq_releasedAt_waiting (hq : q < 16) (hb : (u.sq q).barrier = some n) : (u.releasedAt n r).sq q = (u.resume q (100 * r)).sq q := by
  have honly := Only.renewed u n r
  have hsq := honly.sq (by decide) q
  unfold Chip.releasedAt
  rw [Chip.sq_releaseBarrier_waiting _ hq (hsq ▸ hb)]
  exact Chip.sq_resume_congr hsq (honly .power (by decide)) (honly .plls (by decide)) _

theorem Chip.sq_releasedAt_ne (hb : (u.sq q).barrier ≠ some n) : (u.releasedAt n r).sq q = u.sq q := by
  have hsq := (Only.renewed u n r).sq (by decide) q
  unfold Chip.releasedAt
  rw [Chip.sq_releaseBarrier _ (hsq ▸ hb), hsq]

end

/-! ## RELEASE (R439) -/

theorem Chip.takeRelease_standalone {c : Chip} {f : Frame} (h : c.formed = false) : c.takeRelease f = c := if_pos (.inr (.inl h))

/-- The boundary of a RELEASE: R, or 60 ns after a late reception. -/
def Chip.releaseDue (c : Chip) (f : Frame) : Nat := max (100 * stampTime (slice f.payload 3 10)) (c.nowFine + ns60)

/-- A member that a RELEASE reached, before its sequencers resume: its next generation, and a record where it came late. -/
def Chip.releaseNoted (c : Chip) (f : Frame) : Chip :=
  let s := c.nextGeneration (byteAt f.payload 0) (beNat (slice f.payload 1 2))
  if 100 * stampTime (slice f.payload 3 10) < c.nowFine + ns60 then s.record 0xA005 10 (le 1 (byteAt f.payload 0) ++ le 2 (beNat (slice f.payload 1 2))) else s

theorem Only.nextGeneration {b g} (c : Chip) : Only [.cluster] c (c.nextGeneration b g) := Only.modBarrier c

theorem Only.releaseNoted (c : Chip) (f : Frame) : Only [.cluster, .recorder] c (c.releaseNoted f) := by
  unfold Chip.releaseNoted
  exact Only.ite (((Only.modBarrier c).mono (by simp)).comp ((Only.record _).mono (by simp))) ((Only.modBarrier c).mono (by simp))

theorem Chip.barrier_releaseNoted (c : Chip) (f : Frame) :
    (c.releaseNoted f).barrier (byteAt f.payload 0) = { generation := (beNat (slice f.payload 1 2) + 1) % 65536 } := by
  have hnext : (c.nextGeneration (byteAt f.payload 0) (beNat (slice f.payload 1 2))).barrier (byteAt f.payload 0) =
      { generation := (beNat (slice f.payload 1 2) + 1) % 65536 } := (Chip.barrier_modBarrier ..).trans (if_pos rfl)
  unfold Chip.releaseNoted
  dsimp only
  split
  · rw [(Only.record _).barrier, hnext]
  · exact hnext

theorem Chip.takeRelease_releases {c : Chip} {f : Frame} (hc : c.ofCluster f = true) (hf : c.formed = true) (hl : f.payload.length = 13)
    (h16 : 16 ≤ byteAt f.payload 0) (h31 : byteAt f.payload 0 ≤ 31) :
    c.takeRelease f = (c.releaseNoted f).releaseBarrier (byteAt f.payload 0) (c.releaseDue f) := by
  unfold Chip.takeRelease Chip.releaseNoted Chip.releaseDue
  dsimp only
  rw [if_neg (by simp [hc, hf, hl]; omega)]
  by_cases hlate : 100 * stampTime (slice f.payload 3 10) < c.nowFine + ns60
  · have hnow : ∀ d : Chip, Only [.cluster, .recorder] c d → d.nowFine = c.nowFine := fun d hd => by
      have hclk : d.clk = c.clk := hd .clk (by decide)
      unfold Chip.nowFine
      rw [hclk]
    rw [decide_eq_true hlate, if_pos rfl, if_pos rfl, if_pos hlate, Nat.max_eq_right (Nat.le_of_lt hlate),
      hnow _ (((Only.nextGeneration c).mono (by simp)).comp ((Only.record _).mono (by simp)))]
  · rw [decide_eq_false hlate, if_neg Bool.false_ne_true, if_neg Bool.false_ne_true, if_neg hlate, Nat.max_eq_left (Nat.not_lt.mp hlate)]

/-! ## ABORT and the timeout (R440, R441) -/

/-- From `a` to `b` sequencer `j` stays, or no longer waits at a barrier. -/
def BarrierLeft (j : Nat) (a b : Chip) : Prop := b.sq j = a.sq j ∨ ((a.sq j).barrier ≠ none ∧ (b.sq j).barrier = none)

section
variable {j : Nat} {a b c : Chip}

theorem BarrierLeft.refl (j : Nat) (a : Chip) : BarrierLeft j a a := .inl rfl

theorem BarrierLeft.trans (h : BarrierLeft j a b) (k : BarrierLeft j b c) : BarrierLeft j a c := by
  unfold BarrierLeft at *
  rcases h with h | ⟨ha, hb⟩
  · rw [h] at k
    exact k
  · rcases k with k | ⟨hb', -⟩
    · exact .inr ⟨ha, k ▸ hb⟩
    · exact absurd hb hb'

theorem BarrierLeft.only {ps : List Part} (h : Only ps a b) (hp : Part.seqs ∉ ps := by decide) : BarrierLeft j a b := .inl (h.sq hp j)

theorem BarrierLeft.ite {p : Prop} [Decidable p] (h : BarrierLeft j a b) (k : BarrierLeft j a c) : BarrierLeft j a (if p then b else c) := by
  split <;> assumption

theorem BarrierLeft.foldl {α : Type _} (f : Chip → α → Chip) (h : ∀ s x, BarrierLeft j s (f s x)) (l : List α) (s : Chip) : BarrierLeft j s (l.foldl f s) := by
  induction l generalizing s with
  | nil => exact BarrierLeft.refl j s
  | cons x l ih => exact (h s x).trans (ih (f s x))

/-- A sequencer that waits at no barrier stays. -/
theorem BarrierLeft.stays (h : BarrierLeft j a b) (hn : (a.sq j).barrier = none) : b.sq j = a.sq j := h.resolve_right fun ⟨ha, _⟩ => ha hn

/-- None begins to wait. -/
theorem BarrierLeft.ne (h : BarrierLeft j a b) {n : Nat} (hn : (a.sq j).barrier ≠ some n) : (b.sq j).barrier ≠ some n := by
  rcases h with h | ⟨-, hb⟩
  · rwa [h]
  · rw [hb]; simp

end

theorem BarrierLeft.releaseBarrier (j : Nat) (s : Chip) (b due : Nat) : BarrierLeft j s (s.releaseBarrier b due) := by
  refine BarrierLeft.foldl _ (fun c k => ?_) _ s
  split
  next hk =>
    by_cases hj : j = k
    · subst hj
      exact .inr ⟨by rw [hk]; simp, (c.sq_resume_runs j due).2⟩
    · exact .inl (c.sq_resume_ne due hj)
  next => exact BarrierLeft.refl j c

theorem BarrierLeft.completeBarrier (j : Nat) (s : Chip) (b : Nat) : BarrierLeft j s (s.completeBarrier b) := by
  have hmod : ∀ (c : Chip) {f}, BarrierLeft j c (c.modBarrier b f) := fun c _ => BarrierLeft.only (Only.modBarrier c)
  unfold Chip.completeBarrier
  refine BarrierLeft.ite (BarrierLeft.refl j s) (BarrierLeft.ite (BarrierLeft.ite (BarrierLeft.refl j s) ?_) (BarrierLeft.ite (hmod s) ?_))
  · exact (hmod s).trans (BarrierLeft.only (Only.record _))
  · exact ((BarrierLeft.only (Only.sendCluster s)).trans (hmod _)).trans (BarrierLeft.releaseBarrier ..)

theorem BarrierLeft.sendArrive (j : Nat) (s : Chip) (b : Nat) (w : Bool) : BarrierLeft j s (s.sendArrive b w) := by
  have hmod : ∀ (c : Chip) {f}, BarrierLeft j c (c.modBarrier b f) := fun c _ => BarrierLeft.only (Only.modBarrier c)
  unfold Chip.sendArrive Chip.putArrival
  dsimp only
  refine BarrierLeft.trans (hmod s) (BarrierLeft.ite ((hmod _).trans (BarrierLeft.completeBarrier ..)) (BarrierLeft.ite ?_ (BarrierLeft.ite ?_ ?_)))
  · exact BarrierLeft.only (Only.sendCluster _)
  · exact BarrierLeft.refl j _
  · exact (hmod _).trans (BarrierLeft.only (Only.modCluster _))

theorem BarrierLeft.evalBarrier (j : Nat) (s : Chip) (leaver : Option Nat) (b : Nat) : BarrierLeft j s (s.evalBarrier leaver b) := by
  unfold Chip.evalBarrier
  dsimp only
  refine BarrierLeft.ite (BarrierLeft.ite (BarrierLeft.releaseBarrier ..) (BarrierLeft.refl j s)) (BarrierLeft.ite ?_
    (BarrierLeft.ite (BarrierLeft.sendArrive ..) (BarrierLeft.refl j s)))
  split
  · exact BarrierLeft.ite (BarrierLeft.sendArrive ..) (BarrierLeft.refl j s)
  · exact BarrierLeft.refl j s

section
variable {j q : Nat} (hj : j ≠ q)
include hj

theorem BarrierLeft.modSq_ne (s : Chip) {f : Seq → Seq} : BarrierLeft j s (s.modSq q f) := .inl ((Chip.sq_modSq ..).trans (if_neg hj))

theorem BarrierLeft.clearRing_ne (s : Chip) : BarrierLeft j s (s.clearRing q) := .inl ((Chip.sq_clearRing ..).trans (if_neg hj))

theorem BarrierLeft.leaveBarriers_ne (s : Chip) : BarrierLeft j s (s.leaveBarriers q) :=
  (BarrierLeft.modSq_ne hj s).trans (BarrierLeft.foldl _ (fun c b => BarrierLeft.evalBarrier j c (some q) b) _ _)

theorem BarrierLeft.endSeals_ne (s : Chip) (cause : Nat) : BarrierLeft j s (s.endSeals q cause) := by
  have hfields : BarrierLeft j s (s.abandonFields q) := by
    unfold Chip.abandonFields
    dsimp only
    refine BarrierLeft.trans (BarrierLeft.trans (BarrierLeft.foldl _ (fun c k => ?_) _ s) (BarrierLeft.modSq_ne hj _)) (BarrierLeft.only (Only.unsealLanes _))
    exact (BarrierLeft.ite (BarrierLeft.refl j c) (BarrierLeft.only (Only.freeInjector c))).trans (BarrierLeft.only (Only.modSeal _))
  refine hfields.trans (BarrierLeft.foldl _ (fun c k => ?_) _ _)
  exact (BarrierLeft.only (Only.closeProof c)).trans (BarrierLeft.only (Only.modSeal _))

/-- The end of a run leaves the other sequencers, or releases them. -/
theorem BarrierLeft.endRun_ne (s : Chip) (cause : Nat) : BarrierLeft j s (s.endRun q cause) := by
  unfold Chip.endRun
  extract_lets released covered stopped
  have hreleased : BarrierLeft j s released :=
    ((BarrierLeft.only (s.endAcq_reaches q)).trans (BarrierLeft.endSeals_ne hj _ cause)).trans (BarrierLeft.only (Only.endPorts _))
  have hlanes : BarrierLeft j released (if cause = 6 then released.coverLanes (released.lanesOf q) else released.coverAtBoundary q (released.lanesOf q)) :=
    BarrierLeft.ite (BarrierLeft.only (Only.coverLanes released)) (BarrierLeft.only (Only.coverAtBoundary released))
  have hcovered : BarrierLeft j released covered :=
    (hlanes.trans (BarrierLeft.only (Only.eachLane _))).trans (BarrierLeft.clearRing_ne hj _)
  have hstopped : BarrierLeft j s stopped := (hreleased.trans hcovered).trans (BarrierLeft.modSq_ne hj covered)
  exact BarrierLeft.ite hstopped (hstopped.trans (BarrierLeft.leaveBarriers_ne hj stopped))

theorem BarrierLeft.stopRun_ne (s : Chip) : BarrierLeft j s (s.stopRun q) :=
  BarrierLeft.trans (.inl (s.sq_emitHolds_ne _ hj)) (BarrierLeft.endRun_ne hj _ 2)

end

/-- A run that is stopped has end cause 2 and waits at no barrier. -/
theorem Chip.sq_stopRun (s : Chip) (q : Nat) : ((s.stopRun q).sq q).endCause = 2 ∧ ((s.stopRun q).sq q).barrier = none := by
  unfold Chip.stopRun
  rw [Chip.sq_endRun]
  exact ⟨rfl, rfl⟩

/-- Sequencers that are stopped one after another stay so. -/
theorem Chip.sq_stopEach {q : Nat} (l : List Nat) {s : Chip} (hq : q ∈ l ∨ ((s.sq q).endCause = 2 ∧ (s.sq q).barrier = none)) :
    ((l.foldl (fun t k => t.stopRun k) s).sq q).endCause = 2 ∧ ((l.foldl (fun t k => t.stopRun k) s).sq q).barrier = none := by
  induction l generalizing s with
  | nil => exact hq.resolve_left List.not_mem_nil
  | cons k l ih =>
    rw [List.foldl_cons]
    by_cases hk : q = k
    · subst hk
      exact ih (.inr (s.sq_stopRun q))
    · rcases hq with hq | ⟨hc, hb⟩
      · exact ih (.inl ((List.mem_cons.mp hq).resolve_left hk))
      · refine ih (.inr ?_)
        rw [(BarrierLeft.stopRun_ne hk s).stays hb]
        exact ⟨hc, hb⟩

/-- Those that are not stopped do not begin to wait. -/
theorem Chip.barrier_stopEach {q n : Nat} (l : List Nat) {s : Chip} (h : (s.sq q).barrier ≠ some n) :
    ((l.foldl (fun t k => t.stopRun k) s).sq q).barrier ≠ some n := by
  induction l generalizing s with
  | nil => exact h
  | cons k l ih =>
    refine ih ?_
    by_cases hk : q = k
    · subst hk
      rw [(s.sq_stopRun q).2]
      simp
    · exact (BarrierLeft.stopRun_ne hk s).ne h

/-- Sequencers that are taken from their barrier. -/
theorem Chip.sq_takenOff (l : List Nat) (s : Chip) (q : Nat) :
    (l.foldl (fun t k => t.modSq k fun x => { x with barrier := none }) s).sq q = if q ∈ l then { s.sq q with barrier := none } else s.sq q := by
  induction l generalizing s with
  | nil => exact (if_neg List.not_mem_nil).symm
  | cons k l ih =>
    rw [List.foldl_cons, ih, Chip.sq_modSq]
    by_cases hk : q = k
    · subst hk
      rw [if_pos rfl, if_pos (List.mem_cons_self ..), ite_self]
    · rw [if_neg hk]
      exact if_congr (by simp [hk]) rfl rfl

theorem Chip.mem_waitingAt {s : Chip} {n q : Nat} : q ∈ s.waitingAt n ↔ q < 16 ∧ (s.sq q).barrier = some n := by
  simp [Chip.waitingAt, List.mem_filter]

/-- An abort leaves no sequencer waiting at the barrier, and stops those that waited. -/
theorem Chip.abortBarrier_stops (s : Chip) (n gen cause : Nat) {q : Nat} (hq : q < 16) :
    ((s.abortBarrier n gen cause).sq q).barrier ≠ some n ∧ ((s.sq q).barrier = some n → ((s.abortBarrier n gen cause).sq q).endCause = 2) := by
  have hsq : (s.nextGeneration n gen).sq q = s.sq q := (Only.modBarrier s).sq (by decide) q
  unfold Chip.abortBarrier
  dsimp only
  rw [(Only.record _).sq (by decide)]
  refine ⟨Chip.barrier_stopEach _ ?_, fun hb => (Chip.sq_stopEach _ (.inl (Chip.mem_waitingAt.mpr ⟨hq, hb⟩))).1⟩
  rw [Chip.sq_takenOff, hsq]
  split
  next => simp
  next hw => exact fun hb => hw (Chip.mem_waitingAt.mpr ⟨hq, hb⟩)

theorem Chip.takeAbort_standalone {c : Chip} {f : Frame} (h : c.formed = false) : c.takeAbort f = c := if_pos (.inr (.inl h))

theorem Chip.takeAbort_aborts {c : Chip} {f : Frame} (hc : c.ofCluster f = true) (hf : c.formed = true) (hl : f.payload.length = 4)
    (h16 : 16 ≤ byteAt f.payload 0) (h31 : byteAt f.payload 0 ≤ 31) :
    c.takeAbort f = c.abortBarrier (byteAt f.payload 0) (beNat (slice f.payload 1 2)) (byteAt f.payload 3) :=
  if_neg (by simp [hc, hf, hl]; omega)

section
variable {n : Nat} {s : Chip}

/-- A timeout at the master is an ABORT of its cause. -/
theorem barrierTimeout_master (hm : s.isMaster = true) (ha : (s.barrier n).arrivals ≠ []) (ho : s.overMs (s.barrier n).firstAt s.cluster.barrierTimeout = true) :
    ∃ cause, barrierTimeout n s = (s.sendCluster 8 0xFF (be 1 n ++ be 2 (s.barrier n).generation ++ be 1 cause)).abortBarrier n (s.barrier n).generation cause :=
  ⟨_, (if_pos hm).trans (if_neg (by simp [ha, ho]))⟩

theorem Chip.isMaster_of_unformed (h : s.formed = false) : s.isMaster = false := by
  unfold Chip.isMaster
  rw [h]
  rfl

theorem barrierTimeout_standalone (hf : s.formed = false) (hh : s.cluster.state ≠ .holdOver) (hl : (s.barrier n).localArrived = true)
    (ho : s.overMs (s.barrier n).localAt s.cluster.barrierTimeout = true) : barrierTimeout n s = s.abortBarrier n (s.barrier n).generation 1 :=
  (if_neg (by simp [Chip.isMaster_of_unformed hf])).trans (if_neg (by simp [hf, hh, hl, ho]))

theorem barrierTimeout_member (hf : s.formed = true) (hm : s.isMaster = false) : barrierTimeout n s = s := (if_neg (by simp [hm])).trans (if_pos (.inl hf))

theorem barrierTimeout_master_early (hm : s.isMaster = true) (ho : s.overMs (s.barrier n).firstAt s.cluster.barrierTimeout = false) : barrierTimeout n s = s :=
  (if_pos hm).trans (if_pos (.inr ho))

theorem barrierTimeout_early (hm : s.isMaster = false) (ho : s.overMs (s.barrier n).localAt s.cluster.barrierTimeout = false) : barrierTimeout n s = s :=
  (if_neg (by simp [hm])).trans (if_pos (.inr (.inr (.inr ho))))

end

/-! ## O51 -/

theorem exec_arrive_takes {b : Bytes} {f : Frame} {s : State} (h : Takes 6 b s.chip f) : exec (.arrive b) s = next s ((s.chip.taken f).takeArrive f) :=
  congrArg (next s) (Chip.onFrame_takes Chip.takeArrive h)

theorem exec_release_takes {b : Bytes} {f : Frame} {s : State} (h : Takes 7 b s.chip f) : exec (.release b) s = next s ((s.chip.taken f).takeRelease f) :=
  congrArg (next s) (Chip.onFrame_takes Chip.takeRelease h)

theorem exec_abort_takes {b : Bytes} {f : Frame} {s : State} (h : Takes 8 b s.chip f) : exec (.abort b) s = next s ((s.chip.taken f).takeAbort f) :=
  congrArg (next s) (Chip.onFrame_takes Chip.takeAbort h)

theorem exec_barrierTimeout (k : Fin 16) (s : State) : exec (.barrierTimeout k) s = next s (barrierTimeout (16 + k.val) s.chip) := rfl

/-- Settles O51, frame by frame. -/
theorem clusterBarrierRows : Obligations.ClusterBarrierRows := by
  unfold Obligations.ClusterBarrierRows
  refine ⟨fun b f s c n h hc hn => ⟨fun hi => ?_, fun u h1 h2 h3 h4 h5 h6 hu => ?_⟩, fun b f s n h hn => ⟨fun hf => ?_, fun hc hf hl h16 h31 => ?_⟩,
    fun b f s n h hn => ⟨fun hf => ?_, fun hc hf hl h16 h31 => ?_⟩, fun k s => ⟨fun hm ha ho => ?_, fun hf hh hl ho => ?_, fun hf hm => ?_, fun hm ho => ?_, fun hm ho => ?_⟩⟩
  · subst hc hn
    exact (exec_arrive_takes h).trans (congrArg (next s) (Chip.takeArrive_ignored hi))
  · subst hc hn
    have hu' : u = (s.chip.taken f).arrivedAt (byteAt f.payload 0) f := hu
    have hexec : exec (.arrive b) s = next s (u.completeBarrier (byteAt f.payload 0)) := by
      rw [exec_arrive_takes h, Chip.takeArrive_counts h1 h2 h3 h4 h5 h6, hu']
    have hm : u.isMaster = true := by
      rw [hu']
      exact h2
    have hlast : (u.barrier (byteAt f.payload 0)).lastAt = u.clk.action := by
      rw [hu']
      exact congrArg Barrier.lastAt ((Chip.barrier_modBarrier ..).trans (if_pos rfl))
    refine ⟨fun he => ?_, fun hs hf hd => ?_, fun hs hf hd hb ht => ?_, fun hs hf hd hb ht => ?_⟩
    · rw [hexec, Chip.completeBarrier_early he]
    · exact ⟨_, hexec, Chip.completeBarrier_held hm hs hf hd⟩
    · rw [hexec, Chip.completeBarrier_waits hm hs hf hd hb ht]
    · have hreleases := hexec.trans (congrArg (next s) (Chip.completeBarrier_releases hm hs hf hd hb ht hlast))
      refine ⟨_, hreleases, ?_⟩
      dsimp only
      exact ⟨u.barrier_releasedAt _ _, Only.releasedAt u _ _, u.handed_releasedAt _ _, fun q hq hw => Chip.sq_releasedAt_waiting hq hw,
        fun q hw => Chip.sq_releasedAt_ne hw⟩
  · exact (exec_release_takes h).trans (congrArg (next s) (Chip.takeRelease_standalone ((s.chip.taken_formed f).trans hf)))
  · subst hn
    have htaken := Only.taken (f := f) s.chip
    have hnoted := (htaken.trans (Only.releaseNoted (s.chip.taken f) f))
    have hsq : ∀ q, ((s.chip.taken f).releaseNoted f).sq q = s.chip.sq q := hnoted.sq (by decide)
    have hdue : (s.chip.taken f).releaseDue f = max (100 * stampTime (slice f.payload 3 10)) (s.chip.nowFine + ns60) := by
      have hclk : (s.chip.taken f).clk = s.chip.clk := htaken .clk (by decide)
      unfold Chip.releaseDue Chip.nowFine
      rw [hclk]
    refine ⟨_, _, (exec_release_takes h).trans (congrArg (next s) (Chip.takeRelease_releases ((s.chip.taken_ofCluster f f).trans hc) ((s.chip.taken_formed f).trans hf) hl h16 h31)),
      hdue, ?_⟩
    dsimp only
    refine ⟨?_, fun q hq hw => ?_, fun q hw => ?_, Within.ofChip ((hnoted.mono (by simp)).comp ((Only.releaseBarrier _).mono (by simp)))⟩
    · rw [(Only.releaseBarrier _).barrier, Chip.barrier_releaseNoted]
    · have hresumed := (Chip.sq_releaseBarrier_waiting ((s.chip.taken f).releaseDue f) hq ((hsq q).symm ▸ hw)).trans
        (Chip.sq_resume_congr (hsq q) (hnoted .power (by decide)) (hnoted .plls (by decide)) _)
      refine ⟨hresumed, ?_⟩
      rw [hresumed]
      exact s.chip.sq_resume_runs q _
    · exact (Chip.sq_releaseBarrier _ ((hsq q).symm ▸ hw)).trans (hsq q)
  · exact (exec_abort_takes h).trans (congrArg (next s) (Chip.takeAbort_standalone ((s.chip.taken_formed f).trans hf)))
  · subst hn
    refine ⟨_, (exec_abort_takes h).trans (congrArg (next s) (Chip.takeAbort_aborts ((s.chip.taken_ofCluster f f).trans hc) ((s.chip.taken_formed f).trans hf) hl h16 h31)),
      fun q hq => ?_⟩
    dsimp only
    rw [← (Only.taken (f := f) s.chip).sq (by decide) q]
    exact Chip.abortBarrier_stops _ _ _ _ hq
  · obtain ⟨cause, hstep⟩ := barrierTimeout_master hm ha ho
    refine ⟨_, (exec_barrierTimeout k s).trans (congrArg (next s) hstep), fun q hq => ?_⟩
    dsimp only
    rw [← (Only.sendCluster (t := 8) (d := 0xFF) (b := be 1 (16 + k.val) ++ be 2 (s.chip.barrier (16 + k.val)).generation ++ be 1 cause) s.chip).sq (by decide) q]
    exact Chip.abortBarrier_stops _ _ _ _ hq
  · refine ⟨_, (exec_barrierTimeout k s).trans (congrArg (next s) (barrierTimeout_standalone hf hh hl ho)), fun q hq => ?_⟩
    dsimp only
    exact Chip.abortBarrier_stops _ _ _ _ hq
  · exact (exec_barrierTimeout k s).trans (congrArg (next s) (barrierTimeout_member hf hm))
  · exact (exec_barrierTimeout k s).trans (congrArg (next s) (barrierTimeout_master_early hm ho))
  · exact (exec_barrierTimeout k s).trans (congrArg (next s) (barrierTimeout_early hm ho))

end Sys2Proof.Machine
end

section
/-! SUPPORT. The ring: link, HELLO, positions, leaving and rejoining (R422, R427 to R429, R442 to R444). -/

namespace Sys2Proof.Machine

/-- The serial number is as before where the life cycle, which holds the fuses, is unchanged. -/
theorem Only.serial {a b : Chip} {ps : List Part} (h : Only ps a b) (hl : Part.life ∉ ps := by decide) : b.serial = a.serial := by
  have hlife : b.life = a.life := h .life hl
  unfold Chip.serial Chip.fuseUsed Chip.sound Chip.fuse
  rw [hlife]

/-! ## Masters and forming (R429, R431) -/

theorem Only.setMaster {n} (s : Chip) : Only [.cluster] s (s.setMaster n) := by
  unfold Chip.setMaster
  exact Only.ite (Only.refl s _) (Only.modCluster s)

/-- A new master changes who the master is, what it is sent again, and the barriers' arrivals. -/
theorem Chip.cluster_setMaster (s : Chip) (n : Nat) :
    (s.setMaster n).cluster = { s.cluster with
      master := n, resendArrive := (s.setMaster n).cluster.resendArrive, barriers := (s.setMaster n).cluster.barriers } := by
  unfold Chip.setMaster
  split
  next h => rw [← h]
  next => rfl

/-- A cluster forms at its master, or nothing happens. -/
def Chip.formedNow (s : Chip) : Chip := s.modCluster fun c => { c with state := .formed, cause := 0, lastSync := s.clk.ticks, adopted := true }

theorem Chip.tryForm_cases (s : Chip) : s.tryForm = s ∨ (s.elected = true ∧ s.tryForm = s.formedNow) := by
  unfold Chip.tryForm
  dsimp only
  split
  next => exact .inl rfl
  next h =>
    split
    next => exact .inr ⟨by simpa using (not_or.mp h).1, rfl⟩
    next => exact .inl rfl

theorem Only.tryForm (s : Chip) : Only [.cluster] s s.tryForm := by
  rcases s.tryForm_cases with h | ⟨-, h⟩ <;> rw [h]
  · exact Only.refl s _
  · exact Only.modCluster s

/-- Forming changes the state, its cause and the time's adoption. -/
theorem Chip.cluster_tryForm (s : Chip) :
    s.tryForm.cluster = { s.cluster with
      state := s.tryForm.cluster.state, cause := s.tryForm.cluster.cause, lastSync := s.tryForm.cluster.lastSync, adopted := s.tryForm.cluster.adopted } := by
  rcases s.tryForm_cases with h | ⟨-, h⟩
  · rw [h]
  · rw [h]
    rfl

/-- A refused device does not form. -/
theorem Chip.tryForm_refused {s : Chip} (h : s.cluster.state = .refused) : s.tryForm = s := by
  refine s.tryForm_cases.resolve_right fun ⟨helected, _⟩ => ?_
  unfold Chip.elected at helected
  rw [h] at helected
  simp at helected

/-! ## The link (R422, R442) -/

/-- A link that is up. -/
def Chip.linked (s : Chip) : Chip := s.modCluster fun c => { c with linkUp := true, state := if c.state = .linkDown then .ringOpen else c.state }

theorem linkUp_up {s : Chip} (hr : s.runs 10 = true) (hc : s.clk.refLost = false) : linkUp s = s.linked := if_neg (by simp [hr, hc])

theorem linkUp_none {s : Chip} (h : s.runs 10 = false ∨ s.clk.refLost = true) : linkUp s = s := if_pos h

/-- A link that is down. -/
def Chip.unlinked (s : Chip) : Chip := (s.openRing .linkDown).modCluster fun c => { c with linkUp := false }

theorem Only.unlinked (s : Chip) : Only [.cluster] s s.unlinked := (Only.openRing s).comp (Only.modCluster _)

/-- Where every flow ends, none is left. -/
theorem Cluster.endFlows_all (c : Cluster) : (c.endFlows fun _ => true).flows = [] := List.filter_eq_nil_iff.mpr fun _ _ => by simp

section
variable {s : Chip}

/-- The ring of a member opens, which stays a member with its flows. -/
theorem Chip.openRing_member {x : ClState} (h : s.cluster.state = .formed ∨ s.cluster.state = .holdOver) :
    (s.openRing x).cluster = { s.cluster with
      size := 0, position := 0xFE, upstream := [], calibrating := false, calSums := [], flagFormed := false } := by
  have hkeep : (s.formed || s.cluster.state == .holdOver) = true := by
    unfold Chip.formed
    rcases h with h | h <;> rw [h] <;> rfl
  unfold Chip.openRing
  dsimp only
  rw [hkeep]
  simp [Chip.modCluster]

/-- The ring of another device opens, whose flows end. -/
theorem Chip.openRing_other {x : ClState} (h1 : s.cluster.state ≠ .formed) (h2 : s.cluster.state ≠ .holdOver) :
    (s.openRing x).cluster.size = 0 ∧ (s.openRing x).cluster.position = 0xFE ∧ (s.openRing x).cluster.flows = [] ∧
      (s.openRing x).cluster.state = if s.cluster.state = .left then .left else x := by
  have hkeep : (s.formed || s.cluster.state == .holdOver) = false := by
    unfold Chip.formed
    rw [beq_eq_false_iff_ne.mpr h1, beq_eq_false_iff_ne.mpr h2]
    rfl
  unfold Chip.openRing
  dsimp only
  rw [hkeep]
  refine ⟨rfl, rfl, Cluster.endFlows_all _, ?_⟩
  show (if false = true ∨ s.cluster.state = .left then s.cluster.state else x) = _
  by_cases hl : s.cluster.state = .left <;> simp [hl]

end

/-! ## HELLO (R427 to R429) -/

/-- The HELLO of a device whose link is in state `k`. -/
def Chip.helloFrame (s : Chip) (k : Cluster) : Frame :=
  { type := 1, cluster := 0xFF, src := k.position, dst := 0xFF, seq := 0
    payload := be 4 s.serial ++ be 1 (if k.state = .left then 0xFF else k.clusterId.toNat) ++ be 1 k.priority.toNat ++ be 1 1 ++ be 4 s.serial ++
      be 1 k.priority.toNat ++ be 2 k.hopLength }

/-- The link with the stored settings, where the ring is open. -/
def Chip.helloCluster (s : Chip) : Cluster := if s.cluster.size = 0 then s.cluster.takeStored else s.cluster

/-- The stored settings change who the device is in its cluster, nothing of the ring and its frames. -/
theorem Cluster.takeStored_keeps (c : Cluster) : c.takeStored.tx = c.tx ∧ c.takeStored.txUntil = c.txUntil ∧ c.takeStored.size = c.size ∧
    c.takeStored.flows = c.flows ∧ (c.state ≠ .left → c.takeStored.state ≠ .left) := by
  unfold Cluster.takeStored
  dsimp only
  split
  · exact ⟨rfl, rfl, rfl, rfl, id⟩
  · exact ⟨rfl, rfl, rfl, rfl, fun _ => by simp⟩

theorem helloSend_none {s : Chip} (h : s.cluster.linkUp = false ∨ s.transmits = false) : helloSend s = s := if_pos h

theorem helloSend_sends {s : Chip} (hl : s.cluster.linkUp = true) (ht : s.transmits = true) :
    helloSend s = (s.modCluster fun _ => s.helloCluster).sendFrame (s.helloFrame s.helloCluster) := by
  unfold helloSend Chip.helloCluster
  rw [if_neg (by simp [hl, ht])]
  split <;> rfl

theorem Chip.handed_hello (s : Chip) :
    Handed (s.helloFrame s.helloCluster) false s ((s.modCluster fun _ => s.helloCluster).sendFrame (s.helloFrame s.helloCluster)) := by
  have hkeeps : s.helloCluster.tx = s.cluster.tx ∧ s.helloCluster.txUntil = s.cluster.txUntil := by
    unfold Chip.helloCluster
    split
    · exact ⟨s.cluster.takeStored_keeps.1, s.cluster.takeStored_keeps.2.1⟩
    · exact ⟨rfl, rfl⟩
  exact (handed_sendFrame (f := s.helloFrame s.helloCluster) (by unfold Chip.helloFrame; simp) (by unfold Chip.helloFrame; simp) _).before
    (Only.modCluster s) hkeeps.1 hkeeps.2

theorem Only.takePositions {l} (s : Chip) : Only [.cluster] s (s.takePositions l) := Only.modCluster s

theorem Only.assignPositions {n} (s : Chip) : Only [.cluster, .out] s (s.assignPositions n) := by
  unfold Chip.assignPositions
  exact Only.ite (Only.refl s _) (((Only.takePositions s).mono (by simp)).comp (Only.sendFrame _))

theorem Chip.size_handFrame (s : Chip) (t : TxFrame) : (s.handFrame t).cluster.size = s.cluster.size :=
  (congrArg Cluster.size (Chip.cluster_handFrame t s)).trans rfl

theorem Chip.size_assignPositions (s : Chip) (n : Nat) : (s.assignPositions n).cluster.size = s.cluster.size := by
  unfold Chip.assignPositions
  dsimp only
  split
  · rfl
  · exact Chip.size_handFrame _ _

/-- A device with a position assigns none. -/
theorem Chip.assignPositions_placed {s : Chip} (n : Nat) (h : s.cluster.position ≠ 0xFE) : s.assignPositions n = s := if_pos (.inl h)

/-- The size of a ring that has closed, where it is new. -/
def Chip.ringSized (s : Chip) (n : Nat) : Chip :=
  if s.cluster.size != n then s.modCluster fun c =>
    let c := c.takeStored
    { c with
      size := n, upstream := c.upstream.filter (·.1 < n), position := 0xFE
      state := if c.state = .formed ∨ c.state = .holdOver ∨ c.state = .left then c.state else .closed
      cause := if c.state = .left then c.cause else 0 }
  else s

/-- A ring of more than 8 devices. -/
def Chip.ringTooLarge (s : Chip) : Chip :=
  s.modCluster fun c => { c with state := if c.state = .left then .left else .refused, cause := if c.state = .left then c.cause else 3 }

/-- The master that the best pair names, unless it has gone. -/
def Chip.nameMaster (s : Chip) (best : Nat) : Chip :=
  if s.standing = false then s.modCluster fun c => { c with master := 0 }
  else if (s.cluster.ring.any fun m => m.serial == best && (m.lost || m.state == 7)) = true then s else s.setMaster best

theorem Chip.ringClosed_eq (s : Chip) (f : Frame) :
    s.ringClosed f = if 8 < byteAt f.payload 6 then (s.ringSized (byteAt f.payload 6)).ringTooLarge
      else (((s.ringSized (byteAt f.payload 6)).assignPositions (byteAt f.payload 6)).nameMaster (beNat (slice f.payload 7 4))).tryForm := rfl

theorem Only.ringSized {n} (s : Chip) : Only [.cluster] s (s.ringSized n) := Only.ite (Only.modCluster s) (Only.refl s _)

theorem Only.nameMaster {n} (s : Chip) : Only [.cluster] s (s.nameMaster n) :=
  Only.ite (Only.modCluster s) (Only.ite (Only.refl s _) (Only.setMaster s))

theorem Only.ringClosed {f} (s : Chip) : Only [.cluster, .out] s (s.ringClosed f) := by
  rw [Chip.ringClosed_eq]
  refine Only.ite (((Only.ringSized s).comp (Only.modCluster _)).mono (by simp)) ?_
  exact ((((Only.ringSized s).mono (by simp)).comp (Only.assignPositions _)).comp ((Only.nameMaster _).mono (by simp))).comp ((Only.tryForm _).mono (by simp))

theorem Chip.size_ringSized (s : Chip) (n : Nat) : (s.ringSized n).cluster.size = n := by
  unfold Chip.ringSized
  split
  next => rfl
  next h => simpa using h

theorem Chip.ringSized_same {s : Chip} {n : Nat} (h : s.cluster.size = n) : s.ringSized n = s := if_neg (by simp [h])

theorem Chip.size_nameMaster (s : Chip) (n : Nat) : (s.nameMaster n).cluster.size = s.cluster.size := by
  unfold Chip.nameMaster
  split
  · rfl
  · split
    · rfl
    · exact (congrArg Cluster.size (Chip.cluster_setMaster s n)).trans rfl

theorem Chip.size_ringClosed (s : Chip) (f : Frame) : (s.ringClosed f).cluster.size = byteAt f.payload 6 := by
  rw [Chip.ringClosed_eq]
  split
  · exact s.size_ringSized _
  · refine ((congrArg Cluster.size (Chip.cluster_tryForm _)).trans rfl).trans ?_
    rw [Chip.size_nameMaster, Chip.size_assignPositions, Chip.size_ringSized]

/-- A device that has not left its cluster has not left it where the ring closes. -/
theorem Chip.ringSized_state {s : Chip} (n : Nat) (h : s.cluster.state ≠ .left) : (s.ringSized n).cluster.state ≠ .left := by
  have hstored := s.cluster.takeStored_keeps.2.2.2.2 h
  unfold Chip.ringSized
  split
  · show (if s.cluster.takeStored.state = .formed ∨ s.cluster.takeStored.state = .holdOver ∨ s.cluster.takeStored.state = .left
      then s.cluster.takeStored.state else .closed) ≠ .left
    split
    · exact hstored
    · simp
  · exact h

theorem Chip.ringClosed_tooLarge {s : Chip} {f : Frame} (h8 : 8 < byteAt f.payload 6) (h : s.cluster.state ≠ .left) :
    (s.ringClosed f).cluster.state = .refused ∧ (s.ringClosed f).cluster.cause = 3 := by
  rw [Chip.ringClosed_eq, if_pos h8]
  have hstate := Chip.ringSized_state (s := s) (byteAt f.payload 6) h
  exact ⟨if_neg hstate, if_neg hstate⟩

theorem Chip.ringClosed_master {s : Chip} {f : Frame} (h8 : byteAt f.payload 6 ≤ 8) (hs : s.cluster.size = byteAt f.payload 6) (hst : s.standing = true)
    (hp : s.cluster.position ≠ 0xFE) (hg : ∀ m ∈ s.cluster.ring, m.serial = beNat (slice f.payload 7 4) → m.lost = false ∧ m.state ≠ 7) :
    (s.ringClosed f).cluster.master = beNat (slice f.payload 7 4) := by
  have hnamed : s.nameMaster (beNat (slice f.payload 7 4)) = s.setMaster (beNat (slice f.payload 7 4)) := by
    unfold Chip.nameMaster
    rw [if_neg (by simp [hst]), if_neg]
    intro hgone
    obtain ⟨m, hm, hb⟩ := List.any_eq_true.mp hgone
    rw [Bool.and_eq_true, beq_iff_eq] at hb
    obtain ⟨hlost, hstate⟩ := hg m hm hb.1
    simp only [hlost, Bool.false_or, beq_iff_eq] at hb
    exact hstate hb.2
  rw [Chip.ringClosed_eq, if_neg (Nat.not_lt.mpr h8), Chip.ringSized_same hs, Chip.assignPositions_placed _ hp, hnamed]
  exact ((congrArg Cluster.master (Chip.cluster_tryForm _)).trans rfl).trans ((congrArg Cluster.master (Chip.cluster_setMaster s _)).trans rfl)

/-- The HELLO that a device passes on: one hop further, with its own pair where that is better. -/
def Chip.passedHello (s : Chip) (p : Bytes) : Bytes :=
  let replace : Bool := s.standing && byteAt p 4 == s.cluster.clusterId.toNat && better (s.cluster.priority.toNat, s.serial) (byteAt p 11, beNat (slice p 7 4))
  slice p 0 6 ++ be 1 (byteAt p 6 + 1) ++ (if replace then be 4 s.serial ++ be 1 s.cluster.priority.toNat else slice p 7 5) ++ slice p 12 2

/-- A device that has noted the HELLO of another. -/
def Chip.helloNoted (s : Chip) (p : Bytes) : Chip :=
  s.modCluster fun c =>
    { c with upstream := c.upstream.put (byteAt p 6) (helloMember p {})
             ring := c.ring.map fun m => if m.serial = beNat (slice p 0 4) then helloMember p m else m }

theorem Chip.passHello_eq (s : Chip) (f : Frame) : s.passHello f = (s.helloNoted f.payload).forwardFrame { f with payload := s.passedHello f.payload } := rfl

theorem Chip.upstream_handFrame (s : Chip) (t : TxFrame) : (s.handFrame t).cluster.upstream = s.cluster.upstream :=
  (congrArg Cluster.upstream (Chip.cluster_handFrame t s)).trans rfl

theorem Chip.upstream_passed (s : Chip) (p : Bytes) (g : Frame) :
    ((s.helloNoted p).forwardFrame g).cluster.upstream = s.cluster.upstream.put (byteAt p 6) (helloMember p {}) :=
  Chip.upstream_handFrame (s.helloNoted p) { frame := g, forwarded := true }

theorem slice_length (b : Bytes) {i n : Nat} (h : i + n ≤ b.length) : (slice b i n).length = n := by
  unfold slice
  rw [List.length_take, List.length_drop]
  omega

theorem Chip.passedHello_shape (s : Chip) {p : Bytes} (h : p.length = 14) :
    (s.passedHello p).length = 14 ∧ (s.passedHello p).take 6 = p.take 6 ∧ byteAt (s.passedHello p) 6 = (byteAt p 6 + 1) % 256 := by
  have hpair : ∀ b : Bool, (if b = true then be 4 s.serial ++ be 1 s.cluster.priority.toNat else slice p 7 5).length = 5 := fun b => by
    split
    · simp
    · exact slice_length p (by omega)
  have hhead : (slice p 0 6).length = 6 := slice_length p (by omega)
  have htail : (slice p 12 2).length = 2 := slice_length p (by omega)
  unfold Chip.passedHello
  extract_lets replace
  refine ⟨?_, ?_, ?_⟩
  · rw [List.length_append, List.length_append, List.length_append, hhead, be_length, hpair, htail]
  · rw [List.append_assoc, List.append_assoc, List.take_append_of_le_length (Nat.le_of_eq hhead.symm), List.take_of_length_le (Nat.le_of_eq hhead)]
    rfl
  · unfold byteAt
    rw [List.append_assoc, List.append_assoc, List.getD_append_right _ _ _ _ (Nat.le_of_eq hhead), hhead]
    rfl

/-! ## CAL-RESULT (R428, R435) -/

/-- A device with the positions of a CAL-RESULT, where it has none or others. -/
def Chip.placedBy (s : Chip) (serials : List Nat) : Chip :=
  if s.cluster.position = 0xFE ∨ s.cluster.ring.map (·.serial) ≠ serials then s.takePositions serials else s

theorem Chip.takeCalResult_eq {s : Chip} {f : Frame} {e : Nat × Nat} (h : (calEntries f.payload).find? (·.1 == s.serial) = some e) :
    ∃ k : Cluster, s.takeCalResult f = (s.placedBy ((calEntries f.payload).map (·.1))).modCluster (fun _ => k) ∧
      k.hopNext = some e.2 ∧ k.position = (s.placedBy ((calEntries f.payload).map (·.1))).cluster.position := by
  unfold Chip.takeCalResult
  dsimp only
  rw [h]
  refine ⟨_, rfl, ?_, ?_⟩
  · split <;> rfl
  · split <;> rfl

theorem Only.placedBy {l} (s : Chip) : Only [.cluster] s (s.placedBy l) := Only.ite (Only.takePositions s) (Only.refl s _)

theorem Chip.placedBy_position {s : Chip} (l : List Nat) (h : s.cluster.position = 0xFE) : (s.placedBy l).cluster.position = l.findIdx (· == s.serial) := by
  unfold Chip.placedBy
  rw [if_pos (.inl h)]
  rfl

/-! ## Leaving and rejoining (R443, R444) -/

/-- A device that has left its cluster. -/
def Chip.leftCluster (s : Chip) : Chip :=
  (s.modCluster fun c =>
    { c with state := .left, cause := 4, adopted := false, goodSyncs := 0, adjust := 0, slewing := false, timeBad := false, digestBad := false, master := 0 }).markHeld

theorem Only.leftCluster (s : Chip) : Only [.cluster, .seqs] s s.leftCluster := ((Only.modCluster s).mono (by simp)).comp ((Only.markHeld _).mono (by simp))

theorem Chip.leftCluster_reads (s : Chip) : s.leftCluster.cluster.state = .left ∧ s.leftCluster.cluster.cause = 4 ∧ s.leftCluster.cluster.flows = s.cluster.flows := by
  have hcluster : s.leftCluster.cluster = _ := (Only.markHeld _) .cluster (by decide)
  rw [hcluster]
  exact ⟨rfl, rfl, rfl⟩

/-- The settings that a rejoin brings into force. -/
def Cluster.rejoin (c : Cluster) : Cluster :=
  let c := c.takeStored
  { c with state := if c.clusterId = 0xFF then .closed else .forming, cause := 0, adopted := false, flagFormed := false }

theorem Cluster.rejoin_reads (c : Cluster) : c.rejoin.clusterId = c.clusterStored ∧ c.rejoin.priority = c.priorityStored ∧ c.rejoin.hopLength = c.hopStored ∧
    c.rejoin.cause = 0 ∧ c.rejoin.adopted = false ∧ c.rejoin.state = if c.clusterStored = 0xFF then .closed else .forming := by
  unfold Cluster.rejoin Cluster.takeStored
  dsimp only
  split <;> exact ⟨rfl, rfl, rfl, rfl, rfl, rfl⟩

/-- A device that elects with the settings of its rejoin. -/
def Chip.rejoined (s : Chip) : Chip :=
  let d := s.modCluster Cluster.rejoin
  if d.standing then d.setMaster d.elect else d

theorem Only.rejoined (s : Chip) : Only [.cluster] s s.rejoined :=
  Only.ite ((Only.modCluster s).comp (Only.setMaster _)) (Only.modCluster s)

theorem clusterRejoin_formed (r : Req) {c : Chip} (hs : c.cluster.size ≠ 0) (hf : c.formed = true) : clusterRejoin r c = (c, ok) := (if_neg hs).trans (if_pos hf)

theorem clusterRejoin_joins (r : Req) {c : Chip} (hs : c.cluster.size ≠ 0) (hf : c.formed = false) : clusterRejoin r c = (c.rejoined.tryForm, ok) :=
  (if_neg hs).trans (if_neg (by simp [hf]))

/-- The election leaves the settings. -/
theorem Chip.cluster_rejoined (s : Chip) :
    s.rejoined.cluster = { s.cluster.rejoin with
      master := s.rejoined.cluster.master, resendArrive := s.rejoined.cluster.resendArrive, barriers := s.rejoined.cluster.barriers } := by
  unfold Chip.rejoined
  dsimp only
  split
  · rw [Chip.cluster_setMaster]
    rfl
  · rfl

/-- A device that rejoins: its settings, and whether its cluster forms at once. -/
structure Rejoins (c : Cluster) (k : Cluster) : Prop where
  clusterId : k.clusterId = c.clusterStored
  priority : k.priority = c.priorityStored
  hopLength : k.hopLength = c.hopStored
  cause : k.cause = 0
  adopted : k.adopted = false ∨ k.state = .formed
  alone : c.clusterStored = 0xFF → k.state = .closed
  joins : c.clusterStored ≠ 0xFF → k.state = .forming ∨ k.state = .formed

theorem Chip.rejoined_rejoins (s : Chip) : Rejoins s.cluster s.rejoined.tryForm.cluster := by
  have hk := s.cluster_rejoined
  obtain ⟨hid, hprio, hhop, hcause, hadopted, hstate⟩ := s.cluster.rejoin_reads
  have hreads : Rejoins s.cluster s.rejoined.cluster := by
    rw [hk]
    exact ⟨hid, hprio, hhop, hcause, .inl hadopted, fun h => hstate.trans (if_pos h), fun h => .inl (hstate.trans (if_neg h))⟩
  rcases s.rejoined.tryForm_cases with h | ⟨helected, h⟩
  · rw [h]
    exact hreads
  · rw [h]
    refine ⟨hreads.clusterId, hreads.priority, hreads.hopLength, rfl, .inr rfl, fun hff => ?_, fun _ => .inr rfl⟩
    have hstanding : s.rejoined.standing = true := by
      unfold Chip.elected Chip.named at helected
      simp only [Bool.and_eq_true] at helected
      exact helected.1.1.1.1.1
    unfold Chip.standing at hstanding
    rw [hreads.clusterId, hff] at hstanding
    simp at hstanding

/-! ## O48 -/

theorem exec_linkUp (s : State) : exec .linkUp s = next s (linkUp s.chip) := rfl
theorem exec_helloSend (s : State) : exec .helloSend s = next s (helloSend s.chip) := rfl

theorem exec_linkDown {s : State} (h : s.chip.runs 10 = true) : exec .linkDown s = next s s.chip.unlinked := congrArg (next s) (if_neg (by simp [h]))

theorem exec_linkDown_none {s : State} (h : s.chip.runs 10 = false) : exec .linkDown s = .next s := congrArg (next s) (if_pos h)

section
variable {b : Bytes} {f : Frame} {s : State}

theorem exec_hello_own (h : Hears 1 b s.chip f) (hl : f.payload.length = 14) (hs : beNat (slice f.payload 0 4) = s.chip.serial) :
    exec (.hello b) s = next s (s.chip.countedFrame.ringClosed f) := by
  refine congrArg (next s) (?_ : hello b s.chip = _)
  unfold hello
  rw [Chip.hear_heard h]
  exact (if_neg (not_not.mpr hl)).trans (if_pos (hs.trans (Only.countedFrame s.chip).serial.symm))

theorem exec_hello_other (h : Hears 1 b s.chip f) (hl : f.payload.length = 14) (hs : beNat (slice f.payload 0 4) ≠ s.chip.serial) :
    exec (.hello b) s = next s (s.chip.countedFrame.passHello f) := by
  refine congrArg (next s) (?_ : hello b s.chip = _)
  unfold hello
  rw [Chip.hear_heard h]
  exact (if_neg (not_not.mpr hl)).trans (if_neg fun he => hs (he.trans (Only.countedFrame s.chip).serial))

theorem exec_calResult_takes (h : Takes 4 b s.chip f) : exec (.calResult b) s = next s ((s.chip.taken f).takeCalResult f) :=
  congrArg (next s) (Chip.onFrame_takes Chip.takeCalResult h)

end

theorem exec_clusterLeave {p : Path} {tag : Word16} {s : State} {r : Req} {c : Chip} (h : gate p tag 0x4A00 0x11 [1] (fun _ _ => 0) s.chip = .go r c) :
    exec (.clusterLeave p tag) s = next s (Chip.finish r.dest (clusterLeave r c)) := congrArg (next s) (hostWrite_go h)

theorem finish_ok (t : Target) (c : Chip) : Chip.finish t (c, ok) = c.complete t 0 [] 0 := rfl

theorem clusterLeave_leaves (r : Req) (c : Chip) : clusterLeave r c = (c.leftCluster, ok) := rfl

/-- Settles O48, command by command. -/
theorem linkAndRingRows : Obligations.LinkAndRingRows := by
  unfold Obligations.LinkAndRingRows
  refine ⟨fun s => ⟨fun hr hc => ?_, fun h => ?_, fun h => exec_linkDown_none h⟩, fun s h => ?_, fun s => ⟨fun h => ?_, fun hl ht => ?_⟩,
    fun b f s h hl hs => ?_, fun b f s h hl hs => ?_, fun b f s e h he => ?_, fun p tag s r c h => ?_, fun p tag s r c h hs => ⟨fun hf => ?_, fun hf => ?_⟩⟩
  · exact ⟨_, (exec_linkUp s).trans (congrArg (next s) (linkUp_up hr hc)), rfl, rfl, Within.ofChip (Only.modCluster s.chip)⟩
  · exact (exec_linkUp s).trans (congrArg (next s) (linkUp_none h))
  · by_cases hm : s.chip.cluster.state = .formed ∨ s.chip.cluster.state = .holdOver
    · have hopen := Chip.openRing_member (x := .linkDown) hm
      refine ⟨_, exec_linkDown h, rfl, (congrArg Cluster.size hopen).trans rfl, (congrArg Cluster.position hopen).trans rfl,
        fun _ => ⟨(congrArg Cluster.state hopen).trans rfl, (congrArg Cluster.flows hopen).trans rfl⟩, fun h1 h2 => absurd hm (by simp [h1, h2]), Within.ofChip (Only.unlinked s.chip)⟩
    · obtain ⟨h1, h2⟩ := not_or.mp hm
      obtain ⟨hsize, hpos, hflows, hstate⟩ := Chip.openRing_other (x := .linkDown) h1 h2
      exact ⟨_, exec_linkDown h, rfl, hsize, hpos, fun hm' => absurd hm' hm, fun _ _ => ⟨hflows, hstate⟩, Within.ofChip (Only.unlinked s.chip)⟩
  · exact (exec_helloSend s).trans (congrArg (next s) (helloSend_none h))
  · refine ⟨_, s.chip.helloCluster, (exec_helloSend s).trans (congrArg (next s) (helloSend_sends hl ht)), rfl, ?_, s.chip.handed_hello,
      Within.ofChip (((Only.modCluster s.chip).mono (by simp)).comp (Only.sendFrame _))⟩
    exact Chip.cluster_handFrame _ (s.chip.modCluster fun _ => s.chip.helloCluster)
  · refine ⟨_, exec_hello_own h hl hs, ?_⟩
    dsimp only
    exact ⟨Chip.size_ringClosed _ f, Within.ofChip (((Only.countedFrame s.chip).mono (by simp)).comp (Only.ringClosed _)),
      fun h8 hst => Chip.ringClosed_tooLarge (s := s.chip.countedFrame) h8 hst,
      fun h8 hz hst hp hg => Chip.ringClosed_master (s := s.chip.countedFrame) h8 hz hst hp hg⟩
  · obtain ⟨hlen, htake, hhop⟩ := s.chip.countedFrame.passedHello_shape hl
    refine ⟨_, s.chip.countedFrame.passedHello f.payload, (exec_hello_other h hl hs).trans (congrArg (next s) (Chip.passHello_eq ..)), hlen, htake, hhop, ?_⟩
    dsimp only
    refine ⟨?_, ?_, Within.ofChip ((((Only.countedFrame s.chip).comp (Only.modCluster _)).mono (by simp)).comp (Only.forwardFrame _))⟩
    · exact (handed_forwardFrame _ _).before ((Only.countedFrame s.chip).comp (Only.modCluster _)) rfl rfl
    · rw [Chip.upstream_passed, SMap.find_put, if_pos rfl]
      rfl
  · have htaken := Only.taken (f := f) s.chip
    have he' : (calEntries f.payload).find? (·.1 == (s.chip.taken f).serial) = some e := by rw [htaken.serial]; exact he
    obtain ⟨k, hstep, hhop, hpos⟩ := Chip.takeCalResult_eq he'
    refine ⟨_, (exec_calResult_takes h).trans (congrArg (next s) hstep), hhop, fun hfe => ?_,
      Within.ofChip ((htaken.comp ((Only.placedBy _).mono (by simp))).comp ((Only.modCluster _).mono (by simp)))⟩
    have hfe' : (s.chip.taken f).cluster.position = 0xFE := ((congrArg Cluster.position (s.chip.cluster_taken f)).trans rfl).trans hfe
    refine hpos.trans ((Chip.placedBy_position _ hfe').trans ?_)
    rw [htaken.serial, List.findIdx_map]
    rfl
  · obtain ⟨hstate, hcause, hflows⟩ := c.leftCluster_reads
    have hexec := exec_clusterLeave h
    rw [clusterLeave_leaves, finish_ok] at hexec
    exact ⟨c.leftCluster, hexec, hstate, hcause, hflows, Only.leftCluster c⟩
  · exact (exec_clusterRejoin h).trans (congrArg (fun x => next s (Chip.finish r.dest x)) (clusterRejoin_formed r hs hf))
  · obtain ⟨hid, hprio, hhop, hcause, hadopted, halone, hjoins⟩ := c.rejoined_rejoins
    have hexec := exec_clusterRejoin h
    rw [clusterRejoin_joins r hs hf, finish_ok] at hexec
    exact ⟨c.rejoined.tryForm, hexec, hid, hprio, hhop, hcause, hadopted,
      halone, hjoins, (Only.rejoined c).comp (Only.tryForm _)⟩

end Sys2Proof.Machine
end

section
/-! SUPPORT. The members of a cluster: heartbeats, comparison, lost members and formation (R430 to R432). -/

namespace Sys2Proof.Machine

/-! ## What a comparison reaches (R432) -/

/-- From `c` to `d` only what a comparison finds has changed, and what completing barriers sends. -/
def Compared (c d : Cluster) : Prop :=
  d = { c with
    disagreements := d.disagreements, timeBad := d.timeBad, digestBad := d.digestBad, barriers := d.barriers, sent := d.sent, tx := d.tx, txUntil := d.txUntil }

section
variable {c d e : Cluster}

theorem Compared.refl (c : Cluster) : Compared c c := rfl

theorem Compared.trans (h : Compared c d) (k : Compared d e) : Compared c e := by
  unfold Compared at *
  rw [k, h]

/-- What a comparison leaves. -/
theorem Compared.field {α : Type _} (h : Compared c d) (g : Cluster → α) :
    g d = g { c with
      disagreements := d.disagreements, timeBad := d.timeBad, digestBad := d.digestBad, barriers := d.barriers, sent := d.sent, tx := d.tx, txUntil := d.txUntil } :=
  congrArg g h

end

theorem Compared.only {a b : Chip} {ps : List Part} (h : Only ps a b) (hp : Part.cluster ∉ ps := by decide) : Compared a.cluster b.cluster := by
  have hcluster : b.cluster = a.cluster := h .cluster hp
  rw [hcluster]
  exact Compared.refl _

theorem Compared.ite {a b c : Chip} {p : Prop} [Decidable p] (h : Compared a.cluster b.cluster) (k : Compared a.cluster c.cluster) :
    Compared a.cluster (if p then b else c).cluster := by
  split <;> assumption

theorem Compared.foldl {α : Type _} (f : Chip → α → Chip) (h : ∀ s x, Compared s.cluster (f s x).cluster) (l : List α) (s : Chip) :
    Compared s.cluster (l.foldl f s).cluster := by
  induction l generalizing s with
  | nil => exact Compared.refl _
  | cons x l ih => exact (h s x).trans (ih (f s x))

theorem Compared.modCluster {f : Cluster → Cluster} (s : Chip) (h : ∀ c, Compared c (f c)) : Compared s.cluster (s.modCluster f).cluster := h s.cluster

theorem Compared.handFrame (s : Chip) (t : TxFrame) : Compared s.cluster (s.handFrame t).cluster := by
  have hcluster := Chip.cluster_handFrame t s
  generalize (s.handFrame t).cluster = d at hcluster ⊢
  unfold Compared
  rw [hcluster]

theorem Compared.completeBarrier (s : Chip) (b : Nat) : Compared s.cluster (s.completeBarrier b).cluster := by
  have hmod : ∀ (c : Chip) {f}, Compared c.cluster (c.modBarrier b f).cluster := fun _ _ => rfl
  unfold Chip.completeBarrier
  refine Compared.ite (Compared.refl _) (Compared.ite (Compared.ite (Compared.refl _) ?_) (Compared.ite (hmod s) ?_))
  · exact (hmod s).trans (Compared.only (Only.record _))
  · exact ((Compared.handFrame s _).trans (hmod _)).trans (Compared.only (Only.releaseBarrier _))

theorem Compared.disagree (s : Chip) (kind pos : Nat) (holds : Bool) : Compared s.cluster (s.disagree kind pos holds).cluster := by
  unfold Chip.disagree
  refine Compared.ite (Compared.refl _) (Compared.ite ?_ ?_)
  · exact Compared.trans (Compared.modCluster s (by exact fun _ => rfl)) (Compared.only (Only.record _))
  · exact Compared.trans (Compared.modCluster s (by exact fun _ => rfl)) (Compared.only (Only.record _))

theorem Only.disagree {k p h} (s : Chip) : Only [.cluster, .recorder] s (s.disagree k p h) := by
  unfold Chip.disagree
  refine Only.ite (Only.refl s _) (Only.ite ?_ ?_)
  · exact ((Only.modCluster s).mono (by simp)).comp ((Only.record _).mono (by simp))
  · exact ((Only.modCluster s).mono (by simp)).comp ((Only.record _).mono (by simp))

/-- The comparison with one member. -/
def Chip.compareOne (ref : Bytes) (s : Chip) (p : Nat) : Chip :=
  let m := s.cluster.ring.getD p {}
  let arm : Bool := m.armDigest.any (· != 0) && m.armDigest != ref
  let s := ((s.disagree 1 p (m.heard && m.digest != s.boot.digest)).disagree 2 p (m.heard && m.life != BitVec.ofNat 8 s.life.state.code))
  (s.disagree 3 p (s.counts m && arm)).disagree 4 p (s.formed && s.counts m && s.timeOut m)

theorem Only.compareOne {ref p} (s : Chip) : Only [.cluster, .recorder] s (s.compareOne ref p) :=
  (((Only.disagree s).comp (Only.disagree _)).comp (Only.disagree _)).comp (Only.disagree _)

theorem Compared.compareOne (ref : Bytes) (s : Chip) (p : Nat) : Compared s.cluster (s.compareOne ref p).cluster :=
  (((Compared.disagree s ..).trans (Compared.disagree ..)).trans (Compared.disagree ..)).trans (Compared.disagree ..)

/-- What the comparisons found is the cluster's reading. -/
def Chip.readCompared (s : Chip) : Chip :=
  (s.modCluster fun c => { c with timeBad := s.cluster.disagreements.any (·.1 == 4), digestBad := s.cluster.disagreements.any (·.1 == 3) }).markHeld

theorem Only.readCompared (s : Chip) : Only [.cluster, .seqs] s s.readCompared := ((Only.modCluster s).mono (by simp)).comp ((Only.markHeld _).mono (by simp))

theorem Compared.readCompared (s : Chip) : Compared s.cluster s.readCompared.cluster :=
  Compared.trans (Compared.modCluster s (by exact fun _ => rfl)) (Compared.only (Only.markHeld _))

/-- The members compared one after another, and the device's own reading. -/
def Chip.comparedAll (s : Chip) : Chip :=
  let t := s.peers.foldl (Chip.compareOne s.armReference) s
  t.disagree 4 t.cluster.position (t.formed && t.localBad)

theorem Chip.compareMembers_eq (s : Chip) :
    s.compareMembers = if s.named = false then s else (List.range 16).foldl (fun s i => s.completeBarrier (16 + i)) s.comparedAll.readCompared := rfl

theorem Only.compareMembers (s : Chip) : Only barrierParts s s.compareMembers := by
  rw [Chip.compareMembers_eq]
  refine Only.ite (Only.refl s _) ?_
  have hall : Only [.cluster, .recorder] s s.comparedAll := (Only.foldl _ (fun s _ => Only.compareOne s) _ s).comp (Only.disagree _)
  exact ((hall.mono (by decide)).comp ((Only.readCompared _).mono (by decide))).comp (Only.foldl _ (fun s _ => Only.completeBarrier s) _ _)

theorem Compared.compareMembers (s : Chip) : Compared s.cluster s.compareMembers.cluster := by
  rw [Chip.compareMembers_eq]
  refine Compared.ite (Compared.refl _) ?_
  have hall : Compared s.cluster s.comparedAll.cluster := (Compared.foldl _ (Compared.compareOne _) _ s).trans (Compared.disagree ..)
  exact (hall.trans (Compared.readCompared _)).trans (Compared.foldl _ (fun s i => Compared.completeBarrier s (16 + i)) _ _)

/-! ## Judging a member (R431, R432) -/

/-- Codes of the life cycle fit their byte. -/
theorem LifeCycle.code_lt (x : LifeCycle) : x.code < 256 := by cases x <;> decide

theorem life_eq_iff (b : Byte) (x : LifeCycle) : b = BitVec.ofNat 8 x.code ↔ b.toNat = x.code := by
  have hlt := x.code_lt
  rw [← BitVec.toNat_inj, BitVec.toNat_ofNat, Nat.mod_eq_of_lt hlt]

/-- A refusal for a cause. -/
def Chip.refusedFor (s : Chip) (cause : Byte) : Chip := s.modCluster fun c => { c with state := .refused, cause := cause }

theorem Chip.judgeHeartbeat_cases (m : Member) (s : Chip) :
    s.judgeHeartbeat m = s ∨ (s.judgeHeartbeat m = s.refusedFor 1) ∨ s.judgeHeartbeat m = s.refusedFor 2 := by
  unfold Chip.judgeHeartbeat
  dsimp only
  split
  · exact .inl rfl
  · split
    · exact .inr (.inl rfl)
    · split
      · exact .inr (.inr rfl)
      · exact .inl rfl

theorem Only.judgeHeartbeat {m} (s : Chip) : Only [.cluster] s (s.judgeHeartbeat m) := by
  rcases s.judgeHeartbeat_cases m with h | h | h <;> rw [h]
  · exact Only.refl s _
  · exact Only.modCluster s
  · exact Only.modCluster s

/-- Judging changes the state and its cause. -/
theorem Chip.cluster_judgeHeartbeat (m : Member) (s : Chip) :
    (s.judgeHeartbeat m).cluster = { s.cluster with state := (s.judgeHeartbeat m).cluster.state, cause := (s.judgeHeartbeat m).cluster.cause } := by
  rcases s.judgeHeartbeat_cases m with h | h | h <;> rw [h]
  · rfl
  · rfl

/-- A device that judges the heartbeat of a member: it is not formed, and no cluster is. -/
structure Judges (m : Member) (s : Chip) : Prop where
  unformed : s.formed = false
  standing : s.standing = true
  held : s.cluster.state ≠ .holdOver
  present : m.state ≠ 7
  flag : s.cluster.flagFormed = false

section
variable {m : Member} {s : Chip}

theorem Judges.not_exempt (h : Judges m s) : ¬ (s.formed = true ∨ s.standing = false ∨ s.cluster.state = .holdOver ∨ m.state = 7 ∨
    (!s.cluster.flagFormed || m.serial == s.cluster.master) = false) := by
  obtain ⟨h1, h2, h3, h4, h5⟩ := h
  rintro (h | h | h | h | h)
  · rw [h1] at h; cases h
  · rw [h2] at h; cases h
  · exact h3 h
  · exact h4 h
  · rw [h5] at h; cases h

theorem Chip.judgeHeartbeat_digest (h : Judges m s) (hd : m.digest ≠ s.boot.digest) : s.judgeHeartbeat m = s.refusedFor 1 :=
  (if_neg h.not_exempt).trans (if_pos hd)

theorem Chip.judgeHeartbeat_life (h : Judges m s) (hd : m.digest = s.boot.digest) (hl : m.life ≠ BitVec.ofNat 8 s.life.state.code) :
    s.judgeHeartbeat m = s.refusedFor 2 := (if_neg h.not_exempt).trans ((if_neg (not_not.mpr hd)).trans (if_pos hl))

/-- A member that agrees is no ground for a refusal. -/
theorem Chip.judgeHeartbeat_agrees (hd : m.digest = s.boot.digest) (hl : m.life.toNat = s.life.state.code) : s.judgeHeartbeat m = s := by
  unfold Chip.judgeHeartbeat
  dsimp only
  rw [if_neg (not_not.mpr hd), if_neg (not_not.mpr ((life_eq_iff ..).mpr hl)), ite_self]

end

/-! ## Heartbeats (R430, R431) -/

theorem Chip.heartbeat_length (s : Chip) : s.heartbeat.length = 82 := by
  unfold Chip.heartbeat
  simp only [List.length_append, be_length, pad_length]

/-- A member as its heartbeat describes it. -/
def Chip.heardMember (s : Chip) (f : Frame) (m : Member) : Member := heartbeatMember f.payload s.clk.ticks (!s.cluster.timeBad) m

/-- A device that has noted a heartbeat of its cluster, and elected again where its master has left. -/
def Chip.beatNoted (s : Chip) (f : Frame) (n : Member) : Chip :=
  let t := s.modCluster fun c => { c with ring := c.ring.set f.src n }
  if n.state = 7 ∧ n.serial = t.cluster.master ∧ t.standing then t.setMaster t.elect else t

theorem Chip.takeHeartbeat_own {s : Chip} {f : Frame} {m : Member} (hc : s.ofCluster f = true) (hl : f.payload.length = 82) (hm : s.cluster.ring[f.src]? = some m)
    (hs : m.serial = beNat (slice f.payload 0 4)) :
    s.takeHeartbeat f = ((s.beatNoted f (s.heardMember f m)).judgeHeartbeat (s.heardMember f m)).tryForm.compareMembers := by
  have hget : s.cluster.ring.getD f.src {} = m := by rw [List.getD_eq_getElem?_getD, hm]; rfl
  have hlt : f.src < s.cluster.ring.length := (List.getElem?_eq_some_iff.mp hm).1
  unfold Chip.takeHeartbeat
  dsimp only
  rw [hget, if_neg (by simp [hl, hs]; omega), if_neg (by simp [hc])]
  rfl

theorem Chip.cluster_beatNoted (s : Chip) (f : Frame) (n : Member) :
    (s.beatNoted f n).cluster = { s.cluster with
      ring := s.cluster.ring.set f.src n, master := (s.beatNoted f n).cluster.master, resendArrive := (s.beatNoted f n).cluster.resendArrive
      barriers := (s.beatNoted f n).cluster.barriers } := by
  unfold Chip.beatNoted
  dsimp only
  split
  · rw [Chip.cluster_setMaster]
    rfl
  · rfl

theorem Only.beatNoted {f n} (s : Chip) : Only [.cluster] s (s.beatNoted f n) :=
  Only.ite ((Only.modCluster s).comp (Only.setMaster _)) (Only.modCluster s)

/-- The ring once a heartbeat was judged. -/
theorem Chip.ring_judged (s : Chip) (f : Frame) (n : Member) :
    ((s.beatNoted f n).judgeHeartbeat n).tryForm.compareMembers.cluster.ring = s.cluster.ring.set f.src n := by
  have hcompared : _ = Cluster.ring _ := (Compared.compareMembers ((s.beatNoted f n).judgeHeartbeat n).tryForm).field Cluster.ring
  have hformed := congrArg Cluster.ring (Chip.cluster_tryForm ((s.beatNoted f n).judgeHeartbeat n))
  have hjudged := congrArg Cluster.ring (Chip.cluster_judgeHeartbeat n (s.beatNoted f n))
  exact hcompared.trans (hformed.trans (hjudged.trans (congrArg Cluster.ring (s.cluster_beatNoted f n))))

/-- A device that is refused for a cause stays so through its comparison. -/
theorem Chip.refusedFor_compared (s : Chip) (cause : Byte) :
    (s.refusedFor cause).tryForm.compareMembers.cluster.state = .refused ∧ (s.refusedFor cause).tryForm.compareMembers.cluster.cause = cause := by
  rw [Chip.tryForm_refused rfl]
  have hc := Compared.compareMembers (s.refusedFor cause)
  exact ⟨hc.field Cluster.state, hc.field Cluster.cause⟩

/-- A device that has noted a heartbeat judges it as before. -/
theorem Chip.beatNoted_judges {s : Chip} {n : Member} (f : Frame) (h : Judges n s) : Judges n (s.beatNoted f n) := by
  obtain ⟨h1, h2, h3, h4, h5⟩ := h
  have hc := s.cluster_beatNoted f n
  refine ⟨?_, ?_, ?_, h4, ?_⟩
  · exact (congrArg (fun c : Cluster => c.state == .formed) hc).trans h1
  · exact (congrArg (fun c : Cluster => c.state != .left && c.clusterId != 0xFF) hc).trans h2
  · exact fun he => h3 ((congrArg Cluster.state hc).symm.trans he)
  · exact (congrArg Cluster.flagFormed hc).trans h5

/-! ## Lost members (R426, R431) -/

/-- Entries that a predicate of their keys keeps. -/
theorem SMap.find_filter {α : Type} (p : Nat → Bool) (m : SMap α) (k : Nat) :
    SMap.find? (List.filter (fun e : Nat × α => p e.1) m) k = if p k then SMap.find? m k else none := by
  induction m with
  | nil => exact (ite_self _).symm
  | cons e m ih =>
    obtain ⟨k', v⟩ := e
    by_cases hp : p k' = true
    · rw [List.filter_cons, if_pos hp]
      unfold SMap.find?
      by_cases hk : k = k'
      · subst hk
        rw [if_pos rfl, if_pos rfl, if_pos hp]
      · rw [if_neg hk, if_neg hk]
        exact ih
    · rw [List.filter_cons, if_neg hp, ih]
      by_cases hk : k = k'
      · subst hk
        rw [if_neg hp, if_neg hp]
      · conv_rhs => unfold SMap.find?
        rw [if_neg hk]

/-- A key that is found stands in the collection. -/
theorem SMap.mem_of_isSome {α : Type} {m : SMap α} {k : Nat} (h : (SMap.find? m k).isSome = true) : ∃ v, (k, v) ∈ m := by
  obtain ⟨v, hv⟩ := Option.isSome_iff_exists.mp h
  exact ⟨v, SMap.mem_of_find hv⟩

/-- A lost member, with the flow to it ended. -/
def Chip.lostAt (s : Chip) (p : Nat) (m : Member) : Chip :=
  s.modCluster fun c => { c.endFlows (· == p) with ring := c.ring.set p { m with lost := true } }

section
variable {s : Chip} {p : Nat} {m : Member}

theorem Chip.lostAt_ring (hm : s.cluster.ring[p]? = some m) (q : Nat) :
    (s.lostAt p m).cluster.ring[q]? = if q = p then some { m with lost := true } else s.cluster.ring[q]? := by
  have hlt : p < s.cluster.ring.length := (List.getElem?_eq_some_iff.mp hm).1
  have hring : (s.lostAt p m).cluster.ring = s.cluster.ring.set p { m with lost := true } := rfl
  rw [hring]
  by_cases hq : q = p
  · subst hq
    rw [List.getElem?_set_self hlt, if_pos rfl]
  · rw [List.getElem?_set_ne fun h => hq h.symm, if_neg hq]

theorem Chip.lostAt_flows (q : Nat) : (s.lostAt p m).cluster.flows.find? q = if q = p then none else s.cluster.flows.find? q := by
  have hflows : (s.lostAt p m).cluster.flows = s.cluster.flows.filter fun e => (fun k => !(k == p)) e.1 := rfl
  rw [hflows]
  refine (SMap.find_filter (fun k => !(k == p)) s.cluster.flows q).trans ?_
  by_cases hq : q = p <;> simp [hq]

theorem Chip.lostAt_ended (hm : s.cluster.ring[p]? = some m) (hf : (s.cluster.flows.find? p).isSome = true) : m.serial ∈ (s.lostAt p m).cluster.flowsEnded := by
  obtain ⟨x, hx⟩ := SMap.mem_of_isSome hf
  have hserial : s.cluster.serialAt p = m.serial := by
    unfold Cluster.serialAt
    rw [List.getD_eq_getElem?_getD, hm]
    rfl
  refine List.mem_append_right _ (List.mem_map.mpr ⟨(p, x), List.mem_filter.mpr ⟨hx, ?_⟩, hserial⟩)
  simp

theorem memberLost_early (hm : s.cluster.ring[p]? = some m) (ho : s.overMs m.lastAt 30 = false) : memberLost p s = s := by
  have hget : s.cluster.ring.getD p {} = m := by rw [List.getD_eq_getElem?_getD, hm]; rfl
  refine if_pos ?_
  rw [hget]
  exact .inr (.inr (.inr (.inr ho)))

variable (hm : s.cluster.ring[p]? = some m) (hp : p ≠ s.cluster.position) (hh : m.heard = true) (hl : m.lost = false)
include hm hp hh hl

/-- A device of another cluster that is silent is gone. -/
theorem memberLost_foreign (ho : s.overMs m.lastAt 30 = true) (hc : m.cluster ≠ s.cluster.clusterId.toNat) : memberLost p s = s.lostAt p m := by
  have hget : s.cluster.ring.getD p {} = m := by rw [List.getD_eq_getElem?_getD, hm]; rfl
  have hlt : p < s.cluster.ring.length := (List.getElem?_eq_some_iff.mp hm).1
  unfold memberLost
  dsimp only
  rw [hget, if_neg (by simp [hp, hh, hl, ho]; omega), if_pos hc]
  rfl

/-- A member that is silent is lost, with a record; where it was the master, another is elected. -/
def Chip.lostRecorded (s : Chip) (p : Nat) (m : Member) : Chip :=
  let t := (s.lostAt p m).record 0xA001 10 (le 1 p ++ le 4 m.serial)
  if m.serial = s.cluster.master ∧ t.standing then t.setMaster t.elect else t

theorem memberLost_member (ho : s.overMs m.lastAt 30 = true) (hc : m.cluster = s.cluster.clusterId.toNat) :
    memberLost p s = (s.lostRecorded p m).compareMembers := by
  have hget : s.cluster.ring.getD p {} = m := by rw [List.getD_eq_getElem?_getD, hm]; rfl
  have hlt : p < s.cluster.ring.length := (List.getElem?_eq_some_iff.mp hm).1
  unfold memberLost
  dsimp only
  rw [hget, if_neg (by simp [hp, hh, hl, ho]; omega), if_neg (not_not.mpr hc)]
  rfl

end

/-- The record and the election leave the ring and the flows. -/
theorem Chip.lostRecorded_keeps (s : Chip) (p : Nat) (m : Member) :
    (s.lostRecorded p m).compareMembers.cluster.ring = (s.lostAt p m).cluster.ring ∧
      (s.lostRecorded p m).compareMembers.cluster.flows = (s.lostAt p m).cluster.flows ∧
      (s.lostRecorded p m).compareMembers.cluster.flowsEnded = (s.lostAt p m).cluster.flowsEnded := by
  have hrecorded : ((s.lostAt p m).record 0xA001 10 (le 1 p ++ le 4 m.serial)).cluster = (s.lostAt p m).cluster := (Only.record _) .cluster (by decide)
  have hlost : (s.lostRecorded p m).cluster.ring = (s.lostAt p m).cluster.ring ∧ (s.lostRecorded p m).cluster.flows = (s.lostAt p m).cluster.flows ∧
      (s.lostRecorded p m).cluster.flowsEnded = (s.lostAt p m).cluster.flowsEnded := by
    unfold Chip.lostRecorded
    dsimp only
    split
    · rw [Chip.cluster_setMaster, hrecorded]
      exact ⟨rfl, rfl, rfl⟩
    · rw [hrecorded]
      exact ⟨rfl, rfl, rfl⟩
  have hc := Compared.compareMembers (s.lostRecorded p m)
  exact ⟨(hc.field Cluster.ring).trans hlost.1, (hc.field Cluster.flows).trans hlost.2.1, (hc.field Cluster.flowsEnded).trans hlost.2.2⟩

/-! ## Formation (R432) -/

/-- The members that were heard are judged one after another. -/
def Chip.judgeEach (l : List Nat) (s : Chip) : Chip :=
  l.foldl (fun s p => if (s.cluster.ring.getD p {}).heard then s.judgeHeartbeat (s.cluster.ring.getD p {}) else s) s

/-- A device that tries to form again. -/
def Chip.forming (s : Chip) : Chip := s.modCluster fun c => { c with state := .forming, cause := 0 }

theorem formationRetry_retries {s : Chip} (hst : s.standing = true) (hm : s.cluster.master = s.serial) (hr : s.cluster.state = .refused)
    (hc : s.cluster.cause = 1 ∨ s.cluster.cause = 2) : formationRetry s = (s.forming.judgeEach s.peers).tryForm := if_pos ⟨hst, hm, hr, hc⟩

theorem formationRetry_none {s : Chip} (h : s.cluster.state ≠ .refused) : formationRetry s = s := if_neg fun hr => h hr.2.2.1

/-- From `a` to `b` members were judged: the state is as it was, or refused for cause 1 or 2. -/
structure JudgedTo (a b : Chip) : Prop where
  only : Only [.cluster] a b
  cluster : b.cluster = { a.cluster with state := b.cluster.state, cause := b.cluster.cause }
  state : (b.cluster.state = a.cluster.state ∧ b.cluster.cause = a.cluster.cause) ∨ (b.cluster.state = .refused ∧ (b.cluster.cause = 1 ∨ b.cluster.cause = 2))

theorem JudgedTo.refl (a : Chip) : JudgedTo a a := ⟨Only.refl a _, rfl, .inl ⟨rfl, rfl⟩⟩

theorem JudgedTo.trans {a b c : Chip} (h : JudgedTo a b) (k : JudgedTo b c) : JudgedTo a c := by
  refine ⟨h.only.comp k.only, k.cluster.trans (by rw [h.cluster]), ?_⟩
  rcases k.state with ⟨hs, hc⟩ | hr
  · rw [hs, hc]
    exact h.state
  · exact .inr hr

theorem JudgedTo.one (s : Chip) (m : Member) : JudgedTo s (s.judgeHeartbeat m) := by
  refine ⟨Only.judgeHeartbeat s, Chip.cluster_judgeHeartbeat m s, ?_⟩
  rcases s.judgeHeartbeat_cases m with h | h | h <;> rw [h]
  · exact .inl ⟨rfl, rfl⟩
  · exact .inr ⟨rfl, .inl rfl⟩
  · exact .inr ⟨rfl, .inr rfl⟩

theorem JudgedTo.each (l : List Nat) (s : Chip) : JudgedTo s (s.judgeEach l) := by
  induction l generalizing s with
  | nil => exact JudgedTo.refl s
  | cons p l ih =>
    refine JudgedTo.trans (b := if (s.cluster.ring.getD p {}).heard then s.judgeHeartbeat (s.cluster.ring.getD p {}) else s) ?_ (ih _)
    split
    · exact JudgedTo.one s _
    · exact JudgedTo.refl s

/-- A refusal stays through further judgements. -/
theorem JudgedTo.refused {a b : Chip} (h : JudgedTo a b) (hs : a.cluster.state = .refused) (hc : a.cluster.cause = 1 ∨ a.cluster.cause = 2) :
    b.cluster.state = .refused ∧ (b.cluster.cause = 1 ∨ b.cluster.cause = 2) := by
  rcases h.state with ⟨h1, h2⟩ | h
  · rw [h1, h2]
    exact ⟨hs, hc⟩
  · exact h

/-- A device that forms, or that was refused meanwhile, judges a member that is there. -/
theorem JudgedTo.judges {a b : Chip} (h : JudgedTo a b) {m : Member} (hj : Judges m a) (hs : a.cluster.state = .forming) : Judges m b := by
  obtain ⟨h1, h2, h3, h4, h5⟩ := hj
  have hstate : b.cluster.state = .forming ∨ b.cluster.state = .refused := by
    rcases h.state with ⟨hb, -⟩ | ⟨hb, -⟩
    · exact .inl (hb.trans hs)
    · exact .inr hb
  have hid : b.cluster.clusterId = a.cluster.clusterId := (congrArg Cluster.clusterId h.cluster).trans rfl
  refine ⟨?_, ?_, ?_, h4, (congrArg Cluster.flagFormed h.cluster).trans h5⟩
  · unfold Chip.formed
    rcases hstate with hb | hb <;> rw [hb] <;> rfl
  · unfold Chip.standing at h2 ⊢
    rw [hid]
    rw [Bool.and_eq_true] at h2 ⊢
    exact ⟨by rcases hstate with hb | hb <;> rw [hb] <;> rfl, h2.2⟩
  · rcases hstate with hb | hb <;> rw [hb] <;> simp

/-- A member that disagrees refuses the device. -/
theorem Chip.judgeEach_refused {s : Chip} {l : List Nat} {p : Nat} {m : Member} (hp : p ∈ l) (hm : s.cluster.ring[p]? = some m) (hh : m.heard = true)
    (hj : Judges m s) (hs : s.cluster.state = .forming) (hd : m.digest ≠ s.boot.digest ∨ m.life ≠ BitVec.ofNat 8 s.life.state.code) :
    (s.judgeEach l).cluster.state = .refused ∧ ((s.judgeEach l).cluster.cause = 1 ∨ (s.judgeEach l).cluster.cause = 2) := by
  obtain ⟨l₁, l₂, rfl⟩ := List.append_of_mem hp
  have hfirst := JudgedTo.each l₁ s
  have hsplit : s.judgeEach (l₁ ++ p :: l₂) = ((s.judgeEach l₁).judgeEach [p]).judgeEach l₂ := by
    unfold Chip.judgeEach
    rw [List.foldl_append]
    rfl
  have hget : (s.judgeEach l₁).cluster.ring.getD p {} = m := by
    have hring : (s.judgeEach l₁).cluster.ring = s.cluster.ring := (congrArg Cluster.ring hfirst.cluster).trans rfl
    rw [hring, List.getD_eq_getElem?_getD, hm]
    rfl
  have hone : (s.judgeEach l₁).judgeEach [p] = (s.judgeEach l₁).judgeHeartbeat m := by
    unfold Chip.judgeEach at hget ⊢
    rw [List.foldl_cons, List.foldl_nil, hget, if_pos hh]
  have hjudges := hfirst.judges hj hs
  have hboot : (s.judgeEach l₁).boot = s.boot := hfirst.only .boot (by decide)
  have hlife : (s.judgeEach l₁).life = s.life := hfirst.only .life (by decide)
  rw [hsplit, hone]
  by_cases hdig : m.digest = s.boot.digest
  · rw [Chip.judgeHeartbeat_life hjudges (by rw [hboot]; exact hdig) (by rw [hlife]; exact hd.resolve_left (not_not.mpr hdig))]
    exact (JudgedTo.each l₂ _).refused rfl (.inr rfl)
  · rw [Chip.judgeHeartbeat_digest hjudges (by rw [hboot]; exact hdig)]
    exact (JudgedTo.each l₂ _).refused rfl (.inl rfl)

/-- Members that agree refuse nobody. -/
theorem Chip.judgeEach_agrees {s : Chip} {l : List Nat}
    (h : ∀ p ∈ l, (s.cluster.ring.getD p {}).heard = true →
      (s.cluster.ring.getD p {}).digest = s.boot.digest ∧ (s.cluster.ring.getD p {}).life.toNat = s.life.state.code) : s.judgeEach l = s := by
  induction l with
  | nil => rfl
  | cons p l ih =>
    have hone : (if (s.cluster.ring.getD p {}).heard then s.judgeHeartbeat (s.cluster.ring.getD p {}) else s) = s := by
      split
      next hh => exact Chip.judgeHeartbeat_agrees (h p (List.mem_cons_self ..) hh).1 (h p (List.mem_cons_self ..) hh).2
      next => rfl
    have hrest : s.judgeEach (p :: l) = Chip.judgeEach l (if (s.cluster.ring.getD p {}).heard then s.judgeHeartbeat (s.cluster.ring.getD p {}) else s) := rfl
    rw [hrest, hone]
    exact ih fun q hq => h q (List.mem_cons_of_mem _ hq)

theorem Chip.mem_peers {s : Chip} {p : Nat} (h : p ∈ s.peers) : p < s.cluster.ring.length ∧ (s.cluster.ring.getD p {}).state ≠ 7 := by
  unfold Chip.peers at h
  rw [List.mem_filter, List.mem_range] at h
  refine ⟨h.1, ?_⟩
  simpa using (Bool.and_eq_true_iff.mp h.2).2

/-! ## O50 -/

theorem exec_nestanHeartbeatSend_placed {s : State} (h : s.chip.cluster.position ≠ 0xFE) : exec .nestanHeartbeatSend s = next s s.chip.sendBeat :=
  congrArg (next s) (if_neg h)

theorem exec_nestanHeartbeatSend_none {s : State} (h : s.chip.cluster.position = 0xFE) : exec .nestanHeartbeatSend s = .next s :=
  congrArg (next s) (if_pos h)

theorem Chip.handed_sendBeat (s : Chip) :
    Handed { type := 5, cluster := s.cluster.clusterId.toNat, src := s.cluster.position, dst := 0xFF, seq := 0, payload := s.heartbeat } false s s.sendBeat :=
  (handed_sendFrame (by exact (by decide : (5 : Nat) ≠ 2)) (by exact (by decide : (5 : Nat) ≠ 3)) s).after rfl rfl

theorem Only.sendBeat (s : Chip) : Only [.cluster, .out] s s.sendBeat := (Only.sendCluster s).comp ((Only.modCluster _).mono (by simp))

theorem exec_heartbeat_takes {b : Bytes} {f : Frame} {s : State} (h : Takes 5 b s.chip f) :
    exec (.heartbeat b) s = next s ((s.chip.taken f).takeHeartbeat f) := congrArg (next s) (Chip.onFrame_takes Chip.takeHeartbeat h)

theorem exec_memberLost (p : Byte) (s : State) : exec (.memberLost p) s = next s (memberLost p.toNat s.chip) := rfl
theorem exec_formationRetry (s : State) : exec .formationRetry s = next s (formationRetry s.chip) := rfl

/-- Settles O50, command by command. -/
theorem membershipRows : Obligations.MembershipRows := by
  unfold Obligations.MembershipRows
  refine ⟨fun s => ⟨fun h => exec_nestanHeartbeatSend_none h, fun h ht => ?_⟩, fun b f s m h hc hl hm hs => ?_,
    fun p s m hm hp hh hl => ⟨fun hc ho => ?_, fun hc ho => ?_, fun ho => ?_⟩, fun s hst hma hr hc => ?_, fun s h => ?_⟩
  · exact ⟨_, exec_nestanHeartbeatSend_placed h, s.chip.heartbeat_length, s.chip.handed_sendBeat, rfl, Within.ofChip (Only.sendBeat s.chip)⟩
  · have htaken := Only.taken (f := f) s.chip
    have hk := s.chip.cluster_taken f
    have hring : (s.chip.taken f).cluster.ring = s.chip.cluster.ring := (congrArg Cluster.ring hk).trans rfl
    have hclk : (s.chip.taken f).clk = s.chip.clk := htaken .clk (by decide)
    have hboot : (s.chip.taken f).boot = s.chip.boot := htaken .boot (by decide)
    have hlife : (s.chip.taken f).life = s.chip.life := htaken .life (by decide)
    have hlt : f.src < s.chip.cluster.ring.length := (List.getElem?_eq_some_iff.mp hm).1
    have hstep := Chip.takeHeartbeat_own ((s.chip.taken_ofCluster f f).trans hc) hl (by rw [hring]; exact hm) hs
    refine ⟨_, (s.chip.taken f).heardMember f m, (exec_heartbeat_takes h).trans (congrArg (next s) hstep), ?_⟩
    dsimp only
    have hlast : ((s.chip.taken f).heardMember f m).lastAt = s.chip.clk.ticks := congrArg Clocks.ticks hclk
    rw [Chip.ring_judged, hring]
    refine ⟨List.getElem?_set_self hlt, rfl, rfl, rfl, hlast, rfl, rfl, rfl, rfl, fun p hp => List.getElem?_set_ne fun he => hp he.symm, fun hf hst hho hfl hseven => ?_⟩
    have hjudges : Judges ((s.chip.taken f).heardMember f m) (s.chip.taken f) := by
      refine ⟨(s.chip.taken_formed f).trans hf, ?_, fun he => hho (((congrArg Cluster.state hk).trans rfl).symm.trans he), fun he => hseven ?_, ((congrArg Cluster.flagFormed hk).trans rfl).trans hfl⟩
      · exact ((congrArg (fun c : Cluster => c.state != .left && c.clusterId != 0xFF) hk).trans rfl).trans hst
      · exact congrArg BitVec.toNat he
    have hnoted := Chip.beatNoted_judges f hjudges
    have hnboot : ((s.chip.taken f).beatNoted f ((s.chip.taken f).heardMember f m)).boot = s.chip.boot := ((Only.beatNoted _) .boot (by decide)).trans hboot
    have hnlife : ((s.chip.taken f).beatNoted f ((s.chip.taken f).heardMember f m)).life = s.chip.life := ((Only.beatNoted _) .life (by decide)).trans hlife
    refine ⟨fun hd => ?_, fun hd hli => ?_⟩
    · rw [Chip.judgeHeartbeat_digest hnoted (by rw [hnboot]; exact hd)]
      exact Chip.refusedFor_compared _ 1
    · rw [Chip.judgeHeartbeat_life hnoted (by rw [hnboot]; exact hd) (by rw [hnlife]; exact fun he => hli ((life_eq_iff ..).mp he))]
      exact Chip.refusedFor_compared _ 2
  · exact ⟨_, (exec_memberLost p s).trans (congrArg (next s) (memberLost_foreign hm hp hh hl ho hc)), (Chip.lostAt_ring hm _).trans (if_pos rfl),
      (Chip.lostAt_flows _).trans (if_pos rfl), Within.ofChip (Only.modCluster s.chip)⟩
  · obtain ⟨hring, hflows, hended⟩ := s.chip.lostRecorded_keeps p.toNat m
    refine ⟨_, (exec_memberLost p s).trans (congrArg (next s) (memberLost_member hm hp hh hl ho hc)), ?_⟩
    dsimp only
    rw [hring, hflows, hended]
    exact ⟨(Chip.lostAt_ring hm _).trans (if_pos rfl), (Chip.lostAt_flows _).trans (if_pos rfl), fun hf => Chip.lostAt_ended hm hf,
      fun q hq => ⟨(Chip.lostAt_ring hm _).trans (if_neg hq), (Chip.lostAt_flows _).trans (if_neg hq)⟩⟩
  · exact (exec_memberLost p s).trans (congrArg (next s) (memberLost_early hm ho))
  · have hjudged := JudgedTo.each s.chip.peers s.chip.forming
    refine ⟨_, (exec_formationRetry s).trans (congrArg (next s) (formationRetry_retries hst hma hr hc)), ?_⟩
    dsimp only
    refine ⟨Within.ofChip (((Only.modCluster s.chip).comp hjudged.only).comp (Only.tryForm _)), fun p hp m hm hh hfl hd => ?_, fun hall => ?_⟩
    · have hseven := (Chip.mem_peers hp).2
      rw [List.getD_eq_getElem?_getD, hm] at hseven
      have hst' : s.chip.forming.standing = true := by
        unfold Chip.standing at hst ⊢
        rw [Bool.and_eq_true] at hst ⊢
        exact ⟨rfl, hst.2⟩
      have hrefused := Chip.judgeEach_refused (s := s.chip.forming) hp hm hh ⟨rfl, hst', by simp [Chip.forming, Chip.modCluster], hseven, hfl⟩ rfl hd
      rw [Chip.tryForm_refused hrefused.1]
      exact hrefused
    · have hsame : s.chip.forming.judgeEach s.chip.peers = s.chip.forming := by
        refine Chip.judgeEach_agrees fun p hp hh => ?_
        have hlt := (Chip.mem_peers hp).1
        have hsome : s.chip.cluster.ring[p]? = some (s.chip.cluster.ring.getD p {}) := by
          rw [List.getD_eq_getElem _ _ hlt]
          exact List.getElem?_eq_getElem hlt
        exact hall p hp _ hsome hh
      rw [hsame]
      rcases s.chip.forming.tryForm_cases with hf | ⟨-, hf⟩
      · rw [hf]
        exact ⟨rfl, .inl rfl⟩
      · rw [hf]
        exact ⟨rfl, .inr rfl⟩
  · exact (exec_formationRetry s).trans (congrArg (next s) (formationRetry_none h))

end Sys2Proof.Machine
end

section
/-! SUPPORT. Cluster time: calibration, SYNC, hold-over and the reference (R421, R432 to R435, R442). -/

namespace Sys2Proof.Machine

theorem Chip.cluster_sendFrame (s : Chip) (f : Frame) :
    (s.sendFrame f).cluster = { s.cluster with
      sent := (s.sendFrame f).cluster.sent, tx := (s.sendFrame f).cluster.tx, txUntil := (s.sendFrame f).cluster.txUntil } :=
  Chip.cluster_handFrame { frame := f } s

/-! ## Calibration (R435) -/

/-- CAL frame `i` of a calibration, which leaves 10 µs behind the one before. -/
def Chip.calTx (s : Chip) (i : Nat) : TxFrame :=
  { frame := { type := 3, cluster := 0xFF, src := s.cluster.position, dst := 0xFF, seq := 0, payload := frameStamp s.clk.action 0 ++ [0] }
    due := s.clk.ticks + 4000 * i }

/-- A calibration under way, before its frames. -/
def Chip.calibrationBegun (s : Chip) : Chip :=
  s.modCluster fun c => { c with calibrating := true, calSums := [], tx := c.tx.filter fun t => t.forwarded || t.frame.type != 3 }

/-- CAL frames given to the transmitter one after another. -/
def Chip.giveCals (l : List Nat) (s : Chip) : Chip := l.foldl (fun s i => s.handFrame (s.calTx i)) s

theorem Chip.giveCals_cons (i : Nat) (l : List Nat) (s : Chip) : s.giveCals (i :: l) = (s.handFrame (s.calTx i)).giveCals l := rfl

/-- The numbers of the CAL frames behind the first. -/
def laterCals : List Nat := List.range' 1 255

theorem mem_laterCals {i : Nat} : i ∈ laterCals ↔ 1 ≤ i ∧ i < 256 := by
  unfold laterCals
  rw [List.mem_range'_1]

theorem laterCals_length : laterCals.length = 255 := List.length_range'

theorem Chip.startCalibration_eq (s : Chip) : s.startCalibration = (s.calibrationBegun.handFrame (s.calibrationBegun.calTx 0)).giveCals laterCals := by
  have hrange : List.range 256 = 0 :: laterCals := by rw [List.range_eq_range', List.range'_succ]; rfl
  unfold Chip.startCalibration
  rw [hrange, List.foldl_cons]
  rfl

theorem Only.giveCals (l : List Nat) (s : Chip) : Only [.cluster, .out] s (s.giveCals l) := Only.foldl _ (fun s _ => Only.handFrame s) l s

theorem Only.startCalibration (s : Chip) : Only [.cluster, .out] s s.startCalibration := by
  rw [Chip.startCalibration_eq]
  exact (((Only.modCluster s).mono (by simp)).comp (Only.handFrame _)).comp (Only.giveCals _ _)

theorem Chip.cluster_giveCals (l : List Nat) (s : Chip) :
    (s.giveCals l).cluster = { s.cluster with
      sent := (s.giveCals l).cluster.sent, tx := (s.giveCals l).cluster.tx, txUntil := (s.giveCals l).cluster.txUntil } := by
  induction l generalizing s with
  | nil => rfl
  | cons i l ih =>
    have hone := Chip.cluster_handFrame (s.calTx i) s
    rw [Chip.giveCals_cons, ih, hone]

theorem Chip.startCalibration_reads (s : Chip) : s.startCalibration.cluster.calibrating = true ∧ s.startCalibration.cluster.calSums = [] := by
  rw [Chip.startCalibration_eq, Chip.cluster_giveCals, Chip.cluster_handFrame]
  exact ⟨rfl, rfl⟩

/-- A CAL frame whose time has not come waits. -/
theorem Chip.giveCal_later {s : Chip} {i : Nat} (ht : s.transmits = true) (hi : 1 ≤ i) :
    s.handFrame (s.calTx i) = s.modCluster fun c => { c with tx := c.tx ++ [s.calTx i] } := by
  refine Chip.handFrame_waits ht fun h => ?_
  have hdue : s.clk.ticks + 4000 * i ≤ s.clk.ticks := h.2
  omega

/-- CAL frames whose times have not come wait in order. -/
theorem Chip.giveCals_later {l : List Nat} {s : Chip} (ht : s.transmits = true) (hl : ∀ i ∈ l, 1 ≤ i) :
    (s.giveCals l).out = s.out ∧ (s.giveCals l).cluster.tx = s.cluster.tx ++ l.map s.calTx := by
  induction l generalizing s with
  | nil => exact ⟨rfl, (List.append_nil _).symm⟩
  | cons i l ih =>
    have hone := Chip.giveCal_later (s := s) ht (hl i (List.mem_cons_self ..))
    obtain ⟨hout, htx⟩ := ih (s := s.handFrame (s.calTx i)) ((Only.handFrame s).transmits.trans ht) fun k hk => hl k (List.mem_cons_of_mem _ hk)
    rw [Chip.giveCals_cons, hout, htx, hone]
    exact ⟨rfl, List.append_assoc ..⟩

/-- The 256 frames: the first leaves at once where the transmitter is idle, the others wait. -/
theorem Chip.startCalibration_frames {s : Chip} (ht : s.transmits = true) :
    (s.calibrationBegun.txIdle = true → s.startCalibration.out.length = s.out.length + 1 ∧
      s.startCalibration.cluster.tx = s.calibrationBegun.cluster.tx ++ laterCals.map s.calTx) ∧
    (s.calibrationBegun.txIdle = false → s.startCalibration.out = s.out ∧
      s.startCalibration.cluster.tx = s.calibrationBegun.cluster.tx ++ (s.calTx 0 :: laterCals.map s.calTx)) := by
  have hb : s.calibrationBegun.transmits = true := (Only.modCluster s).transmits.trans ht
  have hbegun : s.calibrationBegun.calTx = s.calTx := rfl
  have hcal : (s.calibrationBegun.handFrame (s.calTx 0)).calTx = s.calTx := by
    have hclk : (s.calibrationBegun.handFrame (s.calTx 0)).clk = s.clk := (Only.handFrame s.calibrationBegun) .clk (by decide)
    have hpos : (s.calibrationBegun.handFrame (s.calTx 0)).cluster.position = s.cluster.position :=
      (congrArg Cluster.position (Chip.cluster_handFrame _ s.calibrationBegun)).trans rfl
    funext i
    unfold Chip.calTx at hclk hpos ⊢
    rw [hclk, hpos]
  obtain ⟨hout, htx⟩ := Chip.giveCals_later (s := s.calibrationBegun.handFrame (s.calTx 0)) (l := laterCals) ((Only.handFrame _).transmits.trans hb)
    fun i hi => (mem_laterCals.mp hi).1
  rw [hcal] at htx
  rw [Chip.startCalibration_eq, hbegun, hout, htx]
  refine ⟨fun hi => ?_, fun hi => ?_⟩
  · have hfirst : s.calibrationBegun.handFrame (s.calTx 0) = s.calibrationBegun.startTx (s.calTx 0) := Chip.handFrame_idle hb hi (Nat.le_refl _)
    rw [hfirst]
    exact ⟨rfl, rfl⟩
  · have hfirst : s.calibrationBegun.handFrame (s.calTx 0) = s.calibrationBegun.modCluster fun c => { c with tx := c.tx ++ [s.calTx 0] } :=
      Chip.handFrame_waits hb (by simp [hi])
    rw [hfirst]
    exact ⟨rfl, List.append_assoc ..⟩

/-- Every frame but the first waits for its time. -/
theorem Chip.startCalibration_waits {s : Chip} (ht : s.transmits = true) {i : Nat} (h1 : 1 ≤ i) (h256 : i < 256) :
    s.calTx i ∈ s.startCalibration.cluster.tx := by
  obtain ⟨hidle, hbusy⟩ := s.startCalibration_frames ht
  have hmem : s.calTx i ∈ laterCals.map s.calTx := List.mem_map_of_mem (mem_laterCals.mpr ⟨h1, h256⟩)
  cases hi : s.calibrationBegun.txIdle with
  | true =>
    rw [(hidle hi).2]
    exact List.mem_append_right _ hmem
  | false =>
    rw [(hbusy hi).2]
    exact List.mem_append_right _ (List.mem_cons_of_mem _ hmem)

theorem calibrateNow_rests (r : Req) {c : Chip} (hs : c.cluster.size ≠ 0) (h : c.cluster.position = 0xFE ∨ c.transmits = false) :
    calibrateNow r c = (c, ok) := by
  refine (if_neg hs).trans (congrArg (·, ok) (if_neg fun hp => ?_))
  rcases h with h | h
  · exact hp.1 h
  · rw [h] at hp
    exact Bool.false_ne_true hp.2

theorem calibrateNow_starts (r : Req) {c : Chip} (hs : c.cluster.size ≠ 0) (hp : c.cluster.position ≠ 0xFE) (ht : c.transmits = true) :
    calibrateNow r c = (c.startCalibration, ok) := (if_neg hs).trans (congrArg (·, ok) (if_pos ⟨hp, ht⟩))

/-- The CAL frame that a device passes on: with its own entry behind the others. -/
def Chip.passedCal (s : Chip) (p : Bytes) (residence : Nat) : Bytes :=
  p.take 10 ++ be 1 (byteAt p 10 + 1) ++ slice p 11 (10 * byteAt p 10) ++ be 4 s.serial ++ be 2 s.cluster.hopLength ++ be 4 residence

theorem calFrame_passes {b : Bytes} {f : Frame} {s : Chip} (l256 r256 : Nat) (h : Hears 3 b s f) (ho : s.heed f ≠ .own) :
    calFrame b l256 r256 s = s.countedFrame.forwardFrame { f with payload := s.countedFrame.passedCal f.payload r256 } := by
  have ho' : s.countedFrame.heed f ≠ .own := ho
  unfold calFrame
  rw [Chip.hear_heard h]
  dsimp only
  split
  next heq => exact absurd heq ho'
  next => rfl

theorem Chip.passedCal_shape (s : Chip) {p : Bytes} {k : Nat} (r256 : Nat) (hl : p.length = 11 + 10 * k) (hk : byteAt p 10 = k) (h255 : k < 255) :
    byteAt (s.passedCal p r256) 10 = k + 1 ∧ (s.passedCal p r256).take 10 = p.take 10 ∧
      (s.passedCal p r256).drop 11 = p.drop 11 ++ be 4 s.serial ++ be 2 s.cluster.hopLength ++ be 4 r256 := by
  have hhead : (p.take 10).length = 10 := by rw [List.length_take]; omega
  have hentries : slice p 11 (10 * k) = p.drop 11 := by
    unfold slice
    exact List.take_of_length_le (by rw [List.length_drop]; omega)
  have hone : be 1 (k + 1) = [BitVec.ofNat 8 (k + 1)] := be_one _
  unfold Chip.passedCal
  rw [hk, hentries, hone]
  refine ⟨?_, ?_, ?_⟩
  · unfold byteAt
    simp only [List.append_assoc]
    rw [List.getD_append_right _ _ _ _ (Nat.le_of_eq hhead), hhead]
    show (BitVec.ofNat 8 (k + 1)).toNat = k + 1
    rw [BitVec.toNat_ofNat, Nat.mod_eq_of_lt (by omega)]
  · simp only [List.append_assoc]
    rw [List.take_append_of_le_length (Nat.le_of_eq hhead.symm), List.take_of_length_le (Nat.le_of_eq hhead)]
  · simp only [List.append_assoc]
    rw [List.drop_append, List.drop_of_length_le (by omega), hhead]
    rfl

/-- The calibrator with one loop more. -/
def Chip.loopCounted (s : Chip) (p : Bytes) (sums : List Nat) : Chip :=
  s.modCluster fun c => { c with calSums := sums, calHops := (calFrameEntries p).map fun e => (e.1, e.2.1) }

/-- The sums of a calibrator whose own CAL frame has returned. -/
def Chip.loopSums (s : Chip) (p : Bytes) (l256 : Nat) : List Nat := s.cluster.calSums ++ [l256 - ((calFrameEntries p).map (·.2.2)).sum]

section
variable {b : Bytes} {f : Frame} {s : Chip} (l256 r256 : Nat) (h : Hears 3 b s f) (ho : s.heed f = .own)
include h ho

theorem calFrame_own_idle (hc : s.cluster.calibrating = false) : calFrame b l256 r256 s = s.countedFrame := by
  have ho' : s.countedFrame.heed f = .own := ho
  unfold calFrame
  rw [Chip.hear_heard h]
  dsimp only
  rw [ho']
  exact if_pos hc

theorem calFrame_own (hc : s.cluster.calibrating = true) :
    calFrame b l256 r256 s = if (s.loopSums f.payload l256).length < 256 then s.countedFrame.loopCounted f.payload (s.loopSums f.payload l256)
      else (s.countedFrame.loopCounted f.payload (s.loopSums f.payload l256)).finishCalibration (s.loopSums f.payload l256) := by
  have ho' : s.countedFrame.heed f = .own := ho
  have hc' : s.countedFrame.cluster.calibrating = true := hc
  unfold calFrame
  rw [Chip.hear_heard h]
  dsimp only
  rw [ho']
  dsimp only
  rw [if_neg (by simp [hc'])]
  rfl

end

theorem Only.finishCalibration {l} (s : Chip) : Only [.cluster, .out] s (s.finishCalibration l) :=
  ((Only.modCluster s).mono (by simp)).comp (Only.sendFrame _)

theorem Chip.finishCalibration_reads (s : Chip) (sums : List Nat) :
    (s.finishCalibration sums).cluster.calibrating = false ∧ (s.finishCalibration sums).cluster.calSums = [] ∧
      (s.finishCalibration sums).cluster.wire = (2 * sums.sum + 256) / 512 ∧ (s.finishCalibration sums).cluster.hopNext.isSome = true := by
  unfold Chip.finishCalibration
  extract_lets w c ring first inOrder d finished
  rw [Chip.cluster_sendFrame]
  exact ⟨rfl, rfl, rfl, rfl⟩

/-! ## SYNC sent (R433) -/

/-- A device that acts as master, about to send its SYNC. -/
def Chip.syncing (s : Chip) : Chip := s.takeHop.tryForm.compareMembers

/-- The flags of a SYNC. -/
def Chip.syncFlags (u : Chip) : Nat :=
  (if u.cluster.timeBad then 0 else 1) + (if u.formed then 2 else 0) + if u.cluster.digestBad then 4 else 0

theorem Chip.syncFlags_bits (u : Chip) : u.syncFlags.testBit 0 = !u.cluster.timeBad ∧ u.syncFlags.testBit 1 = u.formed ∧ u.syncFlags.testBit 2 = u.cluster.digestBad := by
  unfold Chip.syncFlags
  cases u.cluster.timeBad <;> cases u.formed <;> cases u.cluster.digestBad <;> exact ⟨rfl, rfl, rfl⟩

/-- The SYNC of a device. -/
def Chip.syncFrame (u : Chip) : Frame :=
  { type := 2, cluster := u.cluster.clusterId.toNat, src := u.cluster.position, dst := 0xFF, seq := 0
    payload := frameStamp u.clk.action 1 ++ be 8 0 ++ be 1 u.syncFlags ++ be 2 u.cluster.syncSeq }

/-- A device whose SYNC has gone, before it sends its ARRIVEs again. -/
def Chip.syncSent (u : Chip) : Chip := (u.sendFrame u.syncFrame).modCluster fun c => { c with syncSeq := (c.syncSeq + 1) % 65536 }

theorem syncSend_none {s : Chip} (h : s.elected = false ∨ s.transmits = false) : syncSend s = s := if_pos h

theorem syncSend_sends {s : Chip} (he : s.elected = true) (ht : s.transmits = true) : syncSend s = s.syncing.syncSent.resendArrives :=
  if_neg (by simp [he, ht])

theorem frameStamp_length (t x : Nat) : (frameStamp t x).length = 10 := by
  unfold frameStamp
  simp only [List.length_append, be_length]

/-- A SYNC is given with the time of its leaving. -/
theorem Chip.syncFrame_stamped (u : Chip) : u.syncFrame.stamped u.clk.action = u.syncFrame := by
  have hlen := frameStamp_length u.clk.action 1
  have hscope : byteAt u.syncFrame.payload 9 = 1 := by
    unfold Chip.syncFrame byteAt frameStamp
    dsimp only
    simp only [List.append_assoc]
    rw [List.getD_append_right _ _ _ _ (by simp), List.getD_append_right _ _ _ _ (by simp)]
    simp only [be_length]
    rfl
  have hpayload : frameStamp u.clk.action (byteAt u.syncFrame.payload 9) ++ u.syncFrame.payload.drop 10 = u.syncFrame.payload := by
    rw [hscope]
    unfold Chip.syncFrame
    dsimp only
    simp only [List.append_assoc]
    rw [List.drop_append, hlen, List.drop_of_length_le (Nat.le_of_eq hlen)]
    rfl
  unfold Frame.stamped
  rw [if_pos (.inl rfl), hpayload]

theorem Chip.handed_syncSent (u : Chip) : Handed u.syncFrame false u u.syncSent :=
  (handed_handFrame (.inr u.syncFrame_stamped)).after rfl rfl

/-- The new hop delay is taken. -/
theorem Chip.cluster_takeHop (s : Chip) :
    s.takeHop.cluster = { s.cluster with hopDelay := s.cluster.hopNext.getD s.cluster.hopDelay, hopNext := none } := by
  have hk : s.takeHop.cluster = match s.cluster.hopNext with
    | some d => { s.cluster with hopDelay := d, hopNext := none }
    | none => s.cluster := rfl
  rw [hk]
  cases hn : s.cluster.hopNext with
  | none =>
    generalize s.cluster = k at hn ⊢
    cases k
    cases hn
    rfl
  | some d => rfl

theorem Only.takeHop (s : Chip) : Only [.cluster] s s.takeHop := Only.modCluster s

theorem Only.syncing (s : Chip) : Only barrierParts s s.syncing :=
  (((Only.takeHop s).mono (by decide)).comp ((Only.tryForm _).mono (by decide))).comp (Only.compareMembers _)

/-- What a device sends its SYNC with. -/
theorem Chip.syncing_keeps (s : Chip) : s.syncing.cluster.syncSeq = s.cluster.syncSeq ∧ s.syncing.cluster.clusterId = s.cluster.clusterId ∧
    s.syncing.cluster.position = s.cluster.position := by
  have hc := Compared.compareMembers s.takeHop.tryForm
  have hf := Chip.cluster_tryForm s.takeHop
  have hh := s.cluster_takeHop
  exact ⟨(hc.field Cluster.syncSeq).trans (((congrArg Cluster.syncSeq hf).trans rfl).trans ((congrArg Cluster.syncSeq hh).trans rfl)),
    (hc.field Cluster.clusterId).trans (((congrArg Cluster.clusterId hf).trans rfl).trans ((congrArg Cluster.clusterId hh).trans rfl)),
    (hc.field Cluster.position).trans (((congrArg Cluster.position hf).trans rfl).trans ((congrArg Cluster.position hh).trans rfl))⟩

/-- From `c` to `d` ARRIVEs were sent. -/
def ArrivesSent (c d : Cluster) : Prop :=
  d = { c with barriers := d.barriers, sent := d.sent, tx := d.tx, txUntil := d.txUntil, resendArrive := d.resendArrive }

theorem ArrivesSent.refl (c : Cluster) : ArrivesSent c c := rfl

theorem ArrivesSent.trans {c d e : Cluster} (h : ArrivesSent c d) (k : ArrivesSent d e) : ArrivesSent c e := by
  unfold ArrivesSent at *
  rw [k, h]

theorem ArrivesSent.foldl {α : Type _} (f : Chip → α → Chip) (h : ∀ s x, ArrivesSent s.cluster (f s x).cluster) (l : List α) (s : Chip) :
    ArrivesSent s.cluster (l.foldl f s).cluster := by
  induction l generalizing s with
  | nil => exact ArrivesSent.refl _
  | cons x l ih => exact (h s x).trans (ih (f s x))

theorem ArrivesSent.only {a b : Chip} {ps : List Part} (h : Only ps a b) (hp : Part.cluster ∉ ps := by decide) : ArrivesSent a.cluster b.cluster := by
  have hcluster : b.cluster = a.cluster := h .cluster hp
  rw [hcluster]
  exact ArrivesSent.refl _

theorem ArrivesSent.modCluster {f : Cluster → Cluster} (s : Chip) (h : ∀ c, ArrivesSent c (f c)) : ArrivesSent s.cluster (s.modCluster f).cluster := h s.cluster

theorem ArrivesSent.ite {a b c : Chip} {p : Prop} [Decidable p] (h : ArrivesSent a.cluster b.cluster) (k : ArrivesSent a.cluster c.cluster) :
    ArrivesSent a.cluster (if p then b else c).cluster := by
  split <;> assumption

theorem ArrivesSent.handFrame (s : Chip) (t : TxFrame) : ArrivesSent s.cluster (s.handFrame t).cluster := by
  have hcluster := Chip.cluster_handFrame t s
  generalize (s.handFrame t).cluster = d at hcluster ⊢
  unfold ArrivesSent
  rw [hcluster]

theorem ArrivesSent.completeBarrier (s : Chip) (b : Nat) : ArrivesSent s.cluster (s.completeBarrier b).cluster := by
  have hmod : ∀ (c : Chip) {f}, ArrivesSent c.cluster (c.modBarrier b f).cluster := fun _ _ => rfl
  unfold Chip.completeBarrier
  refine ArrivesSent.ite (ArrivesSent.refl _) (ArrivesSent.ite (ArrivesSent.ite (ArrivesSent.refl _) ?_) (ArrivesSent.ite (hmod s) ?_))
  · exact (hmod s).trans (ArrivesSent.only (Only.record _))
  · exact ((ArrivesSent.handFrame s _).trans (hmod _)).trans (ArrivesSent.only (Only.releaseBarrier _))

theorem ArrivesSent.sendArrive (s : Chip) (b : Nat) (w : Bool) : ArrivesSent s.cluster (s.sendArrive b w).cluster := by
  have hmod : ∀ (c : Chip) {f}, ArrivesSent c.cluster (c.modBarrier b f).cluster := fun _ _ => rfl
  unfold Chip.sendArrive Chip.putArrival
  dsimp only
  refine ArrivesSent.trans (hmod s) (ArrivesSent.ite ((hmod _).trans (ArrivesSent.completeBarrier ..)) (ArrivesSent.ite ?_ (ArrivesSent.ite ?_ ?_)))
  · exact ArrivesSent.handFrame _ _
  · exact ArrivesSent.refl _
  · exact (hmod _).trans (ArrivesSent.modCluster _ (by exact fun _ => rfl))

theorem ArrivesSent.resendArrives (s : Chip) : ArrivesSent s.cluster s.resendArrives.cluster := by
  unfold Chip.resendArrives
  refine ArrivesSent.ite (ArrivesSent.refl _) (ArrivesSent.trans (ArrivesSent.modCluster s (by exact fun _ => rfl)) (ArrivesSent.foldl _ (fun c i => ?_) _ _))
  dsimp only
  split
  · exact ArrivesSent.sendArrive ..
  · exact ArrivesSent.ite (ArrivesSent.sendArrive ..) (ArrivesSent.refl _)

theorem Chip.resendArrives_none {s : Chip} (h : s.cluster.resendArrive = false ∨ s.formed = false) : s.resendArrives = s := if_pos h

theorem Only.resendArrives (s : Chip) : Only barrierParts s s.resendArrives := by
  unfold Chip.resendArrives
  refine Only.ite (Only.refl s _) (((Only.modCluster s).mono (by decide)).comp (Only.foldl _ (fun c i => ?_) _ _))
  dsimp only
  split
  · exact Only.sendArrive c
  · exact Only.ite (Only.sendArrive c) (Only.refl c _)

theorem Chip.syncSent_seq (u : Chip) : u.syncSent.cluster.syncSeq = (u.cluster.syncSeq + 1) % 65536 :=
  (congrArg (fun c : Cluster => (c.syncSeq + 1) % 65536) (Chip.cluster_handFrame { frame := u.syncFrame } u)).trans rfl

/-- Whether ARRIVEs are due again is the same behind the SYNC. -/
theorem Chip.syncSent_resend {u : Chip} (h : u.cluster.resendArrive = false ∨ u.formed = false) : u.syncSent.resendArrives = u.syncSent := by
  have hk := Chip.cluster_handFrame { frame := u.syncFrame } u
  refine Chip.resendArrives_none (h.imp (fun h => ?_) fun h => ?_)
  · exact ((congrArg Cluster.resendArrive hk).trans rfl).trans h
  · exact ((congrArg (fun c : Cluster => c.state == .formed) hk).trans rfl).trans h

/-! ## SYNC received (R433, R434) -/

theorem nestanSync_own {b : Bytes} {f : Frame} {s : Chip} (r256 : Nat) (h : Hears 2 b s f) (ho : s.heed f = .own) :
    nestanSync b r256 s = s.countedFrame.modCluster fun c => { c with lastSync := s.clk.ticks } := by
  have ho' : s.countedFrame.heed f = .own := ho
  unfold nestanSync
  rw [Chip.hear_heard h]
  dsimp only
  rw [ho']
  rfl

/-- The correction of a SYNC at this device. -/
def Chip.syncCorrection (s : Chip) (p : Bytes) : Int := signed 64 (beNat (slice p 10 8)) + (s.cluster.hopNext.getD s.cluster.hopDelay : Int)

/-- The SYNC that a device passes on: with its hop delay and residence. -/
def Chip.passedSync (s : Chip) (p : Bytes) (residence : Nat) : Bytes := p.take 10 ++ be 8 (unsigned 64 (s.syncCorrection p + residence)) ++ p.drop 18

/-- A device that has passed a SYNC on. -/
def Chip.syncPassed (s : Chip) (f : Frame) (residence : Nat) : Chip :=
  s.countedFrame.takeHop.forwardFrame { f with payload := s.passedSync f.payload residence }

theorem Only.syncPassed {f r} (s : Chip) : Only [.cluster, .out] s (s.syncPassed f r) :=
  ((((Only.countedFrame s).comp (Only.takeHop _)).mono (by simp))).comp (Only.forwardFrame _)

/-- What passing a SYNC on changes of the link. -/
theorem Chip.cluster_syncPassed (s : Chip) (f : Frame) (residence : Nat) :
    (s.syncPassed f residence).cluster = { s.cluster with
      received := satAdd 32 s.cluster.received 1, hopDelay := s.cluster.hopNext.getD s.cluster.hopDelay, hopNext := none
      sent := (s.syncPassed f residence).cluster.sent, tx := (s.syncPassed f residence).cluster.tx
      txUntil := (s.syncPassed f residence).cluster.txUntil } := by
  have hk : (s.syncPassed f residence).cluster = _ := Chip.cluster_handFrame _ s.countedFrame.takeHop
  have hh : s.countedFrame.takeHop.cluster = _ := s.countedFrame.cluster_takeHop
  rw [hh] at hk
  exact hk

theorem nestanSync_passes {b : Bytes} {f : Frame} {s : Chip} (r256 : Nat) (h : Hears 2 b s f) (ho : s.heed f ≠ .own) :
    nestanSync b r256 s = if s.ofCluster f ∧ s.cluster.state ≠ .left then
      (s.syncPassed f r256).takeSync (((stampTime f.payload : Int) + s.syncCorrection f.payload).toNat) (byteAt f.payload 18) else s.syncPassed f r256 := by
  have ho' : s.countedFrame.heed f ≠ .own := ho
  have hdelay : s.countedFrame.takeHop.cluster.hopDelay = s.cluster.hopNext.getD s.cluster.hopDelay :=
    congrArg Cluster.hopDelay s.countedFrame.cluster_takeHop
  have hk := s.cluster_syncPassed f r256
  have hof : (s.syncPassed f r256).ofCluster f = s.ofCluster f :=
    (congrArg (fun c : Cluster => f.cluster == c.clusterId.toNat && c.clusterId != 0xFF) hk).trans rfl
  have hstate : (s.syncPassed f r256).cluster.state = s.cluster.state := (congrArg Cluster.state hk).trans rfl
  unfold nestanSync
  rw [Chip.hear_heard h]
  dsimp only
  split
  next heq => exact absurd heq ho'
  next =>
    rw [hdelay]
    show (if (s.syncPassed f r256).ofCluster f = true ∧ (s.syncPassed f r256).cluster.state ≠ .left then _ else _) = _
    rw [hof, hstate]
    rfl

theorem Chip.handed_syncPassed (s : Chip) (f : Frame) (residence : Nat) :
    Handed { f with payload := s.passedSync f.payload residence } true s (s.syncPassed f residence) := by
  have hk := s.countedFrame.cluster_takeHop
  refine (handed_forwardFrame _ _).before ((Only.countedFrame s).comp (Only.takeHop _)) ?_ ?_
  · exact (congrArg Cluster.tx hk).trans rfl
  · exact (congrArg Cluster.txUntil hk).trans rfl

theorem unsigned_lt (v : Int) : unsigned 64 v < 256 ^ 8 := by
  unfold unsigned
  omega

theorem Chip.passedSync_shape (s : Chip) {p : Bytes} (residence : Nat) (h : 18 ≤ p.length) :
    (s.passedSync p residence).take 10 = p.take 10 ∧ (s.passedSync p residence).drop 18 = p.drop 18 ∧
      beNat (slice (s.passedSync p residence) 10 8) =
        unsigned 64 (signed 64 (beNat (slice p 10 8)) + (s.cluster.hopNext.getD s.cluster.hopDelay : Int) + residence) := by
  have hhead : (p.take 10).length = 10 := by rw [List.length_take]; omega
  have hmid : (be 8 (unsigned 64 (s.syncCorrection p + residence))).length = 8 := be_length ..
  unfold Chip.passedSync
  rw [List.append_assoc]
  refine ⟨?_, ?_, ?_⟩
  · rw [List.take_append_of_le_length (Nat.le_of_eq hhead.symm), List.take_of_length_le (Nat.le_of_eq hhead)]
  · rw [List.drop_append, hhead, List.drop_of_length_le (by omega), List.nil_append, List.drop_append, hmid, List.drop_of_length_le (by omega)]
    rfl
  · unfold slice
    rw [List.drop_append, hhead, List.drop_of_length_le (Nat.le_of_eq hhead), List.nil_append, Nat.sub_self, List.drop_zero,
      List.take_append_of_le_length (Nat.le_of_eq hmid.symm), List.take_of_length_le (Nat.le_of_eq hmid)]
    exact beNat_be_of_lt (unsigned_lt _)

/-- The SYNC's flags let a device be a member. -/
def Chip.syncForms (s : Chip) (flags : Nat) : Prop :=
  flags.testBit 1 = true ∧ s.cluster.state ≠ .left ∧ s.agreesWithMaster = true ∧ s.cluster.cause ≠ 3

/-- A device with what a SYNC says. -/
def Chip.syncNoted (s : Chip) (t flags : Nat) : Chip :=
  s.modCluster fun c =>
    { c with
      offset := (s.clk.action : Int) - t, lastSync := s.clk.ticks, timeBad := !flags.testBit 0, digestBad := flags.testBit 2, flagFormed := flags.testBit 1
      state := if flags.testBit 1 ∧ c.state ≠ .left ∧ s.agreesWithMaster ∧ c.cause ≠ 3 then .formed else c.state
      cause := if flags.testBit 1 ∧ c.state ≠ .left ∧ s.agreesWithMaster ∧ c.cause ≠ 3 then 0 else c.cause }

theorem Only.syncNoted {t flags} (s : Chip) : Only [.cluster] s (s.syncNoted t flags) := Only.modCluster s

theorem Chip.syncNoted_formed {s : Chip} {flags : Nat} (t : Nat) (h : s.syncForms flags ∨ s.formed = true) : (s.syncNoted t flags).cluster.state = .formed := by
  show (if flags.testBit 1 ∧ s.cluster.state ≠ .left ∧ s.agreesWithMaster ∧ s.cluster.cause ≠ 3 then .formed else s.cluster.state) = ClState.formed
  rcases h with h | h
  · exact if_pos h
  · have hs : s.cluster.state = .formed := beq_iff_eq.mp h
    rw [hs, ite_self]

/-- CH_18 with one SYNC more, or a SYNC refused (R97). -/
def Clocks.queueSync (c : Clocks) : Clocks := if c.ch18 < 4 then { c with ch18 := c.ch18 + 1 } else { c with ch18Refused := true }

theorem Clocks.queueSync_reads (c : Clocks) : c.queueSync.ch18 = (if c.ch18 < 4 then c.ch18 + 1 else c.ch18) ∧
    c.queueSync.ch18Refused = (c.ch18Refused || decide (4 ≤ c.ch18)) ∧ c.queueSync.action = c.action := by
  unfold Clocks.queueSync
  by_cases h : c.ch18 < 4
  · rw [if_pos h, if_pos h, decide_eq_false (by omega), Bool.or_false]
    exact ⟨rfl, rfl, rfl⟩
  · rw [if_neg h, if_neg h, decide_eq_true (by omega), Bool.or_true]
    exact ⟨rfl, rfl, rfl⟩

/-- A member acts on the offset of a SYNC. -/
def Chip.syncActed (s : Chip) (t flags : Nat) : Chip :=
  (((s.syncNoted t flags).modClk fun c => { c with ch18 := 0, ch18Refused := false }).actOnOffset t ((s.clk.action : Int) - t)).markHeld

theorem Chip.takeSync_eq (s : Chip) (t flags : Nat) :
    s.takeSync t flags = if (s.syncNoted t flags).formed = false then s.syncNoted t flags
      else if (s.syncNoted t flags).runs 6 = false then ((s.syncNoted t flags).modClk Clocks.queueSync).markHeld
      else (s.syncActed t flags).resendArrives := rfl

section
variable {s : Chip} {t flags : Nat} (h : s.syncForms flags ∨ s.formed = true)
include h

theorem Chip.takeSync_stopped (hr : s.runs 6 = false) : s.takeSync t flags = ((s.syncNoted t flags).modClk Clocks.queueSync).markHeld := by
  have hf : (s.syncNoted t flags).formed = true := beq_iff_eq.mpr (Chip.syncNoted_formed t h)
  rw [Chip.takeSync_eq, if_neg (by simp [hf]), (Only.syncNoted s).runs, if_pos hr]

theorem Chip.takeSync_runs (hr : s.runs 6 = true) : s.takeSync t flags = (s.syncActed t flags).resendArrives := by
  have hf : (s.syncNoted t flags).formed = true := beq_iff_eq.mpr (Chip.syncNoted_formed t h)
  rw [Chip.takeSync_eq, if_neg (by simp [hf]), (Only.syncNoted s).runs, if_neg (by simp [hr])]

end

theorem Only.cancelLaunches (s : Chip) : Only [.seqs] s s.cancelLaunches :=
  Only.foldl _ (fun s _ => Only.ite (Only.modSq s) (Only.refl s _)) _ s

/-- A device whose pending launches are cancelled and whose sequencers' times follow the new time. -/
def Chip.launchesMoved (s : Chip) (t : Nat) : Chip :=
  { s.cancelLaunches with seqs := s.cancelLaunches.seqs.map fun (e : Nat × Seq) => (e.1, e.2.shiftTime ((t : Int) - s.clk.action)) }

theorem Only.launchesMoved {t : Nat} (s : Chip) : Only [.seqs] s (s.launchesMoved t) :=
  ((Only.cancelLaunches s).comp (Only.modSeqs s.cancelLaunches)).mono (by simp)

theorem Chip.adopt_eq (s : Chip) (t : Nat) :
    s.adopt t = ((s.launchesMoved t).modClk fun c => { c with action := t, generation := (c.generation + 1) % 65536, timeSource := 1 }).modCluster fun c =>
      { c with adopted := true, adjust := 0, slewing := false, goodSyncs := 0 } := rfl

/-- An adoption sets the time and its generation, and cancels what was pending (R96, R434). -/
theorem Chip.adopt_reads (s : Chip) (t : Nat) :
    (s.adopt t).clk = { s.clk with action := t, generation := (s.clk.generation + 1) % 65536, timeSource := 1 } ∧
      (s.adopt t).cluster = { s.cluster with adopted := true, adjust := 0, slewing := false, goodSyncs := 0 } ∧ Only [.seqs, .clk, .cluster] s (s.adopt t) := by
  have hmoved := Only.launchesMoved (t := t) s
  have hclk : (s.launchesMoved t).clk = s.clk := hmoved .clk (by decide)
  have hcluster : (s.launchesMoved t).cluster = s.cluster := hmoved .cluster (by decide)
  rw [Chip.adopt_eq]
  generalize s.launchesMoved t = c at hmoved hclk hcluster ⊢
  rw [← hclk, ← hcluster]
  exact ⟨rfl, rfl, ((hmoved.mono (by simp)).comp ((Only.modClk _).mono (by simp))).comp ((Only.modCluster _).mono (by simp))⟩

/-- What a member keeps of a SYNC's offset, and what it does with its time. -/
structure SyncActs (s : Chip) (t : Nat) (offset : Int) (b : Chip) : Prop where
  state : b.cluster.state = s.cluster.state
  keepsOffset : b.cluster.offset = s.cluster.offset
  lastSync : b.cluster.lastSync = s.cluster.lastSync
  resend : b.cluster.resendArrive = s.cluster.resendArrive
  adopts : s.cluster.adopted = false ∨ 256000 < offset.natAbs → b.clk.action = t ∧ b.cluster.adopted = true ∧ b.clk.generation = (s.clk.generation + 1) % 65536
  slews : s.cluster.adopted = true → offset.natAbs ≤ 256000 → 256 < offset.natAbs →
    b.cluster.slewing = true ∧ b.cluster.adjust = -offset ∧ b.clk.action = s.clk.action
  steps : s.cluster.adopted = true → offset.natAbs ≤ 256 →
    b.cluster.slewing = false ∧ b.cluster.adjust = -offset ∧ b.clk.action = s.clk.action ∧ b.cluster.goodSyncs = min 16 (s.cluster.goodSyncs + 1)
  only : Only [.seqs, .clk, .cluster] s b

theorem Chip.actOnOffset_acts (s : Chip) (t : Nat) (offset : Int) : SyncActs s t offset (s.actOnOffset t offset) := by
  unfold Chip.actOnOffset
  split
  next hadopt =>
    obtain ⟨hclk, hcluster, honly⟩ := s.adopt_reads t
    refine ⟨?_, ?_, ?_, ?_, fun _ => ?_, fun h1 h2 => ?_, fun h1 h2 => ?_, honly⟩
    · rw [hcluster]
    · rw [hcluster]
    · rw [hcluster]
    · rw [hcluster]
    · rw [hclk, hcluster]
      exact ⟨rfl, rfl, rfl⟩
    · rw [h1] at hadopt
      have hlarge := hadopt.resolve_left (by simp)
      omega
    · rw [h1] at hadopt
      have hlarge := hadopt.resolve_left (by simp)
      omega
  next hadopt =>
    have hkept : s.cluster.adopted = true := by simpa using (not_or.mp hadopt).1
    split
    next hslew =>
      exact ⟨rfl, rfl, rfl, rfl, fun h => absurd h hadopt, fun _ _ _ => ⟨rfl, rfl, rfl⟩, fun _ h => absurd hslew (by omega), (Only.modCluster s).mono (by simp)⟩
    next hslew =>
      exact ⟨rfl, rfl, rfl, rfl, fun h => absurd h hadopt, fun _ _ h => absurd h hslew, fun _ _ => ⟨rfl, rfl, rfl, rfl⟩, (Only.modCluster s).mono (by simp)⟩

/-- Pending launches that are held back leave the time and the link. -/
theorem SyncActs.markHeld {s b : Chip} {t : Nat} {offset : Int} (h : SyncActs s t offset b) : SyncActs s t offset b.markHeld := by
  have hheld := Only.markHeld b
  have hclk : b.markHeld.clk = b.clk := hheld .clk (by decide)
  have hcluster : b.markHeld.cluster = b.cluster := hheld .cluster (by decide)
  obtain ⟨h1, h2, h3, h4, h5, h6, h7, h8⟩ := h
  refine ⟨?_, ?_, ?_, ?_, ?_, ?_, ?_, h8.comp (hheld.mono (by simp))⟩ <;> rw [hcluster]
  · exact h1
  · exact h2
  · exact h3
  · exact h4
  · rw [hclk]; exact h5
  · rw [hclk]; exact h6
  · rw [hclk]; exact h7

theorem Chip.syncActed_acts (s : Chip) (t flags : Nat) :
    SyncActs ((s.syncNoted t flags).modClk fun c => { c with ch18 := 0, ch18Refused := false }) t ((s.clk.action : Int) - t) (s.syncActed t flags) :=
  (Chip.actOnOffset_acts _ _ _).markHeld

/-! ## Steps of the action time (R434) -/

/-- What is added to the action time in one step. -/
theorem Chip.adjustStep_one {c : Chip} {d : Int} (h1 : c.cluster.lastSync < c.clk.ticks) (h2 : (c.clk.ticks - c.cluster.lastSync) % 400 = 0)
    (hs : c.cluster.slewing = false) (ha : c.cluster.adjust ≠ 0) (hd : max (-1) (min 1 c.cluster.adjust) = d) :
    c.adjustStep.clk.action = ((c.clk.action : Int) + d).toNat ∧ c.adjustStep.cluster.adjust = c.cluster.adjust - d := by
  unfold Chip.adjustStep
  dsimp only
  rw [if_neg (by simp [ha, h2]; omega), hs, if_neg Bool.false_ne_true, hd]
  exact ⟨rfl, rfl⟩

/-! ## Hold-over and the reference (R421, R442) -/

/-- A member whose SYNCs are missing. -/
def Chip.heldOver (s : Chip) : Chip :=
  (s.modCluster fun c => { c with state := .holdOver, holdSince := s.clk.ticks, goodSyncs := 0, adjust := 0, slewing := false }).markHeld

theorem syncMissed_due {s : Chip} (hf : s.formed = true) (ho : s.overMs s.cluster.lastSync 3 = true) : syncMissed s = s.heldOver := if_neg (by simp [hf, ho])

theorem syncMissed_none {s : Chip} (h : s.formed = false ∨ s.overMs s.cluster.lastSync 3 = false) : syncMissed s = s := if_pos h

theorem Only.heldOver (s : Chip) : Only [.cluster, .seqs] s s.heldOver := ((Only.modCluster s).mono (by simp)).comp ((Only.markHeld _).mono (by simp))

theorem Chip.cluster_heldOver (s : Chip) :
    s.heldOver.cluster = { s.cluster with state := .holdOver, holdSince := s.clk.ticks, goodSyncs := 0, adjust := 0, slewing := false } :=
  (Only.markHeld _) .cluster (by decide)

/-- A device whose hold-over is over. -/
def Chip.standalone (s : Chip) : Chip :=
  s.dropFlows.modCluster fun c =>
    { c with
      state := if c.linkUp = false then .linkDown else if c.size = 0 then .ringOpen else .closed
      adopted := false, timeBad := false, digestBad := false, master := if c.size = 0 then 0 else c.master
      ring := if c.size = 0 then [] else c.ring }

theorem holdOverEnd_due {s : Chip} (hs : s.cluster.state = .holdOver) (ho : s.overMs s.cluster.holdSince 100 = true) : holdOverEnd s = s.standalone :=
  if_neg (by simp [hs, ho])

theorem holdOverEnd_none {s : Chip} (h : s.cluster.state ≠ .holdOver ∨ s.overMs s.cluster.holdSince 100 = false) : holdOverEnd s = s := if_pos h

theorem Chip.standalone_reads (s : Chip) : s.standalone.cluster.flows = [] ∧ s.standalone.cluster.state ≠ .holdOver ∧ s.standalone.cluster.state ≠ .formed := by
  have hstate : s.standalone.cluster.state = if s.cluster.linkUp = false then .linkDown else if s.cluster.size = 0 then .ringOpen else .closed := rfl
  refine ⟨Cluster.endFlows_all _, ?_⟩
  rw [hstate]
  split
  · simp
  · split <;> simp

theorem Only.standalone (s : Chip) : Only [.cluster] s s.standalone := (Only.modCluster s).comp (Only.modCluster _)

/-- A reference that is kept as it disagrees or agrees. -/
def Chip.referenceKept (v : Bool) (s : Chip) : Chip := s.modClk fun c => { c with refDisagrees := v }

theorem referenceDisagreement_keeps (v : Bool) (s : Chip) :
    (referenceDisagreement v s).clk.refDisagrees = v ∧ Only [.clk, .cluster, .seqs, .recorder] s (referenceDisagreement v s) := by
  have hrest : Only [.cluster, .seqs, .recorder] (s.referenceKept v) (referenceDisagreement v s) :=
    ((Only.disagree _).mono (by simp)).comp ((Only.markHeld _).mono (by simp))
  have hclk : (referenceDisagreement v s).clk = (s.referenceKept v).clk := hrest .clk (by decide)
  refine ⟨?_, ((Only.modClk s).mono (by simp)).comp (hrest.mono (by simp))⟩
  rw [hclk]
  rfl

/-- A reference that disagrees makes the quality bad. -/
theorem Chip.quality_reference {s : Chip} (h : s.clk.refDisagrees = true) : s.quality = 2 := by
  refine if_pos ?_
  unfold Chip.localBad
  rw [h, Bool.or_true, Bool.true_or]

/-! ## O49 -/

theorem exec_calibrationStart_starts {s : State} (hc : s.chip.calibrator = true) (ht : s.chip.transmits = true) :
    exec .calibrationStart s = next s s.chip.startCalibration := congrArg (next s) (if_pos ⟨hc, ht⟩)

theorem exec_calibrationStart_none {s : State} (h : s.chip.calibrator = false ∨ s.chip.transmits = false) : exec .calibrationStart s = .next s :=
  congrArg (next s) (if_neg (by rintro ⟨h1, h2⟩; simp [h1, h2] at h))

theorem exec_cal (b : Bytes) (l r : Nat) (s : State) : exec (.cal b l r) s = next s (calFrame b l r s.chip) := rfl
theorem exec_nestanSyncSend (s : State) : exec .nestanSyncSend s = next s (syncSend s.chip) := rfl
theorem exec_nestanSync (b : Bytes) (r : Nat) (s : State) : exec (.nestanSync b r) s = next s (nestanSync b r s.chip) := rfl
theorem exec_syncMissed (s : State) : exec .syncMissed s = next s (syncMissed s.chip) := rfl
theorem exec_holdOverEnd (s : State) : exec .holdOverEnd s = next s (holdOverEnd s.chip) := rfl
theorem exec_referenceDisagreement (v : Bool) (s : State) : exec (.referenceDisagreement v) s = next s (referenceDisagreement v s.chip) := rfl

/-- A SYNC sent, with what its device reads then. -/
theorem exec_nestanSyncSend_sends {s : State} {u : Chip} (he : s.chip.elected = true) (ht : s.chip.transmits = true) (hu : u = s.chip.syncing) :
    ∃ (t : State) (flags : Nat), exec .nestanSyncSend s = .next t ∧ t.chip.cluster.syncSeq = (s.chip.cluster.syncSeq + 1) % 65536 ∧
      flags.testBit 0 = !u.cluster.timeBad ∧ flags.testBit 1 = u.formed ∧ flags.testBit 2 = u.cluster.digestBad ∧ u.clk.action = s.chip.clk.action ∧
      (u.cluster.resendArrive = false ∨ u.formed = false → Handed { type := 2, cluster := s.chip.cluster.clusterId.toNat, src := s.chip.cluster.position, dst := 0xFF, seq := 0, payload := frameStamp s.chip.clk.action 1 ++ be 8 0 ++ be 1 flags ++ be 2 s.chip.cluster.syncSeq } false u t.chip) := by
  obtain ⟨hseq, hid, hpos⟩ := s.chip.syncing_keeps
  have hclk : s.chip.syncing.clk = s.chip.clk := (Only.syncing s.chip) .clk (by decide)
  obtain ⟨h0, h1, h2⟩ := s.chip.syncing.syncFlags_bits
  subst hu
  refine ⟨_, s.chip.syncing.syncFlags, (exec_nestanSyncSend s).trans (congrArg (next s) (syncSend_sends he ht)), ?_⟩
  dsimp only
  refine ⟨?_, h0, h1, h2, congrArg Clocks.action hclk, fun hn => ?_⟩
  · have harrives := ArrivesSent.resendArrives s.chip.syncing.syncSent
    exact ((congrArg Cluster.syncSeq harrives).trans rfl).trans (s.chip.syncing.syncSent_seq.trans (by rw [hseq]))
  · have hhanded := s.chip.syncing.handed_syncSent
    unfold Chip.syncFrame at hhanded
    rw [hid, hpos, hclk, hseq] at hhanded
    rw [Chip.syncSent_resend hn]
    exact hhanded

/-- The ring calibrator starts its calibration, and its 256 CAL frames stand 10 us apart (R435). -/
theorem calibrationStart_row {s : State} (hc : s.chip.calibrator = true) (ht : s.chip.transmits = true) : ∃ t, exec .calibrationStart s = .next t ∧
    t.chip.cluster.calibrating = true ∧ t.chip.cluster.calSums = [] ∧ Within [.cluster, .out] s t ∧
    (∀ i, 1 ≤ i → i < 256 → ∃ x ∈ t.chip.cluster.tx, x.frame.type = 3 ∧ x.forwarded = false ∧ x.due = s.chip.clk.ticks + 4000 * i) ∧
    (∀ c : Chip, c = { s.chip with cluster := { s.chip.cluster with tx := s.chip.cluster.tx.filter fun x => x.forwarded || x.frame.type != 3 } } →
      (c.txIdle = true → t.chip.out.length = s.chip.out.length + 1 ∧ t.chip.cluster.tx.length = c.cluster.tx.length + 255) ∧
      (c.txIdle = false → t.chip.out = s.chip.out ∧ t.chip.cluster.tx.length = c.cluster.tx.length + 256)) := by
  obtain ⟨hcal, hsums⟩ := s.chip.startCalibration_reads
  obtain ⟨hidle, hbusy⟩ := Chip.startCalibration_frames ht
  refine ⟨_, exec_calibrationStart_starts hc ht, ?_⟩
  dsimp only
  refine ⟨hcal, hsums, Within.ofChip (Only.startCalibration s.chip), fun i h1 h256 => ⟨_, Chip.startCalibration_waits ht h1 h256, rfl, rfl, rfl⟩,
    fun c hceq => ?_⟩
  have hci : c.txIdle = s.chip.calibrationBegun.txIdle := by
    subst hceq
    exact Chip.txIdle_congr rfl rfl rfl
  have hctx : c.cluster.tx = s.chip.calibrationBegun.cluster.tx := by
    subst hceq
    rfl
  rw [hci, hctx]
  refine ⟨fun hi => ?_, fun hi => ?_⟩
  · obtain ⟨hout, htx⟩ := hidle hi
    rw [htx, List.length_append, List.length_map, laterCals_length]
    exact ⟨hout, rfl⟩
  · obtain ⟨hout, htx⟩ := hbusy hi
    rw [htx, List.length_append, List.length_cons, List.length_map, laterCals_length]
    exact ⟨hout, rfl⟩

/-- A SYNC taken by a device that forms by it: its offset is adopted, slewed or taken away in steps (R433, R434). -/
theorem nestanSync_row {b : Bytes} {f : Frame} {r256 : Nat} {s : State} {origin : Nat} {offset : Int} (h : Hears 2 b s.chip f) (ho : s.chip.heed f ≠ .own)
    (hof : s.chip.ofCluster f = true) (hst : s.chip.cluster.state ≠ .left) (hbit : (byteAt f.payload 18).testBit 1 = true)
    (hag : s.chip.agreesWithMaster = true) (hca : s.chip.cluster.cause ≠ 3) (hrun : s.chip.runs 6 = true) (hre : s.chip.cluster.resendArrive = false)
    (horigin : origin = ((stampTime f.payload : Int) +
      (signed 64 (beNat (slice f.payload 10 8)) + (s.chip.cluster.hopNext.getD s.chip.cluster.hopDelay : Int))).toNat)
    (hoffset : offset = (s.chip.clk.action : Int) - origin) :
    ∃ t, exec (.nestanSync b r256) s = .next t ∧ t.chip.cluster.state = .formed ∧ t.chip.cluster.offset = offset ∧ t.chip.cluster.lastSync = s.chip.clk.ticks ∧
      (s.chip.cluster.adopted = false ∨ 256000 < offset.natAbs → t.chip.clk.action = origin ∧ t.chip.cluster.adopted = true ∧
        t.chip.clk.generation = (s.chip.clk.generation + 1) % 65536) ∧
      (s.chip.cluster.adopted = true → offset.natAbs ≤ 256000 → 256 < offset.natAbs → t.chip.cluster.slewing = true ∧ t.chip.cluster.adjust = -offset ∧
        t.chip.clk.action = s.chip.clk.action) ∧
      (s.chip.cluster.adopted = true → offset.natAbs ≤ 256 → t.chip.cluster.slewing = false ∧ t.chip.cluster.adjust = -offset ∧
        t.chip.clk.action = s.chip.clk.action ∧ t.chip.cluster.goodSyncs = min 16 (s.chip.cluster.goodSyncs + 1)) ∧
      Within [.cluster, .out, .seqs, .clk] s t := by
  have hpassed := Only.syncPassed (f := f) (r := r256) s.chip
  have hk := s.chip.cluster_syncPassed f r256
  have hclk : (s.chip.syncPassed f r256).clk = s.chip.clk := hpassed .clk (by decide)
  have hboot : (s.chip.syncPassed f r256).boot = s.chip.boot := hpassed .boot (by decide)
  have hlife : (s.chip.syncPassed f r256).life = s.chip.life := hpassed .life (by decide)
  have hforms : (s.chip.syncPassed f r256).syncForms (byteAt f.payload 18) := by
    refine ⟨hbit, fun he => hst (((congrArg Cluster.state hk).trans rfl).symm.trans he), ?_, fun he => hca (((congrArg Cluster.cause hk).trans rfl).symm.trans he)⟩
    unfold Chip.agreesWithMaster Chip.counts at hag ⊢
    rw [hk, hboot, hlife]
    exact hag
  have hacts := (s.chip.syncPassed f r256).syncActed_acts origin (byteAt f.payload 18)
  have hresend : ((s.chip.syncPassed f r256).syncActed origin (byteAt f.payload 18)).cluster.resendArrive = false :=
    hacts.resend.trans (((congrArg Cluster.resendArrive hk).trans rfl).trans hre)
  have hrun' : (s.chip.syncPassed f r256).runs 6 = true := (hpassed.runs (i := 6)).trans hrun
  have hstep : exec (.nestanSync b r256) s = next s ((s.chip.syncPassed f r256).syncActed origin (byteAt f.payload 18)) := by
    have horigin' : ((stampTime f.payload : Int) + s.chip.syncCorrection f.payload).toNat = origin := horigin.symm
    rw [exec_nestanSync, nestanSync_passes r256 h ho, if_pos ⟨hof, hst⟩, horigin', Chip.takeSync_runs (.inl hforms) hrun', Chip.resendArrives_none (.inl hresend)]
  have hadopted : ((s.chip.syncPassed f r256).syncNoted origin (byteAt f.payload 18)).cluster.adopted = s.chip.cluster.adopted := (congrArg Cluster.adopted hk).trans rfl
  have hgood : ((s.chip.syncPassed f r256).syncNoted origin (byteAt f.payload 18)).cluster.goodSyncs = s.chip.cluster.goodSyncs := (congrArg Cluster.goodSyncs hk).trans rfl
  have haction' : (s.chip.syncPassed f r256).clk.action = s.chip.clk.action := congrArg Clocks.action hclk
  have hgeneration : ((s.chip.syncPassed f r256).clk.generation + 1) % 65536 = (s.chip.clk.generation + 1) % 65536 :=
    congrArg (fun c : Clocks => (c.generation + 1) % 65536) hclk
  rw [hclk] at hacts
  obtain ⟨h1, h2, h3, -, h5, h6, h7, h8⟩ := hacts
  subst hoffset
  refine ⟨_, hstep, ?_⟩
  dsimp only
  refine ⟨h1.trans (Chip.syncNoted_formed origin (.inl hforms)), h2.trans ?_, h3.trans ?_, fun ha => ?_, fun ha hle hgt => ?_, fun ha hle => ?_,
    Within.ofChip ((hpassed.mono (by simp)).comp (((Only.syncNoted _).mono (by simp)).comp (((Only.modClk _).mono (by simp)).comp (h8.mono (by simp)))))⟩
  · exact congrArg (fun c : Clocks => (c.action : Int) - origin) hclk
  · exact congrArg Clocks.ticks hclk
  · obtain ⟨haction, hadopts, hgen⟩ := h5 (ha.imp_left hadopted.trans)
    exact ⟨haction, hadopts, hgen.trans hgeneration⟩
  · obtain ⟨hslew, hadjust, haction⟩ := h6 (hadopted.trans ha) hle hgt
    exact ⟨hslew, hadjust, haction.trans haction'⟩
  · obtain ⟨hslew, hadjust, haction, hgoods⟩ := h7 (hadopted.trans ha) hle
    refine ⟨hslew, hadjust, haction.trans haction', hgoods.trans ?_⟩
    exact congrArg (fun n => min 16 (n + 1)) hgood

/-- Settles O49, command by command. -/
theorem clusterTimeRows : Obligations.ClusterTimeRows := by
  unfold Obligations.ClusterTimeRows
  refine ⟨fun s => ⟨calibrationStart_row, exec_calibrationStart_none⟩, fun p tag s r c h hs => ⟨fun hn => ?_, fun hp ht => ?_⟩,
    fun b f l256 r256 s h ho => ?_, fun b f l256 r256 s h ho => ⟨fun hc => ?_, fun hc sums hsums => ⟨fun hlt => ?_, fun hge => ?_⟩⟩,
    fun s => ⟨fun h => ?_, fun he ht u hu => exec_nestanSyncSend_sends he ht hu⟩, fun b f r256 s h ho => ?_, fun b f r256 s h ho hn => ?_,
    fun _ _ _ _ _ _ => nestanSync_row, fun c h1 h2 hs => ⟨fun ha => ?_, fun ha => ?_⟩,
    fun t flags c h hr => ?_, fun s => ⟨fun hf ho => ?_, fun h => ?_⟩, fun s => ⟨fun hs ho => ?_, fun h => ?_⟩, fun v s => ?_⟩
  · have hexec := exec_calibrateNow h
    rw [calibrateNow_rests r hs hn, finish_ok] at hexec
    exact hexec
  · have hexec := exec_calibrateNow h
    rw [calibrateNow_starts r hs hp ht, finish_ok] at hexec
    obtain ⟨hcal, hsums⟩ := c.startCalibration_reads
    exact ⟨c.startCalibration, hexec, hcal, hsums, Only.startCalibration c⟩
  · refine ⟨_, s.chip.countedFrame.passedCal f.payload r256, (exec_cal b l256 r256 s).trans (congrArg (next s) (calFrame_passes l256 r256 h ho)), ?_⟩
    dsimp only
    refine ⟨?_, fun k hl hk h255 => ?_, Within.ofChip (((Only.countedFrame s.chip).mono (by simp)).comp (Only.forwardFrame _))⟩
    · exact (handed_forwardFrame _ s.chip.countedFrame).before (Only.countedFrame s.chip) rfl rfl
    · rw [← (Only.countedFrame s.chip).serial]
      exact s.chip.countedFrame.passedCal_shape r256 hl hk h255
  · exact (exec_cal b l256 r256 s).trans (congrArg (next s) (calFrame_own_idle l256 r256 h ho hc))
  · have hs : sums = s.chip.loopSums f.payload l256 := hsums
    subst hs
    have hstep := (exec_cal b l256 r256 s).trans (congrArg (next s) ((calFrame_own l256 r256 h ho hc).trans (if_pos hlt)))
    exact ⟨_, hstep, rfl, hc, Within.ofChip ((Only.countedFrame s.chip).comp (Only.modCluster _))⟩
  · have hs : sums = s.chip.loopSums f.payload l256 := hsums
    subst hs
    have hstep := (exec_cal b l256 r256 s).trans (congrArg (next s) ((calFrame_own l256 r256 h ho hc).trans (if_neg (Nat.not_lt.mpr hge))))
    obtain ⟨hcal, hcs, hw, hhop⟩ := (s.chip.countedFrame.loopCounted f.payload (s.chip.loopSums f.payload l256)).finishCalibration_reads (s.chip.loopSums f.payload l256)
    refine ⟨_, hstep, ?_⟩
    dsimp only
    exact ⟨hcal, hcs, hw, hhop, Within.ofChip ((((Only.countedFrame s.chip).comp (Only.modCluster _)).mono (by simp)).comp (Only.finishCalibration _))⟩
  · exact (exec_nestanSyncSend s).trans (congrArg (next s) (syncSend_none h))
  · exact ⟨_, (exec_nestanSync b r256 s).trans (congrArg (next s) (nestanSync_own r256 h ho)), rfl, rfl, rfl,
      Within.ofChip ((Only.countedFrame s.chip).comp (Only.modCluster _))⟩
  · have hstep := (exec_nestanSync b r256 s).trans (congrArg (next s) ((nestanSync_passes r256 h ho).trans (if_neg (by rintro ⟨h1, h2⟩; simp [h1, h2] at hn))))
    refine ⟨_, s.chip.passedSync f.payload r256, hstep, ?_⟩
    dsimp only
    exact ⟨fun hl => s.chip.passedSync_shape r256 hl, (Only.syncPassed s.chip) .clk (by decide), s.chip.handed_syncPassed f r256, Within.ofChip (Only.syncPassed s.chip)⟩
  · obtain ⟨haction, hadjust⟩ := Chip.adjustStep_one (d := 1) h1 h2 hs (by omega) (by omega)
    rw [haction]
    exact ⟨by omega, hadjust⟩
  · obtain ⟨haction, hadjust⟩ := Chip.adjustStep_one (d := -1) h1 h2 hs (by omega) (by omega)
    rw [haction]
    exact ⟨by omega, by omega⟩
  · have hforms : c.syncForms flags ∨ c.formed = true := h
    have hclk : (((c.syncNoted t flags).modClk Clocks.queueSync).markHeld).clk = c.clk.queueSync := (Only.markHeld _) .clk (by decide)
    rw [Chip.takeSync_stopped hforms hr, hclk]
    exact c.clk.queueSync_reads
  · refine ⟨_, (exec_syncMissed s).trans (congrArg (next s) (syncMissed_due hf ho)), ?_⟩
    dsimp only
    rw [Chip.cluster_heldOver]
    exact ⟨rfl, rfl, rfl, rfl, rfl, Within.ofChip (Only.heldOver s.chip)⟩
  · exact (exec_syncMissed s).trans (congrArg (next s) (syncMissed_none h))
  · obtain ⟨hflows, hh, hfo⟩ := s.chip.standalone_reads
    refine ⟨_, (exec_holdOverEnd s).trans (congrArg (next s) (holdOverEnd_due hs ho)), ?_⟩
    dsimp only
    exact ⟨hflows, hh, hfo, (Only.standalone s.chip) .clk (by decide), Within.ofChip (Only.standalone s.chip)⟩
  · exact (exec_holdOverEnd s).trans (congrArg (next s) (holdOverEnd_none h))
  · obtain ⟨hkept, honly⟩ := referenceDisagreement_keeps v s.chip
    refine ⟨_, exec_referenceDisagreement v s, ?_⟩
    dsimp only
    exact ⟨hkept, fun hv => Chip.quality_reference (hkept.trans hv), Within.ofChip honly⟩

end Sys2Proof.Machine
end

section
/-! SUPPORT. Trace packets and their reading (R477 to R481). -/

namespace Sys2Proof.Machine

/-! ## A share that packets enter (R477, R478) -/

/-- From `a` to `b` packets entered a share of `cap` packets, and none was dropped. -/
structure Partition.Grown (cap : Nat) (a b : Partition) : Prop where
  written : a.written ≤ b.written
  size : a.packets.length ≤ cap → b.packets.length ≤ cap
  dropped : b.dropped = a.dropped

theorem Partition.Grown.refl (cap : Nat) (q : Partition) : q.Grown cap q := ⟨Nat.le_refl _, id, rfl⟩

theorem Partition.Grown.trans {cap : Nat} {a b c : Partition} (h : a.Grown cap b) (h' : b.Grown cap c) : a.Grown cap c :=
  ⟨h.written.trans h'.written, h'.size ∘ h.size, h'.dropped.trans h.dropped⟩

theorem Partition.packets_putPacket (cap : Nat) (b : Bytes) (q : Partition) :
    (q.putPacket cap b).packets = (q.packets ++ [b]).drop (q.packets.length + 1 - cap) := rfl

theorem Partition.length_putPacket (cap : Nat) (b : Bytes) (q : Partition) : (q.putPacket cap b).packets.length = min (q.packets.length + 1) cap := by
  rw [Partition.packets_putPacket, List.length_drop, List.length_append, List.length_singleton]
  omega

theorem Partition.Grown.putPacket (cap : Nat) (b : Bytes) (q : Partition) : q.Grown cap (q.putPacket cap b) :=
  ⟨Nat.le_succ _, fun _ => by rw [Partition.length_putPacket]; omega, rfl⟩

theorem Partition.Grown.putSync (cap cycle : Nat) (q : Partition) : q.Grown cap (q.putSync cap cycle) :=
  ⟨Nat.le_succ _, (Partition.Grown.putPacket cap (tracePacket 0x01 0 (cycle / 2 ^ 32) (cycle % 2 ^ 32)) q).size, rfl⟩

/-- The newest packet of a share stands last in it. -/
theorem Partition.putPacket_last {cap : Nat} (b : Bytes) (q : Partition) (h : 1 ≤ cap) : ∃ l, (q.putPacket cap b).packets = l ++ [b] := by
  refine ⟨q.packets.drop (q.packets.length + 1 - cap), ?_⟩
  rw [Partition.packets_putPacket, List.drop_append_of_le_length (by omega)]

/-- A share of two packets or more keeps its last packet behind the next. -/
theorem Partition.mem_putPacket {cap : Nat} {b c : Bytes} {q : Partition} {l : List Bytes} (h : 2 ≤ cap) (hl : q.packets = l ++ [c]) :
    c ∈ (q.putPacket cap b).packets := by
  rw [Partition.packets_putPacket, hl, List.append_assoc, List.drop_append_of_le_length (by rw [List.length_append, List.length_singleton]; omega)]
  simp

/-! ## The packet that arises (R478, R480) -/

/-- A share at a cycle: the trace unit is empty at a new one. -/
def Partition.atCycle (cycle : Nat) (q : Partition) : Partition := if cycle = q.lastCycle then q else { q with inCycle := 0 }

/-- A share with the SYNC that a long pause asks for. -/
def Partition.resynced (cap cycle : Nat) (q : Partition) : Partition := if cycle - q.lastCycle > 65535 then q.putSync cap cycle else q

/-- A share with the LOST that dropped packets ask for. -/
def Partition.lostTold (cap cycle : Nat) (q : Partition) : Partition :=
  if q.lostRun = 0 then q
  else { q.putPacket cap (tracePacket 0x08 0 (cycle - q.lastCycle) q.lostRun) with lostRun := 0, lastCycle := cycle }

/-- A share with the packet itself. -/
def Partition.told (cap type info payload cycle : Nat) (q : Partition) : Partition :=
  { q.putPacket cap (tracePacket type info (cycle - q.lastCycle) payload) with lastCycle := cycle }

/-- A share with the SYNC that 1,024 packets ask for. -/
def Partition.resyncedAfter (cap cycle : Nat) (q : Partition) : Partition := if q.sinceSync ≥ 1024 then q.putSync cap cycle else q

theorem Partition.trace_empty (type info payload cycle : Nat) (q : Partition) : q.trace 0 type info payload cycle = q := rfl

theorem Partition.trace_eq {cap : Nat} (h : cap ≠ 0) (type info payload cycle : Nat) (q : Partition) :
    q.trace cap type info payload cycle =
      if (q.atCycle cycle).inCycle ≥ 16 then { q.atCycle cycle with dropped := satAdd 32 (q.atCycle cycle).dropped 1, lostRun := satAdd 32 (q.atCycle cycle).lostRun 1 }
      else ((((q.atCycle cycle).resynced cap cycle).lostTold cap cycle).told cap type info payload cycle).resyncedAfter cap cycle := if_neg h

theorem Partition.trace_full {cap cycle : Nat} {q : Partition} (h : cap ≠ 0) (hc : cycle = q.lastCycle) (hf : 16 ≤ q.inCycle) (type info payload : Nat) :
    q.trace cap type info payload cycle = { q with dropped := satAdd 32 q.dropped 1, lostRun := satAdd 32 q.lostRun 1 } := by
  have hat : q.atCycle cycle = q := if_pos hc
  rw [Partition.trace_eq h, hat, if_pos hf]

theorem Partition.Grown.atCycle (cap cycle : Nat) (q : Partition) : q.Grown cap (q.atCycle cycle) := by
  unfold Partition.atCycle
  split
  · exact .refl cap q
  · exact ⟨Nat.le_refl _, id, rfl⟩

theorem Partition.Grown.resynced (cap cycle : Nat) (q : Partition) : q.Grown cap (q.resynced cap cycle) := by
  unfold Partition.resynced
  split
  · exact .putSync cap cycle q
  · exact .refl cap q

theorem Partition.Grown.lostTold (cap cycle : Nat) (q : Partition) : q.Grown cap (q.lostTold cap cycle) := by
  unfold Partition.lostTold
  split
  · exact .refl cap q
  · have h := Partition.Grown.putPacket cap (tracePacket 0x08 0 (cycle - q.lastCycle) q.lostRun) q
    exact ⟨h.written, h.size, h.dropped⟩

theorem Partition.Grown.told (cap type info payload cycle : Nat) (q : Partition) : q.Grown cap (q.told cap type info payload cycle) := by
  have h := Partition.Grown.putPacket cap (tracePacket type info (cycle - q.lastCycle) payload) q
  exact ⟨h.written, h.size, h.dropped⟩

theorem Partition.Grown.resyncedAfter (cap cycle : Nat) (q : Partition) : q.Grown cap (q.resyncedAfter cap cycle) := by
  unfold Partition.resyncedAfter
  split
  · exact .putSync cap cycle q
  · exact .refl cap q

theorem Partition.lastCycle_told_resynced (cap type info payload cycle : Nat) (q : Partition) :
    ((q.told cap type info payload cycle).resyncedAfter cap cycle).lastCycle = cycle := by
  unfold Partition.resyncedAfter
  split <;> rfl

theorem Partition.mem_told_resynced {cap : Nat} (h : 2 ≤ cap) (type info payload cycle : Nat) (q : Partition) :
    tracePacket type info (cycle - q.lastCycle) payload ∈ ((q.told cap type info payload cycle).resyncedAfter cap cycle).packets := by
  obtain ⟨l, hl⟩ := Partition.putPacket_last (cap := cap) (tracePacket type info (cycle - q.lastCycle) payload) q (by omega)
  have hl' : (q.told cap type info payload cycle).packets = l ++ [tracePacket type info (cycle - q.lastCycle) payload] := hl
  unfold Partition.resyncedAfter
  split
  · exact Partition.mem_putPacket h hl'
  · rw [hl']
    exact List.mem_append_right _ (List.mem_singleton_self _)

/-- What a share reads after a packet that had room in the trace unit. -/
theorem Partition.trace_room {cap cycle : Nat} {q : Partition} (h : cap ≠ 0) (hr : cycle ≠ q.lastCycle ∨ q.inCycle < 16) (type info payload : Nat) :
    q.written < (q.trace cap type info payload cycle).written ∧ (q.packets.length ≤ cap → (q.trace cap type info payload cycle).packets.length ≤ cap) ∧
    (q.trace cap type info payload cycle).dropped = q.dropped ∧ (q.trace cap type info payload cycle).lastCycle = cycle ∧
    (2 ≤ cap → ∃ d, tracePacket type info d payload ∈ (q.trace cap type info payload cycle).packets) := by
  have hroom : ¬ (q.atCycle cycle).inCycle ≥ 16 := by
    unfold Partition.atCycle
    split
    next hc => exact fun hf => by omega
    next hc => exact Nat.not_succ_le_zero _
  have hbefore := ((Partition.Grown.atCycle cap cycle q).trans (.resynced cap cycle _)).trans (.lostTold cap cycle _)
  rw [Partition.trace_eq h, if_neg hroom]
  generalize ((q.atCycle cycle).resynced cap cycle).lostTold cap cycle = u at hbefore ⊢
  have hafter := (Partition.Grown.told cap type info payload cycle u).trans (.resyncedAfter cap cycle _)
  have hwritten : (u.told cap type info payload cycle).written = u.written + 1 := rfl
  have hlast := (Partition.Grown.resyncedAfter cap cycle (u.told cap type info payload cycle)).written
  have hold := hbefore.written
  exact ⟨by omega, (hbefore.trans hafter).size, (hbefore.trans hafter).dropped, Partition.lastCycle_told_resynced ..,
    fun h2 => ⟨_, Partition.mem_told_resynced h2 ..⟩⟩

/-! ## O55 -/

/-- A packet of a partition, at its cycle, where its enable bit is set. -/
def Chip.traced (s : Chip) (p bit type info payload cycle : Nat) : Chip := if s.traceOn bit then s.tracePut p type info payload cycle else s

theorem Only.traced {p bit t i v c} (s : Chip) : Only [.ci] s (s.traced p bit t i v c) := Only.ite (Only.tracePut s) (Only.refl s _)

theorem exec_traceSoftwareWrite (p : Fin 8) (ch : Fin 64) (v : Word32) (s : State) :
    exec (.traceSoftwareWrite p ch v) s = next s (s.chip.traced p.val 2 0x06 ch.val v.toNat (max (s.chip.part p.val).lastCycle s.chip.cycles)) := rfl

theorem exec_tracedExceptionOrBranch (p : Fin 8) (k : TraceKind) (info : Byte) (v : Word32) (n : Nat) (s : State) :
    exec (.tracedExceptionOrBranch p k info v n) s = next s (s.chip.traced p.val (traceKindPacket k).2 (traceKindPacket k).1
      (if k = .exception then info.toNat else 0) v.toNat ((s.chip.part p.val).lastCycle + n)) := rfl

theorem exec_traceRead (p : Path) (s : State) : exec (.traceRead p) s = next s (hostRead p 0 0x2A00 6 readTrace s.chip) := rfl

theorem Chip.traced_rests {s : Chip} {p bit : Nat} (h : s.traceOn bit = false ∨ (s.part p).running = false) (type info payload cycle : Nat) :
    s.traced p bit type info payload cycle = s := by
  unfold Chip.traced Chip.tracePut
  rcases h with h | h <;> simp [h]

theorem Chip.traced_writes {s : Chip} {p bit : Nat} (hon : s.traceOn bit = true) (hr : (s.part p).running = true) (type info payload cycle : Nat) :
    s.traced p bit type info payload cycle = s.modPart p (Partition.trace (s.shareSize p / 8) type info payload cycle) := (if_pos hon).trans (if_pos hr)

/-- Settles O55: a packet is dropped by a full trace unit and else enters its share. -/
theorem traceRows : Obligations.TraceRows := by
  unfold Obligations.TraceRows
  refine ⟨fun p ch v s _ _ => ⟨_, exec_traceSoftwareWrite p ch v s, Within.ofChip (Only.traced s.chip)⟩,
    fun p k info v n s _ _ => ⟨_, exec_tracedExceptionOrBranch p k info v n s, Within.ofChip (Only.traced s.chip)⟩,
    fun p ch k info v n s i bit type inf cyc cap hi hcap => ?_, fun p s r c q first l h hq hfirst hl => ?_⟩
  · have hexec : exec i s = next s (s.chip.traced p.val bit type inf v.toNat cyc) := by
      rw [List.mem_pair] at hi
      rcases hi with hi | hi <;> cases hi
      · exact exec_traceSoftwareWrite p ch v s
      · exact exec_tracedExceptionOrBranch p k info v n s
    refine ⟨fun hn => hexec.trans (congrArg (next s) (Chip.traced_rests hn ..)), fun hon hr => ?_⟩
    have hwrites := Chip.traced_writes hon hr type inf v.toNat cyc
    have hpart := s.chip.part_modPart p.val (f := Partition.trace (s.chip.shareSize p.val / 8) type inf v.toNat cyc)
    rw [← hwrites, ← hcap] at hpart
    have hown := hpart p.val
    rw [if_pos rfl] at hown
    refine ⟨_, hexec, ?_⟩
    dsimp only
    refine ⟨fun q hq => (hpart q).trans (if_neg hq), by rw [hwrites]; rfl, Within.ofChip (Only.traced s.chip), fun h0 => ?_, fun h0 hc hf => ?_,
      fun h0 hroom hsize => ?_⟩ <;> rw [hown]
    · rw [h0, Partition.trace_empty]
    · rw [Partition.trace_full h0 hc hf]
      exact ⟨rfl, rfl, rfl⟩
    · obtain ⟨hw, hs, hd, hl, hm⟩ := Partition.trace_room h0 hroom type inf v.toNat
      exact ⟨hw, hs hsize, hd, hl, hm⟩
  · subst hl hfirst hq
    rw [exec_traceRead, hostRead_reaches h]
    rfl

end Sys2Proof.Machine
end

section
/-! SUPPORT. A window write that waits for the DRAM when its initialisation completes (R124, R368, R494, R497). -/

namespace Sys2Proof.Machine

/-- What a completion leaves to the replication journal (R497). -/
theorem Chip.pair_complete {s : Chip} {t : Target} {x : Session} (h0 : t.session ≠ 0) (hx : s.sessionOf t = some x) (code : Nat) (data : Bytes) (delay : Nat) :
    (s.complete t code data delay).pair = ((s.modSession t.session (Session.complete t code data delay)).journalLedger t).pair := by
  have hanswers : ∀ (l : List Target) (c : Chip), Only [.host, .out] c (l.foldl (fun c d => c.answer d code data delay) c) := fun l c =>
    Only.foldl _ (fun c _ => Only.answer c) l c
  unfold Chip.complete
  rw [if_neg h0, hx]
  exact ((hanswers _ _).get .pair).trans ((Only.answer _).get .pair)

/-! ## The counterexample -/

/-- A tagged write of the window of session 1. -/
def waitingTarget : Target := { path := .can .canA 5, session := 1, tag := 7, tagged := true, index := 0x5000, sub := 3 }

/-- The CAN-bound session 1, whose write is in progress. -/
def waitingSession : Session := { level := .operator, client := 5, busy := true, ledger := [{ tag := 7, index := 0x5000, sub := 3, inProgress := true }] }

/-- An active device whose standby is synchronised, with that session, while the DRAM is initialised. -/
def Chip.initialising (stalled : List DramReq) : Chip :=
  { dram := { mode := .initialising, stalled := stalled }, host := { sessions := [(1, waitingSession)] }, pair := { state := .activePaired } }

/-- The write is held by its producer. -/
def waitingWrite : DramReq := { write := true, dest := some waitingTarget, len := 64, data := List.replicate 64 0 }

/-- The failed request is the write, and it completes with 0x0008. -/
theorem failRequests_initialising : (Chip.initialising [waitingWrite]).failRequests 8 = (Chip.initialising []).complete waitingTarget 8 [] 0 := rfl

/-- Its ledger entry goes into the open epoch (R494). -/
theorem journalLedger_initialising :
    (((Chip.initialising []).modSession 1 (Session.complete waitingTarget 8 [] 0)).journalLedger waitingTarget).pair.open_.entries.length = 1 := rfl

theorem Only.checkLayout (s : Chip) : Only [.dram, .recorder] s s.checkLayout := by
  unfold Chip.checkLayout
  exact (Only.ite (Only.refl s _) ((Only.modDram s).mono (by simp))).comp (Only.ite (Only.refl _ _) ((Only.record _).mono (by simp)))

/-- The DRAM's initialisation reaches no replication journal. -/
theorem Only.dramInitialised {f} (s : Chip) : Only [.dram, .recorder, .islands, .host, .out] s ((s.modDram f).checkLayout.runIsland 8) :=
  (((Only.modDram s).mono (by simp)).comp ((Only.checkLayout _).mono (by simp))).comp ((Only.runIsland _).mono (by simp))

/-- The DRAM as its initialisation leaves it (R368). -/
def Dram.initialised (d : Dram) : Dram :=
  { d with
    bytes := [], badBursts := [], generation := (d.generation + 1) % 65536, retiring := none
    channels := d.channels.map fun c => { c with banks := [], draining := false, postponed := [], roundDone := [] }
    mode := if d.inService = 3 then .twoChannels else .oneChannel }

theorem dramInitComplete_eq (s : Chip) : dramInitComplete s =
    if (s.dram.mode ≠ .initialising ∧ s.dram.mode ≠ .retiring) ∨ s.clk.refLost then s
    else ((s.failRequests 8).modDram Dram.initialised).checkLayout.runIsland 8 := rfl

/-- The end of the initialisation leaves the replication journal as the failed requests left it. -/
theorem dramInitComplete_pair {s : Chip} (hm : s.dram.mode = .initialising) (hr : s.clk.refLost = false) :
    (dramInitComplete s).pair = (s.failRequests 8).pair := by
  have hpair : (((s.failRequests 8).modDram Dram.initialised).checkLayout.runIsland 8).pair = (s.failRequests 8).pair :=
    (Only.dramInitialised (s.failRequests 8)).get .pair
  rw [dramInitComplete_eq, if_neg (by simp [hm, hr]), hpair]

theorem exec_dramInitComplete {s t : State} (h : exec .dramInitComplete s = .next t) : t.chip = dramInitComplete s.chip :=
  (congrArg State.chip (Host.Outcome.next.inj h)).symm

/-- Refutes O41: where a write of a CAN-bound session still waits for the DRAM, its completion by DRAM_INIT_COMPLETE is journalled, so that the
pair changes too. -/
theorem not_dramTrainingRows : ¬ Obligations.DramTrainingRows := by
  unfold Obligations.DramTrainingRows
  rintro ⟨-, -, hinit, -⟩
  obtain ⟨t, ht, -, -, -, -, honly, -, -⟩ := hinit { chip := Chip.initialising [waitingWrite] } rfl rfl
  have hkept : t.chip.pair = (Chip.initialising [waitingWrite]).pair := honly.get .pair
  rw [exec_dramInitComplete ht] at hkept
  have hopen : (dramInitComplete (Chip.initialising [waitingWrite])).pair.open_.entries.length = 1 := by
    rw [dramInitComplete_pair rfl rfl, failRequests_initialising, Chip.pair_complete (t := waitingTarget) (x := waitingSession) (by decide) rfl]
    exact journalLedger_initialising
  rw [hkept] at hopen
  exact absurd hopen (by decide)

end Sys2Proof.Machine
end

section
/-! SUPPORT. A block of a partial write whose transfer is gone, at its grant (R362, R367, R372). -/

namespace Sys2Proof.Machine

/-- A whole burst that belongs to a write of less than whole bursts. -/
def blockOfPartial : DramReq := { cls := .conductor, write := true, rmw := true, tx := 1, len := 64, data := List.replicate 64 1 }

/-- A device whose MI serves, with that block alone in channel 0 and no transfer that it belongs to. -/
def Chip.grantsBlock : Chip :=
  { islands := List.replicate 11 .running, dram := { mode := .twoChannels, inService := 3, channels := [{ state := .running, queue := [blockOfPartial] }, {}] } }

/-- Such a block stores nothing when it is granted. -/
theorem dramGrant_block : (dramGrant 0 Chip.grantsBlock).dram.bytes = [] := rfl

theorem exec_dramRequestGrant {k : Fin 2} {s t : State} (h : exec (.dramRequestGrant k) s = .next t) : t.chip = dramGrant k.val s.chip :=
  (congrArg State.chip (Host.Outcome.next.inj h)).symm

/-- Refutes O42: a whole burst may be a block of a partial write, which lands with the last block of its transfer and not at its grant. -/
theorem not_dramAccessRows : ¬ Obligations.DramAccessRows := by
  unfold Obligations.DramAccessRows
  rintro ⟨-, -, hwrite, -⟩
  obtain ⟨t, ht, -, hbytes, -⟩ := hwrite 0 blockOfPartial { chip := Chip.grantsBlock } rfl (by decide) rfl rfl rfl rfl rfl rfl rfl rfl rfl rfl (by decide) (by decide)
  have hfirst : SMap.get t.chip.dram.bytes 0 (blockOfPartial.addr + 0) = blockOfPartial.data.getD 0 0 := hbytes 0 (by decide)
  rw [exec_dramRequestGrant ht] at hfirst
  have hnone : (dramGrant (0 : Fin 2).val Chip.grantsBlock).dram.bytes = [] := dramGrant_block
  rw [hnone] at hfirst
  exact absurd hfirst (by decide)

end Sys2Proof.Machine
end

section
/-! SUPPORT. What leaves the pair as it was, but for the journal and the last PAIR-STATE (R497, R500), and the lost standby with the takeover
(R502 to R505). -/

namespace Sys2Proof.Machine

/-! ## The pair as it was -/

/-- From `a` to `b` the pair is as it was, but for the last PAIR-STATE sent and, where the device journals, the entries of the open epoch. -/
structure PairKept (a b : Chip) : Prop where
  pair : b.pair = { a.pair with open_ := b.pair.open_, stateSent := b.pair.stateSent }
  unjournalled : a.journals = false → b.pair.open_ = a.pair.open_

theorem PairKept.eq {a b : Chip} (h : b.pair = a.pair) : PairKept a b := ⟨by rw [h], fun _ => by rw [h]⟩

theorem PairKept.refl (a : Chip) : PairKept a a := PairKept.eq rfl

theorem PairKept.only {a b : Chip} {ps : List Part} (h : Only ps a b) (hp : Part.pair ∉ ps := by decide) : PairKept a b := PairKept.eq (h .pair hp)

/-- A field of the pair that is neither the open epoch nor the last PAIR-STATE. -/
theorem PairKept.field {α : Type} {a b : Chip} (h : PairKept a b) (g : Pair → α) (hg : ∀ p o t, g { p with open_ := o, stateSent := t } = g p := by exact fun _ _ _ => rfl) :
    g b.pair = g a.pair := (congrArg g h.pair).trans (hg _ _ _)

theorem PairKept.journals {a b : Chip} (h : PairKept a b) : b.journals = a.journals := h.field fun p => p.state == .activeSync || p.state == .activePaired

theorem PairKept.trans {a b c : Chip} (h : PairKept a b) (k : PairKept b c) : PairKept a c := by
  refine ⟨k.pair.trans ?_, fun hj => (k.unjournalled (h.journals.trans hj)).trans (h.unjournalled hj)⟩
  exact (congrArg (fun p : Pair => { p with open_ := c.pair.open_, stateSent := c.pair.stateSent }) h.pair).trans rfl

theorem PairKept.ite {a b c : Chip} {p : Prop} [Decidable p] (h : PairKept a b) (k : PairKept a c) : PairKept a (if p then b else c) := by
  split <;> assumption

theorem PairKept.foldl {α : Type _} (f : Chip → α → Chip) (h : ∀ s x, PairKept s (f s x)) (l : List α) (s : Chip) : PairKept s (l.foldl f s) := by
  induction l generalizing s with
  | nil => exact PairKept.refl s
  | cons x l ih => exact (h s x).trans (ih (f s x))

theorem PairKept.journal (k : Bool) (type : Nat) (d : Bytes) (s : Chip) : PairKept s (s.journal k type d) := by
  unfold Chip.journal
  split
  next hj => exact ⟨rfl, fun hn => absurd hj (by simp [hn])⟩
  next => exact PairKept.refl s

theorem PairKept.journalLedger (t : Target) (s : Chip) : PairKept s (s.journalLedger t) := by
  unfold Chip.journalLedger
  split
  · split
    · exact PairKept.ite (PairKept.refl s) (PairKept.journal ..)
    · exact PairKept.refl s
  · exact PairKept.refl s

theorem PairKept.complete (t : Target) (code : Nat) (data : Bytes) (delay : Nat) (s : Chip) : PairKept s (s.complete t code data delay) := by
  unfold Chip.complete
  split
  · exact PairKept.only (Only.answer s)
  · split
    · exact PairKept.only (Only.freeEntry s)
    · exact (((PairKept.only (Only.modSession s)).trans (PairKept.journalLedger ..)).trans (PairKept.only (Only.answer _))).trans
        (PairKept.foldl _ (fun c _ => PairKept.only (Only.answer c)) _ _)

/-- The answers that waited for an epoch. -/
theorem PairKept.completeAll {α : Type _} (dest : α → Target) (code : α → Nat) (data : α → Bytes) (l : List α) (s : Chip) :
    PairKept s (l.foldl (fun c x => c.complete (dest x) (code x) (data x) 0) s) := PairKept.foldl _ (fun c _ => PairKept.complete _ _ _ _ c) l s

theorem PairKept.journalEmptied (o k : Nat) (s : Chip) : PairKept s (s.journalEmptied o k) := PairKept.ite (PairKept.refl s) (PairKept.journal ..)

theorem PairKept.destroyKey (k : Nat) (s : Chip) : PairKept s (s.destroyKey k) :=
  ((PairKept.only (Only.modKeys s)).trans (PairKept.only (Only.freeBlock _))).trans (PairKept.journalEmptied ..)

theorem PairKept.journalOwner (n : Nat) (s : Chip) : PairKept s (s.journalOwner n) := by
  unfold Chip.journalOwner
  exact PairKept.ite (PairKept.refl s) ((PairKept.journal _ _ _ s).trans (PairKept.journal ..))

theorem PairKept.journalSlot (n : Nat) (s : Chip) : PairKept s (s.journalSlot n) := by
  unfold Chip.journalSlot
  split
  · exact PairKept.ite (PairKept.refl s) (PairKept.journal ..)
  · exact PairKept.refl s

theorem PairKept.journalSession (n : Nat) (e : Bool) (s : Chip) : PairKept s (s.journalSession n e) := by
  unfold Chip.journalSession
  split
  · exact PairKept.ite (PairKept.refl s) (PairKept.journal ..)
  · exact PairKept.refl s

theorem PairKept.syncSession (n : Nat) (x : Session) (s : Chip) : PairKept s (s.syncSession n x) := by
  unfold Chip.syncSession
  refine PairKept.ite (PairKept.refl s) ?_
  have hledger : ∀ (l : List LedgerEntry) (c : Chip), PairKept c (l.foldl (fun t e => t.journal false 6 (be 1 n ++ e.bytes ++ pad 16 e.data)) c) := fun l c =>
    PairKept.foldl _ (fun t e => PairKept.journal _ _ _ t) l c
  exact ((PairKept.journalSession n false s).trans (hledger _ _)).trans (PairKept.ite (PairKept.refl _) (PairKept.journal ..))

theorem Only.sendPair {k d} (s : Chip) : Only [.cluster, .out] s (s.sendPair k d) := by
  unfold Chip.sendPair
  split
  · exact (((Only.modCluster s).mono (by simp)).comp ((Only.modCluster _).mono (by simp))).comp (Only.pumpFlow 4 _)
  · exact Only.refl s _

theorem PairKept.sendPairState (s : Chip) : PairKept s s.sendPairState := by
  unfold Chip.sendPairState
  refine PairKept.ite (PairKept.refl s) ?_
  have hsent : ∀ c : Chip, PairKept c (c.modPair fun p => { p with stateSent := s.pairState }) := fun c => ⟨rfl, fun _ => rfl⟩
  exact (PairKept.only (Only.sendPair s)).trans (hsent _)

theorem PairKept.changePair (f : Pair → Pair) (s : Chip) : PairKept (s.modPair f) (s.changePair f) := PairKept.sendPairState _

theorem Only.changePair {f} (s : Chip) : Only [.pair, .cluster, .out] s (s.changePair f) :=
  ((Only.modPair s).mono (by simp)).comp (Only.sendPairState _)

theorem Only.releaseRecords (s : Chip) : Only [.crypto] s s.releaseRecords := Only.modCrypto s

/-! ## The lost standby (R503) -/

/-- The pair of an active device that has lost its standby. -/
def Pair.alone (p : Pair) : Pair := { p with state := .activeLost, awaiting := none, open_ := {}, syncLeft := 0 }

theorem Chip.loseStandby_none {s : Chip} (h : s.journals = false) (cause : Nat) : s.loseStandby cause = s := if_pos h

theorem Chip.loseStandby_kept {s : Chip} (h : s.journals = true) (cause : Nat) : PairKept (s.modPair Pair.alone) (s.loseStandby cause) := by
  unfold Chip.loseStandby
  rw [if_neg (by simp [h])]
  extract_lets p w number changed released
  have hreleased : PairKept (s.modPair Pair.alone) released :=
    ((PairKept.changePair Pair.alone s).trans (PairKept.only (Only.record changed))).trans (PairKept.only (Only.releaseRecords _))
  exact hreleased.trans (PairKept.completeAll ..)

theorem Chip.loseStandby_reads {s : Chip} (h : s.journals = true) (cause : Nat) :
    (s.loseStandby cause).pair.state = .activeLost ∧ (s.loseStandby cause).pair.awaiting = none ∧ (s.loseStandby cause).pair.open_ = {} ∧
      (s.loseStandby cause).pair.committed = s.pair.committed := by
  have hkept := Chip.loseStandby_kept h cause
  exact ⟨hkept.field Pair.state, hkept.field Pair.awaiting, hkept.unjournalled rfl, hkept.field Pair.committed⟩

/-! ## Takeover (R504, R505) -/

/-- A standby whose partial epoch is discarded and whose generation is the next. -/
def Chip.nextPairGeneration (s : Chip) : Chip :=
  s.modPair fun p =>
    { p with receiving := [], receivingEpoch := 0, discarded := if (s.pair.receiving != []) = true then satAdd 32 p.discarded 1 else p.discarded
             generation := p.generation + 1 }

/-- The sessions on the buses count their time from now. -/
def Chip.sessionsTouched (s : Chip) : Chip :=
  s.modHost fun h => { h with sessions := h.sessions.map fun e => (e.1, if e.2.isSpi then e.2 else { e.2 with lastReq := s.clk.ticks }) }

/-- The pair of the new active. -/
def Pair.takenOver (p : Pair) : Pair := { p with asActive := true, state := .activeLost, takeovers := p.takeovers + 1 }

theorem Only.derivePair (s : Chip) : Only [.pair] s s.derivePair := Only.modPair s

theorem Chip.takeOver_eq (s : Chip) : ∃ d, s.takeOver = (s.nextPairGeneration.sessionsTouched.derivePair.changePair Pair.takenOver).record 0xB005 3 d := ⟨_, rfl⟩

theorem Only.takeOver (s : Chip) : Only [.pair, .host, .cluster, .out, .recorder] s s.takeOver := by
  obtain ⟨d, hd⟩ := s.takeOver_eq
  rw [hd]
  exact (((((Only.modPair s).mono (by simp)).comp ((Only.modHost _).mono (by simp))).comp ((Only.derivePair _).mono (by simp))).comp
    ((Only.changePair _).mono (by simp))).comp ((Only.record _).mono (by simp))

theorem Chip.takeOver_reads (s : Chip) : s.takeOver.pair.state = .activeLost ∧ s.takeOver.pair.asActive = true ∧
    s.takeOver.pair.generation = s.pair.generation + 1 ∧ s.takeOver.pair.receiving = [] ∧ s.takeOver.pair.committed = s.pair.committed := by
  obtain ⟨d, hd⟩ := s.takeOver_eq
  have hkept : PairKept (s.nextPairGeneration.sessionsTouched.derivePair.modPair Pair.takenOver) s.takeOver := by
    rw [hd]
    exact (PairKept.changePair _ _).trans (PairKept.only (Only.record _))
  exact ⟨hkept.field Pair.state, hkept.field Pair.asActive, hkept.field Pair.generation, hkept.field Pair.receiving, hkept.field Pair.committed⟩

/-! ## O59 -/

theorem exec_ackTimeout (s : State) : exec .ackTimeout s = next s (ackTimeout s.chip) := rfl
theorem exec_automaticTakeover (s : State) : exec .automaticTakeover s = next s (automaticTakeover s.chip) := rfl

theorem exec_pairStateSilence (s : State) :
    exec .pairStateSilence s = next s (if s.chip.silent then s.chip.loseStandby 3 else s.chip) := rfl

theorem exec_takeOver {p : Path} {tag : Word16} {s : State} {r : Req} {c : Chip} (h : gate p tag 0x4B00 0x0E [1] (fun _ _ => 0) s.chip = .go r c) :
    exec (.takeOver p tag) s = next s (Chip.finish r.dest (takeOverWrite r c)) := congrArg (next s) (hostWrite_go h)

theorem ackTimeout_none {s : Chip} (h : s.pair.awaiting = none ∨ s.journals = false) : ackTimeout s = s := by
  unfold ackTimeout
  split
  next e he => exact (congrArg (fun c => if s.overMs e.sentAt s.pair.ackMs = true then c else s)
      (Chip.loseStandby_none (h.resolve_left (by simp [he])) 1)).trans (ite_self _)
  next => rfl

theorem ackTimeout_awaiting {s : Chip} {e : Epoch} (h : s.pair.awaiting = some e) :
    ackTimeout s = if s.overMs e.sentAt s.pair.ackMs = true then s.loseStandby 1 else s := by
  unfold ackTimeout
  rw [h]

theorem automaticTakeover_none {s : Chip} (h : s.pair.state ≠ .standbySynced ∨ s.pair.takeover ≠ 1 ∨ s.silent = false ∨ s.partnerLost = false) :
    automaticTakeover s = s := by
  refine if_neg ?_
  rintro ⟨h1, h2, h3, h4⟩
  simp [h1, h2, h3, h4] at h

theorem takeOverWrite_refused (r : Req) {c : Chip} (h : c.pair.state ≠ .standbySynced ∨ c.silent = false) : takeOverWrite r c = (c, bad 0xB004) := by
  refine if_neg ?_
  rintro ⟨h1, h2⟩
  simp [h1, h2] at h

theorem takeOverWrite_takes (r : Req) {c : Chip} (h : c.pair.state = .standbySynced) (hs : c.silent = true) : takeOverWrite r c = (c.takeOver, ok) := if_pos ⟨h, hs⟩

/-- Settles O59: a standby is lost by a missing ACK or by silence, and takes over as the active of the next generation. -/
theorem takeoverRows : Obligations.TakeoverRows := by
  unfold Obligations.TakeoverRows
  refine ⟨fun s => ⟨fun h => ?_, fun e he ho => ?_, fun e he hj ho => ?_⟩, fun s => ⟨fun h => ?_, fun hs hj => ?_⟩,
    fun s => ⟨fun h1 h2 h3 h4 => ?_, fun h => ?_⟩, fun p tag s r c h => ⟨fun hn => ?_, fun h1 h2 => ?_⟩⟩
  · exact (exec_ackTimeout s).trans (congrArg (next s) (ackTimeout_none h))
  · exact (exec_ackTimeout s).trans (congrArg (next s) ((ackTimeout_awaiting he).trans (if_neg (by simp [ho]))))
  · exact ⟨_, (exec_ackTimeout s).trans (congrArg (next s) ((ackTimeout_awaiting he).trans (if_pos ho))), Chip.loseStandby_reads hj 1⟩
  · rw [exec_pairStateSilence]
    rcases h with h | h
    · exact congrArg (next s) (if_neg (by simp [h]))
    · rw [Chip.loseStandby_none h, ite_self]
      rfl
  · exact ⟨_, (exec_pairStateSilence s).trans (congrArg (next s) (if_pos hs)), Chip.loseStandby_reads hj 3⟩
  · obtain ⟨hstate, hactive, hgen, hrec, hcom⟩ := s.chip.takeOver_reads
    refine ⟨_, (exec_automaticTakeover s).trans (congrArg (next s) (if_pos ⟨h1, h2, h3, h4⟩)), ?_⟩
    dsimp only
    exact ⟨hstate, hactive, hgen, hrec, hcom, (Only.takeOver s.chip) .keys (by decide), Within.ofChip (Only.takeOver s.chip)⟩
  · exact (exec_automaticTakeover s).trans (congrArg (next s) (automaticTakeover_none h))
  · rw [exec_takeOver h, takeOverWrite_refused r hn]
    rfl
  · obtain ⟨hstate, hactive, hgen, hrec, hcom⟩ := c.takeOver_reads
    have hexec := exec_takeOver h
    rw [takeOverWrite_takes r h1 h2, finish_ok] at hexec
    exact ⟨c.takeOver, hexec, hstate, hactive, hgen, hrec, hcom, Only.takeOver c⟩

end Sys2Proof.Machine
end

section
/-! SUPPORT. Epochs, their messages and PAIR-STATE (R495, R498 to R503, R506). -/

namespace Sys2Proof.Machine

/-! ## An epoch closes (R498) -/

theorem firstEntries_append_drop (room : Nat) (l : List Bytes) : firstEntries room l ++ l.drop (firstEntries room l).length = l := by
  induction l generalizing room with
  | nil => rfl
  | cons e l ih =>
    unfold firstEntries
    split
    · rfl
    · exact congrArg (List.cons e) (ih _)

/-- The entries that lie beyond the first 64 KiB of the open epoch. -/
def Chip.laterEntries (s : Chip) : List Bytes := s.pair.open_.entries.drop (firstEntries bodyLimit s.pair.open_.entries).length

/-- The epoch that closes. -/
def Chip.closingEpoch (s : Chip) : Epoch :=
  { number := s.pair.committed + 1, entries := firstEntries bodyLimit s.pair.open_.entries, keyChange := s.pair.open_.keyChange, firstAt := s.pair.open_.firstAt
    waiters := if s.laterEntries = [] then s.pair.open_.waiters else [], sentAt := s.clk.ticks }

/-- A device whose closing epoch awaits its acknowledgement. -/
def Chip.epochAwaited (s : Chip) : Chip :=
  s.modPair fun p =>
    { p with awaiting := some s.closingEpoch, open_ := if s.laterEntries = [] then {} else { p.open_ with entries := s.laterEntries, firstAt := s.clk.ticks } }

theorem Only.sendEntries {k} (n off : Nat) (b : Bytes) (s : Chip) : Only [.cluster, .out] s (s.sendEntries k n off b) := by
  induction n generalizing off b s with
  | zero => exact Only.refl s _
  | succ n ih =>
    unfold Chip.sendEntries
    exact Only.ite (Only.refl s _) ((Only.sendPair s).comp (ih _ _ _))

theorem epochClose_none {s : Chip} (h : s.closes = false) : epochClose s = s := if_pos h

theorem epochClose_sends {s : Chip} (h : s.closes = true) : Only [.cluster, .out] s.epochAwaited (epochClose s) := by
  have hsent : ∀ (n k : Nat) (b d : Bytes) (c : Chip), Only [.cluster, .out] c ((c.sendEntries n k 0 b).sendPair 2 d) := fun _ _ _ _ c =>
    (Only.sendEntries _ _ _ c).comp (Only.sendPair _)
  unfold epochClose
  rw [if_neg (by simp [h])]
  exact hsent _ _ _ _ _

theorem Chip.closingEpoch_entries (s : Chip) : s.closingEpoch.entries ++ s.epochAwaited.pair.open_.entries = s.pair.open_.entries := by
  have hopen : s.epochAwaited.pair.open_.entries = s.laterEntries := by
    show (if s.laterEntries = [] then ({} : Epoch) else { s.pair.open_ with entries := s.laterEntries, firstAt := s.clk.ticks }).entries = s.laterEntries
    split
    next h => exact h.symm
    next => rfl
  rw [hopen]
  exact firstEntries_append_drop _ _

/-! ## ENTRY and COMMIT on the standby (R500, R501) -/

/-- A standby with a partial epoch begun. -/
def Chip.epochBegun (c : Chip) (b : Bytes) : Chip := { c with pair := { c.pair with receiving := b.drop 12, receivingEpoch := beNat (b.take 8) } }

/-- A standby with a partial epoch continued. -/
def Chip.epochContinued (c : Chip) (b : Bytes) : Chip := { c with pair := { c.pair with receiving := c.pair.receiving ++ b.drop 12 } }

theorem takeEntry_untaken {b : Bytes} {s c : Chip} (h : s.takeMessage 1 b = (false, c)) : takeEntry b s = c := by
  unfold takeEntry
  rw [h]
  exact if_pos (.inl rfl)

theorem takeEntry_taken {b : Bytes} {s c : Chip} (h : s.takeMessage 1 b = (true, c)) (h12 : 12 < b.length) (h252 : b.length ≤ 252)
    (hs : c.pair.state = .standbySync ∨ c.pair.state = .standbySynced) :
    takeEntry b s = if beNat (slice b 8 4) = 0 then c.epochBegun b
      else if beNat (b.take 8) = c.pair.receivingEpoch ∧ beNat (slice b 8 4) = c.pair.receiving.length then c.epochContinued b else c := by
  have htaken : ¬ (true = false ∨ b.length ≤ 12 ∨ 252 < b.length ∨ (c.pair.state ≠ .standbySync ∧ c.pair.state ≠ .standbySynced)) := by
    rintro (hf | hf | hf | ⟨hf, hg⟩)
    · exact Bool.noConfusion hf
    · omega
    · omega
    · exact hs.elim hf hg
  unfold takeEntry
  rw [h]
  exact if_neg htaken

theorem takeCommit_untaken {b : Bytes} {s c : Chip} (h : s.takeMessage 2 b = (false, c)) : takeCommit b s = c := by
  unfold takeCommit
  rw [h]
  exact if_pos (.inl rfl)

/-- A standby with the entries of an epoch in effect. -/
def Chip.applyAll (c : Chip) (l : List (Nat × Bytes)) : Chip := l.foldl (fun t e => t.applyEntry e) c

/-- A standby with an epoch committed. -/
def Chip.epochCommitted (c : Chip) (number : Nat) : Chip :=
  c.modPair fun p => { p with receiving := [], receivingEpoch := 0, committed := number, epochs := satAdd 32 p.epochs 1 }

section
variable {b : Bytes} {s c : Chip} (h : s.takeMessage 2 b = (true, c)) (hs : c.pair.state = .standbySync ∨ c.pair.state = .standbySynced)
include h hs

theorem takeCommit_taken : takeCommit b s =
    if c.commitStatus b ≠ 0 then c.discardEpoch (beNat (slice b 8 8)) (c.commitStatus b)
    else match c.receivedEntries b with
      | none => c.discardEpoch (beNat (slice b 8 8)) 3
      | some l => ((c.applyAll l).epochCommitted (beNat (slice b 8 8))).sendPair 3 (be 8 (beNat (slice b 8 8)) ++ [0]) := by
  have htaken : ¬ (true = false ∨ (c.pair.state ≠ .standbySync ∧ c.pair.state ≠ .standbySynced)) := by
    rintro (hf | ⟨hf, hg⟩)
    · exact Bool.noConfusion hf
    · exact hs.elim hf hg
  unfold takeCommit
  rw [h]
  exact (if_neg htaken).trans rfl

theorem takeCommit_discards (hn : c.commitStatus b ≠ 0 ∨ c.receivedEntries b = none) : ∃ status, takeCommit b s = c.discardEpoch (beNat (slice b 8 8)) status := by
  rw [takeCommit_taken h hs]
  by_cases hstatus : c.commitStatus b = 0
  · rw [if_neg (by simp [hstatus]), hn.resolve_left (by simp [hstatus])]
    exact ⟨3, rfl⟩
  · rw [if_pos hstatus]
    exact ⟨_, rfl⟩

theorem takeCommit_commits {l : List (Nat × Bytes)} (h0 : c.commitStatus b = 0) (hl : c.receivedEntries b = some l) :
    takeCommit b s = ((c.applyAll l).epochCommitted (beNat (slice b 8 8))).sendPair 3 (be 8 (beNat (slice b 8 8)) ++ [0]) := by
  rw [takeCommit_taken h hs, if_neg (by simp [h0]), hl]

end

/-- A standby without its partial epoch. -/
def Chip.epochDropped (c : Chip) : Chip := c.modPair fun p => { p with receiving := [], receivingEpoch := 0, discarded := satAdd 32 p.discarded 1 }

theorem Chip.discardEpoch_sends (c : Chip) (number status : Nat) : Only [.recorder, .cluster, .out] c.epochDropped (c.discardEpoch number status) :=
  ((Only.record c.epochDropped).mono (by simp)).comp ((Only.sendPair _).mono (by simp))

/-! ## REPLICATION_ACK (R502, R503) -/

/-- The pair with its epoch acknowledged. -/
def Pair.epochDone (e : Epoch) (us : Nat) (p : Pair) : Pair :=
  { p with
    awaiting := none, committed := e.number, epochs := satAdd 32 p.epochs 1, longest := max p.longest us, syncLeft := p.syncLeft - e.entries.length
    state := if (p.state == .activeSync && decide (p.syncLeft ≤ e.entries.length)) = true then .activePaired else p.state }

theorem Chip.acknowledged_kept (e : Epoch) (s : Chip) : PairKept (s.modPair (Pair.epochDone e ((s.clk.ticks - e.sentAt) / 400))) (s.acknowledged e) := by
  have hchanged : PairKept (s.modPair (Pair.epochDone e ((s.clk.ticks - e.sentAt) / 400))) (s.changePair (Pair.epochDone e ((s.clk.ticks - e.sentAt) / 400))) :=
    PairKept.changePair _ s
  have hafter : ∀ (c : Chip) (p : Prop) [Decidable p] (d : Bytes), PairKept c (e.waiters.foldl (fun t x => t.complete x.dest x.code x.data 0)
      (if p then c.record 0xB002 3 d else c).releaseRecords) := fun c p _ d =>
    ((PairKept.ite (PairKept.only (Only.record c)) (PairKept.refl c)).trans (PairKept.only (Only.releaseRecords _))).trans (PairKept.completeAll ..)
  exact hchanged.trans (hafter ..)

theorem takeReplicationAck_rests {b : Bytes} {s c : Chip} (h : s.takeMessage 3 b = (false, c) ∨ (s.takeMessage 3 b).2.pair.awaiting = none) :
    takeReplicationAck b s = (s.takeMessage 3 b).2 := by
  unfold takeReplicationAck
  dsimp only
  split
  next => rfl
  next e he =>
    rcases h with h | h
    · exact if_pos (.inl (by rw [h]))
    · rw [h] at he
      cases he

theorem takeReplicationAck_taken {b : Bytes} {s c : Chip} {e : Epoch} (h : s.takeMessage 3 b = (true, c)) (he : c.pair.awaiting = some e) (hl : b.length = 9)
    (hn : beNat (b.take 8) = e.number) : takeReplicationAck b s = if byteAt b 8 = 0 then c.acknowledged e else c.loseStandby 2 := by
  unfold takeReplicationAck
  rw [h]
  dsimp only
  rw [he]
  exact if_neg (by simp [hl, hn])

/-! ## PAIR_STATE_SEND (R500) -/

theorem Chip.sendPairState_none {s : Chip} (h : s.pair.state = .unpaired ∨ s.runs 3 = false ∨ s.ringMember s.pair.partner.toNat = none) :
    s.sendPairState = s := by
  refine if_pos ?_
  rwa [Option.isNone_iff_eq_none]

/-- A device that no longer counts the flow to its partner as ended. -/
def Chip.flowRenewed (s : Chip) : Chip := s.modCluster fun c => { c with flowsEnded := c.flowsEnded.filter (· != s.pair.partner.toNat) }

/-- A content at the end of a flow. -/
def Chip.queuedTo (s : Chip) (p : Nat) (d : Bytes) : Chip := s.modFlow p fun x => { x with queued := x.queued ++ [d] }

theorem Only.queuedTo {p d} (s : Chip) : Only [.cluster] s (s.flowRenewed.queuedTo p d) := (Only.modCluster s).comp (Only.modCluster _)

/-- The frame of a content that leaves its flow. -/
theorem Chip.handed_sendNext (s : Chip) (p : Nat) (d : Bytes) (ds : List Bytes) :
    Handed { type := 0x0A, cluster := s.cluster.clusterId.toNat, src := s.cluster.position, dst := p, seq := (s.flow p).nextSeq, payload := d } false s
      (s.sendNext p d ds) := by
  have hsent := handed_sendTo (type := 0x0A) (by decide) (by decide) p (s.flow p).nextSeq d (s.modFlow p (Flow.sendNext s.clk.ticks d ds))
  exact hsent.before (Only.modCluster s) rfl rfl

/-- The device's PAIR-STATE as DATA to its partner. -/
def Chip.pairStateContent (s : Chip) : Bytes := [1] ++ le 1 4 ++ s.pairState

section
variable {s : Chip} {m : Nat × Member} (hu : s.pair.state ≠ .unpaired) (hr : s.runs 3 = true) (hm : s.ringMember s.pair.partner.toNat = some m)
  (hq : (s.flow m.1).queued = []) (hw : (s.flow m.1).waiting.length < 4) (hh : s.cluster.state ≠ .holdOver) (h0 : s.cluster.size ≠ 0)

include hu hr hm in
theorem Chip.sendPairState_sends : s.sendPairState =
    (((s.flowRenewed.queuedTo m.1 s.pairStateContent).pumpFlow m.1 4).modPair fun p => { p with stateSent := s.pairState }) := by
  unfold Chip.sendPairState Chip.sendPair
  rw [if_neg (by simp [hu, hr, hm]), hm]
  rfl

include hq hw hh h0

/-- With room in the flow the content leaves as the next frame. -/
theorem Chip.pumpFlow_once (d : Bytes) :
    (s.flowRenewed.queuedTo m.1 d).pumpFlow m.1 4 = (s.flowRenewed.queuedTo m.1 d).sendNext m.1 d [] := by
  have hflow : (s.flowRenewed.queuedTo m.1 d).flow m.1 = { s.flow m.1 with queued := (s.flow m.1).queued ++ [d] } :=
    (Chip.flow_modFlow _ _ _ _).trans (if_pos rfl)
  have hqueued : ((s.flowRenewed.queuedTo m.1 d).flow m.1).queued = [d] := by rw [hflow, hq]; rfl
  have hroom : ¬ (4 ≤ ((s.flowRenewed.queuedTo m.1 d).flow m.1).waiting.length ∨ (s.flowRenewed.queuedTo m.1 d).cluster.state = .holdOver ∨
      (s.flowRenewed.queuedTo m.1 d).cluster.size = 0) := by
    rw [hflow]
    rintro (hf | hf | hf)
    · exact absurd hf (Nat.not_le.mpr hw)
    · exact hh hf
    · exact h0 hf
  rw [Chip.pumpFlow_sends 3 hqueued hroom, Chip.pumpFlow_empty 2 (by rw [Chip.flow_sendNext]; rfl)]

/-- The frame of a content that finds room in its flow. -/
theorem Chip.handed_once (d : Bytes) :
    Handed { type := 0x0A, cluster := s.cluster.clusterId.toNat, src := s.cluster.position, dst := m.1, seq := (s.flow m.1).nextSeq, payload := d } false s
      ((s.flowRenewed.queuedTo m.1 d).pumpFlow m.1 4) := by
  have hflow : (s.flowRenewed.queuedTo m.1 d).flow m.1 = { s.flow m.1 with queued := (s.flow m.1).queued ++ [d] } :=
    (Chip.flow_modFlow _ _ _ _).trans (if_pos rfl)
  have hseq : ((s.flowRenewed.queuedTo m.1 d).flow m.1).nextSeq = (s.flow m.1).nextSeq := by rw [hflow]
  have hsent := Chip.handed_sendNext (s.flowRenewed.queuedTo m.1 d) m.1 d []
  rw [hseq] at hsent
  rw [Chip.pumpFlow_once hq hw hh h0]
  exact hsent.before (Only.queuedTo s) rfl rfl

theorem Chip.waiting_once (d : Bytes) :
    (((s.flowRenewed.queuedTo m.1 d).pumpFlow m.1 4).flow m.1).waiting = (s.flow m.1).waiting ++ [((s.flow m.1).nextSeq, d)] := by
  have hflow : (s.flowRenewed.queuedTo m.1 d).flow m.1 = { s.flow m.1 with queued := (s.flow m.1).queued ++ [d] } :=
    (Chip.flow_modFlow _ _ _ _).trans (if_pos rfl)
  rw [Chip.pumpFlow_once hq hw hh h0, Chip.flow_sendNext, hflow]
  rfl

end

/-! ## PAIR_STATE (R500, R503, R506) -/

/-- From `a` to `b` the partner's last PAIR-STATE and its time are as they were. -/
structure HeardKept (a b : Chip) : Prop where
  partnerState : b.pair.partnerState = a.pair.partnerState
  lastState : b.pair.lastState = a.pair.lastState

theorem PairKept.heard {a b : Chip} (h : PairKept a b) : HeardKept a b := ⟨h.field Pair.partnerState, h.field Pair.lastState⟩

theorem HeardKept.trans {a b c : Chip} (h : HeardKept a b) (k : HeardKept b c) : HeardKept a c :=
  ⟨k.partnerState.trans h.partnerState, k.lastState.trans h.lastState⟩

theorem HeardKept.modPair {f : Pair → Pair} (s : Chip) (h1 : ∀ p, (f p).partnerState = p.partnerState := by exact fun _ => rfl)
    (h2 : ∀ p, (f p).lastState = p.lastState := by exact fun _ => rfl) : HeardKept s (s.modPair f) := ⟨h1 _, h2 _⟩

theorem HeardKept.changePair {f : Pair → Pair} (s : Chip) (h1 : ∀ p, (f p).partnerState = p.partnerState := by exact fun _ => rfl)
    (h2 : ∀ p, (f p).lastState = p.lastState := by exact fun _ => rfl) : HeardKept s (s.changePair f) :=
  (HeardKept.modPair s h1 h2).trans (PairKept.changePair f s).heard

/-- The pair of a fenced device. -/
def Pair.fenced (p : Pair) : Pair := { p with state := .fenced, awaiting := none, open_ := {}, syncLeft := 0 }

theorem Chip.fence_kept (g : Nat) (s : Chip) : PairKept (s.modPair Pair.fenced) (s.fence g) := by
  have hafter : ∀ (c : Chip) (l : List EpochWait) (d : Bytes),
      PairKept c ((l.foldl (fun t x => t.complete x.dest 0xB001 [] 0) c.releaseRecords).record 0xB006 3 d) := fun c l _ =>
    ((PairKept.only (Only.releaseRecords c)).trans (PairKept.completeAll EpochWait.dest (fun _ => 0xB001) (fun _ => []) l _)).trans (PairKept.only (Only.record _))
  exact (PairKept.changePair Pair.fenced s).trans (hafter ..)

theorem PairKept.discardReplica (s : Chip) : PairKept s s.discardReplica := by
  have hdestroyed : ∀ (l : List (Nat × Key)) (c : Chip), PairKept c (l.foldl (fun t e => t.destroyKey e.1) c) := fun l c =>
    PairKept.foldl _ (fun t _ => PairKept.destroyKey _ t) l c
  exact ((hdestroyed _ s).trans (PairKept.only (Only.modKeys _))).trans (PairKept.only (Only.modKeys _))

/-- The pair of an active device that begins to synchronise. -/
def Pair.syncing (p : Pair) : Pair := { p with state := .activeSync, awaiting := none, open_ := {} }

/-- A device with its replicated state journalled. -/
def Chip.stateJournalled (s : Chip) : Chip :=
  let s := (List.range 63).foldl (fun t i => t.journalOwner (i + 1)) s
  let s := s.keys.slots.foldl (fun t e => t.journalSlot e.1) s
  s.host.sessions.foldl (fun t e => t.syncSession e.1 e.2) s

theorem Chip.synchronise_eq (s : Chip) :
    s.synchronise = (s.modPair Pair.syncing).stateJournalled.changePair fun p => { p with syncLeft := p.open_.entries.length } := by
  unfold Chip.synchronise Chip.stateJournalled Pair.syncing
  rfl

theorem Chip.stateJournalled_kept (s : Chip) : PairKept s s.stateJournalled := by
  have howners : ∀ (l : List Nat) (c : Chip), PairKept c (l.foldl (fun t i => t.journalOwner (i + 1)) c) := fun l c =>
    PairKept.foldl _ (fun t i => PairKept.journalOwner (i + 1) t) l c
  have hslots : ∀ (l : SMap Key) (c : Chip), PairKept c (l.foldl (fun t e => t.journalSlot e.1) c) := fun l c =>
    PairKept.foldl _ (fun t e => PairKept.journalSlot e.1 t) l c
  have hsessions : ∀ (l : SMap Session) (c : Chip), PairKept c (l.foldl (fun t e => t.syncSession e.1 e.2) c) := fun l c =>
    PairKept.foldl _ (fun t e => PairKept.syncSession e.1 e.2 t) l c
  unfold Chip.stateJournalled
  extract_lets owners slots
  exact ((howners _ s).trans (hslots _ owners)).trans (hsessions _ slots)

theorem HeardKept.synchronise (s : Chip) : HeardKept s s.synchronise := by
  rw [Chip.synchronise_eq]
  exact ((HeardKept.modPair s).trans (Chip.stateJournalled_kept _).heard).trans (HeardKept.changePair _)

theorem HeardKept.pairHeard (role state generation committed was : Nat) (s : Chip) : HeardKept s (s.pairHeard role state generation committed was) := by
  have hrefl : HeardKept s s := ⟨rfl, rfl⟩
  unfold Chip.pairHeard
  dsimp only
  split
  · exact (HeardKept.modPair s).trans (s.fence_kept generation).heard
  · split
    · exact hrefl
    · split
      · split
        · exact (HeardKept.modPair s).trans (HeardKept.synchronise _)
        · exact hrefl
      · split
        · exact (HeardKept.changePair s).trans (PairKept.only (Only.record _)).heard
        · split
          · exact (PairKept.discardReplica s).heard
          · exact hrefl
      · split
        · exact (PairKept.discardReplica s).heard.trans (HeardKept.changePair _)
        · exact hrefl
      · exact hrefl

theorem Chip.pairHeard_fences {s : Chip} (hs : s.pair.state = .activeSync ∨ s.pair.state = .activePaired ∨ s.pair.state = .activeLost) {generation : Nat}
    (hg : s.pair.generation < generation) (state committed was : Nat) :
    (s.pairHeard 1 state generation committed was).pair.state = .fenced ∧ (s.pairHeard 1 state generation committed was).pair.awaiting = none := by
  have hfence : s.pairHeard 1 state generation committed was = s.fence generation := if_pos ⟨hs, rfl, hg⟩
  rw [hfence]
  exact ⟨(s.fence_kept generation).field Pair.state, (s.fence_kept generation).field Pair.awaiting⟩

theorem Chip.pairHeard_synced {s : Chip} (hs : s.pair.state = .standbySync) (committed was : Nat) :
    (s.pairHeard 1 3 s.pair.generation committed was).pair.state = .standbySynced := by
  have hkept : ∀ d, PairKept (s.modPair fun p => { p with state := .standbySynced }) ((s.changePair fun p => { p with state := .standbySynced }).record 0xB002 3 d) :=
    fun _ => (PairKept.changePair _ s).trans (PairKept.only (Only.record _))
  unfold Chip.pairHeard
  dsimp only
  rw [if_neg (by simp [hs]), if_neg (by simp), hs]
  dsimp only
  rw [if_pos ⟨rfl, rfl⟩]
  exact (hkept _).field Pair.state

/-- A device that has noted its partner's PAIR-STATE. -/
def Chip.stateNoted (c : Chip) (b : Bytes) : Chip := c.modPair fun p => { p with partnerState := b, lastState := c.clk.ticks }

theorem takePairState_untaken {b : Bytes} {s c : Chip} (h : s.takeMessage 4 b = (false, c)) : takePairState b s = c := by
  unfold takePairState
  rw [h]
  exact if_pos (.inl rfl)

theorem takePairState_taken {b : Bytes} {s c : Chip} (h : s.takeMessage 4 b = (true, c)) (hl : b.length = 46) (hu : c.pair.state ≠ .unpaired) :
    takePairState b s = (c.stateNoted b).pairHeard (byteAt b 0) (byteAt b 1) (beNat (slice b 2 4)) (beNat (slice b 6 8)) (byteAt c.pair.partnerState 1) := by
  unfold takePairState
  rw [h]
  exact if_neg (by simp [hl, hu])

/-! ## O58 -/

theorem exec_epochClose (s : State) : exec .epochClose s = next s (epochClose s.chip) := rfl
theorem exec_entry (b : Bytes) (s : State) : exec (.entry b) s = next s (takeEntry b s.chip) := rfl
theorem exec_commit (b : Bytes) (s : State) : exec (.commit b) s = next s (takeCommit b s.chip) := rfl
theorem exec_replicationAck (b : Bytes) (s : State) : exec (.replicationAck b) s = next s (takeReplicationAck b s.chip) := rfl
theorem exec_pairStateSend (s : State) : exec .pairStateSend s = next s s.chip.sendPairState := rfl
theorem exec_pairState (b : Bytes) (s : State) : exec (.pairState b) s = next s (takePairState b s.chip) := rfl

/-- Settles O58, message by message. -/
theorem replicationRows : Obligations.ReplicationRows := by
  unfold Obligations.ReplicationRows
  refine ⟨fun s => ⟨fun h => ?_, fun h => ?_⟩, fun b s c => ⟨fun h => ?_, fun h h12 h252 hs => ?_⟩, fun b s c => ⟨fun h => ?_, fun h hs => ⟨fun hn => ?_, fun l h0 hl => ?_⟩⟩,
    fun b s c => ⟨fun h => ?_, fun e h he hl hn hb => ?_, fun e h he hj hl hn hb => ?_⟩,
    fun s => ⟨fun h => ?_, fun hu hr => ⟨fun hm => ?_, fun m x hm hx hq hw hh h0 => ?_⟩⟩, fun b s c => ⟨fun h => ?_, fun h hl hu => ?_⟩⟩
  · exact (exec_epochClose s).trans (congrArg (next s) (epochClose_none h))
  · have hsent := epochClose_sends h
    have hpair : (epochClose s.chip).pair = s.chip.epochAwaited.pair := hsent .pair (by decide)
    refine ⟨_, s.chip.closingEpoch, exec_epochClose s, ?_⟩
    dsimp only
    rw [hpair]
    exact ⟨rfl, rfl, s.chip.closingEpoch_entries, rfl, rfl, Within.ofChip (((Only.modPair s.chip).mono (by simp)).comp (hsent.mono (by simp)))⟩
  · exact (exec_entry b s).trans (congrArg (next s) (takeEntry_untaken h))
  · have hstep := (exec_entry b s).trans (congrArg (next s) (takeEntry_taken h h12 h252 hs))
    refine ⟨fun h0 => ?_, fun h0 hnum hoff => ?_, fun h0 hno => ?_⟩
    · exact hstep.trans (congrArg (next s) (if_pos h0))
    · exact hstep.trans (congrArg (next s) ((if_neg h0).trans (if_pos ⟨hnum, hoff⟩)))
    · exact hstep.trans (congrArg (next s) ((if_neg h0).trans (if_neg (by tauto))))
  · exact (exec_commit b s).trans (congrArg (next s) (takeCommit_untaken h))
  · obtain ⟨status, hd⟩ := takeCommit_discards h hs hn
    have hsent := c.discardEpoch_sends (beNat (slice b 8 8)) status
    have hpair : (c.discardEpoch (beNat (slice b 8 8)) status).pair = c.epochDropped.pair := hsent .pair (by decide)
    refine ⟨_, (exec_commit b s).trans (congrArg (next s) hd), ?_⟩
    dsimp only
    rw [hpair]
    exact ⟨rfl, rfl, rfl, ((Only.modPair c).mono (by simp)).comp (hsent.mono (by simp))⟩
  · have hpair : (((c.applyAll l).epochCommitted (beNat (slice b 8 8))).sendPair 3 (be 8 (beNat (slice b 8 8)) ++ [0])).pair =
        ((c.applyAll l).epochCommitted (beNat (slice b 8 8))).pair := (Only.sendPair _) .pair (by decide)
    refine ⟨_, (exec_commit b s).trans (congrArg (next s) (takeCommit_commits h hs h0 hl)), ?_⟩
    dsimp only
    rw [hpair]
    exact ⟨rfl, rfl⟩
  · exact (exec_replicationAck b s).trans (congrArg (next s) (takeReplicationAck_rests h))
  · have hkept := c.acknowledged_kept e
    refine ⟨_, (exec_replicationAck b s).trans (congrArg (next s) ((takeReplicationAck_taken h he hl hn).trans (if_pos hb))), ?_⟩
    dsimp only
    refine ⟨hkept.field Pair.awaiting, hkept.field Pair.committed, hkept.field Pair.epochs, fun hs hsync => (hkept.field Pair.state).trans (if_pos ?_)⟩
    rw [hs, decide_eq_true hsync]
    rfl
  · obtain ⟨hstate, hawaiting, -, hcommitted⟩ := Chip.loseStandby_reads hj 2
    exact ⟨_, (exec_replicationAck b s).trans (congrArg (next s) ((takeReplicationAck_taken h he hl hn).trans (if_neg hb))), hawaiting, hstate, hcommitted⟩
  · exact (exec_pairStateSend s).trans (congrArg (next s) (Chip.sendPairState_none (h.imp_right .inl)))
  · exact (exec_pairStateSend s).trans (congrArg (next s) (Chip.sendPairState_none (.inr (.inr hm))))
  · subst hx
    have hpumped : Only [.cluster, .out] (s.chip.flowRenewed.queuedTo m.1 s.chip.pairStateContent)
        ((s.chip.flowRenewed.queuedTo m.1 s.chip.pairStateContent).pumpFlow m.1 4) := Only.pumpFlow 4 _
    have honly : Only [.cluster, .out] s.chip ((s.chip.flowRenewed.queuedTo m.1 s.chip.pairStateContent).pumpFlow m.1 4) :=
      ((Only.queuedTo s.chip).mono (by simp)).comp hpumped
    refine ⟨_, (exec_pairStateSend s).trans (congrArg (next s) (Chip.sendPairState_sends hu hr hm)), ?_⟩
    dsimp only
    refine ⟨(Chip.handed_once hq hw hh h0 _).after rfl rfl, Chip.waiting_once hq hw hh h0 _, ?_, Within.ofChip ((honly.mono (by simp)).comp ((Only.modPair _).mono (by simp)))⟩
    exact congrArg (fun p : Pair => { p with stateSent := s.chip.pairState }) (honly .pair (by decide))
  · exact (exec_pairState b s).trans (congrArg (next s) (takePairState_untaken h))
  · have hheard := HeardKept.pairHeard (byteAt b 0) (byteAt b 1) (beNat (slice b 2 4)) (beNat (slice b 6 8)) (byteAt c.pair.partnerState 1) (c.stateNoted b)
    refine ⟨_, (exec_pairState b s).trans (congrArg (next s) (takePairState_taken h hl hu)), ?_⟩
    dsimp only
    refine ⟨hheard.partnerState, hheard.lastState, fun hs h1 hg => ?_, fun hs hg h1 h3 => ?_⟩
    · rw [h1]
      exact Chip.pairHeard_fences (s := c.stateNoted b) hs hg ..
    · rw [h1, h3, hg]
      exact Chip.pairHeard_synced (s := c.stateNoted b) hs ..

end Sys2Proof.Machine
end

section
/-! SUPPORT. The pair key, pair requests and the forming of a pair (R491 to R495). -/

namespace Sys2Proof.Machine

/-! ## NEW_PAIR_KEY (R491) -/

theorem p256_order_lt : p256.n - 1 < 256 ^ 32 := by decide
theorem p256_order_pos : 0 < p256.n - 1 := by decide

/-- A secret scalar of P-256 fits 32 bytes. -/
theorem scalarFrom_lt (b : Bytes) : scalarFrom p256 b < 256 ^ 32 :=
  Nat.lt_of_le_of_lt (Nat.mod_lt _ p256_order_pos) p256_order_lt

/-- A device with a new pair key. -/
def Chip.keyed (s : Chip) (k : Nat) : Chip := s.modPair fun p => { p with privateKey := be 32 k, publicKey := p256.pub k }

theorem newPairKey_paired (r : Req) {c : Chip} (h : c.pair.state ≠ .unpaired) : newPairKey r c = (c, bad 5) := if_pos h

theorem newPairKey_gated (r : Req) {c : Chip} (h : c.pair.state = .unpaired) (hg : c.drbgGate ≠ 0) : newPairKey r c = (c, bad c.drbgGate) :=
  (if_neg (not_not.mpr h)).trans (if_pos hg)

theorem newPairKey_makes (r : Req) {c : Chip} (h : c.pair.state = .unpaired) (hg : c.drbgGate = 0) :
    newPairKey r c = ((c.drbg 40).2.keyed (scalarFrom p256 (c.drbg 40).1), ok) := (if_neg (not_not.mpr h)).trans (if_neg (not_not.mpr hg))

theorem Chip.keyed_reads {c u : Chip} (hu : u.pair = c.pair) {k : Nat} (hk : k < 256 ^ 32) : (u.keyed k).pair.privateKey.length = 32 ∧
    (u.keyed k).pair.publicKey = p256.pub (beNat (u.keyed k).pair.privateKey) ∧ (u.keyed k).pair.state = c.pair.state := by
  have hkey : (u.keyed k).pair.privateKey = be 32 k := rfl
  have hpub : (u.keyed k).pair.publicKey = p256.pub k := rfl
  rw [hkey, hpub, be_length, beNat_be_of_lt hk]
  have hstate : (u.keyed k).pair.state = u.pair.state := rfl
  exact ⟨rfl, rfl, hstate.trans (congrArg Pair.state hu)⟩

theorem exec_newPairKey {p : Path} {tag : Word16} {s : State} {r : Req} {c : Chip} (h : gate p tag 0x4B00 3 [1] (fun _ _ => 0) s.chip = .go r c) :
    exec (.newPairKey p tag) s = next s (Chip.finish r.dest (newPairKey r c)) := congrArg (next s) (hostWrite_go h)

/-! ## The pair request (R492) -/

/-- The pair of a device that is unpaired. -/
def Pair.unpaired (p : Pair) : Pair :=
  { p with state := .unpaired, request := none, asActive := false, partnerState := [], partner := 0, node := 0, generation := 0, committed := 0
           awaiting := none, open_ := {}, syncLeft := 0, receiving := [], receivingEpoch := 0, encKey := [], macKey := [], partnerKey := [] }

/-- The pair of a device that begins to pair. -/
def Pair.pairing (role : Nat) (q : PairReq) (p : Pair) : Pair :=
  { p with state := .pairing, request := some q, asActive := role == 1, partnerState := [], partner := q.serial, node := q.node
           partnerKey := q.key, awaiting := none, open_ := {}, syncLeft := 0, receiving := [], receivingEpoch := 0 }

/-- What waited for an epoch is answered. -/
theorem PairKept.answered (l : List EpochWait) (s : Chip) : PairKept s (l.foldl (fun t x => t.complete x.dest x.code x.data 0) s.releaseRecords) :=
  (PairKept.only (Only.releaseRecords s)).trans (PairKept.completeAll ..)

theorem Chip.unpair_state (s : Chip) : s.unpair.pair.state = .unpaired := by
  have hended : ∀ (l : List EpochWait) (d : Bytes), PairKept (s.modPair Pair.unpaired)
      ((l.foldl (fun t x => t.complete x.dest x.code x.data 0) (s.modPair Pair.unpaired).releaseRecords).record 0xB007 3 d) := fun l d =>
    (PairKept.answered l _).trans (PairKept.only (Only.record _))
  unfold Chip.unpair
  split
  next h => exact h
  next => exact (hended _ _).field Pair.state

theorem Chip.beginPairing_kept (role : Nat) (q : PairReq) (s : Chip) : PairKept (s.modPair (Pair.pairing role q)) (s.beginPairing role q) :=
  (PairKept.answered _ _).trans (PairKept.sendPairState _)

section
variable (role : Nat) {q : PairReq} {r : Req} {c : Chip} {n : Bool × Chip} (hn : n = c.takeNonce r.dest q.nonce)
include hn

theorem pairRequest_nonceless (h : n.1 = false) : pairRequest role q r c = (n.2, bad 0x310C) := by
  subst hn
  exact if_pos h

theorem pairRequest_keyless (h : n.1 = true) (hk : p256.valid q.key = false) : pairRequest role q r c = (n.2, bad 2) := by
  subst hn
  exact (if_neg (by simp [h])).trans (if_pos hk)

theorem pairRequest_few (h : n.1 = true) (hk : p256.valid q.key = true) (hl : q.auths.length ≠ 136) : pairRequest role q r c = (n.2, bad 0x000D) := by
  subst hn
  exact (if_neg (by simp [h])).trans ((if_neg (by simp [hk])).trans (if_pos hl))

theorem pairRequest_checked (h : n.1 = true) (hk : p256.valid q.key = true) (hl : q.auths.length = 136) {a : Nat}
    (ha : a = n.2.checkAuths 0 (sha256 (tagJKPR ++ n.2.identity ++ q.nonce ++ pairBody role q)) q.auths) : pairRequest role q r c =
      if a ≠ 0 then (n.2, bad a) else if n.2.pairInvalid q.serial.toNat = true then (n.2, bad 0xB002)
      else if role = 0 then (n.2.unpair, ok) else (n.2.beginPairing role q, ok) := by
  subst hn ha
  exact (if_neg (by simp [h])).trans ((if_neg (by simp [hk])).trans (if_neg (not_not.mpr hl)))

end

theorem exec_pairRequest {p : Path} {tag : Word16} {q : PairReq} {s : State} {r : Req} {c : Chip} {role : Nat} {i : Instr}
    (hi : (role, i) ∈ [(1, Instr.pairActive p tag q), (2, .pairStandby p tag q), (0, .unpair p tag q)])
    (h : gate p tag 0x4B00 4 (pairBytes role q)
      (fun _ _ => if q.nonce.length ≠ 16 ∨ q.auths.length % 68 ≠ 0 then 0x0012 else if q.key.length ≠ 64 then 2 else 0) s.chip = .go r c) :
    exec i s = next s (Chip.finish r.dest (pairRequest role q r c)) := by
  have hrow : exec i s = next s (pairRow role p tag q s.chip) := by
    simp only [List.mem_cons, List.not_mem_nil, or_false] at hi
    rcases hi with hi | hi | hi <;> cases hi <;> rfl
  rw [hrow]
  exact congrArg (next s) (hostWrite_go h)

/-! ## PAIR_FORMED (R493 to R495) -/

/-- The pair at its forming. -/
def Pair.formed (standby : Bool) (now : Nat) (p : Pair) : Pair :=
  { p with
    request := none, generation := 1, committed := 0, awaiting := none, open_ := {}, syncLeft := 0, receiving := [], receivingEpoch := 0
    state := if standby then .standbySync else .activeSync, lastState := now }

/-- A device whose pair has formed, before it synchronises. -/
def Chip.pairBegun (s : Chip) : Chip :=
  let c := s.endSessions fun n x => outOfRange n x || (!s.pair.asActive && !x.isSpi)
  (c.modPair (Pair.formed (!s.pair.asActive) c.clk.ticks)).derivePair.record 0xB001 3 (le 4 s.pair.partner.toNat ++ le 4 1)

theorem pairFormed_none {s : Chip} (h : s.pair.state ≠ .pairing ∨ s.pair.request = none ∨ s.pair.privateKey = [] ∨ s.runs 3 = false ∨ s.pairMatches = false) :
    pairFormed s = s := by
  refine if_pos ?_
  rwa [Option.isNone_iff_eq_none]

theorem pairFormed_forms {s : Chip} (h1 : s.pair.state = .pairing) (h2 : s.pair.request ≠ none) (h3 : s.pair.privateKey ≠ []) (h4 : s.runs 3 = true)
    (h5 : s.pairMatches = true) : pairFormed s = if (!s.pair.asActive) = true then s.pairBegun.discardReplica.sendPairState else s.pairBegun.synchronise := by
  refine if_neg ?_
  rw [Option.isNone_iff_eq_none]
  rintro (h | h | h | h | h)
  · exact h h1
  · exact h2 h
  · exact h3 h
  · rw [h4] at h
    cases h
  · rw [h5] at h
    cases h

theorem Chip.pairBegun_reads (s : Chip) : s.pairBegun.pair.generation = 1 ∧ s.pairBegun.pair.committed = 0 ∧ s.pairBegun.pair.request = none ∧
    s.pairBegun.pair.state = if (!s.pair.asActive) = true then .standbySync else .activeSync := by
  have hrecord : ∀ (c : Chip) (d : Bytes), (c.record 0xB001 3 d).pair = c.pair := fun c _ => (Only.record c) .pair (by decide)
  unfold Chip.pairBegun
  dsimp only
  rw [hrecord]
  exact ⟨rfl, rfl, rfl, rfl⟩

/-- A PAIR-STATE that goes out leaves the open epoch. -/
theorem Chip.open_sendPairState (s : Chip) : s.sendPairState.pair.open_ = s.pair.open_ := by
  unfold Chip.sendPairState
  split
  · rfl
  · have hsent : (s.sendPair 4 s.pairState).pair = s.pair := (Only.sendPair s) .pair (by decide)
    exact (rfl : _ = (s.sendPair 4 s.pairState).pair.open_).trans (congrArg Pair.open_ hsent)

theorem Chip.synchronise_reads (s : Chip) : s.synchronise.pair.generation = s.pair.generation ∧ s.synchronise.pair.committed = s.pair.committed ∧
    s.synchronise.pair.request = s.pair.request ∧ s.synchronise.pair.state = .activeSync ∧
    s.synchronise.pair.syncLeft = s.synchronise.pair.open_.entries.length := by
  rw [Chip.synchronise_eq]
  have hjournalled := Chip.stateJournalled_kept (s.modPair Pair.syncing)
  generalize (s.modPair Pair.syncing).stateJournalled = u at hjournalled ⊢
  have hchanged := PairKept.changePair (fun p => { p with syncLeft := p.open_.entries.length }) u
  refine ⟨(hchanged.field Pair.generation).trans (hjournalled.field Pair.generation), (hchanged.field Pair.committed).trans (hjournalled.field Pair.committed),
    (hchanged.field Pair.request).trans (hjournalled.field Pair.request), (hchanged.field Pair.state).trans (hjournalled.field Pair.state), ?_⟩
  have hopen : (u.changePair fun p => { p with syncLeft := p.open_.entries.length }).pair.open_ = u.pair.open_ := Chip.open_sendPairState _
  exact (hchanged.field Pair.syncLeft).trans (congrArg (fun e : Epoch => e.entries.length) hopen.symm)

/-- A standby that has discarded its replica owns nothing but owner 0. -/
theorem Chip.discardReplica_owners (s : Chip) : ∀ e ∈ s.discardReplica.keys.owners, e.1 = 0 := by
  obtain ⟨m, hm⟩ : ∃ m : SMap Owner, s.discardReplica.keys.owners = m.filter fun e => e.1 == 0 := ⟨_, rfl⟩
  intro e he
  rw [hm] at he
  exact beq_iff_eq.mp (List.mem_filter.mp he).2

theorem exec_pairFormed (s : State) : exec .pairFormed s = next s (pairFormed s.chip) := rfl

/-! ## O57 -/

/-- Settles O57, command by command. -/
theorem pairingRows : Obligations.PairingRows := by
  unfold Obligations.PairingRows
  refine ⟨fun p tag s r c h => ⟨fun hp => ?_, fun hp hg => ?_, fun hp hg => ?_⟩,
    fun p tag q s r c role i n a hi h hn ha => ⟨fun hf => ?_, fun ht hk => ?_, fun ht hk hl => ?_, fun ht hk hl => ⟨fun h0 => ?_, fun h0 hv => ?_, fun h0 hv => ?_⟩⟩,
    fun s => ⟨fun h => ?_, fun h1 h2 h3 h4 h5 => ?_⟩⟩
  · rw [exec_newPairKey h, newPairKey_paired r hp]
    rfl
  · rw [exec_newPairKey h, newPairKey_gated r hp hg]
    rfl
  · have hexec := exec_newPairKey h
    rw [newPairKey_makes r hp hg, finish_ok] at hexec
    have hdrawn : Only [.free, .crypto] c (c.drbg 40).2 := Only.drbg (by decide) (by decide) c
    obtain ⟨hlen, hpub, hstate⟩ := Chip.keyed_reads (c := c) (hdrawn .pair (by decide)) (scalarFrom_lt (c.drbg 40).1)
    exact ⟨_, hexec, hlen, hpub, hstate.trans hp, (hdrawn.mono (by simp)).comp ((Only.modPair _).mono (by simp))⟩
  · rw [exec_pairRequest hi h, pairRequest_nonceless role hn hf]
    rfl
  · rw [exec_pairRequest hi h, pairRequest_keyless role hn ht hk]
    rfl
  · rw [exec_pairRequest hi h, pairRequest_few role hn ht hk hl]
    rfl
  · rw [exec_pairRequest hi h, pairRequest_checked role hn ht hk hl ha, if_pos h0]
    rfl
  · rw [exec_pairRequest hi h, pairRequest_checked role hn ht hk hl ha, if_neg (not_not.mpr h0), if_pos hv]
    rfl
  · have hexec := exec_pairRequest hi h
    rw [pairRequest_checked role hn ht hk hl ha, if_neg (not_not.mpr h0), if_neg (by simp [hv])] at hexec
    by_cases hrole : role = 0
    · rw [if_pos hrole, finish_ok] at hexec
      exact ⟨_, hexec, fun _ => Chip.unpair_state _, fun hne => absurd hrole hne⟩
    · rw [if_neg hrole, finish_ok] at hexec
      have hkept := n.2.beginPairing_kept role q
      exact ⟨_, hexec, fun he => absurd he hrole, fun _ => ⟨hkept.field Pair.state, hkept.field Pair.asActive, hkept.field Pair.request, hkept.field Pair.partner,
        hkept.field Pair.partnerKey⟩⟩
  · exact (exec_pairFormed s).trans (congrArg (next s) (pairFormed_none h))
  · obtain ⟨hgen, hcom, hreq, hstate⟩ := s.chip.pairBegun_reads
    have hexec := (exec_pairFormed s).trans (congrArg (next s) (pairFormed_forms h1 h2 h3 h4 h5))
    cases hactive : s.chip.pair.asActive with
    | true =>
      rw [hactive, if_neg (by decide)] at hexec
      obtain ⟨hg, hc, hr, hs, hleft⟩ := s.chip.pairBegun.synchronise_reads
      refine ⟨_, hexec, ?_⟩
      dsimp only
      exact ⟨hg.trans hgen, hc.trans hcom, hr.trans hreq, fun _ => ⟨hs, hleft⟩, fun hf => absurd hf (by simp)⟩
    | false =>
      rw [hactive, if_pos (by decide)] at hexec hstate
      have hkept : PairKept s.chip.pairBegun s.chip.pairBegun.discardReplica.sendPairState := (PairKept.discardReplica _).trans (PairKept.sendPairState _)
      have hkeys : s.chip.pairBegun.discardReplica.sendPairState.keys = s.chip.pairBegun.discardReplica.keys := (Only.sendPairState _) .keys (by decide)
      refine ⟨_, hexec, ?_⟩
      dsimp only
      refine ⟨(hkept.field Pair.generation).trans hgen, (hkept.field Pair.committed).trans hcom, (hkept.field Pair.request).trans hreq,
        fun hf => absurd hf (by simp), fun _ => ⟨(hkept.field Pair.state).trans hstate, ?_⟩⟩
      exact fun e he => Chip.discardReplica_owners s.chip.pairBegun e (hkeys ▸ he)

end Sys2Proof.Machine
end

section
/-! SUPPORT. The end of runs, parks and failed requests reach neither a re-seat nor the islands (R23, R261, R388, Table 14.6). -/

namespace Sys2Proof.Machine

/-- The parts that the end of a run and the failure of requests reach. -/
def runParts : List Part := [.host, .lanes, .seqs, .segs, .sealed_, .acq, .dram, .cluster, .boot, .keys, .crypto, .recorder, .pair, .out, .free]

/-! ## The end of a run (R261) -/

theorem Chip.abandonFields_reaches (s : Chip) (q : Nat) : Only runParts s (s.abandonFields q) := by
  refine Only.comp (Only.comp (Only.foldl _ (fun c k => ?_) _ s) ((Only.modSq _).mono (by decide)))
    (Only.foldl _ (fun c _ => (Only.modLane c).mono (by decide)) _ _)
  exact (Only.ite (Only.refl c _) ((Only.freeInjector c).mono (by decide))).comp ((Only.modSeal _).mono (by decide))

theorem Chip.endSeals_reaches (s : Chip) (q cause : Nat) : Only runParts s (s.endSeals q cause) :=
  (s.abandonFields_reaches q).comp
    (Only.foldl _ (fun c _ => ((Only.closeProof c).mono (by decide)).comp ((Only.modSeal _).mono (by decide))) _ _)

theorem Chip.endRun_reaches (s : Chip) (q cause : Nat) : Only runParts s (s.endRun q cause) := by
  unfold Chip.endRun
  extract_lets released covered ended
  have hreleased : Only runParts s released := (((s.endAcq_reaches q).mono (by decide)).comp (Chip.endSeals_reaches _ q cause)).comp ((Only.endPorts _).mono (by decide))
  have hcovered : Only runParts released covered :=
    ((Only.ite (c := released.coverAtBoundary q _) ((Only.coverLanes released).mono (by decide)) ((Only.eachLane released).mono (by decide))).comp
      ((Only.eachLane _).mono (by decide))).comp ((Only.clearRing _).mono (by decide))
  have hended : Only runParts s ended := (hreleased.comp hcovered).comp ((Only.modSq _).mono (by decide))
  exact hended.comp (Only.ite (Only.refl _ _) ((Only.leaveBarriers _).mono (by decide)))

/-! ## Sequencers that fault, park or reset (R96, R261, R263) -/

theorem Chip.endHeldRun_reaches (s : Chip) (q n cause : Nat) : Only runParts s ((s.emitHolds q n).endRun q cause) :=
  ((Only.emitHolds s).mono (by decide)).comp (Chip.endRun_reaches _ q cause)

theorem Chip.coverAndLeave_reaches (s : Chip) (q : Nat) (l : List Nat) (f : Seq → Seq) :
    Only runParts s ((((s.coverLanes l).clearRing q).modSq q f).leaveBarriers q) :=
  ((((Only.coverLanes s).mono (by decide)).comp ((Only.clearRing _).mono (by decide))).comp ((Only.modSq _).mono (by decide))).comp
    ((Only.leaveBarriers _).mono (by decide))

theorem Chip.makeIdle_reaches (s : Chip) (q code : Nat) : Only runParts s (s.makeIdle q code) := (Only.makeIdle s).mono (by decide)

theorem Chip.faultSeqs_reaches (s : Chip) (p : Nat) : Only runParts s (s.faultSeqs p) := by
  refine Only.foldl _ (fun c q => Only.ite ?_ (Only.refl c _)) _ s
  unfold Chip.faultSeq
  exact Only.ite (Only.refl c _) (Only.ite (c.endHeldRun_reaches _ _ _) (Only.ite (c.makeIdle_reaches _ _) (c.coverAndLeave_reaches _ _ _)))

theorem Chip.parkSeq_reaches (s : Chip) (keep : Bool) (q : Nat) : Only runParts s (s.parkSeq keep q) := by
  unfold Chip.parkSeq
  extract_lets u x masks
  have hu : Only runParts s u := Only.ite (Only.refl s _) ((Only.dropLaunch s).mono (by decide))
  have hmasks : ∀ {f} (c : Chip), Only runParts c (c.modSq q f) := fun c => (Only.modSq c).mono (by decide)
  refine hu.comp ?_
  split
  · exact Only.refl u _
  · exact Only.refl u _
  · exact Only.refl u _
  · exact Only.ite (u.makeIdle_reaches _ _) ((u.endRun_reaches _ _).comp (hmasks _))
  · exact (u.endHeldRun_reaches _ _ _).comp (hmasks _)
  · exact (u.endHeldRun_reaches _ _ _).comp (hmasks _)
  · exact u.coverAndLeave_reaches _ _ _

theorem Chip.parkAll_reaches (s : Chip) : Only runParts s s.parkAll := Only.foldl _ (fun c q => c.parkSeq_reaches false q) _ s

theorem Chip.parkHeld_reaches (s : Chip) : Only runParts s s.parkHeld := Only.foldl _ (fun c q => c.parkSeq_reaches true q) _ s

/-! ## Requests that fail (R23, Table 14.6) -/

theorem Chip.failRequest_reaches (s : Chip) (code : Nat) (r : DramReq) : Only runParts s (s.failRequest code r) := by
  unfold Chip.failRequest
  split
  · exact Only.ite ((Only.complete s).mono (by decide)) ((Only.completeRead s).mono (by decide))
  · exact Only.ite ((Only.modSq s).mono (by decide)) (Only.ite ((Only.failJob s).mono (by decide)) (Only.refl s _))

theorem Chip.failRequests_reaches (s : Chip) (code : Nat) : Only runParts s (s.failRequests code) :=
  ((Only.modDram s).mono (by decide)).comp (Only.foldl _ (fun c r => c.failRequest_reaches code r) _ _)

/-- What waits for the MI fails, and staged capture records are lost. -/
theorem Chip.failWaiting_reaches (s : Chip) (code : Nat) : Only runParts s (s.failRequests code).loseStaging :=
  (s.failRequests_reaches code).comp ((Only.loseStaging _).mono (by decide))

theorem Chip.stopMi_reaches (s : Chip) (code : Nat) (f : Dram → Dram) : Only runParts s ((s.parkAll.failRequests code).loseStaging.modDram f) :=
  (s.parkAll_reaches.comp (Chip.failWaiting_reaches _ code)).comp ((Only.modDram _).mono (by decide))

end Sys2Proof.Machine
end

section
/-! SUPPORT. Scrubs, background activities, flash reclaim and telemetry (R457 to R462, R521). -/

namespace Sys2Proof.Machine

/-! ## Scrubs (R367, R458) -/

/-- An island of which an uncorrectable word is kept as a failed run. -/
def Chip.sramMarked (s : Chip) (i : Nat) : Chip :=
  s.modReseat fun r =>
    { r with runs := (r.runs.filter fun x => x.island != i || x.unit != 0xFF) ++ [{ island := i, failed := true, phase := .failed, startAt := s.clk.ticks, resetAt := s.clk.ticks }] }

/-- What the fault of an island by an uncorrectable word reaches beside its mark. -/
def sramFaultParts : List Part := .islands :: runParts

theorem Chip.sramFault_stopped {s : Chip} {i : Nat} (h : s.runs i = false) (addr : Nat) : s.sramFault i addr = s.record 0x0006 i (le 4 addr) :=
  if_pos (((Only.record s).runs (i := i)).trans h)

theorem Chip.sramFault_running {s : Chip} {i : Nat} (h : s.runs i = true) (addr : Nat) :
    Only sramFaultParts ((s.record 0x0006 i (le 4 addr)).sramMarked i) (s.sramFault i addr) := by
  have hruns : ¬ (s.record 0x0006 i (le 4 addr)).runs i = false := by
    rw [(Only.record s).runs (i := i), h]
    decide
  unfold Chip.sramFault
  extract_lets recorded marked stopped failed closed
  rw [if_neg hruns]
  have hstopped : Only sramFaultParts marked stopped := Only.ite ((marked.faultSeqs_reaches 0).mono (by decide)) (Only.refl _ _)
  have hfailed : Only sramFaultParts stopped failed := Only.ite ((stopped.stopMi_reaches 4 _).mono (by decide)) (Only.refl _ _)
  have hclosed : Only sramFaultParts failed closed :=
    Only.ite (((Only.openRing failed).comp (Only.modCluster _)).mono (by decide)) (Only.refl _ _)
  exact ((hstopped.comp hfailed).comp hclosed).comp ((Only.failIsland _).mono (by decide))

theorem Chip.sramFault_marks {s : Chip} {i : Nat} (h : s.runs i = true) (addr : Nat) :
    ((s.sramFault i addr).reseat.runs.any fun r => r.failed && r.island == i && r.unit == 0xFF) = true := by
  have hreseat : (s.sramFault i addr).reseat = ((s.record 0x0006 i (le 4 addr)).sramMarked i).reseat := (Chip.sramFault_running h addr) .reseat (by decide)
  rw [hreseat, List.any_eq_true]
  exact ⟨_, List.mem_append_right _ (List.mem_singleton_self _), by simp⟩

/-- A count goes up by the draw's last bit. -/
theorem free_bit_added (n m : Nat) : (n + m % 2) % 2 ^ 32 = n % 2 ^ 32 ∨ (n + m % 2) % 2 ^ 32 = (n + 1) % 2 ^ 32 := by
  rcases Nat.mod_two_eq_zero_or_one m with h | h <;> rw [h]
  · exact .inl rfl
  · exact .inr rfl

theorem Only.movePage (s : Chip) : Only [.boot, .free] s s.movePage := ((Only.modFree s).mono (by simp)).comp ((Only.modBoot _).mono (by simp))

/-- A device with an uncorrectable flash word recorded and its page marked bad. -/
def Chip.pageBad (s : Chip) (addr : Nat) : Chip :=
  (s.record 0x2002 2 (le 4 addr ++ [1])).modBoot fun b =>
    { b with badPages := flashOffset addr / 4096 :: b.badPages.filter (· != flashOffset addr / 4096) }

theorem Only.pageBad {addr} (s : Chip) : Only [.recorder, .boot] s (s.pageBad addr) := ((Only.record s).mono (by simp)).comp ((Only.modBoot _).mono (by simp))

theorem Chip.flashBad_program {s : Chip} {addr : Nat} (h : flashOffset addr < dataArea) : s.flashBad addr = s.pageBad addr := if_pos h

theorem Chip.flashBad_data {s : Chip} {addr : Nat} (h : dataArea ≤ flashOffset addr) :
    s.flashBad addr = ((s.pageBad addr).modFree (· + 1)).damageData (Config.freeNat (s.pageBad addr).free) := if_neg (Nat.not_lt.mpr h)

theorem Only.damageData {n} (s : Chip) : Only [.keys] s (s.damageData n) := Only.modKeys s

theorem Chip.pageBad_boot (s : Chip) (addr : Nat) : flashOffset addr / 4096 ∈ (s.pageBad addr).boot.badPages ∧
    (s.pageBad addr).boot = { s.boot with badPages := (s.pageBad addr).boot.badPages } := by
  have hrecord : (s.record 0x2002 2 (le 4 addr ++ [1])).boot = s.boot := (Only.record s) .boot (by decide)
  refine ⟨List.mem_cons_self .., ?_⟩
  unfold Chip.pageBad
  generalize s.record 0x2002 2 (le 4 addr ++ [1]) = u at hrecord ⊢
  rw [← hrecord]
  rfl

theorem exec_scrubCorrected (t : ScrubTarget) (bad : Bool) (s : State) : exec (.scrubCorrected t bad) s = next s (scrub t bad s.chip) := rfl

theorem scrub_dram_out {c : Fin 2} {off : Nat} {bad : Bool} {s : Chip} (h : (s.dram.inService.getLsbD c.val && s.dramServes) = false) :
    scrub (.dram c off) bad s = s := if_pos h

theorem scrub_dram_in {c : Fin 2} {off : Nat} {bad : Bool} {s : Chip} (h : (s.dram.inService.getLsbD c.val && s.dramServes) = true) :
    scrub (.dram c off) bad s = if bad = true then s.countBad c.val off .scrub else s.countCorrected c.val off .scrub := if_neg (by simp [h])

/-- A channel after a change of it. -/
theorem Chip.dramCh_modDramCh {s : Chip} {c : Nat} (h : c < s.dram.channels.length) (f : DramCh → DramCh) : (s.modDramCh c f).dramCh c = f (s.dramCh c) := by
  show (s.dram.channels.set c (f (s.dram.channels.getD c {}))).getD c {} = f (s.dramCh c)
  rw [List.getD_eq_getElem?_getD, List.getElem?_set_self h]
  rfl

/-- A corrected burst of the scrub counts. -/
theorem Chip.countCorrected_scrub (s : Chip) (c off : Nat) :
    s.countCorrected c off .scrub = s.modDramCh c fun d => { d with corrected := satAdd 32 d.corrected 1 } := by
  unfold Chip.countCorrected
  exact if_pos rfl

theorem Chip.countBad_channel {s : Chip} {c : Nat} (h : c < s.dram.channels.length) (off : Nat) (k : ReqClass) :
    ((s.countBad c off k).dramCh c).uncorrectable = satAdd 32 (s.dramCh c).uncorrectable 1 ∧ ((s.countBad c off k).dramCh c).lastBad = off ∧
      (s.countBad c off k).dram.bytes = s.dram.bytes := by
  have hrecord : ∀ (u : Chip) (d : Bytes), (u.record 0x8001 8 d c).dram = u.dram := fun u _ => (Only.record u) .dram (by decide)
  unfold Chip.countBad
  dsimp only
  unfold Chip.dramCh
  rw [hrecord]
  have hchannel := Chip.dramCh_modDramCh (s := s.modDram fun d => { d with badBursts := off / 64 :: d.badBursts.filter (· != off / 64) }) h
    fun d => { d with uncorrectable := satAdd 32 d.uncorrectable 1, lastBad := off, badTicks := ((s.dramCh c).badTicks.filter fun t => !s.passedMs t 86400000) ++ [s.clk.ticks] }
  exact ⟨congrArg DramCh.uncorrectable hchannel, congrArg DramCh.lastBad hchannel, rfl⟩

/-! ## Background activities (R457, R459, R461) -/

/-- An activity that is behind, or not any more. -/
def Chip.activityMoved (s : Chip) (n : Nat) (enters : Bool) : Chip :=
  s.modBackground fun b => { b with activities := b.activities.upd {} n fun a => { a with state := if enters then .behind else .running } }

theorem Chip.activity_activityMoved (s : Chip) (n m : Nat) (enters : Bool) : (s.activityMoved n enters).background.activities.get {} m =
    if m = n then { s.background.activities.get {} n with state := if enters then .behind else .running } else s.background.activities.get {} m :=
  SMap.get_upd s.background.activities {} n m fun a => { a with state := if enters = true then .behind else .running }

theorem Only.activityRecord {n v} (s : Chip) : Only [.recorder] s (s.activityRecord n v) := by
  unfold Chip.activityRecord
  exact Only.ite (Only.modRecorder s) ((Only.record s).comp (Only.modRecorder _))

theorem activityBehind_none {n : Nat} {v : Bool} {s : Chip}
    (h : s.suspended n = true ∨ s.canBe n v = false ∨ ((s.background.activities.get {} n).state == .behind) = v) : activityBehind n v s = s := if_pos h

theorem activityBehind_moves {n : Nat} {v : Bool} {s : Chip} (hs : s.suspended n = false) (hc : s.canBe n v = true)
    (hb : ((s.background.activities.get {} n).state == .behind) = !v) : activityBehind n v s = (s.activityMoved n v).activityRecord n v := by
  refine if_neg ?_
  rw [hs, hc, hb]
  cases v <;> decide

theorem exec_activityBehind (n : Fin 8) (v : Bool) (s : State) : exec (.activityBehind n v) s = next s (activityBehind n.val v s.chip) := rfl

theorem Chip.activityState_suspended {s : Chip} {n : Nat} (h : s.suspended n = true) : s.activityState n = .suspended := if_pos h

theorem Chip.suspended_island {s : Chip} {n : Nat} (h : n ≠ 1) (hr : s.runs (activityIsland n) = false) : s.suspended n = true := by
  unfold Chip.suspended
  rw [if_neg h, hr]
  rfl

theorem Chip.suspended_sram {s : Chip} (h : ∀ i, s.runs i = false) : s.suspended 1 = true := by
  have hnone : s.sramRunning = [] := List.filter_eq_nil_iff.mpr fun p _ => by simp [h]
  unfold Chip.suspended
  rw [if_pos rfl, hnone]
  rfl

/-! ## Flash reclaim (R457, R459) -/

/-- A device with one block of flash more. -/
def Chip.blockReclaimed (s : Chip) : Chip :=
  (s.modFree (· + 1)).modBoot fun b => { b with freeBlocks := b.freeBlocks + 1, highestErase := (s.boot.highestErase + Config.freeNat s.free % 2) % 2 ^ 32 }

theorem flashReclaim_none {s : Chip} (h : s.runs 2 = false ∨ 16 ≤ s.boot.freeBlocks) : flashReclaim s = s := if_pos h

theorem Only.blockReclaimed (s : Chip) : Only [.boot, .free] s s.blockReclaimed := ((Only.modFree s).mono (by simp)).comp ((Only.modBoot _).mono (by simp))

theorem flashReclaim_reclaims {s : Chip} (h : s.runs 2 = true) (hb : s.boot.freeBlocks < 16) : Only [.background] s.blockReclaimed (flashReclaim s) := by
  unfold flashReclaim
  rw [if_neg (by simp [h]; omega)]
  exact Only.ite (Chip.activityDone_only 6 s.blockReclaimed) (Only.refl _ _)

theorem exec_flashReclaim (s : State) : exec .flashReclaim s = next s (flashReclaim s.chip) := rfl

/-! ## Telemetry (R462, R521) -/

/-- The junction readings of a sample. -/
def readingsOf (x : Telemetry) : List Int := (List.range 5).map fun i => x.temps.getD i noReading

/-- A device with the values of a sample, before the warning. -/
def Chip.telemetered (s : Chip) (x : Telemetry) : Chip :=
  (s.modBackground fun b =>
    { b with
      temps := readingsOf x, rails := (List.range 7).map fun i => x.rails.getD i 0
      rates := (List.range 6).map (fun i => x.rates.getD i 0), peaks := pad 19 x.peaks }).activityDone 7

/-- A device whose warning begins. -/
def Chip.warned (s : Chip) (l : List Int) : Chip :=
  ((s.modBackground fun b => { b with warning := true }).record 0x000C (hottestIsland l) (le 2 (unsigned 16 (highest l)))).raiseTemperature

/-- A device whose warning ends. -/
def Chip.unwarned (s : Chip) : Chip := (s.modBackground fun b => { b with warning := false }).endCondition 4000

theorem telemetrySample_eq (x : Telemetry) (s : Chip) : telemetrySample x s =
    if highest (readingsOf x) = noReading then s.telemetered x
    else if (s.telemetered x).background.warning = false ∧ highest (readingsOf x) ≥ 1000 then (s.telemetered x).warned (readingsOf x)
    else if (s.telemetered x).background.warning = true ∧ highest (readingsOf x) < 950 then (s.telemetered x).unwarned
    else s.telemetered x := rfl

theorem Only.telemetered {x} (s : Chip) : Only [.background] s (s.telemetered x) := (Only.modBackground s).comp (Only.modBackground _)

theorem Chip.warned_background (s : Chip) (l : List Int) : (s.warned l).background = { s.background with warning := true } := by
  have hrest : ∀ c : Chip, Only [.recorder, .host, .out] c (c.record 0x000C (hottestIsland l) (le 2 (unsigned 16 (highest l)))).raiseTemperature := fun c =>
    ((Only.record c).mono (by simp)).comp ((Only.raise _).mono (by simp))
  exact (hrest _) .background (by decide)

theorem Only.warned {l} (s : Chip) : Only [.background, .recorder, .host, .out] s (s.warned l) :=
  (((Only.modBackground s).mono (by simp)).comp ((Only.record _).mono (by simp))).comp ((Only.raise _).mono (by simp))

theorem Chip.unwarned_background (s : Chip) : s.unwarned.background = { s.background with warning := false } := (Only.endCondition _) .background (by decide)

theorem Only.unwarned (s : Chip) : Only [.background, .recorder, .host, .out] s s.unwarned :=
  ((Only.modBackground s).mono (by simp)).comp ((Only.endCondition _).mono (by simp))

/-- What a sample leaves: the readings, and a warning that holds, ends or stays. -/
structure Telemetered (x : Telemetry) (s t : Chip) : Prop where
  temps : t.background.temps = readingsOf x
  rails : t.background.rails = (List.range 7).map fun i => x.rails.getD i 0
  begins : highest (readingsOf x) ≠ noReading → 1000 ≤ highest (readingsOf x) → t.background.warning = true
  ends : highest (readingsOf x) < 950 → t.background.warning = false
  stays : highest (readingsOf x) = noReading ∨ (950 ≤ highest (readingsOf x) ∧ highest (readingsOf x) < 1000) → t.background.warning = s.background.warning
  only : Only [.background, .recorder, .host, .out] s t

theorem telemetrySample_telemetered (x : Telemetry) (s : Chip) : Telemetered x s (telemetrySample x s) := by
  have honly : Only [.background, .recorder, .host, .out] s (s.telemetered x) := (Only.telemetered s).mono (by simp)
  have hwas : (s.telemetered x).background.warning = s.background.warning := rfl
  have hnone : noReading = 32767 := rfl
  rw [telemetrySample_eq]
  split
  next h => exact ⟨rfl, rfl, fun hn => absurd h hn, fun hlow => by omega, fun _ => rfl, honly⟩
  next h =>
    split
    next hb =>
      obtain ⟨hoff, hhigh⟩ := hb
      have hback := (s.telemetered x).warned_background (readingsOf x)
      exact ⟨congrArg Background.temps hback, congrArg Background.rails hback, fun _ _ => congrArg Background.warning hback, fun hlow => by omega,
        fun hmid => by omega, honly.comp (Only.warned _)⟩
    next hb =>
      split
      next he =>
        obtain ⟨hon, hlow⟩ := he
        have hback := (s.telemetered x).unwarned_background
        exact ⟨congrArg Background.temps hback, congrArg Background.rails hback, fun _ hhigh => by omega, fun _ => congrArg Background.warning hback,
          fun hmid => by omega, honly.comp (Only.unwarned _)⟩
      next he =>
        refine ⟨rfl, rfl, fun _ hhigh => ?_, fun hlow => ?_, fun _ => rfl, honly⟩
        · exact Bool.eq_true_of_not_eq_false fun hf => hb ⟨hf, hhigh⟩
        · exact Bool.eq_false_of_not_eq_true fun ht => he ⟨ht, hlow⟩

theorem exec_telemetrySample (x : Telemetry) (s : State) : exec (.telemetrySample x) s = next s (telemetrySample x s.chip) := rfl

/-! ## O53 -/

/-- Settles O53, activity by activity. -/
theorem backgroundRows : Obligations.BackgroundRows := by
  unfold Obligations.BackgroundRows
  refine ⟨fun i a s => ⟨rfl, fun h => ?_, fun h => ?_, fun h => ?_, fun h => ?_, fun h => ?_, fun h => ?_⟩, fun c off bad s => ⟨fun h => ?_, fun h hl => ?_⟩,
    fun n v s => ⟨fun h => ?_, fun hs hc hb => ?_⟩, fun c n hn hr => Chip.activityState_suspended (Chip.suspended_island hn hr),
    fun c h => Chip.activityState_suspended (Chip.suspended_sram h), fun s => ⟨fun h => ?_, fun h hb => ?_⟩, fun x s temps htemps => ?_⟩
  · exact (exec_scrubCorrected ..).trans (congrArg (next s) (if_neg (by simp [h])))
  · refine ⟨_, (exec_scrubCorrected ..).trans (congrArg (next s) (if_pos h)), ?_⟩
    dsimp only
    exact ⟨rfl, free_bit_added .., Within.ofChip (Only.movePage s.chip)⟩
  · exact (exec_scrubCorrected ..).trans (congrArg (next s) (Chip.sramFault_stopped h _))
  · exact ⟨_, exec_scrubCorrected .., Chip.sramFault_marks h _⟩
  · obtain ⟨hpage, hboot⟩ := s.chip.pageBad_boot a.toNat
    refine ⟨_, (exec_scrubCorrected ..).trans (congrArg (next s) (Chip.flashBad_program h)), ?_⟩
    dsimp only
    exact ⟨rfl, hpage, hboot, Within.ofChip (Only.pageBad s.chip)⟩
  · obtain ⟨hpage, -⟩ := s.chip.pageBad_boot a.toNat
    refine ⟨_, (exec_scrubCorrected ..).trans (congrArg (next s) (Chip.flashBad_data h)), ?_⟩
    dsimp only
    exact ⟨hpage, Within.ofChip ((((Only.pageBad s.chip).mono (by simp)).comp ((Only.modFree _).mono (by simp))).comp ((Only.damageData _).mono (by simp)))⟩
  · exact (exec_scrubCorrected ..).trans (congrArg (next s) (scrub_dram_out h))
  · have hc : c.val < s.chip.dram.channels.length := by rw [hl]; exact c.isLt
    have hstep := (exec_scrubCorrected (.dram c off) bad s).trans (congrArg (next s) (scrub_dram_in h))
    cases bad with
    | false =>
      refine ⟨_, hstep, ?_⟩
      dsimp only
      rw [if_neg (by decide), Chip.countCorrected_scrub]
      refine ⟨fun _ => ⟨?_, Within.ofChip (Only.modDramCh s.chip)⟩, fun hf => absurd hf (by decide), rfl⟩
      rw [Chip.dramCh_modDramCh hc]
    | true =>
      obtain ⟨hun, hlast, hbytes⟩ := Chip.countBad_channel hc off .scrub
      refine ⟨_, hstep, ?_⟩
      dsimp only
      rw [if_pos rfl]
      exact ⟨fun hf => absurd hf (by decide), fun _ => ⟨hun, hlast, Within.ofChip (Only.countBad s.chip)⟩, hbytes⟩
  · exact (exec_activityBehind n v s).trans (congrArg (next s) (activityBehind_none h))
  · have hrecord : ((s.chip.activityMoved n.val v).activityRecord n.val v).background = (s.chip.activityMoved n.val v).background :=
      (Only.activityRecord _) .background (by decide)
    refine ⟨_, (exec_activityBehind n v s).trans (congrArg (next s) (activityBehind_moves hs hc hb)), ?_⟩
    dsimp only
    rw [hrecord]
    refine ⟨?_, fun m hm => ?_, Within.ofChip (((Only.modBackground s.chip).mono (by simp)).comp ((Only.activityRecord _).mono (by simp)))⟩
    · rw [Chip.activity_activityMoved, if_pos rfl]
    · rw [Chip.activity_activityMoved, if_neg hm]
  · exact (exec_flashReclaim s).trans (congrArg (next s) (flashReclaim_none h))
  · have hdone := flashReclaim_reclaims h hb
    have hboot : (flashReclaim s.chip).boot = s.chip.blockReclaimed.boot := hdone .boot (by decide)
    refine ⟨_, exec_flashReclaim s, ?_⟩
    dsimp only
    rw [hboot]
    exact ⟨rfl, rfl, free_bit_added .., Within.ofChip (((Only.blockReclaimed s.chip).mono (by simp)).comp (hdone.mono (by simp)))⟩
  · obtain ⟨ht, hr, hbegins, hends, hstays, honly⟩ := telemetrySample_telemetered x s.chip
    have htemps' : temps = readingsOf x := htemps
    subst htemps'
    refine ⟨_, exec_telemetrySample x s, ?_⟩
    dsimp only
    refine ⟨ht, fun i hi => ?_, hbegins, hends, hstays, Within.ofChip honly⟩
    rw [hr, List.getD_eq_getElem?_getD, List.getElem?_map, List.getElem?_range hi]
    rfl

end Sys2Proof.Machine
end

section
/-! SUPPORT. Re-seats from request to outcome (R483 to R486). -/

namespace Sys2Proof.Machine

/-! ## The re-seats under way -/

theorem Chip.reseatRun_eq {a b : Chip} (h : b.reseat.runs = a.reseat.runs) (i u : Nat) : b.reseatRun i u = a.reseatRun i u := by
  unfold Chip.reseatRun
  rw [h]

theorem Only.reseat {a b : Chip} {ps : List Part} (h : Only ps a b) (hp : Part.reseat ∉ ps := by decide) : b.reseat = a.reseat := h .reseat hp

/-- A re-seat that is found stands in the list, and has not failed. -/
theorem Chip.reseatRun_mem {s : Chip} {i u : Nat} {r : ReseatRun} (h : s.reseatRun i u = some r) : r ∈ s.reseat.runs ∧ r.failed = false := by
  have hp := List.find?_some h
  simp only [Bool.and_eq_true, Bool.not_eq_true'] at hp
  exact ⟨List.mem_of_find?_eq_some h, hp.2⟩

theorem Chip.runs_modRun (s : Chip) (i u : Nat) (f : ReseatRun → ReseatRun) :
    (s.modRun i u f).reseat.runs = s.reseat.runs.map fun x => if x.island = i ∧ x.unit = u then f x else x := rfl

/-- The re-seat of a unit after a change of it that leaves its place and its outcome. -/
theorem Chip.reseatRun_modRun {s : Chip} {i u : Nat} {r : ReseatRun} {f : ReseatRun → ReseatRun}
    (hf : ∀ x, (f x).island = x.island ∧ (f x).unit = x.unit ∧ (f x).failed = x.failed) (h : s.reseatRun i u = some r) :
    (s.modRun i u f).reseatRun i u = some (f r) := by
  obtain ⟨hi, hu⟩ := Chip.reseatRun_some h
  unfold Chip.reseatRun at h ⊢
  have hpred : (fun x : ReseatRun => x.island == i && x.unit == u && !x.failed) ∘ (fun x => if x.island = i ∧ x.unit = u then f x else x) =
      fun x => x.island == i && x.unit == u && !x.failed := by
    funext x
    obtain ⟨h1, h2, h3⟩ := hf x
    simp only [Function.comp_apply]
    split
    · rw [h1, h2, h3]
    · rfl
  rw [Chip.runs_modRun, List.find?_map, hpred, h]
  exact congrArg some (if_pos ⟨hi, hu⟩)

/-! ## The request (R483) -/

theorem Only.beginTransition {k v f c d} (s : Chip) : Only [.clkos] s (s.beginTransition k v f c d) := by
  unfold Chip.beginTransition
  exact Only.ite (Only.modClko s) (Only.modClko s)

/-- The parts that a re-seat's balls belong to. -/
def ballParts : List Part := [.lanes, .levels, .cluster, .dram, .clkos]

theorem Only.reseatBalls {i u} (s : Chip) : Only ballParts s (s.reseatBalls i u) := by
  unfold Chip.reseatBalls
  split
  · exact Only.ite (Only.refl s _) ((Only.coverLanes s).mono (by decide))
  · dsimp only
    generalize hcovered : List.foldl _ s (List.range 16) = covered
    have hc : Only ballParts s covered := hcovered ▸ Only.foldl _ (fun c _ => Only.ite ((Only.coverLanes c).mono (by decide)) (Only.refl c _)) _ s
    refine hc.comp (Only.ite (Only.refl _ _) (Only.foldl _ (fun c _ => ?_) _ _))
    exact Only.ite (Only.refl c _) ((Only.beginTransition c).mono (by decide))
  · exact Only.ite ((Only.modDramCh s).mono (by decide)) (Only.refl s _)
  · exact (Only.modLevels s).mono (by decide)
  · exact (Only.openRing s).mono (by decide)
  · exact Only.refl s _

/-- A device with a re-seat entered. -/
def Chip.reseatEntered (s : Chip) (i u : Nat) (host : Bool) : Chip :=
  s.modReseat fun r =>
    { r with
      runs := (r.runs.filter fun x => x.island != i || x.unit != u) ++ [{ island := i, unit := u, host := host, startAt := s.clk.ticks }]
      status := if host then .draining else r.status }

/-- A device whose island waits for its re-seat, where the unit is the whole island. -/
def Chip.reseatPended (s : Chip) (i u : Nat) : Chip := if u = 0xFF then s.putIsland i .reseatPending else s

theorem Chip.beginReseat_eq (s : Chip) (i u : Nat) (host : Bool) : s.beginReseat i u host = ((s.reseatEntered i u host).reseatPended i u).reseatBalls i u := rfl

theorem Only.reseatPended {i u} (s : Chip) : Only [.islands] s (s.reseatPended i u) := Only.ite (Only.putIsland s) (Only.refl s _)

theorem Chip.beginReseat_reseat (s : Chip) (i u : Nat) (host : Bool) : (s.beginReseat i u host).reseat = (s.reseatEntered i u host).reseat := by
  rw [Chip.beginReseat_eq]
  exact (Only.reseatBalls _).reseat.trans (Only.reseatPended _).reseat

theorem Chip.reseatRun_reseatEntered (s : Chip) (i u : Nat) (host : Bool) :
    (s.reseatEntered i u host).reseatRun i u = some { island := i, unit := u, host := host, startAt := s.clk.ticks } := by
  have hruns : (s.reseatEntered i u host).reseat.runs = (s.reseat.runs.filter fun x => x.island != i || x.unit != u) ++
      [{ island := i, unit := u, host := host, startAt := s.clk.ticks }] := rfl
  have hold : (s.reseat.runs.filter fun x => x.island != i || x.unit != u).find? (fun r => r.island == i && r.unit == u && !r.failed) = none := by
    refine List.find?_eq_none.mpr fun x hx hp => ?_
    have hother := (List.mem_filter.mp hx).2
    simp only [Bool.and_eq_true, beq_iff_eq] at hp
    simp [hp.1.1, hp.1.2] at hother
  unfold Chip.reseatRun
  rw [hruns, List.find?_append, hold]
  simp

theorem Chip.island_beginReseat (s : Chip) (i u : Nat) (host : Bool) (j : Nat) :
    (s.beginReseat i u host).island j = ((s.reseatEntered i u host).reseatPended i u).island j := by
  rw [Chip.beginReseat_eq]
  exact (Only.reseatBalls _).island (by decide) j

theorem Chip.island_beginReseat_own {s : Chip} {i : Nat} (h : i < s.islands.length) (host : Bool) : (s.beginReseat i 0xFF host).island i = .reseatPending := by
  rw [Chip.island_beginReseat]
  exact Chip.island_putIsland (s := s.reseatEntered i 0xFF host) h _

theorem Chip.island_beginReseat_ne (s : Chip) {i j : Nat} (h : j ≠ i) (u : Nat) (host : Bool) : (s.beginReseat i u host).island j = s.island j := by
  have hentered : (s.reseatEntered i u host).island j = s.island j := rfl
  rw [Chip.island_beginReseat]
  unfold Chip.reseatPended
  split
  · exact (Chip.island_putIsland_ne h.symm _).trans hentered
  · exact hentered

theorem Only.beginReseat {i u h} (s : Chip) : Only (.reseat :: .islands :: ballParts) s (s.beginReseat i u h) :=
  (((Only.modReseat s).mono (by decide)).comp ((Only.reseatPended _).mono (by decide))).comp ((Only.reseatBalls _).mono (by decide))

section
variable {i u : Nat} (r : Req) {c : Chip}

theorem reseatAnswer_refused (h : c.reseatPrecondition i u ≠ 0) : reseatAnswer i u r c = (c, bad (c.reseatPrecondition i u)) := if_pos h

theorem reseatAnswer_busy (h : c.reseatPrecondition i u = 0) (hb : c.hostReseating = true) : reseatAnswer i u r c = (c, .busy 10) :=
  (if_neg (not_not.mpr h)).trans (if_pos hb)

theorem reseatAnswer_accepts (h : c.reseatPrecondition i u = 0) (hb : c.hostReseating = false) : reseatAnswer i u r c = (c, ok) :=
  (if_neg (not_not.mpr h)).trans (if_neg (by simp [hb]))

end

theorem exec_reseatRequest {p : Path} {tag : Word16} {i u : Byte} {s : State} {r : Req} {c : Chip}
    (h : gate p tag 0x2020 1 [i, u] (fun _ _ => if (reseatLimit i.toNat u.toNat).isSome then 0 else 2) s.chip = .go r c) :
    exec (.reseatRequest p tag i u) s = next s (if (reseatAnswer i.toNat u.toNat r c).2 = ok then
      (Chip.finish r.dest (reseatAnswer i.toNat u.toNat r c)).beginReseat i.toNat u.toNat true else Chip.finish r.dest (reseatAnswer i.toNat u.toNat r c)) :=
  congrArg (next s) (hostThen_go h)

/-! ## The drain's end (R484) -/

/-- From `a` to `b` the re-seats under way and the time are as they were. -/
structure DrainKept (a b : Chip) : Prop where
  runs : b.reseat.runs = a.reseat.runs
  ticks : b.clk.ticks = a.clk.ticks

theorem DrainKept.trans {a b c : Chip} (h : DrainKept a b) (k : DrainKept b c) : DrainKept a c := ⟨k.runs.trans h.runs, k.ticks.trans h.ticks⟩

theorem DrainKept.only {a b : Chip} {ps : List Part} (h : Only ps a b) (hr : Part.reseat ∉ ps := by decide) (hc : Part.clk ∉ ps := by decide) : DrainKept a b :=
  ⟨congrArg Reseat.runs (h .reseat hr), congrArg Clocks.ticks (h .clk hc)⟩

theorem DrainKept.heldClk {a b : Chip} (h : b.reseat.runs = a.reseat.runs) (hc : b.heldClk = a.heldClk) : DrainKept a b :=
  ⟨h, (congrArg Clocks.ticks hc : b.heldClk.ticks = a.heldClk.ticks)⟩

theorem Chip.resetSeq_reaches (s : Chip) (q : Nat) : Only runParts s (s.resetSeq q) :=
  (((Only.ite (s.endHeldRun_reaches _ _ _) (Only.refl s _)).comp ((Only.dropLaunch _).mono (by decide))).comp
    (Only.ite (Only.refl _ _) (Chip.makeIdle_reaches _ _ _))).comp (Only.foldl _ (fun c _ => (Only.endCondition c).mono (by decide)) _ _)

theorem Chip.resetHi_reaches (s : Chip) : Only runParts s s.resetHi := by
  unfold Chip.resetHi
  extract_lets offBus cleared
  have hoffBus : Only runParts s offBus :=
    (((Only.endSessions s).mono (by decide)).comp ((Only.dropController _).mono (by decide))).comp ((Only.dropController _).mono (by decide))
  have hcleared : Only runParts offBus cleared := Only.foldl _ (fun c _ => (Only.endCondition c).mono (by decide)) _ _
  exact ((hoffBus.comp hcleared).comp ((Only.dramCancel _).mono (by decide))).comp ((Only.modHost _).mono (by decide))

/-- The conductor's reset ends a replacement and no re-seat. -/
theorem Chip.resetCi_runs (s : Chip) : s.resetCi.reseat.runs = s.reseat.runs := by
  have hends : ∀ (l : List Nat) (c : Chip), Only idleParts c (l.foldl (fun t q => t.makeIdle q 8) c) := fun l c => Only.foldl _ (fun t _ => Only.makeIdle t) l c
  have hfails : ∀ (l : List CiReq) (c : Chip), Only idleParts c
      (l.foldl (fun t r => if r.reading then t.completeRead r.dest 8 [] else t.complete r.dest 8 [] 0) c) := fun l c =>
    Only.foldl _ (fun t _ => Only.ite ((Only.completeRead t).mono (by decide)) ((Only.complete t).mono (by decide))) l c
  unfold Chip.resetCi
  extract_lets arms idle waiting failed stored ended stopped
  have hstopped : Only [.ci, .watchdog] ended (stopped.modWatchdog fun w => { w with strikes := [], stopped := [] }) :=
    (((Only.modCi ended).mono (by simp)).comp ((Only.suspendSlots _).mono (by simp))).comp ((Only.modWatchdog _).mono (by simp))
  have hidle : Only idleParts s idle := hends _ s
  have hfailed : Only idleParts idle failed := ((Only.modHost idle).mono (by decide)).comp (hfails _ _)
  have hstored : Only idleParts failed stored := ((Only.completeOpt failed).mono (by decide)).comp ((Only.modBoot _).mono (by decide))
  have hcancelled : Only idleParts stored (stored.dramCancel fun r => r.cls == .conductor && r.dest.isNone) := (Only.dramCancel stored).mono (by decide)
  have hended : ended.reseat.runs = (stored.dramCancel fun r => r.cls == .conductor && r.dest.isNone).reseat.runs := rfl
  rw [hstopped.reseat, hended, (((hidle.comp hfailed).comp hstored).comp hcancelled).reseat]

theorem Chip.resetVi_reaches (s : Chip) : Only runParts s s.resetVi := by
  refine Only.comp ((Only.modCrypto s).mono (by decide)) (Only.foldl _ (fun c u => ?_) _ _)
  split
  · exact (Only.finishJob c).mono (by decide)
  · exact Only.refl c _

theorem Chip.resetSq_reaches (s : Chip) : Only runParts s s.resetSq :=
  Only.foldl _ (fun c q => (c.resetSeq_reaches q).comp ((Only.modSq _).mono (by decide))) _ s

theorem Chip.resetTi_runs (s : Chip) : s.resetTi.reseat.runs = s.reseat.runs := by
  unfold Chip.resetTi
  extract_lets cleared
  have hcleared : Only (.clk :: runParts) s cleared :=
    ((s.parkHeld_reaches.mono (by decide)).comp ((Only.modSegs _).mono (by decide))).comp ((Only.modClk _).mono (by decide))
  rw [(Only.relockAll [0, 1] cleared).reseat, hcleared.reseat]

theorem Chip.resetAcq_reaches (s : Chip) : Only runParts s s.resetAcq :=
  (((Only.foldl _ (fun c _ => ((Only.modSiteAq c).mono (by decide)).comp ((Only.modSeal _).mono (by decide))) _ s).comp
    (Only.foldl _ (fun c _ => (Only.modUnit c).mono (by decide)) _ _)).comp ((Only.dramCancel _).mono (by decide))).comp ((Only.modAcq _).mono (by decide))

theorem Chip.resetMi_reaches (s : Chip) : Only runParts s s.resetMi := (s.failWaiting_reaches 8).comp ((Only.modDram _).mono (by decide))

theorem Chip.resetEffects_runs (s : Chip) (i : Nat) : (s.resetEffects i).reseat.runs = s.reseat.runs := by
  unfold Chip.resetEffects
  split
  · exact congrArg Reseat.runs s.resetHi_reaches.reseat
  · exact s.resetCi_runs
  · exact congrArg Reseat.runs (Only.resetSi s).reseat
  · exact congrArg Reseat.runs s.resetVi_reaches.reseat
  · exact congrArg Reseat.runs s.resetSq_reaches.reseat
  · exact s.resetTi_runs
  · exact congrArg Reseat.runs s.resetAcq_reaches.reseat
  · exact congrArg Reseat.runs s.resetMi_reaches.reseat
  · rfl
  · exact congrArg Reseat.runs ((((Only.openRing s).comp (Only.modCluster _)).mono (qs := [.cluster, .clk]) (by simp)).comp ((Only.modClk _).mono (by simp))).reseat
  · rfl

theorem DrainKept.islandReset (s : Chip) (cause i : Nat) : DrainKept s (s.islandReset cause i) := by
  have hmarked : Only [.recorder, .islands] s ((s.islandRecord cause i 0xFF).putIsland i .resetting) :=
    ((Only.islandRecord s).mono (by simp)).comp ((Only.putIsland _).mono (by simp))
  exact DrainKept.heldClk ((Chip.resetEffects_runs ..).trans (congrArg Reseat.runs hmarked.reseat)) (s.islandReset_heldClk cause i)

theorem Chip.unitReset_reaches (s : Chip) (i u : Nat) : Only (.ci :: .watchdog :: .plls :: .clkos :: runParts) s (s.unitReset i u) := by
  unfold Chip.unitReset
  split
  · exact ((Only.dropController s).mono (by decide)).comp ((Only.modCtl _).mono (by decide))
  · exact (((Only.stopPartition s).mono (by decide)).comp ((Only.clearRam _).mono (by decide))).comp ((Only.modPart _).mono (by decide))
  · exact (s.resetSeq_reaches u).mono (by decide)
  · refine Only.comp (Only.ite (s.parkHeld_reaches.mono (by decide)) (Only.refl s _)) (Only.ite (Only.refl _ _) ?_)
    exact ((Only.endCondition _).mono (by decide)).comp ((Only.relock _).mono (by decide))
  · exact (Only.modDramCh s).mono (by decide)
  · exact Only.refl s _

/-- A device whose unit has reset. -/
def Chip.drained (s : Chip) (r : ReseatRun) : Chip :=
  if r.unit = 0xFF then (s.islandReset (if r.host then 3 else 2) r.island).islandLoad r.island
  else (s.islandRecord (if r.host then 3 else 2) r.island r.unit).unitReset r.island r.unit

theorem DrainKept.drained (s : Chip) (r : ReseatRun) : DrainKept s (s.drained r) := by
  unfold Chip.drained
  split
  · exact (DrainKept.islandReset ..).trans (DrainKept.only (Only.islandLoad _))
  · exact (DrainKept.only (Only.islandRecord s)).trans (DrainKept.only (Chip.unitReset_reaches _ _ _))

/-- A run that loads. -/
def ReseatRun.loads (now : Nat) (x : ReseatRun) : ReseatRun := { x with phase := .loading, resetAt := now }

theorem Chip.enterReset_eq (s : Chip) (r : ReseatRun) :
    s.enterReset r = ((s.drained r).modRun r.island r.unit (ReseatRun.loads (s.drained r).clk.ticks)).reseatStatus r .loading := rfl

theorem Chip.runs_reseatStatus (s : Chip) (r : ReseatRun) (x : ReseatSt) : (s.reseatStatus r x).reseat.runs = s.reseat.runs := by
  unfold Chip.reseatStatus
  split <;> rfl

theorem Chip.status_reseatStatus (s : Chip) {r : ReseatRun} (h : r.host = true) (x : ReseatSt) : (s.reseatStatus r x).reseat.status = x := by
  unfold Chip.reseatStatus
  rw [if_pos h]
  rfl

theorem Chip.enterReset_loads {s : Chip} {i u : Nat} {r : ReseatRun} (h : s.reseatRun i u = some r) :
    (s.enterReset r).reseatRun i u = some { r with phase := .loading, resetAt := s.clk.ticks } := by
  obtain ⟨rfl, rfl⟩ := Chip.reseatRun_some h
  have hkept := DrainKept.drained s r
  rw [Chip.enterReset_eq, Chip.reseatRun_eq (Chip.runs_reseatStatus _ r .loading), hkept.ticks]
  exact Chip.reseatRun_modRun (f := ReseatRun.loads s.clk.ticks) (fun _ => ⟨rfl, rfl, rfl⟩) ((Chip.reseatRun_eq hkept.runs r.island r.unit).trans h)

section
variable {s : Chip} {i u : Nat}

theorem reseatDrainEnd_none (h : s.reseatRun i u = none) : reseatDrainEnd i u s = s := by
  unfold reseatDrainEnd
  rw [h]

theorem reseatDrainEnd_some {r : ReseatRun} (h : s.reseatRun i u = some r) : reseatDrainEnd i u s = if r.phase = .draining then s.enterReset r else s := by
  unfold reseatDrainEnd
  rw [h]

end

/-! ## The outcome (R485) -/

/-- The parts that an island or unit reaches as it runs again. -/
def againParts : List Part := [.power, .clk, .plls, .clkos, .islands, .levels, .background, .ci, .watchdog] ++ runParts

theorem Only.startPll1 (s : Chip) : Only againParts s s.startPll1 := by
  have hrestored : ∀ c : Chip, Only [.clkos] c
      ((List.range 6).foldl (fun t k => t.modClko k fun c => { c with restored := c.restored.filter fun x => x.2.1 != 1 }) c) := fun c =>
    Only.foldl _ (fun t _ => Only.modClko t) _ c
  unfold Chip.startPll1
  refine Only.ite (Only.refl s _) ?_
  extract_lets marked l recorded
  have hmarked : Only againParts s marked := (Only.modClk s).mono (by decide)
  refine hmarked.comp (Only.ite (Only.refl _ _) (Only.ite ?_ ?_))
  · exact ((Only.modPll _).mono (by decide)).comp ((Only.relock _).mono (by decide))
  · exact ((Only.record marked).mono (by decide)).comp ((hrestored _).mono (by decide))

theorem Only.startIfRuns (s : Chip) : Only againParts s s.startIfRuns := Only.ite (Only.startPll1 s) (Only.refl s _)

theorem Only.runTimed (s : Chip) : Only againParts s s.runTimed := by
  unfold Chip.runTimed
  refine Only.comp (Only.foldl _ (fun c i => Only.ite ?_ (Only.refl c _)) _ s) (Only.startIfRuns _)
  exact (Only.ite ((Only.characteriseAll c).mono (by decide)) (Only.ite ((Only.modPower c).mono (by decide)) (Only.refl c _))).comp
    ((Only.runIsland _).mono (by decide))

theorem Only.recoverTi (s : Chip) : Only againParts s s.recoverTi := by
  unfold Chip.recoverTi
  extract_lets timed measured
  have htimed : Only againParts s timed := Only.ite (Only.runTimed s) (Only.refl s _)
  have hmeasured : Only againParts timed measured := Only.ite (Only.refl _ _) ((Only.characteriseAll _).mono (by decide))
  have hback : ∀ c : Chip, Only againParts c ((List.range 16).foldl
      (fun s q => if (s.sq q).state = .faulted ∧ s.reseating 5 q = false then s.recoverSeq q else s) c) := fun c =>
    Only.foldl _ (fun c _ => Only.ite ((Only.makeIdle c).mono (by decide)) (Only.refl c _)) _ c
  refine htimed.comp (Only.ite (Only.refl _ _) (hmeasured.comp ?_))
  exact (((Only.runIsland measured).mono (by decide)).comp (hback _)).comp (Only.startIfRuns _)

theorem Only.runCi (s : Chip) : Only againParts s s.runCi := by
  have hstarts : ∀ (l : List Nat) (c : Chip), Only againParts c (l.foldl (fun t p => if (t.part p).present then t.startPartition p 0 else t) c) := fun l c =>
    Only.foldl _ (fun t _ => Only.ite ((Only.startPartition t).mono (by decide)) (Only.refl t _)) l c
  unfold Chip.runCi
  extract_lets begun
  have hbegun : Only againParts s begun := ((Only.runIsland s).mono (by decide)).comp ((Only.modWatchdog _).mono (by decide))
  exact hbegun.comp (hstarts _ begun)

theorem Only.islandRun {i} (s : Chip) : Only againParts s (s.islandRun i) := by
  unfold Chip.islandRun
  split
  · exact (((Only.runIsland s).mono (by decide)).comp ((Only.modHost _).mono (by decide))).comp ((Only.initCan _).mono (by decide))
  · exact Only.runCi s
  · exact ((Only.runIsland s).mono (by decide)).comp (Only.recoverTi _)
  · exact ((Only.firstCalibration s).mono (by decide)).comp ((Only.runIsland _).mono (by decide))
  · exact (Only.runIsland s).mono (by decide)

theorem Only.unitRun {i u} (s : Chip) : Only againParts s (s.unitRun i u) := by
  unfold Chip.unitRun
  split
  · exact ((Only.modCtl s).mono (by decide)).comp ((Only.joinBus _).mono (by decide))
  · exact (Only.startPartition s).mono (by decide)
  · exact (Only.modDramCh s).mono (by decide)
  · exact Only.refl s _

theorem Only.recoverIsland {i} (s : Chip) : Only againParts s (s.recoverIsland i) := by
  unfold Chip.recoverIsland
  exact Only.ite (Only.recoverTi s) (Only.ite (Only.refl s _) (Only.ite ((Only.runIsland s).mono (by decide)) (Only.refl s _)))

/-- The re-seats that stay when one is complete: none of its island where the island was the unit. -/
def Chip.runCompleted (s : Chip) (i u : Nat) : Chip :=
  s.modReseat fun y => { y with runs := y.runs.filter fun x => x.island != i || (u != 0xFF && x.unit != u) }

/-- A device whose island or unit runs again. -/
def Chip.runsAgain (s : Chip) (i u : Nat) : Chip := if u = 0xFF then s.islandRun i else (s.unitRun i u).recoverIsland i

theorem Only.runsAgain {i u} (s : Chip) : Only againParts s (s.runsAgain i u) := Only.ite (Only.islandRun s) ((Only.unitRun s).comp (Only.recoverIsland _))

theorem Chip.reseatRun_runCompleted (s : Chip) (i u : Nat) : (s.runCompleted i u).reseatRun i u = none := by
  have hruns : (s.runCompleted i u).reseat.runs = s.reseat.runs.filter fun x => x.island != i || (u != 0xFF && x.unit != u) := rfl
  unfold Chip.reseatRun
  rw [hruns]
  refine List.find?_eq_none.mpr fun x hx hp => ?_
  have hother := (List.mem_filter.mp hx).2
  simp only [Bool.and_eq_true, beq_iff_eq] at hp
  simp [hp.1.1, hp.1.2] at hother

/-- The code in the outcome of a re-seat stands behind its island and unit. -/
theorem reseatLast_code (i u code ms : Nat) : slice (le 1 i ++ le 1 u ++ le 2 code ++ le 2 ms) 2 2 = le 2 code := rfl

theorem Chip.reseatOutcome_host {s : Chip} {r : ReseatRun} (h : r.host = true) (good : Bool) :
    (s.reseatOutcome r good).reseat.status = (if good then .completed else .failed) ∧ (s.reseatOutcome r good).reseat.count = satAdd 32 s.reseat.count 1 ∧
      slice (s.reseatOutcome r good).reseat.last 2 2 = le 2 (if good then 0 else 4) := by
  unfold Chip.reseatOutcome
  rw [if_pos h]
  exact ⟨rfl, rfl, reseatLast_code ..⟩

theorem Chip.reseatOutcome_other {s : Chip} {r : ReseatRun} (h : r.host = false) (good : Bool) : s.reseatOutcome r good = s := if_neg (by simp [h])

section
variable {s : Chip} {i u : Nat}

theorem reseatComplete_none (h : s.reseatRun i u = none) : reseatComplete i u s = s := by
  unfold reseatComplete
  rw [h]

theorem reseatComplete_rests {r : ReseatRun} (h : s.reseatRun i u = some r) (hn : r.phase ≠ .loading ∨ s.reseatReady r = false) : reseatComplete i u s = s := by
  unfold reseatComplete
  rw [h]
  exact if_pos hn

theorem reseatComplete_completes {r : ReseatRun} (h : s.reseatRun i u = some r) (hp : r.phase = .loading) (hr : s.reseatReady r = true) :
    reseatComplete i u s = ((s.runCompleted i u).runsAgain i u).reseatOutcome r true := by
  unfold reseatComplete
  rw [h]
  exact if_neg (by simp [hp, hr])

theorem reseatExpiry_none (h : s.reseatRun i u = none) : reseatExpiry i u s = s := by
  unfold reseatExpiry
  rw [h]

theorem reseatExpiry_some {r : ReseatRun} {ms : Nat} (h : s.reseatRun i u = some r) (hl : reseatLimit i u = some ms) :
    reseatExpiry i u s = if r.phase = .loading ∧ s.overMs r.resetAt ms = true then s.failReseat r else s := by
  unfold reseatExpiry
  rw [h, hl]

end

/-! ## The limit (R386, R485) -/

theorem Only.retireChannel {k} (s : Chip) : Only (.islands :: runParts) s (s.retireChannel k) :=
  ((((((s.parkAll_reaches.comp (Chip.failWaiting_reaches _ 8)).mono (by decide)).comp ((Only.modDramCh _).mono (by decide))).comp
    ((Only.modDramCh _).mono (by decide))).comp ((Only.modDram _).mono (by decide)))).comp ((Only.putIsland _).mono (by decide))

theorem Only.faultChannel {k x} (s : Chip) : Only (.islands :: runParts) s (s.faultChannel k x) := by
  unfold Chip.faultChannel
  extract_lets faulted recorded
  have hrecorded : Only (.islands :: runParts) s recorded :=
    (((Only.modDramCh s).mono (by decide)).comp ((Only.modDram _).mono (by decide))).comp ((Only.record faulted).mono (by decide))
  refine hrecorded.comp (Only.ite (Only.retireChannel _) ?_)
  exact ((Chip.stopMi_reaches recorded 4 _).mono (by decide)).comp ((Only.failIsland _).mono (by decide))

theorem Only.unitOut {i u} (s : Chip) : Only [.host, .seqs, .plls, .dram] s (s.unitOut i u) := by
  unfold Chip.unitOut
  split
  · exact (Only.modCtl s).mono (by simp)
  · exact (Only.modSq s).mono (by simp)
  · exact (Only.modPll s).mono (by simp)
  · exact (Only.modDramCh s).mono (by simp)
  · exact Only.refl s _

/-- A run that has failed. -/
def ReseatRun.fails (x : ReseatRun) : ReseatRun := { x with failed := true }

theorem Chip.failReseat_reaches (s : Chip) (r : ReseatRun) : ∃ u : Chip, Only (.islands :: .plls :: runParts) (s.modRun r.island r.unit ReseatRun.fails) u ∧
    s.failReseat r = u.reseatOutcome r false := by
  refine ⟨_, ?_, rfl⟩
  refine Only.comp (Only.ite ((Only.faultChannel _).mono (by decide)) ?_) ((Only.islandRecord _).mono (by decide))
  exact (Only.ite (Only.refl _ _) ((Only.unitOut _).mono (by decide))).comp ((Only.failIsland _).mono (by decide))

theorem Chip.failReseat_marks {s : Chip} {i u : Nat} {r : ReseatRun} (h : s.reseatRun i u = some r) :
    ((s.failReseat r).reseat.runs.any fun x => x.failed && x.island == i && x.unit == u) = true := by
  obtain ⟨hi, hu⟩ := Chip.reseatRun_some h
  obtain ⟨c, hc, he⟩ := s.failReseat_reaches r
  rw [he, Chip.reseatOutcome_runs, hc.reseat, Chip.runs_modRun, List.any_map, List.any_eq_true]
  refine ⟨r, (Chip.reseatRun_mem h).1, ?_⟩
  simp [ReseatRun.fails, hi, hu]

theorem Chip.failReseat_outcome {s : Chip} {r : ReseatRun} (h : r.host = true) :
    (s.failReseat r).reseat.status = .failed ∧ slice (s.failReseat r).reseat.last 2 2 = le 2 4 := by
  obtain ⟨c, -, he⟩ := s.failReseat_reaches r
  obtain ⟨hs, -, hl⟩ := Chip.reseatOutcome_host (s := c) h false
  rw [he]
  exact ⟨hs, hl⟩

end Sys2Proof.Machine
end

section
/-! SUPPORT. The replacement of a partition (R487 to R490), and the rows of re-seats and replacements. -/

namespace Sys2Proof.Machine

theorem finish_bad (t : Target) (c : Chip) (code : Nat) : Chip.finish t (c, bad code) = c.complete t code [] 0 := rfl

/-! ## REPLACE_PARTITION (R487, R488) -/

theorem exec_replacePartition {p : Path} {tag : Word16} {n : Byte} {s : State} {r : Req} {c : Chip}
    (h : gate p tag 0x2020 6 [n] (fun _ s => if (s.part n.toNat).present then 0 else 2) s.chip = .go r c) :
    exec (.replacePartition p tag n) s = next s (Chip.finish r.dest (replacePartition n.toNat r c)) := congrArg (next s) (hostWrite_go h)

theorem replacePartition_refused {n : Nat} (r : Req) {c : Chip} (h : replaceState c ≠ 0) : replacePartition n r c = (c, bad (replaceState c)) := if_pos h

theorem replacePartition_reads {n : Nat} (r : Req) {c : Chip} (h : replaceState c = 0) : replacePartition n r c = c.withStaged (replaceChecked n) :=
  if_neg (not_not.mpr h)

/-- A device whose partition has stopped for its replacement, its share cleared. -/
def Chip.partEmptied (s : Chip) (p : Nat) : Chip := ((s.stopPartition p).clearRam p).modPart p fun x => { x with replacing := true, packets := [] }

/-- A device that replaces a partition by an image. -/
def Chip.partReplacing (s : Chip) (p : Nat) (img : Bytes) : Chip :=
  (s.partEmptied p).modReseat fun r => { r with replacing := some p, replacement := 0xFFFF, image := img }

/-- A device whose running slot has lost its header block. -/
def Chip.headerErased (s : Chip) : Chip := s.flashErase (areaBase s.boot.running.toNat) 4096

theorem Only.headerErased (s : Chip) : Only [.boot] s s.headerErased := Only.modBoot s

section
variable {p : Nat} {img : Bytes}

theorem replaceChecked_fails {d : Chip} (h : replaceCode p img d ≠ 0) : replaceChecked p img d = (d, bad (replaceCode p img d)) := if_pos h

theorem replaceChecked_passes {d : Chip} (h : replaceCode p img d = 0) :
    replaceChecked p img d = ((d.partReplacing p img).headerErased, ok) := if_neg (not_not.mpr h)

end

theorem Only.partEmptied {p} (s : Chip) : Only [.ci, .watchdog] s (s.partEmptied p) :=
  ((Only.stopPartition s).comp ((Only.clearRam _).mono (by simp))).comp ((Only.modPart _).mono (by simp))

theorem Chip.part_partEmptied (s : Chip) (p q : Nat) :
    (s.partEmptied p).part q = if q = p then { s.part p with running := false, replacing := true, packets := [] } else s.part q := by
  have h : ∀ j, ((s.stopPartition p).clearRam p).part j = if j = p then { s.part p with running := false } else s.part j :=
    fun j => Chip.part_stopPartition s p j
  refine (Chip.part_modPart _ p q _).trans ?_
  rw [h, h, if_pos rfl]
  split <;> rfl

/-! ## REPLACEMENT_COMPLETE (R488, R489) -/

theorem Only.writeArea {a img} (s : Chip) : Only [.boot] s (s.writeArea a img) := ((Only.modBoot s).comp (Only.modBoot _)).comp (Only.modBoot _)

/-- A device whose replacement has ended with a status. -/
def Chip.replaced (s : Chip) (code : Nat) : Chip := s.modReseat fun r => { r with replacing := none, image := [], replacement := code }

/-- A device that holds the digest and the signer of an image, and the descriptor that the image gives a partition. -/
def Chip.described (s : Chip) (img : Bytes) (p : Nat) : Chip :=
  (s.modBoot fun b => { b with digest := imgDigest img, signer := imgSigner img }).modPart p fun x => { x with desc := (descOf img p).getD x.desc }

/-- A device whose replaced partition stays stopped. -/
def Chip.leftStopped (s : Chip) (p : Nat) : Chip := (s.modPart p fun x => { x with replacing := false }).modSlots p fun x => { x with state := .inactive }

/-- The device after the image of its replacement is written. -/
def Chip.imageWritten (s : Chip) : Chip := s.writeArea s.boot.running.toNat s.reseat.image

section
variable {s : Chip}

theorem replacementComplete_none (h : s.reseat.replacing = none) : replacementComplete s = s := by
  unfold replacementComplete
  rw [h]

theorem replacementComplete_some {p : Nat} (h : s.reseat.replacing = some p) : replacementComplete s =
    if s.imageWritten.areaStatus s.boot.running.toNat ≠ 0 then (s.imageWritten.replaced (s.imageWritten.areaStatus s.boot.running.toNat)).leftStopped p
    else ((s.imageWritten.replaced (s.imageWritten.areaStatus s.boot.running.toNat)).described s.reseat.image p).startPartition p 2 := by
  unfold replacementComplete
  rw [h]
  rfl

end

theorem Only.leftStopped {p} (s : Chip) : Only [.ci, .watchdog] s (s.leftStopped p) :=
  ((Only.modPart s).mono (by simp)).comp ((Only.modSlots _).mono (by simp))

theorem Chip.part_leftStopped (s : Chip) (p q : Nat) : (s.leftStopped p).part q = if q = p then { s.part p with replacing := false } else s.part q :=
  ((Only.modSlots _).part (p := q)).trans (Chip.part_modPart s p q _)

theorem Chip.part_described (s : Chip) (img : Bytes) (p q : Nat) :
    (s.described img p).part q = if q = p then { s.part p with desc := (descOf img p).getD (s.part p).desc } else s.part q :=
  Chip.part_modPart (s.modBoot fun b => { b with digest := imgDigest img, signer := imgSigner img }) p q _

theorem Chip.part_imageWritten_replaced (s : Chip) (code q : Nat) : (s.imageWritten.replaced code).part q = s.part q :=
  ((Only.modReseat s.imageWritten).part (p := q)).trans ((Only.writeArea s).part (p := q))

/-- A partition's first packets leave that it is not being replaced. -/
theorem Chip.replacing_traceStart (s : Chip) (p info : Nat) : ((s.traceStart p info).part p).replacing = (s.part p).replacing := by
  unfold Chip.traceStart
  rw [Chip.part_modPart, if_pos rfl]
  dsimp only
  split <;> rfl

/-- A partition that starts is no longer being replaced. -/
theorem Chip.replacing_startPartition (s : Chip) (p info : Nat) : ((s.startPartition p info).part p).replacing = false := by
  unfold Chip.startPartition
  rw [(Only.graceSlots _).part, Chip.replacing_traceStart, Chip.part_modPart, if_pos rfl]

section
variable {s : State} {n : Nat}

/-- REPLACEMENT_COMPLETE of an image that fails its check. -/
theorem replacementComplete_fails (h : s.chip.reseat.replacing = some n) {code : Nat} (hcode : code = s.chip.imageWritten.areaStatus s.chip.boot.running.toNat) (hc : code ≠ 0) :
    replacementComplete s.chip = (s.chip.imageWritten.replaced code).leftStopped n := by
  subst hcode
  rw [replacementComplete_some h, if_pos hc]

/-- REPLACEMENT_COMPLETE of an image that passes its check. -/
theorem replacementComplete_passes (h : s.chip.reseat.replacing = some n) {code : Nat} (hcode : code = s.chip.imageWritten.areaStatus s.chip.boot.running.toNat) (hc : code = 0) :
    replacementComplete s.chip = ((s.chip.imageWritten.replaced code).described s.chip.reseat.image n).startPartition n 2 := by
  subst hcode
  rw [replacementComplete_some h, if_neg (not_not.mpr hc)]

end

theorem exec_replacementComplete (s : State) : exec .replacementComplete s = next s (replacementComplete s.chip) := rfl

/-! ## The rows -/

section
variable (i : Island) (u : Byte) (s : State)

theorem exec_reseatDrainEnd : exec (.reseatDrainEnd i u) s = next s (reseatDrainEnd (islandNo i) u.toNat s.chip) := rfl

theorem exec_reseatComplete : exec (.reseatComplete i u) s = next s (reseatComplete (islandNo i) u.toNat s.chip) := rfl

theorem exec_reseatLimitExpiry : exec (.reseatLimitExpiry i u) s = next s (reseatExpiry (islandNo i) u.toNat s.chip) := rfl

end

/-- Where the device does not change, the step leaves the state. -/
theorem next_self {s : State} {c : Chip} (h : c = s.chip) : next s c = .next s := by
  subst h
  rfl

/-- An accepted re-seat is answered, then its unit drains (R483). -/
theorem reseatRequest_row (p : Path) (tag : Word16) (i u : Byte) (s : State) (r : Req) (c : Chip)
    (h : gate p tag 0x2020 1 [i, u] (fun _ _ => if (reseatLimit i.toNat u.toNat).isSome then 0 else 2) s.chip = .go r c)
    (hp : c.reseatPrecondition i.toNat u.toNat = 0) (hb : c.hostReseating = false) :
    ∃ (c' : Chip) (x : ReseatRun), exec (.reseatRequest p tag i u) s = next s c' ∧
      c'.reseatRun i.toNat u.toNat = some x ∧ x.host = true ∧ x.phase = .draining ∧ c'.reseat.status = .draining ∧
      (u = 0xFF → c.islands.length = 11 → i.toNat < 11 → c'.island i.toNat = .reseatPending) ∧ (∀ j, j ≠ i.toNat → c'.island j = c.island j) ∧
      Only [.host, .out, .pair, .reseat, .islands, .lanes, .levels, .cluster, .dram, .clk, .clkos] c c' := by
  have hexec := exec_reseatRequest h
  rw [reseatAnswer_accepts r hp hb, if_pos rfl, finish_ok] at hexec
  have hdone : Only [.host, .out, .pair] c (c.complete r.dest 0 [] 0) := Only.complete c
  have hreseat := (c.complete r.dest 0 [] 0).beginReseat_reseat i.toNat u.toNat true
  refine ⟨_, _, hexec, (Chip.reseatRun_eq (congrArg Reseat.runs hreseat) _ _).trans (Chip.reseatRun_reseatEntered ..), rfl, rfl, ?_, ?_, ?_, ?_⟩
  · rw [hreseat]
    rfl
  · intro hu hlen hi
    subst hu
    exact Chip.island_beginReseat_own (by rw [hdone.get .islands]; omega) true
  · intro j hj
    exact (Chip.island_beginReseat_ne _ hj _ _).trans (hdone.island (by decide) j)
  · exact (hdone.mono (by decide)).comp ((Only.beginReseat _).mono (by decide))

theorem reseatDrainEnd_row {i : Island} {u : Byte} {s : State} {r : ReseatRun} (h : s.chip.reseatRun (islandNo i) u.toNat = some r) (hp : r.phase = .draining) :
    ∃ t, exec (.reseatDrainEnd i u) s = .next t ∧
      t.chip.reseatRun (islandNo i) u.toNat = some { r with phase := .loading, resetAt := s.chip.clk.ticks } ∧ (r.host = true → t.chip.reseat.status = .loading) := by
  have hloads := Chip.enterReset_loads h
  refine ⟨_, (exec_reseatDrainEnd i u s).trans (congrArg (next s) ((reseatDrainEnd_some h).trans (if_pos hp))), hloads, fun hh => ?_⟩
  dsimp only
  rw [Chip.enterReset_eq]
  exact Chip.status_reseatStatus _ hh _

theorem reseatComplete_row {i : Island} {u : Byte} {s : State} {r : ReseatRun} (h : s.chip.reseatRun (islandNo i) u.toNat = some r)
    (hp : r.phase = .loading) (hr : s.chip.reseatReady r = true) :
    ∃ t, exec (.reseatComplete i u) s = .next t ∧ t.chip.reseatRun (islandNo i) u.toNat = none ∧
      (r.host = true → t.chip.reseat.status = .completed ∧ t.chip.reseat.count = satAdd 32 s.chip.reseat.count 1 ∧ slice t.chip.reseat.last 2 2 = le 2 0) ∧
      (r.host = false → t.chip.reseat.status = s.chip.reseat.status) := by
  refine ⟨_, (exec_reseatComplete i u s).trans (congrArg (next s) (reseatComplete_completes h hp hr)), ?_⟩
  dsimp only
  have hagain : (((s.chip.runCompleted (islandNo i) u.toNat)).runsAgain (islandNo i) u.toNat).reseat = (s.chip.runCompleted (islandNo i) u.toNat).reseat :=
    (Only.runsAgain _).reseat
  generalize ((s.chip.runCompleted (islandNo i) u.toNat)).runsAgain (islandNo i) u.toNat = again at hagain ⊢
  refine ⟨?_, fun hh => ?_, fun hh => ?_⟩
  · rw [Chip.reseatRun_eq (Chip.reseatOutcome_runs ..), Chip.reseatRun_eq (congrArg Reseat.runs hagain)]
    exact Chip.reseatRun_runCompleted ..
  · obtain ⟨hstatus, hcount, hlast⟩ := Chip.reseatOutcome_host (s := again) hh true
    refine ⟨hstatus, ?_, hlast⟩
    rw [hcount, hagain]
    rfl
  · rw [Chip.reseatOutcome_other hh, hagain]
    rfl

theorem reseatLimitExpiry_row {i : Island} {u : Byte} {s : State} {r : ReseatRun} {ms : Nat} (h : s.chip.reseatRun (islandNo i) u.toNat = some r)
    (hl : reseatLimit (islandNo i) u.toNat = some ms) (hp : r.phase = .loading) (ho : s.chip.overMs r.resetAt ms = true) :
    ∃ t, exec (.reseatLimitExpiry i u) s = .next t ∧
      (t.chip.reseat.runs.any fun x => x.failed && x.island == islandNo i && x.unit == u.toNat) = true ∧
      (r.host = true → t.chip.reseat.status = .failed ∧ slice t.chip.reseat.last 2 2 = le 2 4) :=
  ⟨_, (exec_reseatLimitExpiry i u s).trans (congrArg (next s) ((reseatExpiry_some h hl).trans (if_pos ⟨hp, ho⟩))), Chip.failReseat_marks h,
    fun hh => Chip.failReseat_outcome hh⟩

/-- An accepted replacement stops the partition, marks it and reads 0xFFFF (R488). -/
theorem replacePartition_row (p : Path) (tag : Word16) (n : Byte) (s : State) (r : Req) (c : Chip)
    (h : gate p tag 0x2020 6 [n] (fun _ s => if (s.part n.toNat).present then 0 else 2) s.chip = .go r c)
    {img : Bytes} {d : Chip} (hs : replaceState c = 0) (hd : c.readStaged = (some img, d)) (hc : replaceCode n.toNat img d = 0) :
    ∃ c' : Chip, exec (.replacePartition p tag n) s = next s (c'.complete r.dest 0 [] 0) ∧ (c'.part n.toNat).running = false ∧
      (c'.part n.toNat).replacing = true ∧ c'.reseat.replacing = some n.toNat ∧ c'.reseat.replacement = 0xFFFF ∧ c'.reseat.image = img ∧
      (∀ q, q ≠ n.toNat → c'.part q = d.part q) ∧ Only [.ci, .watchdog, .reseat, .boot] d c' := by
  have hexec := exec_replacePartition h
  rw [replacePartition_reads r hs, Chip.withStaged_some hd, replaceChecked_passes hc, finish_ok] at hexec
  have herased : Only [.boot] (d.partReplacing n.toNat img) (d.partReplacing n.toNat img).headerErased := Only.headerErased _
  have hpart : ∀ q, (d.partReplacing n.toNat img).headerErased.part q =
      if q = n.toNat then { d.part n.toNat with running := false, replacing := true, packets := [] } else d.part q := fun q =>
    (herased.part (p := q)).trans (Chip.part_partEmptied d n.toNat q)
  refine ⟨_, hexec, ?_, ?_, congrArg Reseat.replacing herased.reseat, congrArg Reseat.replacement herased.reseat, congrArg Reseat.image herased.reseat,
    fun q hq => (hpart q).trans (if_neg hq), ?_⟩
  · rw [hpart, if_pos rfl]
  · rw [hpart, if_pos rfl]
  · exact (((Only.partEmptied d).mono (by decide)).comp ((Only.modReseat _).mono (by decide))).comp (herased.mono (by decide))

theorem replacementComplete_row {s : State} {n code : Nat} (h : s.chip.reseat.replacing = some n)
    (hcode : code = s.chip.imageWritten.areaStatus s.chip.boot.running.toNat) :
    ∃ t, exec .replacementComplete s = .next t ∧ t.chip.reseat.replacing = none ∧ t.chip.reseat.replacement = code ∧ (t.chip.part n).replacing = false ∧
      (code = 0 → (t.chip.part n).running = true ∧ t.chip.boot.digest = imgDigest s.chip.reseat.image) ∧
      (code ≠ 0 → (t.chip.part n).running = (s.chip.part n).running) ∧ (∀ q, q ≠ n → t.chip.part q = s.chip.part q) := by
  have hpart := s.chip.part_imageWritten_replaced code
  by_cases hc : code = 0
  · refine ⟨_, (exec_replacementComplete s).trans (congrArg (next s) (replacementComplete_passes h hcode hc)), ?_⟩
    dsimp only
    have hstart : Only [.ci, .watchdog] ((s.chip.imageWritten.replaced code).described s.chip.reseat.image n)
      (((s.chip.imageWritten.replaced code).described s.chip.reseat.image n).startPartition n 2) := Only.startPartition _
    obtain ⟨hruns, -, hothers⟩ := ((s.chip.imageWritten.replaced code).described s.chip.reseat.image n).startPartition_runs n 2
    refine ⟨congrArg Reseat.replacing hstart.reseat, congrArg Reseat.replacement hstart.reseat, Chip.replacing_startPartition .., fun _ => ⟨hruns, ?_⟩,
      fun hn => absurd hc hn, fun q hq => ?_⟩
    · rw [hstart.get .boot]
      rfl
    · rw [hothers q hq, Chip.part_described, if_neg hq, hpart]
  · refine ⟨_, (exec_replacementComplete s).trans (congrArg (next s) (replacementComplete_fails h hcode hc)), ?_⟩
    dsimp only
    have hstopped : Only [.ci, .watchdog] (s.chip.imageWritten.replaced code) ((s.chip.imageWritten.replaced code).leftStopped n) := Only.leftStopped _
    refine ⟨congrArg Reseat.replacing hstopped.reseat, congrArg Reseat.replacement hstopped.reseat, ?_, fun h0 => absurd h0 hc, fun _ => ?_, fun q hq => ?_⟩
    · rw [Chip.part_leftStopped, if_pos rfl]
    · rw [Chip.part_leftStopped, if_pos rfl, hpart]
    · rw [Chip.part_leftStopped, if_neg hq, hpart]

/-- Settles O56, row by row: the request by its answer, the drain's end, the completion and the limit by the re-seat under way,
and the replacement by the partition that it stops and starts again. -/
theorem reseatAndReplacementRows : Obligations.ReseatAndReplacementRows := by
  unfold Obligations.ReseatAndReplacementRows
  refine ⟨fun p tag i u s r c h => ⟨fun hp => ?_, fun hp hb => ?_, fun hp hb => reseatRequest_row p tag i u s r c h hp hb⟩,
    fun i u s => ⟨fun h => ?_, fun r h => ?_⟩,
    fun p tag n s r c h => ⟨fun hs => ?_, fun d hs hd => ?_, fun img d hs hd => ⟨fun hc => ?_, fun hc => replacePartition_row p tag n s r c h hs hd hc⟩⟩,
    fun s => ⟨fun h => ?_, fun n code h hcode => replacementComplete_row h hcode⟩⟩
  · rw [exec_reseatRequest h, reseatAnswer_refused r hp, if_neg (by simpa using hp), finish_bad]
  · rw [exec_reseatRequest h, reseatAnswer_busy r hp hb, if_neg (by simp [ok])]
    rfl
  · exact ⟨next_self (reseatDrainEnd_none h), next_self (reseatComplete_none h), next_self (reseatExpiry_none h)⟩
  · refine ⟨fun hp => ?_, reseatDrainEnd_row h, fun hn => ?_, reseatComplete_row h, fun ms hl hp ho => reseatLimitExpiry_row h hl hp ho, fun ms hl hn => ?_⟩
    · exact next_self ((reseatDrainEnd_some h).trans (if_neg hp))
    · exact next_self (reseatComplete_rests h hn)
    · refine next_self ((reseatExpiry_some h hl).trans (if_neg ?_))
      rintro ⟨hp, ho⟩
      exact hn.elim (fun hq => hq hp) (fun hq => by simp [ho] at hq)
  · rw [exec_replacePartition h, replacePartition_refused r hs, finish_bad]
  · rw [exec_replacePartition h, replacePartition_reads r hs, Chip.withStaged_none hd, finish_bad]
  · rw [exec_replacePartition h, replacePartition_reads r hs, Chip.withStaged_some hd, replaceChecked_fails hc, finish_bad]
  · exact next_self (replacementComplete_none h)

end Sys2Proof.Machine
end
